-- ==== Sys2Proof/Word.lean ====
section
/-! DEFINITION. The word types of the part: 8-bit bytes and 32-bit words (R6). -/

namespace Sys2Proof

/-- A byte (R6). -/
abbrev Byte := BitVec 8
/-- A register word (R6). -/
abbrev Word := BitVec 32
/-- The tag of a command and of its result (R28). -/
abbrev Tag := BitVec 8

end Sys2Proof
end

