-- ==== Sys2Proof/Syntax.lean ====
section
/-! DEFINITION. The commands of the part: one constructor per row of spec/opcode_table.json, with the operands that the
row's rule gives it. Where the rule's effect depends on what the outside does (the air, a partner, a sensor, a test
outcome), that is an operand of the command. -/

namespace Sys2Proof

/-- Who issues an access: a tile (its controller, its engines or its hardware) or the PCI Express host. -/
inductive Req where
  | tile (n : Fin 18)
  | host
deriving DecidableEq, Repr

/-- A Uzoath thread: its tile, its logical engine (0 outside the clusters) and its number (R36, R39). -/
structure ThreadRef where
  tile : Fin 18
  eng : Fin 8
  thr : Fin 4
deriving DecidableEq, Repr

/-- An access of a tile's own hardware to a device address: what it writes, none for a read (R25). -/
structure Access where
  addr : BitVec 40
  size : Nat
  wdata : Option Word
deriving DecidableEq, Repr

/-- What SELFTEST found: the spares now in service and, for a radio's decoder lanes and a cluster's engines, the physical units
that failed and are replaced; or a failed unit with no spare left (R18). -/
inductive TestOutcome where
  | pass (sparesUsed : BitVec 8) (replaced : List (BitVec 8))
  | noSpare (unit : BitVec 8)
deriving DecidableEq, Repr

/-- A run during which the envelope of the whole window exceeds the running noise estimate, as the receiver measures it (R137): how
many 2 ns cycles before the end of the frame it began, its length in nanoseconds, the least excess in dB, its peak in half decibels
of full scale, the slope where one was measured, centre bin and bandwidth. -/
structure SensePulse where
  ago : Nat
  ns : Nat
  above : Int
  peak : Int
  slope : Option (BitVec 16)
  centre : BitVec 16
  bandwidth : BitVec 16
deriving DecidableEq, Repr

/-- How a calibration slice ends (R126, R127): it yields at a checkpoint, ends with more slices of its round to come, or
ends the round, converged or not. -/
inductive SliceEnd where
  | yields
  | more
  | round (converged : Bool)
deriving DecidableEq, Repr

/-- What the ECC and check units find as a read's data leaves the store (R320, R322): nothing, a corrected error, an
uncorrectable sector, uncorrectable check or state metadata, a block check that does not match, or an uncorrectable
free-list link of a pool that leaves so many units in its list. -/
inductive ReadFound where
  | clean
  | corrected
  | uncorrectable
  | metadata
  | checkFail
  | freeLink (pool : Fin 64) (kept : Nat)
deriving DecidableEq, Repr

/-- An error that a scrub read finds (R324): a sector that is uncorrectable, or a block whose check fails. -/
inductive ScrubFound where
  | sector (addr : BitVec 33)
  | check (addr : BitVec 33)
deriving DecidableEq, Repr

/-- What the SIG fields of a PPDU announce (R160 to R163), coded as the PPDU record of R181 codes it; `multi` marks an
HE MU or EHT MU PPDU with OFDMA or more than one user, `excluded` an option that R161 excludes and no other field shows;
`smoothing` and `beamformed` are the bits of R174, and `users` the users of a TB PPDU whose RUs the radio decodes. -/
structure RxSig where
  format : BitVec 8
  bw : BitVec 3
  punct : BitVec 16
  mcs : BitVec 8
  coding : BitVec 8
  giLtf : BitVec 8
  length : BitVec 32
  multi : Bool
  excluded : Bool
  color : BitVec 6
  txop : Option (BitVec 16)
  smoothing : Bool
  beamformed : Bool
  users : List (BitVec 8)
deriving DecidableEq, Repr

/-- What a SIG field that is not the last identifies (R161): a format, coded as in `RxSig`, and whether it shows an excluded option. -/
structure SigId where
  format : BitVec 8
  excluded : Bool
deriving DecidableEq, Repr

/-- A SIG field that ends (R167, R267): it passes and more follow, the last one passes, it fails, or it is the header of a
Towpath frame, 96 bits in air order. -/
inductive SigCheck where
  | more (id : Option SigId)
  | last (sig : RxSig)
  | fails
  | towpath (hdr : BitVec 96)
deriving DecidableEq, Repr

/-- What the radio measured of a received PPDU, or of one user of a TB PPDU (R182), coded as the PPDU record codes it. -/
structure RxMeas where
  user : BitVec 8
  rssi : BitVec 16
  chainRssi : List Byte
  snr : List Byte
  cfo : BitVec 16
  sfo : BitVec 16
deriving DecidableEq, Repr

/-- The kinds of received MPDU that the MAC tells apart (R186, R195, R201, R211); an MU-RTS and a trigger name their users by AID12. -/
inductive MpduKind where
  | mgmt (robust : Bool)
  | data (tid : BitVec 3) (seq : BitVec 12) (ackPolicy : BitVec 2)
  | rts
  | muRts (aids : List (BitVec 12))
  | cts
  | ack
  | blockAck (tid : BitVec 3) (ssn : BitVec 12) (bitmap : List Bool)
  | bar (tid : BitVec 3) (ssn : BitVec 12)
  | psPoll (aid : BitVec 11)
  | cfEnd
  | trigger (aids : List (BitVec 12))
  | otherControl
deriving DecidableEq, Repr

/-- Protection of a received MPDU (R211): key ID, whether its MIC is good, its PN. -/
structure MpduKey where
  keyId : BitVec 3
  micOk : Bool
  pn : BitVec 48
deriving DecidableEq, Repr

/-- A decoded MPDU as it reaches the MAC: FCS, kind, addresses, Duration, protection, the PM bit of a frame that ends a
frame exchange, its queue-size reports (access category and bytes), whether it is a U-APSD trigger, the first and last of the
codewords that hold it, its TB user and bytes. -/
structure RxMpdu where
  fcsOk : Bool
  kind : MpduKind
  a1 : BitVec 48
  a2 : BitVec 48
  a3 : BitVec 48
  duration : BitVec 16
  key : Option MpduKey
  pm : Option Bool
  report : List (BitVec 2 × BitVec 32)
  uapsd : Bool
  cws : Option (Nat × Nat)
  user : BitVec 8
  bytes : List Byte
deriving DecidableEq, Repr

/-- The decoded bytes of a Towpath frame's data, subframes, END delimiter and link check with what follows them (R271, R272), and the
SNR in 0.25 dB units measured per tone and stream, by eight times the tone plus the stream (R275). -/
structure TpPayload where
  run : List Byte
  snr : List (Nat × Int)
deriving DecidableEq, Repr

/-- The frozen gain re-evaluated over the HE-STF or EHT-STF (R130, R169): gain and frozen level of each chain, and the
level that becomes the reference of the restart detector. -/
structure StfLevels where
  gains : List Byte
  levels : List Byte
  ref : Int
deriving DecidableEq, Repr

/-- Where a work item that reaches SCHED comes from (R378): an ingress of CLASS, CIPHER, or the place of an ENQ among those on
their way. -/
inductive ItemSrc where
  | cls (i : Fin 11)
  | cipher
  | enq (n : Nat)
deriving DecidableEq, Repr

/-- A configuration request of the host that changes what this model holds (R434, R435): the size of BAR 2 as a power of 2,
the function mask of the MSI-X capability, or any other, which changes nothing here. -/
inductive HostCfg where
  | barSize (log2 : Fin 64)
  | functionMask (on : Bool)
  | other
deriving DecidableEq, Repr

/-- The commands, one constructor per row of the table. -/
inductive Instr where
  /-- REQ_STATE_OFF (R17): A TILE_CTL write with REQ_STATE 0 requests OFF; it is accepted in every state and posts no result. -/
  | reqStateOff (t : Fin 18) (tag : Tag) (lock : Bool)
  /-- REQ_STATE_RESET (R17): A TILE_CTL write with REQ_STATE 1 requests RESET, discarding work in flight and any posted result. -/
  | reqStateReset (t : Fin 18) (tag : Tag) (lock : Bool)
  /-- REQ_STATE_SELFTEST (R17): A TILE_CTL write with REQ_STATE 2 requests HELD to SELFTEST to HELD, and needs the token. -/
  | reqStateSelftest (t : Fin 18) (tag : Tag) (lock : Bool)
  /-- REQ_STATE_CALIBRATE (R17): A TILE_CTL write with REQ_STATE 3 requests HELD to CALIBRATE to HELD, and needs the token. -/
  | reqStateCalibrate (t : Fin 18) (tag : Tag) (lock : Bool)
  /-- REQ_STATE_READY (R17): A TILE_CTL write with REQ_STATE 4 requests READY along the permitted path, or abandons a drain. -/
  | reqStateReady (t : Fin 18) (tag : Tag) (lock : Bool)
  /-- REQ_STATE_HELD (R17): A TILE_CTL write with REQ_STATE 6 requests READY to DRAINING to HELD under a maintenance token. -/
  | reqStateHeld (t : Fin 18) (tag : Tag) (lock : Bool)
  /-- REQ_STATE_REFUSED_CODE (R17): A TILE_CTL write requesting DRAINING, FAULT or a reserved code 8 to 14 is refused with ILLEGAL. -/
  | reqStateRefusedCode (t : Fin 18) (tag : Tag) (lock : Bool) (code : BitVec 4)
  /-- TILE_CTL_LOCK_TAG (R31): A TILE_CTL write with REQ_STATE 0xF changes only LOCK, which is W1S, and REQ_TAG. -/
  | tileCtlLockTag (t : Fin 18) (tag : Tag) (lock : Bool)
  /-- TILE_CTL_ACK (R28): A write of the posted tag to TILE_CTL_ACK clears RES_VALID. -/
  | tileCtlAck (t : Fin 18) (tag : Tag)
  /-- TILE_RESET_REACHED (R514): A RESET request completes when the tile reaches RESET, within 2 µs, and posts its result. -/
  | tileResetReached (t : Fin 18)
  /-- TILE_OFF_REACHED (R21): An OFF request completes when the tile reaches OFF and its header reads zero. -/
  | tileOffReached (t : Fin 18)
  /-- OFF_TO_RESET_DONE (R514): The move from OFF to RESET completes within 2 µs, or within 100 µs for power-switched tiles. -/
  | offToResetDone (t : Fin 18)
  /-- SELFTEST_DONE (R18): SELFTEST ends: spares are applied and the tile continues to CALIBRATE or HELD, or enters FAULT with cause 0x04. -/
  | selftestDone (t : Fin 18) (found : TestOutcome)
  /-- CALIBRATE_DONE (R16): CALIBRATE ends and the tile continues to READY or back to HELD, or enters FAULT with cause 0x05. -/
  | calibrateDone (t : Fin 18) (failed : Option (BitVec 8))
  /-- RESUME_READY_DONE (R514): A move from HELD or DRAINING to READY completes within its time and posts DONE. -/
  | resumeReadyDone (t : Fin 18)
  /-- DRAIN_COMPLETE (R19): A draining tile finishes its work in flight, enters HELD and posts DONE. -/
  | drainComplete (t : Fin 18)
  /-- DRAIN_TIMEOUT (R19): The drain bound expires: work in flight is discarded and counted, the tile enters HELD and DRAIN_TIMEOUT is posted. -/
  | drainTimeout (t : Fin 18)
  /-- TILE_ERR_WRITE (R31): A TILE_ERR write clears the W1C bits FIRST_VALID, MULTI, EARLY and REQ_DROP. -/
  | tileErrWrite (t : Fin 18) (firstValid multi early reqDrop : Bool)
  /-- CNT_CLR (R31): Writing TILE_ERR.CNT_CLR = 1 clears EARLY_WR_CNT, TILE_ERR_CNT and the tile's own counters. -/
  | cntClr (t : Fin 18)
  /-- EVT_PEND_CLEAR (R34): A W1C write to TILE_EVT_PEND clears pending event bits. -/
  | evtPendClear (t : Fin 18) (bits : Word)
  /-- EVT_MASK_WRITE (R34): A TILE_EVT_MASK write sets the enables and sends a message for each masked bit that rises from 0 to 1. -/
  | evtMaskWrite (t : Fin 18) (mask : Word)
  /-- EVENT_MESSAGE_ARRIVE (R107): An event message reaches a controller and is ORed into that source's pending entry or delivered to a waiting WAITEV. -/
  | eventMessageArrive (n : Nat)
  /-- REGISTER_WRITE (R26): A write to a register with no behaviour of its own stores the value under its access code, or is discarded under R29 or R516. -/
  | registerWrite (by_ : Req) (addr : BitVec 40) (size : Nat) (val : Word)
  /-- DEVICE_ACCESS_RESPONSE (R25): The response to a device access reaches its requester, with a decode error recorded as cause 0x08 where it applies. -/
  | deviceAccessResponse (issuer : Fin 18) (acc : Access)
  /-- FLIT_RECEIVE (R14): A Causeway flit is received and its CRC-8 checked; a failure causes retransmission and, after 16, cause 0x02. -/
  | flitReceive (t : Fin 18) (link : Fin 4) (data : BitVec 256) (check : BitVec 8)
  /-- ISLAND_LOCK_LOSS (R515): A clock island loses lock: LOCKED falls and the tile records cause 0x06. -/
  | islandLockLoss (t : Fin 18) (island : Fin 5)
  /-- ISLAND_RELOCK (R515): A clock island regains lock and LOCKED reads 1 again. -/
  | islandRelock (t : Fin 18) (island : Fin 5)
  /-- SRAM_UNCORRECTABLE (R32): An SRAM of a tile returns an uncorrectable error and the tile records cause 0x01. -/
  | sramUncorrectable (t : Fin 18) (unit : BitVec 8) (addr : BitVec 40)
  /-- ILLEGAL_INSTRUCTION (R64): A thread issues a word with OP 0x00 or 0x3F, or another illegal form, and traps ILLEGAL. -/
  | illegalInstruction (th : ThreadRef)
  /-- LD (R75): LD writes the operand to A. -/
  | ld (th : ThreadRef)
  /-- ST (R75): ST writes A to the operand. -/
  | st (th : ThreadRef)
  /-- LDX (R75): LDX writes the operand to X. -/
  | ldx (th : ThreadRef)
  /-- STX (R75): STX writes X to the operand. -/
  | stx (th : ThreadRef)
  /-- LDY (R75): LDY writes the operand to Y. -/
  | ldy (th : ThreadRef)
  /-- STY (R75): STY writes Y to the operand. -/
  | sty (th : ThreadRef)
  /-- LEA (R76): LEA writes the effective core address to A. -/
  | lea (th : ThreadRef)
  /-- XCH (R77): XCH exchanges A and the operand indivisibly. -/
  | xch (th : ThreadRef)
  /-- ADD (R78): ADD adds the operand to A and may set V. -/
  | add (th : ThreadRef)
  /-- ADC (R78): ADC adds with the carry in E and returns the carry in E. -/
  | adc (th : ThreadRef)
  /-- SUB (R78): SUB subtracts the operand from A and may set V. -/
  | sub (th : ThreadRef)
  /-- SBC (R78): SBC subtracts with the borrow in E. -/
  | sbc (th : ThreadRef)
  /-- NEG (R79): NEG writes the negation of the operand to A. -/
  | neg (th : ThreadRef)
  /-- ABS (R79): ABS writes the magnitude of the operand to A. -/
  | abs (th : ThreadRef)
  /-- MUL (R80): MUL forms the signed product into A and E. -/
  | mul (th : ThreadRef)
  /-- MULU (R80): MULU forms the unsigned product into A and E. -/
  | mulu (th : ThreadRef)
  /-- DIV (R81): DIV writes the signed quotient to A and the remainder to E. -/
  | div (th : ThreadRef)
  /-- DIVU (R81): DIVU writes the unsigned quotient to A and the remainder to E. -/
  | divu (th : ThreadRef)
  /-- AND (R83): AND writes A AND the operand to A. -/
  | and (th : ThreadRef)
  /-- OR (R83): OR writes A OR the operand to A. -/
  | or (th : ThreadRef)
  /-- XOR (R83): XOR writes A XOR the operand to A. -/
  | xor (th : ThreadRef)
  /-- SHL (R84): SHL shifts A left. -/
  | shl (th : ThreadRef)
  /-- SHR (R84): SHR shifts A right logically. -/
  | shr (th : ThreadRef)
  /-- SAR (R84): SAR shifts A right arithmetically. -/
  | sar (th : ThreadRef)
  /-- ROL (R84): ROL rotates A left. -/
  | rol (th : ThreadRef)
  /-- ROR (R84): ROR rotates A right. -/
  | ror (th : ThreadRef)
  /-- BFX (R85): BFX extracts a bit field of A. -/
  | bfx (th : ThreadRef)
  /-- BFI (R85): BFI inserts the low bits of E into A. -/
  | bfi (th : ThreadRef)
  /-- BSWAP (R86): BSWAP reverses the byte order of the operand into A. -/
  | bswap (th : ThreadRef)
  /-- PAND (R88): PAND writes the AND of two predicates. -/
  | pand (th : ThreadRef)
  /-- PIOR (R88): PIOR writes the OR of two predicates. -/
  | pior (th : ThreadRef)
  /-- PXOR (R88): PXOR writes the XOR of two predicates. -/
  | pxor (th : ThreadRef)
  /-- CMP_EQ (R87): CMP.EQ writes a = b to a predicate. -/
  | cmpEq (th : ThreadRef)
  /-- CMP_NE (R87): CMP.NE writes a ≠ b to a predicate. -/
  | cmpNe (th : ThreadRef)
  /-- CMP_LT (R87): CMP.LT writes signed a < b to a predicate. -/
  | cmpLt (th : ThreadRef)
  /-- CMP_GE (R87): CMP.GE writes signed a ≥ b to a predicate. -/
  | cmpGe (th : ThreadRef)
  /-- CMP_LE (R87): CMP.LE writes signed a ≤ b to a predicate. -/
  | cmpLe (th : ThreadRef)
  /-- CMP_GT (R87): CMP.GT writes signed a > b to a predicate. -/
  | cmpGt (th : ThreadRef)
  /-- CMP_LO (R87): CMP.LO writes unsigned a < b to a predicate. -/
  | cmpLo (th : ThreadRef)
  /-- CMP_HS (R87): CMP.HS writes unsigned a ≥ b to a predicate. -/
  | cmpHs (th : ThreadRef)
  /-- CMP_LS (R87): CMP.LS writes unsigned a ≤ b to a predicate. -/
  | cmpLs (th : ThreadRef)
  /-- CMP_HI (R87): CMP.HI writes unsigned a > b to a predicate. -/
  | cmpHi (th : ThreadRef)
  /-- CMP_VA (R87): CMP.VA writes the signed overflow of a + b to a predicate. -/
  | cmpVa (th : ThreadRef)
  /-- CMP_VS (R87): CMP.VS writes the signed overflow of a − b to a predicate. -/
  | cmpVs (th : ThreadRef)
  /-- TST (R87): TST writes (a AND b) ≠ 0 to a predicate. -/
  | tst (th : ThreadRef)
  /-- BR (R89): BR transfers control to its target. -/
  | br (th : ThreadRef)
  /-- CALL (R89): CALL pushes the return address and transfers control. -/
  | call (th : ThreadRef)
  /-- RET (R90): RET with OPD 0 pops the return address into PC. -/
  | ret (th : ThreadRef)
  /-- RET_TRAP (R69): RET #1 returns from a trap handler through the frame and resumes any remaining REP iterations. -/
  | retTrap (th : ThreadRef)
  /-- TRAP (R91): TRAP raises cause 11 after completion. -/
  | trap (th : ThreadRef)
  /-- REP (R92): REP copies K into the hidden counter so that the next instruction repeats. -/
  | rep (th : ThreadRef)
  /-- CRC (R95): CRC folds the operand into the check value in E with the selected polynomial. -/
  | crc (th : ThreadRef)
  /-- HASH (R96): HASH mixes the operand with A into a 32-bit hash. -/
  | hash (th : ThreadRef)
  /-- FETCH (R97): FETCH starts a copy into local memory on a copy slot without parking the thread. -/
  | fetch (th : ThreadRef)
  /-- FADD (R99): FADD atomically adds A to a memory word and returns the old value. -/
  | fadd (th : ThreadRef)
  /-- CAS (R99): CAS atomically compares a memory word with E and stores A when they are equal. -/
  | cas (th : ThreadRef)
  /-- FENCE (R101): FENCE parks the thread until its posted stores and copies have completed. -/
  | fence (th : ThreadRef)
  /-- GETW (R102): GETW parks the engine thread until SCHED dispatches a work item to it. -/
  | getw (th : ThreadRef)
  /-- DONE (R103): DONE completes the held item with a disposition word. -/
  | done (th : ThreadRef)
  /-- ENQ (R104): ENQ submits a work item record to SCHED and parks the thread until it is answered. -/
  | enq (th : ThreadRef)
  /-- CANCEL (R105): CANCEL asks SCHED to remove a work item and parks the thread. -/
  | cancel (th : ThreadRef)
  /-- WAITEV (R106): WAITEV waits for an event message, with a timeout. -/
  | waitev (th : ThreadRef)
  /-- SEQW (R108): SEQW writes one 128-bit step into a sequencer bank. -/
  | seqw (th : ThreadRef)
  /-- THREAD_RESPONSE_ARRIVE (R57): The response to a parked device load, atomic or ORD store arrives and unparks the thread. -/
  | threadResponseArrive (th : ThreadRef) (dataErr : Bool)
  /-- POSTED_STORE_COMPLETE (R58): A posted store's response arrives and frees one of the thread's eight slots. -/
  | postedStoreComplete (th : ThreadRef) (n : Fin 8)
  /-- IMPRECISE_TRAP (R68): A pending imprecise DECODE or failed FETCH trap is taken at an instruction boundary while IN_TRAP is 0. -/
  | impreciseTrap (th : ThreadRef)
  /-- FETCH_COPY_COMPLETE (R98): A FETCH copy writes its destination and completion word and frees its slot, or fails with an imprecise trap. -/
  | fetchCopyComplete (th : ThreadRef) (n : Fin 4) (dataErr : Bool)
  /-- WAITEV_TIMEOUT (R106): A WAITEV timeout expires and the instruction returns A = 0 and E = 0. -/
  | waitevTimeout (th : ThreadRef)
  /-- RF_TUNE (R116): RF_CMD TUNE captures RF_CHAN and starts the synthesiser calibration for the new channel. -/
  | rfTune (by_ : Req) (r : Fin 3) (tag : Tag)
  /-- RF_CAL_ALL (R128): RF_CMD CAL_ALL runs every enabled calibration in the foreground while the tile is HELD. -/
  | rfCalAll (by_ : Req) (r : Fin 3) (tag : Tag)
  /-- RF_FEM_SCAN (R120): RF_CMD FEM_SCAN reads the FEM identities of populated chains and makes the ones that match ACTIVE. -/
  | rfFemScan (by_ : Req) (r : Fin 3) (tag : Tag)
  /-- RF_CHAIN_OFF (R131): RF_CMD CHAIN_OFF makes a chain OFF at the next PPDU boundary. -/
  | rfChainOff (by_ : Req) (r : Fin 3) (tag : Tag) (chain : BitVec 8)
  /-- RF_CHAIN_ON (R131): RF_CMD CHAIN_ON makes an OFF chain whose CHAIN_EXP bit is 1 ACTIVE. -/
  | rfChainOn (by_ : Req) (r : Fin 3) (tag : Tag) (chain : BitVec 8)
  /-- RF_CMD_ILLEGAL_OP (R131): An RF_CMD write with an unassigned OP completes ILLEGAL. -/
  | rfCmdIllegalOp (by_ : Req) (r : Fin 3) (tag : Tag) (op : BitVec 8)
  /-- RF_RESULT_ACK (R132): A write of the posted tag to RF_RESULT_ACK retires the RF result. -/
  | rfResultAck (by_ : Req) (r : Fin 3) (tag : Tag)
  /-- TUNE_LOCK (R115): The synthesiser declares lock: RF_TUNED is updated, SYNTH_LOCK occurs and the result is posted or band calibration begins. -/
  | tuneLock (r : Fin 3)
  /-- TUNE_LOCK_TIMEOUT (R115): Lock is not declared within 80 µs, so the sequence repeats or completes NO_LOCK with cause 0x81. -/
  | tuneLockTimeout (r : Fin 3)
  /-- BAND_CAL_DONE (R116): The band calibration after a band change completes and the TUNE result is posted. -/
  | bandCalDone (r : Fin 3) (converged : Bool)
  /-- CAL_ALL_DONE (R128): The foreground CAL_ALL completes and posts its result. -/
  | calAllDone (r : Fin 3) (converged : Bool)
  /-- FEM_SCAN_DONE (R120): FEM_SCAN completes with the new ACTIVE mask, or with NO_FEM. -/
  | femScanDone (r : Fin 3) (ids : List (Option (BitVec 8 × BitVec 10)))
  /-- SYNTH_LOCK_LOSS (R117): The synthesiser loses lock in service: TXEN drops, the PPDU aborts, cause 0x80 is recorded and relock begins. -/
  | synthLockLoss (r : Fin 3)
  /-- RFFE_REG_WRITE (R118): RFFE_CMD kind 0 queues a Register Write transaction. -/
  | rffeRegWrite (by_ : Req) (r : Fin 3) (usid : BitVec 4) (addr : BitVec 8) (data : Byte) (tag : Tag)
  /-- RFFE_REG_READ (R118): RFFE_CMD kind 1 queues a Register Read transaction. -/
  | rffeRegRead (by_ : Req) (r : Fin 3) (usid : BitVec 4) (addr : BitVec 8) (tag : Tag)
  /-- RFFE_EXT_REG_WRITE (R118): RFFE_CMD kind 2 queues an Extended Register Write transaction. -/
  | rffeExtRegWrite (by_ : Req) (r : Fin 3) (usid : BitVec 4) (addr : BitVec 8) (data : Byte) (tag : Tag)
  /-- RFFE_EXT_REG_READ (R118): RFFE_CMD kind 3 queues an Extended Register Read transaction. -/
  | rffeExtRegRead (by_ : Req) (r : Fin 3) (usid : BitVec 4) (addr : BitVec 8) (tag : Tag)
  /-- RFFE_REG0_WRITE (R118): RFFE_CMD kind 4 queues a Register 0 Write transaction. -/
  | rffeReg0Write (by_ : Req) (r : Fin 3) (usid : BitVec 4) (data : Byte) (tag : Tag)
  /-- RFFE_ILLEGAL_KIND (R132): An RFFE_CMD with a reserved kind completes ILLEGAL. -/
  | rffeIllegalKind (by_ : Req) (r : Fin 3) (kind : BitVec 4) (tag : Tag)
  /-- RFFE_TRANSACTION_DONE (R118): An RFFE transaction finishes on the bus and posts its result, or counts a miss. -/
  | rffeTransactionDone (r : Fin 3) (ok : Bool) (data : Byte)
  /-- RFFE_ACK (R132): A write of the posted tag to RFFE_ACK retires the RFFE result. -/
  | rffeAck (by_ : Req) (r : Fin 3) (tag : Tag)
  /-- FEM_HEALTH_POLL (R121): Every 100 ms the radio reads each ACTIVE FEM's product ID, counting misses. -/
  | femHealthPoll (r : Fin 3) (ids : List (Option (BitVec 8)))
  /-- CAL_ROUND_START (R126): A period or temperature trigger starts a background calibration round and requests its token. -/
  | calRoundStart (r : Fin 3) (kind : Fin 5)
  /-- CAL_SLICE_START (R126): A calibration slice starts once the radio is idle, calibration is permitted and the token is held. -/
  | calSliceStart (r : Fin 3) (kind : Fin 5) (chain : Fin 8)
  /-- CAL_SLICE_END (R127): A calibration slice ends or yields at a checkpoint and keeps the results it has completed. -/
  | calSliceEnd (r : Fin 3) (how : SliceEnd)
  /-- AGC_STEP (R129): An armed gain loop steps a chain's gain toward the target every 0.4 µs. -/
  | agcStep (r : Fin 3) (chain : Fin 8) (level : BitVec 8)
  /-- SENSE_CTL_WRITE (R138): A SENSE_CTL write sets the thresholds and starts a scan at entry 0, or stops it, through RUN. -/
  | senseCtlWrite (by_ : Req) (val : Word)
  /-- SENSE_FRAME_END (R135): At the end of each 5 µs frame SENSE accumulates the bins, steps its gain and detects pulses. -/
  | senseFrameEnd (peak : Int) (bins : List Int) (pulses : List SensePulse)
  /-- SENSE_DWELL_END (R138): A scan entry's dwell ends: its reports are written to the ring and the next entry is tuned. -/
  | senseDwellEnd
  /-- SENSE_RETUNE_DONE (R134): The sense synthesiser finishes retuning and frames resume. -/
  | senseRetuneDone
  /-- SENSE_RPT_RD_WRITE (R139): A write to RPT_RD frees report ring slots. -/
  | senseRptRdWrite (by_ : Req) (val : Word)
  /-- SENSE_RUN_WRITE (R140): A write of 1 by MGMT to SENSE_RUN starts a sense controller thread. -/
  | senseRunWrite (by_ : Req) (val : Word)
  /-- SEQ_STEP_BEGIN (R142): A sequencer step begins: it clears its event latch, reads its parameters and applies its action word. -/
  | seqStepBegin (r : Fin 3)
  /-- SEQ_TIMED_END (R142): A TIMED step's duration expires and its successor begins. -/
  | seqTimedEnd (r : Fin 3)
  /-- SEQ_WAIT_EVENT (R142): A WAIT step ends on the tick on which its event is latched. -/
  | seqWaitEvent (r : Fin 3)
  /-- SEQ_WAIT_TIMEOUT (R142): A WAIT step's duration expires without its event and the step goes to NEXT_TO. -/
  | seqWaitTimeout (r : Fin 3)
  /-- SEQ_TEST_END (R142): A TEST step ends after one tick and branches on its latch. -/
  | seqTestEnd (r : Fin 3)
  /-- ANCHOR_AT (R145): The ANCHOR_AT event fires on the tick before anchor + AT_OFS. -/
  | anchorAt (r : Fin 3)
  /-- SEQ_CTL_WRITE (R150): A SEQ_CTL write starts the sequencer at ENTRY of START_BANK, or stops it with every enable falling. -/
  | seqCtlWrite (by_ : Req) (r : Fin 3) (val : Word)
  /-- SEQ_SWAP_REQUEST (R149): A SEQ_SWAP write requests a bank swap, made at once while stopped or after a token while running. -/
  | seqSwapRequest (by_ : Req) (r : Fin 3) (entry : BitVec 10) (tag : Tag)
  /-- SEQ_SWAP_APPLY (R149): A running swap takes effect when the next SAFE step ends after the grant, and SEQ_RESULT posts DONE. -/
  | seqSwapApply (r : Fin 3)
  /-- SEQ_ACK (R149): A write of the posted tag to SEQ_ACK retires the swap result. -/
  | seqAck (by_ : Req) (r : Fin 3) (tag : Tag)
  /-- SEQ_POKE (R145): A write of 1 to SEQ_POKE.POKE raises the CTRL event. -/
  | seqPoke (by_ : Req) (r : Fin 3) (poke : Bool)
  /-- CTRL_RUN_WRITE (R41): A write of 1 by MGMT to CTRL_RUN starts a radio controller thread. -/
  | ctrlRunWrite (by_ : Req) (r : Fin 3) (val : Word)
  /-- TXQ_PUSH (R151): A write to TXQ_PUSH copies the staged command into its queue, or drops it. -/
  | txqPush (by_ : Req) (r : Fin 3) (push : Bool)
  /-- TXC_ACK (R157): A write of the record's tag to TXC_ACK retires the completion record and advances TXC_RD. -/
  | txcAck (by_ : Req) (r : Fin 3) (tag : Tag)
  /-- TXC_CTL_WRITE (R157): A TXC_CTL write sets the completion ring and resets TXC_WR and TXC_RD to 0. -/
  | txcCtlWrite (by_ : Req) (r : Fin 3) (val : Word)
  /-- CMD_DUE_AT_TIME (R152): An AT_TIME queue head becomes due 513 ticks before START_TIME. -/
  | cmdDueAtTime (r : Fin 3)
  /-- TXQ_READY (R152): A due command is selected once the radio is free, locked, idle from calibration and has its data buffered. -/
  | txqReady (r : Fin 3)
  /-- CMD_EXPIRE (R154): A command not started by its due time plus LATEST completes EXPIRED. -/
  | cmdExpire (r : Fin 3) (q : Fin 5)
  /-- TX_UNDERRUN (R155): MPDU data missing from the transmit buffer when needed inverts the FCS and pads the PPDU, and the command completes UNDERRUN. -/
  | txUnderrun (r : Fin 3) (unsent : BitVec 8)
  /-- TX_PPDU_END (R157): The last sample of a transmitted PPDU passes the pins: TX_END occurs, the anchor is latched and the completion record is written. -/
  | txPpduEnd (r : Fin 3) (airtime : BitVec 32) (errs : List Int)
  /-- RESP_READY (R158): A prepared response becomes ready to launch. -/
  | respReady (r : Fin 3)
  /-- RESP_LAUNCH (R158): An armed response launches at anchor + OFFSET − 512, or on the tick after RESP_READY. -/
  | respLaunch (r : Fin 3)
  /-- RESP_ABANDON (R158): A response that cannot meet its window is abandoned, and TX_END occurs. -/
  | respAbandon (r : Fin 3)
  /-- ED_DETECT (R165): Primary-channel power reaches ED_THR and a reception begins. -/
  | edDetect (r : Fin 3) (prim whole : List Byte)
  /-- QUAL_STAGE1_OK (R166): Stage 1 autocorrelation succeeds: the gain is held, the reference level is taken and stage 2 starts. -/
  | qualStage1Ok (r : Fin 3) (corr : BitVec 9) (sub : BitVec 4) (level : Int)
  /-- QUAL_OK (R166): Stage 2 cross-correlation succeeds: the gain freezes and the time-stamp is fixed. -/
  | qualOk (r : Fin 3) (peak : BitVec 9) (cfo : BitVec 16) (levels : List Byte) (ref : Int) (frac : BitVec 16)
  /-- AC_FAIL_TIMEOUT (R166): Stage 1 has not succeeded 8.0 µs after ED, and the reception aborts AC_FAIL. -/
  | acFailTimeout (r : Fin 3)
  /-- XC_FAIL_TIMEOUT (R166): Stage 2 has not succeeded 8.0 µs after stage 1, and the reception aborts XC_FAIL. -/
  | xcFailTimeout (r : Fin 3)
  /-- DSSS_LOCK (R168): The Barker correlator holds lock for 4 µs and the reception continues as DSSS. -/
  | dsssLock (r : Fin 3) (ago : BitVec 16)
  /-- DSSS_SFD_TIMEOUT (R168): No SFD arrives within 144 µs or 72 µs of ED, and the reception aborts XC_FAIL. -/
  | dsssSfdTimeout (r : Fin 3) (short : Bool)
  /-- LSIG_CHECK (R167): The L-SIG ends and is checked, passing to format identification or aborting LSIG. -/
  | lsigCheck (r : Fin 3) (lsig : BitVec 24) (rssi : BitVec 16) (chainRssi : List Byte)
  /-- SIG_FIELD_CHECK (R167): A later SIG field or Towpath header ends and is checked, possibly aborting SIG, UNSUPPORTED or STREAMS. -/
  | sigFieldCheck (r : Fin 3) (found : SigCheck) (stf : Option StfLevels)
  /-- RX_RESTART (R170): Received power exceeds the reference level by RESTART_STEP: the reception aborts RESTART and acquisition begins again. -/
  | rxRestart (r : Fin 3) (level : Int) (periodic : Bool)
  /-- RX_PPDU_END (R162): The last sample of a received PPDU passes the RF pins and the anchor is latched. -/
  | rxPpduEnd (r : Fin 3) (tp : Option TpPayload)
  /-- RX_END (R145): RX_END occurs exactly 160 ticks after the PPDU end. -/
  | rxEnd (r : Fin 3)
  /-- RX_DECIDED (R145): The MAC has judged every MPDU, the PPDU record is written and RX_DECIDED occurs. -/
  | rxDecided (r : Fin 3) (recs : List RxMeas)
  /-- CODEWORD_DECODED (R176): An LDPC codeword stops iterating and its decisions go to the MAC in codeword order. -/
  | codewordDecoded (r : Fin 3) (arrived : List (BitVec 8)) (lane : Fin 13) (need : Option (BitVec 8))
  /-- DECODE_DEADLINE (R177): At 4.0 µs after the PPDU end, codewords still iterating or unstarted are cut. -/
  | decodeDeadline (r : Fin 3)
  /-- LANE_AUDIT (R179): At each AUDIT_MS a decoder lane is audited, and two failures mark it FAILED. -/
  | laneAudit (r : Fin 3) (passed : Bool)
  /-- RXS_RD_WRITE (R181): A write to RXS_RD frees PPDU record ring slots. -/
  | rxsRdWrite (by_ : Req) (r : Fin 3) (val : Word)
  /-- MPDU_RECEIVE (R195): A decoded MPDU is filtered and decrypted, then updates the NAV or is delivered, with its status word written. -/
  | mpduReceive (r : Fin 3) (m : RxMpdu)
  /-- NAV_EXPIRE (R186): A NAV counts down to 0. -/
  | navExpire (r : Fin 3) (intra : Bool)
  /-- NAV_RTS_TIMEOUT (R186): A NAV set by an RTS is reset when no PPDU reaches QUAL_OK within NAVTimeout. -/
  | navRtsTimeout (r : Fin 3)
  /-- MEDIUM_IDLE (R185): Physical and virtual carrier sense both become idle. -/
  | mediumIdle (r : Fin 3)
  /-- BACKOFF_SLOT (R188): An EDCA slot boundary is evaluated for all access categories, decrementing backoffs and granting the winner. -/
  | backoffSlot (r : Fin 3) (busy : BitVec 16)
  /-- GRANT_WITHDRAW (R189): A grant is withdrawn when TXQ_READY does not follow within one slot, or the medium becomes busy. -/
  | grantWithdraw (r : Fin 3) (busy : BitVec 16)
  /-- RESP_TIMEOUT (R190): No expected response reaches QUAL_OK within SIFS + slot + 2 µs, and the exchange fails. -/
  | respTimeout (r : Fin 3)
  /-- MU_EDCA_TIMER_EXPIRE (R193): The MU EDCA timer ends and EDCA_AC parameters apply again. -/
  | muEdcaTimerExpire (r : Fin 3)
  /-- MAC_CTL_WRITE (R188): A MAC_CTL write sets the filters, and EN going from 0 to 1 loads the generator and resets the backoffs. -/
  | macCtlWrite (by_ : Req) (r : Fin 3) (val : Word)
  /-- MAC_SEED_WRITE (R188): A MAC_SEED write sets the value loaded into the backoff generator. -/
  | macSeedWrite (by_ : Req) (r : Fin 3) (val : Word)
  /-- REORDER_TIMEOUT (R202): A reorder hole waits REORDER_CTL.TIMEOUT and is skipped. -/
  | reorderTimeout (q : Fin 8192)
  /-- AID_SET (R197): AID command SET binds an AID to an SCID and a group. -/
  | aidSet (by_ : Req) (tag : Tag)
  /-- AID_CLR (R197): AID command CLR unbinds an AID. -/
  | aidClr (by_ : Req) (tag : Tag)
  /-- AID_LOOKUP (R197): AID command LOOKUP reads the binding of an AID. -/
  | aidLookup (by_ : Req) (tag : Tag)
  /-- AID_ILLEGAL_OP (R197): AID command OP 3 completes ILLEGAL. -/
  | aidIllegalOp (by_ : Req) (tag : Tag)
  /-- AID_ACK (R197): A write of the posted tag to AID_ACK retires the AID result. -/
  | aidAck (by_ : Req) (tag : Tag)
  /-- KEY_INSTALL (R209): KEY command INSTALL writes a key into a slot and resets its PN and counters. -/
  | keyInstall (by_ : Req) (tag : Tag)
  /-- KEY_DELETE (R209): KEY command DELETE empties a key slot. -/
  | keyDelete (by_ : Req) (tag : Tag)
  /-- KEY_SET_TX (R209): KEY command SET_TX selects the key ID used for transmission. -/
  | keySetTx (by_ : Req) (tag : Tag)
  /-- KEY_ILLEGAL_OP (R209): KEY command OP 3 completes ILLEGAL. -/
  | keyIllegalOp (by_ : Req) (tag : Tag)
  /-- KEY_ACK (R209): A write of the posted tag to KEY_ACK retires the key result. -/
  | keyAck (by_ : Req) (tag : Tag)
  /-- MRX_RD_WRITE (R196): A write to MRX_RD retires management receive ring entries. -/
  | mrxRdWrite (by_ : Req) (val : Word)
  /-- LINK_CTL_WRITE (R204): A LINK_CTL write changes AVAIL and thereby which links are UP. -/
  | linkCtlWrite (by_ : Req) (val : Word)
  /-- MLINK_RUN_WRITE (R214): A write of 1 by MGMT to MLINK_RUN starts an MLINK controller thread. -/
  | mlinkRunWrite (by_ : Req) (val : Word)
  /-- CTX_ALLOC (R216): Context command ALLOC zeroes and opens the lowest FREE context. -/
  | ctxAlloc (by_ : Req) (tag : Tag)
  /-- CTX_ACTIVATE (R217): Context command ACTIVATE installs the link records and makes the context ACTIVE. -/
  | ctxActivate (by_ : Req) (tag : Tag)
  /-- CTX_REFRESH (R217): Context command REFRESH applies the firmware-owned bytes and reinstalls the links. -/
  | ctxRefresh (by_ : Req) (tag : Tag)
  /-- CTX_FREE (R218): Context command FREE makes the context CLOSING and frees its queued MPDUs. -/
  | ctxFree (by_ : Req) (tag : Tag)
  /-- CTX_ILLEGAL_OP (R216): Context command OP 4 to 7 completes ILLEGAL. -/
  | ctxIllegalOp (by_ : Req) (tag : Tag)
  /-- CTX_FREE_DONE (R218): A CLOSING context with nothing left in flight becomes FREE and DONE is posted. -/
  | ctxFreeDone
  /-- CTX_ACK (R216): A write of the posted tag to CTX_ACK retires the context result. -/
  | ctxAck (by_ : Req) (tag : Tag)
  /-- STQ_ENQ (R220): A write to STQ_ENQ[q] enqueues an MPDU descriptor on a station-TID queue, or drops it. -/
  | stqEnq (by_ : Req) (q : Fin 8192) (val : Word)
  /-- DL_SELECTION (R225): A downlink selection for a radio and access category builds a command into its queue. -/
  | dlSelection (r : Fin 3) (ac : Fin 4)
  /-- UL_SELECTION (R237): Every UL PERIOD_US, or at a trigger-enabled TWT start, an uplink selection builds a trigger command. -/
  | ulSelection (r : Fin 3) (members : Option (Fin 32))
  /-- SOUND_FEEDBACK (R235): A beamforming feedback report received with FCS_OK installs a steering matrix. -/
  | soundFeedback (r : Fin 3) (scid : Fin 1024) (nc : Fin 8) (mat : List (List (Int × Int)))
  /-- MU_NEXT_PPDU_DUE (R232): A later PPDU of a multi-PPDU command becomes due 513 ticks before anchor + SIFS, or the command ends. -/
  | muNextPpduDue (r : Fin 3)
  /-- TB_WINDOW_END (R238): A trigger's TB window ends, and missing TB PPDUs and users are counted. -/
  | tbWindowEnd (r : Fin 3)
  /-- TWT_PERIOD_START (R239): A TWT service period starts, waking members and optionally triggering an uplink selection. -/
  | twtPeriodStart (n : Fin 32)
  /-- TWT_PERIOD_END (R224): A TWT service period ends and AWAKE is cleared. -/
  | twtPeriodEnd (n : Fin 32)
  /-- NEWT_CTL_WRITE (R244): A NEWT_CTL write sets the filters, changes the channel when idle, and loads the seed when EN rises. -/
  | newtCtlWrite (by_ : Req) (val : Word)
  /-- NEWT_RETUNE_DONE (R244): The Newt synthesiser relocks after a channel change, or fails with cause 0x80. -/
  | newtRetuneDone (locked : Bool)
  /-- NEWT_AGC_STEP (R246): At each symbol boundary the Newt gain is stepped from the symbol's peak. -/
  | newtAgcStep (peak : Int)
  /-- NEWT_PREAMBLE_ACQUIRE (R247): The correlator acquires a preamble and antenna diversity measures the next symbols. -/
  | newtPreambleAcquire
  /-- NEWT_ANT_SELECT (R247): After symbol 2 the antenna with the stronger correlation is selected. -/
  | newtAntSelect (mine other : Nat) (sfd : Bool)
  /-- NEWT_FRAME_RECEIVE (R248): A Newt PSDU ends: it is FCS-checked, filtered, looked up, unsecured, matched as an Ack or written to the ring. -/
  | newtFrameReceive (psdu : List (BitVec 8)) (rssi lqi : BitVec 8)
  /-- NEWT_ACK_SEND (R252): 192 µs after a frame needing an Ack ends, the Ack is sent if the coexistence grant allows. -/
  | newtAckSend
  /-- NEWT_TX_CMD (R255): A TX_CMD write starts a Newt transmission command. -/
  | newtTxCmd (by_ : Req) (tag : Tag)
  /-- NEWT_BACKOFF_EXPIRE (R256): A CSMA-CA backoff expires and the CCA begins. -/
  | newtBackoffExpire
  /-- NEWT_CCA_END (R256): The 128 µs CCA ends: the frame is sent, or the backoff retries or fails. -/
  | newtCcaEnd (energy : Int) (signal : Bool)
  /-- NEWT_TX_END (R257): A Newt frame's last symbol is sent and the Ack wait begins or the command completes. -/
  | newtTxEnd
  /-- NEWT_ACK_TIMEOUT (R257): No matching Ack arrives within 864 µs and the frame is retried or completes NO_ACK. -/
  | newtAckTimeout
  /-- NEWT_TX_ACK (R255): A write of the posted tag to TX_ACK retires the Newt TX result. -/
  | newtTxAck (by_ : Req) (tag : Tag)
  /-- CHILD_ADD_SHORT (R250): Child command ADD_SHORT adds a short-table entry. -/
  | childAddShort (by_ : Req) (tag : Tag)
  /-- CHILD_DEL_SHORT (R250): Child command DEL_SHORT removes a short-table entry. -/
  | childDelShort (by_ : Req) (tag : Tag)
  /-- CHILD_ADD_EXT (R250): Child command ADD_EXT adds an extended-table entry. -/
  | childAddExt (by_ : Req) (tag : Tag)
  /-- CHILD_DEL_EXT (R250): Child command DEL_EXT removes an extended-table entry. -/
  | childDelExt (by_ : Req) (tag : Tag)
  /-- CHILD_ILLEGAL_OP (R250): Child command OP 4 to 7 completes ILLEGAL. -/
  | childIllegalOp (by_ : Req) (tag : Tag)
  /-- CHILD_ACK (R250): A write of the posted tag to CHILD_ACK retires the child result. -/
  | childAck (by_ : Req) (tag : Tag)
  /-- PEND_SET (R254): A PEND_SET write sets a pending bit. -/
  | pendSet (by_ : Req) (val : Word)
  /-- PEND_CLR (R254): A PEND_CLR write clears a pending bit. -/
  | pendClr (by_ : Req) (val : Word)
  /-- RXR_RD_WRITE (R261): A write to RXR_RD frees Newt receive ring slots. -/
  | rxrRdWrite (by_ : Req) (val : Word)
  /-- NEWT_RUN_WRITE (R262): A write of 1 by MGMT to NEWT_RUN starts the Newt controller thread. -/
  | newtRunWrite (by_ : Req) (val : Word)
  /-- TP_LOAD_PERIOD (R276): Every PERIOD_MS the loading engine forms a candidate table for each VALID peer and may issue it. -/
  | tpLoadPeriod (r : Fin 3)
  /-- TP_PEER_RST (R284): A TP_PEER_RST write falls back both directions of a peer at the next frame boundary. -/
  | tpPeerRst (by_ : Req) (r : Fin 3) (bits : Word)
  /-- TP_PEER_CFG_WRITE (R284): A TP_PEER_CFG write that changes NODE or VALID empties the peer's tables and resets its counters. -/
  | tpPeerCfgWrite (by_ : Req) (r : Fin 3) (p : Fin 16) (val : Word)
  /-- FAB_FRAME_ARRIVE (R293): The forwarder takes a fabric frame, checks it and delivers, drops or queues it on a next hop. -/
  | fabFrameArrive
  /-- FAB_ENQ (R293): A FAB_ENQ write submits a fabric frame to the forwarder. -/
  | fabEnq (by_ : Req) (val : Word)
  /-- FAB_BEACON_TIMER (R292): At each beacon millisecond, or rendezvous start, the forwarder sends BEACONs. -/
  | fabBeaconTimer
  /-- FAB_BEACON_MISS (R297): A monitored next hop misses a beacon, and the third miss takes it down and requeues its frames. -/
  | fabBeaconMiss (n : Fin 64)
  /-- FAB_TX_STATUS (R296): A Towpath command's transmit status arrives, and unacknowledged frames are re-sent or dropped. -/
  | fabTxStatus
  /-- FWD_INSTALL (R305): FWD command INSTALL installs a destination. -/
  | fwdInstall (by_ : Req) (tag : Tag)
  /-- FWD_REMOVE (R305): FWD command REMOVE frees a destination entry. -/
  | fwdRemove (by_ : Req) (tag : Tag)
  /-- FWD_SET (R305): FWD command SET replaces the next hops of a destination. -/
  | fwdSet (by_ : Req) (tag : Tag)
  /-- FWD_LOOKUP (R305): FWD command LOOKUP reports a destination entry. -/
  | fwdLookup (by_ : Req) (tag : Tag)
  /-- FWD_ACK (R305): A write of the posted tag to FWD_ACK retires the FWD result. -/
  | fwdAck (by_ : Req) (tag : Tag)
  /-- FAB_RING_RD_WRITE (R298): A write to FAB_RING_RD frees control ring entries. -/
  | fabRingRdWrite (by_ : Req) (val : Word)
  /-- DOZE_WAKE (R300): A dozing radio wakes at the start of a rendezvous window minus its guard. -/
  | dozeWake (r : Fin 3)
  /-- DOZE_SLEEP (R300): A radio returns to doze after the window and guard end with no activity of its own. -/
  | dozeSleep (r : Fin 3)
  /-- FAB_EPOCH_START (R304): A schedule epoch begins, and SLOT_NEXT is copied to SLOT_CUR at the armed epoch. -/
  | fabEpochStart
  /-- FAB_WINDOW_START (R303): A schedule window begins and changes the radio's access for its owner. -/
  | fabWindowStart
  /-- STORE_REQUEST_ARRIVE (R330): A store request arrives at a STORE attachment and is admitted to its channel queue; a write completes on entry. -/
  | storeRequestArrive (port : Fin 18) (addr : BitVec 33) (len : BitVec 9) (wdata : Option (List Byte))
  /-- DRAM_COMMAND_ISSUE (R332): A channel's command slot issues the next command of the chosen request. -/
  | dramCommandIssue (ch : Fin 8)
  /-- STORE_READ_COMPLETE (R322): A read's data leaves STORE after ECC correction and block-check verification. -/
  | storeReadComplete (ch : Fin 8) (found : ReadFound)
  /-- REFRESH_DUE (R336): A per-bank refresh falls due and is issued or postponed. -/
  | refreshDue (ch : Fin 8) (bank : Fin 16)
  /-- MR4_POLL (R336): Every 16 ms the controller reads the refresh-rate field of mode register 4. -/
  | mr4Poll (ch : Fin 8) (rate : BitVec 3) (above : Bool)
  /-- ACT_TABLE_CLEAR (R337): Every 32 ms every activate-count entry becomes unused. -/
  | actTableClear
  /-- NR_START (R338): A pending neighbour refresh starts on its bank. -/
  | nrStart (ch : Fin 8) (bank : Fin 16)
  /-- NR_COMPLETE (R338): A neighbour refresh completes and releases the blocked row. -/
  | nrComplete (ch : Fin 8) (bank : Fin 16)
  /-- RETRAIN_PERIOD (R340): The retraining period expires and a pause is requested for the next channel. -/
  | retrainPeriod
  /-- RETRAIN_DRIFT (R340): A channel's DQS oscillator drifts by DRIFT_THR and retraining is requested. -/
  | retrainDrift (ch : Fin 8) (drift : BitVec 16)
  /-- RETRAIN_AGED (R341): A retraining request waits 8 µs and ages, blocking new neighbour refreshes. -/
  | retrainAged (ch : Fin 8)
  /-- RETRAIN_PAUSE_START (R340): A channel commits a retraining pause by precharging all its banks. -/
  | retrainPauseStart (ch : Fin 8)
  /-- RETRAIN_PAUSE_END (R340): The retraining pause ends, succeeding or recording cause 0x84 or 0x85. -/
  | retrainPauseEnd (ch : Fin 8) (converged : Bool)
  /-- RETRAIN_RETRY (R340): 1 ms after a failed retraining, it is requested again. -/
  | retrainRetry (ch : Fin 8)
  /-- POOL_INIT (R311): Pool command INIT checks and initialises a pool's free list. -/
  | poolInit (by_ : Req) (pool : Fin 64) (tag : Tag)
  /-- POOL_DISABLE (R311): Pool command DISABLE clears EN when no unit is allocated. -/
  | poolDisable (by_ : Req) (pool : Fin 64) (tag : Tag)
  /-- POOL_ILLEGAL_OP (R311): Pool command OP 2 or 3 completes ILLEGAL. -/
  | poolIllegalOp (by_ : Req) (pool : Fin 64) (tag : Tag)
  /-- POOL_INIT_DONE (R311): A pool INIT completes, sets EN and posts DONE. -/
  | poolInitDone
  /-- POOL_ACK (R311): A write of the posted tag to POOL_ACK retires the pool result. -/
  | poolAck (by_ : Req) (tag : Tag)
  /-- FREE_DESC (R315): A FREE_DESC write releases one descriptor reference, freeing its blocks and the descriptor at the last. -/
  | freeDesc (by_ : Req) (val : Word)
  /-- FREE_BLK (R315): A FREE_BLK write frees one block of a block pool. -/
  | freeBlk (by_ : Req) (val : Word)
  /-- HW_ALLOC (R313): A receiving port allocates units from its pools in hardware, or fails when a pool is empty. -/
  | hwAlloc (port : Fin 18) (desc : Bool)
  /-- MB_REQUEST (R314): An MB[m].REQ write requests a unit from a pool. -/
  | mbRequest (by_ : Req) (m : Fin 192) (pool : Fin 64) (tag : BitVec 4)
  /-- MB_ANSWER (R314): The allocator posts a mailbox answer with a unit address or EMPTY. -/
  | mbAnswer (m : Fin 192)
  /-- MB_ACK (R314): A write of the posted tag to MB[m].ACK retires the mailbox result. -/
  | mbAck (by_ : Req) (m : Fin 192) (tag : BitVec 4)
  /-- SCRUB_CHUNK (R324): Under an integrity token the scrubber reads and corrects one 1 MiB chunk. -/
  | scrubChunk (corrected : Nat) (found : List ScrubFound)
  /-- REPAIR_RETIRE (R342): Repair command RETIRE sets a page's retirement bit. -/
  | repairRetire (by_ : Req) (tag : Tag)
  /-- REPAIR_PPR (R343): Repair command PPR starts a soft or hard post-package repair of a row. -/
  | repairPpr (by_ : Req) (tag : Tag) (spare : Bool)
  /-- REPAIR_QUERY (R342): Repair command QUERY reports a page's retirement bit. -/
  | repairQuery (by_ : Req) (tag : Tag)
  /-- REPAIR_ILLEGAL_OP (R342): Repair command OP 3 completes ILLEGAL. -/
  | repairIllegalOp (by_ : Req) (tag : Tag)
  /-- PPR_DONE (R343): A post-package repair completes, with the row verified or cause 0x87. -/
  | pprDone (verified : Bool)
  /-- REPAIR_ACK (R342): A write of the posted tag to REPAIR_ACK retires the repair result. -/
  | repairAck (by_ : Req) (tag : Tag)
  /-- MAP_MASK_WRITE (R328): A MAP_MASK write by MGMT while STORE is HELD stages a mask set for the next HELD to READY. -/
  | mapMaskWrite (by_ : Req) (n : Fin 7) (val : Word)
  /-- CLS_INGRESS_ARRIVE (R347): A descriptor enters a CLASS ingress queue, or its ingress is back-pressured. -/
  | clsIngressArrive (q : Fin 11)
  /-- CLS_INJ (R347): A CLS_INJ write injects a descriptor on ingress 10. -/
  | clsInj (by_ : Req) (val : Word)
  /-- CLS_PARSE (R350): The parse window read returns and CLASS parses, hashes and writes M0 to M4. -/
  | clsParse (q : Fin 11)
  /-- CLS_STAGE_LOOKUP (R357): A table stage forms its key, completes its lookup and applies the hit or miss action. -/
  | clsStageLookup (q : Fin 11) (n : Fin 64)
  /-- EM_INSERT (R367): Table command EM_INSERT inserts an exact-match entry. -/
  | emInsert (by_ : Req) (k : Fin 16) (table : BitVec 4) (tag : BitVec 4)
  /-- EM_DELETE (R367): Table command EM_DELETE removes an exact-match entry. -/
  | emDelete (by_ : Req) (k : Fin 16) (table : BitVec 4) (tag : BitVec 4)
  /-- EM_SET (R367): Table command EM_SET replaces an entry's action. -/
  | emSet (by_ : Req) (k : Fin 16) (table : BitVec 4) (tag : BitVec 4)
  /-- EM_LOOKUP (R367): Table command EM_LOOKUP reports an entry's index. -/
  | emLookup (by_ : Req) (k : Fin 16) (table : BitVec 4) (tag : BitVec 4)
  /-- ROUTE_ADD (R364): Table command ROUTE_ADD adds or replaces a route. -/
  | routeAdd (by_ : Req) (k : Fin 16) (table : BitVec 4) (len : BitVec 8) (tag : BitVec 4)
  /-- ROUTE_DEL (R367): Table command ROUTE_DEL removes a route. -/
  | routeDel (by_ : Req) (k : Fin 16) (table : BitVec 4) (len : BitVec 8) (tag : BitVec 4)
  /-- CT_CREATE (R367): Table command CT_CREATE creates a connection. -/
  | ctCreate (by_ : Req) (k : Fin 16) (tag : BitVec 4)
  /-- CT_DELETE (R367): Table command CT_DELETE removes a connection. -/
  | ctDelete (by_ : Req) (k : Fin 16) (tag : BitVec 4)
  /-- TCMD_ILLEGAL_OP (R367): Table command OP 8 to 15 completes ILLEGAL. -/
  | tcmdIllegalOp (by_ : Req) (k : Fin 16) (op : Fin 8) (tag : BitVec 4)
  /-- TCMD_ACK (R367): A write of the posted tag to TCMD[k].ACK retires the table result. -/
  | tcmdAck (by_ : Req) (k : Fin 16) (tag : BitVec 4)
  /-- TABLE_ENABLE (R362): Setting EN of an exact-match, LPM or connection table starts clearing its region. -/
  | tableEnable (by_ : Req) (t : Fin 19) (val : Word)
  /-- TABLE_CLEAR_DONE (R362): A table region finishes clearing and lookups and commands proceed. -/
  | tableClearDone (t : Fin 19)
  /-- SCHED_ITEM_ARRIVE (R378): A work item from CLASS, CIPHER or ENQ arrives and is accepted, refused or held. -/
  | schedItemArrive (src : ItemSrc)
  /-- DELAY_EXPIRE (R378): A PENDING item's delay expires and it becomes READY. -/
  | delayExpire (slot : Fin 4096)
  /-- SCHED_DISPATCH (R381): SCHED dispatches one READY item to an engine's dispatch queue by affinity or least load. -/
  | schedDispatch
  /-- GETW_TAKE (R382): A thread parked in GETW takes the oldest item of its engine's queue. -/
  | getwTake (g : Fin 32)
  /-- SCHED_DONE_ARRIVE (R384): A DONE reaches SCHED and the item becomes COMPLETE. -/
  | schedDoneArrive
  /-- SCHED_CANCEL_ARRIVE (R387): A CANCEL reaches SCHED and removes a PENDING or READY item or answers 0. -/
  | schedCancelArrive
  /-- TICKET_RELEASE (R383): A domain releases its oldest COMPLETE ticket and carries out the disposition. -/
  | ticketRelease
  /-- ENG_RUN_WRITE (R373): A write of 1 by MGMT to ENG_RUN starts or restarts an engine thread. -/
  | engRunWrite (by_ : Req) (c : Fin 4) (val : Word)
  /-- ENG_CLK_WRITE (R375): An ENG_CLK write requests a new cluster frequency and stops the island. -/
  | engClkWrite (by_ : Req) (c : Fin 4) (val : Word)
  /-- ENG_CLK_CHANGE_DONE (R375): The island restarts at the new frequency, ACTUAL_MHZ updates and CLK is set. -/
  | engClkChangeDone (c : Fin 4)
  /-- SUBST_CMD (R394): A SUBST_CMD write starts moving a logical engine onto the spare. -/
  | substCmd (by_ : Req) (c : Fin 4) (e : Fin 8) (tag : Tag)
  /-- SUBST_DONE (R394): An engine substitution completes and the threads resume on the spare. -/
  | substDone (c : Fin 4)
  /-- SUBST_TIMEOUT (R394): The substitution wait exceeds DRAIN_US and the engine resumes with TIMEOUT. -/
  | substTimeout (c : Fin 4)
  /-- SUBST_ACK (R394): A write of the posted tag to SUBST_ACK retires the substitution result. -/
  | substAck (by_ : Req) (c : Fin 4) (tag : Tag)
  /-- CIPHER_JOB_ARRIVE (R404): A release to a cipher queue hands a job to CIPHER, or the job is dropped. -/
  | cipherJobArrive
  /-- CIPHER_JOB_DONE (R407): A cipher engine finishes a job, writes RESULT and hands the frame on. -/
  | cipherJobDone (q : BitVec 8)
  /-- SESS_INSTALL (R403): Session command INSTALL installs or replaces a session. -/
  | sessInstall (by_ : Req) (tag : Tag)
  /-- SESS_DELETE (R403): Session command DELETE removes a session. -/
  | sessDelete (by_ : Req) (tag : Tag)
  /-- SESS_ILLEGAL_OP (R403): Session command OP 2 or 3 completes ILLEGAL. -/
  | sessIllegalOp (by_ : Req) (tag : Tag)
  /-- SESS_ACK (R403): A write of the posted tag to SESS_ACK retires the session result. -/
  | sessAck (by_ : Req) (tag : Tag)
  /-- MS_SET (R415): MS_CMD SET sets NS to MS_ARG. -/
  | msSet (by_ : Req) (tag : Tag)
  /-- MS_STEP (R415): MS_CMD STEP adds a signed amount to NS. -/
  | msStep (by_ : Req) (tag : Tag)
  /-- MS_ADJ (R415): MS_CMD ADJ loads the frequency adjustment. -/
  | msAdj (by_ : Req) (tag : Tag)
  /-- MS_ILLEGAL_OP (R415): MS_CMD OP 3 completes ILLEGAL. -/
  | msIllegalOp (by_ : Req) (tag : Tag)
  /-- MS_ACK (R415): A write of the posted tag to MS_ACK retires the count command result. -/
  | msAck (by_ : Req) (tag : Tag)
  /-- SNAP_CAPTURE (R414): A write to SNAP[k].CMD captures the count. -/
  | snapCapture (by_ : Req) (k : Fin 4) (tag : BitVec 4)
  /-- SNAP_ACK (R414): A write of the posted tag to SNAP[k].ACK retires the capture. -/
  | snapAck (by_ : Req) (k : Fin 4) (tag : BitVec 4)
  /-- SERVO_IN_WRITE (R424): A SERVO_IN write offers a firmware offset sample to the servo. -/
  | servoInWrite (by_ : Req) (val : Word)
  /-- HOLDOVER_TIMEOUT (R425): A LOCKED servo with no sample for HOLD_MS enters HOLDOVER. -/
  | holdoverTimeout
  /-- PPS_IN_EDGE (R429): A rising edge on PPS_IN advances the edge count and is captured when VALID is 0. -/
  | ppsInEdge
  /-- PPS_IN_ACK (R429): A write of the posted tag to PPS_IN_ACK retires the PPS capture. -/
  | ppsInAck (by_ : Req) (tag : Tag)
  /-- PPS_OUT_RISE (R429): PPS_OUT rises when NS mod 10^9 reaches the offset. -/
  | ppsOutRise
  /-- PPS_OUT_FALL (R429): PPS_OUT falls after WIDTH_US of count advance. -/
  | ppsOutFall
  /-- TSF_OFS_HI_WRITE (R418): A TSF_OFS_HI write applies the held TSF offset. -/
  | tsfOfsHiWrite (by_ : Req) (r : Fin 3) (val : Word)
  /-- FTM_ARM (R430): An FTM[r].ARM write arms fine captures of the next reception and transmission. -/
  | ftmArm (by_ : Req) (r : Fin 3) (val : Word)
  /-- FTM_ACK (R430): A write of the posted tag to FTM[r].ACK retires the fine capture. -/
  | ftmAck (by_ : Req) (r : Fin 3) (tag : Tag)
  /-- PERST_N_ASSERT (R435): PERST_N going low puts HOST into RESET. -/
  | perstNAssert
  /-- PERST_N_RELEASE (R435): PERST_N going high starts HOST on its path to READY. -/
  | perstNRelease
  /-- PCIE_LINK_UP (R449): The PCI Express link comes up and LINK_UP is set. -/
  | pcieLinkUp (speed : Fin 4) (width : BitVec 4)
  /-- PCIE_LINK_DOWN (R447): The link goes down and HOST quiesces every ring within 2 µs. -/
  | pcieLinkDown
  /-- HOST_FUNCTION_CHANGE (R447): Bus Master Enable, MSI-X Enable, D3hot or an FLR changes, possibly making the host absent. -/
  | hostFunctionChange (bme msixEn d3 flr : Bool)
  /-- HOST_BAR_REQUEST (R438): A host request through BAR 0 or BAR 2 is performed in order at its target. -/
  | hostBarRequest (bar2 : Bool) (off : BitVec 34) (be : List Bool) (wdata : Option (List Byte))
  /-- RING_CONFIG_WRITE (R440): A RING word 0 write setting EN resets HEAD and TAIL and clears STOPPED. -/
  | ringConfigWrite (by_ : Req) (r : BitVec 8) (val : Word)
  /-- RING_TAIL_WRITE (R440): A write to a ring's TAIL offers new entries to HOST. -/
  | ringTailWrite (by_ : Req) (r : BitVec 8) (val : Word)
  /-- HOST_H2D_FRAME (R441): HOST takes an H2D entry, copies and checks the buffer, commits the descriptor and writes the entry back. -/
  | hostH2dFrame (r : BitVec 8) (len : BitVec 16) (buf : List Byte)
  /-- HOST_D2H_RELEASE (R442): A release with disposition HOST queues a frame for a D2H ring, or drops it. -/
  | hostD2hRelease
  /-- HOST_D2H_WRITEBACK (R442): HOST writes a D2H frame and its entry to host memory and releases the descriptor. -/
  | hostD2hWriteback (r : BitVec 8) (addr : BitVec 64) (bufLen : BitVec 16)
  /-- HOST_DMA_ERROR (R445): A failed or timed-out DMA read stops its ring with cause 0x81. -/
  | hostDmaError (r : BitVec 8)
  /-- COAL_TIMER (R444): A ring's COAL_US timer expires and its MSI-X message is sent. -/
  | coalTimer (r : BitVec 8)
  /-- MBX_CMD (R446): A host write to MBX[k].CMD posts a mailbox command to firmware. -/
  | mbxCmd (by_ : Req) (k : Fin 8) (op : BitVec 16) (tag : Tag)
  /-- MBX_POST (R446): An MGMT write to MBX[k].POST posts the mailbox result. -/
  | mbxPost (by_ : Req) (k : Fin 8) (code : BitVec 8) (tag : Tag)
  /-- MBX_ACK (R446): A write of the posted tag to MBX[k].ACK retires the mailbox result. -/
  | mbxAck (by_ : Req) (k : Fin 8) (tag : Tag)
  /-- LANE_CTL_WRITE (R450): A LANE_CTL write enables a lane and sets its mode. -/
  | laneCtlWrite (by_ : Req) (n : Fin 4) (val : Word)
  /-- LANE_LINK_UP (R451): The link conditions hold for 10 ms and LINK rises. -/
  | laneLinkUp (n : Fin 4)
  /-- LANE_LINK_DOWN (R451): A link condition fails, LINK falls and the transmit queues are dropped. -/
  | laneLinkDown (n : Fin 4) (lockLost : Bool) (fault : Bool)
  /-- WIRE_RX_FRAME (R452): A lane receives a frame and checks, buffers and delivers it, or consumes a PAUSE. -/
  | wireRxFrame (n : Fin 4) (data : List Byte)
  /-- WIRE_TX_ENQUEUE (R453): A release or wire next hop places a frame in a lane transmit queue. -/
  | wireTxEnqueue (src : Option (Fin 64))
  /-- WIRE_TX_START (R422): WIRE commits a buffered frame to the lane and fixes its egress stamp and PTP correction. -/
  | wireTxStart (n : Fin 4)
  /-- WIRE_TX_END (R453): The last byte of a frame leaves the lane and the descriptor is released. -/
  | wireTxEnd (n : Fin 4)
  /-- PAUSE_EXPIRE (R454): A received PAUSE time ends and transmission resumes. -/
  | pauseExpire (n : Fin 4)
  /-- PAUSE_RESEND_TIMER (R454): Half the quanta time elapses with the fill at or above XOFF ÷ 2, and PAUSE is sent again. -/
  | pauseResendTimer (n : Fin 4)
  /-- MDIO_C22_WRITE (R455): MDIO command OP 0 performs a Clause 22 write. -/
  | mdioC22Write (by_ : Req) (phyad : BitVec 5) (reg : BitVec 5) (tag : Tag)
  /-- MDIO_C22_READ (R455): MDIO command OP 1 performs a Clause 22 read. -/
  | mdioC22Read (by_ : Req) (phyad : BitVec 5) (reg : BitVec 5) (tag : Tag)
  /-- MDIO_C45_WRITE (R455): MDIO command OP 2 performs a Clause 45 address and write. -/
  | mdioC45Write (by_ : Req) (phyad : BitVec 5) (mmd : BitVec 5) (tag : Tag)
  /-- MDIO_C45_READ (R455): MDIO command OP 3 performs a Clause 45 address and read. -/
  | mdioC45Read (by_ : Req) (phyad : BitVec 5) (mmd : BitVec 5) (tag : Tag)
  /-- MDIO_TRANSACTION_DONE (R455): An MDIO transaction ends and posts OK or NO_RESP. -/
  | mdioTransactionDone (resp : Option (BitVec 16))
  /-- MDIO_ACK (R455): A write of the posted tag to MDIO_ACK retires the MDIO result. -/
  | mdioAck (by_ : Req) (tag : Tag)
  /-- PHY_POLL (R456): Every POLL_MS WIRE reads a PHY's link status. -/
  | phyPoll (n : Fin 4)
  /-- ROM_BOOT (R460): The boot ROM runs, selects a boot source, verifies an image and starts it. -/
  | romBoot
  /-- HOST_BOOT_IMAGE (R462): MBX[0] OP 0x0001 in host boot hands the ROM an image to verify and start. -/
  | hostBootImage
  /-- UART_BOOT_IMAGE (R462): An image received over UART0 is verified and started. -/
  | uartBootImage (image : List Byte)
  /-- OTP_PROG (R459): An OTP_PROG write sets bits in a permitted OTP word. -/
  | otpProg (by_ : Req) (val : Word)
  /-- LOG_PUT (R464): A LOG_PUT write appends a record of KIND 128 to 255 to the event log. -/
  | logPut (by_ : Req) (val : Word)
  /-- SENSOR_READ (R465): Every 1 ms the sensors and voltage monitors are read and TJ, the thermal stage and the flags updated. -/
  | sensorRead (temps : List (BitVec 16)) (mv : List (BitVec 16))
  /-- RO_MON_UPDATE (R466): Every 100 ms the ring-oscillator monitors report NOW. -/
  | roMonUpdate (now : List (BitVec 16))
  /-- DUTY_WINDOW (R465): A 10 ms duty window begins and each radio's airtime count restarts. -/
  | dutyWindow
  /-- WDT_KICK (R467): A KICK write arms, disarms or kicks a watchdog. -/
  | wdtKick (by_ : Req) (k : Fin 7) (key : Byte)
  /-- WDT_EXPIRE (R467): A watchdog counts to 0 and faults its tile or restarts MGMT. -/
  | wdtExpire (k : Fin 7)
  /-- MT_REQUEST (R471): An MT[k].REQ write requests a maintenance token. -/
  | mtRequest (by_ : Req) (k : Fin 16) (scope : BitVec 5) (kind : BitVec 4) (tag : Tag)
  /-- MT_ACK (R471): A write of the tag to MT[k].ACK releases a held token or withdraws a request. -/
  | mtAck (by_ : Req) (k : Fin 16) (tag : Tag)
  /-- HW_TOKEN_REQUEST (R470): Hardware requests or releases a maintenance token. -/
  | hwTokenRequest (kind : BitVec 4) (scope : BitVec 5) (release : Bool)
  /-- TOKEN_AGED (R470): A pending token request reaches AGE_MS, or 8 µs for RETRAIN, and the arbiter passes again. -/
  | tokenAged (n : Nat)
  /-- AX_SRAM_ROW_SUBST (R473): Axolotl substitutes an SRAM row that reached SRAM_THR corrected errors. -/
  | axSramRowSubst (t : Fin 18) (row : BitVec 16) (spare : Option (BitVec 8))
  /-- AX_TRACK_SUBST (R473): Axolotl swaps a failing Causeway bit track for a spare. -/
  | axTrackSubst (t : Fin 18) (link : Fin 4) (track : BitVec 9)
  /-- AX_LANE_SUBST (R473): Axolotl brings the spare decoder lane into service. -/
  | axLaneSubst (r : Fin 3)
  /-- AX_ENGINE_SUBST (R473): Axolotl issues SUBST_CMD for an engine with ENG_THR stops. -/
  | axEngineSubst (c : Fin 4) (e : Fin 8)
  /-- CR_HASH (R474): CR_CMD HASH computes SHA-384 of device memory into CR_DIGEST. -/
  | crHash (by_ : Req) (tag : Tag)
  /-- CR_VERIFY (R474): CR_CMD VERIFY checks an ECDSA signature over CR_DIGEST. -/
  | crVerify (by_ : Req) (tag : Tag)
  /-- CR_DONE (R474): A CR command completes and posts CR_RES. -/
  | crDone
  /-- CR_ACK (R474): A write of the posted tag to CR_ACK retires the CR result. -/
  | crAck (by_ : Req) (tag : Tag)
  /-- FL_READ (R474): FL_CMD with direction 0 reads the flash into SRAM. -/
  | flRead (by_ : Req) (op : Byte) (dtr : Bool) (tag : Tag)
  /-- FL_WRITE (R474): FL_CMD with direction 1 writes SRAM data to the flash. -/
  | flWrite (by_ : Req) (op : Byte) (dtr : Bool) (tag : Tag)
  /-- FL_DONE (R474): A flash command completes and posts FL_RES. -/
  | flDone
  /-- FL_ACK (R474): A write of the posted tag to FL_ACK retires the flash result. -/
  | flAck (by_ : Req) (tag : Tag)
  /-- POR_N_ASSERT (R481): POR_N going low starts a device reset. -/
  | porNAssert
  /-- POR_N_RELEASE (R482): POR_N going high ends the reset, samples BOOT_MODE and starts MGMT. -/
  | porNRelease (mode : BitVec 2)
  /-- SYS_RST_N_ASSERT (R481): SYS_RST_N held low for 1 µs starts a device reset. -/
  | sysRstNAssert
  /-- SYS_RST_N_RELEASE (R482): SYS_RST_N going high ends the device reset. -/
  | sysRstNRelease (mode : BitVec 2)
  /-- DEV_RST (R481): An MGMT write of 0xA5C3 to DEV_RST pulses a device reset. -/
  | devRst (by_ : Req) (key : BitVec 16)
  /-- REFCLK_STOP (R480): REFCLK_40M stopping for 2 µs acts as POR_N held low until it has run for 1 ms. -/
  | refclkStop
  /-- AVS_TARGET (R479): An AVS_TARGET write sends a PMBus VOUT_COMMAND to the core regulator. -/
  | avsTarget (by_ : Req) (mv : BitVec 16) (tag : Tag)
  /-- AVS_DONE (R479): The PMBus write completes and AVS_RESULT is posted. -/
  | avsDone (acked : Bool)
  /-- AVS_ACK (R479): A write of the posted tag to AVS_ACK retires the AVS result. -/
  | avsAck (by_ : Req) (tag : Tag)
  /-- CCA_ENERGY_BUSY (R185): The power in the primary 20 MHz channel, averaged over 4 µs, reaches CCA_ED_THR and physical carrier sense becomes busy. -/
  | ccaEnergyBusy (r : Fin 3) (level : BitVec 8)
  /-- TXOP_NEXT_DUE (R191): SIFS after a successful exchange inside a TXOP, the next head of the same queue becomes due without backoff. -/
  | txopNextDue (r : Fin 3)
  /-- EML_TRANSITION_DELAY_END (R206): The end of an EMLSR station's TXOP plus its transition delay passes, HELD clears and MLINK offers the station on its other links again. -/
  | emlTransitionDelayEnd (scid : Fin 1024)
  /-- FAB_WINDOW_END (R303): A schedule window ends before the epoch end, and the radio's access returns to EDCA or its own-window rules lapse. -/
  | fabWindowEnd
  /-- TABLE_COMMAND_DONE (R367): A CLASS table command finishes its store work, takes effect on one CLASS cycle, posts its result and lets the next queued command run. -/
  | tableCommandDone (indexFull : Bool)
  /-- PCIE_CONFIG_REQUEST (R435): A PCI Express configuration request reaches HOST: it is retried with CRS before READY, and otherwise performed, for example a Resizable BAR size change. -/
  | pcieConfigRequest (cfg : HostCfg)
  /-- AN_DONE (R450): A lane's auto-negotiation, or its USXGMII or SGMII control-word exchange, completes: AN_DONE rises and LANE_LP is loaded. -/
  | anDone (n : Fin 4) (lp : Word) (fec : BitVec 2)
  /-- LANE_RX_LOCK (R451): A lane receiver gains block lock or synchronisation: its recovered island reads RUNNING and LOCKED, and the 10 ms link qualification starts. -/
  | laneRxLock (n : Fin 4)
  /-- REFCLK_RESUME (R480): REFCLK_40M resumes after a stop, and once it has run for 1 ms the reset it caused ends as a POR_N release does. -/
  | refclkResume (mode : BitVec 2)
  /-- SRAM_CORRECTED_ERROR (R473): An SRAM read corrects a single-bit error, counts TILE_ERR_CNT.CORR and adds to the SRAM_THR evidence for row substitution. -/
  | sramCorrectedError (t : Fin 18) (row : BitVec 16)
  /-- SERVO_CTL_WRITE (R425): A SERVO_CTL write that clears EN makes the servo FREE, leaves ADJ as it stands and sets SERVO in TILE_EVT_PEND. -/
  | servoCtlWrite (by_ : Req) (val : Word)
  /-- RF_CAL_CTL_WRITE (R124): An RF_CAL_CTL write that changes DPD_K or DPD_M discards every pre-distortion set of the radio and bypasses the chains until they are retrained. -/
  | rfCalCtlWrite (by_ : Req) (r : Fin 3) (val : Word)
deriving DecidableEq, Repr

end Sys2Proof
end

