-- ==== Sys2Proof/Config.lean ====
section
/-! DEFINITION. What an implementation fixes, and the free values: constants without a body, of which nothing can be
computed or proved, applied to a plain counter of the state or to the operands they depend on. -/

namespace Sys2Proof.Config

/-- A value the spec leaves undefined, by the state's counter `freeTick` (DESIGN CHOICE, log entry 5). -/
opaque freeNat : Nat → Nat

/-- The mean power code of a list of power codes; the spec does not say how the mean is formed (DESIGN CHOICE, log entry 11). -/
opaque meanCode : List Byte → Byte

/-- The most per-bank refreshes that JESD209-5C lets the controller postpone (R336); the spec does not give the number
(DESIGN CHOICE, log entry 12). -/
opaque refPostponeMax : Nat

/-- Data tones of a Towpath frame that lie outside the punctured subchannels, by width and PUNCT; the spec takes the tone
plan from IEEE 802.11be and does not give it (R269, DESIGN CHOICE, log entry 15). -/
opaque punctTones : Nat → Nat → Nat

/-- The internal calibration of SENSE in half decibels, by scan centre in MHz, gain in dB and bin; the spec does not give it (R135, DESIGN
CHOICE, log entry 61). -/
opaque senseCal : Nat → Nat → Nat → Int

/-- The power code of a power below −160 dBm, by its distance in half decibels; the spec codes none (R139, DESIGN CHOICE, log entry
61). -/
opaque lowCode : Nat → Byte

/-- Occupancy over no frame at all, a quotient by 0 (R139, DESIGN CHOICE, log entry 61). -/
opaque emptyOcc : Byte

/-- Whether a fraction of 1/256 ns is rounded up as the path delay moves by a sixteenth of a difference (R428, log entry
16). -/
opaque delayUp : Int → Bool

/-- The PSDU that NEWT sends for a secured command whose security header it cannot use (PRESUMED, log entry 28). -/
opaque newtUnsecurable : List Byte → List Byte

/-- CODE of a SPARE record, "Axolotl kind", by AUTO bit; the spec does not number the kinds (R464, DESIGN CHOICE, log entry 31). -/
opaque axCode : Nat → Nat

/-- Duration in nanoseconds of a PPDU, by the words of its TXVECTOR after a code for what is sent (0 a PPDU of a command, 1 an RTS, 2 a
CTS-to-self, 3 the response it asks for) and its PSDU length; the spec takes it from IEEE 802.11 (R191, R205, DESIGN CHOICE, log
entry 57). -/
opaque ppduNs : List Nat → Nat → Nat

/-- Correlation in 1/256 of two stations, by SCID, over a group of subcarriers in which the first column of one has no length, a case
R231 does not state (log entry 60). -/
opaque zeroCorr : Nat → Nat → Nat

/-- A byte of the boot ROM, by offset; the spec does not list the ROM's contents (R42, DESIGN CHOICE, log entry 55). -/
opaque romByte : Nat → BitVec 8

/-- Levels that the world outside puts on the GPIO balls that nothing drives, by the state's counter `freeTick` (R487, DESIGN
CHOICE, log entry 5). -/
opaque floatPins : Nat → Nat

/-- TILE_SPARES.TOTAL by tile; the spec leaves it to the tile and does not give it (R31, DESIGN CHOICE, log entry 31). -/
opaque sparesTotal : Nat → Nat

end Sys2Proof.Config
end

