-- ==== Sys2Proof/Machine/Regs.lean ====
section
/-! DEFINITION. The register tables of the spec as data: for each tile kind, every register that stands outside the
common header, with its offset, its array dimensions, its access code, the bits a write stores, the bits LOCK freezes
and its reset value (the "Offset | Register | Access | Reset" table and the field tables of each chapter), and one name
per register for its place in the register file. Reserved bits read zero (R7), so no mask holds them. -/

namespace Sys2Proof

/-- Access codes of R26. `wo` is WO: reads return 0. -/
inductive Acc where
  | ro | wo | rw | rwl | w1s
deriving DecidableEq, Repr

/-- One row of a register table: a register, or an array of `n1` times `n2` registers. -/
structure RegRow where
  name : String
  off : Nat
  s1 : Nat := 4
  n1 : Nat := 1
  s2 : Nat := 4
  n2 : Nat := 1
  acc : Acc
  /-- Bits that a write stores. -/
  mask : Nat
  /-- Bits that TILE_CTL.LOCK freezes (R30). -/
  lmask : Nat := 0
  reset : Nat
  /-- Reset values by flat index where the instances differ. -/
  resets : List Nat := []
deriving DecidableEq, Repr

/-- Registers of RADIO, part 1 (chapters 04, 05, 06, 07, 10). -/
def regsRadio1 : List RegRow := [
  { name := "RF_CHAN", off := 0x1000, acc := .rw, mask := 0x1F00FFFF, reset := 0x00000000 },
  { name := "RF_CMD", off := 0x1004, acc := .wo, mask := 0x00FFFFFF, reset := 0x00000000 },
  { name := "RF_RESULT", off := 0x1008, acc := .ro, mask := 0x00000000, reset := 0x00000000 },
  { name := "RF_RESULT_ACK", off := 0x100C, acc := .wo, mask := 0xFFFFFFFF, reset := 0x00000000 },
  { name := "RF_TUNED", off := 0x1010, acc := .ro, mask := 0x00000000, reset := 0x00000000 },
  { name := "RF_PLACE", off := 0x1014, acc := .ro, mask := 0x00000000, reset := 0x00000000 },
  { name := "RF_BOARD", off := 0x1018, acc := .rwl, mask := 0x8FFFFF00, lmask := 0x8FFFFF00, reset := 0x0018FF00 },
  { name := "RF_CHAINS", off := 0x101C, acc := .ro, mask := 0x00000000, reset := 0x00000000 },
  { name := "RF_CAL_CTL", off := 0x1020, acc := .rw, mask := 0xFFFFFFFF, reset := 0xFEE53CF0 },
  { name := "RF_CAL_STATUS", off := 0x1024, acc := .ro, mask := 0x00000000, reset := 0x00000000 },
  { name := "RF_AGC_CTL", off := 0x1028, acc := .rw, mask := 0x00FFFFFF, reset := 0x00F44E00 },
  { name := "RF_ERR_CNT", off := 0x102C, acc := .ro, mask := 0x00000000, reset := 0x00000000 },
  { name := "RF_BLANK_CNT", off := 0x1030, acc := .ro, mask := 0x00000000, reset := 0x00000000 },
  { name := "RFFE_CMD", off := 0x1034, acc := .wo, mask := 0xFFFFFFFF, reset := 0x00000000 },
  { name := "RFFE_RESULT", off := 0x1038, acc := .ro, mask := 0x00000000, reset := 0x00000000 },
  { name := "RFFE_ACK", off := 0x103C, acc := .wo, mask := 0xFFFFFFFF, reset := 0x00000000 },
  { name := "FEM_DESC", off := 0x1040, s1 := 4, n1 := 8, acc := .rwl, mask := 0xFFFFFC00, lmask := 0xFFFFFC00, reset := 0x00000000 },
  { name := "FEM_DELAY", off := 0x1060, s1 := 4, n1 := 8, acc := .rwl, mask := 0xFFFFFFFF, lmask := 0xFFFFFFFF, reset := 0x00000000 },
  { name := "CHAIN_STATUS", off := 0x1080, s1 := 4, n1 := 8, acc := .ro, mask := 0x00000000, reset := 0x40000000 },
  { name := "SEQ_CTL", off := 0x2000, acc := .rw, mask := 0xC00003FF, reset := 0x00000000 },
  { name := "SEQ_STATUS", off := 0x2004, acc := .ro, mask := 0x00000000, reset := 0x00000000 },
  { name := "SEQ_SWAP", off := 0x2008, acc := .wo, mask := 0x03FFFF00, reset := 0x00000000 },
  { name := "SEQ_RESULT", off := 0x200C, acc := .ro, mask := 0x00000000, reset := 0x00000000 },
  { name := "SEQ_ACK", off := 0x2010, acc := .wo, mask := 0xFFFFFFFF, reset := 0x00000000 },
  { name := "SEQ_POKE", off := 0x2014, acc := .wo, mask := 0x00000001, reset := 0x00000000 }]

/-- Registers of RADIO, part 2 (chapters 04, 05, 06, 07, 10). -/
def regsRadio2 : List RegRow := [
  { name := "SEQ_MARK", off := 0x2018, acc := .ro, mask := 0x00000000, reset := 0x00000000 },
  { name := "SEQ_ERR_CNT", off := 0x201C, acc := .ro, mask := 0x00000000, reset := 0x00000000 },
  { name := "CTRL_RUN", off := 0x2020, acc := .w1s, mask := 0x0000000F, reset := 0x00000000 },
  { name := "TXQ_CMD", off := 0x2040, s1 := 4, n1 := 8, acc := .rw, mask := 0xFFFFFFFF, reset := 0x00000000 },
  { name := "TXQ_PUSH", off := 0x2060, acc := .wo, mask := 0x00000001, reset := 0x00000000 },
  { name := "TXQ_STATUS", off := 0x2064, acc := .ro, mask := 0x00000000, reset := 0x00000000 },
  { name := "TXC_CTL", off := 0x2068, acc := .rw, mask := 0x0003FFFF, reset := 0x00000004 },
  { name := "TXC_WR", off := 0x206C, acc := .ro, mask := 0x00000000, reset := 0x00000000 },
  { name := "TXC_RD", off := 0x2070, acc := .ro, mask := 0x00000000, reset := 0x00000000 },
  { name := "TXC_ACK", off := 0x2074, acc := .wo, mask := 0xFFFFFFFF, reset := 0x00000000 },
  { name := "TX_CNT", off := 0x2078, acc := .ro, mask := 0x00000000, reset := 0x00000000 },
  { name := "RESP_CNT", off := 0x207C, acc := .ro, mask := 0x00000000, reset := 0x00000000 },
  { name := "TX_ERR_CNT", off := 0x2080, acc := .ro, mask := 0x00000000, reset := 0x00000000 },
  { name := "RX_DET_CTL", off := 0x3000, acc := .rw, mask := 0xFFFFFF00, reset := 0xA6806000 },
  { name := "RX_RESTART_CTL", off := 0x3004, acc := .rw, mask := 0x8000001F, reset := 0x80000008 },
  { name := "RX_DEC_CTL", off := 0x3008, acc := .rw, mask := 0xC0FF001F, reset := 0x8064000C },
  { name := "RX_FORMAT_EN", off := 0x300C, acc := .rw, mask := 0x0000003F, reset := 0x0000003F },
  { name := "RXS_BASE", off := 0x3010, acc := .rw, mask := 0xFFFFFFFF, reset := 0x00000006 },
  { name := "RXS_WR", off := 0x3014, acc := .ro, mask := 0x00000000, reset := 0x00000000 },
  { name := "RXS_RD", off := 0x3018, acc := .rw, mask := 0x00007FFF, reset := 0x00000000 },
  { name := "RX_LANES", off := 0x301C, acc := .ro, mask := 0x00000000, reset := 0x00000FFF },
  { name := "RX_CAP", off := 0x3020, acc := .ro, mask := 0x00000000, reset := 0x0C007080 },
  { name := "RX_ED_CNT", off := 0x3024, acc := .ro, mask := 0x00000000, reset := 0x00000000 },
  { name := "RX_PPDU_CNT", off := 0x3028, acc := .ro, mask := 0x00000000, reset := 0x00000000 },
  { name := "RX_QUAL_CNT", off := 0x302C, acc := .ro, mask := 0x00000000, reset := 0x00000000 }]

/-- Registers of RADIO, part 3 (chapters 04, 05, 06, 07, 10). -/
def regsRadio3 : List RegRow := [
  { name := "RX_SIG_CNT", off := 0x3030, acc := .ro, mask := 0x00000000, reset := 0x00000000 },
  { name := "RX_RESTART_CNT", off := 0x3034, acc := .ro, mask := 0x00000000, reset := 0x00000000 },
  { name := "RESTART_MISS_CNT", off := 0x3038, acc := .ro, mask := 0x00000000, reset := 0x00000000 },
  { name := "RX_ABORT_CNT", off := 0x303C, acc := .ro, mask := 0x00000000, reset := 0x00000000 },
  { name := "RX_DEC_CNT", off := 0x3040, acc := .ro, mask := 0x00000000, reset := 0x00000000 },
  { name := "RXS_DROP", off := 0x3044, acc := .ro, mask := 0x00000000, reset := 0x00000000 },
  { name := "MAC_CTL", off := 0x4000, acc := .rw, mask := 0xFFFFFFFF, reset := 0x1000C215 },
  { name := "MAC_SEED", off := 0x4004, acc := .rw, mask := 0xFFFFFFFF, reset := 0x2545F491 },
  { name := "EDCA_AC0", off := 0x4008, acc := .rw, mask := 0xFFFFFFFF, reset := 0x0000A477 },
  { name := "EDCA_AC1", off := 0x400C, acc := .rw, mask := 0xFFFFFFFF, reset := 0x00006437 },
  { name := "EDCA_AC2", off := 0x4010, acc := .rw, mask := 0xFFFFFFFF, reset := 0x005E4317 },
  { name := "EDCA_AC3", off := 0x4014, acc := .rw, mask := 0xFFFFFFFF, reset := 0x002F3217 },
  { name := "MU_EDCA_AC", off := 0x4018, s1 := 4, n1 := 4, acc := .rw, mask := 0xFFFFFFFF, reset := 0x00000000 },
  { name := "NAV_STATUS", off := 0x4028, acc := .ro, mask := 0x00000000, reset := 0x00000000 },
  { name := "GRP_PEND", off := 0x402C, acc := .rw, mask := 0x0000FFFF, reset := 0x00000000 },
  { name := "BSS_A", off := 0x4040, s1 := 8, n1 := 16, acc := .rw, mask := 0xFFFFFFFF, reset := 0x00000000 },
  { name := "BSS_B", off := 0x4044, s1 := 8, n1 := 16, acc := .rw, mask := 0xE3FFFFFF, reset := 0x00000000 },
  { name := "MAC_CAP", off := 0x40C0, acc := .ro, mask := 0x00000000, reset := 0x00000000 },
  { name := "LAST_TA_LO", off := 0x40C4, acc := .ro, mask := 0x00000000, reset := 0x00000000 },
  { name := "LAST_TA_HI", off := 0x40C8, acc := .ro, mask := 0x00000000, reset := 0x00000000 },
  { name := "FILT_CNT", off := 0x40CC, acc := .ro, mask := 0x00000000, reset := 0x00000000 },
  { name := "ACC_CNT", off := 0x40D0, acc := .ro, mask := 0x00000000, reset := 0x00000000 },
  { name := "SEC_CNT", off := 0x40D4, acc := .ro, mask := 0x00000000, reset := 0x00000000 },
  { name := "TP_CTL", off := 0x5000, acc := .rw, mask := 0x8380FFFF, reset := 0x02000000 },
  { name := "TP_LOAD_CTL", off := 0x5004, acc := .rw, mask := 0xFFFFFFFF, reset := 0x0C100C3E }]

/-- Registers of RADIO, part 4 (chapters 04, 05, 06, 07, 10). -/
def regsRadio4 : List RegRow := [
  { name := "TP_LOAD_CTL2", off := 0x5008, acc := .rw, mask := 0xFFFFFFFF, reset := 0x00640D20 },
  { name := "TP_STATUS", off := 0x500C, acc := .ro, mask := 0x00000000, reset := 0x00000000 },
  { name := "TP_PEER_RST", off := 0x5010, acc := .wo, mask := 0x0000FFFF, reset := 0x00000000 },
  { name := "TP_CNT", off := 0x5014, acc := .ro, mask := 0x00000000, reset := 0x00000000 },
  { name := "TP_PEER_CFG", off := 0x5100, s1 := 16, n1 := 16, acc := .rw, mask := 0xC007FFFF, reset := 0x00000000 },
  { name := "TP_PEER_STAT", off := 0x5104, s1 := 16, n1 := 16, acc := .ro, mask := 0x00000000, reset := 0x00000000 },
  { name := "TP_PEER_SEQ", off := 0x5108, s1 := 16, n1 := 16, acc := .ro, mask := 0x00000000, reset := 0x00000000 },
  { name := "TP_PEER_CNT", off := 0x510C, s1 := 16, n1 := 16, acc := .ro, mask := 0x00000000, reset := 0x00000000 }]

/-- Registers of RADIO. -/
def regsRadio : List RegRow :=
  regsRadio1 ++ regsRadio2 ++ regsRadio3 ++ regsRadio4

/-- Registers of SENSE, part 1 (chapters 04). -/
def regsSense1 : List RegRow := [
  { name := "SENSE_CTL", off := 0x1000, acc := .rw, mask := 0xC0FFFFFF, reset := 0x00409C0A },
  { name := "SENSE_STATUS", off := 0x1004, acc := .ro, mask := 0x00000000, reset := 0x00000000 },
  { name := "RPT_BASE", off := 0x1008, acc := .rw, mask := 0xFFFFFFFF, reset := 0x00000004 },
  { name := "RPT_WR", off := 0x100C, acc := .ro, mask := 0x00000000, reset := 0x00000000 },
  { name := "RPT_RD", off := 0x1010, acc := .rw, mask := 0x00000FFF, reset := 0x00000000 },
  { name := "RPT_DROP", off := 0x1014, acc := .ro, mask := 0x00000000, reset := 0x00000000 },
  { name := "SENSE_RUN", off := 0x1018, acc := .w1s, mask := 0x00000003, reset := 0x00000000 },
  { name := "SCAN_A", off := 0x1100, s1 := 8, n1 := 32, acc := .rw, mask := 0xF8001FFF, reset := 0x00000000 },
  { name := "SCAN_B", off := 0x1104, s1 := 8, n1 := 32, acc := .rw, mask := 0xFFFF008F, reset := 0x00000000 }]

/-- Registers of SENSE. -/
def regsSense : List RegRow :=
  regsSense1

/-- Registers of MLINK, part 1 (chapters 07, 08). -/
def regsMlink1 : List RegRow := [
  { name := "MLINK_RUN", off := 0x1000, acc := .w1s, mask := 0x0000000F, reset := 0x00000000 },
  { name := "LINK_CTL", off := 0x1004, acc := .rw, mask := 0x00000007, reset := 0x00000007 },
  { name := "AID_ARG", off := 0x1008, acc := .rw, mask := 0xF3FF07FF, reset := 0x00000000 },
  { name := "AID_CMD", off := 0x100C, acc := .wo, mask := 0x0000FF03, reset := 0x00000000 },
  { name := "AID_RESULT", off := 0x1010, acc := .ro, mask := 0x00000000, reset := 0x00000000 },
  { name := "AID_ACK", off := 0x1014, acc := .wo, mask := 0x000000FF, reset := 0x00000000 },
  { name := "KEY_ARG", off := 0x1018, acc := .rw, mask := 0xFF0003FF, reset := 0x00000000 },
  { name := "KEY_CMD", off := 0x101C, acc := .wo, mask := 0x0000FF03, reset := 0x00000000 },
  { name := "KEY_RESULT", off := 0x1020, acc := .ro, mask := 0x00000000, reset := 0x00000000 },
  { name := "KEY_ACK", off := 0x1024, acc := .wo, mask := 0x000000FF, reset := 0x00000000 },
  { name := "KEY_DATA", off := 0x1028, s1 := 4, n1 := 8, acc := .wo, mask := 0xFFFFFFFF, reset := 0x00000000 },
  { name := "REORDER_CTL", off := 0x1048, acc := .rw, mask := 0x0000FFFF, reset := 0x000000C8 },
  { name := "MRX_CTL", off := 0x104C, acc := .rw, mask := 0x0003FFFF, reset := 0x00000004 },
  { name := "MRX_WR", off := 0x1050, acc := .ro, mask := 0x00000000, reset := 0x00000000 },
  { name := "MRX_RD", off := 0x1054, acc := .rw, mask := 0x00000FFF, reset := 0x00000000 },
  { name := "MLINK_CNT", off := 0x1058, acc := .ro, mask := 0x00000000, reset := 0x00000000 },
  { name := "MLD_A", off := 0x1080, s1 := 8, n1 := 16, acc := .rw, mask := 0xFFFFFFFF, reset := 0x00000000 },
  { name := "MLD_B", off := 0x1084, s1 := 8, n1 := 16, acc := .rw, mask := 0x0000FFFF, reset := 0x00000000 },
  { name := "CTX_ARG", off := 0x2000, acc := .rw, mask := 0x000003FF, reset := 0x00000000 },
  { name := "CTX_CMD", off := 0x2004, acc := .wo, mask := 0x0000FF07, reset := 0x00000000 },
  { name := "CTX_RESULT", off := 0x2008, acc := .ro, mask := 0x00000000, reset := 0x00000000 },
  { name := "CTX_ACK", off := 0x200C, acc := .wo, mask := 0x000000FF, reset := 0x00000000 },
  { name := "CTX_COUNT", off := 0x2010, acc := .ro, mask := 0x00000000, reset := 0x00000000 },
  { name := "SCHED_CTL", off := 0x2014, acc := .rw, mask := 0xFFFFFFF0, reset := 0x42100820 },
  { name := "SCHED_LIM", off := 0x2018, acc := .rw, mask := 0xFFFFFFFF, reset := 0x0AA04040 }]

/-- Registers of MLINK, part 2 (chapters 07, 08). -/
def regsMlink2 : List RegRow := [
  { name := "SOUND_CTL", off := 0x201C, acc := .rw, mask := 0xFFFFFF03, reset := 0x10320A01 },
  { name := "UL_CTL", off := 0x2020, acc := .rw, mask := 0xFFFFFFF0, reset := 0x07D05540 },
  { name := "STQ_DROP", off := 0x2024, acc := .ro, mask := 0x00000000, reset := 0x00000000 },
  { name := "SCHED_CNT", off := 0x2028, acc := .ro, mask := 0x00000000, reset := 0x00000000 },
  { name := "SOUND_CNT", off := 0x202C, acc := .ro, mask := 0x00000000, reset := 0x00000000 },
  { name := "TRIG_CNT", off := 0x2030, acc := .ro, mask := 0x00000000, reset := 0x00000000 },
  { name := "TWT_W0", off := 0x2100, s1 := 16, n1 := 32, acc := .rw, mask := 0xFE0003FF, reset := 0x00000000 },
  { name := "TWT_W1", off := 0x2104, s1 := 16, n1 := 32, acc := .rw, mask := 0xFFFFFFFF, reset := 0x00000000 },
  { name := "TWT_W2", off := 0x2108, s1 := 16, n1 := 32, acc := .rw, mask := 0xFFFFFFFF, reset := 0x00000000 },
  { name := "TWT_W3", off := 0x210C, s1 := 16, n1 := 32, acc := .rw, mask := 0xFF00FFFF, reset := 0x00000000 },
  { name := "STEER_STAT", off := 0x2400, s1 := 1024, n1 := 3, s2 := 4, n2 := 256, acc := .ro, mask := 0x00000000, reset := 0x00000000 },
  { name := "STQ_ENQ", off := 0x100000, s1 := 4, n1 := 8192, acc := .wo, mask := 0x07FFFFFF, reset := 0x00000000 },
  { name := "STQ_STAT", off := 0x108000, s1 := 4, n1 := 8192, acc := .ro, mask := 0x00000000, reset := 0x00000000 }]

/-- Registers of MLINK. -/
def regsMlink : List RegRow :=
  regsMlink1 ++ regsMlink2

/-- Registers of NEWT, part 1 (chapters 09). -/
def regsNewt1 : List RegRow := [
  { name := "NEWT_RUN", off := 0x1000, acc := .w1s, mask := 0x00000001, reset := 0x00000000 },
  { name := "NEWT_CTL", off := 0x1004, acc := .rw, mask := 0xFC03FFDF, reset := 0x1000B58B },
  { name := "NEWT_CSMA", off := 0x1008, acc := .rw, mask := 0x0007FFF0, reset := 0x00034530 },
  { name := "NEWT_SEED", off := 0x100C, acc := .rw, mask := 0xFFFFFFFF, reset := 0x2545F491 },
  { name := "NEWT_ADDR", off := 0x1010, acc := .rw, mask := 0xFFFFFFFF, reset := 0xFFFF0000 },
  { name := "NEWT_EXT_LO", off := 0x1014, acc := .rw, mask := 0xFFFFFFFF, reset := 0x00000000 },
  { name := "NEWT_EXT_HI", off := 0x1018, acc := .rw, mask := 0xFFFFFFFF, reset := 0x00000000 },
  { name := "NEWT_FC", off := 0x101C, acc := .rw, mask := 0xFFFFFFFF, reset := 0x00000000 },
  { name := "COEX_CTL", off := 0x1020, acc := .rw, mask := 0x80000303, reset := 0x80000302 },
  { name := "COEX_STATUS", off := 0x1024, acc := .ro, mask := 0x00000000, reset := 0x00000000 },
  { name := "NEWT_STATUS", off := 0x1028, acc := .ro, mask := 0x00000000, reset := 0x00000000 },
  { name := "TX_ARG0", off := 0x102C, acc := .rw, mask := 0xFFFFFFFF, reset := 0x00000000 },
  { name := "TX_ARG1", off := 0x1030, acc := .rw, mask := 0x000000FF, reset := 0x00000000 },
  { name := "TX_CMD", off := 0x1034, acc := .wo, mask := 0xFFFFFFFF, reset := 0x00000000 },
  { name := "TX_RESULT", off := 0x1038, acc := .ro, mask := 0x00000000, reset := 0x00000000 },
  { name := "TX_TIME", off := 0x103C, acc := .ro, mask := 0x00000000, reset := 0x00000000 },
  { name := "TX_ACK", off := 0x1040, acc := .wo, mask := 0xFFFFFFFF, reset := 0x00000000 },
  { name := "RXR_CTL", off := 0x1044, acc := .rw, mask := 0x0000FF0F, reset := 0x00000004 },
  { name := "RXR_WR", off := 0x1048, acc := .ro, mask := 0x00000000, reset := 0x00000000 },
  { name := "RXR_RD", off := 0x104C, acc := .rw, mask := 0x0000003F, reset := 0x00000000 },
  { name := "CHILD_ARG", off := 0x1050, acc := .rw, mask := 0x0000FFFF, reset := 0x00000000 },
  { name := "CHILD_EXT_LO", off := 0x1054, acc := .rw, mask := 0xFFFFFFFF, reset := 0x00000000 },
  { name := "CHILD_EXT_HI", off := 0x1058, acc := .rw, mask := 0xFFFFFFFF, reset := 0x00000000 },
  { name := "CHILD_CMD", off := 0x105C, acc := .wo, mask := 0xFFFFFFFF, reset := 0x00000000 },
  { name := "CHILD_RESULT", off := 0x1060, acc := .ro, mask := 0x00000000, reset := 0x00000000 }]

/-- Registers of NEWT, part 2 (chapters 09). -/
def regsNewt2 : List RegRow := [
  { name := "CHILD_ACK", off := 0x1064, acc := .wo, mask := 0xFFFFFFFF, reset := 0x00000000 },
  { name := "PEND_SET", off := 0x1068, acc := .wo, mask := 0xFFFFFFFF, reset := 0x00000000 },
  { name := "PEND_CLR", off := 0x106C, acc := .wo, mask := 0xFFFFFFFF, reset := 0x00000000 },
  { name := "NEWT_CNT0", off := 0x1070, acc := .ro, mask := 0x00000000, reset := 0x00000000 },
  { name := "NEWT_CNT1", off := 0x1074, acc := .ro, mask := 0x00000000, reset := 0x00000000 },
  { name := "NEWT_CNT2", off := 0x1078, acc := .ro, mask := 0x00000000, reset := 0x00000000 },
  { name := "PEND_BITS", off := 0x1080, s1 := 4, n1 := 16, acc := .ro, mask := 0x00000000, reset := 0x00000000 },
  { name := "EXT_PEND0", off := 0x10C0, acc := .ro, mask := 0x00000000, reset := 0x00000000 },
  { name := "EXT_PEND1", off := 0x10C4, acc := .ro, mask := 0x00000000, reset := 0x00000000 },
  { name := "KEY_DATA", off := 0x1200, s1 := 32, n1 := 16, s2 := 4, n2 := 4, acc := .wo, mask := 0xFFFFFFFF, reset := 0x00000000 },
  { name := "KEY_CTL", off := 0x1210, s1 := 32, n1 := 16, acc := .rw, mask := 0x800003FF, reset := 0x00000000 }]

/-- Registers of NEWT. -/
def regsNewt : List RegRow :=
  regsNewt1 ++ regsNewt2

/-- Registers of CLASS, part 1 (chapters 11, 14). -/
def regsClass1 : List RegRow := [
  { name := "CLS_CTL", off := 0x1000, acc := .rw, mask := 0xFE00FF00, reset := 0x00000000 },
  { name := "CLS_EXC", off := 0x1004, acc := .rw, mask := 0x0003FFFF, reset := 0x00000000 },
  { name := "TUN_PORTS", off := 0x1008, acc := .rw, mask := 0xFFFFFFFF, reset := 0x12B517C1 },
  { name := "GTPU_PORT", off := 0x100C, acc := .rw, mask := 0x0000FFFF, reset := 0x00000868 },
  { name := "CT_BASE", off := 0x1010, acc := .rw, mask := 0xFFFFF003, reset := 0x00000000 },
  { name := "LPM4_BASE", off := 0x1014, acc := .rw, mask := 0xFFFFF001, reset := 0x00000000 },
  { name := "LPM6_BASE", off := 0x1018, acc := .rw, mask := 0xFFFFF001, reset := 0x00000000 },
  { name := "CT_COUNT", off := 0x101C, acc := .ro, mask := 0x00000000, reset := 0x00000000 },
  { name := "LPM4_COUNT", off := 0x1020, acc := .ro, mask := 0x00000000, reset := 0x00000000 },
  { name := "LPM6_COUNT", off := 0x1024, acc := .ro, mask := 0x00000000, reset := 0x00000000 },
  { name := "CLS_STATUS", off := 0x1028, acc := .ro, mask := 0x00000000, reset := 0x00000000 },
  { name := "CLS_FRAMES", off := 0x102C, acc := .ro, mask := 0x00000000, reset := 0x00000000 },
  { name := "CLS_CNT1", off := 0x1030, acc := .ro, mask := 0x00000000, reset := 0x00000000 },
  { name := "CLS_CNT2", off := 0x1034, acc := .ro, mask := 0x00000000, reset := 0x00000000 },
  { name := "CLS_CNT3", off := 0x1038, acc := .ro, mask := 0x00000000, reset := 0x00000000 },
  { name := "CLS_INJ", off := 0x103C, acc := .wo, mask := 0x07FFFFFF, reset := 0x00000000 },
  { name := "ING_CFG", off := 0x1040, s1 := 4, n1 := 16, acc := .rw, mask := 0x000000FF, reset := 0x00000000 },
  { name := "STAGE_W0", off := 0x1100, s1 := 16, n1 := 8, acc := .rw, mask := 0xFFFFFF00, reset := 0x00000000 },
  { name := "STAGE_W1", off := 0x1104, s1 := 16, n1 := 8, acc := .rw, mask := 0xFFFFFFFF, reset := 0x00000000 },
  { name := "STAGE_W2", off := 0x1108, s1 := 16, n1 := 8, acc := .rw, mask := 0xFFFFFFFF, reset := 0x00000000 },
  { name := "STAGE_W3", off := 0x110C, s1 := 16, n1 := 8, acc := .rw, mask := 0x0000FFFF, reset := 0x00000000 },
  { name := "STAGE_HIT", off := 0x1180, s1 := 8, n1 := 8, acc := .ro, mask := 0x00000000, reset := 0x00000000 },
  { name := "STAGE_MISS", off := 0x1184, s1 := 8, n1 := 8, acc := .ro, mask := 0x00000000, reset := 0x00000000 },
  { name := "EM_TBL_W0", off := 0x1200, s1 := 16, n1 := 16, acc := .rw, mask := 0xFFFFFFF0, reset := 0x00000000 },
  { name := "EM_TBL_W1", off := 0x1204, s1 := 16, n1 := 16, acc := .rw, mask := 0x80000030, reset := 0x00000000 }]

/-- Registers of CLASS, part 2 (chapters 11, 14). -/
def regsClass2 : List RegRow := [
  { name := "EM_TBL_W2", off := 0x1208, s1 := 16, n1 := 16, acc := .rw, mask := 0x0000001F, reset := 0x00000004 },
  { name := "EM_TBL_W3", off := 0x120C, s1 := 16, n1 := 16, acc := .ro, mask := 0x00000000, reset := 0x00000000 },
  { name := "KEY_TPL", off := 0x1400, s1 := 32, n1 := 16, s2 := 4, n2 := 8, acc := .rw, mask := 0xFFFFFF00, reset := 0x00000000 },
  { name := "TCMD_ARG", off := 0x2000, s1 := 32, n1 := 16, s2 := 4, n2 := 5, acc := .rw, mask := 0xFFFFFFFF, reset := 0x00000000 },
  { name := "TCMD_CMD", off := 0x2014, s1 := 32, n1 := 16, acc := .wo, mask := 0xFFF00F0F, reset := 0x00000000 },
  { name := "TCMD_RES", off := 0x2018, s1 := 32, n1 := 16, acc := .ro, mask := 0x00000000, reset := 0x00000000 },
  { name := "TCMD_ACK", off := 0x201C, s1 := 32, n1 := 16, acc := .wo, mask := 0x0000000F, reset := 0x00000000 },
  { name := "ACTION", off := 0x4000, s1 := 16, n1 := 256, s2 := 4, n2 := 4, acc := .rw, mask := 0xFFFFFFFF, reset := 0x00000000 },
  { name := "FAB_CTL", off := 0x8000, acc := .rw, mask := 0x8FFFFFFF, reset := 0x0340FFFF },
  { name := "FAB_BCN", off := 0x8004, acc := .rw, mask := 0xFFFFFFF7, reset := 0x00640000 },
  { name := "FAB_BCN_DESC", off := 0x8008, acc := .rw, mask := 0x87FFFFFF, reset := 0x00000000 },
  { name := "FAB_ENQ", off := 0x800C, acc := .wo, mask := 0x07FFFFFF, reset := 0x00000000 },
  { name := "FAB_RING", off := 0x8010, acc := .rw, mask := 0xFFFFFFFF, reset := 0x00000006 },
  { name := "FAB_RING_WR", off := 0x8014, acc := .ro, mask := 0x00000000, reset := 0x00000000 },
  { name := "FAB_RING_RD", off := 0x8018, acc := .rw, mask := 0x00000FFF, reset := 0x00000000 },
  { name := "FAB_SCHED", off := 0x801C, acc := .rw, mask := 0xFF00FFFF, reset := 0x00000064 },
  { name := "FAB_SW_EPOCH", off := 0x8020, acc := .rw, mask := 0xFFFFFFFF, reset := 0x00000000 },
  { name := "FAB_EPOCH", off := 0x8024, acc := .ro, mask := 0x00000000, reset := 0x00000000 },
  { name := "FWD_ARG0", off := 0x8028, acc := .rw, mask := 0x0000FFFF, reset := 0x00000000 },
  { name := "FWD_ARG1", off := 0x802C, acc := .rw, mask := 0x80007F3F, reset := 0x00000000 },
  { name := "FWD_CMD", off := 0x8030, acc := .wo, mask := 0x0000FF03, reset := 0x00000000 },
  { name := "FWD_RESULT", off := 0x8034, acc := .ro, mask := 0x00000000, reset := 0x00000000 },
  { name := "FWD_ACK", off := 0x8038, acc := .wo, mask := 0x000000FF, reset := 0x00000000 },
  { name := "FWD_COUNT", off := 0x803C, acc := .ro, mask := 0x00000000, reset := 0x00000000 },
  { name := "FAB_CNT0", off := 0x8040, acc := .ro, mask := 0x00000000, reset := 0x00000000 }]

/-- Registers of CLASS, part 3 (chapters 11, 14). -/
def regsClass3 : List RegRow := [
  { name := "FAB_CNT1", off := 0x8044, acc := .ro, mask := 0x00000000, reset := 0x00000000 },
  { name := "FAB_CNT2", off := 0x8048, acc := .ro, mask := 0x00000000, reset := 0x00000000 },
  { name := "NH_W0", off := 0x8100, s1 := 16, n1 := 64, acc := .rw, mask := 0xFF80FFFF, reset := 0x00000000 },
  { name := "NH_W1", off := 0x8104, s1 := 16, n1 := 64, acc := .rw, mask := 0xFFFFFFFF, reset := 0x00000000 },
  { name := "NH_W2", off := 0x8108, s1 := 16, n1 := 64, acc := .rw, mask := 0x0000FFFF, reset := 0x00000000 },
  { name := "NH_W3", off := 0x810C, s1 := 16, n1 := 64, acc := .rw, mask := 0x00000000, reset := 0x00000000 },
  { name := "SLOT_CUR", off := 0x8600, s1 := 4, n1 := 16, acc := .ro, mask := 0x00000000, reset := 0x00000000 },
  { name := "SLOT_NEXT", off := 0x8640, s1 := 4, n1 := 16, acc := .rw, mask := 0xFC1FFFFF, reset := 0x00000000 },
  { name := "DOZE_W0", off := 0x8700, s1 := 16, n1 := 3, acc := .rw, mask := 0x8000FFFF, reset := 0x00000000 },
  { name := "DOZE_W1", off := 0x8704, s1 := 16, n1 := 3, acc := .rw, mask := 0xFFFFFFFF, reset := 0x00000000 },
  { name := "DOZE_W2", off := 0x8708, s1 := 16, n1 := 3, acc := .rw, mask := 0xFFFFFFFF, reset := 0x00000000 },
  { name := "DOZE_W3", off := 0x870C, s1 := 16, n1 := 3, acc := .rw, mask := 0x0000FFFF, reset := 0x00000000 },
  { name := "FWD_W0", off := 0x9000, s1 := 8, n1 := 1024, acc := .ro, mask := 0x00000000, reset := 0x00000000 },
  { name := "FWD_W1", off := 0x9004, s1 := 8, n1 := 1024, acc := .ro, mask := 0x00000000, reset := 0x00000000 }]

/-- Registers of CLASS. -/
def regsClass : List RegRow :=
  regsClass1 ++ regsClass2 ++ regsClass3

/-- Registers of STORE, part 1 (chapters 12, 13). -/
def regsStore1 : List RegRow := [
  { name := "STORE_CTL", off := 0x1000, acc := .rw, mask := 0xC0000000, reset := 0x40000000 },
  { name := "POOL_CMD", off := 0x1004, acc := .wo, mask := 0x0003FF3F, reset := 0x00000000 },
  { name := "POOL_RESULT", off := 0x1008, acc := .ro, mask := 0x00000000, reset := 0x00000000 },
  { name := "POOL_ACK", off := 0x100C, acc := .wo, mask := 0x000000FF, reset := 0x00000000 },
  { name := "FREE_DESC", off := 0x1010, acc := .wo, mask := 0x07FFFFFF, reset := 0x00000000 },
  { name := "FREE_BLK", off := 0x1014, acc := .wo, mask := 0x01FFFFFF, reset := 0x00000000 },
  { name := "SCRUB_CTL", off := 0x1018, acc := .rw, mask := 0x800000FF, reset := 0x80000018 },
  { name := "SCRUB_STATUS", off := 0x101C, acc := .ro, mask := 0x00000000, reset := 0x00000000 },
  { name := "ERR_SEQ", off := 0x1020, acc := .ro, mask := 0x00000000, reset := 0x00000000 },
  { name := "STORE_CNT0", off := 0x1024, acc := .ro, mask := 0x00000000, reset := 0x00000000 },
  { name := "STORE_CNT1", off := 0x1028, acc := .ro, mask := 0x00000000, reset := 0x00000000 },
  { name := "PORT_POOL", off := 0x1080, s1 := 4, n1 := 18, acc := .rw, mask := 0x00FF3F3F, reset := 0x00000000 },
  { name := "POOL_W0", off := 0x1100, s1 := 16, n1 := 64, acc := .rw, mask := 0x01FFFFFF, reset := 0x00000000 },
  { name := "POOL_W1", off := 0x1104, s1 := 16, n1 := 64, acc := .rw, mask := 0x01FFFFFF, reset := 0x00000000 },
  { name := "POOL_W2", off := 0x1108, s1 := 16, n1 := 64, acc := .rw, mask := 0x40FFFFFF, reset := 0x00000000 },
  { name := "POOL_W3", off := 0x110C, s1 := 16, n1 := 64, acc := .rw, mask := 0x00000000, reset := 0x00000000 },
  { name := "ERR_LOG_W0", off := 0x1500, s1 := 8, n1 := 16, acc := .ro, mask := 0x00000000, reset := 0x00000000 },
  { name := "ERR_LOG_W1", off := 0x1504, s1 := 8, n1 := 16, acc := .ro, mask := 0x00000000, reset := 0x00000000 },
  { name := "MB_REQ", off := 0x2000, s1 := 16, n1 := 192, acc := .wo, mask := 0x00000F3F, reset := 0x00000000 },
  { name := "MB_RES", off := 0x2004, s1 := 16, n1 := 192, acc := .ro, mask := 0x00000000, reset := 0x00000000 },
  { name := "MB_ACK", off := 0x2008, s1 := 16, n1 := 192, acc := .wo, mask := 0x0000000F, reset := 0x00000000 },
  { name := "DRAM_CTL", off := 0x4000, acc := .rw, mask := 0xE0000000, lmask := 0x80000000, reset := 0xE0000000 },
  { name := "NR_CTL", off := 0x4004, acc := .rwl, mask := 0x000007FF, lmask := 0x000007FF, reset := 0x00000400 },
  { name := "RETRAIN_CTL", off := 0x4008, acc := .rw, mask := 0x80FFFF00, reset := 0x80401000 },
  { name := "MAP_STATUS", off := 0x400C, acc := .ro, mask := 0x00000000, reset := 0x00000000 }]

/-- Registers of STORE, part 2 (chapters 12, 13). -/
def regsStore2 : List RegRow := [
  { name := "MAP_MASK0", off := 0x4010, acc := .rw, mask := 0x01FFFFFF, reset := 0x00000408 },
  { name := "MAP_MASK1", off := 0x4014, acc := .rw, mask := 0x01FFFFFF, reset := 0x00000810 },
  { name := "MAP_MASK2", off := 0x4018, acc := .rw, mask := 0x01FFFFFF, reset := 0x00001020 },
  { name := "MAP_MASK3", off := 0x401C, acc := .rw, mask := 0x01FFFFFF, reset := 0x00002040 },
  { name := "MAP_MASK4", off := 0x4020, acc := .rw, mask := 0x01FFFFFF, reset := 0x00004080 },
  { name := "MAP_MASK5", off := 0x4024, acc := .rw, mask := 0x01FFFFFF, reset := 0x00008100 },
  { name := "MAP_MASK6", off := 0x4028, acc := .rw, mask := 0x01FFFFFF, reset := 0x00010200 },
  { name := "REPAIR_ARG", off := 0x402C, acc := .rw, mask := 0x803FFFFF, reset := 0x00000000 },
  { name := "REPAIR_CMD", off := 0x4030, acc := .wo, mask := 0x0000FF03, reset := 0x00000000 },
  { name := "REPAIR_RESULT", off := 0x4034, acc := .ro, mask := 0x00000000, reset := 0x00000000 },
  { name := "REPAIR_ACK", off := 0x4038, acc := .wo, mask := 0x000000FF, reset := 0x00000000 },
  { name := "REPAIR_STATUS", off := 0x403C, acc := .ro, mask := 0x00000000, reset := 0x00000000 },
  { name := "DRAM_CNT0", off := 0x4040, acc := .ro, mask := 0x00000000, reset := 0x00000000 },
  { name := "DRAM_CNT1", off := 0x4044, acc := .ro, mask := 0x00000000, reset := 0x00000000 },
  { name := "DRAM_CNT2", off := 0x4048, acc := .ro, mask := 0x00000000, reset := 0x00000000 },
  { name := "PORT_LAT", off := 0x4080, s1 := 4, n1 := 18, acc := .rw, mask := 0x80FFFFFF, reset := 0x00000000, resets := [2098652, 2098652, 2098652, 2098952, 2147152, 2117152, 2098352, 2101152, 2099652, 2099652, 2099652, 2099652, 2105152, 2107152, 2100152, 2117152, 2097152, 2098152] },
  { name := "CH_STAT", off := 0x4100, s1 := 4, n1 := 8, acc := .ro, mask := 0x00000000, reset := 0x00000000 },
  { name := "PORT_STAT", off := 0x4200, s1 := 4, n1 := 18, acc := .ro, mask := 0x00000000, reset := 0x00000000 }]

/-- Registers of STORE. -/
def regsStore : List RegRow :=
  regsStore1 ++ regsStore2

/-- Registers of SCHED, part 1 (chapters 15). -/
def regsSched1 : List RegRow := [
  { name := "SCHED_CTL", off := 0x1000, acc := .rw, mask := 0x80000F00, reset := 0x00000400 },
  { name := "SCHED_OVF", off := 0x1004, acc := .rw, mask := 0xFFFFFFF1, reset := 0x00000000 },
  { name := "SCHED_STATUS", off := 0x1008, acc := .ro, mask := 0x00000000, reset := 0x00000000 },
  { name := "ENG_EN", off := 0x100C, acc := .rw, mask := 0xFFFFFFFF, reset := 0xFFFFFFFF },
  { name := "TRC_CTL", off := 0x1010, acc := .rw, mask := 0x80FF000F, reset := 0x00FF0000 },
  { name := "TRC_BASE", off := 0x1014, acc := .rw, mask := 0xFFFFFFFF, reset := 0x00000008 },
  { name := "TRC_WR", off := 0x1018, acc := .ro, mask := 0x00000000, reset := 0x00000000 },
  { name := "TRC_RD", off := 0x101C, acc := .rw, mask := 0x00007FFF, reset := 0x00000000 },
  { name := "SCHED_CNT0", off := 0x1020, acc := .ro, mask := 0x00000000, reset := 0x00000000 },
  { name := "SCHED_CNT1", off := 0x1024, acc := .ro, mask := 0x00000000, reset := 0x00000000 },
  { name := "SCHED_CNT2", off := 0x1028, acc := .ro, mask := 0x00000000, reset := 0x00000000 },
  { name := "SCHED_CNT3", off := 0x102C, acc := .ro, mask := 0x00000000, reset := 0x00000000 },
  { name := "HIST", off := 0x1030, s1 := 4, n1 := 8, acc := .ro, mask := 0x00000000, reset := 0x00000000 },
  { name := "GROUP_MASK", off := 0x1080, s1 := 4, n1 := 16, acc := .rw, mask := 0xFFFFFFFF, reset := 0x00000000, resets := [4294967295, 0, 0, 0, 0, 0, 0, 0, 0, 0, 0, 0, 0, 0, 0, 0] },
  { name := "ENG_LOAD", off := 0x1100, s1 := 4, n1 := 32, acc := .ro, mask := 0x00000000, reset := 0x00000000 },
  { name := "LIST_CFG", off := 0x2000, s1 := 4, n1 := 1024, acc := .rw, mask := 0xFC0F0000, reset := 0xC0000000 },
  { name := "LIST_STAT", off := 0x3000, s1 := 4, n1 := 1024, acc := .ro, mask := 0x00000000, reset := 0x00000000 },
  { name := "DOM_STAT", off := 0x4000, s1 := 4, n1 := 256, acc := .ro, mask := 0x00000000, reset := 0x00000000 },
  { name := "AFF", off := 0x8000, s1 := 4, n1 := 4096, acc := .ro, mask := 0x00000000, reset := 0x00000000 }]

/-- Registers of SCHED. -/
def regsSched : List RegRow :=
  regsSched1

/-- Registers of ENG, part 1 (chapters 15). -/
def regsEng1 : List RegRow := [
  { name := "ENG_RUN", off := 0x1000, acc := .w1s, mask := 0xFFFFFFFF, reset := 0x00000000 },
  { name := "ENG_STOPPED", off := 0x1004, acc := .ro, mask := 0x00000000, reset := 0x00000000 },
  { name := "ENG_CLK", off := 0x1008, acc := .rw, mask := 0x00000FFF, reset := 0x07D007D0 },
  { name := "ENG_MAP", off := 0x100C, acc := .ro, mask := 0x00000000, reset := 0x76543210 },
  { name := "ENG_CTL", off := 0x1010, acc := .rw, mask := 0xFFFF0000, reset := 0x03E80000 },
  { name := "SUBST_CMD", off := 0x1014, acc := .wo, mask := 0x0000FF07, reset := 0x00000000 },
  { name := "SUBST_RESULT", off := 0x1018, acc := .ro, mask := 0x00000000, reset := 0x00000000 },
  { name := "SUBST_ACK", off := 0x101C, acc := .wo, mask := 0x000000FF, reset := 0x00000000 },
  { name := "ENG_CNT", off := 0x1020, acc := .ro, mask := 0x00000000, reset := 0x00000000 },
  { name := "ENG_BUSY", off := 0x1040, s1 := 4, n1 := 8, acc := .ro, mask := 0x00000000, reset := 0x00000000 }]

/-- Registers of ENG. -/
def regsEng : List RegRow :=
  regsEng1

/-- Registers of CIPHER, part 1 (chapters 16). -/
def regsCipher1 : List RegRow := [
  { name := "CIPHER_CTL", off := 0x1000, acc := .rw, mask := 0x80000000, reset := 0x00000000 },
  { name := "SESS_ARG", off := 0x1004, acc := .rw, mask := 0xF00007FF, reset := 0x00000000 },
  { name := "SESS_SALT", off := 0x1008, acc := .wo, mask := 0xFFFFFFFF, reset := 0x00000000 },
  { name := "SESS_CMD", off := 0x100C, acc := .wo, mask := 0x0000FF03, reset := 0x00000000 },
  { name := "SESS_RESULT", off := 0x1010, acc := .ro, mask := 0x00000000, reset := 0x00000000 },
  { name := "SESS_ACK", off := 0x1014, acc := .wo, mask := 0xFFFFFFFF, reset := 0x00000000 },
  { name := "CIPHER_STATUS", off := 0x1018, acc := .ro, mask := 0x00000000, reset := 0x00000000 },
  { name := "CIPHER_CNT0", off := 0x101C, acc := .ro, mask := 0x00000000, reset := 0x00000000 },
  { name := "CIPHER_CNT1", off := 0x1020, acc := .ro, mask := 0x00000000, reset := 0x00000000 },
  { name := "SESS_KEY", off := 0x1040, s1 := 4, n1 := 8, acc := .wo, mask := 0xFFFFFFFF, reset := 0x00000000 },
  { name := "QUEUE_CFG", off := 0x1400, s1 := 4, n1 := 256, acc := .rw, mask := 0xE003FFFF, reset := 0x00000000 }]

/-- Registers of CIPHER. -/
def regsCipher : List RegRow :=
  regsCipher1

/-- Registers of TIME, part 1 (chapters 17). -/
def regsTime1 : List RegRow := [
  { name := "MS_CMD", off := 0x1000, acc := .wo, mask := 0x0000FF03, reset := 0x00000000 },
  { name := "MS_ARG_LO", off := 0x1004, acc := .rw, mask := 0xFFFFFFFF, reset := 0x00000000 },
  { name := "MS_ARG_HI", off := 0x1008, acc := .rw, mask := 0xFFFFFFFF, reset := 0x00000000 },
  { name := "MS_RESULT", off := 0x100C, acc := .ro, mask := 0x00000000, reset := 0x00000000 },
  { name := "MS_ACK", off := 0x1010, acc := .wo, mask := 0xFFFFFFFF, reset := 0x00000000 },
  { name := "MS_ADJ", off := 0x1014, acc := .ro, mask := 0x00000000, reset := 0x00000000 },
  { name := "SERVO_CTL", off := 0x1018, acc := .rw, mask := 0xEFFFFFFF, reset := 0x0143E814 },
  { name := "SERVO_HOLD", off := 0x101C, acc := .rw, mask := 0x0000FFFF, reset := 0x00000BB8 },
  { name := "SERVO_IN", off := 0x1020, acc := .wo, mask := 0xFFFFFFFF, reset := 0x00000000 },
  { name := "SERVO_STATUS", off := 0x1024, acc := .ro, mask := 0x00000000, reset := 0x00000000 },
  { name := "SERVO_LAST", off := 0x1028, acc := .ro, mask := 0x00000000, reset := 0x00000000 },
  { name := "TIME_PARENT", off := 0x102C, acc := .rw, mask := 0xBF00FFFF, reset := 0x00000000 },
  { name := "PPS_CTL", off := 0x1030, acc := .rw, mask := 0xC000FFFF, reset := 0x00000064 },
  { name := "PPS_OUT_OFS", off := 0x1034, acc := .rw, mask := 0xFFFFFFFF, reset := 0x00000000 },
  { name := "PPS_IN_DELAY", off := 0x1038, acc := .rw, mask := 0xFFFFFFFF, reset := 0x00000000 },
  { name := "PPS_IN_STAT", off := 0x103C, acc := .ro, mask := 0x00000000, reset := 0x00000000 },
  { name := "PPS_IN_LO", off := 0x1040, acc := .ro, mask := 0x00000000, reset := 0x00000000 },
  { name := "PPS_IN_HI", off := 0x1044, acc := .ro, mask := 0x00000000, reset := 0x00000000 },
  { name := "PPS_IN_ACK", off := 0x1048, acc := .wo, mask := 0xFFFFFFFF, reset := 0x00000000 },
  { name := "TC_CTL", off := 0x104C, acc := .rw, mask := 0x0000000F, reset := 0x00000000 },
  { name := "TC_CNT", off := 0x1050, acc := .ro, mask := 0x00000000, reset := 0x00000000 },
  { name := "TSF_OFS_LO", off := 0x1060, s1 := 8, n1 := 3, acc := .rw, mask := 0xFFFFFFFF, reset := 0x00000000 },
  { name := "TSF_OFS_HI", off := 0x1064, s1 := 8, n1 := 3, acc := .rw, mask := 0xFFFFFFFF, reset := 0x00000000 },
  { name := "WIRE_DELAY", off := 0x1080, s1 := 4, n1 := 4, acc := .rwl, mask := 0xFFFFFFFF, lmask := 0xFFFFFFFF, reset := 0x00000000 },
  { name := "SNAP_W0", off := 0x1100, s1 := 32, n1 := 4, acc := .wo, mask := 0x0000000F, reset := 0x00000000 }]

/-- Registers of TIME, part 2 (chapters 17). -/
def regsTime2 : List RegRow := [
  { name := "SNAP_W1", off := 0x1104, s1 := 32, n1 := 4, acc := .ro, mask := 0x00000000, reset := 0x00000000 },
  { name := "SNAP_W2", off := 0x1108, s1 := 32, n1 := 4, acc := .ro, mask := 0x00000000, reset := 0x00000000 },
  { name := "SNAP_W3", off := 0x110C, s1 := 32, n1 := 4, acc := .ro, mask := 0x00000000, reset := 0x00000000 },
  { name := "SNAP_W4", off := 0x1110, s1 := 32, n1 := 4, acc := .ro, mask := 0x00000000, reset := 0x00000000 },
  { name := "SNAP_W5", off := 0x1114, s1 := 32, n1 := 4, acc := .ro, mask := 0x00000000, reset := 0x00000000 },
  { name := "SNAP_W6", off := 0x1118, s1 := 32, n1 := 4, acc := .ro, mask := 0x00000000, reset := 0x00000000 },
  { name := "SNAP_W7", off := 0x111C, s1 := 32, n1 := 4, acc := .wo, mask := 0x0000000F, reset := 0x00000000 },
  { name := "FTM_W0", off := 0x1200, s1 := 32, n1 := 3, acc := .wo, mask := 0x000003FF, reset := 0x00000000 },
  { name := "FTM_W1", off := 0x1204, s1 := 32, n1 := 3, acc := .ro, mask := 0x00000000, reset := 0x00000000 },
  { name := "FTM_W2", off := 0x1208, s1 := 32, n1 := 3, acc := .ro, mask := 0x00000000, reset := 0x00000000 },
  { name := "FTM_W3", off := 0x120C, s1 := 32, n1 := 3, acc := .ro, mask := 0x00000000, reset := 0x00000000 },
  { name := "FTM_W4", off := 0x1210, s1 := 32, n1 := 3, acc := .ro, mask := 0x00000000, reset := 0x00000000 },
  { name := "FTM_W5", off := 0x1214, s1 := 32, n1 := 3, acc := .ro, mask := 0x00000000, reset := 0x00000000 },
  { name := "FTM_W6", off := 0x1218, s1 := 32, n1 := 3, acc := .ro, mask := 0x00000000, reset := 0x00000000 },
  { name := "FTM_W7", off := 0x121C, s1 := 32, n1 := 3, acc := .wo, mask := 0x000000FF, reset := 0x00000000 }]

/-- Registers of TIME. -/
def regsTime : List RegRow :=
  regsTime1 ++ regsTime2

/-- Registers of HOST, part 1 (chapters 18). -/
def regsHost1 : List RegRow := [
  { name := "HOST_CTL", off := 0x1000, acc := .rw, mask := 0x80000000, reset := 0x00000000 },
  { name := "HOST_STATUS", off := 0x1004, acc := .ro, mask := 0x00000000, reset := 0x00000000 },
  { name := "BAR2_BASE", off := 0x1008, acc := .rw, mask := 0x0000000F, reset := 0x00000000 },
  { name := "HOST_CNT0", off := 0x100C, acc := .ro, mask := 0x00000000, reset := 0x00000000 },
  { name := "HOST_CNT1", off := 0x1010, acc := .ro, mask := 0x00000000, reset := 0x00000000 },
  { name := "MBX_W0", off := 0x1100, s1 := 32, n1 := 8, acc := .rw, mask := 0xFFFFFFFF, reset := 0x00000000 },
  { name := "MBX_W1", off := 0x1104, s1 := 32, n1 := 8, acc := .rw, mask := 0xFFFFFFFF, reset := 0x00000000 },
  { name := "MBX_W2", off := 0x1108, s1 := 32, n1 := 8, acc := .rw, mask := 0xFFFFFFFF, reset := 0x00000000 },
  { name := "MBX_W3", off := 0x110C, s1 := 32, n1 := 8, acc := .rw, mask := 0xFFFFFFFF, reset := 0x00000000 },
  { name := "MBX_W4", off := 0x1110, s1 := 32, n1 := 8, acc := .wo, mask := 0xFFFF00FF, reset := 0x00000000 },
  { name := "MBX_W5", off := 0x1114, s1 := 32, n1 := 8, acc := .ro, mask := 0x00000000, reset := 0x00000000 },
  { name := "MBX_W6", off := 0x1118, s1 := 32, n1 := 8, acc := .wo, mask := 0x000000FF, reset := 0x00000000 },
  { name := "MBX_W7", off := 0x111C, s1 := 32, n1 := 8, acc := .wo, mask := 0x00FF00FF, reset := 0x00000000 },
  { name := "RING_W0", off := 0x2000, s1 := 32, n1 := 256, acc := .rw, mask := 0xE00FFF00, reset := 0x00000000 },
  { name := "RING_W1", off := 0x2004, s1 := 32, n1 := 256, acc := .rw, mask := 0xFFFFFFE0, reset := 0x00000000 },
  { name := "RING_W2", off := 0x2008, s1 := 32, n1 := 256, acc := .rw, mask := 0xFFFFFFFF, reset := 0x00000000 },
  { name := "RING_W3", off := 0x200C, s1 := 32, n1 := 256, acc := .rw, mask := 0x00007FFF, reset := 0x00000000 },
  { name := "RING_W4", off := 0x2010, s1 := 32, n1 := 256, acc := .ro, mask := 0x00000000, reset := 0x00000000 },
  { name := "RING_W5", off := 0x2014, s1 := 32, n1 := 256, acc := .rw, mask := 0xFFFFFFFF, reset := 0x00000000 },
  { name := "RING_W6", off := 0x2018, s1 := 32, n1 := 256, acc := .ro, mask := 0x00000000, reset := 0x00000000 },
  { name := "RING_W7", off := 0x201C, s1 := 32, n1 := 256, acc := .rw, mask := 0x00000000, reset := 0x00000000 }]

/-- Registers of HOST. -/
def regsHost : List RegRow :=
  regsHost1

/-- Registers of WIRE, part 1 (chapters 18). -/
def regsWire1 : List RegRow := [
  { name := "LANE_CTL", off := 0x1000, s1 := 64, n1 := 4, acc := .rw, mask := 0xFFC03FFF, reset := 0x088005EE },
  { name := "LANE_STATUS", off := 0x1004, s1 := 64, n1 := 4, acc := .ro, mask := 0x00000000, reset := 0x00000000 },
  { name := "LANE_MAC_LO", off := 0x1008, s1 := 64, n1 := 4, acc := .rw, mask := 0xFFFFFFFF, reset := 0x00000000 },
  { name := "LANE_MAC_HI", off := 0x100C, s1 := 64, n1 := 4, acc := .rw, mask := 0x0000FFFF, reset := 0x00000000 },
  { name := "LANE_LP", off := 0x1010, s1 := 64, n1 := 4, acc := .ro, mask := 0x00000000, reset := 0x00000000 },
  { name := "LANE_PAUSE", off := 0x1014, s1 := 64, n1 := 4, acc := .rw, mask := 0xFFFFFFFF, reset := 0xFFFF00C0 },
  { name := "LANE_RX_CNT", off := 0x1018, s1 := 64, n1 := 4, acc := .ro, mask := 0x00000000, reset := 0x00000000 },
  { name := "LANE_TX_CNT", off := 0x101C, s1 := 64, n1 := 4, acc := .ro, mask := 0x00000000, reset := 0x00000000 },
  { name := "LANE_ERR_CNT", off := 0x1020, s1 := 64, n1 := 4, acc := .ro, mask := 0x00000000, reset := 0x00000000 },
  { name := "LANE_DROP_CNT", off := 0x1024, s1 := 64, n1 := 4, acc := .ro, mask := 0x00000000, reset := 0x00000000 },
  { name := "MDIO_CTL", off := 0x1100, acc := .rw, mask := 0x800000FF, reset := 0x0000009C },
  { name := "MDIO_ARG", off := 0x1104, acc := .rw, mask := 0xFFFFFFFF, reset := 0x00000000 },
  { name := "MDIO_CMD", off := 0x1108, acc := .wo, mask := 0xFFF000FF, reset := 0x00000000 },
  { name := "MDIO_RESULT", off := 0x110C, acc := .ro, mask := 0x00000000, reset := 0x00000000 },
  { name := "MDIO_ACK", off := 0x1110, acc := .wo, mask := 0xFFFFFFFF, reset := 0x00000000 },
  { name := "PHY_POLL", off := 0x1120, s1 := 4, n1 := 4, acc := .rw, mask := 0xFEFF0000, reset := 0x00000000 }]

/-- Registers of WIRE. -/
def regsWire : List RegRow :=
  regsWire1

/-- Registers of MGMT, part 1 (chapters 19, 20). -/
def regsMgmt1 : List RegRow := [
  { name := "BOOT_STATUS", off := 0x1000, acc := .ro, mask := 0x00000000, reset := 0x00000000 },
  { name := "DEV_ID_LO", off := 0x1004, acc := .ro, mask := 0x00000000, reset := 0x00000000 },
  { name := "DEV_ID_HI", off := 0x1008, acc := .ro, mask := 0x00000000, reset := 0x00000000 },
  { name := "TRIAL", off := 0x100C, acc := .rw, mask := 0x00000003, reset := 0x00000000 },
  { name := "THERM_THR", off := 0x1010, acc := .rwl, mask := 0xFFFFFFFF, lmask := 0xFFFFFFFF, reset := 0x6966635F },
  { name := "THERM_LIM", off := 0x1014, acc := .rwl, mask := 0x0000FFFF, lmask := 0x0000FFFF, reset := 0x00001432 },
  { name := "THERM_STATUS", off := 0x1018, acc := .ro, mask := 0x00000000, reset := 0x0000000F },
  { name := "MAINT_CTL", off := 0x101C, acc := .rw, mask := 0x0000FFFF, reset := 0x00000064 },
  { name := "AX_CTL", off := 0x1020, acc := .rw, mask := 0xF0FFFF0F, reset := 0xF0100402 },
  { name := "AX_STATUS", off := 0x1024, acc := .ro, mask := 0x00000000, reset := 0x00000000 },
  { name := "LOG_WR", off := 0x1028, acc := .ro, mask := 0x00000000, reset := 0x00000000 },
  { name := "LOG_PERS", off := 0x102C, acc := .rw, mask := 0x000007FF, reset := 0x00000000 },
  { name := "LOG_PUT", off := 0x1030, acc := .wo, mask := 0xFFFFFFFF, reset := 0x00000000 },
  { name := "LOG_CNT", off := 0x1034, acc := .ro, mask := 0x00000000, reset := 0x00000000 },
  { name := "TEMP", off := 0x1040, s1 := 4, n1 := 12, acc := .ro, mask := 0x00000000, reset := 0x00000000 },
  { name := "VMON", off := 0x1080, s1 := 4, n1 := 16, acc := .ro, mask := 0x00000000, reset := 0x00000000 },
  { name := "VMON_LIM", off := 0x10C0, s1 := 4, n1 := 16, acc := .rw, mask := 0xFFFFFFFF, reset := 0x00000000, resets := [60752502, 60752502, 60752502, 60752502, 55051000, 68813750, 68813750, 123864750, 51577544, 82576500, 123864750, 227085375, 123864750, 72221669, 61932375, 34406875] },
  { name := "RO_MON", off := 0x1100, s1 := 4, n1 := 24, acc := .ro, mask := 0x00000000, reset := 0x00000000 },
  { name := "WDT_CTL", off := 0x1200, s1 := 16, n1 := 7, acc := .rwl, mask := 0x8000FFFF, lmask := 0x8000FFFF, reset := 0x000003E8 },
  { name := "WDT_KICK", off := 0x1204, s1 := 16, n1 := 7, acc := .wo, mask := 0x000000FF, reset := 0x00000000 },
  { name := "WDT_STATUS", off := 0x1208, s1 := 16, n1 := 7, acc := .ro, mask := 0x00000000, reset := 0x00000000 },
  { name := "MT_REQ", off := 0x1300, s1 := 16, n1 := 16, acc := .wo, mask := 0xFFFFFFFF, reset := 0x00000000 },
  { name := "MT_RES", off := 0x1304, s1 := 16, n1 := 16, acc := .ro, mask := 0x00000000, reset := 0x00000000 },
  { name := "MT_ACK", off := 0x1308, s1 := 16, n1 := 16, acc := .wo, mask := 0x000000FF, reset := 0x00000000 },
  { name := "MT_HELD", off := 0x1400, s1 := 4, n1 := 26, acc := .ro, mask := 0x00000000, reset := 0x00000000 }]

/-- Registers of MGMT, part 2 (chapters 19, 20). -/
def regsMgmt2 : List RegRow := [
  { name := "AVS_CTL", off := 0x2000, acc := .rw, mask := 0x807F1F00, reset := 0x00401700 },
  { name := "AVS_TARGET", off := 0x2004, acc := .wo, mask := 0x00FFFFFF, reset := 0x00000000 },
  { name := "AVS_RESULT", off := 0x2008, acc := .ro, mask := 0x00000000, reset := 0x00000000 },
  { name := "AVS_ACK", off := 0x200C, acc := .wo, mask := 0xFFFFFFFF, reset := 0x00000000 },
  { name := "AVS_FUSE", off := 0x2010, acc := .ro, mask := 0x00000000, reset := 0x00000000 },
  { name := "DEV_RST", off := 0x2014, acc := .wo, mask := 0x0000FFFF, reset := 0x00000000 },
  { name := "GPIO_OUT", off := 0x2020, acc := .rw, mask := 0xFFFFFFFF, reset := 0x00000000 },
  { name := "GPIO_OE", off := 0x2024, acc := .rw, mask := 0xFFFFFFFF, reset := 0x00000000 },
  { name := "GPIO_IN", off := 0x2028, acc := .ro, mask := 0x00000000, reset := 0x00000000 },
  { name := "GPIO_PD", off := 0x202C, acc := .rw, mask := 0xFFFFFFFF, reset := 0xFFFFFFFF }]

/-- Registers of MGMT. -/
def regsMgmt : List RegRow :=
  regsMgmt1 ++ regsMgmt2

/-- Registers of PRIV, part 1 (chapters 19). -/
def regsPriv1 : List RegRow := [
  { name := "OTP_PROG", off := 0x1000, acc := .wo, mask := 0xFFFFFFFF, reset := 0x00000000 },
  { name := "CR_SRC_LO", off := 0x20000, acc := .rw, mask := 0xFFFFFFFF, reset := 0x00000000 },
  { name := "CR_SRC_HI", off := 0x20004, acc := .rw, mask := 0x000000FF, reset := 0x00000000 },
  { name := "CR_LEN", off := 0x20008, acc := .rw, mask := 0xFFFFFFFF, reset := 0x00000000 },
  { name := "CR_KEY", off := 0x2000C, acc := .rw, mask := 0xFFFFFFFF, reset := 0x00000000 },
  { name := "CR_SIG", off := 0x20010, acc := .rw, mask := 0xFFFFFFFF, reset := 0x00000000 },
  { name := "CR_CMD", off := 0x20014, acc := .wo, mask := 0xFFFFFFFF, reset := 0x00000000 },
  { name := "CR_RES", off := 0x20018, acc := .ro, mask := 0x00000000, reset := 0x00000000 },
  { name := "CR_ACK", off := 0x2001C, acc := .wo, mask := 0xFFFFFFFF, reset := 0x00000000 },
  { name := "CR_DIGEST", off := 0x20020, s1 := 4, n1 := 12, acc := .rw, mask := 0xFFFFFFFF, reset := 0x00000000 },
  { name := "FL_CMD", off := 0x30000, acc := .wo, mask := 0xFFFFFFFF, reset := 0x00000000 },
  { name := "FL_ADDR", off := 0x30004, acc := .rw, mask := 0xFFFFFFFF, reset := 0x00000000 },
  { name := "FL_LEN", off := 0x30008, acc := .rw, mask := 0xFFFFFFFF, reset := 0x00000000 },
  { name := "FL_BUF", off := 0x3000C, acc := .rw, mask := 0xFFFFFFFF, reset := 0x00000000 },
  { name := "FL_RES", off := 0x30010, acc := .ro, mask := 0x00000000, reset := 0x00000000 },
  { name := "FL_ACK", off := 0x30014, acc := .wo, mask := 0xFFFFFFFF, reset := 0x00000000 }]

/-- Registers of PRIV. -/
def regsPriv : List RegRow :=
  regsPriv1

/-- The register table of a tile number; 256 stands for the private space of MGMT (chapter 19). -/
def regTable (tile : Nat) : List RegRow :=
  if tile = 0 then regsMgmt else if tile = 1 then regsTime
  else if tile = 2 ∨ tile = 3 ∨ tile = 4 then regsRadio
  else if tile = 5 then regsMlink else if tile = 6 then regsSense else if tile = 7 then regsNewt
  else if tile = 8 then regsStore else if tile = 9 then regsClass else if tile = 10 then regsSched
  else if tile = 11 ∨ tile = 12 ∨ tile = 13 ∨ tile = 14 then regsEng
  else if tile = 15 then regsCipher else if tile = 16 then regsHost else if tile = 17 then regsWire
  else if tile = 256 then regsPriv else []

/-- Flat index of an offset within a row, if the row has a register there. -/
def RegRow.index (r : RegRow) (off : Nat) : Option Nat :=
  if off < r.off then none
  else
    let i := (off - r.off) / r.s1
    let rest := (off - r.off) % r.s1
    let j := rest / r.s2
    if i < r.n1 ∧ j < r.n2 ∧ rest % r.s2 = 0 then some (i * r.n2 + j) else none

/-- The row and index that an offset of a table names. -/
def findReg : List RegRow → Nat → Option (RegRow × Nat)
  | [], _ => none
  | r :: rs, off =>
    match r.index off with
    | some i => some (r, i)
    | none => findReg rs off

/-- The place of a register in the register file: tile number times 2^24 plus offset (R11). -/
abbrev RegId := Nat

/-- The tile number of a place. -/
def RegId.tile (a : RegId) : Nat := a / 16777216
/-- The offset of a place. -/
def RegId.off (a : RegId) : Nat := a % 16777216

/-- The register a place names. -/
def regAt (a : RegId) : Option (RegRow × Nat) := findReg (regTable (RegId.tile a)) (RegId.off a)

/-- Reset value of a register; 0 where the table has none. -/
def regReset (a : RegId) : BitVec 32 :=
  match regAt a with
  | some (r, i) => BitVec.ofNat 32 ((r.resets[i]?).getD r.reset)
  | none => 0

namespace Reg

/-! Places of the registers of RADIO. -/

/-- RF_CHAN (R130). -/
abbrev RADIO.RF_CHAN (r : Nat) : RegId := 0x2001000 + 0x1000000 * r
/-- RF_CMD (R130). -/
abbrev RADIO.RF_CMD (r : Nat) : RegId := 0x2001004 + 0x1000000 * r
/-- RF_RESULT (R130). -/
abbrev RADIO.RF_RESULT (r : Nat) : RegId := 0x2001008 + 0x1000000 * r
/-- RF_RESULT_ACK (R130). -/
abbrev RADIO.RF_RESULT_ACK (r : Nat) : RegId := 0x200100C + 0x1000000 * r
/-- RF_TUNED (R130). -/
abbrev RADIO.RF_TUNED (r : Nat) : RegId := 0x2001010 + 0x1000000 * r
/-- RF_PLACE (R130). -/
abbrev RADIO.RF_PLACE (r : Nat) : RegId := 0x2001014 + 0x1000000 * r
/-- RF_BOARD (R130). -/
abbrev RADIO.RF_BOARD (r : Nat) : RegId := 0x2001018 + 0x1000000 * r
/-- RF_CHAINS (R130). -/
abbrev RADIO.RF_CHAINS (r : Nat) : RegId := 0x200101C + 0x1000000 * r
/-- RF_CAL_CTL (R130). -/
abbrev RADIO.RF_CAL_CTL (r : Nat) : RegId := 0x2001020 + 0x1000000 * r
/-- RF_CAL_STATUS (R130). -/
abbrev RADIO.RF_CAL_STATUS (r : Nat) : RegId := 0x2001024 + 0x1000000 * r
/-- RF_AGC_CTL (R130). -/
abbrev RADIO.RF_AGC_CTL (r : Nat) : RegId := 0x2001028 + 0x1000000 * r
/-- RF_ERR_CNT (R130). -/
abbrev RADIO.RF_ERR_CNT (r : Nat) : RegId := 0x200102C + 0x1000000 * r
/-- RF_BLANK_CNT (R130). -/
abbrev RADIO.RF_BLANK_CNT (r : Nat) : RegId := 0x2001030 + 0x1000000 * r
/-- RFFE_CMD (R130). -/
abbrev RADIO.RFFE_CMD (r : Nat) : RegId := 0x2001034 + 0x1000000 * r
/-- RFFE_RESULT (R130). -/
abbrev RADIO.RFFE_RESULT (r : Nat) : RegId := 0x2001038 + 0x1000000 * r
/-- RFFE_ACK (R130). -/
abbrev RADIO.RFFE_ACK (r : Nat) : RegId := 0x200103C + 0x1000000 * r
/-- FEM_DESC (R130). -/
abbrev RADIO.FEM_DESC (r : Nat) (i : Nat) : RegId := 0x2001040 + 0x1000000 * r + 4 * i
/-- FEM_DELAY (R130). -/
abbrev RADIO.FEM_DELAY (r : Nat) (i : Nat) : RegId := 0x2001060 + 0x1000000 * r + 4 * i
/-- CHAIN_STATUS (R130). -/
abbrev RADIO.CHAIN_STATUS (r : Nat) (i : Nat) : RegId := 0x2001080 + 0x1000000 * r + 4 * i
/-- SEQ_CTL (R158). -/
abbrev RADIO.SEQ_CTL (r : Nat) : RegId := 0x2002000 + 0x1000000 * r
/-- SEQ_STATUS (R158). -/
abbrev RADIO.SEQ_STATUS (r : Nat) : RegId := 0x2002004 + 0x1000000 * r
/-- SEQ_SWAP (R158). -/
abbrev RADIO.SEQ_SWAP (r : Nat) : RegId := 0x2002008 + 0x1000000 * r
/-- SEQ_RESULT (R158). -/
abbrev RADIO.SEQ_RESULT (r : Nat) : RegId := 0x200200C + 0x1000000 * r
/-- SEQ_ACK (R158). -/
abbrev RADIO.SEQ_ACK (r : Nat) : RegId := 0x2002010 + 0x1000000 * r
/-- SEQ_POKE (R158). -/
abbrev RADIO.SEQ_POKE (r : Nat) : RegId := 0x2002014 + 0x1000000 * r
/-- SEQ_MARK (R158). -/
abbrev RADIO.SEQ_MARK (r : Nat) : RegId := 0x2002018 + 0x1000000 * r
/-- SEQ_ERR_CNT (R158). -/
abbrev RADIO.SEQ_ERR_CNT (r : Nat) : RegId := 0x200201C + 0x1000000 * r
/-- CTRL_RUN (R158). -/
abbrev RADIO.CTRL_RUN (r : Nat) : RegId := 0x2002020 + 0x1000000 * r
/-- TXQ_CMD (R158). -/
abbrev RADIO.TXQ_CMD (r : Nat) (i : Nat) : RegId := 0x2002040 + 0x1000000 * r + 4 * i
/-- TXQ_PUSH (R158). -/
abbrev RADIO.TXQ_PUSH (r : Nat) : RegId := 0x2002060 + 0x1000000 * r
/-- TXQ_STATUS (R158). -/
abbrev RADIO.TXQ_STATUS (r : Nat) : RegId := 0x2002064 + 0x1000000 * r
/-- TXC_CTL (R158). -/
abbrev RADIO.TXC_CTL (r : Nat) : RegId := 0x2002068 + 0x1000000 * r
/-- TXC_WR (R158). -/
abbrev RADIO.TXC_WR (r : Nat) : RegId := 0x200206C + 0x1000000 * r
/-- TXC_RD (R158). -/
abbrev RADIO.TXC_RD (r : Nat) : RegId := 0x2002070 + 0x1000000 * r
/-- TXC_ACK (R158). -/
abbrev RADIO.TXC_ACK (r : Nat) : RegId := 0x2002074 + 0x1000000 * r
/-- TX_CNT (R158). -/
abbrev RADIO.TX_CNT (r : Nat) : RegId := 0x2002078 + 0x1000000 * r
/-- RESP_CNT (R158). -/
abbrev RADIO.RESP_CNT (r : Nat) : RegId := 0x200207C + 0x1000000 * r
/-- TX_ERR_CNT (R158). -/
abbrev RADIO.TX_ERR_CNT (r : Nat) : RegId := 0x2002080 + 0x1000000 * r
/-- RX_DET_CTL (R183). -/
abbrev RADIO.RX_DET_CTL (r : Nat) : RegId := 0x2003000 + 0x1000000 * r
/-- RX_RESTART_CTL (R183). -/
abbrev RADIO.RX_RESTART_CTL (r : Nat) : RegId := 0x2003004 + 0x1000000 * r
/-- RX_DEC_CTL (R183). -/
abbrev RADIO.RX_DEC_CTL (r : Nat) : RegId := 0x2003008 + 0x1000000 * r
/-- RX_FORMAT_EN (R183). -/
abbrev RADIO.RX_FORMAT_EN (r : Nat) : RegId := 0x200300C + 0x1000000 * r
/-- RXS_BASE (R183). -/
abbrev RADIO.RXS_BASE (r : Nat) : RegId := 0x2003010 + 0x1000000 * r
/-- RXS_WR (R183). -/
abbrev RADIO.RXS_WR (r : Nat) : RegId := 0x2003014 + 0x1000000 * r
/-- RXS_RD (R183). -/
abbrev RADIO.RXS_RD (r : Nat) : RegId := 0x2003018 + 0x1000000 * r
/-- RX_LANES (R183). -/
abbrev RADIO.RX_LANES (r : Nat) : RegId := 0x200301C + 0x1000000 * r
/-- RX_CAP (R183). -/
abbrev RADIO.RX_CAP (r : Nat) : RegId := 0x2003020 + 0x1000000 * r
/-- RX_ED_CNT (R183). -/
abbrev RADIO.RX_ED_CNT (r : Nat) : RegId := 0x2003024 + 0x1000000 * r
/-- RX_PPDU_CNT (R183). -/
abbrev RADIO.RX_PPDU_CNT (r : Nat) : RegId := 0x2003028 + 0x1000000 * r
/-- RX_QUAL_CNT (R183). -/
abbrev RADIO.RX_QUAL_CNT (r : Nat) : RegId := 0x200302C + 0x1000000 * r
/-- RX_SIG_CNT (R183). -/
abbrev RADIO.RX_SIG_CNT (r : Nat) : RegId := 0x2003030 + 0x1000000 * r
/-- RX_RESTART_CNT (R183). -/
abbrev RADIO.RX_RESTART_CNT (r : Nat) : RegId := 0x2003034 + 0x1000000 * r
/-- RESTART_MISS_CNT (R183). -/
abbrev RADIO.RESTART_MISS_CNT (r : Nat) : RegId := 0x2003038 + 0x1000000 * r
/-- RX_ABORT_CNT (R183). -/
abbrev RADIO.RX_ABORT_CNT (r : Nat) : RegId := 0x200303C + 0x1000000 * r
/-- RX_DEC_CNT (R183). -/
abbrev RADIO.RX_DEC_CNT (r : Nat) : RegId := 0x2003040 + 0x1000000 * r
/-- RXS_DROP (R183). -/
abbrev RADIO.RXS_DROP (r : Nat) : RegId := 0x2003044 + 0x1000000 * r
/-- MAC_CTL (R212). -/
abbrev RADIO.MAC_CTL (r : Nat) : RegId := 0x2004000 + 0x1000000 * r
/-- MAC_SEED (R212). -/
abbrev RADIO.MAC_SEED (r : Nat) : RegId := 0x2004004 + 0x1000000 * r
/-- EDCA_AC0 (R212). -/
abbrev RADIO.EDCA_AC0 (r : Nat) : RegId := 0x2004008 + 0x1000000 * r
/-- EDCA_AC1 (R212). -/
abbrev RADIO.EDCA_AC1 (r : Nat) : RegId := 0x200400C + 0x1000000 * r
/-- EDCA_AC2 (R212). -/
abbrev RADIO.EDCA_AC2 (r : Nat) : RegId := 0x2004010 + 0x1000000 * r
/-- EDCA_AC3 (R212). -/
abbrev RADIO.EDCA_AC3 (r : Nat) : RegId := 0x2004014 + 0x1000000 * r
/-- MU_EDCA_AC (R212). -/
abbrev RADIO.MU_EDCA_AC (r : Nat) (i : Nat) : RegId := 0x2004018 + 0x1000000 * r + 4 * i
/-- NAV_STATUS (R212). -/
abbrev RADIO.NAV_STATUS (r : Nat) : RegId := 0x2004028 + 0x1000000 * r
/-- GRP_PEND (R212). -/
abbrev RADIO.GRP_PEND (r : Nat) : RegId := 0x200402C + 0x1000000 * r
/-- BSS_A (R212). -/
abbrev RADIO.BSS_A (r : Nat) (i : Nat) : RegId := 0x2004040 + 0x1000000 * r + 8 * i
/-- BSS_B (R212). -/
abbrev RADIO.BSS_B (r : Nat) (i : Nat) : RegId := 0x2004044 + 0x1000000 * r + 8 * i
/-- MAC_CAP (R212). -/
abbrev RADIO.MAC_CAP (r : Nat) : RegId := 0x20040C0 + 0x1000000 * r
/-- LAST_TA_LO (R212). -/
abbrev RADIO.LAST_TA_LO (r : Nat) : RegId := 0x20040C4 + 0x1000000 * r
/-- LAST_TA_HI (R212). -/
abbrev RADIO.LAST_TA_HI (r : Nat) : RegId := 0x20040C8 + 0x1000000 * r
/-- FILT_CNT (R212). -/
abbrev RADIO.FILT_CNT (r : Nat) : RegId := 0x20040CC + 0x1000000 * r
/-- ACC_CNT (R212). -/
abbrev RADIO.ACC_CNT (r : Nat) : RegId := 0x20040D0 + 0x1000000 * r
/-- SEC_CNT (R212). -/
abbrev RADIO.SEC_CNT (r : Nat) : RegId := 0x20040D4 + 0x1000000 * r
/-- TP_CTL (R286). -/
abbrev RADIO.TP_CTL (r : Nat) : RegId := 0x2005000 + 0x1000000 * r
/-- TP_LOAD_CTL (R286). -/
abbrev RADIO.TP_LOAD_CTL (r : Nat) : RegId := 0x2005004 + 0x1000000 * r
/-- TP_LOAD_CTL2 (R286). -/
abbrev RADIO.TP_LOAD_CTL2 (r : Nat) : RegId := 0x2005008 + 0x1000000 * r
/-- TP_STATUS (R286). -/
abbrev RADIO.TP_STATUS (r : Nat) : RegId := 0x200500C + 0x1000000 * r
/-- TP_PEER_RST (R286). -/
abbrev RADIO.TP_PEER_RST (r : Nat) : RegId := 0x2005010 + 0x1000000 * r
/-- TP_CNT (R286). -/
abbrev RADIO.TP_CNT (r : Nat) : RegId := 0x2005014 + 0x1000000 * r
/-- TP_PEER_CFG (R286). -/
abbrev RADIO.TP_PEER_CFG (r : Nat) (i : Nat) : RegId := 0x2005100 + 0x1000000 * r + 16 * i
/-- TP_PEER_STAT (R286). -/
abbrev RADIO.TP_PEER_STAT (r : Nat) (i : Nat) : RegId := 0x2005104 + 0x1000000 * r + 16 * i
/-- TP_PEER_SEQ (R286). -/
abbrev RADIO.TP_PEER_SEQ (r : Nat) (i : Nat) : RegId := 0x2005108 + 0x1000000 * r + 16 * i
/-- TP_PEER_CNT (R286). -/
abbrev RADIO.TP_PEER_CNT (r : Nat) (i : Nat) : RegId := 0x200510C + 0x1000000 * r + 16 * i

/-! Places of the registers of SENSE. -/

/-- SENSE_CTL (R139). -/
abbrev SENSE.SENSE_CTL : RegId := 0x6001000
/-- SENSE_STATUS (R139). -/
abbrev SENSE.SENSE_STATUS : RegId := 0x6001004
/-- RPT_BASE (R139). -/
abbrev SENSE.RPT_BASE : RegId := 0x6001008
/-- RPT_WR (R139). -/
abbrev SENSE.RPT_WR : RegId := 0x600100C
/-- RPT_RD (R139). -/
abbrev SENSE.RPT_RD : RegId := 0x6001010
/-- RPT_DROP (R139). -/
abbrev SENSE.RPT_DROP : RegId := 0x6001014
/-- SENSE_RUN (R139). -/
abbrev SENSE.SENSE_RUN : RegId := 0x6001018
/-- SCAN_A (R139). -/
abbrev SENSE.SCAN_A (i : Nat) : RegId := 0x6001100 + 8 * i
/-- SCAN_B (R139). -/
abbrev SENSE.SCAN_B (i : Nat) : RegId := 0x6001104 + 8 * i

/-! Places of the registers of MLINK. -/

/-- MLINK_RUN (R213). -/
abbrev MLINK.MLINK_RUN : RegId := 0x5001000
/-- LINK_CTL (R213). -/
abbrev MLINK.LINK_CTL : RegId := 0x5001004
/-- AID_ARG (R213). -/
abbrev MLINK.AID_ARG : RegId := 0x5001008
/-- AID_CMD (R213). -/
abbrev MLINK.AID_CMD : RegId := 0x500100C
/-- AID_RESULT (R213). -/
abbrev MLINK.AID_RESULT : RegId := 0x5001010
/-- AID_ACK (R213). -/
abbrev MLINK.AID_ACK : RegId := 0x5001014
/-- KEY_ARG (R213). -/
abbrev MLINK.KEY_ARG : RegId := 0x5001018
/-- KEY_CMD (R213). -/
abbrev MLINK.KEY_CMD : RegId := 0x500101C
/-- KEY_RESULT (R213). -/
abbrev MLINK.KEY_RESULT : RegId := 0x5001020
/-- KEY_ACK (R213). -/
abbrev MLINK.KEY_ACK : RegId := 0x5001024
/-- KEY_DATA (R213). -/
abbrev MLINK.KEY_DATA (i : Nat) : RegId := 0x5001028 + 4 * i
/-- REORDER_CTL (R213). -/
abbrev MLINK.REORDER_CTL : RegId := 0x5001048
/-- MRX_CTL (R213). -/
abbrev MLINK.MRX_CTL : RegId := 0x500104C
/-- MRX_WR (R213). -/
abbrev MLINK.MRX_WR : RegId := 0x5001050
/-- MRX_RD (R213). -/
abbrev MLINK.MRX_RD : RegId := 0x5001054
/-- MLINK_CNT (R213). -/
abbrev MLINK.MLINK_CNT : RegId := 0x5001058
/-- MLD_A (R213). -/
abbrev MLINK.MLD_A (i : Nat) : RegId := 0x5001080 + 8 * i
/-- MLD_B (R213). -/
abbrev MLINK.MLD_B (i : Nat) : RegId := 0x5001084 + 8 * i
/-- CTX_ARG (R240). -/
abbrev MLINK.CTX_ARG : RegId := 0x5002000
/-- CTX_CMD (R240). -/
abbrev MLINK.CTX_CMD : RegId := 0x5002004
/-- CTX_RESULT (R240). -/
abbrev MLINK.CTX_RESULT : RegId := 0x5002008
/-- CTX_ACK (R240). -/
abbrev MLINK.CTX_ACK : RegId := 0x500200C
/-- CTX_COUNT (R240). -/
abbrev MLINK.CTX_COUNT : RegId := 0x5002010
/-- SCHED_CTL (R240). -/
abbrev MLINK.SCHED_CTL : RegId := 0x5002014
/-- SCHED_LIM (R240). -/
abbrev MLINK.SCHED_LIM : RegId := 0x5002018
/-- SOUND_CTL (R240). -/
abbrev MLINK.SOUND_CTL : RegId := 0x500201C
/-- UL_CTL (R240). -/
abbrev MLINK.UL_CTL : RegId := 0x5002020
/-- STQ_DROP (R240). -/
abbrev MLINK.STQ_DROP : RegId := 0x5002024
/-- SCHED_CNT (R240). -/
abbrev MLINK.SCHED_CNT : RegId := 0x5002028
/-- SOUND_CNT (R240). -/
abbrev MLINK.SOUND_CNT : RegId := 0x500202C
/-- TRIG_CNT (R240). -/
abbrev MLINK.TRIG_CNT : RegId := 0x5002030
/-- TWT_W0 (R240). -/
abbrev MLINK.TWT_W0 (i : Nat) : RegId := 0x5002100 + 16 * i
/-- TWT_W1 (R240). -/
abbrev MLINK.TWT_W1 (i : Nat) : RegId := 0x5002104 + 16 * i
/-- TWT_W2 (R240). -/
abbrev MLINK.TWT_W2 (i : Nat) : RegId := 0x5002108 + 16 * i
/-- TWT_W3 (R240). -/
abbrev MLINK.TWT_W3 (i : Nat) : RegId := 0x500210C + 16 * i
/-- STEER_STAT (R240). -/
abbrev MLINK.STEER_STAT (i : Nat) (j : Nat) : RegId := 0x5002400 + 1024 * i + 4 * j
/-- STQ_ENQ (R240). -/
abbrev MLINK.STQ_ENQ (i : Nat) : RegId := 0x5100000 + 4 * i
/-- STQ_STAT (R240). -/
abbrev MLINK.STQ_STAT (i : Nat) : RegId := 0x5108000 + 4 * i

/-! Places of the registers of NEWT. -/

/-- NEWT_RUN (R262). -/
abbrev NEWT.NEWT_RUN : RegId := 0x7001000
/-- NEWT_CTL (R262). -/
abbrev NEWT.NEWT_CTL : RegId := 0x7001004
/-- NEWT_CSMA (R262). -/
abbrev NEWT.NEWT_CSMA : RegId := 0x7001008
/-- NEWT_SEED (R262). -/
abbrev NEWT.NEWT_SEED : RegId := 0x700100C
/-- NEWT_ADDR (R262). -/
abbrev NEWT.NEWT_ADDR : RegId := 0x7001010
/-- NEWT_EXT_LO (R262). -/
abbrev NEWT.NEWT_EXT_LO : RegId := 0x7001014
/-- NEWT_EXT_HI (R262). -/
abbrev NEWT.NEWT_EXT_HI : RegId := 0x7001018
/-- NEWT_FC (R262). -/
abbrev NEWT.NEWT_FC : RegId := 0x700101C
/-- COEX_CTL (R262). -/
abbrev NEWT.COEX_CTL : RegId := 0x7001020
/-- COEX_STATUS (R262). -/
abbrev NEWT.COEX_STATUS : RegId := 0x7001024
/-- NEWT_STATUS (R262). -/
abbrev NEWT.NEWT_STATUS : RegId := 0x7001028
/-- TX_ARG0 (R262). -/
abbrev NEWT.TX_ARG0 : RegId := 0x700102C
/-- TX_ARG1 (R262). -/
abbrev NEWT.TX_ARG1 : RegId := 0x7001030
/-- TX_CMD (R262). -/
abbrev NEWT.TX_CMD : RegId := 0x7001034
/-- TX_RESULT (R262). -/
abbrev NEWT.TX_RESULT : RegId := 0x7001038
/-- TX_TIME (R262). -/
abbrev NEWT.TX_TIME : RegId := 0x700103C
/-- TX_ACK (R262). -/
abbrev NEWT.TX_ACK : RegId := 0x7001040
/-- RXR_CTL (R262). -/
abbrev NEWT.RXR_CTL : RegId := 0x7001044
/-- RXR_WR (R262). -/
abbrev NEWT.RXR_WR : RegId := 0x7001048
/-- RXR_RD (R262). -/
abbrev NEWT.RXR_RD : RegId := 0x700104C
/-- CHILD_ARG (R262). -/
abbrev NEWT.CHILD_ARG : RegId := 0x7001050
/-- CHILD_EXT_LO (R262). -/
abbrev NEWT.CHILD_EXT_LO : RegId := 0x7001054
/-- CHILD_EXT_HI (R262). -/
abbrev NEWT.CHILD_EXT_HI : RegId := 0x7001058
/-- CHILD_CMD (R262). -/
abbrev NEWT.CHILD_CMD : RegId := 0x700105C
/-- CHILD_RESULT (R262). -/
abbrev NEWT.CHILD_RESULT : RegId := 0x7001060
/-- CHILD_ACK (R262). -/
abbrev NEWT.CHILD_ACK : RegId := 0x7001064
/-- PEND_SET (R262). -/
abbrev NEWT.PEND_SET : RegId := 0x7001068
/-- PEND_CLR (R262). -/
abbrev NEWT.PEND_CLR : RegId := 0x700106C
/-- NEWT_CNT0 (R262). -/
abbrev NEWT.NEWT_CNT0 : RegId := 0x7001070
/-- NEWT_CNT1 (R262). -/
abbrev NEWT.NEWT_CNT1 : RegId := 0x7001074
/-- NEWT_CNT2 (R262). -/
abbrev NEWT.NEWT_CNT2 : RegId := 0x7001078
/-- PEND_BITS (R262). -/
abbrev NEWT.PEND_BITS (i : Nat) : RegId := 0x7001080 + 4 * i
/-- EXT_PEND0 (R262). -/
abbrev NEWT.EXT_PEND0 : RegId := 0x70010C0
/-- EXT_PEND1 (R262). -/
abbrev NEWT.EXT_PEND1 : RegId := 0x70010C4
/-- KEY_DATA (R262). -/
abbrev NEWT.KEY_DATA (i : Nat) (j : Nat) : RegId := 0x7001200 + 32 * i + 4 * j
/-- KEY_CTL (R262). -/
abbrev NEWT.KEY_CTL (i : Nat) : RegId := 0x7001210 + 32 * i

/-! Places of the registers of CLASS. -/

/-- CLS_CTL (R370). -/
abbrev CLASS.CLS_CTL : RegId := 0x9001000
/-- CLS_EXC (R370). -/
abbrev CLASS.CLS_EXC : RegId := 0x9001004
/-- TUN_PORTS (R370). -/
abbrev CLASS.TUN_PORTS : RegId := 0x9001008
/-- GTPU_PORT (R370). -/
abbrev CLASS.GTPU_PORT : RegId := 0x900100C
/-- CT_BASE (R370). -/
abbrev CLASS.CT_BASE : RegId := 0x9001010
/-- LPM4_BASE (R370). -/
abbrev CLASS.LPM4_BASE : RegId := 0x9001014
/-- LPM6_BASE (R370). -/
abbrev CLASS.LPM6_BASE : RegId := 0x9001018
/-- CT_COUNT (R370). -/
abbrev CLASS.CT_COUNT : RegId := 0x900101C
/-- LPM4_COUNT (R370). -/
abbrev CLASS.LPM4_COUNT : RegId := 0x9001020
/-- LPM6_COUNT (R370). -/
abbrev CLASS.LPM6_COUNT : RegId := 0x9001024
/-- CLS_STATUS (R370). -/
abbrev CLASS.CLS_STATUS : RegId := 0x9001028
/-- CLS_FRAMES (R370). -/
abbrev CLASS.CLS_FRAMES : RegId := 0x900102C
/-- CLS_CNT1 (R370). -/
abbrev CLASS.CLS_CNT1 : RegId := 0x9001030
/-- CLS_CNT2 (R370). -/
abbrev CLASS.CLS_CNT2 : RegId := 0x9001034
/-- CLS_CNT3 (R370). -/
abbrev CLASS.CLS_CNT3 : RegId := 0x9001038
/-- CLS_INJ (R370). -/
abbrev CLASS.CLS_INJ : RegId := 0x900103C
/-- ING_CFG (R370). -/
abbrev CLASS.ING_CFG (i : Nat) : RegId := 0x9001040 + 4 * i
/-- STAGE_W0 (R370). -/
abbrev CLASS.STAGE_W0 (i : Nat) : RegId := 0x9001100 + 16 * i
/-- STAGE_W1 (R370). -/
abbrev CLASS.STAGE_W1 (i : Nat) : RegId := 0x9001104 + 16 * i
/-- STAGE_W2 (R370). -/
abbrev CLASS.STAGE_W2 (i : Nat) : RegId := 0x9001108 + 16 * i
/-- STAGE_W3 (R370). -/
abbrev CLASS.STAGE_W3 (i : Nat) : RegId := 0x900110C + 16 * i
/-- STAGE_HIT (R370). -/
abbrev CLASS.STAGE_HIT (i : Nat) : RegId := 0x9001180 + 8 * i
/-- STAGE_MISS (R370). -/
abbrev CLASS.STAGE_MISS (i : Nat) : RegId := 0x9001184 + 8 * i
/-- EM_TBL_W0 (R370). -/
abbrev CLASS.EM_TBL_W0 (i : Nat) : RegId := 0x9001200 + 16 * i
/-- EM_TBL_W1 (R370). -/
abbrev CLASS.EM_TBL_W1 (i : Nat) : RegId := 0x9001204 + 16 * i
/-- EM_TBL_W2 (R370). -/
abbrev CLASS.EM_TBL_W2 (i : Nat) : RegId := 0x9001208 + 16 * i
/-- EM_TBL_W3 (R370). -/
abbrev CLASS.EM_TBL_W3 (i : Nat) : RegId := 0x900120C + 16 * i
/-- KEY_TPL (R370). -/
abbrev CLASS.KEY_TPL (i : Nat) (j : Nat) : RegId := 0x9001400 + 32 * i + 4 * j
/-- TCMD_ARG (R370). -/
abbrev CLASS.TCMD_ARG (i : Nat) (j : Nat) : RegId := 0x9002000 + 32 * i + 4 * j
/-- TCMD_CMD (R370). -/
abbrev CLASS.TCMD_CMD (i : Nat) : RegId := 0x9002014 + 32 * i
/-- TCMD_RES (R370). -/
abbrev CLASS.TCMD_RES (i : Nat) : RegId := 0x9002018 + 32 * i
/-- TCMD_ACK (R370). -/
abbrev CLASS.TCMD_ACK (i : Nat) : RegId := 0x900201C + 32 * i
/-- ACTION (R370). -/
abbrev CLASS.ACTION (i : Nat) (j : Nat) : RegId := 0x9004000 + 16 * i + 4 * j
/-- FAB_CTL (R304). -/
abbrev CLASS.FAB_CTL : RegId := 0x9008000
/-- FAB_BCN (R304). -/
abbrev CLASS.FAB_BCN : RegId := 0x9008004
/-- FAB_BCN_DESC (R304). -/
abbrev CLASS.FAB_BCN_DESC : RegId := 0x9008008
/-- FAB_ENQ (R304). -/
abbrev CLASS.FAB_ENQ : RegId := 0x900800C
/-- FAB_RING (R304). -/
abbrev CLASS.FAB_RING : RegId := 0x9008010
/-- FAB_RING_WR (R304). -/
abbrev CLASS.FAB_RING_WR : RegId := 0x9008014
/-- FAB_RING_RD (R304). -/
abbrev CLASS.FAB_RING_RD : RegId := 0x9008018
/-- FAB_SCHED (R304). -/
abbrev CLASS.FAB_SCHED : RegId := 0x900801C
/-- FAB_SW_EPOCH (R304). -/
abbrev CLASS.FAB_SW_EPOCH : RegId := 0x9008020
/-- FAB_EPOCH (R304). -/
abbrev CLASS.FAB_EPOCH : RegId := 0x9008024
/-- FWD_ARG0 (R304). -/
abbrev CLASS.FWD_ARG0 : RegId := 0x9008028
/-- FWD_ARG1 (R304). -/
abbrev CLASS.FWD_ARG1 : RegId := 0x900802C
/-- FWD_CMD (R304). -/
abbrev CLASS.FWD_CMD : RegId := 0x9008030
/-- FWD_RESULT (R304). -/
abbrev CLASS.FWD_RESULT : RegId := 0x9008034
/-- FWD_ACK (R304). -/
abbrev CLASS.FWD_ACK : RegId := 0x9008038
/-- FWD_COUNT (R304). -/
abbrev CLASS.FWD_COUNT : RegId := 0x900803C
/-- FAB_CNT0 (R304). -/
abbrev CLASS.FAB_CNT0 : RegId := 0x9008040
/-- FAB_CNT1 (R304). -/
abbrev CLASS.FAB_CNT1 : RegId := 0x9008044
/-- FAB_CNT2 (R304). -/
abbrev CLASS.FAB_CNT2 : RegId := 0x9008048
/-- NH_W0 (R304). -/
abbrev CLASS.NH_W0 (i : Nat) : RegId := 0x9008100 + 16 * i
/-- NH_W1 (R304). -/
abbrev CLASS.NH_W1 (i : Nat) : RegId := 0x9008104 + 16 * i
/-- NH_W2 (R304). -/
abbrev CLASS.NH_W2 (i : Nat) : RegId := 0x9008108 + 16 * i
/-- NH_W3 (R304). -/
abbrev CLASS.NH_W3 (i : Nat) : RegId := 0x900810C + 16 * i
/-- SLOT_CUR (R304). -/
abbrev CLASS.SLOT_CUR (i : Nat) : RegId := 0x9008600 + 4 * i
/-- SLOT_NEXT (R304). -/
abbrev CLASS.SLOT_NEXT (i : Nat) : RegId := 0x9008640 + 4 * i
/-- DOZE_W0 (R304). -/
abbrev CLASS.DOZE_W0 (i : Nat) : RegId := 0x9008700 + 16 * i
/-- DOZE_W1 (R304). -/
abbrev CLASS.DOZE_W1 (i : Nat) : RegId := 0x9008704 + 16 * i
/-- DOZE_W2 (R304). -/
abbrev CLASS.DOZE_W2 (i : Nat) : RegId := 0x9008708 + 16 * i
/-- DOZE_W3 (R304). -/
abbrev CLASS.DOZE_W3 (i : Nat) : RegId := 0x900870C + 16 * i
/-- FWD_W0 (R304). -/
abbrev CLASS.FWD_W0 (i : Nat) : RegId := 0x9009000 + 8 * i
/-- FWD_W1 (R304). -/
abbrev CLASS.FWD_W1 (i : Nat) : RegId := 0x9009004 + 8 * i

/-! Places of the registers of STORE. -/

/-- STORE_CTL (R324). -/
abbrev STORE.STORE_CTL : RegId := 0x8001000
/-- POOL_CMD (R324). -/
abbrev STORE.POOL_CMD : RegId := 0x8001004
/-- POOL_RESULT (R324). -/
abbrev STORE.POOL_RESULT : RegId := 0x8001008
/-- POOL_ACK (R324). -/
abbrev STORE.POOL_ACK : RegId := 0x800100C
/-- FREE_DESC (R324). -/
abbrev STORE.FREE_DESC : RegId := 0x8001010
/-- FREE_BLK (R324). -/
abbrev STORE.FREE_BLK : RegId := 0x8001014
/-- SCRUB_CTL (R324). -/
abbrev STORE.SCRUB_CTL : RegId := 0x8001018
/-- SCRUB_STATUS (R324). -/
abbrev STORE.SCRUB_STATUS : RegId := 0x800101C
/-- ERR_SEQ (R324). -/
abbrev STORE.ERR_SEQ : RegId := 0x8001020
/-- STORE_CNT0 (R324). -/
abbrev STORE.STORE_CNT0 : RegId := 0x8001024
/-- STORE_CNT1 (R324). -/
abbrev STORE.STORE_CNT1 : RegId := 0x8001028
/-- PORT_POOL (R324). -/
abbrev STORE.PORT_POOL (i : Nat) : RegId := 0x8001080 + 4 * i
/-- POOL_W0 (R324). -/
abbrev STORE.POOL_W0 (i : Nat) : RegId := 0x8001100 + 16 * i
/-- POOL_W1 (R324). -/
abbrev STORE.POOL_W1 (i : Nat) : RegId := 0x8001104 + 16 * i
/-- POOL_W2 (R324). -/
abbrev STORE.POOL_W2 (i : Nat) : RegId := 0x8001108 + 16 * i
/-- POOL_W3 (R324). -/
abbrev STORE.POOL_W3 (i : Nat) : RegId := 0x800110C + 16 * i
/-- ERR_LOG_W0 (R324). -/
abbrev STORE.ERR_LOG_W0 (i : Nat) : RegId := 0x8001500 + 8 * i
/-- ERR_LOG_W1 (R324). -/
abbrev STORE.ERR_LOG_W1 (i : Nat) : RegId := 0x8001504 + 8 * i
/-- MB_REQ (R324). -/
abbrev STORE.MB_REQ (i : Nat) : RegId := 0x8002000 + 16 * i
/-- MB_RES (R324). -/
abbrev STORE.MB_RES (i : Nat) : RegId := 0x8002004 + 16 * i
/-- MB_ACK (R324). -/
abbrev STORE.MB_ACK (i : Nat) : RegId := 0x8002008 + 16 * i
/-- DRAM_CTL (R344). -/
abbrev STORE.DRAM_CTL : RegId := 0x8004000
/-- NR_CTL (R344). -/
abbrev STORE.NR_CTL : RegId := 0x8004004
/-- RETRAIN_CTL (R344). -/
abbrev STORE.RETRAIN_CTL : RegId := 0x8004008
/-- MAP_STATUS (R344). -/
abbrev STORE.MAP_STATUS : RegId := 0x800400C
/-- MAP_MASK0 (R344). -/
abbrev STORE.MAP_MASK0 : RegId := 0x8004010
/-- MAP_MASK1 (R344). -/
abbrev STORE.MAP_MASK1 : RegId := 0x8004014
/-- MAP_MASK2 (R344). -/
abbrev STORE.MAP_MASK2 : RegId := 0x8004018
/-- MAP_MASK3 (R344). -/
abbrev STORE.MAP_MASK3 : RegId := 0x800401C
/-- MAP_MASK4 (R344). -/
abbrev STORE.MAP_MASK4 : RegId := 0x8004020
/-- MAP_MASK5 (R344). -/
abbrev STORE.MAP_MASK5 : RegId := 0x8004024
/-- MAP_MASK6 (R344). -/
abbrev STORE.MAP_MASK6 : RegId := 0x8004028
/-- REPAIR_ARG (R344). -/
abbrev STORE.REPAIR_ARG : RegId := 0x800402C
/-- REPAIR_CMD (R344). -/
abbrev STORE.REPAIR_CMD : RegId := 0x8004030
/-- REPAIR_RESULT (R344). -/
abbrev STORE.REPAIR_RESULT : RegId := 0x8004034
/-- REPAIR_ACK (R344). -/
abbrev STORE.REPAIR_ACK : RegId := 0x8004038
/-- REPAIR_STATUS (R344). -/
abbrev STORE.REPAIR_STATUS : RegId := 0x800403C
/-- DRAM_CNT0 (R344). -/
abbrev STORE.DRAM_CNT0 : RegId := 0x8004040
/-- DRAM_CNT1 (R344). -/
abbrev STORE.DRAM_CNT1 : RegId := 0x8004044
/-- DRAM_CNT2 (R344). -/
abbrev STORE.DRAM_CNT2 : RegId := 0x8004048
/-- PORT_LAT (R344). -/
abbrev STORE.PORT_LAT (i : Nat) : RegId := 0x8004080 + 4 * i
/-- CH_STAT (R344). -/
abbrev STORE.CH_STAT (i : Nat) : RegId := 0x8004100 + 4 * i
/-- PORT_STAT (R344). -/
abbrev STORE.PORT_STAT (i : Nat) : RegId := 0x8004200 + 4 * i

/-! Places of the registers of SCHED. -/

/-- SCHED_CTL (R396). -/
abbrev SCHED.SCHED_CTL : RegId := 0xA001000
/-- SCHED_OVF (R396). -/
abbrev SCHED.SCHED_OVF : RegId := 0xA001004
/-- SCHED_STATUS (R396). -/
abbrev SCHED.SCHED_STATUS : RegId := 0xA001008
/-- ENG_EN (R396). -/
abbrev SCHED.ENG_EN : RegId := 0xA00100C
/-- TRC_CTL (R396). -/
abbrev SCHED.TRC_CTL : RegId := 0xA001010
/-- TRC_BASE (R396). -/
abbrev SCHED.TRC_BASE : RegId := 0xA001014
/-- TRC_WR (R396). -/
abbrev SCHED.TRC_WR : RegId := 0xA001018
/-- TRC_RD (R396). -/
abbrev SCHED.TRC_RD : RegId := 0xA00101C
/-- SCHED_CNT0 (R396). -/
abbrev SCHED.SCHED_CNT0 : RegId := 0xA001020
/-- SCHED_CNT1 (R396). -/
abbrev SCHED.SCHED_CNT1 : RegId := 0xA001024
/-- SCHED_CNT2 (R396). -/
abbrev SCHED.SCHED_CNT2 : RegId := 0xA001028
/-- SCHED_CNT3 (R396). -/
abbrev SCHED.SCHED_CNT3 : RegId := 0xA00102C
/-- HIST (R396). -/
abbrev SCHED.HIST (i : Nat) : RegId := 0xA001030 + 4 * i
/-- GROUP_MASK (R396). -/
abbrev SCHED.GROUP_MASK (i : Nat) : RegId := 0xA001080 + 4 * i
/-- ENG_LOAD (R396). -/
abbrev SCHED.ENG_LOAD (i : Nat) : RegId := 0xA001100 + 4 * i
/-- LIST_CFG (R396). -/
abbrev SCHED.LIST_CFG (i : Nat) : RegId := 0xA002000 + 4 * i
/-- LIST_STAT (R396). -/
abbrev SCHED.LIST_STAT (i : Nat) : RegId := 0xA003000 + 4 * i
/-- DOM_STAT (R396). -/
abbrev SCHED.DOM_STAT (i : Nat) : RegId := 0xA004000 + 4 * i
/-- AFF (R396). -/
abbrev SCHED.AFF (i : Nat) : RegId := 0xA008000 + 4 * i

/-! Places of the registers of ENG. -/

/-- ENG_RUN (R397). -/
abbrev ENG.ENG_RUN (c : Nat) : RegId := 0xB001000 + 0x1000000 * c
/-- ENG_STOPPED (R397). -/
abbrev ENG.ENG_STOPPED (c : Nat) : RegId := 0xB001004 + 0x1000000 * c
/-- ENG_CLK (R397). -/
abbrev ENG.ENG_CLK (c : Nat) : RegId := 0xB001008 + 0x1000000 * c
/-- ENG_MAP (R397). -/
abbrev ENG.ENG_MAP (c : Nat) : RegId := 0xB00100C + 0x1000000 * c
/-- ENG_CTL (R397). -/
abbrev ENG.ENG_CTL (c : Nat) : RegId := 0xB001010 + 0x1000000 * c
/-- SUBST_CMD (R397). -/
abbrev ENG.SUBST_CMD (c : Nat) : RegId := 0xB001014 + 0x1000000 * c
/-- SUBST_RESULT (R397). -/
abbrev ENG.SUBST_RESULT (c : Nat) : RegId := 0xB001018 + 0x1000000 * c
/-- SUBST_ACK (R397). -/
abbrev ENG.SUBST_ACK (c : Nat) : RegId := 0xB00101C + 0x1000000 * c
/-- ENG_CNT (R397). -/
abbrev ENG.ENG_CNT (c : Nat) : RegId := 0xB001020 + 0x1000000 * c
/-- ENG_BUSY (R397). -/
abbrev ENG.ENG_BUSY (c : Nat) (i : Nat) : RegId := 0xB001040 + 0x1000000 * c + 4 * i

/-! Places of the registers of CIPHER. -/

/-- CIPHER_CTL (R409). -/
abbrev CIPHER.CIPHER_CTL : RegId := 0xF001000
/-- SESS_ARG (R409). -/
abbrev CIPHER.SESS_ARG : RegId := 0xF001004
/-- SESS_SALT (R409). -/
abbrev CIPHER.SESS_SALT : RegId := 0xF001008
/-- SESS_CMD (R409). -/
abbrev CIPHER.SESS_CMD : RegId := 0xF00100C
/-- SESS_RESULT (R409). -/
abbrev CIPHER.SESS_RESULT : RegId := 0xF001010
/-- SESS_ACK (R409). -/
abbrev CIPHER.SESS_ACK : RegId := 0xF001014
/-- CIPHER_STATUS (R409). -/
abbrev CIPHER.CIPHER_STATUS : RegId := 0xF001018
/-- CIPHER_CNT0 (R409). -/
abbrev CIPHER.CIPHER_CNT0 : RegId := 0xF00101C
/-- CIPHER_CNT1 (R409). -/
abbrev CIPHER.CIPHER_CNT1 : RegId := 0xF001020
/-- SESS_KEY (R409). -/
abbrev CIPHER.SESS_KEY (i : Nat) : RegId := 0xF001040 + 4 * i
/-- QUEUE_CFG (R409). -/
abbrev CIPHER.QUEUE_CFG (i : Nat) : RegId := 0xF001400 + 4 * i

/-! Places of the registers of TIME. -/

/-- MS_CMD (R432). -/
abbrev TIME.MS_CMD : RegId := 0x1001000
/-- MS_ARG_LO (R432). -/
abbrev TIME.MS_ARG_LO : RegId := 0x1001004
/-- MS_ARG_HI (R432). -/
abbrev TIME.MS_ARG_HI : RegId := 0x1001008
/-- MS_RESULT (R432). -/
abbrev TIME.MS_RESULT : RegId := 0x100100C
/-- MS_ACK (R432). -/
abbrev TIME.MS_ACK : RegId := 0x1001010
/-- MS_ADJ (R432). -/
abbrev TIME.MS_ADJ : RegId := 0x1001014
/-- SERVO_CTL (R432). -/
abbrev TIME.SERVO_CTL : RegId := 0x1001018
/-- SERVO_HOLD (R432). -/
abbrev TIME.SERVO_HOLD : RegId := 0x100101C
/-- SERVO_IN (R432). -/
abbrev TIME.SERVO_IN : RegId := 0x1001020
/-- SERVO_STATUS (R432). -/
abbrev TIME.SERVO_STATUS : RegId := 0x1001024
/-- SERVO_LAST (R432). -/
abbrev TIME.SERVO_LAST : RegId := 0x1001028
/-- TIME_PARENT (R432). -/
abbrev TIME.TIME_PARENT : RegId := 0x100102C
/-- PPS_CTL (R432). -/
abbrev TIME.PPS_CTL : RegId := 0x1001030
/-- PPS_OUT_OFS (R432). -/
abbrev TIME.PPS_OUT_OFS : RegId := 0x1001034
/-- PPS_IN_DELAY (R432). -/
abbrev TIME.PPS_IN_DELAY : RegId := 0x1001038
/-- PPS_IN_STAT (R432). -/
abbrev TIME.PPS_IN_STAT : RegId := 0x100103C
/-- PPS_IN_LO (R432). -/
abbrev TIME.PPS_IN_LO : RegId := 0x1001040
/-- PPS_IN_HI (R432). -/
abbrev TIME.PPS_IN_HI : RegId := 0x1001044
/-- PPS_IN_ACK (R432). -/
abbrev TIME.PPS_IN_ACK : RegId := 0x1001048
/-- TC_CTL (R432). -/
abbrev TIME.TC_CTL : RegId := 0x100104C
/-- TC_CNT (R432). -/
abbrev TIME.TC_CNT : RegId := 0x1001050
/-- TSF_OFS_LO (R432). -/
abbrev TIME.TSF_OFS_LO (i : Nat) : RegId := 0x1001060 + 8 * i
/-- TSF_OFS_HI (R432). -/
abbrev TIME.TSF_OFS_HI (i : Nat) : RegId := 0x1001064 + 8 * i
/-- WIRE_DELAY (R432). -/
abbrev TIME.WIRE_DELAY (i : Nat) : RegId := 0x1001080 + 4 * i
/-- SNAP_W0 (R432). -/
abbrev TIME.SNAP_W0 (i : Nat) : RegId := 0x1001100 + 32 * i
/-- SNAP_W1 (R432). -/
abbrev TIME.SNAP_W1 (i : Nat) : RegId := 0x1001104 + 32 * i
/-- SNAP_W2 (R432). -/
abbrev TIME.SNAP_W2 (i : Nat) : RegId := 0x1001108 + 32 * i
/-- SNAP_W3 (R432). -/
abbrev TIME.SNAP_W3 (i : Nat) : RegId := 0x100110C + 32 * i
/-- SNAP_W4 (R432). -/
abbrev TIME.SNAP_W4 (i : Nat) : RegId := 0x1001110 + 32 * i
/-- SNAP_W5 (R432). -/
abbrev TIME.SNAP_W5 (i : Nat) : RegId := 0x1001114 + 32 * i
/-- SNAP_W6 (R432). -/
abbrev TIME.SNAP_W6 (i : Nat) : RegId := 0x1001118 + 32 * i
/-- SNAP_W7 (R432). -/
abbrev TIME.SNAP_W7 (i : Nat) : RegId := 0x100111C + 32 * i
/-- FTM_W0 (R432). -/
abbrev TIME.FTM_W0 (i : Nat) : RegId := 0x1001200 + 32 * i
/-- FTM_W1 (R432). -/
abbrev TIME.FTM_W1 (i : Nat) : RegId := 0x1001204 + 32 * i
/-- FTM_W2 (R432). -/
abbrev TIME.FTM_W2 (i : Nat) : RegId := 0x1001208 + 32 * i
/-- FTM_W3 (R432). -/
abbrev TIME.FTM_W3 (i : Nat) : RegId := 0x100120C + 32 * i
/-- FTM_W4 (R432). -/
abbrev TIME.FTM_W4 (i : Nat) : RegId := 0x1001210 + 32 * i
/-- FTM_W5 (R432). -/
abbrev TIME.FTM_W5 (i : Nat) : RegId := 0x1001214 + 32 * i
/-- FTM_W6 (R432). -/
abbrev TIME.FTM_W6 (i : Nat) : RegId := 0x1001218 + 32 * i
/-- FTM_W7 (R432). -/
abbrev TIME.FTM_W7 (i : Nat) : RegId := 0x100121C + 32 * i

/-! Places of the registers of HOST. -/

/-- HOST_CTL (R448). -/
abbrev HOST.HOST_CTL : RegId := 0x10001000
/-- HOST_STATUS (R448). -/
abbrev HOST.HOST_STATUS : RegId := 0x10001004
/-- BAR2_BASE (R448). -/
abbrev HOST.BAR2_BASE : RegId := 0x10001008
/-- HOST_CNT0 (R448). -/
abbrev HOST.HOST_CNT0 : RegId := 0x1000100C
/-- HOST_CNT1 (R448). -/
abbrev HOST.HOST_CNT1 : RegId := 0x10001010
/-- MBX_W0 (R448). -/
abbrev HOST.MBX_W0 (i : Nat) : RegId := 0x10001100 + 32 * i
/-- MBX_W1 (R448). -/
abbrev HOST.MBX_W1 (i : Nat) : RegId := 0x10001104 + 32 * i
/-- MBX_W2 (R448). -/
abbrev HOST.MBX_W2 (i : Nat) : RegId := 0x10001108 + 32 * i
/-- MBX_W3 (R448). -/
abbrev HOST.MBX_W3 (i : Nat) : RegId := 0x1000110C + 32 * i
/-- MBX_W4 (R448). -/
abbrev HOST.MBX_W4 (i : Nat) : RegId := 0x10001110 + 32 * i
/-- MBX_W5 (R448). -/
abbrev HOST.MBX_W5 (i : Nat) : RegId := 0x10001114 + 32 * i
/-- MBX_W6 (R448). -/
abbrev HOST.MBX_W6 (i : Nat) : RegId := 0x10001118 + 32 * i
/-- MBX_W7 (R448). -/
abbrev HOST.MBX_W7 (i : Nat) : RegId := 0x1000111C + 32 * i
/-- RING_W0 (R448). -/
abbrev HOST.RING_W0 (i : Nat) : RegId := 0x10002000 + 32 * i
/-- RING_W1 (R448). -/
abbrev HOST.RING_W1 (i : Nat) : RegId := 0x10002004 + 32 * i
/-- RING_W2 (R448). -/
abbrev HOST.RING_W2 (i : Nat) : RegId := 0x10002008 + 32 * i
/-- RING_W3 (R448). -/
abbrev HOST.RING_W3 (i : Nat) : RegId := 0x1000200C + 32 * i
/-- RING_W4 (R448). -/
abbrev HOST.RING_W4 (i : Nat) : RegId := 0x10002010 + 32 * i
/-- RING_W5 (R448). -/
abbrev HOST.RING_W5 (i : Nat) : RegId := 0x10002014 + 32 * i
/-- RING_W6 (R448). -/
abbrev HOST.RING_W6 (i : Nat) : RegId := 0x10002018 + 32 * i
/-- RING_W7 (R448). -/
abbrev HOST.RING_W7 (i : Nat) : RegId := 0x1000201C + 32 * i

/-! Places of the registers of WIRE. -/

/-- LANE_CTL (R457). -/
abbrev WIRE.LANE_CTL (i : Nat) : RegId := 0x11001000 + 64 * i
/-- LANE_STATUS (R457). -/
abbrev WIRE.LANE_STATUS (i : Nat) : RegId := 0x11001004 + 64 * i
/-- LANE_MAC_LO (R457). -/
abbrev WIRE.LANE_MAC_LO (i : Nat) : RegId := 0x11001008 + 64 * i
/-- LANE_MAC_HI (R457). -/
abbrev WIRE.LANE_MAC_HI (i : Nat) : RegId := 0x1100100C + 64 * i
/-- LANE_LP (R457). -/
abbrev WIRE.LANE_LP (i : Nat) : RegId := 0x11001010 + 64 * i
/-- LANE_PAUSE (R457). -/
abbrev WIRE.LANE_PAUSE (i : Nat) : RegId := 0x11001014 + 64 * i
/-- LANE_RX_CNT (R457). -/
abbrev WIRE.LANE_RX_CNT (i : Nat) : RegId := 0x11001018 + 64 * i
/-- LANE_TX_CNT (R457). -/
abbrev WIRE.LANE_TX_CNT (i : Nat) : RegId := 0x1100101C + 64 * i
/-- LANE_ERR_CNT (R457). -/
abbrev WIRE.LANE_ERR_CNT (i : Nat) : RegId := 0x11001020 + 64 * i
/-- LANE_DROP_CNT (R457). -/
abbrev WIRE.LANE_DROP_CNT (i : Nat) : RegId := 0x11001024 + 64 * i
/-- MDIO_CTL (R457). -/
abbrev WIRE.MDIO_CTL : RegId := 0x11001100
/-- MDIO_ARG (R457). -/
abbrev WIRE.MDIO_ARG : RegId := 0x11001104
/-- MDIO_CMD (R457). -/
abbrev WIRE.MDIO_CMD : RegId := 0x11001108
/-- MDIO_RESULT (R457). -/
abbrev WIRE.MDIO_RESULT : RegId := 0x1100110C
/-- MDIO_ACK (R457). -/
abbrev WIRE.MDIO_ACK : RegId := 0x11001110
/-- PHY_POLL (R457). -/
abbrev WIRE.PHY_POLL (i : Nat) : RegId := 0x11001120 + 4 * i

/-! Places of the registers of MGMT. -/

/-- BOOT_STATUS (R473). -/
abbrev MGMT.BOOT_STATUS : RegId := 0x1000
/-- DEV_ID_LO (R473). -/
abbrev MGMT.DEV_ID_LO : RegId := 0x1004
/-- DEV_ID_HI (R473). -/
abbrev MGMT.DEV_ID_HI : RegId := 0x1008
/-- TRIAL (R473). -/
abbrev MGMT.TRIAL : RegId := 0x100C
/-- THERM_THR (R473). -/
abbrev MGMT.THERM_THR : RegId := 0x1010
/-- THERM_LIM (R473). -/
abbrev MGMT.THERM_LIM : RegId := 0x1014
/-- THERM_STATUS (R473). -/
abbrev MGMT.THERM_STATUS : RegId := 0x1018
/-- MAINT_CTL (R473). -/
abbrev MGMT.MAINT_CTL : RegId := 0x101C
/-- AX_CTL (R473). -/
abbrev MGMT.AX_CTL : RegId := 0x1020
/-- AX_STATUS (R473). -/
abbrev MGMT.AX_STATUS : RegId := 0x1024
/-- LOG_WR (R473). -/
abbrev MGMT.LOG_WR : RegId := 0x1028
/-- LOG_PERS (R473). -/
abbrev MGMT.LOG_PERS : RegId := 0x102C
/-- LOG_PUT (R473). -/
abbrev MGMT.LOG_PUT : RegId := 0x1030
/-- LOG_CNT (R473). -/
abbrev MGMT.LOG_CNT : RegId := 0x1034
/-- TEMP (R473). -/
abbrev MGMT.TEMP (i : Nat) : RegId := 0x1040 + 4 * i
/-- VMON (R473). -/
abbrev MGMT.VMON (i : Nat) : RegId := 0x1080 + 4 * i
/-- VMON_LIM (R473). -/
abbrev MGMT.VMON_LIM (i : Nat) : RegId := 0x10C0 + 4 * i
/-- RO_MON (R473). -/
abbrev MGMT.RO_MON (i : Nat) : RegId := 0x1100 + 4 * i
/-- WDT_CTL (R473). -/
abbrev MGMT.WDT_CTL (i : Nat) : RegId := 0x1200 + 16 * i
/-- WDT_KICK (R473). -/
abbrev MGMT.WDT_KICK (i : Nat) : RegId := 0x1204 + 16 * i
/-- WDT_STATUS (R473). -/
abbrev MGMT.WDT_STATUS (i : Nat) : RegId := 0x1208 + 16 * i
/-- MT_REQ (R473). -/
abbrev MGMT.MT_REQ (i : Nat) : RegId := 0x1300 + 16 * i
/-- MT_RES (R473). -/
abbrev MGMT.MT_RES (i : Nat) : RegId := 0x1304 + 16 * i
/-- MT_ACK (R473). -/
abbrev MGMT.MT_ACK (i : Nat) : RegId := 0x1308 + 16 * i
/-- MT_HELD (R473). -/
abbrev MGMT.MT_HELD (i : Nat) : RegId := 0x1400 + 4 * i
/-- AVS_CTL (R486). -/
abbrev MGMT.AVS_CTL : RegId := 0x2000
/-- AVS_TARGET (R486). -/
abbrev MGMT.AVS_TARGET : RegId := 0x2004
/-- AVS_RESULT (R486). -/
abbrev MGMT.AVS_RESULT : RegId := 0x2008
/-- AVS_ACK (R486). -/
abbrev MGMT.AVS_ACK : RegId := 0x200C
/-- AVS_FUSE (R486). -/
abbrev MGMT.AVS_FUSE : RegId := 0x2010
/-- DEV_RST (R486). -/
abbrev MGMT.DEV_RST : RegId := 0x2014
/-- GPIO_OUT (R486). -/
abbrev MGMT.GPIO_OUT : RegId := 0x2020
/-- GPIO_OE (R486). -/
abbrev MGMT.GPIO_OE : RegId := 0x2024
/-- GPIO_IN (R486). -/
abbrev MGMT.GPIO_IN : RegId := 0x2028
/-- GPIO_PD (R486). -/
abbrev MGMT.GPIO_PD : RegId := 0x202C

/-! Places of the registers of PRIV. -/

/-- OTP_PROG (R473). -/
abbrev PRIV.OTP_PROG : RegId := 0x100001000
/-- CR_SRC_LO (R473). -/
abbrev PRIV.CR_SRC_LO : RegId := 0x100020000
/-- CR_SRC_HI (R473). -/
abbrev PRIV.CR_SRC_HI : RegId := 0x100020004
/-- CR_LEN (R473). -/
abbrev PRIV.CR_LEN : RegId := 0x100020008
/-- CR_KEY (R473). -/
abbrev PRIV.CR_KEY : RegId := 0x10002000C
/-- CR_SIG (R473). -/
abbrev PRIV.CR_SIG : RegId := 0x100020010
/-- CR_CMD (R473). -/
abbrev PRIV.CR_CMD : RegId := 0x100020014
/-- CR_RES (R473). -/
abbrev PRIV.CR_RES : RegId := 0x100020018
/-- CR_ACK (R473). -/
abbrev PRIV.CR_ACK : RegId := 0x10002001C
/-- CR_DIGEST (R473). -/
abbrev PRIV.CR_DIGEST (i : Nat) : RegId := 0x100020020 + 4 * i
/-- FL_CMD (R473). -/
abbrev PRIV.FL_CMD : RegId := 0x100030000
/-- FL_ADDR (R473). -/
abbrev PRIV.FL_ADDR : RegId := 0x100030004
/-- FL_LEN (R473). -/
abbrev PRIV.FL_LEN : RegId := 0x100030008
/-- FL_BUF (R473). -/
abbrev PRIV.FL_BUF : RegId := 0x10003000C
/-- FL_RES (R473). -/
abbrev PRIV.FL_RES : RegId := 0x100030010
/-- FL_ACK (R473). -/
abbrev PRIV.FL_ACK : RegId := 0x100030014

end Reg

end Sys2Proof
end

