-- ==== Sys2Proof/Machine/Tbl.lean ====
section
/-! DEFINITION. Sparse tables: a list of (key, value) pairs with keys strictly rising and no entry equal to what an
unlisted key reads as. Memory, the register file and every array of the state are such tables. -/

namespace Sys2Proof.Machine

/-- A sparse table from natural numbers. What an unlisted key reads as is given to each operation. -/
abbrev Tbl (α : Type) := List (Nat × α)

/-- The entry of a key, `d` of the key where it is unlisted. -/
def tget {α : Type} (d : Nat → α) : Tbl α → Nat → α
  | [], k => d k
  | (j, v) :: m, k => if k = j then v else tget d m k

/-- The table without a key. -/
def terase {α : Type} (m : Tbl α) (k : Nat) : Tbl α := m.filter fun p => p.1 != k

/-- The table with an entry put before the first greater key. -/
def tinsert {α : Type} : Tbl α → Nat → α → Tbl α
  | [], k, v => [(k, v)]
  | (j, w) :: m, k, v => if k < j then (k, v) :: (j, w) :: m else (j, w) :: tinsert m k v

/-- Write one key, keeping the canonical form. -/
def tput {α : Type} [DecidableEq α] (d : Nat → α) (m : Tbl α) (k : Nat) (v : α) : Tbl α :=
  if v = d k then terase m k else tinsert (terase m k) k v

/-- Keys strictly rising from `lo`, no entry equal to its unlisted reading. -/
def twf {α : Type} [DecidableEq α] (d : Nat → α) : Nat → Tbl α → Bool
  | _, [] => true
  | lo, (k, v) :: m => decide (lo ≤ k) && decide (v ≠ d k) && twf d (k + 1) m

/-- Unlist every key of a range, which then reads as unwritten. -/
def tclear {α : Type} (m : Tbl α) (lo n : Nat) : Tbl α :=
  m.filter fun p => !(decide (lo ≤ p.1) && decide (p.1 < lo + n))

end Sys2Proof.Machine
end

