-- ==== Sys2Proof/Machine/State.lean ====
section
/-! DEFINITION. The state of the part as plain data, and the state right after reset. Registers of the chapters' tables
live in the register file `regs`, bytes of the store and of the local memories in `mem`; the rest is the state that no
register shows or that registers show only in part. -/

namespace Sys2Proof.Machine

/-- Faults of the model. There is none: every error of the part is a record in a tile header and a tile state (R18, R32),
so no step of this block ends in a fault. -/
inductive Fault where
deriving DecidableEq, Repr

/-- Refusals of the model. -/
inductive Refusal where
  /-- Raised by `exec` for a command that has no meaning yet; safe, since nothing can be concluded past it. -/
  | notModelled (mnemonic : String)
deriving DecidableEq, Repr

/-- Tile states of R16 (codes 0 to 7). -/
inductive Life where
  | off | reset | selftest | calibrate | ready | draining | held | fault
deriving DecidableEq, Repr

/-- The common header of a tile (R31) and what it implies: the request in progress and the error record. -/
structure Tile where
  life : Life := .reset
  busy : Bool := false
  target : Nat := 15
  reqTag : Tag := 0
  resValid : Bool := false
  resCode : Nat := 0
  resTag : Tag := 0
  lock : Bool := false
  ctlTag : Tag := 0
  ctlReq : Nat := 15
  firstValid : Bool := false
  /-- Value of `clock` at the recorded error (R32). -/
  firstAt : Nat := 0
  multi : Bool := false
  early : Bool := false
  reqDrop : Bool := false
  earlyWr : Nat := 0
  cause : Nat := 0
  errAddr : Nat := 0
  errUnit : Nat := 0
  errDetail : Nat := 0
  uncorr : Nat := 0
  corr : Nat := 0
  evtPend : Word := 0
  evtMask : Word := 0
  evtRoute : Word := 0
  /-- Islands of the tile, by index, that have lost lock (R515). -/
  unlocked : List Nat := []
  /-- 0 before the first SELFTEST, which alone sets it otherwise (DESIGN CHOICE, log entry 55). -/
  sparesUsed : Nat := 0
  substCnt : Nat := 0
  substPend : Nat := 0
  /-- Value of `clock` when the present drain began (R19). -/
  since : Nat := 0
  /-- Consecutive failed checks of the flit in transfer on each attachment (R14). -/
  flitFails : Tbl Nat := []
  /-- The last flit of each attachment that failed its check, as 256 data bits and 8 check bits above them (R14, R473). -/
  flitLast : Tbl Nat := []
deriving DecidableEq, Repr

/-- An event message on its way (R34). -/
structure EvtMsg where
  src : Nat
  dst : Nat
  bits : Word
deriving DecidableEq, Repr

/-- A posted store outstanding (R58): core address, device address, bytes and value. -/
structure PostedStore where
  core : Nat
  dev : Nat
  size : Nat
  val : Nat
deriving DecidableEq, Repr

/-- A FETCH copy in a copy slot (R97, R98); `waits` counts the thread's oldest posted stores that a source read through an
ordered window still waits for (R60). -/
structure CopySlot where
  coreSrc : Nat
  devSrc : Nat
  ordSrc : Bool
  isLocal : Bool
  dst : Nat
  len : Nat
  compl : Nat
  waits : Nat := 0
deriving DecidableEq, Repr

/-- An imprecise trap that waits to be taken (R68). -/
structure HeldTrap where
  cause : Nat
  addr : Nat
  posted : Bool
deriving DecidableEq, Repr

/-- Whether a thread can issue, and what it is parked on (R40). -/
inductive Run where
  | stopped
  | running
  /-- Waiting for the response of a device access of the instruction word and extension word given (R57, R60). -/
  | resp (word ext : Nat)
  /-- In trap entry, with a frame whose stores an ordered window holds back (R60, R66): the cause, ADDR, the saved PC and INFO. -/
  | frame (cause addr saved info : Nat)
  | fence
  /-- Parked in GETW with the record's address, since the order number given (R382). -/
  | getw (ea : Nat) (since : Nat)
  /-- Parked in ENQ with the predicate that receives the outcome (R104). -/
  | enq (pred : Nat)
  | cancel
  /-- Parked in WAITEV since the order number given, until the clock given; none where it waits without limit. -/
  | waitev (since : Nat) (due : Option Nat)
deriving DecidableEq, Repr

/-- Iterations left of a REP and the address of the REP (R92). -/
structure RepState where
  left : Nat
  pc : Nat
deriving DecidableEq, Repr

/-- The registers and hidden state of a Uzoath thread (R36). `st` holds every field of ST but THREAD. -/
structure Thread where
  a : Word := 0
  e : Word := 0
  x : Word := 0
  y : Word := 0
  sp : Word := 0
  k : BitVec 16 := 0
  st : Word := 0x10000
  pc : Nat := 0
  w0 : Word := 0
  w1 : Word := 0
  w2 : Word := 0
  w3 : Word := 0
  pr : BitVec 8 := 1
  run : Run := .stopped
  rep : Option RepState := none
  posted : List PostedStore := []
  /-- A store waits for the oldest posted store to complete (R58). -/
  postHold : Bool := false
  copies : List CopySlot := []
  traps : List HeldTrap := []
  /-- Handle of the work item held (R102). -/
  item : Option Nat := none
deriving DecidableEq, Repr

/-- Who holds or asks for a maintenance token: a software slot or a unit of the hardware (R468, R471). -/
inductive Holder where
  | slot (k : Nat)
  | unit
deriving DecidableEq, Repr

/-- A maintenance token held or asked for (R468). `byMgmt` marks a slot request that MGMT wrote (R472). -/
structure Token where
  kind : Nat
  scope : Nat
  holder : Holder
  tag : Tag := 0
  byMgmt : Bool := false
  aged : Bool := false
  /-- Value of `clock` at the request. -/
  since : Nat := 0
deriving DecidableEq, Repr

/-- The Milestone count (R411): nanoseconds, a 48-bit fraction, and whether TIME has ever reached READY. -/
structure Milestone where
  ns : Nat := 0
  frac : Nat := 0
  started : Bool := false
deriving DecidableEq, Repr

/-- An entry of the MSI-X table (R439): address, data and vector mask. -/
structure MsixEntry where
  addr : Nat := 0
  data : Word := 0
  masked : Bool := true
deriving DecidableEq, Repr

/-- A pulse as SENSE records it (R137, R139): low 32 bits of the Milestone count at its start, width in 10 ns units, peak power code,
slope where one was measured, centre bin and bandwidth. -/
structure PulseRec where
  start : Word
  width : Nat
  peak : Byte
  slope : Option (BitVec 16)
  centre : BitVec 16
  bandwidth : BitVec 16
deriving DecidableEq, Repr

/-- The scan in progress of SENSE (R134 to R139): the entry as captured at its start, the gain, the frames accumulated
as lists of power codes, and the pulses recorded. -/
structure Sense where
  curA : Word := 0
  curB : Word := 0
  frames : List (List Byte) := []
  total : Nat := 0
  selfTx : Nat := 0
  gain0 : Nat := 0
  gainChanged : Bool := false
  startNs : Nat := 0
  seq : Nat := 0
  pulses : List PulseRec := []
  /-- Cycle at which the present frame began. -/
  frameAt : Nat := 0
  /-- Last cycle in which a radio whose channel overlaps the window held a TXEN high (R136). -/
  txAt : Option Nat := none
  /-- RUN was written 0, or the tile drains: the scan stops after the current frame. -/
  stopReq : Bool := false
deriving DecidableEq, Repr

/-- What the RF command path of a radio is doing (R115, R116, R128, R120). -/
inductive RfPhase where
  | idle
  /-- TUNE accepted, waiting for the transmission in progress to end. -/
  | tuneWait
  /-- Synthesiser calibration in progress, first attempt or the repeat. -/
  | tuning (repeated : Bool)
  | bandCal
  | calAll
  | femScan
  /-- CHAIN_OFF waiting for the PPDU boundary. -/
  | chainOff
deriving DecidableEq, Repr

/-- An RFFE transaction of firmware (R118): kind, USID, address and data. -/
structure RffeTxn where
  kind : Nat
  usid : Nat
  addr : Nat
  data : Nat
deriving DecidableEq, Repr

/-- Pre-distortion of a chain in a band (R124, R125): the coefficients in use, none where the chain is not trained, and those of
the set before; the errors the two gave, in 0.01 dB. -/
structure Dpd where
  coefs : List Nat := []
  prev : List Nat := []
  prevErr : Option Int := none
  err : Option Int := none
  /-- Solved and not yet measured by a capture. -/
  fresh : Bool := false
  /-- The set before was restored, and no solve has succeeded since. -/
  reverted : Bool := false
deriving DecidableEq, Repr

/-- The sequencer step in execution (R141): its four words and the tick on which it began. -/
structure SeqStep where
  w0 : Nat := 0
  w1 : Nat := 0
  w2 : Nat := 0
  w3 : Nat := 0
  /-- The four words of its parameter record, read as it began (R148). -/
  rec_ : List Nat := []
  began : Nat := 0
deriving DecidableEq, Repr

/-- An MPDU of a station-TID queue inside a transmit command (R223): its queue, descriptor and bytes of A-MPDU. -/
structure FlightMpdu where
  stq : Nat
  desc : Nat
  bytes : Nat := 0
deriving DecidableEq, Repr

/-- Who built a transmit command (R151, R225, R278): firmware, MLINK's selection unit (with the radio's access category it
was charged to), or the Towpath engine for a peer's TABLE frame. -/
inductive CmdFrom where
  | firmware
  | mlink (ac : Nat)
  | sounding (scids : List Nat)
  | trigger (scids : List Nat)
  | tpTable (peer : Nat)
  /-- The fabric forwarder for a next hop: its frames as (descriptor, re-sends so far) (R295). -/
  | fabric (nh : Nat) (frames : List (Nat × Nat))
  /-- A beacon of the fabric forwarder (R292). -/
  | beacon
deriving DecidableEq, Repr

/-- A transmit command (R151): its eight words, who built it, when it became due in ticks, and the MPDUs MLINK put into
it. -/
structure TxCmd where
  words : List Nat
  from_ : CmdFrom := .firmware
  due : Option Nat := none
  late : Bool := false
  stalled : Bool := false
  mpdus : List FlightMpdu := []
  /-- TXVECTOR of a command whose builder keeps it outside the parameter memory; empty where it stands there. -/
  tvec : List Nat := []
  /-- The TIM element that replaces the placeholder of the PSDU, once the command has become due (R198). -/
  tim : Option (List Byte) := none
  /-- Bytes of it in the transmit buffer (R152). -/
  fetched : Nat := 0
  /-- Stations of a sounding command whose report came (R235). -/
  heard : List Nat := []
deriving DecidableEq, Repr

/-- What a transmission from a command is sending (R190, R192, R232): a protecting RTS or MU-RTS, a CTS-to-self, or the
PPDU number given. -/
inductive TxStage where
  | rts
  | ctsSelf
  | ppdu (n : Nat)
deriving DecidableEq, Repr

/-- A transmission from a command in progress (R154): queue, first-sample tick, time-stamp, DELAY, MPDUs not sent
intact; for a Towpath frame its peer, SEQ and table. -/
structure TxNow where
  queue : Nat
  cmd : TxCmd
  stage : TxStage := .ppdu 0
  first : Nat
  stamp : Nat
  delay : Nat := 0
  chains : Nat := 0
  /-- Chains that pre-distort it; the others bypass (R124). -/
  dpd : Nat := 0
  underrun : Bool := false
  unsent : Nat := 0
  aborted : Bool := false
  airtime : Nat := 0
  /-- On the air, as against waiting at SIFS for its next PPDU or for a response. -/
  onAir : Bool := true
  tpPeer : Option Nat := none
  tpSeq : Nat := 0
  /-- More Data of each individually addressed MPDU sent, by its descriptor (R200). -/
  more : List (Nat × Bool) := []
  /-- Width chosen, coded as RF_CHAN.WIDTH, and the 20 MHz subchannels punctured (R192). -/
  width : Nat := 0
  punct : Nat := 0
  /-- Tick at which the PPDU on the air ends, with its padding (R205). -/
  till : Nat := 0
  /-- Stations to which an end of service period went (R224). -/
  eosp : List Nat := []
  /-- Subcarrier grouping that a sounding sequence asks for (R234). -/
  ng : Nat := 4
deriving DecidableEq, Repr

/-- Phases of a response at SIFS (R158). -/
inductive RespPhase where
  | none | announced | prepared | ready | sending
deriving DecidableEq, Repr

/-- Kinds of response (R193, R201, R280). -/
inductive RespKind where
  | ack | cts | tb | blockAck (scid tid : Nat) | multiSta | towpath (peer : Nat) (ok : Bool)
deriving DecidableEq, Repr

/-- What a BlockAck reports of a station and TID (R201, R202): starting sequence number, bits of its bitmap, and the bitmap with bit
`i` for the `i`-th number from the start. A report of no bits is an Ack. -/
structure BaReport where
  scid : Nat
  tid : Nat
  ssn : Nat := 0
  size : Nat := 0
  bits : Nat := 0
deriving DecidableEq, Repr

/-- The response at SIFS of a radio (R158): its parameters, when it was prepared and whether it is armed. -/
structure Resp where
  phase : RespPhase := .none
  kind : RespKind := .ack
  armed : Bool := false
  offset : Nat := 0
  window : Nat := 0
  chains : Nat := 0
  power : Nat := 0
  /-- Chains that pre-distort it; the others bypass (R124). -/
  dpd : Nat := 0
  readyAt : Nat := 0
  stamp : Nat := 0
  /-- Rate in Mb/s, and what a BlockAck reports (R201). -/
  rate : Nat := 6
  bas : List BaReport := []
  /-- Tick at which it ends once launched (R205). -/
  till : Nat := 0
deriving DecidableEq, Repr

/-- How far a reception has come (R165 to R168): stage 1 and stage 2 of qualification, the L-SIG, the SIG fields, the
data, a PPDU held to its end without decoding, and a DSSS reception before and after its SFD. -/
inductive RxPhase where
  | idle | stage1 | stage2 | lsig | sig | data | hold | dsss
deriving DecidableEq, Repr

/-- The header of a Towpath frame being received (R267, R268) and what became of it. -/
structure TpRx where
  kind : Nat
  dst : Nat
  src : Nat
  seq : Nat
  tid : Nat
  nss : Nat
  rate : Nat
  gi : Nat
  nsym : Nat
  punct : Nat
  /-- Peer index, none where the source is no VALID peer. -/
  peer : Option Nat := none
  decoded : Bool := false
  noTable : Bool := false
  other : Bool := false
  unknownSrc : Bool := false
  checkOk : Bool := false
  subframes : Nat := 0
  length : Nat := 0
  ncbps : Nat := 0
  /-- Width tuned, coded as RF_CHAN.WIDTH. -/
  bw : Nat := 0
deriving DecidableEq, Repr

/-- A reception (R165 to R183): its phase and times in ticks, participating chains, reference level, what its SIG fields
announce, and what its MPDUs asked for. `endKind` is 0 COMPLETE or 1 SIG_ONLY. -/
structure Rx where
  phase : RxPhase := .idle
  edAt : Nat := 0
  s1At : Nat := 0
  chains : Nat := 0
  stamp : Nat := 0
  /-- Tick of the PPDU's first sample. -/
  startAt : Nat := 0
  /-- Reference level of the restart detector, once stage 1 has succeeded. -/
  ref : Option Int := none
  sig : Option RxSig := none
  durNs : Nat := 0
  endAt : Nat := 0
  endKind : Nat := 0
  cut : Bool := false
  overrun : Bool := false
  maxIter : Bool := false
  /-- Chains that participated at QUAL_OK (R181). -/
  qualChains : Nat := 0
  /-- The shadow autocorrelator has marked an onset (R171). -/
  onset : Bool := false
  /-- Mean power over the L-LTF, combined and of each chain, once known (R182). -/
  rssi : Option (Nat × List Byte) := none
  /-- The channel estimate of the data is smoothed (R174). -/
  smooth : Bool := false
  /-- Codewords that have arrived; those in the decoder, numbered and with their user, the oldest first; those cut, overrun or
  unconverged; and by user the codewords decoded and their iterations (R176, R177). -/
  cwIn : Nat := 0
  buf : List (Nat × Nat) := []
  bad : List Nat := []
  /-- Codewords in the decoder lanes, as (lane, number). -/
  lanes : List (Nat × Nat) := []
  cws : Tbl (Nat × Nat) := []
  /-- The decode deadline has passed. -/
  closed : Bool := false
  /-- MPDUs delivered, by user. -/
  mpdus : Tbl Nat := []
  fcsFail : Bool := false
  /-- Response that the MPDUs received so far require. -/
  resp : Option RespKind := none
  /-- RX_END has occurred. -/
  ended : Bool := false
  tp : Option TpRx := none
  /-- Stations whose MPDUs with FCS_OK came in a TB PPDU. -/
  heard : List Nat := []
  /-- Stations and TIDs of the data MPDUs that came with FCS_OK. -/
  tids : List (Nat × Nat) := []
  /-- The response that an exchange of this radio awaits came in this reception, and its BlockAck or Ack was good. -/
  answered : Bool := false
deriving DecidableEq, Repr

/-- A reception as it stood when it was aborted: tick, reason of R180, and the place of its record if one was written. -/
structure CutRx where
  tick : Nat
  reason : Nat
  rx : Rx
  place : Option Nat := none
deriving DecidableEq, Repr

/-- A response that a transmitted PPDU awaits (R190): the transmission, when its PPDU ended in model clock cycles, and
whether some PPDU has reached QUAL_OK in the window. -/
structure Await where
  tx : TxNow
  endAt : Nat
  qual : Bool := false
deriving DecidableEq, Repr

/-- The MAC of a radio (R185 to R193, R238): carrier sense, EDCA counters by access category, NAVs as the clock value at
which they reach 0, the exchange in progress. -/
structure Mac where
  /-- Clock at which the medium last became idle; none while it is busy. -/
  idleAt : Option Nat := none
  /-- Next slot boundary to be evaluated, counted from the end of SIFS. -/
  slotJ : Nat := 0
  /-- 20 MHz subchannels that were busy in the PIFS before the last grant (R192). -/
  subBusy : Nat := 0
  ccaBusy : Bool := false
  eifs : Bool := false
  cw : Tbl Nat := []
  retry : Tbl Nat := []
  bo : Tbl Nat := []
  /-- Value that EN going from 0 to 1 loads into the generator. -/
  seed : Nat := 0x2545F491
  grantAt : Nat := 0
  navBasic : Nat := 0
  navIntra : Nat := 0
  /-- A NAV set by an RTS: whether it is the intra-BSS NAV, and when. -/
  navRts : Option (Bool × Nat) := none
  /-- TXOP in progress: access category and the clock at its start. -/
  txop : Option (Nat × Nat) := none
  await : Option Await := none
  /-- Clock until which the MU EDCA parameters of each access category apply (R193). -/
  muUntil : Tbl Nat := []
  /-- TB window of a trigger: the clock at its end, its users, and whether a TB PPDU has reached QUAL_OK. -/
  tb : Option (Nat × List Nat × Bool) := none
  /-- Clock at the end of the last successful exchange of the TXOP. -/
  exchangeEnd : Nat := 0
  /-- Towpath frames hold physical carrier sense until this tick (R268). -/
  tpBusyUntil : Nat := 0
deriving DecidableEq, Repr

/-- A Towpath peer of a radio beyond its registers (R274 to R284): noise averages at eight times the tone plus the stream,
each with whether the next measurement replaces it; frames that passed since the last issue or fall-back; the generation
last issued; the streams of the last frame measured. -/
structure TpPeer where
  avg : Tbl (Option (Int × Bool)) := []
  good : Nat := 0
  gen : Nat := 0
  nss : Nat := 1
  /-- PUNCT of the last frame measured. -/
  punct : Nat := 0
  /-- EPOCH of the TABLE frame in the air. -/
  epochSent : Nat := 0
  /-- Sent three times without an acknowledgement. -/
  gaveUp : Bool := false
deriving DecidableEq, Repr

/-- A radio tile behind its registers: RF command path, synthesiser, front end, calibration, sequencer, transmit queues,
responses, reception, MAC and Towpath peers. -/
structure Radio where
  rf : RfPhase := .idle
  rfStart : Nat := 0
  rfChan : Word := 0
  bandChange : Bool := false
  /-- Attempt of a relock without a command: 0 none, 1, 2 (R117), and when it began. -/
  relock : Nat := 0
  /-- Value of `clock` when the present attempt to lock began (R115, R117). -/
  tryAt : Nat := 0
  rffe : Option RffeTxn := none
  /-- Values of `clock` when that transaction was requested, and at the last health poll (R118, R121). -/
  rffeAt : Nat := 0
  pollAt : Nat := 0
  /-- Value of `clock` at the last candidates of the loading engine (R276). -/
  loadAt : Nat := 0
  /-- Consecutive misses by USID (R121). -/
  misses : Tbl Nat := []
  /-- Chains that become LOST, or OFF, at the end of the PPDU in progress. -/
  lostPend : Nat := 0
  offPend : Nat := 0
  dpd : Tbl Dpd := []
  /-- Calibration rounds pending or in progress: bits IQ 4, LO 3, DC 2, GAIN 1, DPD 0. -/
  rounds : Nat := 0
  slice : Option (Nat × Nat) := none
  /-- Value of `clock` at which the slice, had it run whole, would have begun; and by 8 times the calibration plus the chain the
  cycles done up to the last checkpoint of a slice that yielded (R126). -/
  sliceAt : Nat := 0
  calProg : Tbl Nat := []
  /-- By calibration, the clock and the temperature in °C at the start of its last round (R126). -/
  calAt : Tbl Nat := []
  calTemp : Tbl Int := []
  /-- Chains with a capture that no solve has used (R125). -/
  captured : Nat := 0
  /-- CALIBRATE has characterised the VCO (R116, R128). -/
  vco : Bool := false
  /-- Rounds of each calibration that failed in succession. -/
  calFails : Tbl Nat := []
  /-- Gain loop: 0 armed, 1 held after stage 1, 2 frozen (R129). -/
  agc : Nat := 0
  step : SeqStep := {}
  /-- The successor that begins next: step number and tick. -/
  next : Option (Nat × Nat) := none
  /-- By event the ticks of its occurrences since its latch was last cleared (R143). -/
  latchAt : Tbl (List Nat) := []
  /-- A swap waits: entry step (R149); its tag stands in SEQ_RESULT. -/
  swap : Option Nat := none
  anchor : Nat := 0
  txq : Tbl (List TxCmd) := []
  /-- The queue whose head TXQ_READY selected. -/
  selected : Option Nat := none
  /-- EDCA queue granted by the MAC, if any. -/
  granted : Option Nat := none
  tx : Option TxNow := none
  resp : Resp := {}
  /-- Completion records that wait for a free slot of the ring (R157). -/
  txcWait : List (List Nat) := []
  rx : Rx := {}
  /-- The last reception aborted (R170, R172). -/
  cutRx : Option CutRx := none
  /-- Tick of the last change of a chain's gain (R166). -/
  gainAt : Nat := 0
  /-- The reception whose MPDUs the MAC is still judging. -/
  done : Option Rx := none
  /-- PPDU records written or dropped (R181). -/
  recSeq : Nat := 0
  laneTurn : Nat := 0
  laneFails : Tbl Nat := []
  /-- Clock at each lane's last audit (R179). -/
  laneAt : Tbl Nat := []
  mac : Mac := {}
  tp : Tbl TpPeer := []
  /-- Peers that a TP_PEER_RST write falls back at the next frame boundary (R284). -/
  tpRst : Nat := 0
  /-- WINDOW of the last response prepared (R232). -/
  window : Nat := 0
  /-- The next PPDU of a command of several is due (R232). -/
  muDue : Option Nat := none
  /-- Clock at the last sounding sequence (R234). -/
  lastSound : Option Nat := none
  /-- A fine capture is armed and has been made (R430): reception, transmission. -/
  ftmRx : Bool := false
  ftmTx : Bool := false
  /-- Airtime in ns that PPDUs started from commands have taken in the present duty window (R465). -/
  duty : Nat := 0
deriving DecidableEq, Repr

/-- A pool of the allocator (R311, R312): its free list as runs of consecutive units, first in first out, and the number
of units handed out. A unit is a block number in a block pool and a 64-byte unit number in a descriptor pool. -/
structure Pool where
  list : List (Nat × Nat) := []
  out : Nat := 0
deriving DecidableEq, Repr

/-- A request to the store that waits or is in progress (R330): its port, its bytes, the data of a write, when it arrived
and its place in the order of arrival. -/
structure StReq where
  port : Nat
  addr : Nat
  len : Nat
  data : Option (List Byte) := none
  arrived : Nat
  seq : Nat
deriving DecidableEq, Repr

/-- A DRAM channel (R332 to R341): requests admitted, waiting at the attachments, and reads whose column command has been
issued; the open row of each bank with its run of hits; the activate counts; neighbour refreshes pending and in progress
as (bank, row); postponed refreshes; and retraining. -/
structure Chan where
  queue : List StReq := []
  waiting : List StReq := []
  issued : List StReq := []
  rows : Tbl (Option (Nat × Nat)) := []
  acts : Tbl (List (Nat × Nat)) := []
  nrPend : List (Nat × Nat) := []
  nrNow : List (Nat × Nat) := []
  postponed : Tbl Nat := []
  paused : Bool := false
  rtFails : Nat := 0
  rtRetry : Bool := false
  /-- Value of `clock` at the last request of the retraining period, or the last training (R340, R344). -/
  rtAt : Nat := 0
  /-- Value of `clock` at the last failure to converge (R340). -/
  failAt : Nat := 0
  /-- Value of `clock` at the last read of mode register 4 (R336). -/
  mr4At : Nat := 0
deriving DecidableEq, Repr

/-- A post-package repair in progress (R343). -/
structure Ppr where
  page : Nat
  hard : Bool
  tag : Tag
deriving DecidableEq, Repr

/-- The store behind its registers: block metadata (R307, R321), pools and mailboxes (R311 to R317), corrective writes
(R320), the DRAM channels, retired pages and repairs (R342, R343). -/
structure Store where
  /-- 64-byte units whose metadata reads FREE, as disjoint runs in order. -/
  free : List (Nat × Nat) := []
  gen : Tbl Nat := []
  written : Tbl Bool := []
  /-- Blocks whose stored check is wrong until a full-block write. -/
  chkBad : Tbl Bool := []
  /-- Blocks whose check or state metadata is uncorrectable. -/
  metaBad : Tbl Bool := []
  /-- 32-byte sectors that are uncorrectable or poisoned. -/
  secBad : Tbl Bool := []
  retired : Tbl Bool := []
  pools : Tbl Pool := []
  initPool : Option Nat := none
  mbReq : Tbl (Option (Nat × Nat)) := []
  /-- Units each hardware port has taken for the frame in hand. -/
  inHand : Tbl (List Nat) := []
  wbPend : List Nat := []
  seq : Nat := 0
  chans : Tbl Chan := []
  /-- Channel whose turn to retrain comes next (R340). -/
  rtNext : Nat := 0
  /-- Value of `clock` as the activate-count tables were last cleared (R337). -/
  actAt : Nat := 0
  /-- Value of `clock` as the scrubber's last pass began (R324). -/
  passAt : Option Nat := none
  /-- The mask set in force (R327). -/
  masks : List Nat := [0x408, 0x810, 0x1020, 0x2040, 0x4080, 0x8100, 0x10200]
  ppr : Option Ppr := none
  /-- Banks holding a soft repair, as channel times 16 plus bank. -/
  soft : List Nat := []
  /-- Metadata has been written since the last device reset (R517). -/
  metaInit : Bool := false
deriving DecidableEq, Repr
/-- An installed key (R209, R211): its suite and words, the next transmit PN, and a receive counter by TID, 8 for
management frames. -/
structure Key where
  suite : Nat := 0
  data : List Nat := []
  txPn : Nat := 1
  rxPn : Tbl Nat := []
deriving DecidableEq, Repr

/-- An MPDU in a station-TID queue (R220 to R223): its descriptor, its sequence number once claimed, its arrival, and
whether it is in flight. -/
structure QMpdu where
  desc : Nat
  seq : Option Nat := none
  arrived : Nat := 0
  flight : Bool := false
deriving DecidableEq, Repr

/-- An MPDU on its way through reorder (R202, R211): its sequence number, descriptor, radio, and for a protected one its key
slot and PN. -/
structure HeldMpdu where
  seq : Nat
  desc : Nat
  radio : Nat
  key : Option (Nat × Nat) := none
deriving DecidableEq, Repr

/-- A receive scoreboard and reorder buffer of an agreement (R202): the MPDUs recorded in the window that wait for a hole,
in sequence order, and the clock at which the oldest hole began. -/
structure RxBoard where
  held : List HeldMpdu := []
  since : Nat := 0
  /-- The scoreboard (R202): the start of its window and the sequence numbers received in it. -/
  start : Nat := 0
  got : List Nat := []
deriving DecidableEq, Repr

/-- A steering matrix (R233, R234): its columns minus 1, the subcarrier grouping, and for each group of subcarriers its elements column by
column, 8 rows each, as complex numbers. -/
structure SteerMat where
  nc : Nat := 0
  ng : Nat := 4
  v : List (List (Int × Int)) := []
deriving DecidableEq, Repr

/-- A matrix received while its entry was in use by a command (R235). -/
structure SteerWait where
  radio : Nat
  scid : Nat
  mat : SteerMat
deriving DecidableEq, Repr

/-- A TWT period in progress (R239): the TSF at which it began, and words 0 and 3 of its entry as they stood then. -/
structure TwtRun where
  start : Nat
  w0 : Word
  w3 : Word
deriving DecidableEq, Repr

/-- MLINK behind its registers (R197 to R241): the AID map, keys, station-TID queues, the firmware-owned bytes of each
context in effect since its last ACTIVATE or REFRESH, installed link addresses by radio and SCID, scoreboards, TWT periods
in progress and the age of steering matrices. -/
structure Mlink where
  aids : Tbl (Option (Nat × Nat)) := []
  keys : Tbl (Option Key) := []
  txKey : Tbl (Option Nat) := []
  stq : Tbl (List QMpdu) := []
  shadow : Tbl (List Byte) := []
  addrs : Tbl (Option Nat) := []
  boards : Tbl RxBoard := []
  /-- The context that a FREE in progress names. -/
  freeing : Option Nat := none
  /-- By TWT entry: the Milestone count at the last write of START and at the last write of any word; the period in progress; and the
  entries whose last start still asks for an uplink selection (R237, R239). -/
  twtFrom : Tbl Nat := []
  twtAt : Tbl Nat := []
  twtOn : Tbl (Option TwtRun) := []
  twtSel : List Nat := []
  /-- Clock at the last uplink selection of each radio (R237). -/
  ulAt : Tbl Nat := []
  /-- Matrices of the steering cache, by radio times 256 plus entry (R233). -/
  steer : Tbl SteerMat := []
  /-- Clock at which each steering matrix was installed, by radio times 256 plus entry. -/
  steerAt : Tbl Nat := []
  /-- EML stations: the link that holds the station in a TXOP, plus 1, and the clock at the end of the transition delay. -/
  emlLink : Tbl Nat := []
  emlUntil : Tbl Nat := []
  /-- Steering matrices received while their entry was in use by a command (R235). -/
  steerPend : List SteerWait := []
  /-- Links awake for one delivery after a PS-Poll, as four times the SCID plus the link (R224). -/
  polled : List Nat := []
deriving DecidableEq, Repr

/-- A packet descriptor handed to CLASS (R346): its ingress code, its SRCID and TID for M0, and for ingress 8 SRC and CLASS
of its fabric header. -/
structure ClsIn where
  ingress : Nat
  desc : Nat
  srcid : Nat := 0
  tid : Nat := 0
  fabSrc : Nat := 0
  fabClass : Nat := 0
deriving DecidableEq, Repr

/-- The Milestone time base behind its registers (R411 to R432). -/
structure TimeUnit where
  /-- Path delay to the parent over Towpath, in 1/256 ns (R428). -/
  delay : Option Int := none
  /-- ADJ in force (R411). -/
  adj : Int := 0
  /-- Advance of the count in 2^-48 ns, steps left out, and its value at the last accepted sample (R425). -/
  run : Nat := 0
  sampleRun : Nat := 0
  /-- Clock of the last accepted sample. -/
  sampleAt : Option Nat := none
  integ : Int := 0
  good : Nat := 0
  first : Bool := false
  /-- READY cycles since the last accepted sample. -/
  wait : Nat := 0
  /-- The servo becomes FREE with ADJ 0 at the next READY (R432). -/
  lost : Bool := false
  /-- Steps since device reset, modulo 256, and the clock of the last one. -/
  steps : Nat := 0
  stepAt : Option Nat := none
  /-- Held TSF_OFS_LO writes, by radio (R418). -/
  tsfHeld : Tbl (Option Nat) := []
  /-- Edges of PPS_IN, modulo 256 (R429). -/
  edges : Nat := 0
  /-- PPS_OUT is high since this advance of the count (R429). -/
  pps : Option Nat := none
deriving DecidableEq, Repr

/-- Where a fabric frame came from (R293): a radio and its Towpath peer, a wired lane, or FAB_ENQ. -/
inductive FabSrc where
  | radio (r : Nat) (peer : Option Nat)
  | lane (n : Nat)
  | enq
deriving DecidableEq, Repr

/-- A fabric frame on its way into the forwarder (R293). -/
structure FabIn where
  src : FabSrc
  desc : Nat
deriving DecidableEq, Repr

/-- The last BEACON over a monitored next hop (R427): its SEQ and receive stamp, and the last m with the stamp it was formed
at. -/
structure BcnRef where
  seq : Option Nat := none
  rx : Nat := 0
  m : Option Int := none
  mAt : Nat := 0
deriving DecidableEq, Repr

/-- The fabric forwarder behind its registers (R287 to R306): frames that wait for it, next-hop queues of frames as
(descriptor, re-sends so far), unfinished commands, statuses of finished ones, beacons and rendezvous. -/
structure Fabric where
  inQ : List FabIn := []
  queues : Tbl (List (Nat × Nat)) := []
  unfin : Tbl Nat := []
  /-- Finished commands whose status the forwarder has yet to take: next hop, frames, and whether it was acknowledged. -/
  done : List (Nat × List (Nat × Nat) × Bool) := []
  /-- Beacons sent by port, radios at 0 and lanes at 4 on: the next SEQ and the transmit stamp of the last (R427). -/
  bcn : Tbl (Nat × Nat) := []
  /-- Milliseconds below this have had their beacons; and, by radio, the rendezvous that had one, plus 1. -/
  bcnMs : Nat := 0
  bcnRdv : Tbl Nat := []
  /-- Millisecond before a forward step of the count that beacon times are still to be taken from (R416). -/
  passed : Option Nat := none
  /-- Milestone nanosecond count at which a next hop's peer was last heard. -/
  heardAt : Tbl (Option Nat) := []
  /-- Rendezvous windows of a next hop whose end has been judged, plus 1. -/
  judged : Tbl Nat := []
  /-- Schedule window in force, by slot. -/
  win : Option Nat := none
  /-- Epoch last begun, plus 1, and whether a switch is armed (R304). -/
  epoch : Nat := 0
  armed : Bool := false
  freq : Tbl BcnRef := []
deriving DecidableEq, Repr

/-- A frame handed to a wired lane (R453): lane, priority, descriptor, and for a fabric frame its Ethernet destination. -/
structure WireOffer where
  lane : Nat
  pri : Nat
  desc : Nat
  dst : Option Nat := none
  beacon : Bool := false
deriving DecidableEq, Repr

/-- How far a Newt transmission command has come (R256, R257), with the clock at which the phase ends: backoff, CCA, the
frame on its way, and the wait for an Ack; or waiting to start without CSMA-CA. -/
inductive NewtPhase where
  | backoff (until_ : Nat)
  | cca (until_ : Nat)
  | waiting
  | sending (until_ : Nat)
  | await (until_ : Nat)
deriving DecidableEq, Repr

/-- A Newt transmission command (R255 to R257): its PSDU as sent, tag, priority, antenna choice, and its attempts. -/
structure NewtTx where
  psdu : List Byte
  tag : Tag
  pri : Nat
  ant : Nat
  power : Int
  nb : Nat := 0
  be : Nat := 0
  attempts : Nat := 0
  phase : NewtPhase := .waiting
deriving DecidableEq, Repr

/-- A received frame and what its record says beside its security (R261): PSDU, antenna, RSSI, LQI, channel, source entry and time. -/
structure NewtGot where
  psdu : List Byte
  ant : Nat
  rssi : Nat
  lqi : Nat
  chan : Nat
  index : Option Nat
  time : Nat
deriving DecidableEq, Repr

/-- A Newt Ack that is due (R252): when, its length in octets, whether it needs a frame counter, its FP, and the frame it
answers, which may be delivered. -/
structure NewtAck where
  at_ : Nat
  octets : Nat
  secured : Bool
  fp : Bool
  deliver : Bool
  got : NewtGot
deriving DecidableEq, Repr

/-- NEWT behind its registers (R243 to R262): generator, channel waiting, retuning, antenna, reception in progress as the
clock of its acquisition and whether the antenna is settled, tables, the command, and the Ack due. -/
structure Newt where
  g : Word := 0x2545F491
  chanPend : Option Nat := none
  retries : Nat := 0
  lastAnt : Nat := 0
  rx : Option (Nat × Bool) := none
  short : Tbl (Option (Nat × Nat)) := []
  ext : Tbl (Option Nat) := []
  tx : Option NewtTx := none
  ack : Option NewtAck := none
  /-- Clock at the end of the last Ack. -/
  ackEnd : Nat := 0
deriving DecidableEq, Repr

/-- A header that the parser recorded (R350): kind, layer, offset from OFS and length. -/
structure ClsHdr where
  kind : Nat
  layer : Nat
  off : Nat
  len : Nat
deriving DecidableEq, Repr

/-- What the parser has found in a frame (R350 to R353): headers in order, the bound, the flags, the place among the headers
of an IP header whose datagram is a fragment, VLAN tags of layer 0 and the last layer-4 kind. -/
structure ClsParse where
  hdrs : List ClsHdr := []
  bound : Nat := 0
  trunc : Bool := false
  conf : Bool := false
  frag : Option Nat := none
  first : Bool := false
  amsdu : Bool := false
  layer : Nat := 0
  vlans : Nat := 0
  l4 : Nat := 0
  /-- A length claim of layer 0 has been met. -/
  claimed : Bool := false
deriving DecidableEq, Repr

/-- What becomes of a frame of CLASS (R360): in the queue or the stages, dropped, or a work item that waits for SCHED. -/
inductive ClsOut where
  | open_
  | dropped
  | item (words : List Nat)
deriving DecidableEq, Repr

/-- A frame in an ingress queue of CLASS (R347 to R360): the parse window, what the parser found, the metadata words once
parsed, the next stage and word 0 of the pending result. -/
structure ClsFrame where
  src : ClsIn
  win : List Byte := []
  found : ClsParse := {}
  m : List Nat := []
  stage : Nat := 0
  pend : Option Nat := none
  out : ClsOut := .open_
deriving DecidableEq, Repr

/-- A table command taken from a slot (R367). -/
structure ClsCmd where
  slot : Nat
  op : Nat
  table : Nat
  len : Nat
  tag : Nat
  args : List Nat
deriving DecidableEq, Repr

/-- The two tuples of a connection (R365). -/
structure CtConn where
  orig : List Byte
  reply : List Byte
deriving DecidableEq, Repr

/-- The classifier behind its registers (R346 to R371): ingress queues, tables whose region is being cleared (0 to 15
exact-match, 16 connections, 17 and 18 routes), commands in order of arrival, routes by prefix times 256 plus length, and
connections by index. -/
structure ClassUnit where
  queues : Tbl (List ClsFrame) := []
  clearing : List Nat := []
  cmds : List ClsCmd := []
  lpm4 : Tbl (Option Nat) := []
  lpm6 : Tbl (Option Nat) := []
  ct : Tbl (Option CtConn) := []
deriving DecidableEq, Repr

/-- Where a work item stands (R376): pending until a clock; ready; in a dispatch queue; held; or complete with its disposition,
the thread that completed it and how many of that thread's oldest posted stores its release still waits for (R385). -/
inductive ItemState where
  | pending (due : Nat)
  | ready
  | dispatched
  | held
  | complete (disp : Word) (key : Nat) (waits : Nat)
deriving DecidableEq, Repr

/-- A work item that SCHED holds (R376, R377): generation, the words of its record, its engine once dispatched, the clocks at
which it became READY and COMPLETE, whether the trace samples it, and its number in order of acceptance. -/
structure WorkItem where
  gen : Nat
  words : List Nat
  st : ItemState
  eng : Nat := 0
  readyAt : Nat := 0
  doneAt : Nat := 0
  sampled : Bool := false
  seq : Nat := 0
deriving DecidableEq, Repr

/-- A DONE on its way to SCHED (R103): handle, disposition word, the thread and its posted stores outstanding at the DONE. -/
structure DoneMsg where
  handle : Nat
  disp : Word
  key : Nat
  waits : Nat
deriving DecidableEq, Repr

/-- SCHED behind its registers (R376 to R396): items by slot, generations by slot and what every RESET adds to them, READY
lists and dispatch queues of slots, domains as slots in ticket order, the list last served at each priority and the domain
last served, each plus 1, messages on their way, threads parked in ENQ with their record, and the count of arrivals since the
trace was enabled. -/
structure SchedUnit where
  items : Tbl (Option WorkItem) := []
  gens : Tbl Nat := []
  genAdd : Nat := 0
  lists : Tbl (List Nat) := []
  dq : Tbl (List Nat) := []
  doms : Tbl (List Nat) := []
  rr : Tbl Nat := []
  relRr : Nat := 0
  dones : List DoneMsg := []
  cancels : List (Nat × Nat) := []
  enqs : List (Nat × List Nat) := []
  traced : Nat := 0
  seq : Nat := 0
deriving DecidableEq, Repr

/-- A substitution in progress in a cluster (R394): the logical engine and the clock of its acceptance. -/
structure Subst where
  eng : Nat
  since : Nat
deriving DecidableEq, Repr

/-- A session of CIPHER (R402): algorithm, ICV length in bytes, key and salt octets. -/
structure Session where
  alg : Nat
  icv : Nat
  key : List Byte
  salt : List Byte
deriving DecidableEq, Repr

/-- A job of CIPHER (R404 to R408): queue, descriptor, whether its session was valid when it was accepted, and once it has
started its engine and its session as it stood then. -/
structure CipherJob where
  queue : Nat
  desc : Nat
  known : Bool
  engine : Option Nat := none
  sess : Option Session := none
deriving DecidableEq, Repr

/-- CIPHER behind its registers: sessions, releases on their way to it as (queue, descriptor), jobs in order of arrival, and
work items it has submitted that SCHED has not accepted yet (R407). -/
structure CipherUnit where
  sess : Tbl (Option Session) := []
  inQ : List (Nat × Nat) := []
  jobs : List CipherJob := []
  items : List (List Nat) := []
deriving DecidableEq, Repr

/-- A frame in a transmit queue of a lane (R453): its descriptor, for a fabric frame its Ethernet destination, and whether it
is a BEACON. -/
structure WireFrame where
  desc : Nat
  dst : Option Nat := none
  beacon : Bool := false
deriving DecidableEq, Repr

/-- A frame in a lane's receive buffer (R452): its bytes without FCS, its length on the wire, stamp and receive status, and
whether it goes to the forwarder. -/
structure WireRx where
  data : List Byte
  wireLen : Nat
  stamp : Nat
  status : Nat
  fabric : Bool
deriving DecidableEq, Repr

/-- A frame on a lane (R453): its descriptor unless it is a PAUSE frame, its bytes with FCS, and the clock at its end. -/
structure WireTx where
  desc : Option Nat
  bytes : List Byte
  endAt : Nat
deriving DecidableEq, Repr

/-- A wired lane behind its registers (R450 to R454): receiver lock, a fault signalled, since when LINK's conditions hold,
transmit queues by priority, the receive buffer, the frame on the lane, the end of a received PAUSE, PAUSE frames to send and
the clock of the last one sent while the buffer is above its threshold. -/
structure Lane where
  lock : Bool := false
  fault : Bool := false
  okSince : Option Nat := none
  q : Tbl (List WireFrame) := []
  rx : List WireRx := []
  cur : Option WireTx := none
  pauseUntil : Nat := 0
  pauseOut : List Nat := []
  xoff : Option Nat := none
deriving DecidableEq, Repr

/-- A transaction on the MDIO bus (R455, R456): a poll of a PHY_POLL entry or a command. -/
structure MdioTxn where
  poll : Option Nat := none
  c45 : Bool
  read : Bool
  phyad : Nat
  reg : Nat
  addr : Nat
  data : Nat
  tag : Tag := 0
deriving DecidableEq, Repr

/-- WIRE behind its registers: lanes, transactions in order of request, and the clock of each PHY's last poll, plus 1. -/
structure WireUnit where
  lanes : Tbl Lane := []
  mdio : List MdioTxn := []
  polled : Tbl Nat := []
deriving DecidableEq, Repr

/-- Bytes that HOST has written to host memory (R440). -/
structure HostWrite where
  addr : Nat
  bytes : List Byte
deriving DecidableEq, Repr

/-- What HOST has completed a read of the host with (R438): the data, and the poisoned bit. -/
structure HostReply where
  data : List Byte
  poisoned : Bool
deriving DecidableEq, Repr

/-- HOST behind its registers (R434 to R448): the level of PERST_N, the size of BAR 2 as a power of 2, released frames by
ring, entries written back since each ring's last message, the clock of the first of them plus 1, writes to host memory and
completions of host reads, oldest first. -/
structure HostUnit where
  perst : Bool := true
  barLog : Nat := 28
  d2h : Tbl (List Nat) := []
  coal : Tbl Nat := []
  coalAt : Tbl Nat := []
  out : List HostWrite := []
  replies : List HostReply := []
deriving DecidableEq, Repr

/-- A substitution that Axolotl has decided on (R473): its kind as the AUTO bit, its scope, its unit, and whether the
cluster's SUBST_CMD has been issued. -/
structure AxReq where
  kind : Nat
  scope : Nat
  unit : Nat
  started : Bool := false
deriving DecidableEq, Repr

/-- A piece of evidence for Axolotl (R473): kind as the AUTO bit, tile, unit, and the clock at which it was seen. -/
structure AxSeen where
  kind : Nat
  scope : Nat
  unit : Nat
  at_ : Nat
deriving DecidableEq, Repr

/-- What the boot ROM is doing (R460 to R462): held in device reset; about to run; waiting for the image of the host or of
the UART, with RES_A and RES_B so far; halted; or done, an image having been started. -/
inductive BootPhase where
  | held
  | rom
  | host (resA resB : Nat)
  | uart (resA resB : Nat)
  | halted
  | done
deriving DecidableEq, Repr

/-- A flash command in progress (R473): opcode, 8D mode, and direction. -/
structure FlCmd where
  op : Byte
  dtr : Bool
  write : Bool
deriving DecidableEq, Repr

/-- MGMT behind its registers: watchdogs (the clock at expiry while counting, else the cycles left; kicks armed), Axolotl,
spare tracks in use by tile times 4 plus link, the CR command in progress (whether it verifies), the flash command, the AVS
data word on its way, the duty window last begun plus 1, the boot, the reset inputs, octets sent on UART0, and the flash. -/
structure MgmtUnit where
  wdDue : Tbl (Option Nat) := []
  wdLeft : Tbl Nat := []
  wdArm : List Nat := []
  axPend : List AxReq := []
  axSeen : List AxSeen := []
  tracks : Tbl Nat := []
  cr : Option Bool := none
  fl : Option FlCmd := none
  avs : Option Nat := none
  dutyWin : Nat := 0
  /-- Value of `clock` at the last reading of the sensors (R465). -/
  sensorAt : Nat := 0
  /-- Value of `clock` at the last report of the ring oscillators (R466). -/
  roAt : Nat := 0
  phase : BootPhase := .rom
  cause : Nat := 0
  /-- BOOT_MODE as last sampled, and the levels at its balls. -/
  mode : Nat := 0
  straps : Nat := 0
  /-- POR_N is low; SYS_RST_N is low; REFCLK_40M has stopped. -/
  porLow : Bool := false
  sysLow : Bool := false
  refOff : Bool := false
  uartOut : List Byte := []
  flash : Tbl Byte := []
deriving DecidableEq, Repr

/-- The state of the part. -/
structure State where
  /-- TIME-island cycles of 2 ns that have passed (the model's own clock, DESIGN CHOICE, log entry 7). -/
  clock : Nat := 0
  /-- The model's own counter of free values taken (DESIGN CHOICE, log entry 5). -/
  freeTick : Nat := 0
  regs : Tbl Word := []
  mem : List Host.Cell := []
  tiles : Tbl Tile := []
  msgs : List EvtMsg := []
  threads : Tbl Thread := []
  /-- Pending event entries of each controller by tile, in order of first arrival (R107). -/
  evtIn : Tbl (List (Nat × Word)) := []
  /-- Order numbers given to threads that wait. -/
  order : Nat := 0
  tokens : List Token := []
  tokenReqs : List Token := []
  ms : Milestone := {}
  /-- Event log records written and not yet persisted, at most 2,048 (R464). -/
  logUnpers : Nat := 0
  /-- Value of `clock` when POR_N was last released (R464's AON count starts there). -/
  porClock : Nat := 0
  msix : Tbl MsixEntry := []
  msixFuncMask : Bool := false
  /-- Pending bit array: vectors whose message waits for its mask (R439). -/
  msixPend : List Nat := []
  /-- Vectors of the MSI-X messages sent to the host, oldest first. -/
  msixSent : List Nat := []
  sense : Sense := {}
  radios : Tbl Radio := []
  store : Store := {}
  mlink : Mlink := {}
  fabric : Fabric := {}
  time : TimeUnit := {}
  /-- Descriptors handed to CLASS that no ingress queue has taken yet, oldest first. -/
  clsIn : List ClsIn := []
  /-- Frames released to the wired lanes that no transmit queue has taken yet. -/
  wireIn : List WireOffer := []
  newt : Newt := {}
  cls : ClassUnit := {}
  sched : SchedUnit := {}
  /-- Substitutions in progress, by cluster. -/
  subst : Tbl (Option Subst) := []
  cipher : CipherUnit := {}
  /-- Frames released to host rings that HOST has not taken yet, as (ring, descriptor) (R442). -/
  hostIn : List (Nat × Nat) := []
  wire : WireUnit := {}
  hostU : HostUnit := {}
  mgmt : MgmtUnit := {}
  /-- Commands that wait, first in first out. -/
  pending : List Instr := []
deriving DecidableEq, Repr

/-- The part right after POR_N is released, before the boot ROM has run: every tile in RESET, every register at its reset
value, memory unwritten, nothing pending (R481); MGMT's two threads begin at address 0 (R42). -/
def State.reset : State := { threads := [(0, { run := .running }), (1, { run := .running })] }

end Sys2Proof.Machine
end

