-- ==== Sys2Proof/Machine/Ops.lean ====
section
/-! DEFINITION. The named operations over registers, memory, tile headers, events, the event log and error records that
every meaning is written in. -/

namespace Sys2Proof.Machine

/-! Bit fields of words (R6). -/

/-- Bits `hi` to `lo` of a word, as a number. -/
def fld (w : Word) (hi lo : Nat) : Nat := (w.toNat >>> lo) % 2 ^ (hi - lo + 1)

/-- One bit of a word. -/
def bit (w : Word) (n : Nat) : Bool := w.getLsbD n

/-- Ones in bits `hi` to `lo`. -/
def fmask (hi lo : Nat) : Word := BitVec.ofNat 32 ((2 ^ (hi - lo + 1) - 1) * 2 ^ lo)

/-- A word with bits `hi` to `lo` replaced. -/
def putFld (w : Word) (hi lo v : Nat) : Word :=
  (w &&& ~~~ fmask hi lo) ||| (BitVec.ofNat 32 ((v % 2 ^ (hi - lo + 1)) * 2 ^ lo))

/-- A word with one bit replaced. -/
def putBit (w : Word) (n : Nat) (b : Bool) : Word := putFld w n n (if b then 1 else 0)

/-- A truth value as a bit. -/
def b2n (b : Bool) : Nat := if b then 1 else 0

/-- The two's-complement value of the low `w` bits of a number. -/
def sval (w n : Nat) : Int := if n % 2 ^ w < 2 ^ (w - 1) then (n % 2 ^ w : Nat) else ((n % 2 ^ w : Nat) : Int) - (2 ^ w : Nat)

/-- The low `w` bits of an integer. -/
def ofInt (w : Nat) (i : Int) : Nat := (i % ((2 ^ w : Nat) : Int)).toNat

/-- A word from a number, modulo 2^32. -/
def wd (n : Nat) : Word := BitVec.ofNat 32 n

/-- A value that acts as the nearer limit outside its range. -/
def clampN (lo hi n : Nat) : Nat := if n < lo then lo else if hi < n then hi else n

/-! The register file. -/

/-- The value a register holds. -/
def State.rd (s : State) (a : RegId) : Word := tget regReset s.regs a

/-- Store a register's value. -/
def State.wr (s : State) (a : RegId) (v : Word) : State := { s with regs := tput regReset s.regs a v }

/-- A field of a register. -/
def State.rf (s : State) (a : RegId) (hi lo : Nat) : Nat := fld (s.rd a) hi lo

/-- A bit of a register. -/
def State.rbit (s : State) (a : RegId) (n : Nat) : Bool := bit (s.rd a) n

/-- Replace a field of a register. -/
def State.wf (s : State) (a : RegId) (hi lo v : Nat) : State := s.wr a (putFld (s.rd a) hi lo v)

/-- Add to a counter field that saturates at its largest value. -/
def State.sat (s : State) (a : RegId) (hi lo n : Nat) : State :=
  s.wf a hi lo (min (2 ^ (hi - lo + 1) - 1) (s.rf a hi lo + n))

/-- Store under the mask of the register's row: what a plain write of software leaves (R7, R26, R30). -/
def maskedWrite (row : RegRow) (locked : Bool) (old new : Word) : Word :=
  let m : Word := wd row.mask
  let m' : Word := if locked then m &&& ~~~ wd row.lmask else m
  (old &&& ~~~ m') ||| (new &&& m')

/-! Memory: bytes by device address, little-endian (R6). -/

/-- What a byte that nothing has written reads as (DESIGN CHOICE, log entry 1); the boot ROM reads as its contents, which the
spec does not list (log entry 55). -/
def memDefault (a : Nat) : Byte :=
  if 0x3000000000 ≤ a ∧ a < 0x3000020000 then Config.romByte (a - 0x3000000000) else 0

/-- The canonical form of memory: addresses strictly rising, no byte listed that reads as unwritten. -/
abbrev Memory.wf (m : List Host.Cell) : Prop := twf memDefault 0 m = true

/-- One byte. -/
def State.rb (s : State) (a : Nat) : Byte := tget memDefault s.mem a

/-- Write one byte. -/
def State.wb (s : State) (a : Nat) (v : Byte) : State := { s with mem := tput memDefault s.mem a v }

/-- `n` bytes, the first least significant. -/
def State.rm (s : State) (a : Nat) : Nat → Nat
  | 0 => 0
  | n + 1 => (s.rb a).toNat + 256 * s.rm (a + 1) n

/-- Write `n` bytes of a number, the least significant first. -/
def State.wm (s : State) (a : Nat) : Nat → Nat → State
  | 0, _ => s
  | n + 1, v => (s.wb a (BitVec.ofNat 8 v)).wm (a + 1) n (v / 256)

/-- The bytes of a range, in order. -/
def State.rbytes (s : State) (a : Nat) : Nat → List Byte
  | 0 => []
  | n + 1 => s.rb a :: s.rbytes (a + 1) n

/-- Write a list of bytes at consecutive addresses. -/
def State.wbytes (s : State) (a : Nat) : List Byte → State
  | [] => s
  | b :: bs => (s.wb a b).wbytes (a + 1) bs

/-- Write a list of words at consecutive word addresses. -/
def State.wwords (s : State) (a : Nat) : List Nat → State
  | [] => s
  | w :: ws => (s.wm a 4 w).wwords (a + 4) ws

/-- A range of memory reads as unwritten again. -/
def State.clearMem (s : State) (a n : Nat) : State := { s with mem := tclear s.mem a n }

/-! Time. -/

/-- Microseconds on the model's clock. -/
def State.us (s : State) : Nat := s.clock / 500
/-- Milliseconds on the model's clock. -/
def State.msec (s : State) : Nat := s.clock / 500000
/-- Radio ticks of 3.125 ns on the model's clock (R141). -/
def State.tick (s : State) : Nat := s.clock * 16 / 25
/-- Ticks of the 32.768 kHz AON clock since POR_N was released, wrapping (R464). -/
def State.aon (s : State) : Nat := ((s.clock - s.porClock) * 32768 / 500000000) % 2 ^ 32
/-- The Milestone count as a stamp: 0 until TIME first reaches READY (R411). -/
def State.ns (s : State) : Nat := if s.ms.started then s.ms.ns else 0

/-- A free value of `w` bits; the counter advances by `State.took`. -/
def State.free (s : State) (w : Nat) : Nat := Config.freeNat s.freeTick % 2 ^ w
/-- One free value has been taken. -/
def State.took (s : State) : State := { s with freeTick := s.freeTick + 1 }

/-! Tiles. -/

/-- A tile's header. -/
def State.tile (s : State) (t : Nat) : Tile := tget (fun _ => {}) s.tiles t
/-- Replace a tile's header. -/
def State.setTile (s : State) (t : Nat) (x : Tile) : State := { s with tiles := tput (fun _ => {}) s.tiles t x }
/-- Change a tile's header. -/
def State.modTile (s : State) (t : Nat) (f : Tile → Tile) : State := s.setTile t (f (s.tile t))
/-- The tile's state. -/
def State.life (s : State) (t : Nat) : Life := (s.tile t).life

/-- State codes of R16. -/
def Life.code : Life → Nat
  | .off => 0 | .reset => 1 | .selftest => 2 | .calibrate => 3 | .ready => 4 | .draining => 5 | .held => 6 | .fault => 7

/-- A tile that serves its function: READY or DRAINING (R29). -/
def State.live (s : State) (t : Nat) : Bool := s.life t = .ready || s.life t = .draining

/-- A tile that a RESET or OFF would disturb in R29's sense: READY, DRAINING or HELD. -/
def State.active (s : State) (t : Nat) : Bool := s.live t || s.life t = .held

/-- TILE_STATUS.TOKEN: a SUBST or UPDATE token is held for the tile's scope (R471). -/
def State.hasToken (s : State) (t : Nat) : Bool :=
  s.tokens.any fun k => (k.kind = 3 || k.kind = 8) && k.scope = t

/-- TILE_STATUS (R31). -/
def State.tileStatus (s : State) (t : Nat) : Word :=
  let x := s.tile t
  wd (b2n x.resValid * 2 ^ 31 + x.resCode % 8 * 2 ^ 28 + x.resTag.toNat * 2 ^ 20 + b2n (s.hasToken t) * 2 ^ 19
    + b2n x.busy * 2 ^ 18 + x.target % 16 * 2 ^ 12 + x.life.code)

/-! Event messages and interrupts (R34, R439). -/

/-- Tiles with a Uzoath controller that WAITEV serves: MGMT, the radios, MLINK, SENSE and NEWT (R39). -/
def hasController (t : Nat) : Bool := t = 0 || (2 ≤ t && t ≤ 7)

/-- The host is absent: no link, no bus mastering, or D3hot (R447). -/
def State.hostAbsent (s : State) : Bool :=
  !s.rbit Reg.HOST.HOST_STATUS 31 || !s.rbit Reg.HOST.HOST_STATUS 30 || s.rbit Reg.HOST.HOST_STATUS 28

/-- An MSI-X message is asked for on a vector (R439): discarded while the function cannot send, kept pending while masked. -/
def State.sendMsix (s : State) (v : Nat) : State :=
  if s.hostAbsent || !s.rbit Reg.HOST.HOST_STATUS 29 then s
  else if s.msixFuncMask || (tget (fun _ => {}) s.msix v).masked then
    { s with msixPend := if s.msixPend.contains v then s.msixPend else s.msixPend ++ [v] }
  else { s with msixSent := s.msixSent ++ [v] }

/-- Event messages of a tile whose masked pending bits have risen, to each destination of TILE_EVT_ROUTE (R34). -/
def State.sendEvt (s : State) (t : Nat) : State :=
  let x := s.tile t
  let bits := x.evtPend &&& x.evtMask
  let c := fld x.evtRoute 4 0
  let toMgmt := if bit x.evtRoute 31 then [EvtMsg.mk t 0 bits] else []
  let toCtrl := if bit x.evtRoute 28 && hasController c then [EvtMsg.mk t c bits] else []
  let s1 := { s with msgs := s.msgs ++ toMgmt ++ toCtrl }
  if bit x.evtRoute 30 && s.life 16 = .ready then s1.sendMsix (fld x.evtRoute 15 8) else s1

/-- Replace pending and mask words of a tile, sending messages for masked bits that rise (R34); a tile in OFF sends
none (R35). -/
def State.setEvtWords (s : State) (t : Nat) (pend mask : Word) : State :=
  let x := s.tile t
  let rising := (pend &&& mask) &&& ~~~ (x.evtPend &&& x.evtMask)
  let s1 := s.setTile t { x with evtPend := pend, evtMask := mask }
  if rising = 0 || x.life = .off then s1 else s1.sendEvt t

/-- Set pending event bits of a tile (R33). -/
def State.evtBits (s : State) (t : Nat) (bits : Word) : State :=
  s.setEvtWords t ((s.tile t).evtPend ||| bits) (s.tile t).evtMask

/-- Set one pending event bit of a tile. -/
def State.evt (s : State) (t n : Nat) : State := s.evtBits t (wd (2 ^ n))

/-! The event log (R464). -/

/-- Device address of the event log SRAM (R464). -/
def logBase : Nat := 0x3001010000

/-- Append a record at LOG_WR: 32 bytes; a record not yet persisted that it overwrites counts LOST. -/
def State.logRec (s : State) (tile kind code d0 d1 d2 d3 : Nat) : State :=
  let i := s.rf Reg.MGMT.LOG_WR 10 0
  let a := logBase + 32 * i
  let n := s.ns
  let s1 := s.wwords a [n % 2 ^ 32, n / 2 ^ 32, s.aon, tile % 256 + kind % 256 * 256 + code % 65536 * 65536, d0, d1, d2, d3]
  let s2 := s1.wf Reg.MGMT.LOG_WR 10 0 (i + 1)
  if s.logUnpers = 2048 then s2.sat Reg.MGMT.LOG_CNT 15 0 1 else { s2 with logUnpers := s.logUnpers + 1 }

/-! Tile states, results and error records. -/

/-! Watchdogs (R467). -/

/-- Tiles whose controllers the watchdogs watch, in order of watchdog. -/
def wdTiles : List Nat := [0, 2, 3, 4, 5, 6, 7]

/-- Cycles that a watchdog counts: TIMEOUT_MS, 0 acting as 1. -/
def State.wdPeriod (s : State) (k : Nat) : Nat := max 1 (s.rf (Reg.MGMT.WDT_CTL k) 15 0) * 500000

/-- A watchdog is loaded and counts. -/
def State.wdLoad (s : State) (k : Nat) : State :=
  { s with mgmt := { s.mgmt with wdDue := tput (fun _ => none) s.mgmt.wdDue k (some (s.clock + s.wdPeriod k)) } }

/-- A watchdog stops where it stands. -/
def State.wdStop (s : State) (k : Nat) : State :=
  match tget (fun _ => none) s.mgmt.wdDue k with
  | some d => { s with mgmt := { s.mgmt with
      wdDue := tput (fun _ => none) s.mgmt.wdDue k none, wdLeft := tput (fun _ => 0) s.mgmt.wdLeft k (d - s.clock) } }
  | none => s

/-- The watchdog of a tile counts while its EN is 1 and the tile is READY or DRAINING, and reloads as the tile enters READY
from another state. -/
def State.wdSync (s : State) (t : Nat) : State :=
  match wdTiles.idxOf? t with
  | none => s
  | some k =>
    if !s.rbit (Reg.MGMT.WDT_CTL k) 31 || !s.live t then s.wdStop k
    else if s.life t = .ready && (tget (fun _ => none) s.mgmt.wdDue k).isNone then s.wdLoad k else s

/-- Change a tile's state: STATE sets and the log takes a record (R33, R464). -/
def State.setLife (s : State) (t : Nat) (l : Life) : State :=
  let old := s.life t
  if old = l then s
  else
    let s1 := (s.modTile t fun x => { x with life := l }).wdSync t
    let s2 := s1.evt t 0
    if l = .off then s2 else s2.logRec t 1 (l.code + 16 * old.code) (s2.tileStatus t).toNat 0 0 0

/-- Post a request's result (R17, R21, R31): BUSY falls, RESULT sets. -/
def State.postReq (s : State) (t code : Nat) (tag : Tag) : State :=
  (s.modTile t fun x => { x with busy := false, target := 15, resValid := true, resCode := code, resTag := tag }).evt t 1

/-- Enter FAULT, from the states R18 names; MGMT enters it from no cause (R474). -/
def State.enterFault (s : State) (t : Nat) : State :=
  let x := s.tile t
  if t = 0 || x.life = .off || x.life = .reset || x.life = .fault then s
  else
    let s1 := s.setLife t .fault
    if x.busy then s1.postReq t 3 x.reqTag else s1

/-- Record a first error, or MULTI while the record holds one (R32), with its log record; enter FAULT where the cause
does (R18). Of two errors at one value of `clock` the lower cause stands in the record, with MULTI; the log keeps the record it
took first (DESIGN CHOICE, log entry 54). -/
def State.recordErr (s : State) (t cause unit detail addr : Nat) (fatal : Bool) : State :=
  let x := s.tile t
  let put := fun (x : Tile) =>
    { x with cause := cause, errAddr := addr % 2 ^ 40, errUnit := unit, errDetail := detail, firstAt := s.clock }
  let s1 :=
    if x.life = .off then s
    else if x.firstValid then
      s.modTile t fun x => { (if x.firstAt = s.clock && cause < x.cause then put x else x) with multi := true }
    else
      let s2 := s.modTile t fun x => { (put x) with firstValid := true }
      (s2.evt t 2).logRec t 2 cause (addr % 2 ^ 32)
        (detail % 65536 * 65536 + unit % 256 * 256 + addr / 2 ^ 32 % 256) 0 0
  if fatal then s1.enterFault t else s1

/-- UNIT of a cause that has none (R32). -/
def noUnit : Nat := 0xFF

/-! What a tile's state accepts (R29). -/

/-- A requester is the management controller. -/
def reqMgmt : Req → Bool
  | .tile n => n.val = 0
  | .host => false

/-- The tile of a requester: a host access is issued by HOST (R438). -/
def reqTile : Req → Nat
  | .tile n => n.val
  | .host => 16

/-- The tile's registers outside the header and its local memory accept this requester (R29). -/
def State.accepts (s : State) (by_ : Req) (t : Nat) : Bool :=
  s.live t || (s.life t = .held && reqMgmt by_)

/-- A write turned away outside the states that accept it: counted, except in OFF (R29). -/
def State.earlyWrite (s : State) (t : Nat) : State :=
  if s.life t = .off then s else s.modTile t fun x => { x with earlyWr := min 4095 (x.earlyWr + 1) }

/-- A read turned away: EARLY sets, except in OFF (R29, R33). -/
def State.earlyRead (s : State) (t : Nat) : State :=
  if s.life t = .off then s else (s.modTile t fun x => { x with early := true }).evt t 3

/-- A write of software to a register of a tile: its effect where the tile accepts it, a discarded write otherwise. -/
def State.onWrite (s : State) (by_ : Req) (t : Nat) (f : State → State) : State :=
  if s.accepts by_ t then f s else s.earlyWrite t

/-- A command dropped on a path without a counter of its own (R132, R31). -/
def State.reqDrop (s : State) (t : Nat) : State := s.modTile t fun x => { x with reqDrop := true }

/-! The store's place. -/

/-- First device address past the software-visible store (R23). -/
def storeEnd : Nat := 0x1D8000000

/-- STORE serves requests: it is READY or DRAINING (R309). -/
def State.storeUp (s : State) : Bool := s.live 8

/-- Count a corrected error of a tile (R31). -/
def State.corrInc (s : State) (t : Nat) : State := s.modTile t fun x => { x with corr := min 65535 (x.corr + 1) }
/-- Count an uncorrectable error of a tile (R31). -/
def State.uncorrInc (s : State) (t : Nat) : State := s.modTile t fun x => { x with uncorr := min 65535 (x.uncorr + 1) }

/-- `n` bytes of a number, least significant first. -/
def le : Nat → Nat → List Byte
  | 0, _ => []
  | n + 1, v => BitVec.ofNat 8 v :: le n (v / 256)

/-! Start controls of controller threads (R41). -/

/-- The place of a thread in the table of threads. -/
def threadKey (tile eng thr : Nat) : Nat := tile * 64 + eng * 8 + thr
/-- A thread's state. -/
def State.thread (s : State) (k : Nat) : Thread := tget (fun _ => {}) s.threads k
/-- Replace a thread's state. -/
def State.setThread (s : State) (k : Nat) (x : Thread) : State := { s with threads := tput (fun _ => {}) s.threads k x }

/-- MGMT's threads begin at address 0 with the reset values of R36 (R42). -/
def State.mgmtThreads (s : State) : State :=
  (s.setThread (threadKey 0 0 0) { run := .running }).setThread (threadKey 0 0 1) { run := .running }

/-- Start threads of a controller at address 0 with the reset values of R36: those whose bit is written 1 and that are
stopped. -/
def State.startThreads (s : State) (tile eng : Nat) (bits : Word) : Nat → State
  | 0 => s
  | n + 1 =>
    let s1 := s.startThreads tile eng bits n
    let k := threadKey tile eng n
    if bit bits n && (s1.thread k).run = .stopped then s1.setThread k { run := .running } else s1

/-- A start control of a controller with `n` threads: W1S, from MGMT only (R41). -/
def State.runWrite (s : State) (by_ : Req) (tile n : Nat) (reg : RegId) (bits : Word) : State :=
  s.onWrite by_ tile fun s =>
    if reqMgmt by_ then (s.wr reg (s.rd reg ||| (bits &&& wd (2 ^ n - 1)))).startThreads tile 0 bits n else s

/-! Result words (R28, R132): VALID in bit 31, BUSY in bit 30, the tag at `tagLo`. -/

/-- A result word is free to take a command: neither BUSY nor VALID. -/
def State.pathFree (s : State) (res : RegId) : Bool := !s.rbit res 31 && !s.rbit res 30

/-- Take a command: BUSY rises with the command's tag. -/
def State.pathBusy (s : State) (res : RegId) (tagLo : Nat) (tag : Tag) : State :=
  s.wr res (wd (2 ^ 30 + tag.toNat * 2 ^ tagLo))

/-- Post a result: VALID, the code and further fields as `rest`, the tag. -/
def State.pathPost (s : State) (res : RegId) (tagLo : Nat) (tag : Tag) (rest : Nat) : State :=
  s.wr res (wd (2 ^ 31 + rest + tag.toNat * 2 ^ tagLo))

/-- The tag in a result word. -/
def State.pathTag (s : State) (res : RegId) (tagLo : Nat) : Tag := BitVec.ofNat 8 (s.rf res (tagLo + 7) tagLo)

/-- Retire a posted result: a write of its tag clears the word; any other write is ignored (R28). -/
def State.pathAck (s : State) (res : RegId) (tagLo : Nat) (tag : Tag) : State :=
  if s.rbit res 31 && s.pathTag res tagLo = tag then s.wr res 0 else s

end Sys2Proof.Machine
end

