-- ==== Sys2Proof/Machine/Maint.lean ====
section
/-! DEFINITION. The maintenance arbiter (R468 to R472) and the commands that reach it. -/

namespace Sys2Proof.Machine

/-- Kinds of maintenance activity of R468, by number. -/
def kNR : Nat := 0
def kTHERM : Nat := 1
def kSCRUB : Nat := 2
def kSUBST : Nat := 3
def kRETRAIN : Nat := 4
def kCAL : Nat := 5
def kDPD : Nat := 6
def kSEQSW : Nat := 7
def kUPDATE : Nat := 8

/-- The scopes a kind names (R468). -/
def scopeOk (kind scope : Nat) : Bool :=
  match kind with
  | 0 => 18 ≤ scope && scope ≤ 25
  | 1 => (2 ≤ scope && scope ≤ 4) || (11 ≤ scope && scope ≤ 14)
  | 2 => scope = 8
  | 3 => (1 ≤ scope && scope ≤ 17) || (18 ≤ scope && scope ≤ 25)
  | 4 => 18 ≤ scope && scope ≤ 25
  | 5 => 2 ≤ scope && scope ≤ 4
  | 6 => 2 ≤ scope && scope ≤ 4
  | 7 => 2 ≤ scope && scope ≤ 4
  | 8 => 1 ≤ scope && scope ≤ 17
  | _ => false

/-- Class of a kind: 0 safety, 1 integrity, 2 performance (R468). -/
def kindClass (kind : Nat) : Nat :=
  if kind = 0 || kind = 1 then 0 else if kind = 2 || kind = 3 then 1 else 2

/-- Scope 8, STORE, contains the channels; two scopes meet when equal or one contains the other (R468). -/
def scopesMeet (a b : Nat) : Bool :=
  a = b || (a = 8 && 18 ≤ b && b ≤ 25) || (b = 8 && 18 ≤ a && a ≤ 25)

/-- Two tokens meet; RETRAIN tokens meet across all channels (R468). -/
def tokensMeet (p q : Token) : Bool := scopesMeet p.scope q.scope || (p.kind = kRETRAIN && q.kind = kRETRAIN)

/-- The compatibility matrix of R469, row by kind: the kinds it may be held with. Pairs that never meet count as
compatible. -/
def compatRow : List (List Nat) :=
  [[0, 1, 2, 5, 6, 7], [0, 2, 4, 5, 6, 7, 8], [0, 1, 4, 5, 6, 7], [5, 6, 7],
   [1, 2, 5, 6, 7], [0, 1, 2, 3, 4, 7], [0, 1, 2, 3, 4, 7], [0, 1, 2, 3, 4, 5, 6], [1]]

/-- Two kinds may be held together where they meet (R469). -/
def compatible (a b : Nat) : Bool := ((compatRow[a]?).getD []).contains b

/-- Two tokens conflict (R469). -/
def conflicts (p q : Token) : Bool := tokensMeet p q && !compatible p.kind q.kind

/-- Rank of a request in the arbiter's order: aged first, then class; arrival decides the rest (R470). -/
def tokenRank (q : Token) : Nat := (if q.aged then 0 else 3) + kindClass q.kind

/-- The pending requests in the arbiter's order (R470): ranks in turn, arrival order within each. -/
def tokenOrder (l : List Token) : List Token :=
  [0, 1, 2, 3, 4, 5].flatMap fun k => l.filter fun q => tokenRank q = k

/-- The requests one pass grants: those that conflict with no held token and no request before them (R470). -/
def grantPass (held : List Token) : List Token → List Token → List Token
  | _, [] => []
  | before, q :: rest =>
    if (held ++ before).any (conflicts q) then grantPass held (before ++ [q]) rest
    else q :: grantPass held (before ++ [q]) rest

/-- What a grant shows: a software slot posts GRANTED under its tag and MT sets (R471). -/
def State.showGrant (s : State) (q : Token) : State :=
  match q.holder with
  | .slot k => (s.pathPost (Reg.MGMT.MT_RES k) 0 q.tag 0).evt 0 19
  | .unit => s

/-- One pass of the arbiter (R470). -/
def State.arbitrate (s : State) : State :=
  let g := grantPass s.tokens [] (tokenOrder s.tokenReqs)
  g.foldl State.showGrant { s with tokens := s.tokens ++ g, tokenReqs := s.tokenReqs.filter fun q => !g.contains q }

/-- A unit of the hardware holds a token of a kind for a scope. -/
def State.holds (s : State) (kind scope : Nat) : Bool :=
  s.tokens.any fun q => q.kind = kind && q.scope = scope && q.holder = .unit

/-- A unit of the hardware waits for one. -/
def State.asks (s : State) (kind scope : Nat) : Bool :=
  s.tokenReqs.any fun q => q.kind = kind && q.scope = scope && q.holder = .unit

/-- Hardware asks for a token, once (R470). -/
def State.askToken (s : State) (kind scope : Nat) : State :=
  if s.holds kind scope || s.asks kind scope then s
  else State.arbitrate { s with
    tokenReqs := s.tokenReqs ++ [{ kind := kind, scope := scope, holder := .unit, since := s.clock }] }

/-- Hardware releases a token it holds, or withdraws its request; the arbiter passes (R470). -/
def State.releaseToken (s : State) (kind scope : Nat) : State :=
  let mine := fun (q : Token) => q.kind = kind && q.scope = scope && q.holder = .unit
  State.arbitrate { s with tokens := s.tokens.filter fun q => !mine q, tokenReqs := s.tokenReqs.filter fun q => !mine q }

/-! Spares of a tile (R31) and Axolotl (R473). -/

/-- TILE_SPARES: a substitution is requested. -/
def State.spareAsk (s : State) (t : Nat) : State :=
  (s.modTile t fun x => { x with substPend := min 255 (x.substPend + 1) }).evt t 4

/-- TILE_SPARES: a substitution requested has ended, with a spare in service or not. -/
def State.spareEnd (s : State) (t : Nat) (done : Bool) : State :=
  (s.modTile t fun x => { x with
    substPend := x.substPend - 1
    sparesUsed := if done then min 255 (x.sparesUsed + 1) else x.sparesUsed
    substCnt := if done then min 255 (x.substCnt + 1) else x.substCnt }).evt t 4

/-- AX_STATUS.PENDING counts the substitutions decided on and not yet attempted to the end. -/
def State.setAxPend (s : State) (l : List AxReq) : State :=
  ({ s with mgmt := { s.mgmt with axPend := l } } : State).wf Reg.MGMT.AX_STATUS 15 8 (min 255 l.length)

/-- Axolotl decides on a substitution: AUTO enables its kind, no other is pending for the unit, and SUBST names the scope; it
asks for the token (R473). -/
def State.axAsk (s : State) (kind scope unit : Nat) : State :=
  if !s.rbit Reg.MGMT.AX_CTL kind || !scopeOk kSUBST scope
      || s.mgmt.axPend.any (fun q => q.kind = kind && q.scope = scope && q.unit = unit) then s
  else
    let s1 := s.setAxPend (s.mgmt.axPend ++ [{ kind := kind, scope := scope, unit := unit }])
    (if kind = 28 then s1 else s1.spareAsk scope).askToken kSUBST scope

/-- Evidence for a unit: kept for `window` cycles; at `thr` pieces Axolotl decides (R473). -/
def State.axEvidence (s : State) (kind scope unit window thr : Nat) : State :=
  let mine := fun (e : AxSeen) => e.kind = kind && e.scope = scope && e.unit = unit
  let l := (s.mgmt.axSeen.filter fun e => !mine e || s.clock < e.at_ + window)
    ++ [{ kind := kind, scope := scope, unit := unit, at_ := s.clock }]
  if max 1 thr ≤ l.countP mine && s.rbit Reg.MGMT.AX_CTL kind then
    ({ s with mgmt := { s.mgmt with axSeen := l.filter fun e => !mine e } } : State).axAsk kind scope unit
  else { s with mgmt := { s.mgmt with axSeen := l } }

/-- An attempt ends (R464, R473): the SPARE record with unit, spare and result, AX, the counts, and the token released where
no other attempt waits for the scope. Result codes are those of SUBST_RESULT; the record's CODE is the free constant of log
entry 31. -/
def State.axEnd (s : State) (q : AxReq) (spare code : Nat) : State :=
  let s0 := s.setAxPend (s.mgmt.axPend.filter fun p => p != q)
  let s1 := (if q.kind = 28 then s0 else s0.spareEnd q.scope (code = 0)).logRec q.scope 3
    (Config.axCode q.kind) q.unit spare code 0
  let s2 := if code = 0 then s1.sat Reg.MGMT.AX_STATUS 31 24 1
    else if code = 1 then s1.sat Reg.MGMT.AX_STATUS 23 16 1 else s1
  let s3 := s2.evt 0 20
  if s3.mgmt.axPend.any (fun p => p.scope = q.scope) then s3 else s3.releaseToken kSUBST q.scope

/-- The attempt that Axolotl may make now: the oldest of the kind, scope and unit, while it holds the token. -/
def State.axReady (s : State) (kind scope unit : Nat) : Option AxReq :=
  if s.holds kSUBST scope then
    s.mgmt.axPend.find? fun q => q.kind = kind && q.scope = scope && q.unit = unit && !q.started
  else none

/-- A SUBST_CMD that Axolotl issued in a cluster has its result (R473). -/
def State.axEngEnd (s : State) (t spare code : Nat) : State :=
  match s.mgmt.axPend.find? fun q => q.kind = 28 && q.scope = t && q.started with
  | some q => s.axEnd q spare code
  | none => s

/-- MT_REQUEST (R468, R471): a slot that is free takes the request; one whose scope its kind does not name completes
INVALID at once. -/
def execMtRequest (by_ : Req) (k : Fin 16) (scope : BitVec 5) (kind : BitVec 4) (tag : Tag) (s : State) :
    Host.Outcome State Fault Refusal :=
  let res := Reg.MGMT.MT_RES k.val
  .next <| s.onWrite by_ 0 fun s =>
    if !s.pathFree res then s.reqDrop 0
    else if !scopeOk kind.toNat scope.toNat then (s.pathPost res 0 tag (2 ^ 27)).evt 0 19
    else
      let s1 := s.pathBusy res 0 tag
      State.arbitrate { s1 with tokenReqs := s1.tokenReqs ++
          [{ kind := kind.toNat, scope := scope.toNat, holder := .slot k.val, tag := tag, byMgmt := reqMgmt by_,
             since := s.clock }] }

/-- MT_ACK (R471): the tag releases a held token and clears VALID, or withdraws the request while BUSY. -/
def execMtAck (by_ : Req) (k : Fin 16) (tag : Tag) (s : State) : Host.Outcome State Fault Refusal :=
  let res := Reg.MGMT.MT_RES k.val
  .next <| s.onWrite by_ 0 fun s =>
    if (s.rbit res 31 || s.rbit res 30) && s.pathTag res 0 = tag then
      State.arbitrate { s.wr res 0 with
        tokens := s.tokens.filter fun q => q.holder != Holder.slot k.val,
        tokenReqs := s.tokenReqs.filter fun q => q.holder != Holder.slot k.val }
    else s

/-- HW_TOKEN_REQUEST (R468, R470): hardware asks for a token, or releases one. A scope the kind does not name is never
asked for. -/
def execHwTokenRequest (kind : BitVec 4) (scope : BitVec 5) (release : Bool) (s : State) :
    Host.Outcome State Fault Refusal :=
  .next <|
    if release then s.releaseToken kind.toNat scope.toNat
    else if scopeOk kind.toNat scope.toNat then s.askToken kind.toNat scope.toNat else s

/-- Whether a request has waited its age: MAINT_CTL.AGE_MS, 0 acting as 1, or 8 µs for RETRAIN (R470). -/
def State.tokenOld (s : State) (q : Token) : Bool :=
  let age := if q.kind = kRETRAIN then 8 * 500 else max 1 (s.rf Reg.MGMT.MAINT_CTL 15 0) * 500000
  q.since + age ≤ s.clock

/-- Age the `n`th pending request, by arrival, where it has waited long enough, and pass again (R470). -/
def State.ageToken (s : State) (n : Nat) : State :=
  State.arbitrate { s with
    tokenReqs := s.tokenReqs.mapIdx fun i q => if i = n && s.tokenOld q then { q with aged := true } else q }

/-- TOKEN_AGED (R470). -/
def execTokenAged (n : Nat) (s : State) : Host.Outcome State Fault Refusal := .next (s.ageToken n)

end Sys2Proof.Machine
end

