-- ==== Sys2Proof/Machine/Store.lean ====
section
/-! DEFINITION. The central store: block metadata, reads and writes of hardware, pools, the allocator, mailboxes and the
scrubber (R307 to R325). -/

namespace Sys2Proof.Machine

/-! Sets of units as disjoint runs (first, count) in order. -/

/-- A unit lies in one of the runs. -/
def segMem (l : List (Nat × Nat)) (u : Nat) : Bool := l.any fun p => p.1 ≤ u && u < p.1 + p.2

/-- Take the units `lo` to `lo + n - 1` out of the runs. -/
def segDel (l : List (Nat × Nat)) (lo n : Nat) : List (Nat × Nat) :=
  (l.flatMap fun p => [(p.1, min p.2 (lo - p.1)), (max p.1 (lo + n), p.1 + p.2 - max p.1 (lo + n))]).filter fun p => p.2 != 0

/-- Put a run that meets no other into the runs, joined with its neighbours. -/
def segIns : List (Nat × Nat) → Nat → Nat → List (Nat × Nat)
  | [], lo, n => [(lo, n)]
  | (a, c) :: m, lo, n =>
    if lo + n < a then (lo, n) :: (a, c) :: m
    else if a + c < lo then (a, c) :: segIns m lo n
    else segIns m (min a lo) (max (a + c) (lo + n) - min a lo)

/-- Put the units `lo` to `lo + n - 1` into the runs. -/
def segAdd (l : List (Nat × Nat)) (lo n : Nat) : List (Nat × Nat) := segIns (segDel l lo n) lo n

/-! Ports (R308). -/

/-- The store port of a tile; STORE's own accesses use port 17. -/
def portOf (tile : Nat) : Nat :=
  match tile with
  | 0 => 15 | 2 => 0 | 3 => 1 | 4 => 2 | 5 => 3 | 6 => 4 | 7 => 5 | 9 => 6 | 10 => 7 | 11 => 8 | 12 => 9 | 13 => 10
  | 14 => 11 | 15 => 12 | 16 => 13 | 17 => 14 | _ => 17

/-- The tile behind a store port; ports 16 and 17 are STORE's own. -/
def portTile (port : Nat) : Nat :=
  match port with
  | 0 => 2 | 1 => 3 | 2 => 4 | 3 => 5 | 4 => 6 | 5 => 7 | 6 => 9 | 7 => 10 | 8 => 11 | 9 => 12 | 10 => 13 | 11 => 14
  | 12 => 15 | 13 => 16 | 14 => 17 | 15 => 0 | _ => 8

/-- Replace the store's hidden state. -/
def State.modStore (s : State) (f : Store → Store) : State := { s with store := f s.store }

/-! Failure records (R316, R323, R325). -/

/-- Write failure record number ERR_SEQ (R323). -/
def State.errLog (s : State) (kind port addr : Nat) : State :=
  let n := (s.rd Reg.STORE.ERR_SEQ).toNat
  ((s.wr (Reg.STORE.ERR_LOG_W0 (n % 16)) (wd (kind * 2 ^ 29 + port * 2 ^ 24 + addr / 2 ^ 32 % 256))).wr
    (Reg.STORE.ERR_LOG_W1 (n % 16)) (wd addr)).wr Reg.STORE.ERR_SEQ (wd (n + 1))

/-- A free error (R316): logged, counted, cause 0x82. -/
def State.freeErr (s : State) (port addr : Nat) : State :=
  (((s.errLog 3 port addr).sat Reg.STORE.STORE_CNT0 15 8 1).recordErr 8 0x82 port 3 addr false).evt 8 20

/-- Set the retirement bit of a page and count it (R342). -/
def State.retirePage (s : State) (page : Nat) : State :=
  if tget (fun _ => false) s.store.retired page then s
  else
    (s.modStore fun x => { x with retired := tput (fun _ => false) x.retired page true }).wf
      Reg.STORE.REPAIR_STATUS 31 10 (s.rf Reg.STORE.REPAIR_STATUS 31 10 + 1)

/-- An uncorrectable sector is met (R320): a record of kind 1, cause 0x80, and automatic retirement of a data page that
a read meets (R342). -/
def State.eccFail (s : State) (port addr : Nat) (isRead : Bool) : State :=
  let s1 := (((s.errLog 1 port addr).uncorrInc 8).recordErr 8 0x80 port 1 addr false).evt 8 19
  if isRead && s.rbit Reg.STORE.DRAM_CTL 29 && addr < storeEnd then s1.retirePage (addr / 2048) else s1

/-- Uncorrectable metadata is met (R320): a record of kind 5, cause 0x83. -/
def State.metaFail (s : State) (port addr : Nat) : State :=
  (((s.errLog 5 port addr).uncorrInc 8).recordErr 8 0x83 port 5 addr false).evt 8 19

/-- A block check fails (R323): a record of kind 2, cause 0x81 with the block's address. -/
def State.checkFail (s : State) (port addr : Nat) : State :=
  ((((s.errLog 2 port addr).sat Reg.STORE.STORE_CNT0 31 16 1).uncorrInc 8).recordErr 8 0x81 port 2 addr false).evt 8 18

/-! Reads and writes. -/

/-- Numbers from `lo` to `hi`. -/
def span (lo hi : Nat) : List Nat := (List.range (hi + 1 - lo)).map fun i => lo + i

/-- A truth table of the store. -/
def tflag (m : Tbl Bool) (k : Nat) : Bool := tget (fun _ => false) m k

/-- What a read of `n` bytes meets first: 1 an uncorrectable sector, 5 uncorrectable metadata, 2 a failed check of a
WRITTEN block covered whole, or touched while CHECK_ALL is 1 (R320, R322); an ECC failure hides a check failure (R323). -/
def State.readFault (s : State) (a n : Nat) : Option (Nat × Nat) :=
  let x := s.store
  let last := a + n - 1
  match (span (a / 32) (last / 32)).find? (tflag x.secBad ·) with
  | some q => some (1, 32 * q)
  | none =>
    let blks := span (a / 256) (last / 256)
    match blks.find? (tflag x.metaBad ·) with
    | some b => some (5, 256 * b)
    | none =>
      let whole := fun b => a ≤ 256 * b && 256 * b + 256 ≤ a + n
      (blks.find? fun b => tflag x.chkBad b && tflag x.written b
        && (whole b || s.rbit Reg.STORE.STORE_CTL 31)).map fun b => (2, 256 * b)

/-- The effects of an uncorrectable-data response. -/
def State.readFailed (s : State) (port : Nat) : Nat × Nat → State
  | (1, a) => s.eccFail port a true
  | (5, a) => s.metaFail port a
  | (_, a) => s.checkFail port a

/-- A read by hardware of `n` bytes of the store: whether the data is good, and the state after it (R309, R323). -/
def State.storeRead (s : State) (port a n : Nat) : State × Bool :=
  if !s.storeUp then ((s.earlyRead 8).recordErr (portTile port) 8 noUnit 0 a false, false)
  else if storeEnd < a + n then (s.recordErr (portTile port) 8 noUnit 0 a false, false)
  else match s.readFault a n with
    | none => (s, true)
    | some f => (s.readFailed port f, false)

/-- A write reaches a block (R316, R321): the generation moves; a whole-block write makes a fresh check; a write to a FREE
block is performed, logged and reported. -/
def State.touchBlock (s : State) (port a n b : Nat) : State :=
  let whole := a ≤ 256 * b && 256 * b + 256 ≤ a + n
  let isFree := [0, 1, 2, 3].all fun i => segMem s.store.free (4 * b + i)
  let s1 := s.modStore fun x => { x with
    gen := tput (fun _ => 0) x.gen b ((tget (fun _ => 0) x.gen b + 1) % 256)
    written := if whole then tput (fun _ => false) x.written b true else x.written
    chkBad := if whole then tput (fun _ => false) x.chkBad b false else x.chkBad }
  if isFree then
    ((s1.errLog 4 port (256 * b)).sat Reg.STORE.STORE_CNT0 7 0 1).recordErr 8 0x82 port 4 (256 * b) false
  else s1

/-- A write reaches a sector (R320): covered whole, it replaces a bad code; covered in part, an uncorrectable sector is
stored poisoned and reported, and stays so. A pending corrective write of the sector is discarded. -/
def State.touchSector (s : State) (port a n q : Nat) : State :=
  let s1 := s.modStore fun x => { x with wbPend := x.wbPend.filter (· != q) }
  if a ≤ 32 * q && 32 * q + 32 ≤ a + n then s1.modStore fun x => { x with secBad := tput (fun _ => false) x.secBad q false }
  else if tflag s1.store.secBad q then s1.eccFail port (32 * q) false else s1

/-- The effects of a write on the metadata of the sectors and blocks it reaches. -/
def State.touch (s : State) (port a n : Nat) : State :=
  if n = 0 then s
  else
    let s1 := (span (a / 32) ((a + n - 1) / 32)).foldl (fun s q => s.touchSector port a n q) s
    (span (a / 256) ((a + n - 1) / 256)).foldl (fun s b => s.touchBlock port a n b) s1

/-- A write by hardware of a port to the store: a decode error where STORE does not serve it or the range leaves the store
(R25, R309). -/
def State.storeWrite (s : State) (port a : Nat) (bs : List Byte) : State :=
  if !s.storeUp then (s.earlyWrite 8).recordErr (portTile port) 8 noUnit 0 a false
  else if storeEnd < a + bs.length then s.recordErr (portTile port) 8 noUnit 0 a false
  else (s.touch port a bs.length).wbytes a bs

/-! Pools (R311, R312). -/

/-- A pool's free list. -/
def State.pool (s : State) (p : Nat) : Pool := tget (fun _ => {}) s.store.pools p
/-- Replace a pool's free list. -/
def State.setPool (s : State) (p : Nat) (x : Pool) : State :=
  s.modStore fun st => { st with pools := tput (fun _ => {}) st.pools p x }

/-- A pool is initialised. -/
def State.poolEn (s : State) (p : Nat) : Bool := s.rbit (Reg.STORE.POOL_W2 p) 31
/-- A pool hands out descriptors. -/
def State.poolDesc (s : State) (p : Nat) : Bool := s.rbit (Reg.STORE.POOL_W2 p) 30
/-- First block of a pool. -/
def State.poolBase (s : State) (p : Nat) : Nat := s.rf (Reg.STORE.POOL_W0 p) 24 0
/-- Blocks of a pool. -/
def State.poolSize (s : State) (p : Nat) : Nat := s.rf (Reg.STORE.POOL_W1 p) 24 0
/-- Free units of a pool. -/
def State.poolFree (s : State) (p : Nat) : Nat := s.rf (Reg.STORE.POOL_W3 p) 25 0

/-- Blocks of the store (R307). -/
def storeBlocks : Nat := 30932992

/-- Whether two ranges of blocks overlap. -/
def rangesMeet (a n b m : Nat) : Bool := a < b + m && b < a + n

/-- The pool whose enabled range holds a block. -/
def State.poolAt (s : State) (b : Nat) : Option Nat :=
  (List.range 64).find? fun p => s.poolEn p && s.poolBase p ≤ b && b < s.poolBase p + s.poolSize p

/-- Whether the block lies on a retired page: eight blocks a page (R342). -/
def State.onRetired (s : State) (b : Nat) : Bool := tflag s.store.retired (b / 8)

/-- The 64-byte units of a unit of a pool: its first and how many. -/
def unitRange (desc : Bool) (u : Nat) : Nat × Nat := if desc then (u, 1) else (4 * u, 4)

/-- The block a unit lies in. -/
def unitBlock (desc : Bool) (u : Nat) : Nat := if desc then u / 4 else u

/-- The first unit of a free list of runs, and the rest. -/
def popRun : List (Nat × Nat) → Option (Nat × List (Nat × Nat))
  | [] => none
  | (a, c) :: m => some (a, if c ≤ 1 then m else (a + 1, c - 1) :: m)

/-- Take the unit at the head of a pool's free list, dropping units on retired pages from the pool (R342); `fuel` bounds
the units dropped. -/
def State.popUnit (s : State) (p : Nat) : Nat → State × Option Nat
  | 0 => (s, none)
  | fuel + 1 =>
    let x := s.pool p
    match popRun x.list with
    | none => (s, none)
    | some (u, rest) =>
      let d := s.poolDesc p
      let s1 := (s.setPool p { x with list := rest }).wf (Reg.STORE.POOL_W3 p) 25 0 (s.poolFree p - 1)
      let s2 := s1.modStore fun st => { st with free := segDel st.free (unitRange d u).1 (unitRange d u).2 }
      if s.onRetired (unitBlock d u) then s2.popUnit p fuel
      else (s2.setPool p { list := rest, out := x.out + 1 }, some u)

/-- Allocate a unit of an enabled pool. FREE falling below LOW × 256 raises POOL_LOW on the allocation that crosses it
(R317). -/
def State.allocUnit (s : State) (p : Nat) : State × Option Nat :=
  if !s.poolEn p then (s, none)
  else
    let r := s.popUnit p (32 * s.store.retired.length + 1)
    let low := s.rf (Reg.STORE.POOL_W2 p) 11 0 * 256
    if r.2.isSome && low ≤ s.poolFree p && r.1.poolFree p < low then (r.1.evt 8 17, r.2) else r

/-- Put a unit back at the end of its pool's list, or drop it where its page is retired (R312, R316); a block with no unit
in use loses WRITTEN (R322). -/
def State.pushUnit (s : State) (p u : Nat) : State :=
  let d := s.poolDesc p
  let x := s.pool p
  if s.onRetired (unitBlock d u) then s.setPool p { x with out := x.out - 1 }
  else
    let b := unitBlock d u
    let s1 := (s.setPool p { list := x.list ++ [(u, 1)], out := x.out - 1 }).wf (Reg.STORE.POOL_W3 p) 25 0 (s.poolFree p + 1)
    s1.modStore fun st =>
      let fr := segAdd st.free (unitRange d u).1 (unitRange d u).2
      let all := [0, 1, 2, 3].all fun i => segMem fr (4 * b + i)
      { st with free := fr, written := if all then tput (fun _ => false) st.written b false else st.written }

/-- Free a data or extension block to a pool, or refuse it as a free error (R316). -/
def State.freeBlock (s : State) (port : Nat) (pool : Option Nat) (b : Nat) : State :=
  match s.poolAt b with
  | none => s.freeErr port (256 * b)
  | some p =>
    if s.poolDesc p || (pool != none && pool != some p) || segMem s.store.free (4 * b) then s.freeErr port (256 * b)
    else s.pushUnit p b

/-! Packet descriptors (R318, R319). -/

/-- A word of a descriptor. -/
def State.dw (s : State) (d i : Nat) : Nat := s.rm (d + 4 * i) 4
/-- Bits of a number. -/
def nbits (w hi lo : Nat) : Nat := w / 2 ^ lo % 2 ^ (hi - lo + 1)

/-- Fields of a descriptor. -/
def State.dNblk (s : State) (d : Nat) : Nat := nbits (s.dw d 2) 31 24
/-- OFS of a descriptor. -/
def State.dOfs (s : State) (d : Nat) : Nat := nbits (s.dw d 2) 23 16
/-- LEN of a descriptor. -/
def State.dLen (s : State) (d : Nat) : Nat := nbits (s.dw d 2) 15 0
/-- EXT of a descriptor. -/
def State.dExt (s : State) (d : Nat) : Bool := nbits (s.dw d 1) 14 14 = 1
/-- REF of a descriptor, 0 acting as 1. -/
def State.dRef (s : State) (d : Nat) : Nat := max 1 (nbits (s.dw d 1) 7 0)

/-- A malformed descriptor (R318). -/
def State.dBad (s : State) (d : Nat) : Bool :=
  s.dNblk d = 0 || (8 < s.dNblk d && !s.dExt d) || min (s.dNblk d * 256) 65280 < s.dOfs d + s.dLen d

/-- The chain of `n` extension blocks from block `b` (R319). -/
def State.extChain (s : State) : Nat → Nat → List Nat
  | 0, _ => []
  | n + 1, b => b :: s.extChain n (nbits (s.rm (256 * b + 252) 4) 24 0)

/-- The extension blocks of a descriptor. -/
def State.dExtBlocks (s : State) (d : Nat) : List Nat :=
  if s.dExt d then s.extChain (max 1 ((s.dNblk d - 7 + 62) / 63)) (nbits (s.dw d 15) 24 0) else []

/-- The data blocks of a descriptor, in order. -/
def State.dBlocks (s : State) (d : Nat) : List Nat :=
  let ext := s.dExtBlocks d
  (List.range (s.dNblk d)).map fun i =>
    if i < 7 || !s.dExt d then nbits (s.dw d (8 + i)) 24 0
    else nbits (s.rm (256 * ext.getD ((i - 7) / 63) 0 + 4 * ((i - 7) % 63)) 4) 24 0

/-- The data bytes of a packet from its OFS (R318). -/
def State.dData (s : State) (d : Nat) : List Byte :=
  (((s.dBlocks d).flatMap fun b => s.rbytes (256 * b) 256).drop (s.dOfs d)).take (s.dLen d)

/-- A port reads a descriptor and the extension blocks that name the first `n` data blocks: whether they are good. A malformed
descriptor is handled as an uncorrectable-data response (R318, R319, R323). -/
def State.descRead (s : State) (port d n : Nat) : State × Bool :=
  let r := s.storeRead port d 64
  if !r.2 || s.dBad d then (r.1, false)
  else ((s.dExtBlocks d).take ((n - 7 + 62) / 63)).foldl (fun p b => if !p.2 then p else p.1.storeRead port (256 * b) 256) r

/-- A port reads the data blocks of a frame from OFS to its end. -/
def State.dataRead (s : State) (port d : Nat) (r : State × Bool) : State × Bool :=
  let ofs := s.dOfs d
  let len := s.dLen d
  (List.range ((ofs + len + 255) / 256)).foldl (fun p i =>
    let lo := if i = 0 then ofs else 0
    let hi := min 256 (ofs + len - 256 * i)
    if !p.2 || hi ≤ lo then p else p.1.storeRead port (256 * (s.dBlocks d).getD i 0 + lo) (hi - lo)) r

/-- A port reads a whole frame: its descriptor, extension blocks and data. -/
def State.frameRead (s : State) (port d : Nat) : State × Bool :=
  let r := s.descRead port d ((s.dOfs d + s.dLen d + 255) / 256)
  if !r.2 then r else s.dataRead port d r

/-- Release one reference to a descriptor (R315, R316): refused whole where its own unit is not an allocated descriptor of
its DPOOL, or it or one of its extension blocks cannot be read; a shared descriptor only loses a reference. -/
def State.freeDesc (s : State) (port d : Nat) : State :=
  if !s.storeUp then s
  else
    let u := d / 64
    match s.poolAt (u / 4) with
    | none => s.freeErr port d
    | some p =>
      if !s.poolDesc p || segMem s.store.free u then s.freeErr port d
      else
        let r := s.storeRead 17 d 64
        if !r.2 || nbits (s.dw d 1) 31 26 != p || s.dBad d then r.1.freeErr port d
        else if 1 < s.dRef d then r.1.storeWrite 17 (d + 4) (le 1 (s.dRef d - 1))
        else match (s.dExtBlocks d).find? fun b => !(s.storeRead 17 (256 * b) 256).2 with
          | some b => (s.storeRead 17 (256 * b) 256).1.freeErr port d
          | none =>
            let bp := nbits (s.dw d 1) 25 20
            let blks := s.dBlocks d ++ s.dExtBlocks d
            (blks.foldl (fun s b => s.freeBlock port (some bp) b) s).pushUnit p u

/-- Allocate `n` units of a pool for a hardware port, units in hand first; on a failure the units already taken are freed
(R313). -/
def State.allocN (s : State) (p : Nat) : Nat → List Nat → State × Option (List Nat)
  | 0, got => (s, some got)
  | n + 1, got =>
    let r := s.allocUnit p
    match r.2 with
    | some u => r.1.allocN p n (got ++ [u])
    | none => (got.foldl (fun s u => s.pushUnit p u) (r.1.sat Reg.STORE.STORE_CNT1 31 16 1), none)

/-- The words of extension blocks: 63 block numbers and the next extension block. -/
def extWords (ext : List Nat) (tail : List Nat) : Nat → List (Nat × List Nat)
  | 0 => []
  | n + 1 =>
    match ext with
    | [] => []
    | e :: es => (e, (tail.take 63 ++ List.replicate (63 - min 63 tail.length) 0) ++ [es.headD 0]) :: extWords es (tail.drop 63) n

/-- A descriptor's sixteen words as a port writes them (R318). -/
def descWords (port dp bp : Nat) (blks ext : List Nat) (ofs len status stamp : Nat) : List Nat :=
  let big := 8 < blks.length
  let direct := if big then blks.take 7 ++ [ext.headD 0] else blks ++ List.replicate (8 - blks.length) 0
  [0, dp * 2 ^ 26 + bp * 2 ^ 20 + port * 2 ^ 15 + b2n big * 2 ^ 14 + 1,
   blks.length * 2 ^ 24 + ofs * 2 ^ 16 + len, status, stamp % 2 ^ 32, 0, 0, 0] ++ direct

/-- A receiving port stores a frame (R313, R318): its blocks, extension blocks and descriptor are allocated from the pools
of PORT_POOL, the data is written at HEADROOM, then the descriptor. None where a pool is empty. -/
def State.rxStore (s : State) (port : Nat) (data : List Byte) (status stamp : Nat) : State × Option Nat :=
  if !s.storeUp then (s, none)
  else
    let pp := s.rd (Reg.STORE.PORT_POOL port)
    let ofs := min 192 (fld pp 23 16)
    let dp := fld pp 13 8
    let bp := fld pp 5 0
    let n := (ofs + data.length + 255) / 256
    let ne := if 8 < n then (n - 7 + 62) / 63 else 0
    let held := tget (fun _ => []) s.store.inHand port
    let s0 := s.modStore fun x => { x with inHand := terase x.inHand port }
    let give := fun (s : State) => held.foldl (fun s h => s.pushUnit (if h % 2 = 1 then dp else bp) (h / 2)) s
    if s.poolDesc bp || !s.poolDesc dp || 255 < n || data.length = 0 then (give s0, none)
    else
      let r := s0.allocN bp (n + ne) []
      match r.2 with
      | none => (give r.1, none)
      | some us =>
        let r2 := r.1.allocN dp 1 []
        match r2.2 with
        | some [d] =>
          let blks := us.take n
          let ext := us.drop n
          let s1 := (List.range n).foldl (fun s i =>
            let chunk := if i = 0 then data.take (256 - ofs) else (data.drop (256 * i - ofs)).take 256
            s.storeWrite port (256 * blks.getD i 0 + if i = 0 then ofs else 0) chunk) r2.1
          let s2 := (extWords ext (blks.drop 7) ne).foldl (fun s e => s.storeWrite port (256 * e.1) (e.2.flatMap (le 4))) s1
          let s3 := s2.storeWrite port (64 * d) ((descWords port dp bp blks ext ofs data.length status stamp).flatMap (le 4))
          (give s3, some (64 * d))
        | _ => (give (us.foldl (fun s u => s.pushUnit bp u) r2.1), none)

/-! Commands. -/

/-- The port of a requester's own accesses. -/
def reqPort (r : Req) : Nat := portOf (reqTile r)

/-- A result of the pool command path: code in bits 29:27, the pool in bits 13:8 (R311). -/
def State.poolPost (s : State) (pool : Nat) (tag : Tag) (code : Nat) : State :=
  (s.pathPost Reg.STORE.POOL_RESULT 0 tag (code * 2 ^ 27 + pool * 2 ^ 8)).evt 8 16

/-- A pool command is taken, or dropped while one is in progress or a result is posted (R132, R311). -/
def State.poolCmd (s : State) (by_ : Req) (f : State → State) : State :=
  s.onWrite by_ 8 fun s => if s.pathFree Reg.STORE.POOL_RESULT then f s else s.reqDrop 8

/-- Whether INIT is refused, and with which code (R311). -/
def State.initRefusal (s : State) (p : Nat) : Option Nat :=
  let b := s.poolBase p
  let n := s.poolSize p
  if s.poolEn p then some 3
  else if n = 0 || storeBlocks < b + n || b = 0 then some 1
  else if (List.range 64).any fun q => s.poolEn q && rangesMeet b n (s.poolBase q) (s.poolSize q) then some 2
  else none

/-- POOL_INIT (R311): refused at once, or in progress until POOL_INIT_DONE. -/
def execPoolInit (by_ : Req) (pool : Fin 64) (tag : Tag) (s : State) : Host.Outcome State Fault Refusal :=
  .next <| s.poolCmd by_ fun s =>
    match s.initRefusal pool.val with
    | some c => s.poolPost pool.val tag c
    | none => (s.pathBusy Reg.STORE.POOL_RESULT 0 tag).modStore fun x => { x with initPool := some pool.val }

/-- The runs of a pool's free list at INIT: its blocks in ascending order without those on retired pages (R311). -/
def initRuns (retired : Tbl Bool) (b n : Nat) : List (Nat × Nat) :=
  retired.foldl (fun l p => segDel l (8 * p.1) 8) [(b, n)]

/-- POOL_INIT_DONE (R311): every block of the range reads generation 0, FREE and not WRITTEN, the free list is linked in
ascending order, and EN sets. -/
def execPoolInitDone (s : State) : Host.Outcome State Fault Refusal :=
  .next <|
    match s.store.initPool with
    | none => s
    | some p =>
      if !s.storeUp then s
      else
        let b := s.poolBase p
        let n := s.poolSize p
        let d := s.poolDesc p
        let runs := initRuns s.store.retired b n
        let list := if d then runs.map fun r => (4 * r.1, 4 * r.2) else runs
        let s1 := (s.modStore fun x => { x with
          initPool := none, gen := tclear x.gen b n, written := tclear x.written b n, chkBad := tclear x.chkBad b n,
          metaBad := tclear x.metaBad b n, free := segAdd x.free (4 * b) (4 * n) }).setPool p { list := list }
        let s2 := s1.wr (Reg.STORE.POOL_W3 p) (wd ((list.map (·.2)).sum))
        (s2.wr (Reg.STORE.POOL_W2 p) (putBit (s2.rd (Reg.STORE.POOL_W2 p)) 31 true)).poolPost p
          (s.pathTag Reg.STORE.POOL_RESULT 0) 0

/-- POOL_DISABLE (R311): IN_USE while a unit is allocated; otherwise EN falls. -/
def execPoolDisable (by_ : Req) (pool : Fin 64) (tag : Tag) (s : State) : Host.Outcome State Fault Refusal :=
  .next <| s.poolCmd by_ fun s =>
    if (s.pool pool.val).out != 0 then s.poolPost pool.val tag 3
    else
      let w2 := Reg.STORE.POOL_W2 pool.val
      (((s.setPool pool.val {}).wr w2 (putBit (s.rd w2) 31 false)).wr (Reg.STORE.POOL_W3 pool.val) 0).poolPost pool.val tag 0

/-- POOL_ILLEGAL_OP (R311). -/
def execPoolIllegalOp (by_ : Req) (pool : Fin 64) (tag : Tag) (s : State) : Host.Outcome State Fault Refusal :=
  .next <| s.poolCmd by_ fun s => s.poolPost pool.val tag 4

/-- POOL_ACK (R28, R311). -/
def execPoolAck (by_ : Req) (tag : Tag) (s : State) : Host.Outcome State Fault Refusal :=
  .next <| s.onWrite by_ 8 fun s => s.pathAck Reg.STORE.POOL_RESULT 0 tag

/-- FREE_DESC (R315). -/
def execFreeDesc (by_ : Req) (val : Word) (s : State) : Host.Outcome State Fault Refusal :=
  .next <| s.onWrite by_ 8 fun s => s.freeDesc (reqPort by_) (64 * fld val 26 0)

/-- FREE_BLK (R315). -/
def execFreeBlk (by_ : Req) (val : Word) (s : State) : Host.Outcome State Fault Refusal :=
  .next <| s.onWrite by_ 8 fun s => if s.storeUp then s.freeBlock (reqPort by_) none (fld val 24 0) else s

/-- HW_ALLOC (R313): a receiving port takes one unit for the frame in hand, kept as twice the unit plus 1 for a descriptor;
a failure frees the units already taken and is counted while the allocator runs. -/
def execHwAlloc (port : Fin 18) (desc : Bool) (s : State) : Host.Outcome State Fault Refusal :=
  .next <|
    let pp := s.rd (Reg.STORE.PORT_POOL port.val)
    let dp := fld pp 13 8
    let bp := fld pp 5 0
    let held := tget (fun _ => []) s.store.inHand port.val
    let drop := fun (s : State) => (held.foldl (fun s h => s.pushUnit (if h % 2 = 1 then dp else bp) (h / 2)) s).modStore
      fun x => { x with inHand := terase x.inHand port.val }
    if !([0, 1, 2, 12, 13, 14].contains port.val) then s
    else if !s.storeUp then s.modStore fun x => { x with inHand := terase x.inHand port.val }
    else
      let r := s.allocUnit (if desc then dp else bp)
      match r.2 with
      | some u => r.1.modStore fun x => { x with
          inHand := tput (fun _ => []) x.inHand port.val (held ++ [2 * u + b2n desc]) }
      | none => drop (r.1.sat Reg.STORE.STORE_CNT1 31 16 1)

/-- MB_REQUEST (R314): dropped while a request is pending or a result is posted. -/
def execMbRequest (by_ : Req) (m : Fin 192) (pool : Fin 64) (tag : BitVec 4) (s : State) :
    Host.Outcome State Fault Refusal :=
  .next <| s.onWrite by_ 8 fun s =>
    if s.rbit (Reg.STORE.MB_RES m.val) 31 || (tget (fun _ => none) s.store.mbReq m.val).isSome then
      s.sat Reg.STORE.STORE_CNT1 7 0 1
    else s.modStore fun x => { x with mbReq := tput (fun _ => none) x.mbReq m.val (some (pool.val, tag.toNat)) }

/-- MB_ANSWER (R314): a unit of the pool, or EMPTY where the pool is off, at its reserve or without a unit. -/
def execMbAnswer (m : Fin 192) (s : State) : Host.Outcome State Fault Refusal :=
  .next <|
    match tget (fun _ => none) s.store.mbReq m.val with
    | none => s
    | some (p, tag) =>
      if !s.storeUp then s
      else
        let reserve := s.rf (Reg.STORE.POOL_W2 p) 23 12 * 256
        let r := if s.poolFree p ≤ reserve then (s, none) else s.allocUnit p
        let ans := match r.2 with
          | none => 0
          | some u => if s.poolDesc p then u else 4 * u
        (r.1.modStore fun x => { x with mbReq := tput (fun _ => none) x.mbReq m.val none }).wr (Reg.STORE.MB_RES m.val)
          (wd (2 ^ 31 + tag * 2 ^ 27 + ans))

/-- MB_ACK (R314). -/
def execMbAck (by_ : Req) (m : Fin 192) (tag : BitVec 4) (s : State) : Host.Outcome State Fault Refusal :=
  .next <| s.onWrite by_ 8 fun s =>
    let res := Reg.STORE.MB_RES m.val
    if s.rbit res 31 && s.rf res 30 27 = tag.toNat then s.wr res 0 else s

/-- What the scrubber does with one error it finds (R324): recorded as on a demand read, on port 16. -/
def State.scrubFound (s : State) : ScrubFound → State
  | .sector a =>
    let q := a.toNat / 32
    (s.modStore fun x => { x with secBad := tput (fun _ => false) x.secBad q true }).eccFail 16 (32 * q) true
  | .check a =>
    let b := a.toNat / 256
    if tflag s.store.written b then
      (s.modStore fun x => { x with chkBad := tput (fun _ => false) x.chkBad b true }).checkFail 16 (256 * b)
    else s

/-- The scrubber may read its next chunk (R324): the first of a pass when PERIOD_H hours have passed since the last pass began (DEDUCED,
log entry 63), every other at once. -/
def State.scrubDue (s : State) : Bool :=
  s.rf Reg.STORE.SCRUB_STATUS 15 0 != 0 || (match s.store.passAt with
    | none => true
    | some t => t + max 1 (s.rf Reg.STORE.SCRUB_CTL 7 0) * 1800000000000 ≤ s.clock)

/-- The first chunk begins a pass. -/
def State.scrubBegin (s : State) : State :=
  if s.rf Reg.STORE.SCRUB_STATUS 15 0 = 0 then s.modStore fun x => { x with passAt := some s.clock } else s

/-- SCRUB_CHUNK (R324): under a token, one chunk is read and corrected; a chunk without the token waits for it. -/
def execScrubChunk (corrected : Nat) (found : List ScrubFound) (s : State) : Host.Outcome State Fault Refusal :=
  .next <|
    if !s.rbit Reg.STORE.SCRUB_CTL 31 || !s.storeUp || !s.scrubDue then s
    else
      let s1 := s.askToken kSCRUB 8
      if !s1.holds kSCRUB 8 then s1
      else
        let s2 := found.foldl State.scrubFound
          ((s1.scrubBegin).modTile 8 fun x => { x with corr := min 65535 (x.corr + corrected) })
        let chunk := s2.rf Reg.STORE.SCRUB_STATUS 15 0 + 1
        let s3 := if chunk = 8192 then
            ((s2.wf Reg.STORE.SCRUB_STATUS 15 0 0).sat Reg.STORE.SCRUB_STATUS 31 16 1).evt 8 21
          else s2.wf Reg.STORE.SCRUB_STATUS 15 0 chunk
        s3.releaseToken kSCRUB 8

end Sys2Proof.Machine
end

