-- ==== Sys2Proof/Machine/Crypto.lean ====
section
/-! DEFINITION. The check-value polynomials (R399 to R401) and the ciphers that the spec names by their standards: AES (FIPS
197), GCM (NIST SP 800-38D), CCM* (IEEE 802.15.4) and ChaCha20-Poly1305 (RFC 8439). The ciphers' insides come from those
standards (PRESUMED, log entry 27). -/

namespace Sys2Proof.Machine

/-! Check values (R399). -/

/-- `n` bits of the register update of R399 with the reflected constant `p`. -/
def crcBits (p : Nat) : Nat → Nat → Nat
  | 0, r => r
  | n + 1, r => crcBits p n (if r % 2 = 1 then (r / 2) ^^^ p else r / 2)

/-- One input byte. -/
def crcByte (p r : Nat) (d : Byte) : Nat := crcBits p 8 (r ^^^ d.toNat)

/-- A run of input bytes from a register value. -/
def crcRun (p r : Nat) (l : List Byte) : Nat := l.foldl (crcByte p) r

/-- CRC-32 of bytes. -/
def crc32 (l : List Byte) : Nat := crcRun 0xEDB88320 0xFFFFFFFF l ^^^ 0xFFFFFFFF
/-- CRC-32C of bytes. -/
def crc32c (l : List Byte) : Nat := crcRun 0x82F63B78 0xFFFFFFFF l ^^^ 0xFFFFFFFF
/-- CRC-16/CCITT of bytes. -/
def crc16 (l : List Byte) : Nat := crcRun 0x8408 0 l

/-! AES. Blocks are lists of sixteen octets. -/

/-- Rows of the S-box, sixteen octets each, the first least significant. -/
def sboxRows : List Nat :=
  [0x76abd7fe2b670130c56f6bf27b777c63, 0xc072a49cafa2d4adf04759fa7dc982ca, 0x1531d871f1e5a534ccf73f362693fdb7,
   0x75b227ebe28012079a059618c323c704, 0x842fe329b3d63b52a05a6e1b1a2c8309, 0xcf584c4a39becb6a5bb1fc20ed00d153,
   0xa89f3c507f02f94585334d43fbaaefd0, 0xd2f3ff1021dab6bcf5389d928f40a351, 0x73195d643d7ea7c41744975fec130ccd,
   0xdb0b5ede14b8ee4688902a22dc4f8160, 0x79e4959162acd3c25c2406490a3a32e0, 0x08ae7a65eaf4566ca94ed58d6d37c8e7,
   0x8a8bbd4b1f74dde8c6b4a61c2e2578ba, 0x9e1dc186b95735610ef6034866b53e70, 0xdf2855cee9871e9b948ed9691198f8e1,
   0x16bb54b00f2d99416842e6bf0d89a18c]

/-- SubBytes of one octet. -/
def sbox (x : Nat) : Nat := (sboxRows.getD (x / 16) 0 >>> (8 * (x % 16))) % 256

/-- Multiplication by x in the AES field. -/
def xtime (x : Nat) : Nat := if 128 ≤ x then (2 * x % 256) ^^^ 0x1B else 2 * x

/-- Octet-wise sum of two lists. -/
def xorL (a b : List Nat) : List Nat := List.zipWith (· ^^^ ·) a b

/-- The round constant of step `n`. -/
def rcon : Nat → Nat
  | 0 => 1
  | n + 1 => xtime (rcon n)

/-- Extend a key schedule of four-octet words by `n` words; `nk` is the words of the key. -/
def aesExpand (nk : Nat) : Nat → List (List Nat) → List (List Nat)
  | 0, ws => ws
  | n + 1, ws =>
    let i := ws.length
    let t := ws.getD (i - 1) []
    let t1 := if i % nk = 0 then xorL ((t.drop 1 ++ t.take 1).map sbox) [rcon (i / nk - 1), 0, 0, 0]
      else if 6 < nk && i % nk = 4 then t.map sbox else t
    aesExpand nk n (ws ++ [xorL (ws.getD (i - nk) []) t1])

/-- A list in groups of `k`, `n` of them. -/
def groups {α : Type} (k : Nat) : Nat → List α → List (List α)
  | 0, _ => []
  | n + 1, l => l.take k :: groups k n (l.drop k)

/-- The round keys of a key of sixteen or thirty-two octets. -/
def aesKeys (key : List Nat) : List (List Nat) :=
  let nk := key.length / 4
  let ws := aesExpand nk (4 * (nk + 7) - nk) (groups 4 nk key)
  (groups 4 (nk + 7) ws).map List.flatten

/-- ShiftRows on octets stored by column. -/
def shiftRows (b : List Nat) : List Nat := (List.range 16).map fun i => b.getD ((i + 4 * (i % 4)) % 16) 0

/-- MixColumns on octets stored by column. -/
def mixColumns (b : List Nat) : List Nat :=
  (List.range 16).map fun i =>
    let g := fun k => b.getD (i / 4 * 4 + (i + k) % 4) 0
    xtime (g 0) ^^^ (xtime (g 1) ^^^ g 1) ^^^ g 2 ^^^ g 3

/-- The rounds after the first key. -/
def aesRounds : List (List Nat) → List Nat → List Nat
  | [], b => b
  | [k], b => xorL (shiftRows (b.map sbox)) k
  | k :: ks, b => aesRounds ks (xorL (mixColumns (shiftRows (b.map sbox))) k)

/-- Encrypt one block. -/
def aes (keys : List (List Nat)) (b : List Nat) : List Nat :=
  match keys with
  | [] => b
  | k :: ks => aesRounds ks (xorL b k)

/-- `n` octets of a number, most significant first. -/
def beN (n v : Nat) : List Nat := (le n v).reverse.map (·.toNat)

/-- Pad with zeros to a multiple of sixteen. -/
def pad16 (l : List Nat) : List Nat := l ++ List.replicate ((16 - l.length % 16) % 16) 0

/-- The first `n` octets of a key stream by counter block. -/
def ctrStream (block : Nat → List Nat) (n : Nat) : List Nat :=
  ((List.range ((n + 15) / 16)).flatMap fun i => block (i + 1)).take n

/-! CCM*. -/

/-- CBC-MAC over blocks. -/
def cbcMac (keys : List (List Nat)) (l : List Nat) : List Nat :=
  (groups 16 (l.length / 16) l).foldl (fun x b => aes keys (xorL x b)) (List.replicate 16 0)

/-- The tag of CCM* with a two-octet length field, before it is cut: authentication field summed with the first key block. -/
def ccmTag (keys : List (List Nat)) (nonce aad msg : List Nat) (m : Nat) : List Nat :=
  let b0 := [(if aad = [] then 0 else 64) + (if m = 0 then 0 else 8 * ((m - 2) / 2)) + 1] ++ nonce ++ beN 2 msg.length
  let a := if aad = [] then [] else pad16 (beN 2 aad.length ++ aad)
  xorL (cbcMac keys (b0 ++ a ++ pad16 msg)) (aes keys ([1] ++ nonce ++ [0, 0]))

/-- Encryption and decryption of CCM*. -/
def ccmCrypt (keys : List (List Nat)) (nonce msg : List Nat) : List Nat :=
  xorL msg (ctrStream (fun i => aes keys ([1] ++ nonce ++ beN 2 i)) msg.length)

/-! GCM. -/

/-- A number from octets, most significant first. -/
def ofBe (l : List Nat) : Nat := l.foldl (fun a b => a * 256 + b) 0

/-- The product of GHASH: `n` bits of `x` are left, the most significant first. -/
def gmul (x : Nat) : Nat → Nat → Nat → Nat
  | 0, _, z => z
  | n + 1, v, z =>
    gmul x n (if v % 2 = 1 then (v / 2) ^^^ (0xE1 * 2 ^ 120) else v / 2) (if x.testBit n then z ^^^ v else z)

/-- GHASH under a hash key. -/
def ghash (h : Nat) (l : List Nat) : Nat :=
  (groups 16 (l.length / 16) l).foldl (fun y b => gmul (y ^^^ ofBe b) 128 h 0) 0

/-- Encryption and decryption of GCM with a twelve-octet nonce. -/
def gcmCrypt (keys : List (List Nat)) (nonce msg : List Nat) : List Nat :=
  xorL msg (ctrStream (fun i => aes keys (nonce ++ beN 4 (i + 1))) msg.length)

/-- The tag of GCM over a ciphertext. -/
def gcmTag (keys : List (List Nat)) (nonce aad ct : List Nat) : List Nat :=
  let h := ofBe (aes keys (List.replicate 16 0))
  let s := ghash h (pad16 aad ++ pad16 ct ++ beN 8 (8 * aad.length) ++ beN 8 (8 * ct.length))
  xorL (beN 16 s) (aes keys (nonce ++ [0, 0, 0, 1]))

/-! ChaCha20-Poly1305. -/

/-- A little-endian number of octets. -/
def ofLe (l : List Nat) : Nat := l.foldr (fun b a => b + 256 * a) 0

/-- Left rotation of a 32-bit word. -/
def rotl32 (x n : Nat) : Nat := (x * 2 ^ n) % 2 ^ 32 + x / 2 ^ (32 - n)

/-- The quarter round on words a, b, c, d of a state. -/
def quarter (st : List Nat) (a b c d : Nat) : List Nat :=
  let g := fun (l : List Nat) i => l.getD i 0
  let stp := fun (l : List Nat) x y z n =>
    let v := (g l x + g l y) % 2 ^ 32
    (l.set x v).set z (rotl32 (g l z ^^^ v) n)
  stp (stp (stp (stp st a b d 16) c d b 12) a b d 8) c d b 7

/-- A double round. -/
def doubleRound (st : List Nat) : List Nat :=
  [(0, 4, 8, 12), (1, 5, 9, 13), (2, 6, 10, 14), (3, 7, 11, 15), (0, 5, 10, 15), (1, 6, 11, 12), (2, 7, 8, 13),
    (3, 4, 9, 14)].foldl (fun s q => quarter s q.1 q.2.1 q.2.2.1 q.2.2.2) st

/-- The key stream block of a counter. -/
def chachaBlock (key nonce : List Nat) (ctr : Nat) : List Nat :=
  let st := [0x61707865, 0x3320646E, 0x79622D32, 0x6B206574] ++ (groups 4 8 key).map ofLe ++ [ctr] ++ (groups 4 3 nonce).map ofLe
  let w := (List.range 10).foldl (fun s _ => doubleRound s) st
  (List.zipWith (fun a b => (a + b) % 2 ^ 32) w st).flatMap fun v => (le 4 v).map (·.toNat)

/-- Encryption and decryption of ChaCha20 from block 1. -/
def chachaCrypt (key nonce msg : List Nat) : List Nat :=
  xorL msg (((List.range ((msg.length + 63) / 64)).flatMap fun i => chachaBlock key nonce (i + 1)).take msg.length)

/-- Poly1305 of octets under a one-time key. -/
def poly1305 (key msg : List Nat) : List Nat :=
  let r := ofLe (key.take 16) &&& 0x0FFFFFFC0FFFFFFC0FFFFFFC0FFFFFFF
  let a := (groups 16 ((msg.length + 15) / 16) msg).foldl (fun a b => (a + ofLe (b ++ [1])) * r % (2 ^ 130 - 5)) 0
  (le 16 (a + ofLe (key.drop 16))).map (·.toNat)

/-- The tag of ChaCha20-Poly1305 over a ciphertext. -/
def chachaTag (key nonce aad ct : List Nat) : List Nat :=
  poly1305 ((chachaBlock key nonce 0).take 32)
    (pad16 aad ++ pad16 ct ++ (le 8 aad.length ++ le 8 ct.length).map (·.toNat))

end Sys2Proof.Machine
end

