-- ==== Sys2Proof/Machine/RadioBase.lean ====
section
/-! DEFINITION. What every part of a radio tile uses: its hidden state, chains and enables, sequencer events, placement of
the radios, links, PPDU records, transmit completions and Towpath tables (R109 to R122, R143 to R158, R181, R204, R265,
R274, R283). -/

namespace Sys2Proof.Machine

open Reg

/-- The tile of a radio. -/
abbrev rTile (r : Nat) : Nat := r + 2

/-- Device address of an offset in a tile's local memory window (R23, R24). -/
def lm (tile off : Nat) : Nat := 0x2000000000 + tile * 0x10000000 + off

/-- The hidden state of a radio. -/
def State.radio (s : State) (r : Nat) : Radio := tget (fun _ => {}) s.radios r
/-- Replace it. -/
def State.setRadio (s : State) (r : Nat) (x : Radio) : State := { s with radios := tput (fun _ => {}) s.radios r x }
/-- Change it. -/
def State.modRadio (s : State) (r : Nat) (f : Radio → Radio) : State := s.setRadio r (f (s.radio r))

/-- RF_TUNED.LOCKED. -/
def State.locked (s : State) (r : Nat) : Bool := s.rbit (RADIO.RF_TUNED r) 31
/-- RF_TUNED.TUNING. -/
def State.tuning (s : State) (r : Nat) : Bool := s.rbit (RADIO.RF_TUNED r) 30
/-- Band tuned: 0 2.4 GHz, 1 5 GHz, 2 6 GHz. -/
def State.band (s : State) (r : Nat) : Nat := s.rf (RADIO.RF_TUNED r) 25 24
/-- Width tuned, coded as RF_CHAN.WIDTH. -/
def State.width (s : State) (r : Nat) : Nat := s.rf (RADIO.RF_TUNED r) 28 26

/-! Chains (R119, R121). -/

/-- State of a chain: 0 ACTIVE, 1 OFF, 2 LOST, 3 ABSENT. -/
def State.chain (s : State) (r n : Nat) : Nat := s.rf (RADIO.CHAIN_STATUS r n) 31 30

/-- The chains whose state satisfies a test, as a mask. -/
def State.chainsIn (s : State) (r : Nat) (f : Nat → Bool) : Nat :=
  ((List.range 8).map fun n => if f (s.chain r n) then 2 ^ n else 0).sum

/-- The ACTIVE chains, as a mask. -/
def State.activeMask (s : State) (r : Nat) : Nat := s.chainsIn r (· = 0)

/-- Ones in the low eight bits. -/
def pop8 (m : Nat) : Nat := (List.range 8).countP fun n => m.testBit n

/-- Byte of a station context in MLINK's memory (R215). -/
def ctxAddr (scid off : Nat) : Nat := lm 5 (0x100000 + 1024 * scid + off)

/-- The stream limit of the installed link records on a radio follows its ACTIVE chains (R208). -/
def State.syncStreams (s : State) (r : Nat) : State :=
  let nss := pop8 (s.activeMask r)
  s.mlink.addrs.foldl (fun s e =>
    if e.1 / 1024 = r && e.2.isSome then
      let scid := e.1 % 1024
      let m := ((tget (fun _ => []) s.mlink.shadow scid).getD (132 + 64 * r) 0).toNat
      s.wb (ctxAddr scid (131 + 64 * r)) (BitVec.ofNat 8 (min (clampN 1 8 m) nss))
    else s) s

/-- RF_CHAINS, MAC_CAP and the link records show the chains as they stand (R121, R208). -/
def State.syncChains (s : State) (r : Nat) : State :=
  let act := s.activeMask r
  ((s.wr (RADIO.RF_CHAINS r) (wd (act + s.chainsIn r (· = 1) * 2 ^ 8 + s.chainsIn r (2 ≤ ·) * 2 ^ 16))).wr (RADIO.MAC_CAP r)
    (wd (pop8 act))).syncStreams r

/-- Put the chains of a mask into a state. -/
def State.setChains (s : State) (r mask st : Nat) : State :=
  ((List.range 8).foldl (fun s n =>
    if mask.testBit n then s.wf (RADIO.CHAIN_STATUS r n) 31 30 st else s) s).syncChains r

/-- Temperature of a radio's chains in whole °C: that of its tile's sensor (R465), rounded up as TJ is (DEDUCED, log entry
56). -/
def State.chainTemp (s : State) (r : Nat) : Int :=
  let v := s.rd (MGMT.TEMP (6 + r))
  if bit v 31 then (sval 16 (fld v 15 0) + 3) / 4 else 0

/-- The tile's first READY after RESET: populated chains are ABSENT, the others OFF (R119, R120); the periods of health polls, of
calibration rounds and of the loading engine count from there (DESIGN CHOICE, log entry 56). -/
def State.chainsAtReady (s : State) (r : Nat) : State :=
  let exp := s.rf (RADIO.RF_BOARD r) 15 8
  ((s.setChains r exp 3).setChains r (255 - exp) 1).modRadio r fun x => { x with
    pollAt := s.clock
    loadAt := s.clock
    calAt := [0, 1, 2, 3, 4].foldl (fun t k => tput (fun _ => 0) t k s.clock) x.calAt
    calTemp := [0, 1, 2, 3, 4].foldl (fun t k => tput (fun _ => 0) t k (s.chainTemp r)) x.calTemp }

/-- A write of RF_BOARD changes which chains are populated: a chain no longer populated is OFF, one newly populated is
ABSENT (R119, R120). -/
def State.boardChanged (s : State) (r : Nat) (old new : Word) : State :=
  let a := fld old 15 8
  let b := fld new 15 8
  (s.setChains r (255 - b) 1).setChains r (b &&& (255 - a)) 3

/-! Sequencer events and the action word (R143, R145, R146). -/

/-- The sequencer executes. -/
def State.seqRunning (s : State) (r : Nat) : Bool := s.rbit (RADIO.SEQ_STATUS r) 31

/-- An event occurs on a tick: its latch is set from there on (R143). -/
def State.seqEventAt (s : State) (r e tick : Nat) : State :=
  s.modRadio r fun x => { x with latchAt := tput (fun _ => []) x.latchAt e (tget (fun _ => []) x.latchAt e ++ [tick]) }
/-- An event occurs on the present tick. -/
def State.seqEvent (s : State) (r e : Nat) : State := s.seqEventAt r e s.tick

/-- Event codes of R145. -/
def evED : Nat := 1
/-- QUAL_OK. -/
def evQUAL : Nat := 2
/-- RX_ABORT. -/
def evABORT : Nat := 3
/-- RX_END. -/
def evRXEND : Nat := 4
/-- RX_DECIDED. -/
def evDECIDED : Nat := 5
/-- RESP_DUE. -/
def evRESPDUE : Nat := 6
/-- TXQ_READY. -/
def evTXQ : Nat := 7
/-- TX_END. -/
def evTXEND : Nat := 8
/-- RESP_READY. -/
def evRESPREADY : Nat := 9
/-- SYNTH_LOCK. -/
def evLOCK : Nat := 10
/-- ANCHOR_AT. -/
def evANCHOR : Nat := 11
/-- CTRL. -/
def evCTRL : Nat := 12
/-- MEDIUM_IDLE. -/
def evIDLE : Nat := 13

/-- The action word in force: that of the step in execution, 0 while the sequencer is stopped. -/
def State.act (s : State) (r : Nat) : Nat := if s.seqRunning r then (s.radio r).step.w0 else 0

/-- The radio dozes (R300). -/
def State.dozing (s : State) (r : Nat) : Bool := s.rbit (CLASS.DOZE_W3 r) 31

/-- Enables may be driven: the tile is READY or DRAINING, the synthesiser does not tune, and the radio does not doze (R146,
R300). -/
def State.enabled (s : State) (r : Nat) : Bool := s.live (rTile r) && !s.tuning r && !s.dozing r

/-- The chain mask that TXEN_CMD stands for (R146). -/
def Radio.cmdChains (x : Radio) : Nat :=
  match x.tx.filter (·.onAir) with
  | some t => t.chains
  | none => if x.resp.phase = .sending || x.resp.armed then x.resp.chains else 0

/-- The TXEN lines an action asks for. -/
def State.txAsk (s : State) (r : Nat) : Nat :=
  let a := s.act r
  if a.testBit 16 then (s.radio r).cmdChains else a % 256

/-- FEMx_TXEN_n, as a mask (R122, R146): dropped from a loss of lock to the relock (R117), and held low on a chain under an LO
leakage slice (R126). -/
def State.txen (s : State) (r : Nat) : Nat :=
  let x := s.radio r
  if s.enabled r && x.relock = 0 then
    s.txAsk r &&& s.activeMask r &&& (match x.slice with
      | some (3, n) => 255 - 2 ^ n
      | _ => 255)
  else 0

/-- FEMx_RXEN_n, as a mask: low where TXEN is asked for (R122). -/
def State.rxen (s : State) (r : Nat) : Nat :=
  if s.enabled r then (s.act r / 256 % 256) &&& s.activeMask r &&& (255 - (s.txAsk r % 256)) else 0

/-- Participating chains: receiving and not under a calibration slice (R165). -/
def State.participating (s : State) (r : Nat) : Nat :=
  match (s.radio r).slice with
  | none => s.rxen r
  | some (_, n) => s.rxen r &&& (255 - 2 ^ n)

/-- A transmission or a response is on the air. -/
def State.sending (s : State) (r : Nat) : Bool :=
  let x := s.radio r
  (match x.tx with
    | some t => t.onAir
    | none => false) || x.resp.phase = .sending

/-- A PPDU is in progress, transmitted or received (R121, R131). -/
def State.ppduInProgress (s : State) (r : Nat) : Bool := s.sending r || (s.radio r).rx.phase != .idle

/-! Placement (R112, R113). -/

/-- Channel edges in MHz of a tuned radio: its range, lower edge and upper edge. The widths are 20 MHz times a power of
two. -/
def State.edges (s : State) (r : Nat) : Nat × Nat × Nat :=
  let t := s.rd (RADIO.RF_TUNED r)
  let b := fld t 25 24
  let base := if b = 0 then 2407 else if b = 1 then 5000 else 5950
  let fc := base + 5 * fld t 15 8
  let w := 20 * 2 ^ fld t 28 26
  ((if b = 0 then 0 else 1), fc - w / 2, fc + w / 2)

/-- The relation of two radios: 0 none, 1 STR, 2 NSTR (R112). -/
def State.relation (s : State) (p q : Nat) : Nat :=
  if p = q || !s.locked p || !s.locked q then 0
  else
    let a := s.edges p
    let b := s.edges q
    let lo := if a.2.1 ≤ b.2.1 then a else b
    let hi := if a.2.1 ≤ b.2.1 then b else a
    if a.1 != b.1 then 1
    else if lo.2.2 + 200 ≤ hi.2.1 && s.rbit (RADIO.RF_BOARD p) 31 && s.rbit (RADIO.RF_BOARD q) 31 then 1
    else 2

/-- RF_PLACE of a radio once its pairs with radio `r`, or all its pairs where it is `r`, have been classified (R113). -/
def State.placeWord (s : State) (p r : Nat) : Word :=
  [0, 1, 2].foldl (fun w q => if p = r || q = r then putFld w (2 * q + 1) (2 * q) (s.relation p q) else w) (s.rd (RADIO.RF_PLACE p))

/-- The pairs of a radio are classified anew; PLACE_CHG sets in each radio whose RF_PLACE changes (R113). -/
def State.placeOf (s : State) (r : Nat) : State :=
  [0, 1, 2].foldl (fun s p =>
    let v := s.placeWord p r
    if s.rd (RADIO.RF_PLACE p) = v then s else (s.wr (RADIO.RF_PLACE p) v).evt (rTile p) 19) s

/-- The radios that form an NSTR pair with a radio. -/
def State.nstr (s : State) (r : Nat) : List Nat := [0, 1, 2].filter fun q => s.rf (RADIO.RF_PLACE r) (2 * q + 1) (2 * q) = 2

/-! Commands in a radio and links (R203, R204). -/

/-- What a radio sends or has sent from its commands and not finished: the transmission in progress and the one whose response it
awaits. -/
def Radio.sent (x : Radio) : List TxNow := x.tx.toList ++ (x.mac.await.map (·.tx)).toList
/-- Every command in a radio: queued, or not finished. -/
def Radio.cmds (x : Radio) : List TxCmd := x.txq.flatMap (·.2) ++ x.sent.map (·.cmd)

/-- Change MLINK's hidden state. -/
def State.modMlink (s : State) (f : Mlink → Mlink) : State := { s with mlink := f s.mlink }

/-- A station-TID queue. -/
def State.stq (s : State) (q : Nat) : List QMpdu := tget (fun _ => []) s.mlink.stq q

/-- Replace a station-TID queue; STQ_STAT shows how many MPDUs wait and how many are in flight. -/
def State.setStq (s : State) (q : Nat) (l : List QMpdu) : State :=
  let fl := l.countP (·.flight)
  (s.modMlink fun x => { x with stq := tput (fun _ => []) x.stq q l }).wr (MLINK.STQ_STAT q)
    (wd ((l.length - fl) * 2 ^ 20 + fl * 2 ^ 8))

/-- An MPDU is no longer in flight. -/
def State.landed (s : State) (m : FlightMpdu) : State :=
  s.setStq m.stq ((s.stq m.stq).map fun x => if x.desc = m.desc then { x with flight := false } else x)

/-- A link is no longer UP: the MPDUs sent on it whose outcome is not known may be offered on other links (R203, R207). -/
def State.linkLost (s : State) (l : Nat) : State :=
  ((s.radio l).sent.flatMap (·.cmd.mpdus)).foldl (fun s m => s.landed m) s

/-- LINK_CTL.UP follows the radios; LINK_CHG sets where it changes. -/
def State.syncLinks (s : State) : State :=
  let c := s.rd MLINK.LINK_CTL
  let up := ([0, 1, 2].map fun l => if s.life (rTile l) = .ready && bit c l && s.locked l then 2 ^ l else 0).sum
  if fld c 18 16 = up then s
  else [0, 1, 2].foldl (fun s l => if bit c (16 + l) && !up.testBit l then s.linkLost l else s)
    ((s.wr MLINK.LINK_CTL (putFld c 18 16 up)).evt 5 21)

/-- A link is UP. -/
def State.linkUp (s : State) (l : Nat) : Bool := s.rbit MLINK.LINK_CTL (16 + l)

/-- The lock of a radio changes: its placement and the links follow (R113, R204). -/
def State.lockChanged (s : State) (r : Nat) : State := (s.placeOf r).syncLinks

/-! Pre-distortion (R124, R125). -/

/-- The pre-distortion of a chain in the band tuned: its place in the table of sets. -/
def State.dpdKey (s : State) (r n : Nat) : Nat := 8 * s.band r + n

/-- The pre-distortion of a chain in the band tuned. -/
def State.dpdOf (s : State) (r n : Nat) : Dpd := tget (fun _ => {}) (s.radio r).dpd (s.dpdKey r n)

/-- DPD_STATE of every chain: bypassed under DPD = 0, else reverted, in training, trained or without a set. -/
def State.dpdSync (s : State) (r : Nat) : State :=
  (List.range 8).foldl (fun s n =>
    let d := s.dpdOf r n
    let v := if !s.rbit (RADIO.RF_CAL_CTL r) 26 then 0 else if d.reverted then 3
      else if (s.radio r).slice = some (0, n) then 2 else if d.coefs.isEmpty then 0 else 1
    s.wf (RADIO.CHAIN_STATUS r n) 27 26 v) s

/-- Coefficients of a set: K orders of M taps, and K - 1 of M cross terms, with K = DPD_K from 1 to 5 and M = DPD_M + 1. -/
def State.dpdTerms (s : State) (r : Nat) : Nat :=
  let k := clampN 1 5 (s.rf (RADIO.RF_CAL_CTL r) 25 23)
  let m := s.rf (RADIO.RF_CAL_CTL r) 22 21 + 1
  k * m + (k - 1) * m

/-- A solve succeeds on a chain: a new set is in use and the set it replaces is kept; the coefficients, which software cannot see,
are free (log entry 5). -/
def State.dpdTrain (s : State) (r n : Nat) : State :=
  let d := s.dpdOf r n
  let f := s.free 4096
  ((s.modRadio r fun x => { x with
    captured := x.captured &&& (255 - 2 ^ n)
    dpd := tput (fun _ => {}) x.dpd (s.dpdKey r n)
      { coefs := (List.range (s.dpdTerms r)).map fun i => f / 2 ^ (64 * i) % 2 ^ 64, prev := d.coefs, prevErr := d.err, fresh := true } }).dpdSync
    r).took

/-- The chains of a PPDU at a power in 0.25 dB that pre-distort it (R124). -/
def State.dpdChains (s : State) (r mask : Nat) (power : Int) : Nat :=
  if !s.rbit (RADIO.RF_CAL_CTL r) 26 || power < sval 8 (s.rf (RADIO.RF_CAL_CTL r) 7 0) then 0
  else ((List.range 8).map fun n => if mask.testBit n && !(s.dpdOf r n).coefs.isEmpty then 2 ^ n else 0).sum

/-! PPDU records (R181). -/

/-- Slots of a radio's record ring. -/
def State.rxsSlots (s : State) (r : Nat) : Nat := 2 ^ clampN 6 15 (s.rf (RADIO.RXS_BASE r) 3 0)

/-- Write a record of 64 bytes, its first two bytes SEQ, or drop it where the ring is full or lies outside the store; the
second part is where it was written. -/
def State.rxsWrite (s : State) (r : Nat) (body : List Byte) : State × Option Nat :=
  let n := s.rxsSlots r
  let w := s.rf (RADIO.RXS_WR r) 14 0 % n
  let rd := s.rf (RADIO.RXS_RD r) 14 0 % n
  let base := s.rf (RADIO.RXS_BASE r) 31 4 * 4096
  let seq := (s.radio r).recSeq
  let s1 := s.modRadio r fun x => { x with recSeq := (x.recSeq + 1) % 65536 }
  if (w + 1) % n = rd || storeEnd < base + 64 * n then (s1.sat (RADIO.RXS_DROP r) 31 0 1, none)
  else
    (((s1.storeWrite r (base + 64 * w) ((le 2 seq ++ body).take 64)).wf (RADIO.RXS_WR r) 14 0 ((w + 1) % n)).evt (rTile r) 27,
      some (base + 64 * w))

/-! Towpath tables (R265, R274, R283, R286). -/

/-- A Towpath peer's hidden state. -/
def State.tpPeer (s : State) (r p : Nat) : TpPeer := tget (fun _ => {}) (s.radio r).tp p
/-- Replace it. -/
def State.setTp (s : State) (r p : Nat) (x : TpPeer) : State :=
  s.modRadio r fun y => { y with tp := tput (fun _ => {}) y.tp p x }
/-- Device address of a loading table slot. -/
def tpSlot (r slot : Nat) : Nat := lm (rTile r) (0x400000 + 0x4000 * slot)
/-- STATE of a slot: 0 EMPTY, 1 CURRENT, 2 NEXT. -/
def State.tpSt (s : State) (r slot : Nat) : Nat := (s.rb (tpSlot r slot)).toNat
/-- The slot of a peer's direction, `tx` or receive, that is in a state. -/
def State.tpFind (s : State) (r p : Nat) (tx : Bool) (st : Nat) : Option Nat :=
  (if tx then [4 * p, 4 * p + 1] else [4 * p + 2, 4 * p + 3]).find? fun k => s.tpSt r k = st
/-- Empty a slot: its bytes read zero. -/
def State.tpEmpty (s : State) (r slot : Nat) : State := s.clearMem (tpSlot r slot) 0x4000

/-- Write an event record of FORMAT 10 (R286). -/
def State.tpRecord (s : State) (r kind peer seqTid : Nat) : State :=
  (s.rxsWrite r (le 1 10 ++ le 3 0 ++ le 1 kind ++ le 4 0 ++ le 1 peer ++ le 2 0 ++ le 2 seqTid ++ le 16 0 ++ le 8 s.ns
    ++ le 24 0)).1

/-- Fall back one direction of a peer (R283): its slots are emptied, the pending epoch and the retry state cleared,
FALLBACK counted and a record written. -/
def State.tpFall (s : State) (r p : Nat) (tx : Bool) : State :=
  let st := RADIO.TP_PEER_STAT r p
  let sq := RADIO.TP_PEER_SEQ r p
  let s1 := if tx then (s.tpEmpty r (4 * p)).tpEmpty r (4 * p + 1) else (s.tpEmpty r (4 * p + 2)).tpEmpty r (4 * p + 3)
  let v := s1.rd st
  let v1 := if tx then putFld (putFld (putBit v 31 false) 27 20 0) 11 0 0 else putFld (putFld (putBit v 30 false) 29 28 0) 19 12 0
  let s2 := (s1.wr st v1).wf sq (if tx then 29 else 31) (if tx then 28 else 30) 0
  let x := s2.tpPeer r p
  let s3 := s2.setTp r p { x with
    good := 0, gaveUp := x.gaveUp && tx,
    avg := if tx then x.avg else x.avg.map fun e => (e.1, e.2.map fun v => (v.1, true)) }
  (s3.sat (RADIO.TP_PEER_CNT r p) 15 8 1).tpRecord r 5 p 0

/-- A retune that changes the band, centre or width (R265): every table and noise average of the radio is lost, one
fall-back record for each peer that held a loaded table. -/
def State.tpRetuned (s : State) (r : Nat) : State :=
  (List.range 16).foldl (fun s p =>
    let held := [0, 1, 2, 3].any fun i => s.tpSt r (4 * p + i) != 0
    let s1 := s.setTp r p { s.tpPeer r p with avg := [], good := 0 }
    if held then
      let s2 := (s1.tpFall r p true)
      let v := s2.rd (RADIO.TP_PEER_STAT r p)
      (((s2.tpEmpty r (4 * p + 2)).tpEmpty r (4 * p + 3)).wr (RADIO.TP_PEER_STAT r p)
        (putFld (putFld (putBit v 30 false) 29 28 0) 19 12 0)).wf (RADIO.TP_PEER_SEQ r p) 31 30 0
    else s1) s

/-! Transmit completions (R157). -/

/-- Entries of the completion ring. -/
def State.txcSlots (s : State) (r : Nat) : Nat := 2 ^ clampN 4 10 (s.rf (RADIO.TXC_CTL r) 3 0)
/-- The ring has no free slot. -/
def State.txcFull (s : State) (r : Nat) : Bool :=
  (s.rf (RADIO.TXC_WR r) 9 0 + 1) % s.txcSlots r = s.rf (RADIO.TXC_RD r) 9 0
/-- Device address of a completion record. -/
def State.txcAddr (s : State) (r i : Nat) : Nat := lm (rTile r) ((s.rf (RADIO.TXC_CTL r) 17 4 * 16 + 16 * i) % 0x40000)

/-- A word of a command. -/
def TxCmd.word (c : TxCmd) (i : Nat) : Nat := c.words.getD i 0
/-- A command's TAG. -/
def TxCmd.tag (c : TxCmd) : Nat := c.word 0 % 256

/-- A word of a command's TXVECTOR in parameter memory. -/
def State.tv (s : State) (r : Nat) (c : TxCmd) (i : Nat) : Nat :=
  if c.tvec = [] then s.rm (lm (rTile r) ((0x200000 + c.word 1 % 65536 + 4 * i))) 4 else c.tvec.getD i 0

/-- Words of the user entries of a multi-user TXVECTOR. -/
def State.muUsers (s : State) (r : Nat) (c : TxCmd) : List Nat :=
  (List.range (min 148 (nbits (s.tv r c 0) 16 8))).map fun u => s.tv r c (8 + 2 * u)

/-- A command is a sounding sequence. -/
def State.isSounding (s : State) (r : Nat) (c : TxCmd) : Bool :=
  c.words != [] && nbits (s.tv r c 0) 31 28 = 8 && nbits (s.tv r c 0) 27 25 = 5

/-- A command has the TIM element built (R198). -/
def State.hasTim (s : State) (r : Nat) (c : TxCmd) : Bool :=
  c.words != [] && nbits (s.tv r c 0) 31 28 ≤ 6 && nbits (s.tv r c 1) 10 10 = 1

/-- Write a completion record at TXC_WR; TXC sets (R157, R159). -/
def State.txcPut (s : State) (r : Nat) (rec_ : List Nat) : State :=
  let w := s.rf (RADIO.TXC_WR r) 9 0
  ((s.wwords (s.txcAddr r w) rec_).wf (RADIO.TXC_WR r) 9 0 ((w + 1) % s.txcSlots r)).evt (rTile r) 24

/-- Write the records that wait while the ring has a free slot; a record that finds it full waits for one (DESIGN CHOICE, log
entry 47). -/
def State.txcFlush (s : State) (r : Nat) : List (List Nat) → State
  | [] => s.modRadio r fun x => { x with txcWait := [] }
  | w :: ws => if s.txcFull r then s.modRadio r fun x => { x with txcWait := w :: ws } else (s.txcPut r w).txcFlush r ws

/-- A command completes (R157): its record is written in its turn. A sounding sequence sets SOUND_DONE and counts the stations that
sent no report (R235), and a command with a TIM element sets BCN_TX (R198). The TAG of a command without a record of its own, a
TABLE frame, is free (log entry 5). -/
def State.txComplete (s : State) (r : Nat) (c : TxCmd) (queue status unsent time delay airtime : Nat) : State :=
    let tag := if c.words = [] then s.free 8 else c.tag
    let s := if c.words = [] then s.took else s
    let s := if s.isSounding r c then
        (s.evt 5 24).sat MLINK.SOUND_CNT 15 0 ((s.muUsers r c).countP fun u => !c.heard.contains (u % 1024))
      else if s.hasTim r c then s.evt (rTile r) 31 else s
    let s1 := if status = 1 then s.sat (RADIO.TX_ERR_CNT r) 31 24 1
      else if status = 2 then s.sat (RADIO.TX_ERR_CNT r) 23 16 1 else s
    let w0 := 2 ^ 31 + status * 2 ^ 28 + b2n c.late * 2 ^ 27 + queue * 2 ^ 24 + min 255 unsent * 2 ^ 16 + tag * 2 ^ 8
    s1.txcFlush r ((s1.radio r).txcWait ++ [[w0, time % 2 ^ 32, delay % 2 ^ 32, airtime % 2 ^ 32]])

/-! Station contexts as a beacon's TIM reads them, and the TIM element (R198, R199, R215, R318). -/

/-- Bytes of a station context as they stand in MLINK's memory. -/
def State.ctx (s : State) (scid off n : Nat) : Nat := s.rm (ctxAddr scid off) n
/-- Write bytes of a station context that the hardware owns. -/
def State.ctxPut (s : State) (scid off n v : Nat) : State := s.wm (ctxAddr scid off) n v
/-- Firmware-owned bytes of a context as its last ACTIVATE or REFRESH took them (R215). -/
def State.ctxFw (s : State) (scid off n : Nat) : Nat :=
  let l := ((tget (fun _ => []) s.mlink.shadow scid).drop off).take n
  (l.foldr (fun (b : Byte) a => b.toNat + 256 * a) 0)

/-- Offset of a link record. -/
def linkOff (l : Nat) : Nat := 128 + 64 * l
/-- A flag of a link record: 1 INST, 2 PS, 3 AWAKE, 4 HELD. -/
def State.linkFlag (s : State) (scid l b : Nat) : Bool := (s.ctx scid (linkOff l) 1).testBit b

/-- The descriptors of a transmit chain from an address on (R318). -/
def State.txChain (s : State) : Nat → Nat → List Nat
  | 0, _ => []
  | n + 1, d => d :: (if 2 ^ 31 ≤ s.dw d 0 then s.txChain n (64 * nbits (s.dw d 0) 26 0) else [])

/-- A TID may be sent on a link (R199, R204): TID_LINKS 0 acts as every link. -/
def State.tidMapped (s : State) (scid t r : Nat) : Bool :=
  let m := s.ctxFw scid (16 + t) 1 % 8
  m = 0 || m.testBit r

/-- The TIM bit of an AID in a beacon from a radio (R199): one bound to a FREE or CLOSING context counts as unbound (R218). -/
def State.timBit (s : State) (r a : Nat) : Bool :=
  match tget (fun _ => none) s.mlink.aids a with
  | none => false
  | some (k, _) =>
    s.ctx k 0 1 != 0 && s.ctx k 0 1 != 3 && s.linkFlag k r 1 && ([0, 1, 2].all fun l => !s.linkFlag k l 1 || s.linkFlag k l 2)
      && (List.range 8).any fun t => s.tidMapped k t r && !(s.stq (8 * k + t)).isEmpty

/-- The TIM element with the DTIM count and period of its placeholder (R198); N1 and N2 as IEEE 802.11 has them (PRESUMED, log
entry 52). -/
def State.timElem (s : State) (r count period : Nat) : List Byte :=
  let grp := if count = 0 then (s.rd (RADIO.GRP_PEND r)).toNat else 0
  let on := fun a => if a < 16 then a != 0 && grp.testBit a else s.timBit r a
  let octets := (List.range 251).map fun i => (List.range 8).foldl (fun v j => v + b2n (on (8 * i + j)) * 2 ^ j) 0
  let used := (List.range 251).filter fun i => octets.getD i 0 != 0
  let n1 := used.headD 0 / 2 * 2
  let n2 := used.getLastD 0
  ([5, 4 + (n2 - n1), count, period, n1 + b2n (grp.testBit 0)] ++ (octets.drop n1).take (n2 + 1 - n1)).map (BitVec.ofNat 8)

/-- A command that becomes due has the TIM element built once where its TXVECTOR asks for it; its PSDU grows with the element
(R198). The PSDU of the formats that are always A-MPDUs begins with a delimiter of 4 bytes (PRESUMED, log entry 52). -/
def State.timPatch (s : State) (r : Nat) (c : TxCmd) : TxCmd :=
  let f := nbits (s.tv r c 0) 31 28
  if c.words = [] || c.tim.isSome || 6 < f || nbits (s.tv r c 1) 10 10 = 0 then c
  else
    let ofs := nbits (s.tv r c 2) 31 16 - (if 2 ≤ f && f ≤ 5 then 4 else 0)
    let old := ((s.txChain 16384 (c.word 2 + 2 ^ 32 * (c.word 3 % 256))).flatMap s.dData).drop ofs
    let e := s.timElem r (old.getD 2 0).toNat (old.getD 3 0).toNat
    { c with tim := some e, words := c.words.set 3 ((c.word 3 + 256 * (e.length - 6)) % 2 ^ 32) }

/-! Transmit queues (R151, R152). -/

/-- A transmit queue. -/
def State.txq (s : State) (r q : Nat) : List TxCmd := tget (fun _ => []) (s.radio r).txq q

/-- The duty limit of the thermal stage in force holds a radio's commands back for the rest of the window (R465). -/
def State.dutyFull (s : State) (r : Nat) : Bool :=
  let d := fun n => clampN 1 100 n
  let lim := s.rd MGMT.THERM_LIM
  match s.rf MGMT.THERM_STATUS 31 29 with
  | 0 => false
  | 1 => false
  | 2 => d (fld lim 7 0) * 100000 ≤ (s.radio r).duty
  | _ => d (fld lim 15 8) * 100000 ≤ (s.radio r).duty

/-- Bytes of a command that must be in the transmit buffer before it starts (R152). -/
def TxCmd.lead (c : TxCmd) : Nat := min (c.word 3 / 256) 65536

/-- Replace a transmit queue; TXQ_STATUS shows its depth, the blocks of its head are fetched while the store serves, and a queue 4
head that starts IMMEDIATE is due on reaching the head, marked LATE where the radio holds it (R152, R153). -/
def State.setTxq (s : State) (r q : Nat) (l : List TxCmd) : State :=
  let l0 := match l with
    | c :: cs => { c with fetched := if s.storeUp then c.lead else c.fetched } :: cs
    | [] => []
  let l1 := match l0 with
    | c :: cs =>
      if q = 4 && c.word 0 / 2 ^ 30 = 2 && c.due.isNone && !s.dozing r && !s.dutyFull r then
        s.timPatch r { c with due := some s.tick, late := !s.locked r || s.tuning r || (s.radio r).slice.isSome } :: cs
      else l0
    | [] => []
  (s.modRadio r fun x => { x with txq := tput (fun _ => []) x.txq q l1 }).wf (RADIO.TXQ_STATUS r) (4 * q + 3) (4 * q) l.length

/-- Commands of a queue whose RTS is under way: each keeps its place, to which it returns where no CTS comes (R190, DEDUCED, log
entry 14). -/
def State.txqOut (s : State) (r q : Nat) : Nat := (s.radio r).sent.countP fun t => t.stage = .rts && t.queue = q

/-- Put a command at the end of a queue of at most eight (R151); none where it is full. -/
def State.txqPush (s : State) (r q : Nat) (c : TxCmd) : Option State :=
  if 8 ≤ (s.txq r q).length + s.txqOut r q then none else some (s.setTxq r q (s.txq r q ++ [c]))

/-- A head that is due while the synthesiser or calibration holds the radio is LATE (R153). -/
def State.markLate (s : State) (r : Nat) : State :=
  [0, 1, 2, 3, 4].foldl (fun s q =>
    match s.txq r q with
    | c :: cs => if c.due.isSome then s.setTxq r q ({ c with late := true } :: cs) else s
    | [] => s) s

/-- TXQ_STATUS bits 31 and 30 follow the transmission and the response in progress. -/
def State.syncTxBusy (s : State) (r : Nat) : State :=
  let x := s.radio r
  let v := s.rd (RADIO.TXQ_STATUS r)
  s.wr (RADIO.TXQ_STATUS r) (putBit (putBit v 31 (match x.tx with | some t => t.onAir | none => false)) 30
    (x.resp.phase = .prepared || x.resp.phase = .ready || x.resp.phase = .sending))

/-- Mean of a field of FEM_DELAY over a mask of chains, in nanoseconds: the fields are in units of 10 ps (R419). -/
def State.femDelay (s : State) (r mask hi lo : Nat) : Nat :=
  let l := (List.range 8).filter fun n => mask.testBit n
  if l.isEmpty then 0 else ((l.map fun n => s.rf (RADIO.FEM_DELAY r n) hi lo).sum / l.length + 50) / 100

/-! Fine captures (R430). -/

/-- FTM captures of a radio are posted when every selected one is made. -/
def State.ftmPost (s : State) (r : Nat) : State :=
  let x := s.radio r
  let res := TIME.FTM_W1 r
  let ask := s.rd (TIME.FTM_W0 r)
  if ask = 0 || s.rbit res 31 then s
  else if (bit ask 8 && !x.ftmRx) || (bit ask 9 && !x.ftmTx) then s
  else
    let v := 2 ^ 31 + b2n (bit ask 8) * 2 ^ 30 + b2n (bit ask 9) * 2 ^ 29 + fld ask 7 0 * 2 ^ 16 + s.rf res 15 0
    ((s.wr res (wd v)).wr (TIME.FTM_W0 r) 0).evt 1 20

/-- A PPDU is received past QUAL_OK: an armed capture takes its stamp, fraction and record SEQ. -/
def State.ftmOnRx (s : State) (r stamp frac : Nat) : State :=
  if s.rbit (TIME.FTM_W0 r) 8 && !(s.radio r).ftmRx then
    ((((((s.wr (TIME.FTM_W2 r) (wd stamp)).wr (TIME.FTM_W3 r) (wd (stamp / 2 ^ 32))).wf (TIME.FTM_W6 r) 31 16 frac).wf
      (TIME.FTM_W1 r) 15 0 (s.radio r).recSeq).modRadio r fun x => { x with ftmRx := true })).ftmPost r
  else s

/-- A PPDU or response is transmitted: an armed capture takes its stamp; the fraction is that of the count. -/
def State.ftmOnTx (s : State) (r stamp : Nat) : State :=
  if s.rbit (TIME.FTM_W0 r) 9 && !(s.radio r).ftmTx then
    (((((s.wr (TIME.FTM_W4 r) (wd stamp)).wr (TIME.FTM_W5 r) (wd (stamp / 2 ^ 32))).wf (TIME.FTM_W6 r) 15 0
      (s.ms.frac / 2 ^ 32))).modRadio r fun x => { x with ftmTx := true }).ftmPost r
  else s

end Sys2Proof.Machine
end

