-- ==== Sys2Proof/Machine/Stq.lean ====
section
/-! DEFINITION. Station contexts and station-TID queues as every part of MLINK and the radios uses them (R199, R203, R215,
R220 to R224). -/

namespace Sys2Proof.Machine

open Reg

/-- STATE of a context: 0 FREE, 1 OPEN, 2 ACTIVE, 3 CLOSING. -/
def State.ctxState (s : State) (scid : Nat) : Nat := s.ctx scid 0 1
/-- BSS group of a context. -/
def State.ctxGroup (s : State) (scid : Nat) : Nat := s.ctxFw scid 1 1 % 16
/-- Offset of a per-TID record. -/
def tidOff (t : Nat) : Nat := 320 + 32 * t
/-- Set or clear it. -/
def State.setLinkFlag (s : State) (scid l b : Nat) (v : Bool) : State :=
  let x := s.ctx scid (linkOff l) 1
  s.ctxPut scid (linkOff l) 1 (if v then x ||| 2 ^ b else x &&& (255 - 2 ^ b))

/-- Access category of a TID (R224). -/
def acOfTid (t : Nat) : Nat :=
  match t with
  | 1 => 0 | 2 => 0 | 0 => 1 | 3 => 1 | 4 => 2 | 5 => 2 | _ => 3

/-- TX_SN, the next sequence number to assign. -/
def State.txSn (s : State) (q : Nat) : Nat := s.ctx (q / 8) (tidOff (q % 8) + 8) 2 % 4096

/-- The start of the transmit window follows the oldest numbered MPDU of the queue, TX_SN where there is none (R203,
R223). -/
def State.syncWindow (s : State) (q : Nat) : State :=
  s.ctxPut (q / 8) (tidOff (q % 8) + 10) 2 ((((s.stq q).findSome? fun m => m.seq)).getD (s.txSn q))

/-- Write the transmit status word of an MPDU (R203). -/
def State.txStatusWord (s : State) (r desc : Nat) (acked noResp : Bool) : State :=
  s.storeWrite r (desc + 12) (le 4 (2 ^ 31 + b2n acked * 2 ^ 30 + b2n noResp * 2 ^ 29))

/-- Add to a deficit of a context, kept between the limits of R226 and R229. -/
def State.addDeficit (s : State) (scid off : Nat) (v : Int) : State :=
  let dmax : Int := ((max 1 (s.rf MLINK.SCHED_LIM 15 8) * 1024 : Nat) : Int)
  let d := sval 32 (s.ctx scid off 4) + v
  s.ctxPut scid off 4 (ofInt 32 (max (-dmax) (min dmax d)))

/-- Take an MPDU out of its queue and release its descriptor. -/
def State.stqDrop (s : State) (r : Nat) (m : FlightMpdu) : State :=
  (((s.setStq m.stq ((s.stq m.stq).filter fun x => x.desc != m.desc)).syncWindow m.stq)).freeDesc r m.desc

/-- Another radio's command holds an MPDU, its first link having ceased to be UP (R203). -/
def State.elsewhere (s : State) (r desc : Nat) : Bool :=
  [0, 1, 2].any fun q => q != r && (s.radio q).cmds.any fun c => c.mpdus.any fun m => m.desc = desc

/-- An MPDU is acknowledged on a link (R203): its status is written, it leaves its queue, and the link counts it. One that another
link has taken meanwhile leaves with its outcome there (DEDUCED, log entry 58). -/
def State.stqAcked (s : State) (r : Nat) (m : FlightMpdu) : State :=
  let scid := m.stq / 8
  let s0 := s.txStatusWord r m.desc true false
  let s1 := if s0.elsewhere r m.desc then s0 else s0.stqDrop r m
  s1.ctxPut scid (linkOff r + 20) 4 (s1.ctx scid (linkOff r + 20) 4 + 1)

/-- An MPDU is no longer in flight and stays in its queue (R203, R223); one of a CLOSING context is freed (R218). -/
def State.stqBack (s : State) (r : Nat) (m : FlightMpdu) : State :=
  if s.elsewhere r m.desc then s else if s.ctxState (m.stq / 8) = 3 then s.stqDrop r m else s.landed m

/-- An MPDU was sent and not acknowledged (R203): its status is written and it stays in its queue. -/
def State.stqMissed (s : State) (r : Nat) (noResp : Bool) (m : FlightMpdu) : State :=
  (s.txStatusWord r m.desc false noResp).stqBack r m

/-- A command that completes without sending returns its MPDUs and refunds their bytes (R223). -/
def State.returnMpdus (s : State) (r : Nat) (c : TxCmd) : State :=
  c.mpdus.foldl (fun s m =>
    let s1 := s.stqBack r m
    match c.from_ with
    | .mlink ac => s1.addDeficit (m.stq / 8) (36 + 4 * ac) m.bytes
    | _ => s1) s

/-- The status of a command that the fabric forwarder built goes to the forwarder (R296); a beacon's descriptor returns to its
pool. -/
def State.fabStatus (s : State) (c : TxCmd) (acked : Bool) : State :=
  match c.from_ with
  | .fabric nh fr => { s with fabric := { s.fabric with done := s.fabric.done ++ [(nh, fr, acked)] } }
  | .beacon => s.freeDesc 6 (c.word 2 + 2 ^ 32 * (c.word 3 % 256))
  | _ => s

/-- The transmit status words of a Towpath DATA command (R285). -/
def State.tpStatus (s : State) (r : Nat) (c : TxCmd) (acked noResp : Bool) : State :=
  (s.txChain 16384 (c.word 2 + 2 ^ 32 * (c.word 3 % 256))).foldl (fun s d => s.txStatusWord r d acked noResp) s

/-- A command not started ends with a status: it completes and returns its MPDUs. -/
def State.txUnsent (s : State) (r q : Nat) (c : TxCmd) (status : Nat) : State :=
  ((s.txComplete r c q status 0 0 0 0).returnMpdus r c).fabStatus c false

/-! Receive agreements and their scoreboards (R202, R215). -/

/-- An agreement to receive stands (R215). -/
def State.rxAgreed (s : State) (q : Nat) : Bool := (s.ctxFw (q / 8) (tidOff (q % 8)) 1).testBit 1
/-- RX_BUF of a queue. -/
def State.rxBuf (s : State) (q : Nat) : Nat :=
  let b := s.ctxFw (q / 8) (tidOff (q % 8) + 4) 2
  if b = 0 then 64 else min 1024 b
/-- RX_WSTART of a queue. -/
def State.rxStart (s : State) (q : Nat) : Nat := s.ctx (q / 8) (tidOff (q % 8) + 12) 2 % 4096
/-- Set it. -/
def State.setRxStart (s : State) (q v : Nat) : State := s.ctxPut (q / 8) (tidOff (q % 8) + 12) 2 (v % 4096)

/-- A board. -/
def State.board (s : State) (q : Nat) : RxBoard := tget (fun _ => {}) s.mlink.boards q
/-- Replace it. -/
def State.setBoard (s : State) (q : Nat) (b : RxBoard) : State :=
  s.modMlink fun x => { x with boards := tput (fun _ => {}) x.boards q b }

/-- The scoreboard's window moves to a start; numbers before it are forgotten. -/
def RxBoard.moveTo (b : RxBoard) (start n : Nat) : RxBoard :=
  { b with start := start % 4096, got := b.got.filter fun x => (x + 8192 - start % 4096) % 4096 < n }

/-- A sequence number is recorded in a window of `n`; one beyond it moves the window so that it ends there (R202; the rule of
IEEE 802.11, PRESUMED, log entry 18). -/
def RxBoard.mark (b : RxBoard) (n seq : Nat) : RxBoard :=
  let d := (seq + 4096 - b.start) % 4096
  if 2048 ≤ d then b
  else
    let b1 := if d < n then b else b.moveTo (seq + 4096 - n + 1) n
    { b1 with got := if b1.got.contains seq then b1.got else b1.got ++ [seq] }

/-- What a BlockAck reports of an agreement (R201, R202): the bitmap of 64, 256, 512 or 1,024 bits that covers its window
(PRESUMED, log entry 18). -/
def State.baReport (s : State) (scid tid : Nat) : BaReport :=
  let q := 8 * scid + tid
  let b := s.board q
  let size := ([64, 256, 512].find? fun n => s.rxBuf q ≤ n).getD 1024
  { scid := scid, tid := tid, ssn := b.start, size := size
    bits := ((List.range size).map fun i => if b.got.contains ((b.start + i) % 4096) then 2 ^ i else 0).sum }

/-- The AID that the map binds to a station whose context is not FREE or CLOSING (R197, R218). -/
def State.aidFor (s : State) (scid : Nat) : Option Nat :=
  if s.ctxState scid = 0 || s.ctxState scid = 3 then none
  else (s.mlink.aids.find? fun e => match e.2 with
    | some (k, g) => k = scid && g = s.ctxGroup scid
    | none => false).map (·.1)

/-! Target wake time as the radios see it (R239). -/

/-- The TSF of a radio in microseconds at a Milestone count (R418). -/
def State.tsfAt (s : State) (r ns : Nat) : Nat :=
  let ofs := sval 64 ((s.rd (TIME.TSF_OFS_LO r)).toNat + 2 ^ 32 * (s.rd (TIME.TSF_OFS_HI r)).toNat)
  ofInt 64 (((ns : Int) - ofs).tdiv 1000)

/-- The TSF of a radio in microseconds. -/
def State.tsf (s : State) (r : Nat) : Nat := s.tsfAt r s.ns

/-- The period of a TWT entry in progress. -/
def State.twtRun (s : State) (n : Nat) : Option TwtRun := tget (fun _ => none) s.mlink.twtOn n

/-- A station is a member of the periods of an entry whose word 0 is given. -/
def State.twtMember (s : State) (w : Word) (k : Nat) : Bool :=
  let l := fld w 26 25
  s.ctxState k = 2 && s.linkFlag k l 1 &&
    (if fld w 28 27 = 0 then k = fld w 9 0 else (s.ctxFw k (linkOff l + 32) 4).testBit (fld w 4 0))

/-- A station is a member of a period in progress on a link. -/
def State.twtAwake (s : State) (k l : Nat) : Bool :=
  (List.range 32).any fun n => match s.twtRun n with
    | some p => fld p.w0 26 25 = l && s.twtMember p.w0 k
    | none => false

/-- Word `w` of a TWT entry is written (R239). -/
def State.twtWritten (s : State) (n w : Nat) : State :=
  s.modMlink fun x => { x with
    twtAt := tput (fun _ => 0) x.twtAt n s.ns
    twtFrom := if w = 2 then tput (fun _ => 0) x.twtFrom n s.ns else x.twtFrom }

/-! Ends of PPDUs and aborted receptions (R121, R131, R170, R172, R180). -/

/-- Chains that a loss or CHAIN_OFF takes out of service at the end of the PPDU in progress (R121, R131). -/
def State.chainsAtEnd (s : State) (r : Nat) : State :=
  if s.ppduInProgress r then s
  else
    let x := s.radio r
    let s := if x.tpRst = 0 then s
      else (List.range 16).foldl (fun s p => if x.tpRst.testBit p then (s.tpFall r p true).tpFall r p false else s)
        (s.modRadio r fun y => { y with tpRst := 0 })
    let s1 := if x.lostPend = 0 then s
      else ((s.modRadio r fun y => { y with lostPend := 0 }).setChains r x.lostPend 2).evt (rTile r) 17
    if x.offPend = 0 then s1
    else
      let s2 := (s1.modRadio r fun y => { y with offPend := 0, rf := .idle }).setChains r x.offPend 1
      (s2.pathPost (RADIO.RF_RESULT r) 16 (s2.pathTag (RADIO.RF_RESULT r) 16) (s2.activeMask r)).evt (rTile r) 16

/-- Every gain loop re-arms (R130, R146). -/
def State.agcArm (s : State) (r : Nat) : State :=
  (List.range 8).foldl (fun s n => s.wf (RADIO.CHAIN_STATUS r n) 29 29 0) (s.modRadio r fun x => { x with agc := 0 })

/-- Bytes 2 to 63 of a PPDU record (R181, R286). -/
def recordBody (x : Rx) (m : RxMeas) (reason : Nat) : List Byte :=
  let z : RxSig := {
    format := if x.phase = .dsss then 0 else 1, bw := 0, punct := 0, mcs := 0, coding := 0, giLtf := 0, length := 0, multi := false, excluded := false,
    color := 0, txop := none, smoothing := false, beamformed := false, users := [] }
  let g := x.sig.getD z
  let known := x.sig.isSome
  let fin := reason + 16 * b2n x.cut + 32 * b2n x.overrun + 64 * b2n x.maxIter
  let mp := (x.mpdus.map (·.2)).sum
  let rssi := match x.rssi with
    | some p => if m.user = 255 then p else (m.rssi.toNat, m.chainRssi)
    | none => (m.rssi.toNat, m.chainRssi)
  let chainsB := (List.range 8).flatMap fun n => if x.qualChains.testBit n then [rssi.2.getD n 0] else [0x80]
  let done := if m.user = 255 then x.cws.foldl (fun a e => (a.1 + e.2.1, a.2 + e.2.2)) (0, 0)
    else tget (fun _ => (0, 0)) x.cws m.user.toNat
  let cwB := le 2 (min 65535 done.1) ++ le 1 (if done.1 = 0 then 0 else min 255 (8 * done.2 / done.1))
  let snrB := (List.range 8).map fun n => if n < g.coding.toNat % 16 then m.snr.getD n 0 else 0
  match x.tp with
  | none =>
    le 1 g.format.toNat ++ le 1 g.bw.toNat ++ le 2 g.punct.toNat ++ le 1 g.mcs.toNat ++ le 1 g.coding.toNat
      ++ le 1 g.giLtf.toNat ++ le 1 fin ++ le 1 x.qualChains ++ le 1 m.user.toNat ++ le 2 rssi.1 ++ le 2 0 ++ chainsB ++ snrB
      ++ le 8 x.stamp ++ le 4 (if known then g.length.toNat else 0) ++ le 2 m.cfo.toNat ++ le 2 m.sfo.toNat
      ++ cwB ++ le 1 0 ++ le 2 (if m.user = 255 then mp else tget (fun _ => 0) x.mpdus m.user.toNat) ++ le 2 0 ++ le 4 x.durNs ++ le 4 0
  | some t =>
    le 1 10 ++ le 1 t.bw ++ le 2 t.punct ++ le 1 0 ++ le 1 (t.nss + 32 + t.rate * 64) ++ le 1 (t.gi + 8) ++ le 1 fin
      ++ le 1 x.qualChains ++ le 1 (t.peer.getD 255) ++ le 2 rssi.1 ++ le 2 (t.seq + t.tid * 4096) ++ chainsB
      ++ ((List.range 8).map fun n => if n < t.nss then m.snr.getD n 0 else 0) ++ le 8 x.stamp
      ++ le 4 (if t.checkOk then t.length else 0) ++ le 2 m.cfo.toNat ++ le 2 m.sfo.toNat ++ cwB
      ++ le 1 (b2n t.checkOk + 2 * b2n t.noTable + 4 * b2n t.other + 8 * b2n t.unknownSrc + 16 * b2n (t.dst = 0xFFFF)
        + 32 * b2n (t.kind != 0))
      ++ le 2 t.subframes ++ le 2 t.src ++ le 4 x.durNs ++ le 4 t.ncbps

/-- The measurements of a reception that was aborted: free, since the spec does not say what was measured by then (log
entry 5); the power over the L-LTF stands with the reception once it is known. -/
def State.freeMeas (s : State) : RxMeas :=
  let b := fun i => BitVec.ofNat 8 (s.free 400 / 256 ^ i)
  let h := fun i => BitVec.ofNat 16 (s.free 400 / 256 ^ i)
  { user := 255, rssi := h 0, cfo := h 18, sfo := h 20,
    chainRssi := (List.range 8).map fun i => b (2 + i), snr := (List.range 8).map fun i => b (10 + i) }

/-- The counter of an abort reason: register, and its bits (R180). -/
def abortField (r reason : Nat) : RegId × Nat × Nat :=
  match reason with
  | 2 => (RADIO.RX_QUAL_CNT r, 31, 16)
  | 3 => (RADIO.RX_QUAL_CNT r, 15, 0)
  | 4 => (RADIO.RX_SIG_CNT r, 31, 16)
  | 5 => (RADIO.RX_SIG_CNT r, 15, 0)
  | 6 => (RADIO.RX_ABORT_CNT r, 31, 24)
  | 7 => (RADIO.RX_ABORT_CNT r, 23, 16)
  | 8 => (RADIO.RX_RESTART_CNT r, 31, 0)
  | 9 => (RADIO.RX_ABORT_CNT r, 15, 8)
  | 10 => (RADIO.RX_ABORT_CNT r, 15, 8)
  | _ => (RADIO.RX_ABORT_CNT r, 7, 0)

/-- Take one back from a counter that stands at neither end. -/
def State.unsat (s : State) (reg : RegId) (hi lo : Nat) : State :=
  let v := s.rf reg hi lo
  if v = 0 || v + 1 = 2 ^ (hi + 1 - lo) then s else s.wf reg hi lo (v - 1)

/-- Count an abort, and with an onset a packet lost to it (R171, R180). -/
def State.countAbort (s : State) (r reason : Nat) (onset : Bool) : State :=
  let f := abortField r reason
  let s1 := s.sat f.1 f.2.1 f.2.2 1
  if onset && 2 ≤ reason && reason ≤ 5 then s1.sat (RADIO.RESTART_MISS_CNT r) 31 0 1 else s1

/-- Take that back. -/
def State.uncountAbort (s : State) (r reason : Nat) (onset : Bool) : State :=
  let f := abortField r reason
  let s1 := s.unsat f.1 f.2.1 f.2.2
  if onset && 2 ≤ reason && reason ≤ 5 then s1.unsat (RADIO.RESTART_MISS_CNT r) 31 0 else s1

/-- Rank of two aborts on one tick: TUNE, TX, ENABLE, RESTART, then the order of the end reasons (R172). -/
def abortRank (reason : Nat) : Nat :=
  match reason with
  | 9 => 0 | 10 => 1 | 11 => 2 | 8 => 3 | n => n + 2

/-- The record of an aborted reception, where REC_ABORT asks for one (R180), and where it stands. -/
def State.abortRecord (s : State) (r reason : Nat) (x : Rx) : State × Option Nat :=
  if 4 ≤ reason && s.rbit (RADIO.RX_DEC_CTL r) 30 then
    let p := s.rxsWrite r (recordBody x s.freeMeas reason)
    (p.1.took, p.2)
  else (s, none)

/-- An abort that outranks the one that ended the reception on the same tick takes its place: the counters and the record follow,
and a restart that began there is undone (R170, R172). -/
def State.reAbort (s : State) (r reason : Nat) (c : CutRx) : State :=
  let y := (s.radio r).rx
  let s0 := if y.phase = .idle then s
    else (s.modRadio r fun x => { x with
      rx := {}, latchAt := tput (fun _ => []) x.latchAt evED ((tget (fun _ => []) x.latchAt evED).filter (· != y.edAt)) }).unsat
        (RADIO.RX_ED_CNT r) 31 0
  let s1 := (s0.uncountAbort r c.reason c.rx.onset).countAbort r reason c.rx.onset
  let p := match c.place with
    | some a => (s1.storeWrite r (a + 9) [BitVec.ofNat 8 ((s1.rb (a + 9)).toNat / 16 * 16 + reason)], c.place)
    | none => if c.reason < 4 then s1.abortRecord r reason c.rx else (s1, none)
  p.1.modRadio r fun x => { x with cutRx := some { c with reason := reason, place := p.2 } }

/-- A reception in progress is aborted for a reason of R180. -/
def State.rxAbort (s : State) (r reason : Nat) : State :=
  let x := (s.radio r).rx
  if x.phase = .idle || s.tick < x.edAt then
    match (s.radio r).cutRx with
    | some c => if c.tick = s.tick && abortRank reason < abortRank c.reason then s.reAbort r reason c else s
    | none => s
  else
    let p := ((s.countAbort r reason x.onset).seqEvent r evABORT).abortRecord r reason x
    let qual := x.phase != .stage1 && x.phase != .stage2
    let s4 := p.1.modRadio r fun y => { y with
      rx := {}, cutRx := some { tick := s.tick, reason := reason, rx := x, place := p.2 }
      mac := { y.mac with eifs := y.mac.eifs || (qual && x.tp.isNone) } }
    (s4.agcArm r).chainsAtEnd r

/-- The medium is busy: counting stops until the next MEDIUM_IDLE (R188). -/
def State.macBusy (s : State) (r : Nat) : State :=
  s.modRadio r fun x => { x with mac := { x.mac with
    idleAt := none, eifs := if x.mac.idleAt.isSome then false else x.mac.eifs } }

/-- A calibration slice stops at its last checkpoint, which lies at most 2 µs back, and keeps its round and what it has done up to
there (R126, R127); how far back is a free value (log entry 5). -/
def State.sliceYield (s : State) (r : Nat) : State :=
  match (s.radio r).slice with
  | none => s
  | some (k, n) =>
    let e := s.clock - (s.radio r).sliceAt
    let done := e - s.free 10 % (min 1000 e + 1)
    ((((s.took.modRadio r fun x => { x with
      slice := none, calProg := tput (fun _ => 0) x.calProg (8 * k + n) done }).wf (RADIO.CHAIN_STATUS r n) 28 28 0).sat
      (RADIO.RF_CAL_STATUS r) 15 8 1).dpdSync r)

/-- A command whose transmission has ended completes with a status (R157). -/
def State.txFinish (s : State) (r : Nat) (t : TxNow) (status : Nat) : State :=
  let s1 := s.txComplete r t.cmd t.queue status t.unsent t.stamp t.delay t.airtime
  let s2 := if status = 0 || status = 1 then s1.sat (RADIO.TX_CNT r) 31 0 1 else s1
  s2.syncTxBusy r

/-- Abort the transmission in progress, or the armed response (R117, R146): TX_END occurs. A command that has been sent and awaits
its response is no transmission in progress. -/
def State.txAbort (s : State) (r : Nat) : State :=
  let x := s.radio r
  match x.tx with
  | some t =>
    let s0 := s.modRadio r fun y => { y with tx := none, muDue := none, mac := { y.mac with tb := none } }
    (((((s0.txFinish r t 4).returnMpdus r t.cmd).fabStatus t.cmd false).seqEvent r evTXEND).macBusy r).chainsAtEnd r
  | none =>
    if x.resp.armed || x.resp.phase = .sending then
      (((s.modRadio r fun y => { y with resp := {} }).seqEvent r evTXEND).syncTxBusy r).chainsAtEnd r
    else s

end Sys2Proof.Machine
end

