-- ==== Sys2Proof/Machine/Rf.lean ====
section
/-! DEFINITION. The RF half of a radio tile: channels and tuning, front-end modules, background calibration and gain control
(R109 to R133). -/

namespace Sys2Proof.Machine

open Reg

/-! Channels (R110). The centres that IEEE 802.11 defines are the family's (PRESUMED, log entry 13). -/

/-- Arithmetic progressions of channel numbers: first, step, count. -/
def chanRun (first step n : Nat) : List Nat := (List.range n).map fun i => first + step * i

/-- Centres of a band and width. -/
def centres (band width : Nat) : List Nat :=
  match band, width with
  | 0, 0 => chanRun 1 1 13
  | 0, 1 => chanRun 3 1 9
  | 1, 0 => chanRun 36 4 8 ++ chanRun 100 4 12 ++ chanRun 149 4 8
  | 1, 1 => chanRun 38 8 4 ++ chanRun 102 8 6 ++ chanRun 151 8 4
  | 1, 2 => [42, 58, 106, 122, 138, 155, 171]
  | 1, 3 => [50, 114, 163]
  | 2, 0 => chanRun 1 4 59
  | 2, 1 => chanRun 3 8 29
  | 2, 2 => chanRun 7 16 14
  | 2, 3 => chanRun 15 32 7
  | 2, 4 => [31, 63, 95, 127, 159, 191]
  | _, _ => []

/-- A channel request that TUNE accepts (R110): a defined centre whose span lies in the band's coverage in units of
100 kHz, and a primary 20 MHz channel inside it. -/
def chanOk (c : Word) : Bool :=
  let w := fld c 28 26
  let b := fld c 25 24
  let ce := fld c 15 8
  let p := fld c 7 0
  let base := if b = 0 then 2407 else if b = 1 then 5000 else 5950
  let half := 10 * 2 ^ w
  let fc := base + 5 * ce
  let lo := if b = 0 then 24000 else if b = 1 then 51500 else 59250
  let hi := if b = 0 then 24835 else if b = 1 then 58950 else 71250
  let d := if p ≤ ce then ce - p else p - ce
  (centres b w).contains ce && lo ≤ 10 * (fc - half) && 10 * (fc + half) ≤ hi
    && 5 * d + 10 ≤ half && (w != 0 || ce = p)

/-! The command path (R131, R132). -/

/-- An RF command is taken, or dropped and counted. -/
def State.rfCmd (s : State) (by_ : Req) (r : Nat) (f : State → State) : State :=
  s.onWrite by_ (rTile r) fun s =>
    if s.pathFree (RADIO.RF_RESULT r) then f s else s.sat (RADIO.RF_ERR_CNT r) 31 24 1

/-- Post an RF result. -/
def State.rfPost (s : State) (r : Nat) (tag : Tag) (code detail : Nat) : State :=
  (s.pathPost (RADIO.RF_RESULT r) 16 tag (code * 2 ^ 24 + detail)).evt (rTile r) 16

/-- Post the result of the command in progress. -/
def State.rfEnd (s : State) (r code detail : Nat) : State :=
  (s.modRadio r fun x => { x with rf := .idle }).rfPost r (s.pathTag (RADIO.RF_RESULT r) 16) code detail

/-- Elapsed time since acceptance as DETAIL codes it: units of 0.1 µs, or of 10 µs with bit 15 set. -/
def State.rfElapsed (s : State) (r : Nat) : Nat :=
  let d := (s.clock - (s.radio r).rfStart) / 50
  if d < 2 ^ 15 then d else 2 ^ 15 + min (2 ^ 15 - 1) (d / 100)

/-- The tile accepts commands of the front end and chains (R131). -/
def State.rfLive (s : State) (r : Nat) : Bool := s.active (rTile r)

/-- Begin the synthesiser calibration of the TUNE in progress: enables low, TUNING, gain loops held (R116). -/
def State.tuneStart (s : State) (r : Nat) : State :=
  let v := s.rd (RADIO.RF_TUNED r)
  ((((s.modRadio r fun x => { x with rf := .tuning false, relock := 0, tryAt := s.clock }).wr (RADIO.RF_TUNED r)
    (putBit (putBit v 31 false) 30 true)).macBusy r).markLate r).lockChanged r

/-- A TUNE that waits for a transmission in progress begins when it has ended (R116). -/
def State.rfSettle (s : State) (r : Nat) : State :=
  if (s.radio r).rf = .tuneWait && !s.sending r then s.tuneStart r else s

/-- RF_TUNE (R110, R115, R116, R120, R127, R131, R265). Of several refusals the tile's state comes first, then INVALID, then NO_FEM,
then the other band in READY (DESIGN CHOICE, log entry 56). -/
def execRfTune (by_ : Req) (r : Fin 3) (tag : Tag) (s : State) : Host.Outcome State Fault Refusal :=
  .next <| s.rfCmd by_ r.val fun s =>
    let r := r.val
    let c := s.rd (RADIO.RF_CHAN r)
    let t := s.rd (RADIO.RF_TUNED r)
    let fresh := fld t 28 0 = 0
    let newBand := fresh || fld t 25 24 != fld c 25 24
    let l := s.life (rTile r)
    if l != .ready && l != .held then s.rfPost r tag 2 0
    else if !chanOk c then s.rfPost r tag 1 0
    else if s.activeMask r = 0 then s.rfPost r tag 5 0
    else if newBand && !fresh && l != .held then s.rfPost r tag 2 0
    else
      let s1 := (s.pathBusy (RADIO.RF_RESULT r) 16 tag).modRadio r fun x =>
        { x with rfStart := s.clock, rfChan := c, bandChange := newBand, rf := .tuneWait }
      let s2 := ((s1.rxAbort r 9).sliceYield r).modRadio r fun x => { x with calProg := [] }
      let s3 := if fresh || fld t 28 8 = fld c 28 8 then s2 else s2.tpRetuned r
      if s3.sending r then s3 else s3.tuneStart r

/-- TUNE_LOCK (R113, R115, R117, R145): lock of a TUNE, which completes it unless a band calibration follows, or of a relock
without a command, after which the radio's relations hold again (DEDUCED, log entry 56). -/
def execTuneLock (r : Fin 3) (s : State) : Host.Outcome State Fault Refusal :=
  .next <|
    let r := r.val
    let x := s.radio r
    match x.rf with
    | .tuning _ =>
      let s1 := s.wr (RADIO.RF_TUNED r) (wd (2 ^ 31 + fld x.rfChan 28 0))
      let s2 := (((if x.bandChange then s1.syncLinks else s1.lockChanged r).seqEvent r evLOCK).agcArm r).dpdSync r
      if x.bandChange then s2.modRadio r fun y => { y with rf := .bandCal } else s2.rfEnd r 0 (s2.rfElapsed r)
    | _ =>
      if x.relock = 0 then s
      else
        (((s.modRadio r fun y => { y with relock := 0 }).wr (RADIO.RF_TUNED r)
          (putBit (putBit (s.rd (RADIO.RF_TUNED r)) 31 true) 30 false)).lockChanged r).seqEvent r evLOCK

/-- No lock (R115, R117) within 80 µs of the start of an attempt: the sequence is repeated once, then cause 0x81 and FAULT. -/
def State.tuneTimeout (s : State) (r : Nat) : State :=
  let x := s.radio r
  if s.clock < x.tryAt + 40000 then s
  else match x.rf with
  | .tuning false => s.modRadio r fun y => { y with rf := .tuning true, tryAt := s.clock }
  | .tuning true =>
    let s1 := (s.wr (RADIO.RF_TUNED r) (putBit (s.rd (RADIO.RF_TUNED r)) 30 false)).rfEnd r 3 (s.rfElapsed r)
    s1.recordErr (rTile r) 0x81 8 0 0 true
  | _ =>
    if x.relock = 1 then s.modRadio r fun y => { y with relock := 2, tryAt := s.clock }
    else if x.relock = 2 then (s.modRadio r fun y => { y with relock := 0 }).recordErr (rTile r) 0x81 8 0 0 true
    else s

/-- Pre-distortion is trained on every ACTIVE chain. -/
def State.trainAll (s : State) (r : Nat) : State :=
  (List.range 8).foldl (fun s n => if s.chain r n = 0 then s.dpdTrain r n else s) s

/-- BAND_CAL_DONE (R113, R116): the TUNE with band calibration completes; initial training leaves a set on every ACTIVE chain. -/
def execBandCalDone (r : Fin 3) (converged : Bool) (s : State) : Host.Outcome State Fault Refusal :=
  .next <|
    let r := r.val
    if (s.radio r).rf = .bandCal then
      ((if converged then s.trainAll r else s).placeOf r).rfEnd r (if converged then 0 else 4) (s.rfElapsed r)
    else s

/-- RF_CAL_ALL (R128, R131): in HELD only. -/
def execRfCalAll (by_ : Req) (r : Fin 3) (tag : Tag) (s : State) : Host.Outcome State Fault Refusal :=
  .next <| s.rfCmd by_ r.val fun s =>
    if s.life (rTile r.val) = .held then
      (s.pathBusy (RADIO.RF_RESULT r.val) 16 tag).modRadio r.val fun x => { x with rf := .calAll, rfStart := s.clock }
    else s.rfPost r.val tag 2 0

/-- CAL_ALL_DONE (R127, R128): every enabled calibration has run on every ACTIVE chain; one that succeeds is no longer FAILED. -/
def execCalAllDone (r : Fin 3) (converged : Bool) (s : State) : Host.Outcome State Fault Refusal :=
  .next <|
    let r := r.val
    if (s.radio r).rf != .calAll then s
    else
      let on := (List.range 5).filter fun k => s.rbit (RADIO.RF_CAL_CTL r) (26 + k)
      let s1 := if converged then
          let s1 := s.modRadio r fun x => { x with
            calFails := on.foldl (fun t k => tput (fun _ => 0) t k 0) x.calFails
            calAt := on.foldl (fun t k => tput (fun _ => 0) t k s.clock) x.calAt
            calTemp := on.foldl (fun t k => tput (fun _ => 0) t k (s.chainTemp r)) x.calTemp }
          let s2 := on.foldl (fun (s : State) k => s.wf (RADIO.RF_CAL_STATUS r) k k 0) s1
          if on.contains 0 then s2.trainAll r else s2
        else s
      s1.rfEnd r (if converged then 0 else 4) (s.rfElapsed r)

/-- RF_FEM_SCAN (R120, R131). -/
def execRfFemScan (by_ : Req) (r : Fin 3) (tag : Tag) (s : State) : Host.Outcome State Fault Refusal :=
  .next <| s.rfCmd by_ r.val fun s =>
    if s.rfLive r.val then
      (s.pathBusy (RADIO.RF_RESULT r.val) 16 tag).modRadio r.val fun x => { x with rf := .femScan, rfStart := s.clock }
    else s.rfPost r.val tag 2 0

/-- USID, product ID and manufacturer ID that the board declares for a chain (R119). -/
def State.femDesc (s : State) (r n : Nat) : Nat × Nat × Nat :=
  let d := RADIO.FEM_DESC r n
  (s.rf d 31 28, s.rf d 27 20, s.rf d 19 10)

/-- A health poll is due, some chain being ACTIVE, and was so by a time (R121): its request is older. -/
def State.pollBefore (s : State) (r at_ : Nat) : Bool :=
  s.activeMask r != 0 && (s.radio r).pollAt + 50000000 < at_

/-- FEM_SCAN_DONE (R118 to R120): `ids` holds for each USID the product and manufacturer ID that its registers returned, none where
the parity was wrong or nothing answered. One answer serves every chain that names the USID. Requests on the bus are served in
order, so the scan waits for those made before it. -/
def execFemScanDone (r : Fin 3) (ids : List (Option (BitVec 8 × BitVec 10))) (s : State) : Host.Outcome State Fault Refusal :=
  .next <|
    let r := r.val
    let x := s.radio r
    if x.rf != .femScan || (x.rffe.isSome && x.rffeAt < x.rfStart) || s.pollBefore r x.rfStart then s
    else
      let exp := s.rf (RADIO.RF_BOARD r) 15 8
      let mask := fun (f : Nat → Bool) => ((List.range 8).map fun n => if f n then 2 ^ n else 0).sum
      let named := mask fun n => (s.femDesc r n).1 != 0
      let cand := exp &&& (255 - s.activeMask r)
      let found := mask fun n =>
        let d := s.femDesc r n
        match ids.getD d.1 none with
        | some (p, m) => p.toNat = d.2.1 && m.toNat = d.2.2
        | none => false
      let hit := cand &&& named &&& found
      let s1 := (s.setChains r (cand &&& (255 - named)) 3).setChains r hit 0
      let s2 := s1.modRadio r fun x => { x with misses := (List.range 8).foldl (fun t n =>
        if hit.testBit n then tput (fun _ => 0) t (s.femDesc r n).1 0 else t) x.misses }
      let s3 := if hit = 0 then s2 else s2.evt (rTile r) 18
      s3.rfEnd r (if s3.activeMask r = 0 then 5 else 0) (s3.activeMask r)

/-- RF_CHAIN_OFF (R131): at the next PPDU boundary, at once where no PPDU is in progress. -/
def execRfChainOff (by_ : Req) (r : Fin 3) (tag : Tag) (chain : BitVec 8) (s : State) : Host.Outcome State Fault Refusal :=
  .next <| s.rfCmd by_ r.val fun s =>
    let r := r.val
    if !s.rfLive r || 7 < chain.toNat then s.rfPost r tag 2 0
    else
      ((s.pathBusy (RADIO.RF_RESULT r) 16 tag).modRadio r fun x =>
        { x with rf := .chainOff, offPend := 2 ^ chain.toNat, rfStart := s.clock }).chainsAtEnd r

/-- RF_CHAIN_ON (R131): an OFF chain that is populated becomes ACTIVE; any other gives NO_FEM. -/
def execRfChainOn (by_ : Req) (r : Fin 3) (tag : Tag) (chain : BitVec 8) (s : State) : Host.Outcome State Fault Refusal :=
  .next <| s.rfCmd by_ r.val fun s =>
    let r := r.val
    let n := chain.toNat
    if !s.rfLive r || 7 < n then s.rfPost r tag 2 0
    else if s.chain r n = 1 && (s.rf (RADIO.RF_BOARD r) 15 8).testBit n then
      let s1 := s.setChains r (2 ^ n) 0
      s1.rfPost r tag 0 (s1.activeMask r)
    else s.rfPost r tag 5 (s.activeMask r)

/-- RF_CMD_ILLEGAL_OP (R131). -/
def execRfCmdIllegalOp (by_ : Req) (r : Fin 3) (tag : Tag) (op : BitVec 8) (s : State) :
    Host.Outcome State Fault Refusal :=
  .next <|
    if 1 ≤ op.toNat && op.toNat ≤ 5 then s else s.rfCmd by_ r.val fun s => s.rfPost r.val tag 2 0

/-- RF_RESULT_ACK (R28, R132). -/
def execRfResultAck (by_ : Req) (r : Fin 3) (tag : Tag) (s : State) : Host.Outcome State Fault Refusal :=
  .next <| s.onWrite by_ (rTile r.val) fun s => s.pathAck (RADIO.RF_RESULT r.val) 16 tag

/-- SYNTH_LOCK_LOSS (R113, R117): enables low, the PPDU in progress aborted, cause 0x80, a relock begins. -/
def execSynthLockLoss (r : Fin 3) (s : State) : Host.Outcome State Fault Refusal :=
  .next <|
    let r := r.val
    if !s.locked r || !s.active (rTile r) then s
    else
      let s1 := (s.wr (RADIO.RF_TUNED r) (putBit (s.rd (RADIO.RF_TUNED r)) 31 false)).modRadio r fun x =>
        { x with relock := 1, tryAt := s.clock }
      let s2 := ((s1.txAbort r).rxAbort r 11).recordErr (rTile r) 0x80 8 0 0 false
      ((s2.macBusy r).markLate r).lockChanged r

/-! RFFE (R118, R121, R132). -/

/-- An RFFE command is taken, or dropped and counted. -/
def State.rffeCmd (s : State) (by_ : Req) (r : Nat) (f : State → State) : State :=
  s.onWrite by_ (rTile r) fun s =>
    if s.pathFree (RADIO.RFFE_RESULT r) then f s else s.sat (RADIO.RF_ERR_CNT r) 31 24 1

/-- Queue a transaction. -/
def State.rffeQueue (s : State) (by_ : Req) (r : Nat) (tag : Tag) (t : RffeTxn) : State :=
  s.rffeCmd by_ r fun s => (s.pathBusy (RADIO.RFFE_RESULT r) 8 tag).modRadio r fun x => { x with rffe := some t, rffeAt := s.clock }

/-- RFFE_REG_WRITE: Register Write uses five address bits. -/
def execRffeRegWrite (by_ : Req) (r : Fin 3) (usid : BitVec 4) (addr : BitVec 8) (data : Byte) (tag : Tag) (s : State) :
    Host.Outcome State Fault Refusal :=
  .next (s.rffeQueue by_ r.val tag { kind := 0, usid := usid.toNat, addr := addr.toNat % 32, data := data.toNat })

/-- RFFE_REG_READ: Register Read uses five address bits. -/
def execRffeRegRead (by_ : Req) (r : Fin 3) (usid : BitVec 4) (addr : BitVec 8) (tag : Tag) (s : State) :
    Host.Outcome State Fault Refusal :=
  .next (s.rffeQueue by_ r.val tag { kind := 1, usid := usid.toNat, addr := addr.toNat % 32, data := 0 })

/-- RFFE_EXT_REG_WRITE. -/
def execRffeExtRegWrite (by_ : Req) (r : Fin 3) (usid : BitVec 4) (addr : BitVec 8) (data : Byte) (tag : Tag) (s : State) :
    Host.Outcome State Fault Refusal :=
  .next (s.rffeQueue by_ r.val tag { kind := 2, usid := usid.toNat, addr := addr.toNat, data := data.toNat })

/-- RFFE_EXT_REG_READ. -/
def execRffeExtRegRead (by_ : Req) (r : Fin 3) (usid : BitVec 4) (addr : BitVec 8) (tag : Tag) (s : State) :
    Host.Outcome State Fault Refusal :=
  .next (s.rffeQueue by_ r.val tag { kind := 3, usid := usid.toNat, addr := addr.toNat, data := 0 })

/-- RFFE_REG0_WRITE. -/
def execRffeReg0Write (by_ : Req) (r : Fin 3) (usid : BitVec 4) (data : Byte) (tag : Tag) (s : State) :
    Host.Outcome State Fault Refusal :=
  .next (s.rffeQueue by_ r.val tag { kind := 4, usid := usid.toNat, addr := 0, data := data.toNat })

/-- RFFE_ILLEGAL_KIND (R132): reserved kinds complete ILLEGAL. -/
def execRffeIllegalKind (by_ : Req) (r : Fin 3) (kind : BitVec 4) (tag : Tag) (s : State) :
    Host.Outcome State Fault Refusal :=
  .next <|
    if kind.toNat < 5 then s
    else s.rffeCmd by_ r.val fun s => (s.pathPost (RADIO.RFFE_RESULT r.val) 8 tag (2 * 2 ^ 28)).evt (rTile r.val) 21

/-- The ACTIVE chains that name a USID. -/
def State.usidChains (s : State) (r usid : Nat) : Nat :=
  ((List.range 8).map fun n => if s.chain r n = 0 && s.rf (RADIO.FEM_DESC r n) 31 28 = usid then 2 ^ n else 0).sum

/-- A miss on a USID: the third in succession takes its chains out of service at the end of the PPDU in progress (R121). -/
def State.femMiss (s : State) (r usid : Nat) : State :=
  let n := tget (fun _ => 0) (s.radio r).misses usid + 1
  let s1 := s.sat (RADIO.RF_ERR_CNT r) 15 0 1
  if n < 3 then s1.modRadio r fun x => { x with misses := tput (fun _ => 0) x.misses usid n }
  else
    (s1.modRadio r fun x => { x with
      misses := tput (fun _ => 0) x.misses usid 0, lostPend := x.lostPend ||| s.usidChains r usid }).chainsAtEnd r

/-- RFFE_TRANSACTION_DONE (R118, R121): reads return data or count a miss; a success leaves the count of misses as it stands (DESIGN
CHOICE, log entry 56). A scan or a poll requested earlier comes first on the bus. -/
def execRffeTransactionDone (r : Fin 3) (ok : Bool) (data : Byte) (s : State) : Host.Outcome State Fault Refusal :=
  .next <|
    let r := r.val
    match (s.radio r).rffe with
    | none => s
    | some t =>
      let x := s.radio r
      if (x.rf = .femScan && x.rfStart < x.rffeAt) || s.pollBefore r x.rffeAt then s
      else
      let isRead := t.kind = 1 || t.kind = 3
      let good := ok || !isRead
      let s1 := (s.modRadio r fun x => { x with rffe := none }).pathPost (RADIO.RFFE_RESULT r) 8
        (s.pathTag (RADIO.RFFE_RESULT r) 8) (if good then (if isRead then data.toNat else 0) else 2 ^ 28)
      let s2 := s1.evt (rTile r) 21
      if good then s2 else s2.femMiss r t.usid

/-- RFFE_ACK (R28, R132). -/
def execRffeAck (by_ : Req) (r : Fin 3) (tag : Tag) (s : State) : Host.Outcome State Fault Refusal :=
  .next <| s.onWrite by_ (rTile r.val) fun s => s.pathAck (RADIO.RFFE_RESULT r.val) 8 tag

/-- FEM_HEALTH_POLL (R118, R121): 100 ms after the last, `ids` holds for each USID the product ID that it returned, none where the
parity was wrong or nothing answered. Requests on the bus older than the poll come first. -/
def execFemHealthPoll (r : Fin 3) (ids : List (Option (BitVec 8))) (s : State) : Host.Outcome State Fault Refusal :=
  .next <|
    let r := r.val
    let x := s.radio r
    let due := x.pollAt + 50000000
    if !s.active (rTile r) || s.clock < due || (x.rffe.isSome && x.rffeAt < due) || (x.rf = .femScan && x.rfStart < due) then s
    else (List.range 16).foldl (fun s u =>
      let uses := (List.range 8).filter fun n => s.chain r n = 0 && (s.femDesc r n).1 = u
      if uses.isEmpty then s
      else if uses.all fun n => (ids.getD u none).map (·.toNat) = some (s.femDesc r n).2.1 then
        s.modRadio r fun x => { x with misses := tput (fun _ => 0) x.misses u 0 }
      else s.femMiss r u) (s.modRadio r fun x => { x with pollAt := s.clock })

/-! Background calibration (R124 to R128). -/

/-- The token kind of a calibration (R126, R468). -/
def calToken (kind : Nat) : Nat := if kind = 0 then kDPD else kCAL

/-- A calibration is enabled: BG_EN and its own bit, 26 plus its number. -/
def State.calEnabled (s : State) (r kind : Nat) : Bool :=
  s.rbit (RADIO.RF_CAL_CTL r) 31 && s.rbit (RADIO.RF_CAL_CTL r) (26 + kind)

/-- What starts a round has come to pass since the last one began (R126): IQ, LO and GAIN by PERIOD_S and GAIN_DT, DC every
second, pre-distortion by a capture. The periods count from READY at first (DESIGN CHOICE, log entry 56). -/
def State.calDue (s : State) (r kind : Nat) : Bool :=
  let x := s.radio r
  let gone := s.clock - tget (fun _ => 0) x.calAt kind
  let c := s.rd (RADIO.RF_CAL_CTL r)
  let forced := fld c 15 8 != 0 && fld c 15 8 * 500000000 ≤ gone
  let moved := max 1 (fld c 20 16) ≤ (s.chainTemp r - tget (fun _ => 0) x.calTemp kind).natAbs
  if kind = 0 then x.captured != 0 else if kind = 2 then 500000000 ≤ gone else forced || moved

/-- A round begins: it waits for its token. -/
def State.calBegin (s : State) (r kind : Nat) : State :=
  (s.modRadio r fun x => { x with
    rounds := x.rounds ||| 2 ^ kind
    calAt := tput (fun _ => 0) x.calAt kind s.clock
    calTemp := tput (fun _ => 0) x.calTemp kind (s.chainTemp r) }).askToken (calToken kind) (rTile r)

/-- CAL_ROUND_START (R126). -/
def execCalRoundStart (r : Fin 3) (kind : Fin 5) (s : State) : Host.Outcome State Fault Refusal :=
  .next <|
    let r := r.val
    if s.life (rTile r) = .ready && s.calEnabled r kind.val && s.calDue r kind.val && !(s.radio r).rounds.testBit kind.val then
      s.calBegin r kind.val
    else s

/-- The radio is neither transmitting nor receiving, and no transmit command is queued (R126). -/
def State.radioIdle (s : State) (r : Nat) : Bool :=
  !s.ppduInProgress r && (s.radio r).resp.phase = .none && [0, 1, 2, 3, 4].all fun q => (s.txq r q).isEmpty

/-- CAL_SLICE_START (R126): every condition of the rule holds, and a pre-distortion solve has a capture of its chain. A slice that
yielded resumes from its last checkpoint. -/
def execCalSliceStart (r : Fin 3) (kind : Fin 5) (chain : Fin 8) (s : State) : Host.Outcome State Fault Refusal :=
  .next <|
    let r := r.val
    let x := s.radio r
    if s.life (rTile r) = .ready && s.calEnabled r kind.val && x.rounds.testBit kind.val && x.slice.isNone
        && s.radioIdle r && (s.act r).testBit 20 && s.chain r chain.val = 0 && !s.tuning r
        && s.holds (calToken kind.val) (rTile r) && (kind.val != 0 || x.captured.testBit chain.val) then
      ((s.modRadio r fun y => { y with
        slice := some (kind.val, chain.val)
        sliceAt := s.clock - tget (fun _ => 0) y.calProg (8 * kind.val + chain.val) }).wf
        (RADIO.CHAIN_STATUS r chain.val) 28 28 1).dpdSync r
    else s

/-- A round ends: converged or not, its bit clears and its token goes back; another round that waits for that token asks anew
(R126). Three failures in succession raise FAILED (R127). -/
def State.calRound (s : State) (r kind : Nat) (converged : Bool) : State :=
  let x := s.radio r
  let rounds := x.rounds &&& (31 - 2 ^ kind)
  let n := if converged then 0 else tget (fun _ => 0) x.calFails kind + 1
  let s1 := s.modRadio r fun y => { y with rounds := rounds, calFails := tput (fun _ => 0) y.calFails kind n }
  let more := if kind = 0 then rounds.testBit 0 else rounds / 2 != 0
  let s1' := s1.releaseToken (calToken kind) (rTile r)
  let s2 := if more then s1'.askToken (calToken kind) (rTile r) else s1'
  if converged then s2.wf (RADIO.RF_CAL_STATUS r) kind kind 0
  else if 3 ≤ n then (s2.wf (RADIO.RF_CAL_STATUS r) kind kind 1).evt (rTile r) 20 else s2

/-- CAL_SLICE_END (R125 to R127): a slice yields, ends with more of its round to come, or ends the round. A pre-distortion solve
is whole at the end of its slice, and one that converges puts a new set into use; a round of the others ends converged or
not. -/
def execCalSliceEnd (r : Fin 3) (how : SliceEnd) (s : State) : Host.Outcome State Fault Refusal :=
  .next <|
    let r := r.val
    match (s.radio r).slice with
    | none => s
    | some (kind, n) =>
      let ended := (((s.modRadio r fun x => { x with
        slice := none, calProg := tput (fun _ => 0) x.calProg (8 * kind + n) 0 }).wf (RADIO.CHAIN_STATUS r n) 28 28 0).sat
          (RADIO.RF_CAL_STATUS r) 31 16 1).dpdSync r
      match how with
      | .yields => s.sliceYield r
      | .more => if kind = 0 then ended.dpdTrain r n else ended
      | .round conv => (if kind = 0 && conv then ended.dpdTrain r n else ended).calRound r kind conv

/-- A transmitted PPDU's observation of a chain (R125): the error of a new set, in 0.01 dB, against that of the set before
it; more than 1 dB worse restores the previous set. The capture asks for a solve. -/
def State.dpdCapture (s : State) (r n : Nat) (e : Int) : State :=
  let k := s.dpdKey r n
  let d := s.dpdOf r n
  let s1 :=
    if d.fresh then
      let worse := match d.prevErr with
        | some p => decide (p + 100 < e)
        | none => false
      let d1 : Dpd := if worse then { coefs := d.prev, err := d.prevErr, reverted := true }
        else { d with err := some e, fresh := false }
      (s.modRadio r fun x => { x with dpd := tput (fun _ => {}) x.dpd k d1 }).dpdSync r
    else s
  let s2 := s1.modRadio r fun x => { x with captured := x.captured ||| 2 ^ n }
  if s2.calEnabled r 0 && s2.life (rTile r) = .ready then s2.calBegin r 0 else s2

/-- Captures at the end of a transmitted PPDU of `ns` nanoseconds on the ACTIVE chains of a mask, at a power in 0.25 dB, with the
error each chain shows (R125): from 20 µs and DPD_MIN on. -/
def State.dpdCaptures (s : State) (r mask ns : Nat) (power : Int) (errs : List Int) : State :=
  if ns < 20000 || !s.rbit (RADIO.RF_CAL_CTL r) 26 || power < sval 8 (s.rf (RADIO.RF_CAL_CTL r) 7 0) then s
  else (List.range 8).foldl (fun s n => match errs[n]? with
    | some e => if (mask &&& s.activeMask r).testBit n then s.dpdCapture r n e else s
    | none => s) s

/-- RF_CAL_CTL_WRITE (R124): a change of DPD_K or DPD_M discards every set of the radio, and DPD written 0 bypasses every
chain. -/
def execRfCalCtlWrite (by_ : Req) (r : Fin 3) (val : Word) (s : State) : Host.Outcome State Fault Refusal :=
  .next <| s.onWrite by_ (rTile r.val) fun s =>
    let old := s.rd (RADIO.RF_CAL_CTL r.val)
    let s1 := s.wr (RADIO.RF_CAL_CTL r.val) val
    (if fld old 25 21 = fld val 25 21 then s1 else s1.modRadio r.val fun x => { x with dpd := [], captured := 0 }).dpdSync r.val

/-! Gain control (R129, R130). -/

/-- Limits of the gain loop: values above 78 act as 78, and a lower limit above the upper fixes the gain there. -/
def State.gainLimits (s : State) (r : Nat) : Nat × Nat :=
  let hi := min 78 (s.rf (RADIO.RF_AGC_CTL r) 15 8)
  (min hi (min 78 (s.rf (RADIO.RF_AGC_CTL r) 7 0)), hi)

/-- AGC_STEP (R129): an armed loop that is not held steps a receiving chain's gain towards the one that brings the ADC
level, `level` in dBFS, to the target; how far one step goes is a free value (DESIGN CHOICE, log entry 5). -/
def execAgcStep (r : Fin 3) (chain : Fin 8) (level : BitVec 8) (s : State) : Host.Outcome State Fault Refusal :=
  .next <|
    let r := r.val
    let n := chain.val
    if !s.live (rTile r) || (s.radio r).agc != 0 || (s.act r).testBit 19 || !(s.rxen r).testBit n then s
    else
      let lim := s.gainLimits r
      let g := s.rf (RADIO.CHAIN_STATUS r n) 15 8
      let want : Int := (g : Int) + sval 8 (s.rf (RADIO.RF_AGC_CTL r) 23 16) - sval 8 level.toNat
      let ideal := clampN lim.1 lim.2 want.toNat
      let d := if g ≤ ideal then ideal - g else g - ideal
      let k := s.free 8 % (d + 1)
      let to_ := clampN lim.1 lim.2 (if g ≤ ideal then g + k else g - k)
      let s1 := (s.wf (RADIO.CHAIN_STATUS r n) 15 8 to_).took
      if to_ = g then s1 else s1.modRadio r fun x => { x with gainAt := s.tick }

end Sys2Proof.Machine
end

