-- ==== Sys2Proof/Machine/MacCore.lean ====
section
/-! DEFINITION. What the sequencer, the receiver and the MAC share: carrier sense, EDCA, the outcomes of exchanges, and the
Towpath tables as a frame takes them (R185 to R193, R264, R281, R283). -/

namespace Sys2Proof.Machine

open Reg

/-- Change a radio's MAC. -/
def State.modMac (s : State) (r : Nat) (f : Mac → Mac) : State := s.modRadio r fun x => { x with mac := f x.mac }
/-- A radio's MAC. -/
def State.mac (s : State) (r : Nat) : Mac := (s.radio r).mac

/-! Times (R187), in cycles of the model's clock: 500 a microsecond. -/

/-- SIFS. -/
def State.sifs (s : State) (r : Nat) : Nat := if s.band r = 0 then 10 * 500 else 16 * 500
/-- The slot. -/
def State.slot (s : State) (r : Nat) : Nat := if s.band r = 0 && s.rbit (RADIO.MAC_CTL r) 30 then 20 * 500 else 9 * 500

/-! Carrier sense (R185). -/

/-- A reception of a radio in progress from QUAL_OK on. -/
def Rx.qualified (x : Rx) : Bool := x.phase != .idle && x.phase != .stage1 && x.phase != .stage2

/-- Physical carrier sense is busy. -/
def State.physBusy (s : State) (r : Nat) : Bool :=
  let x := s.radio r
  s.txen r != 0 || x.rx.phase != .idle || x.mac.ccaBusy || s.tuning r || !s.locked r || s.tick < x.mac.tpBusyUntil
    || (s.nstr r).any fun q => (s.radio q).rx.qualified

/-- Virtual carrier sense is busy. -/
def State.navBusy (s : State) (r : Nat) : Bool := s.clock < (s.mac r).navBasic || s.clock < (s.mac r).navIntra

/-! EDCA (R188, R193). -/

/-- TXOP_LIMIT of an access category in cycles: MU EDCA has its timer in those bits and takes no other limit (R191, R193). -/
def State.txopLimit (s : State) (r ac : Nat) : Nat := s.rf (RADIO.EDCA_AC0 r + 4 * ac) 31 16 * 32 * 500

/-- EDCA parameters of an access category: MU EDCA while its timer runs. -/
def State.edca (s : State) (r ac : Nat) : Word :=
  if s.clock < tget (fun _ => 0) (s.mac r).muUntil ac then s.rd (RADIO.MU_EDCA_AC r ac) else s.rd (RADIO.EDCA_AC0 r + 4 * ac)

/-- MU EDCA with AIFSN 0 gives no grants. -/
def State.acBarred (s : State) (r ac : Nat) : Bool :=
  s.clock < tget (fun _ => 0) (s.mac r).muUntil ac && s.rf (RADIO.MU_EDCA_AC r ac) 7 4 = 0

/-- CWmin. -/
def cwMin (w : Word) : Nat := 2 ^ fld w 11 8 - 1
/-- CWmax, at least CWmin. -/
def cwMax (w : Word) : Nat := 2 ^ max (fld w 11 8) (fld w 15 12) - 1

/-- The next state of the generator. -/
def drawG (g : Word) : Word :=
  let a := g ^^^ (g <<< 13)
  let b := a ^^^ (a >>> 17)
  b ^^^ (b <<< 5)

/-- Draw a backoff counter for an access category from its contention window. -/
def State.drawBo (s : State) (r ac : Nat) : State :=
  let g := drawG (s.rd (RADIO.MAC_SEED r))
  let cw := tget (fun _ => 0) (s.mac r).cw ac
  (s.wr (RADIO.MAC_SEED r) g).modMac r fun m => { m with bo := tput (fun _ => 0) m.bo ac (g.toNat % (cw + 1)) }

/-- success(ac). -/
def State.acSuccess (s : State) (r ac : Nat) : State :=
  (s.modMac r fun m => { m with
    cw := tput (fun _ => 0) m.cw ac (cwMin (s.edca r ac)), retry := tput (fun _ => 0) m.retry ac 0 }).drawBo r ac

/-- failure(ac). -/
def State.acFailure (s : State) (r ac : Nat) : State :=
  let w := s.edca r ac
  let n := tget (fun _ => 0) (s.mac r).retry ac + 1
  let cw := tget (fun _ => 0) (s.mac r).cw ac
  (s.modMac r fun m =>
    if max 1 (fld w 3 0) ≤ n then
      { m with cw := tput (fun _ => 0) m.cw ac (cwMin w), retry := tput (fun _ => 0) m.retry ac 0 }
    else
      { m with cw := tput (fun _ => 0) m.cw ac (min (cwMax w) (2 * cw + 1)), retry := tput (fun _ => 0) m.retry ac n }).drawBo r ac

/-- EN of MAC_CTL goes from 0 to 1: the generator is loaded and every access category starts afresh. -/
def State.edcaReset (s : State) (r : Nat) : State :=
  let g := (s.mac r).seed
  [0, 1, 2, 3].foldl (fun s ac => s.acSuccess r ac) (s.wr (RADIO.MAC_SEED r) (wd (if g = 0 then 0x2545F491 else g)))

/-- The head of a granted queue becomes due (R152, R189). -/
def State.grant (s : State) (r ac : Nat) : State :=
  match s.txq r ac with
  | [] => s
  | c :: cs =>
    let late := !s.locked r || s.tuning r || (s.radio r).slice.isSome
    ((s.setTxq r ac (s.timPatch r { c with due := some s.tick, late := c.late || late } :: cs)).modRadio r fun x =>
      { x with granted := some ac }).modMac r fun m =>
        { m with grantAt := s.clock, txop := (match m.txop with
          | some (a, t) => if a = ac then some (a, t) else some (ac, s.clock)
          | none => some (ac, s.clock)) }

/-- The transition delay of each EML station that a radio held begins (R206). -/
def State.emlRelease (s : State) (r : Nat) : State :=
  s.mlink.emlLink.foldl (fun s e =>
    if e.2 = r + 1 && tget (fun _ => 0) s.mlink.emlUntil e.1 = 0 then
      s.modMlink fun x => { x with
        emlUntil := tput (fun _ => 0) x.emlUntil e.1 (max 1 (s.clock + 500 * s.ctxFw e.1 6 2)) }
    else s) s

/-- The TXOP of a radio ends, and with it what it held of EML stations (R206). -/
def State.endTxop (s : State) (r : Nat) : State := (s.modMac r fun m => { m with txop := none }).emlRelease r

/-- An EMLSR station that this radio does not hold in a TXOP yet (R206). -/
def State.emlNew (s : State) (r scid : Nat) : Bool :=
  nbits (s.ctxFw scid 4 1) 2 1 = 1 &&
    !(tget (fun _ => 0) s.mlink.emlLink scid = r + 1 && tget (fun _ => 0) s.mlink.emlUntil scid = 0)

/-- A TXOP with an EML station begins (R206): for an EMLSR one MLINK withholds its other links. -/
def State.emlHold (s : State) (r scid : Nat) : State :=
  let s1 := s.modMlink fun x => { x with
    emlLink := tput (fun _ => 0) x.emlLink scid (r + 1), emlUntil := tput (fun _ => 0) x.emlUntil scid 0 }
  if nbits (s.ctxFw scid 4 1) 2 1 != 1 then s1
  else [0, 1, 2].foldl (fun s l => if l = r then s.setLinkFlag scid l 4 false
    else if s.linkFlag scid l 1 then s.setLinkFlag scid l 4 true else s) s1

/-- A grant is withdrawn (R189). -/
def State.withdraw (s : State) (r : Nat) : State :=
  match (s.radio r).granted with
  | none => s
  | some ac =>
    let s1 := match s.txq r ac with
      | c :: cs => s.setTxq r ac ({ c with due := none } :: cs)
      | [] => s
    ((s1.modRadio r fun x => { x with
      granted := none, selected := if x.selected = some ac then none else x.selected }).endTxop r).drawBo r ac |>.sat (RADIO.ACC_CNT r) 7 0 1

/-! Towpath tables as frames take them (R264, R281). -/

/-- Towpath runs on a radio. -/
def State.tpOn (s : State) (r : Nat) : Bool :=
  s.rbit (RADIO.TP_CTL r) 31 && s.rf (RADIO.TP_CTL r) 15 0 != 0xFFFF && (s.band r = 1 || s.band r = 2)
    && 2 ≤ s.width r && s.width r ≤ 4 && s.locked r

/-- A peer is VALID. -/
def State.tpValid (s : State) (r p : Nat) : Bool :=
  s.rbit (RADIO.TP_PEER_CFG r p) 31 && s.rf (RADIO.TP_PEER_CFG r p) 15 0 != 0xFFFF

/-- Data tones of the tuned width. -/
def State.tpTones (s : State) (r : Nat) : Nat := if s.width r = 2 then 980 else if s.width r = 3 then 1960 else 3920

/-- Data tones that a PUNCT leaves; bits at or above the channel's subchannel count are ignored (R267, R269, DESIGN CHOICE, log entry 15). -/
def State.tpTonesIn (s : State) (r punct : Nat) : Nat :=
  let p := punct % 2 ^ (2 ^ s.width r)
  if p = 0 then s.tpTones r else min (s.tpTones r) (Config.punctTones (s.width r) p)

/-- Index of the primary 20 MHz subchannel from the lowest frequency. -/
def State.primaryIdx (s : State) (r : Nat) : Nat :=
  let t := s.rd (RADIO.RF_TUNED r)
  (5 * fld t 7 0 + 10 * 2 ^ fld t 28 26 - 10 - 5 * fld t 15 8) / 20

/-- A frame takes its SEQ from the peer's transmit counter, and a DATA frame switches to an agreed next table whose epoch
it has reached (R281). -/
def State.tpTake (s : State) (r p : Nat) (data : Bool) : State × Nat :=
  let st := RADIO.TP_PEER_STAT r p
  let sq := RADIO.TP_PEER_SEQ r p
  let seq := s.rf sq 11 0
  let s1 := s.wf sq 11 0 ((seq + 1) % 4096)
  let v := s1.rd st
  let ep := fld v 11 0
  if data && bit v 31 && fld v 23 20 != 0 && (seq + 4096 - ep) % 4096 < 2048 then
    let g := fld v 23 20
    let s2 := match s1.tpFind r p true 1 with
      | some k => s1.tpEmpty r k
      | none => s1
    let s3 := match s2.tpFind r p true 2 with
      | some k => s2.wb (tpSlot r k) 1
      | none => s2
    ((s3.wr st (putFld (putFld (putFld (putBit v 31 false) 27 24 g) 23 20 0) 11 0 0)).tpRecord r 3 p (ep + g * 4096), seq)
  else (s1, seq)

/-- A DATA frame to a peer drew no acknowledgement, or one with CHECK_OK = 0: the second in succession falls back (R283). -/
def State.tpTxFail (s : State) (r p : Nat) : State :=
  let sq := RADIO.TP_PEER_SEQ r p
  if 1 ≤ s.rf sq 29 28 then s.tpFall r p true else s.wf sq 29 28 1

/-- Queue a TABLE frame where there is room, which makes a calibration slice yield (R127). -/
def State.txqTable (s : State) (r p : Nat) : State :=
  match s.txqPush r 3 { words := [], from_ := .tpTable p } with
  | some s1 => s1.sliceYield r
  | none => s

/-- The outcome of a TABLE frame (R278). -/
def State.tpTableDone (s : State) (r p : Nat) (ok : Bool) : State :=
  let st := RADIO.TP_PEER_STAT r p
  let v := s.rd st
  match s.tpFind r p false 2 with
  | none => s
  | some k =>
    if ok then
      (s.wr st (putBit v 30 true)).wm (tpSlot r k + 6) 2 (s.tpPeer r p).epochSent
    else if fld v 29 28 < 3 then
      s.txqTable r p
    else
      ((s.sat (RADIO.TP_PEER_CNT r p) 7 0 1).setTp r p { s.tpPeer r p with gaveUp := true }).tpRecord r 6 p
        ((s.rb (tpSlot r k + 1)).toNat * 4096)

/-! Keys and the descriptors of a command (R209, R210, R318). -/

/-- Place of a pairwise key slot. -/
def keyPair (scid kid : Nat) : Nat := 2 * scid + kid
/-- Place of a group key slot. -/
def keyGroup (g kid : Nat) : Nat := 4096 + 8 * g + kid
/-- A key slot. -/
def State.key (s : State) (k : Nat) : Option Key := tget (fun _ => none) s.mlink.keys k
/-- Replace a key slot. -/
def State.setKey (s : State) (k : Nat) (v : Option Key) : State :=
  s.modMlink fun x => { x with keys := tput (fun _ => none) x.keys k v }
/-- The key ID selected for transmission: of an SCID, or of a group's class at 4096 + 4 times the group plus the class. -/
def State.txKeyId (s : State) (i : Nat) : Option Nat := tget (fun _ => none) s.mlink.txKey i

/-- The descriptors of a command: the MPDUs that MLINK claimed, else its transmit chain; triggers and internal frames have
none. -/
def State.cmdDescs (s : State) (r : Nat) (c : TxCmd) : List Nat :=
  if c.mpdus != [] then c.mpdus.map (·.desc)
  else if c.words = [] || (nbits (s.tv r c 0) 31 28 = 8 && 2 ≤ nbits (s.tv r c 0) 27 25) then []
  else match c.from_ with
    | .beacon => []
    | _ => s.txChain 16384 (c.word 2 + 2 ^ 32 * (c.word 3 % 256))

/-- The key slot that protects an MPDU of a single-user command: none where it is not protected, none inside where no
transmit key is selected (R210). -/
def State.txKeyFor (s : State) (r : Nat) (c : TxCmd) (d : Nat) : Option (Option Nat) :=
  let w1 := s.tv r c 1
  let g := nbits (s.tv r c 2) 3 0
  let data := s.dData d
  let fc := (data.getD 0 0).toNat
  let sel := fun cls => (s.txKeyId (4096 + 4 * g + cls)).map (keyGroup g)
  if nbits (s.tv r c 0) 31 28 = 8 || nbits w1 11 11 = 0 then none
  else if (data.getD 4 0).toNat % 2 = 0 then
    some ((s.txKeyId (w1 % 1024)).map (keyPair (w1 % 1024)))
  else if fc / 4 % 4 = 2 then some (sel 0)
  else if fc / 4 % 4 = 0 && fc / 16 = 8 then (sel 2).map some
  else if fc / 4 % 4 = 0 && (fc / 16 = 10 || fc / 16 = 12 || fc / 16 = 13) then some (sel 1)
  else none

/-- An MPDU is sent (R210, R318): its first transmission takes the key's next PN, and TRIES counts. The number returned is
1 where it goes out with its FCS inverted for want of a key. -/
def State.sendMpdu (s : State) (r : Nat) (c : TxCmd) (d : Nat) : State × Nat :=
  let w7 := s.dw d 7
  let tries := min 15 (nbits w7 19 16 + 1)
  let put := fun (s : State) (pn : Nat) =>
    s.storeWrite r (d + 24) (le 4 (pn % 2 ^ 32) ++ le 4 (tries * 2 ^ 16 + pn / 2 ^ 32 % 2 ^ 16))
  let pn := s.dw d 6 + 2 ^ 32 * nbits w7 15 0
  match s.txKeyFor r c d with
  | none => (put s 0, 0)
  | some none => ((put s pn).sat (RADIO.SEC_CNT r) 15 0 1, 1)
  | some (some k) =>
    match s.key k with
    | none => ((put s pn).sat (RADIO.SEC_CNT r) 15 0 1, 1)
    | some key =>
      if pn != 0 then (put s pn, 0)
      else (put (s.setKey k (some { key with txPn := key.txPn + 1 })) key.txPn, 0)

/-- The MPDUs of a command are read and sent: with the number that go out with their FCS inverted, and whether one of those
could not be read, which is as an underrun (R155, R323). -/
def State.sendMpdus (s : State) (r : Nat) (c : TxCmd) : State × Nat × Bool :=
  (s.cmdDescs r c).foldl (fun (a : State × Nat × Bool) d =>
    let b := a.1.frameRead r d
    if !b.2 then (b.1, a.2.1 + 1, true)
    else if 7 = nbits (s.tv r c 0) 31 28 then (b.1, a.2)
    else
      let e := b.1.sendMpdu r c d
      (e.1, a.2.1 + e.2, a.2.2)) (s, 0, false)

/-- The station that an MPDU of a command goes to: the queue's that MLINK claimed it from, else the TXVECTOR's where A1 is an
individual address. -/
def State.mpduScid (s : State) (r : Nat) (c : TxCmd) (d : Nat) : Option Nat :=
  match c.mpdus.find? fun m => m.desc = d with
  | some m => some (m.stq / 8)
  | none =>
    if 6 < nbits (s.tv r c 0) 31 28 || ((s.dData d).getD 4 0).toNat % 2 = 1 then none else some (s.tv r c 1 % 1024)

/-- More Data of the MPDUs of a command to stations whose link is in power-save mode (R200): after each, the station's queues
hold an MPDU, not sent so far in the command, of a TID mapped to the link (DEDUCED, log entry 52). -/
def State.moreData (s : State) (r : Nat) (c : TxCmd) : List (Nat × Bool) :=
  ((s.cmdDescs r c).foldl (fun (a : List Nat × List (Nat × Bool)) d =>
    let sent := d :: a.1
    (sent, match (s.mpduScid r c d).filter fun k => s.linkFlag k r 1 && s.linkFlag k r 2 with
      | some k => a.2 ++ [(d, (List.range 8).any fun t =>
          s.tidMapped k t r && (s.stq (8 * k + t)).any fun m => !sent.contains m.desc)]
      | none => a.2)) ([], [])).2

/-- The transmit status words of a command that firmware pushed (R203). -/
def State.fwStatus (s : State) (r : Nat) (c : TxCmd) (acked : Nat → Bool) (noResp : Bool) : State :=
  if c.from_ != .firmware || nbits (s.tv r c 0) 31 28 = 7 then s
  else (s.cmdDescs r c).foldl (fun s d => s.txStatusWord r d (acked d) noResp) s

/-! The steering cache (R233, R235). -/

/-- The entry of a station in a radio's cache. -/
def State.steerOf (s : State) (r scid : Nat) : Option Nat :=
  (List.range 256).find? fun i => s.rbit (MLINK.STEER_STAT r i) 31 && s.rf (MLINK.STEER_STAT r i) 27 18 = scid

/-- When an entry's matrix was installed. -/
def State.steerAge (s : State) (r i : Nat) : Nat := s.clock - tget (fun _ => 0) s.mlink.steerAt (256 * r + i)

/-- An entry is stale. -/
def State.steerStale (s : State) (r i : Nat) : Bool := max 1 (s.rf MLINK.SOUND_CTL 23 16) * 500000 < s.steerAge r i

/-- An entry serves a command queued or not finished. -/
def State.steerInUse (s : State) (r i : Nat) : Bool :=
  let uses := fun (c : TxCmd) =>
    let w := s.tv r c 0
    let f := nbits w 31 28
    c.words != [] && ((f ≤ 5 && nbits w 8 8 = 1 && w % 256 = i)
      || (f = 8 && nbits w 27 25 = 1 && c.mpdus.any fun m => s.steerOf r (m.stq / 8) = some i))
  (s.radio r).cmds.any uses

/-- The command under way is a sounding sequence. -/
def State.soundingNow (s : State) (r : Nat) : Bool :=
  match (s.radio r).tx with
  | some t => s.isSounding r t.cmd
  | none => false

/-- Install a matrix in place of the station's entry, in a free one, or in that of the oldest matrix among stations not named; none
where there is none of those (R233, R235). -/
def State.steerInstall (s : State) (r scid : Nat) (m : SteerMat) (named : List Nat) : Option State :=
  let e := MLINK.STEER_STAT r
  let free := (List.range 256).find? fun i => !s.rbit (e i) 31
  let others := (List.range 256).filter fun i => !named.contains (s.rf (e i) 27 18) && !s.steerInUse r i
  let oldest := others.foldl (fun (b : Option Nat) i => match b with
    | none => some i
    | some j => if s.steerAge r j < s.steerAge r i then some i else b) none
  match (s.steerOf r scid).or (free.or oldest) with
  | none => none
  | some i =>
    let o := s.rd (e i)
    let s1 := if bit o 31 && fld o 27 18 != scid then s.ctxPut (fld o 27 18) (linkOff r + 16) 2 0 else s
    let s2 := (s1.wr (e i) (wd (2 ^ 31 + m.nc % 8 * 2 ^ 28 + scid * 2 ^ 18))).modMlink fun x => { x with
      steer := tput (fun _ => {}) x.steer (256 * r + i) m, steerAt := tput (fun _ => 0) x.steerAt (256 * r + i) s.clock }
    some (s2.ctxPut scid (linkOff r + 16) 2 (2 ^ 15 + i))

/-- Matrices that waited for their entry are installed once no command uses it. -/
def State.steerSettle (s : State) (r : Nat) : State :=
  s.mlink.steerPend.foldl (fun s p =>
    if p.radio != r then s
    else match s.steerOf r p.scid with
      | some i =>
        if s.steerInUse r i then s
        else
          let s1 := s.modMlink fun x => { x with steerPend := x.steerPend.filter (· != p) }
          (s1.steerInstall r p.scid p.mat []).getD s1
      | none => s.modMlink fun x => { x with steerPend := x.steerPend.filter (· != p) }) s

/-! Outcomes of exchanges (R190, R191). -/

/-- An MPDU in the store is QoS data with its end of service period set (R224; the header's places PRESUMED, log entry 52). -/
def State.eosp (s : State) (d : Nat) : Bool :=
  let b := s.dData d
  (b.getD 0 0).toNat / 4 % 4 = 2 && (b.getD 0 0).getLsbD 7 && (b.getD 24 0).getLsbD 4

/-- A link that a PS-Poll or a U-APSD trigger woke sleeps again once its station was served, or its end of service period was sent,
outside service periods, and matrices that waited are installed (R224, R235, DEDUCED, log entry 21). `ends` are the stations to
which an end of service period went. -/
def State.pollDone (s : State) (r : Nat) (c : TxCmd) (ends : List Nat) : State :=
  ((c.mpdus.map fun (m : FlightMpdu) => m.stq / 8) ++ ends).foldl (fun (s : State) (j : Nat) =>
    let k := 4 * j + r
    if s.mlink.polled.contains k || ends.contains j then
      let s1 := s.modMlink fun x => { x with polled := x.polled.filter (· != k) }
      if s1.twtAwake j r then s1 else s1.setLinkFlag j r 3 false
    else s) s |> fun s1 => s1.steerSettle r

/-- The access category that a transmission's outcome counts for. -/
def TxNow.ac (t : TxNow) : Option Nat := if t.queue < 4 then some t.queue else none

/-- The exchange of a transmission ends as a success. -/
def State.exchangeOk (s : State) (r : Nat) (t : TxNow) : State :=
  let s1 := (s.modMac r fun m => { m with await := none, exchangeEnd := s.clock }).txFinish r t (if t.underrun then 1 else 0)
  let s2 := match t.ac with
    | some ac =>
      let s2 := s1.acSuccess r ac
      if s.txopLimit r ac = 0 then s2.endTxop r else s2
    | none => if (s1.mac r).txop.isNone then s1.emlRelease r else s1
  let s2 := match t.cmd.from_ with
    | .beacon => { s2 with fabric := { s2.fabric with
        bcn := tput (fun _ => (0, 0)) s2.fabric.bcn r ((tget (fun _ => (0, 0)) s2.fabric.bcn r).1, t.stamp) } }
    | _ => s2
  (s2.fabStatus t.cmd true).pollDone r t.cmd t.eosp

/-- The exchange fails (R190): its MPDUs stay queued, with NO_RESP where no response came. A failed RTS leaves its command at
the head of its queue, its PPDU not sent (DEDUCED, log entry 14). -/
def State.exchangeFail (s : State) (r : Nat) (t : TxNow) (noResp : Bool) : State :=
  let s1 := s.modMac r fun m => { m with await := none }
  let s2 := match t.ac with
    | some ac => (s1.endTxop r).acFailure r ac
    | none => if (s1.mac r).txop.isNone then s1.emlRelease r else s1
  let s3 := match t.stage with
    | .rts => (s2.setTxq r t.queue ({ t.cmd with due := none } :: s2.txq r t.queue)).syncTxBusy r
    | _ => (t.cmd.mpdus.foldl (fun s m => s.stqMissed r noResp m)
        ((s2.fwStatus r t.cmd (fun _ => false) noResp).txFinish r t (if t.underrun then 1 else 0))).pollDone r t.cmd t.eosp
  match t.cmd.from_, t.tpPeer with
  | .tpTable p, _ => s3.tpTableDone r p false
  | _, some p => ((s3.tpStatus r t.cmd false noResp).tpTxFail r p).fabStatus t.cmd false
  | _, none => s3

end Sys2Proof.Machine
end

