-- ==== Sys2Proof/Machine/Seq.lean ====
section
/-! DEFINITION. The radio sequencer, transmit commands and responses at SIFS (R141 to R159, R192, R231, R232, R285). -/

namespace Sys2Proof.Machine

open Reg

/-! Steps and banks (R141, R148, R150). -/

/-- The active bank. -/
def State.bank (s : State) (r : Nat) : Nat := s.rf (RADIO.SEQ_CTL r) 30 30
/-- Device address of a step. -/
def stepAddr (r bank i : Nat) : Nat := lm (rTile r) (0x100000 + 0x4000 * bank + 16 * i)
/-- Fields of a step's words. -/
def SeqStep.kind (x : SeqStep) : Nat := nbits x.w3 30 29
/-- SAFE. -/
def SeqStep.safe (x : SeqStep) : Bool := x.w3.testBit 31
/-- EV_KEEP. -/
def SeqStep.keep (x : SeqStep) : Bool := x.w3.testBit 28
/-- EVENT. -/
def SeqStep.event (x : SeqStep) : Nat := nbits x.w3 27 22
/-- DURATION. -/
def SeqStep.duration (x : SeqStep) : Nat := nbits x.w3 21 1
/-- NEXT_EV. -/
def SeqStep.nextEv (x : SeqStep) : Nat := nbits x.w2 31 22
/-- NEXT_TO. -/
def SeqStep.nextTo (x : SeqStep) : Nat := nbits x.w2 21 12
/-- PARAM. -/
def SeqStep.paramIdx (x : SeqStep) : Nat := nbits x.w2 11 0

/-- A word of a step's parameter record, as the step read it when it began (R148). -/
def State.paramWord (s : State) (r i : Nat) : Nat := (s.radio r).step.rec_.getD i 0

/-- A write to a bank is accepted: it is not the active one, and no swap is pending (R148). -/
def State.bankOpen (s : State) (r bank : Nat) : Bool := bank != s.bank r && (s.radio r).swap.isNone

/-- A write of bytes into a bank by SEQW or through the local memory window, or a discarded one (R148). -/
def State.bankWrite (s : State) (r bank off : Nat) (bs : List Byte) : State :=
  if s.bankOpen r bank then s.wbytes (lm (rTile r) (0x100000 + 0x4000 * bank + off)) bs
  else s.sat (RADIO.SEQ_ERR_CNT r) 31 16 1

/-- Post a swap result (R149). -/
def State.seqPost (s : State) (r bank step : Nat) : State :=
  (s.pathPost (RADIO.SEQ_RESULT r) 16 (s.pathTag (RADIO.SEQ_RESULT r) 16) (bank * 2 ^ 10 + step)).evt (rTile r) 22

/-- A swap while the sequencer is stopped takes effect at once (R149). -/
def State.swapStopped (s : State) (r entry : Nat) : State :=
  let b := 1 - s.bank r
  let c := s.rd (RADIO.SEQ_CTL r)
  (((s.modRadio r fun x => { x with swap := none }).wr (RADIO.SEQ_CTL r) (putFld (putFld c 30 30 b) 9 0 entry)).wr
    (RADIO.SEQ_STATUS r) (putFld (putBit (s.rd (RADIO.SEQ_STATUS r)) 29 false) 30 30 b)).seqPost r b entry

/-- Receiving chains whose RXEN falls leave the reception (R172). -/
def State.rxenChanged (s : State) (r : Nat) : State :=
  let x := (s.radio r).rx
  if x.phase = .idle then s
  else
    let now := x.chains &&& s.rxen r
    if now = 0 then s.rxAbort r 11
    else
      let n := match x.tp, x.sig with
        | some t, _ => t.nss
        | none, some g => g.coding.toNat % 16
        | none, none => 1
      let s1 := s.modRadio r fun y => { y with rx := { y.rx with chains := now } }
      if pop8 now < n then s1.rxAbort r 7 else s1

/-- The sequencer stops (R149, R150): RUN falls, enables fall, SEQ_STOP sets, and a pending swap is made. -/
def State.seqStop (s : State) (r : Nat) : State :=
  if !s.seqRunning r then s
  else
    let s1 := (((s.wr (RADIO.SEQ_STATUS r) (putBit (s.rd (RADIO.SEQ_STATUS r)) 31 false)).wr (RADIO.SEQ_CTL r)
      (putBit (s.rd (RADIO.SEQ_CTL r)) 31 false)).modRadio r fun x => { x with next := none, step := {} }).evt (rTile r) 23
    let s2 := s1.rxenChanged r
    match (s.radio r).swap with
    | none => s2
    | some e => (s2.releaseToken kSEQSW (rTile r)).swapStopped r e

/-- SEQ_CTL_WRITE (R150). -/
def execSeqCtlWrite (by_ : Req) (r : Fin 3) (val : Word) (s : State) : Host.Outcome State Fault Refusal :=
  .next <| s.onWrite by_ (rTile r.val) fun s =>
    let r := r.val
    let c := RADIO.SEQ_CTL r
    if s.seqRunning r then
      let s1 := s.wf c 9 0 (fld val 9 0)
      if bit val 31 then s1 else s1.seqStop r
    else
      let run := bit val 31 && s.live (rTile r)
      let b := fld val 30 30
      let s1 := s.wr c (putBit (val &&& 0x400003FF) 31 run)
      let st := putBit (putFld (s1.rd (RADIO.SEQ_STATUS r)) 30 30 b) 31 run
      let s2 := s1.wr (RADIO.SEQ_STATUS r) st
      if run then s2.modRadio r fun x => { x with step := {}, next := some (fld val 9 0, s.tick) } else s2

/-- A swap may be made: the step ended is SAFE, a swap waits and its token is held (R149). -/
def State.swapDue (s : State) (r : Nat) : Bool :=
  let x := s.radio r
  s.seqRunning r && x.next.isSome && x.swap.isSome && x.step.safe && s.holds kSEQSW (rTile r)

/-- SEQ_SWAP_REQUEST (R149). -/
def execSeqSwapRequest (by_ : Req) (r : Fin 3) (entry : BitVec 10) (tag : Tag) (s : State) :
    Host.Outcome State Fault Refusal :=
  .next <| s.onWrite by_ (rTile r.val) fun s =>
    let r := r.val
    if !s.pathFree (RADIO.SEQ_RESULT r) then s.sat (RADIO.SEQ_ERR_CNT r) 7 0 1
    else
      let s1 := s.pathBusy (RADIO.SEQ_RESULT r) 16 tag
      if s.seqRunning r then
        ((s1.modRadio r fun x => { x with swap := some entry.toNat }).wf (RADIO.SEQ_STATUS r) 29 29 1).askToken kSEQSW (rTile r)
      else s1.swapStopped r entry.toNat

/-- SEQ_SWAP_APPLY (R149). -/
def execSeqSwapApply (r : Fin 3) (s : State) : Host.Outcome State Fault Refusal :=
  .next <|
    let r := r.val
    let x := s.radio r
    match x.swap, x.next with
    | some e, some (_, t) =>
      if !s.swapDue r then s
      else
        let b := 1 - s.bank r
        let s1 := (s.modRadio r fun y => { y with swap := none, next := some (e, t) }).wf (RADIO.SEQ_CTL r) 30 30 b
        let s2 := s1.wr (RADIO.SEQ_STATUS r) (putFld (putBit (s1.rd (RADIO.SEQ_STATUS r)) 29 false) 30 30 b)
        (s2.seqPost r b (s.rf (RADIO.SEQ_STATUS r) 25 16)).releaseToken kSEQSW (rTile r)
    | _, _ => s

/-- SEQ_ACK (R28, R149). -/
def execSeqAck (by_ : Req) (r : Fin 3) (tag : Tag) (s : State) : Host.Outcome State Fault Refusal :=
  .next <| s.onWrite by_ (rTile r.val) fun s => s.pathAck (RADIO.SEQ_RESULT r.val) 16 tag

/-- SEQ_POKE (R145). -/
def execSeqPoke (by_ : Req) (r : Fin 3) (poke : Bool) (s : State) : Host.Outcome State Fault Refusal :=
  .next <| s.onWrite by_ (rTile r.val) fun s => if poke then s.seqEvent r.val evCTRL else s

/-- CTRL_RUN_WRITE: the start control of the four radio controller threads (R41). -/
def execCtrlRunWrite (by_ : Req) (r : Fin 3) (val : Word) (s : State) : Host.Outcome State Fault Refusal :=
  .next (s.runWrite by_ (rTile r.val) 4 (RADIO.CTRL_RUN r.val) val)

/-! What a TXVECTOR may ask for (R154, R160, R192, R231, R285). -/

/-- A single-user format allows the combination (R160): band, format, width, MCS, streams, guard interval and coding. -/
def suAllowed (band fmt bw mcs nss gi : Nat) (ldpc stbc dcm : Bool) : Bool :=
  match fmt with
  | 0 => mcs ≤ 7 && nss = 1 && gi = 0 && !ldpc && !stbc && !dcm
  | 1 => band ≤ 1 && bw ≤ 1 && mcs ≤ 31 && nss = mcs / 8 + 1 && (gi = 0 || gi = 3) && !dcm
  | 2 => band = 1 && bw ≤ 3 && mcs ≤ 9 && (gi = 0 || gi = 3) && !dcm
  | 3 => bw ≤ (if band = 0 then 1 else 3) && mcs ≤ 11 && gi ≤ 2
  | 4 => bw = 0 && mcs ≤ 2 && nss = 1 && gi ≤ 2 && !stbc
  | 5 => bw ≤ (if band = 2 then 4 else 3) && mcs ≤ 13 && gi ≤ 2 && !stbc && !dcm
  | 6 => band = 0 && bw = 0 && mcs ≤ 3 && nss = 1 && !ldpc && !stbc && !dcm
  | _ => false

/-- Bits per subcarrier and code rate of an MCS of HE and EHT (PRESUMED, log entry 18). -/
def mcsBits (mcs : Nat) : Nat × Nat × Nat :=
  match mcs with
  | 0 => (1, 1, 2) | 1 => (2, 1, 2) | 2 => (2, 3, 4) | 3 => (4, 1, 2) | 4 => (4, 3, 4) | 5 => (6, 2, 3) | 6 => (6, 3, 4)
  | 7 => (6, 5, 6) | 8 => (8, 3, 4) | 9 => (8, 5, 6) | 10 => (10, 3, 4) | 11 => (10, 5, 6) | 12 => (12, 3, 4) | _ => (12, 5, 6)

/-- Data tones of a RU by its size. -/
def ruTones (size : Nat) : Nat := [24, 48, 102, 234, 468, 980, 1960, 3920].getD size 3920

/-- Symbol duration in units of 0.1 µs by guard interval. -/
def symDur (gi : Nat) : Nat := match gi % 4 with
  | 0 => 136 | 1 => 144 | 2 => 160 | _ => 132

/-- Bits per symbol times the denominator, and the denominator, of a user on a number of tones. -/
def userBits (tones mcs nss : Nat) : Nat × Nat :=
  let m := mcsBits mcs
  (tones * m.1 * m.2.1 * nss, m.2.2)

/-- Data tones by width of the formats before HE (PRESUMED, log entry 18). -/
def oldTones (bw : Nat) : Nat := [52, 108, 234, 468].getD bw 468

/-- First position of the 20 MHz unit `u`, in units of RU26, and the positions of a RU: first and count (R228). At 80 MHz
and above each 80 MHz holds 37 positions, the middle one between its second and third 20 MHz. -/
def ruBase (wide : Bool) (u : Nat) : Nat :=
  if wide then 37 * (u / 4) + 9 * (u % 4) + (if 2 ≤ u % 4 then 1 else 0) else 9 * u

/-- The positions of a RU of a size and index. -/
def ruSpan (wide : Bool) (size idx : Nat) : Nat × Nat :=
  match size with
  | 0 => (idx, 1)
  | 1 => (ruBase wide (idx / 4) + ([0, 2, 5, 7].getD (idx % 4) 0), 2)
  | 2 => (ruBase wide (idx / 2) + 5 * (idx % 2), 4)
  | 3 => (ruBase wide idx, 9)
  | 4 => (ruBase wide (2 * idx), 18)
  | 5 => (37 * idx, 37)
  | 6 => (74 * idx, 74)
  | _ => (148 * idx, 148)

/-- RUs of a size at a width (R228). -/
def ruCount (size bw : Nat) : Nat :=
  let t := match size with
    | 0 => [9, 18, 37, 74, 148]
    | 1 => [4, 8, 16, 32, 64]
    | 2 => [2, 4, 8, 16, 32]
    | 3 => [1, 2, 4, 8, 16]
    | 4 => [0, 1, 2, 4, 8]
    | 5 => [0, 0, 1, 2, 4]
    | 6 => [0, 0, 0, 1, 2]
    | _ => [0, 0, 0, 0, 1]
  t.getD bw 0

/-- The 20 MHz subchannels that a position lies in. -/
def ruSubs (wide : Bool) (p : Nat) : List Nat :=
  if !wide then [p / 9]
  else if p % 37 < 18 then [4 * (p / 37) + p % 37 / 9]
  else if p % 37 = 18 then [4 * (p / 37) + 1, 4 * (p / 37) + 2]
  else [4 * (p / 37) + 2 + (p % 37 - 19) / 9]

/-- A RU overlaps a punctured subchannel. -/
def ruPunct (wide : Bool) (punct size idx : Nat) : Bool :=
  let p := ruSpan wide size idx
  (List.range p.2).any fun i => (ruSubs wide (p.1 + i)).any fun b => punct.testBit b

/-- Two RUs meet. -/
def ruMeet (wide : Bool) (p q : Nat × Nat) : Bool :=
  let a := ruSpan wide p.1 p.2
  let b := ruSpan wide q.1 q.2
  a.1 < b.1 + b.2 && b.1 < a.1 + a.2

/-- No two RUs of a list meet. -/
def rusApart (wide : Bool) : List (Nat × Nat) → Bool
  | [] => true
  | p :: ps => (ps.all fun q => !ruMeet wide p q) && rusApart wide ps

/-- Chains of a command: a mask of 0 means every ACTIVE chain. -/
def State.cmdMask (s : State) (r : Nat) (c : TxCmd) : Nat :=
  let m := nbits (c.word 0) 23 16
  if m = 0 then s.activeMask r else m

/-- Chains of a command that are ACTIVE. -/
def State.cmdLive (s : State) (r : Nat) (c : TxCmd) : Nat := pop8 (s.cmdMask r c &&& s.activeMask r)

/-- Streams that the PPDUs of a multi-user command take: the most of any user under OFDMA, all of them together under MU-MIMO, one
for triggers and sounding. -/
def muNss (kind : Nat) (us : List Nat) : Nat :=
  match kind with
  | 0 => (us.map fun u => nbits u 20 18 + 1).foldl max 1
  | 1 => (us.map fun u => nbits u 20 18 + 1).sum
  | _ => 1

/-- A multi-user TXVECTOR may be sent (R154, R208, R231, and the table's own conditions). -/
def State.muAllowed (s : State) (r : Nat) (c : TxCmd) : Bool :=
  let w0 := s.tv r c 0
  let w1 := s.tv r c 1
  let kind := nbits w0 27 25
  let bw := nbits w0 24 22
  let n := nbits w0 16 8
  let us := s.muUsers r c
  let wide := 2 ≤ bw
  let rus := us.map fun u => (nbits u 31 29, nbits u 28 21)
  kind ≤ 5 && bw ≤ s.width r && 1 ≤ n && n ≤ 148 && nbits w1 15 14 != 3
    && us.all (fun u => nbits u 17 14 ≤ 13)
    && (4 ≤ kind || (rus.all fun p => p.2 < ruCount p.1 bw && !ruPunct wide (nbits w1 31 16) p.1 p.2)
        && (kind = 1 || rusApart wide rus))
    && (kind != 1 || muNss kind us ≤ min 8 (s.rf (RADIO.MAC_CAP r) 3 0))
    && muNss kind us ≤ s.cmdLive r c

/-- Streams, data tones and coded bits per symbol of the table a Towpath DATA frame to a peer takes: the transmit table
current after R281's choice, or the base table. -/
def State.tpShape (s : State) (r : Nat) (peer : Option Nat) (bnss punct : Nat) : Nat × Nat :=
  match peer with
  | none => (bnss + 1, 2 * s.tpTonesIn r punct * (bnss + 1))
  | some p =>
    let st := s.rd (RADIO.TP_PEER_STAT r p)
    let seq := s.rf (RADIO.TP_PEER_SEQ r p) 11 0
    let sw := bit st 31 && fld st 23 20 != 0 && (seq + 4096 - fld st 11 0) % 4096 < 2048
    match s.tpFind r p true (if sw then 2 else 1) with
    | some k => ((s.rb (tpSlot r k + 2)).toNat, s.rm (tpSlot r k + 8) 4)
    | none =>
      let n := s.rf (RADIO.TP_PEER_CFG r p) 18 16 + 1
      (n, 2 * s.tpTonesIn r punct * n)

/-- TP-LTF symbols by streams (R265's frame table). -/
def nltf (nss : Nat) : Nat := [1, 2, 4, 4, 6, 6, 8, 8].getD (nss - 1) 8

/-- Duration of a Towpath frame in units of 0.1 µs (R270): `p` payload bytes, a rate, coded bits per symbol, streams and a
guard interval. -/
def tpDuration (p rate ncbps nss gi : Nat) : Nat :=
  let k := [972, 1296, 1458, 1620].getD rate 1620
  let ncw := (8 * p + k - 1) / k
  let nsym := if ncbps = 0 then 0 else (ncw * 1944 + ncbps - 1) / ncbps
  360 + (nltf nss + nsym) * (if gi = 0 then 136 else 144)

/-- A Towpath command may be sent (R264, R285). -/
def State.tpAllowed (s : State) (r : Nat) (c : TxCmd) : Bool :=
  let w0 := s.tv r c 0
  let w1 := s.tv r c 1
  let bcast := nbits w0 27 27 = 1
  let p := nbits w0 19 16
  let sh := s.tpShape r (if bcast then none else some p) (nbits w1 2 0) (nbits w1 31 16)
  let d := tpDuration (c.word 3 / 256 + 8) (s.rf (RADIO.TP_CTL r) 25 24) sh.2 sh.1 (s.rf (RADIO.TP_CTL r) 23 23)
  s.tpOn r && (bcast || s.tpValid r p) && !(nbits w1 31 16).testBit (s.primaryIdx r)
    && sh.1 ≤ s.cmdLive r c && d ≤ 54840

/-- A command may be transmitted at TX_START; otherwise it completes ABORTED (R154). -/
def State.txAllowed (s : State) (r : Nat) (c : TxCmd) : Bool :=
  match c.from_ with
  | .tpTable p => s.tpOn r && s.tpValid r p && s.tpOn r
  | _ =>
    let w0 := s.tv r c 0
    let w1 := s.tv r c 1
    let fmt := nbits w0 31 28
    let nss := nbits w0 19 16 + 1
    if fmt ≤ 6 then
      nbits w0 27 25 ≤ s.width r && nbits w1 13 12 != 3 && nss ≤ s.cmdLive r c && nss ≤ 8
        && suAllowed (s.band r) fmt (nbits w0 27 25) (nbits w0 23 20) nss (nbits w0 13 12) (nbits w0 11 11 = 1)
          (nbits w0 10 10 = 1) (nbits w0 9 9 = 1)
    else if fmt = 7 then s.tpAllowed r c
    else if fmt = 8 then s.muAllowed r c
    else false

/-! Starting a command (R147, R153, R154, R281). -/

/-- The PSDU of a command is group addressed: bit 0 of its first MPDU's A1. -/
def State.groupPsdu (s : State) (r : Nat) (c : TxCmd) : Bool :=
  match s.cmdDescs r c with
  | d :: _ => ((s.dData d).getD 4 0).getLsbD 0
  | [] => false

/-- The EML stations that a command's PPDUs address (R206). -/
def State.emlNeeds (s : State) (r : Nat) (c : TxCmd) : List Nat :=
  let fmt := nbits (s.tv r c 0) 31 28
  let l := if c.words = [] then []
    else if fmt ≤ 6 then (if s.groupPsdu r c then [] else [s.tv r c 1 % 1024])
    else if fmt = 8 then (s.muUsers r c).map (· % 1024)
    else []
  l.filter fun scid => s.ctxState scid = 2 && (nbits (s.ctxFw scid 4 1) 2 1 = 1 || nbits (s.ctxFw scid 4 1) 2 1 = 2)

/-- A command addresses an EML station on a link that the station has left: another radio's TXOP holds it, if it is EMLSR, or its
transition delay still runs (R206, DEDUCED, log entry 58). -/
def State.emlAway (s : State) (r : Nat) (c : TxCmd) : Bool :=
  (s.emlNeeds r c).any fun k =>
    let l := tget (fun _ => 0) s.mlink.emlLink k
    l != 0 && l != r + 1 && (nbits (s.ctxFw k 4 1) 2 1 = 1 || tget (fun _ => 0) s.mlink.emlUntil k != 0)

/-- The stage in which a command starts: what protects its PPDU, an MU-RTS where it is the first to an EMLSR station in the
TXOP (PROTECT, R206), unless it is an MU-RTS itself. -/
def State.firstStage (s : State) (r : Nat) (c : TxCmd) : TxStage :=
  if (s.emlNeeds r c).any (s.emlNew r ·) && !(nbits (s.tv r c 0) 31 28 = 8 && nbits (s.tv r c 0) 27 25 = 4) then .rts
  else if c.words = [] || 6 < nbits (s.tv r c 0) 31 28 then .ppdu 0
  else match nbits (s.tv r c 1) 15 14 with
    | 1 => .rts
    | 2 => .ctsSelf
    | _ => .ppdu 0

/-- A frame of a Towpath command takes its SEQ, or BCAST_SEQ, and its table; a TABLE frame fixes its epoch (R278, R281). -/
def State.tpStart (s : State) (r : Nat) (c : TxCmd) : State × Option Nat × Nat :=
  match c.from_ with
  | .tpTable p =>
    let ep := (s.rf (RADIO.TP_PEER_SEQ r p) 27 16 + max 1 (s.rf (RADIO.TP_LOAD_CTL2 r) 7 0)) % 4096
    let s1 := (s.setTp r p { s.tpPeer r p with epochSent := ep }).wf (RADIO.TP_PEER_STAT r p) 29 28
      (min 3 (s.rf (RADIO.TP_PEER_STAT r p) 29 28 + 1))
    let t := s1.tpTake r p false
    (t.1, some p, t.2)
  | _ =>
    let w0 := s.tv r c 0
    if nbits w0 31 28 != 7 then (s, none, 0)
    else if nbits w0 27 27 = 1 then
      let q := s.rf (RADIO.TP_STATUS r) 11 0
      (s.wf (RADIO.TP_STATUS r) 11 0 ((q + 1) % 4096), none, q)
    else
      let t := s.tpTake r (nbits w0 19 16) true
      (t.1, some (nbits w0 19 16), t.2)

/-- A power field as a signed number of 0.25 dB, limited by the board (R111). -/
def State.limitPower (s : State) (r p : Nat) : Int :=
  let lim := max (-40) (min 24 (sval 8 (s.rf (RADIO.RF_BOARD r) 23 16)))
  max (-40) (min lim (sval 8 p))

/-- The power of a command. -/
def State.cmdPower (s : State) (r : Nat) (c : TxCmd) : Int := s.limitPower r (nbits (c.word 0) 15 8)

/-! Widths, durations and aligned ends (R191, R192, R205). -/

/-- The words of a command's TXVECTOR. -/
def State.tvWords (s : State) (r : Nat) (c : TxCmd) : List Nat :=
  (List.range (if nbits (s.tv r c 0) 31 28 = 8 then 8 + 2 * min 148 (nbits (s.tv r c 0) 16 8) else 8)).map fun i => s.tv r c i

/-- What a PPDU of a command lasts, in nanoseconds. -/
def State.cmdNs (s : State) (r : Nat) (c : TxCmd) : Nat :=
  match c.from_ with
  | .tpTable p =>
    100 * tpDuration (16 + (match s.tpFind r p false 2 with
      | some k => s.rm (tpSlot r k + 12) 2
      | none => 0)) 0 (s.tpShape r none 0 0).2 1 (s.rf (RADIO.TP_CTL r) 23 23)
  | _ =>
    let w0 := s.tv r c 0
    if nbits w0 31 28 = 7 then
      let w1 := s.tv r c 1
      let sh := s.tpShape r (if nbits w0 27 27 = 1 then none else some (nbits w0 19 16)) (nbits w1 2 0) (nbits w1 31 16)
      100 * tpDuration (c.word 3 / 256 + 8) (s.rf (RADIO.TP_CTL r) 25 24) sh.2 sh.1 (s.rf (RADIO.TP_CTL r) 23 23)
    else Config.ppduNs (0 :: s.tvWords r c) (c.word 3 / 256)

/-- What the response that a command asks for lasts, in nanoseconds; 0 where it asks for none. -/
def State.answerNs (s : State) (r : Nat) (c : TxCmd) : Nat :=
  let w0 := s.tv r c 0
  if nbits w0 31 28 = 7 then
    (if nbits w0 27 27 = 1 then 0 else 100 * tpDuration 28 0 (2 * s.tpTones r) 1 (s.rf (RADIO.TP_CTL r) 23 23))
  else if (if nbits w0 31 28 = 8 then nbits (s.tv r c 1) 15 14 else nbits (s.tv r c 1) 13 12) = 0 then 0
  else Config.ppduNs (3 :: s.rf (RADIO.MAC_CTL r) 7 0 :: s.tvWords r c) 0

/-- What the stage of a transmission lasts, in ticks. -/
def State.stageTicks (s : State) (r : Nat) (t : TxNow) : Nat :=
  (match t.stage with
    | .rts => Config.ppduNs (1 :: s.rf (RADIO.MAC_CTL r) 7 0 :: s.tvWords r t.cmd) 20
    | .ctsSelf => Config.ppduNs (2 :: s.rf (RADIO.MAC_CTL r) 7 0 :: s.tvWords r t.cmd) 14
    | .ppdu _ => s.cmdNs r t.cmd) * 8 / 25

/-- Ticks in 8 µs. -/
def alignTicks : Nat := 2560

/-- When the NSTR partners of a radio that transmit end. -/
def State.partnerEnds (s : State) (r : Nat) : List Nat :=
  (s.nstr r).filterMap fun q =>
    let x := s.radio q
    match x.tx.filter (·.onAir) with
    | some t => some t.till
    | none => if x.resp.phase = .sending then some x.resp.till else none

/-- A PPDU of this format can be padded: it is an A-MPDU (R205; which formats are, PRESUMED, log entry 18). -/
def State.padsTo (s : State) (r : Nat) (c : TxCmd) : Bool :=
  let f := nbits (s.tv r c 0) 31 28
  c.words != [] && ((2 ≤ f && f ≤ 5) || (f = 1 && nbits (s.tv r c 1) 13 12 = 2) || (f = 8 && nbits (s.tv r c 0) 27 25 < 2))

/-- A command whose first sample passes 512 ticks after a tick can end within 8 µs of every partner's transmission without
truncation (R205). -/
def State.aligned (s : State) (r : Nat) (c : TxCmd) (at_ : Nat) : Bool :=
  let e := at_ + 512 + s.stageTicks r { queue := 0, cmd := c, stage := s.firstStage r c, first := 0, stamp := 0 }
  (s.partnerEnds r).all fun p => e ≤ p + alignTicks && (p ≤ e + alignTicks || s.padsTo r c)

/-- The tick at which a stage ends that begins at a first sample, padded to the partners' ends where it can be (R205, DEDUCED, log
entry 58). -/
def State.endTick (s : State) (r : Nat) (t : TxNow) (first : Nat) : Nat :=
  let e := first + s.stageTicks r t
  if s.padsTo r t.cmd then (s.partnerEnds r).foldl max e else e

/-- The 20 MHz subchannels of a width around the primary, counted in the tuned channel, as a mask. -/
def State.segMask (s : State) (r w : Nat) : Nat :=
  let n := 2 ^ w
  (2 ^ n - 1) * 2 ^ (s.primaryIdx r / n * n)

/-- The widest width from `w` down whose subchannels were idle for PIFS before the grant, but for those that PUNCT marks (R192). -/
def State.widest (s : State) (r punct : Nat) : Nat → Nat
  | 0 => 0
  | w + 1 =>
    if s.segMask r (w + 1) &&& (s.mac r).subBusy &&& (65535 - punct) = 0 then w + 1 else s.widest r punct w

/-- A command of fixed width finds a secondary subchannel busy that PUNCT does not mark, by a mask of those busy (R192). -/
def State.secBusy (s : State) (r : Nat) (c : TxCmd) (busy : Nat) : Bool :=
  let w0 := s.tv r c 0
  c.words != [] && nbits w0 31 28 ≤ 6 && nbits w0 24 24 = 0
    && s.segMask r (nbits w0 27 25) &&& (busy ||| (s.mac r).subBusy) &&& (65535 - nbits (s.tv r c 1) 31 16)
      &&& (65535 - 2 ^ s.primaryIdx r) != 0

/-- Width and punctured subchannels of a single-user command of a queue: BW_DYN lets a granted one take less than BW (R192). What is
punctured is what PUNCT marks and was busy (DEDUCED, log entry 58). -/
def State.txWidth (s : State) (r q : Nat) (c : TxCmd) : Nat × Nat :=
  let w0 := s.tv r c 0
  let p := nbits (s.tv r c 1) 31 16
  let bw := nbits w0 27 25
  let w := if q < 4 && nbits w0 24 24 = 1 then s.widest r p bw else bw
  (w, p &&& (s.mac r).subBusy &&& s.segMask r w)

/-- Stations to which the MPDUs of a command carry an end of service period. -/
def State.eospOf (s : State) (r : Nat) (c : TxCmd) : List Nat :=
  (s.cmdDescs r c).filterMap fun d => if s.eosp d then s.mpduScid r c d else none

/-- A command of several PPDUs ends: the MPDUs whose outcome has not come drew no response (R229, R232, R238). -/
def State.seriesEnd (s : State) (r : Nat) (t : TxNow) (ok : Bool) : State :=
  let s1 := s.modRadio r fun y => { y with muDue := none, tx := none }
  if ok then
    (t.cmd.mpdus.foldl (fun (s : State) m => s.stqMissed r true m) s1).exchangeOk r { t with cmd := { t.cmd with mpdus := [] } }
  else s1.exchangeFail r t true

/-- TX_START takes the command selected from its queue: it starts, its first sample 512 ticks later, or completes ABORTED.
A later PPDU of a command of several starts likewise (R232). -/
def State.txStart (s : State) (r at_ : Nat) : State :=
  let x := s.radio r
  match x.selected with
  | none =>
    match x.muDue, x.tx with
    | some due, some t =>
      let s0 := s.rxAbort r 10
      let n := match t.stage with
        | .ppdu n => n + 1
        | _ => 0
      if due + x.window < at_ then
        s0.seriesEnd r t (!t.cmd.heard.isEmpty)
      else
        let t1 : TxNow := { t with stage := .ppdu n, onAir := true, first := at_ + 512 }
        ((s0.modRadio r fun y => { y with
          muDue := none, tx := some { t1 with till := s0.endTick r t1 (at_ + 512) } }).macBusy r).syncTxBusy r
    | _, _ => s.sat (RADIO.SEQ_ERR_CNT r) 15 8 1
  | some q =>
    match s.txq r q with
    | [] => s.sat (RADIO.SEQ_ERR_CNT r) 15 8 1
    | c :: cs =>
      let s1 := ((s.rxAbort r 10).modRadio r fun y => { y with selected := none, granted := none }).setTxq r q cs
      if !s1.txAllowed r c then (s1.txUnsent r q c 4).seqEvent r evTXEND
      else
        let mask := s1.cmdMask r c
        let tp := s1.tpStart r c
        let stamp := s.ns + 1600 + s.femDelay r mask 31 16
        let due := c.due.getD s.tick
        let t : TxNow := {
          queue := q, cmd := c, stage := s.firstStage r c, first := at_ + 512, stamp := stamp, chains := mask,
          dpd := s.dpdChains r mask (s.cmdPower r c),
          delay := (at_ - (due + 1)) * 25 / 8, tpPeer := tp.2.1, tpSeq := tp.2.2
          width := (s.txWidth r q c).1, punct := (s.txWidth r q c).2, ng := if s.rbit MLINK.SOUND_CTL 1 then 16 else 4 }
        let t : TxNow := { t with till := s.endTick r t (at_ + 512) }
        let tp := ((s1.emlNeeds r c).foldl (fun s k => s.emlHold r k) tp.1, tp.2)
        let sent := if t.stage = .rts then (tp.1, 0, false) else tp.1.sendMpdus r c
        let more := if t.stage = .rts then [] else tp.1.moreData r c
        (((sent.1.modRadio r fun y => { y with
          lastSound := if s.isSounding r c then some s.clock else y.lastSound
          tx := some { t with
            unsent := sent.2.1, underrun := sent.2.2, more := more
            eosp := if t.stage = .rts then [] else tp.1.eospOf r c } }).macBusy r).syncTxBusy r).ftmOnTx r stamp

/-! Steps (R142, R146, R147). -/

/-- The pulses of an action word, in the order: abort, response, transmission, and the rest. -/
def State.pulses (s : State) (r : Nat) : State :=
  let a := (s.radio r).step.w0
  let s1 := if a.testBit 26 then s.evt (rTile r) 25 else s
  let s2 := if a.testBit 25 then s1.wr (RADIO.SEQ_MARK r) (wd s1.ns) else s1
  let s3 := if a.testBit 18 then s2.agcArm r else s2
  let s4 := if a.testBit 24 then (s3.txAbort r).rfSettle r else s3
  let s5 := if a.testBit 22 && (s4.radio r).resp.phase = .announced then
      let w0 := s4.paramWord r 0
      let w1 := s4.paramWord r 1
      let m := nbits w1 23 16
      (s4.modRadio r fun x => { x with
        window := nbits w0 15 8
        resp := { x.resp with
          phase := .prepared, offset := nbits w0 31 16, window := nbits w0 15 8,
          chains := if m = 0 then s4.activeMask r else m
          power := nbits w1 15 8
          dpd := s4.dpdChains r (if m = 0 then s4.activeMask r else m) (s4.limitPower r (nbits w1 15 8)) } }).syncTxBusy r
    else s4
  let s6 := if a.testBit 23 then
      let p := (s5.radio r).resp.phase
      if p = .prepared || p = .ready then s5.modRadio r fun x => { x with resp := { x.resp with armed := true } }
      else s5.sat (RADIO.SEQ_ERR_CNT r) 15 8 1
    else s5
  if a.testBit 21 then
    if a.testBit 23 then s6.sat (RADIO.SEQ_ERR_CNT r) 15 8 1 else s6.txStart r (s6.radio r).step.began
  else s6

/-- The occurrences of an event from a tick on. -/
def keepFrom (t : Nat) (e : Nat × List Nat) : Option (Nat × List Nat) :=
  match e.2.filter fun u => decide (t ≤ u) with
  | [] => none
  | l => some (e.1, l)

/-- SEQ_STEP_BEGIN (R142 to R148): the successor begins unless a swap is due first. What its first tick clears are the occurrences
before that tick, under CLR_LATCH too (DEDUCED, log entry 58). -/
def execSeqStepBegin (r : Fin 3) (s : State) : Host.Outcome State Fault Refusal :=
  .next <|
    let r := r.val
    match (s.radio r).next with
    | none => s
    | some (i, t) =>
      if !s.seqRunning r || s.tick < t || s.swapDue r then s
      else
        let a := stepAddr r (s.bank r) i
        let st0 : SeqStep := { w0 := s.rm a 4, w1 := s.rm (a + 4) 4, w2 := s.rm (a + 8) 4, w3 := s.rm (a + 12) 4, began := t }
        let p := lm (rTile r) (0x200000 + 16 * st0.paramIdx)
        let st : SeqStep := { st0 with rec_ := (List.range 4).map fun k => s.rm (p + 4 * k) 4 }
        let s0 := (s.wf (RADIO.SEQ_STATUS r) 25 16 i).modRadio r fun x => { x with
          latchAt := if st.w0.testBit 27 && st.kind != 3 then x.latchAt.filterMap fun e => keepFrom t e
            else if st.keep then x.latchAt
            else x.latchAt.filterMap fun e => if e.1 = st.event then keepFrom t e else some e }
        if st.kind = 3 then s0.seqStop r
        else
          let s1 := s0.modRadio r fun x => { x with step := st, next := none }
          let s2 := s1.pulses r
          let s3 := if s2.txAsk r % 256 &&& (s2.act r / 256 % 256) != 0 then s2.sat (RADIO.RF_ERR_CNT r) 23 16 1 else s2
          s3.rxenChanged r

/-- A step is in execution: the sequencer runs and no successor waits to begin. -/
def State.inStep (s : State) (r kind : Nat) : Bool :=
  s.seqRunning r && (s.radio r).next.isNone && (s.radio r).step.kind = kind

/-- The tick of the step in execution on which the event that it names is first latched: its first tick where that was so before;
none where the event has not occurred, or never does. -/
def State.latchTick (s : State) (r : Nat) : Option Nat :=
  let x := s.radio r
  if x.step.event = 0 || 14 ≤ x.step.event then none
  else (tget (fun _ => []) x.latchAt x.step.event).min?.map (max x.step.began)

/-- The step in execution ends; its successor begins at a tick. -/
def State.stepEnds (s : State) (r next at_ : Nat) : State := s.modRadio r fun x => { x with next := some (next, at_) }

/-- SEQ_TIMED_END (R142). -/
def execSeqTimedEnd (r : Fin 3) (s : State) : Host.Outcome State Fault Refusal :=
  .next <|
    let st := (s.radio r.val).step
    let e := st.began + max 1 st.duration
    if s.inStep r.val 0 && e ≤ s.tick then s.stepEnds r.val st.nextEv e else s

/-- The tick at which the successor of a WAIT on ANCHOR_AT begins (R145). -/
def State.anchorTick (s : State) (r : Nat) : Nat := (s.radio r).anchor + nbits (s.paramWord r 2) 31 16

/-- SEQ_WAIT_EVENT (R142). -/
def execSeqWaitEvent (r : Fin 3) (s : State) : Host.Outcome State Fault Refusal :=
  .next <|
    let r := r.val
    let st := (s.radio r).step
    match s.latchTick r with
    | some e =>
      if s.inStep r 1 && (st.duration = 0 || e < st.began + st.duration) then
        (s.wf (RADIO.SEQ_STATUS r) 5 0 st.event).stepEnds r st.nextEv (e + 1)
      else s
    | none => s

/-- SEQ_WAIT_TIMEOUT (R142): the event wins a tie. -/
def execSeqWaitTimeout (r : Fin 3) (s : State) : Host.Outcome State Fault Refusal :=
  .next <|
    let r := r.val
    let st := (s.radio r).step
    let e := st.began + st.duration
    let came := match s.latchTick r with
      | some t => decide (t < e)
      | none => false
    if s.inStep r 1 && st.duration != 0 && !came && e ≤ s.tick then s.stepEnds r st.nextTo e else s

/-- SEQ_TEST_END (R142). -/
def execSeqTestEnd (r : Fin 3) (s : State) : Host.Outcome State Fault Refusal :=
  .next <|
    let r := r.val
    let st := (s.radio r).step
    if s.inStep r 2 then
      s.stepEnds r (if s.latchTick r = some st.began then st.nextEv else st.nextTo) (st.began + 1)
    else s

/-- ANCHOR_AT (R145): on the tick before anchor + AT_OFS, unless it had passed when the step began. -/
def execAnchorAt (r : Fin 3) (s : State) : Host.Outcome State Fault Refusal :=
  .next <|
    let r := r.val
    let at_ := s.anchorTick r
    if s.inStep r 1 && (s.radio r).step.event = evANCHOR && (s.radio r).step.began < at_ && at_ ≤ s.tick + 1 then
      s.seqEventAt r evANCHOR (at_ - 1)
    else s

/-! Transmit commands (R151 to R157). -/

/-- A record that a push refuses. -/
def pushBad (w : List Nat) : Bool :=
  w.getD 0 0 / 2 ^ 30 = 3 || w.getD 1 0 % 16 != 0 || w.getD 2 0 % 64 != 0 || w.getD 3 0 / 256 = 0

/-- TXQ_PUSH (R151): a queued command makes a calibration slice yield (R127). -/
def execTxqPush (by_ : Req) (r : Fin 3) (push : Bool) (s : State) : Host.Outcome State Fault Refusal :=
  .next <| s.onWrite by_ (rTile r.val) fun s =>
    let r := r.val
    if !push then s
    else
      let w := (List.range 8).map fun i => (s.rd (RADIO.TXQ_CMD r i)).toNat
      let q := if w.getD 0 0 / 2 ^ 30 = 0 then nbits (w.getD 0 0) 29 28 else 4
      let drop := (s.sat (RADIO.TX_ERR_CNT r) 15 8 1).evt (rTile r) 26
      if pushBad w then drop
      else match s.txqPush r q { words := w } with
        | some s1 => s1.sliceYield r
        | none => drop

/-- TXC_ACK (R157): the oldest record's tag retires it. -/
def execTxcAck (by_ : Req) (r : Fin 3) (tag : Tag) (s : State) : Host.Outcome State Fault Refusal :=
  .next <| s.onWrite by_ (rTile r.val) fun s =>
    let r := r.val
    let i := s.rf (RADIO.TXC_RD r) 9 0
    let a := s.txcAddr r i
    let w := s.rm a 4
    if i != s.rf (RADIO.TXC_WR r) 9 0 && w.testBit 31 && nbits w 15 8 = tag.toNat then
      let s1 := (s.wm a 4 (w % 2 ^ 31)).wf (RADIO.TXC_RD r) 9 0 ((i + 1) % s.txcSlots r)
      s1.txcFlush r (s1.radio r).txcWait
    else s

/-- TXC_CTL_WRITE (R157): both indices return to 0. -/
def execTxcCtlWrite (by_ : Req) (r : Fin 3) (val : Word) (s : State) : Host.Outcome State Fault Refusal :=
  .next <| s.onWrite by_ (rTile r.val) fun s =>
    let s1 := ((s.wr (RADIO.TXC_CTL r.val) (val &&& 0x0003FFFF)).wr (RADIO.TXC_WR r.val) 0).wr (RADIO.TXC_RD r.val) 0
    s1.txcFlush r.val (s1.radio r.val).txcWait

/-- CMD_DUE_AT_TIME (R152): 513 ticks, 1,603.125 ns, before START_TIME. -/
def execCmdDueAtTime (r : Fin 3) (s : State) : Host.Outcome State Fault Refusal :=
  .next <|
    let r := r.val
    match s.txq r 4 with
    | c :: cs =>
      if c.word 0 / 2 ^ 30 = 1 && c.due.isNone && !s.dozing r && !s.dutyFull r && c.word 4 + 2 ^ 32 * c.word 5 ≤ s.ns + 1604 then
        s.setTxq r 4 (s.timPatch r { c with
          due := some s.tick, late := !s.locked r || s.tuning r || (s.radio r).slice.isSome } :: cs)
      else s
    | [] => s

/-- The schedule window in force belongs to this member on a radio that follows the schedule (R303). -/
def State.ownWindow (s : State) (r : Nat) : Option Nat :=
  let sc := s.rd CLASS.FAB_SCHED
  if bit sc 31 && bit sc (28 + r) then s.fabric.win.filter fun w => s.rf (CLASS.SLOT_CUR w) 30 26 = fld sc 27 24 else none

/-- Milestone time at which a schedule window of the present epoch ends. -/
def State.windowEnd (s : State) (w : Nat) : Nat :=
  s.ns / 1024000 * 1024000 + min 1024 (s.rf (CLASS.SLOT_CUR w) 9 0 + min 1024 (s.rf (CLASS.SLOT_CUR w) 20 10)) * 1000

/-- A forwarder's command that follows the schedule starts only where its PPDU and ACK end before the own window's end less
the guard (R303). -/
def State.fabFits (s : State) (r peer bytes : Nat) : Bool :=
  match s.ownWindow r with
  | none => false
  | some w =>
    let gi := s.rf (RADIO.TP_CTL r) 23 23
    let sh := s.tpShape r (some peer) 0 0
    let d := tpDuration (bytes + 8) (s.rf (RADIO.TP_CTL r) 25 24) sh.2 sh.1 gi
    let ack := tpDuration 28 0 (2 * s.tpTones r) 1 gi
    s.ns + 1600 + 100 * (d + 160 + ack) + s.rf CLASS.FAB_SCHED 15 0 ≤ s.windowEnd w

/-- The queue whose due head is selected: queue 4 first, then the granted one (R152). -/
def State.dueQueue (s : State) (r : Nat) : Option Nat :=
  let isDue := fun q => match s.txq r q with
    | c :: _ => c.due.isSome && (match c.from_ with
      | .fabric _ _ => q != 4 || s.fabFits r (nbits (s.tv r c 0) 19 16) (c.word 3 / 256)
      | _ => true)
    | [] => false
  if isDue 4 then some 4 else (s.radio r).granted.filter isDue

/-- A due head may not start yet for what other radios or its subchannels do (R192, R205, R206): an NSTR partner receives past
QUAL_OK, or transmits and the ends cannot be aligned; a station of it is away; or a subchannel of a granted one is busy. -/
def State.heldBack (s : State) (r q : Nat) (c : TxCmd) : Bool :=
  (s.nstr r).any (fun p => (s.radio p).rx.qualified) || !s.aligned r c (s.tick + 1) || s.emlAway r c
    || (q < 4 && s.secBusy r c 0)

/-- TXQ_READY (R152, R153, R205, R207): a due command is selected once every condition holds; a full completion ring stalls
it, counted once. A DRAINING radio starts no command. A command that only awaits its response is no transmission in progress. -/
def execTxqReady (r : Fin 3) (s : State) : Host.Outcome State Fault Refusal :=
  .next <|
    let r := r.val
    let x := s.radio r
    match s.dueQueue r with
    | none => s
    | some q =>
      let busy := x.tx.isSome || (x.resp.phase != .none && x.resp.phase != .announced) || x.selected.isSome
      let held := match s.txq r q with
        | c :: _ => s.heldBack r q c || (if s.storeUp then c.lead else c.fetched) < c.lead
        | [] => true
      if busy || !s.locked r || s.tuning r || x.slice.isSome || s.life (rTile r) != .ready || s.dozing r || held then s
      else if s.txcFull r then
        match s.txq r q with
        | c :: cs => if c.stalled then s
          else (s.setTxq r q ({ c with stalled := true } :: cs)).sat (RADIO.TX_ERR_CNT r) 7 0 1
        | [] => s
      else (s.modRadio r fun y => { y with selected := some q }).seqEvent r evTXQ

/-- CMD_EXPIRE (R154): the head of a queue was not started by its due time plus LATEST. -/
def execCmdExpire (r : Fin 3) (q : Fin 5) (s : State) : Host.Outcome State Fault Refusal :=
  .next <|
    let r := r.val
    match s.txq r q.val with
    | c :: cs =>
      match c.due with
      | some d =>
        if c.word 6 != 0 && d * 25 + c.word 6 * 8 ≤ s.tick * 25 then
          let s1 := s.modRadio r fun x => { x with
            selected := if x.selected = some q.val then none else x.selected
            granted := if x.granted = some q.val then none else x.granted }
          (s1.setTxq r q.val cs).txUnsent r q.val c 2
        else s
      | none => s
    | [] => s

/-- TX_UNDERRUN (R155): MPDUs not sent intact stay queued. -/
def execTxUnderrun (r : Fin 3) (unsent : BitVec 8) (s : State) : Host.Outcome State Fault Refusal :=
  .next <|
    match (s.radio r.val).tx with
    | some t =>
      if t.onAir then
        s.modRadio r.val fun x => { x with tx := some { t with underrun := true, unsent := min 255 (t.unsent + unsent.toNat) } }
      else s
    | none => s

/-- The acknowledgement a transmission expects: 0 none (R190, R229, R285). -/
def State.ackOf (s : State) (r : Nat) (t : TxNow) : Nat :=
  match t.cmd.from_ with
  | .tpTable _ => 1
  | _ =>
    match t.stage with
    | .rts => 1
    | _ =>
      let fmt := nbits (s.tv r t.cmd 0) 31 28
      if fmt = 7 then (if nbits (s.tv r t.cmd 0) 27 27 = 1 then 0 else 1)
      else if fmt = 8 then
        (if 2 ≤ nbits (s.tv r t.cmd 0) 27 25 then 1 else nbits (s.tv r t.cmd 1) 15 14)
      else nbits (s.tv r t.cmd 1) 13 12

/-- Stations that one BFRP trigger of a sounding sequence can solicit: an RU26 each (R228, R234, DEDUCED, log entry 58). -/
def State.perBfrp (s : State) (r : Nat) (c : TxCmd) : Nat := max 1 (ruCount 0 (nbits (s.tv r c 0) 24 22))

/-- The users of the TB window that a PPDU of a multi-user command opens; none where it opens none: a trigger, the MU-BAR of
ACK = 2, or a BFRP trigger, which solicits its own part of the stations (R232, R234, R238). -/
def State.opensTb (s : State) (r : Nat) (t : TxNow) : Option (List Nat) :=
  let us := (s.muUsers r t.cmd).map (· % 1024)
  if t.cmd.words = [] || nbits (s.tv r t.cmd 0) 31 28 != 8 then none
  else match nbits (s.tv r t.cmd 0) 27 25, t.stage with
    | 2, .ppdu _ => some us
    | 3, .ppdu _ => some us
    | 5, .ppdu n => if n < 2 then none else
      let k := s.perBfrp r t.cmd
      some ((us.drop ((n - 2) * k)).take k)
    | 0, .ppdu 1 => some us
    | 1, .ppdu 1 => some us
    | _, _ => none

/-- PPDUs of a command: a sounding sequence sends an announcement, an NDP and as many BFRP triggers as its stations need, and ACK = 2
a MU-BAR trigger after the data (R232, R234). -/
def State.ppdusOf (s : State) (r : Nat) (c : TxCmd) : Nat :=
  if c.words = [] || nbits (s.tv r c 0) 31 28 != 8 then 1
  else if nbits (s.tv r c 0) 27 25 = 5 then 2 + (nbits (s.tv r c 0) 16 8 + s.perBfrp r c - 1) / s.perBfrp r c
  else if nbits (s.tv r c 0) 27 25 < 2 && nbits (s.tv r c 1) 15 14 = 2 then 2 else 1

/-- A transmission awaits its response (R190); one that still waited has failed. -/
def State.awaitFrom (s : State) (r : Nat) (t : TxNow) : State :=
  let s1 := match (s.mac r).await with
    | some a => (s.exchangeFail r a.tx true).sat (RADIO.ACC_CNT r) 31 16 1
    | none => s
  (s1.modRadio r fun y => { y with tx := none }).modMac r fun m => { m with await := some { tx := t, endAt := s.clock } }

/-- A granted head that waited for a partner's transmission to end contends again (R205). -/
def State.nstrFree (s : State) (r : Nat) : State :=
  (s.nstr r).foldl (fun s q =>
    let x := s.radio q
    match x.granted with
    | some ac =>
      if x.selected = some ac then s
      else match s.txq q ac with
        | c :: cs => (s.modRadio q fun y => { y with granted := none }).setTxq q ac ({ c with due := none } :: cs)
        | [] => s.modRadio q fun y => { y with granted := none }
    | none => s) s

/-- TX_PPDU_END (R125, R145, R157, R190, R193, R232): the anchor, TX_END, captures for pre-distortion with the error each
chain shows, and what the command does next. -/
def execTxPpduEnd (r : Fin 3) (airtime : BitVec 32) (errs : List Int) (s : State) : Host.Outcome State Fault Refusal :=
  .next <|
    let r := r.val
    let x := s.radio r
    let ended := fun (s : State) => (s.modRadio r fun y => { y with anchor := s.tick }).seqEvent r evTXEND
    match x.tx with
    | some t =>
      if !t.onAir then s
      else
        let t1 : TxNow := { t with airtime := t.airtime + airtime.toNat, onAir := false }
        let s0 := (ended s).modRadio r fun y => { y with
          tx := some t1
          duty := if s.ns / 10000000 ≤ (s.ns - airtime.toNat) / 10000000 then y.duty + airtime.toNat else y.duty }
        let s1 := s0.dpdCaptures r t.chains airtime.toNat (s.cmdPower r t.cmd) errs
        let s2 := match t.stage with
          | .ctsSelf =>
            let t2 : TxNow := { t1 with stage := .ppdu 0, onAir := true }
            s1.modRadio r fun y => { y with tx := some { t2 with till := s1.endTick r t2 (s.tick + s.sifs r * 16 / 25) } }
          | .rts => s1.awaitFrom r t1
          | .ppdu n =>
            match s.opensTb r t with
            | some us => s1.modMac r fun m => { m with
                tb := some (s.clock + s.sifs r + nbits (s.tv r t.cmd 2) 31 16 * 500 + 1000, us, false) }
            | none =>
              if n + 1 < s.ppdusOf r t.cmd then s1
              else if s.ackOf r t = 0 then
                let s2 := t.cmd.mpdus.foldl (fun (s : State) m => s.stqAcked r m)
                  ((s1.modRadio r fun y => { y with tx := none }).exchangeOk r t1)
                if nbits (s.tv r t.cmd 0) 31 28 = 7 && t.cmd.from_ = CmdFrom.firmware then s2.tpStatus r t.cmd false true
                else s2.fwStatus r t.cmd (fun _ => false) false
              else s1.awaitFrom r t1
        ((((s2.syncTxBusy r).chainsAtEnd r).rfSettle r).nstrFree r)
    | none =>
      if x.resp.phase != .sending then s
      else
        let s1 := (((ended s).modRadio r fun y => { y with resp := {} }).syncTxBusy r).dpdCaptures r x.resp.chains airtime.toNat
          (s.limitPower r x.resp.power) errs
        let s2 := if x.resp.kind = .tb then
            s1.modMac r fun m => { m with muUntil := (List.range 4).foldl (fun t ac =>
              tput (fun _ => 0) t ac (s.clock + s.rf (RADIO.MU_EDCA_AC r ac) 31 16 * 8 * 1024 * 500)) m.muUntil }
          else s1
        ((s2.chainsAtEnd r).rfSettle r).nstrFree r

/-! Responses at SIFS (R158). -/

/-- RESP_READY. -/
def execRespReady (r : Fin 3) (s : State) : Host.Outcome State Fault Refusal :=
  .next <|
    if (s.radio r.val).resp.phase = .prepared then
      (s.modRadio r.val fun x => { x with resp := { x.resp with phase := .ready, readyAt := s.tick } }).seqEvent r.val evRESPREADY
    else s

/-- The tick on which a response that is ready launches. -/
def State.launchAt (s : State) (r : Nat) : Nat :=
  let x := s.radio r
  let l := x.anchor + x.resp.offset - 512
  if x.resp.readyAt ≤ l then l else x.resp.readyAt + 1

/-- The last launch tick of a response. -/
def State.lastLaunch (s : State) (r : Nat) : Nat :=
  let x := s.radio r
  x.anchor + x.resp.offset + x.resp.window - 512

/-- RESP_LAUNCH: an armed response launches, aborting a reception in progress; a Towpath acknowledgement takes its SEQ
(R172, R281). -/
def execRespLaunch (r : Fin 3) (s : State) : Host.Outcome State Fault Refusal :=
  .next <|
    let r := r.val
    let x := s.radio r
    if x.resp.phase != .ready || !x.resp.armed || !s.locked r || s.tuning r || s.tick < s.launchAt r
        || s.lastLaunch r < s.launchAt r || s.lastLaunch r < s.tick || !s.live (rTile r)
        || (match x.resp.kind with
          | .towpath _ _ => !s.tpOn r
          | _ => false) then s
    else
      let s0 := s.rxAbort r 10
      let s1 := match x.resp.kind with
        | .towpath p _ => (s0.tpTake r p false).1
        | _ => s0
      let stamp := s.ns + 1600 + s.femDelay r x.resp.chains 31 16
      ((((s1.modRadio r fun y => { y with resp := { y.resp with 
        phase := .sending, armed := false, stamp := stamp
        till := s.tick + 512 + (match x.resp.kind with
          | .towpath _ _ => 100 * tpDuration 28 0 (2 * s.tpTones r) 1 (s.rf (RADIO.TP_CTL r) 23 23)
          | _ => Config.ppduNs [3, x.resp.rate] (x.resp.bas.map (·.size)).sum) * 8 / 25 } }).sat
        (RADIO.RESP_CNT r) 31 16 1).macBusy r).syncTxBusy r).ftmOnTx r stamp

/-- RESP_ABANDON: the response cannot launch in its window, finds no lock at its launch tick, or is not armed in time. -/
def execRespAbandon (r : Fin 3) (s : State) : Host.Outcome State Fault Refusal :=
  .next <|
    let r := r.val
    let x := s.radio r
    let p := x.resp.phase
    let late := s.lastLaunch r < s.tick
    let noLock := p = .ready && s.launchAt r ≤ s.tick && (!s.locked r || s.tuning r || (match x.resp.kind with
      | .towpath _ _ => !s.tpOn r
      | _ => false))
    let never := p = .ready && s.lastLaunch r < s.launchAt r
    if (p = .prepared && late) || (p = .ready && (late || noLock || never)) then
      (((s.modRadio r fun y => { y with resp := {} }).seqEvent r evTXEND).sat (RADIO.RESP_CNT r) 15 0 1).syncTxBusy r
    else s

end Sys2Proof.Machine
end

