-- ==== Sys2Proof/Machine/Towpath.lean ====
section
/-! DEFINITION. Towpath frames and the loading engine: headers, link checks, loading tables, acknowledgements and
fall-backs (R264 to R286, R428). -/

namespace Sys2Proof.Machine

open Reg

/-! The header (R267, R268). -/

/-- HCHK over the first `n` header bits. -/
def tpHchk (h : Nat) : Nat → Nat
  | 0 => 0xFF
  | n + 1 =>
    let r := tpHchk h n
    if r.testBit 0 != h.testBit n then (r >>> 1) ^^^ 0xE0 else r >>> 1

/-- The VALID peer of a radio with a node ID. -/
def State.tpPeerOf (s : State) (r node : Nat) : Option Nat :=
  (List.range 16).find? fun p => s.tpValid r p && s.rf (RADIO.TP_PEER_CFG r p) 15 0 = node

/-- The receive slot of a peer that holds a generation, current or next. -/
def State.tpRxSlot (s : State) (r p tid : Nat) : Option Nat :=
  [4 * p + 2, 4 * p + 3].find? fun k => s.tpSt r k != 0 && (s.rb (tpSlot r k + 1)).toNat = tid

/-- A Towpath header as the reception keeps it. -/
def State.tpParse (s : State) (r h : Nat) : TpRx :=
  let dst := nbits h 18 3
  let src := nbits h 34 19
  let tid := nbits h 50 47
  let nss := nbits h 53 51 + 1
  let me := dst = s.rf (RADIO.TP_CTL r) 15 0
  let peer := s.tpPeerOf r src
  let slot := peer.bind fun p => s.tpRxSlot r p tid
  let mine := me && peer.isSome
  let noTable := mine && tid != 0 && slot.isNone
  { kind := nbits h 2 1, dst := dst, src := src, seq := nbits h 46 35, tid := tid, nss := nss, rate := nbits h 55 54,
    gi := nbits h 56 56, nsym := nbits h 65 57, punct := nbits h 81 66, peer := peer,
    decoded := (mine && !noTable) || dst = 0xFFFF,
    bw := s.width r, noTable := noTable, other := !me && dst != 0xFFFF, unknownSrc := me && peer.isNone,
    ncbps := if tid = 0 then 2 * s.tpTonesIn r (nbits h 81 66) * nss
      else match slot with
        | some k => s.rm (tpSlot r k + 8) 4
        | none => 0 }

/-- The header of an identified Towpath frame ends (R267, R268): carrier sense is held to the frame's end, the header is
checked, and the frame is disposed of. -/
def State.tpHeader (s : State) (r : Nat) (hdr : BitVec 96) : State :=
  let h := hdr.toNat
  let t := s.tpParse r h
  let x := (s.radio r).rx
  let s0 := (s.modRadio r fun y => { y with rx := { y.rx with tp := some t } }).modMac r fun m =>
    { m with tpBusyUntil := max m.tpBusyUntil x.endAt }
  let bad := fun (s : State) => (s.sat (RADIO.TP_CNT r) 31 16 1).rxAbort r 5
  if !s.tpOn r then s0.rxAbort r 6
  else if tpHchk h 82 != nbits h 89 82 then bad s0
  else if nbits h 0 0 = 1 || t.kind = 3 then s0.rxAbort r 6
  else if t.nsym = 0 || t.punct.testBit (s.primaryIdx r) || (t.dst = 0xFFFF && t.tid != 0) then bad s0
  else if pop8 x.chains < t.nss then s0.rxAbort r 7
  else
    let s1 := if t.unknownSrc then s0.sat (RADIO.TP_CNT r) 15 8 1 else s0
    let s2 := if t.noTable then s1.sat (RADIO.TP_CNT r) 7 0 1 else s1
    s2.modRadio r fun y => { y with rx := { y.rx with
      phase := if t.decoded then .data else .hold, endKind := if t.other || t.unknownSrc then 1 else 0 } }

/-! The payload (R271, R272). -/

/-- What a run of subframes holds: the contents of its fabric frames, its first control body, how many subframes were skipped, and the
bytes up to and including the link check once an END delimiter is found. -/
structure TpRun where
  subs : List (List Byte) := []
  control : Option (List Byte) := none
  skipped : Nat := 0
  len : Option Nat := none
deriving DecidableEq, Repr

/-- Read at most `n` subframes from a place in the run. A delimiter with bits above its type counts as reserved; one of type END
whose LENGTH is not 0 ends the run and is no END delimiter (DESIGN CHOICE, log entry 59). -/
def tpSubframes : Nat → List Byte → Nat → TpRun → TpRun
  | 0, _, _, a => a
  | n + 1, b, at_, a =>
    if b.length < 4 then a
    else
      let w := ofLe ((b.take 4).map (·.toNat))
      let len := w % 2 ^ 14
      let kind := if w / 2 ^ 16 = 0 then w / 2 ^ 14 % 4 else 2
      let step := 4 + (len + 3) / 4 * 4
      let body := (b.drop 4).take len
      let next := fun a => tpSubframes n (b.drop step) (at_ + step) a
      match kind with
      | 0 => next { a with subs := a.subs ++ [body] }
      | 1 => next { a with control := a.control.or (some body) }
      | 2 => next { a with skipped := a.skipped + 1 }
      | _ => if len = 0 then { a with len := some (at_ + 8) } else a

/-- The run of a payload. -/
def tpParsed (q : TpPayload) : TpRun := tpSubframes (q.run.length / 4) q.run 0 {}

/-- A frame passes its check (R272): an END delimiter was found, and the four bytes after it are the CRC-32C over the word
`src * 65536 + seq` and the payload through END. -/
def tpCheckOk (q : TpPayload) (src seq : Nat) : Bool :=
  match (tpParsed q).len with
  | none => false
  | some n => n ≤ q.run.length &&
    ofLe (((q.run.drop (n - 4)).take 4).map (·.toNat)) = crc32c (le 4 (src * 65536 + seq) ++ q.run.take (n - 4))

/-! Loading tables (R274 to R279). -/

/-- Write a table slot: STATE, generation, streams, width, tones, epoch, NCBPS, time, puncturing and the entries, a function
of tone and stream. -/
def State.tpWrite (s : State) (r slot st tid nss width tones epoch ncbps punct : Nat) (e : Nat → Nat → Nat) : State :=
  let head := le 1 st ++ le 1 tid ++ le 1 nss ++ le 1 width ++ le 2 tones ++ le 2 epoch ++ le 4 ncbps ++ le 8 s.ns ++ le 2 punct
  let ent := (List.range tones).flatMap fun k =>
    [0, 1, 2, 3].map fun j => BitVec.ofNat 8 (e k (2 * j) % 16 + 16 * (e k (2 * j + 1) % 16))
  ((s.tpEmpty r slot).wbytes (tpSlot r slot) head).wbytes (tpSlot r slot + 64) ent

/-- The slot a new NEXT table of a direction goes to: over a NEXT, else an EMPTY one. -/
def State.tpFree (s : State) (r p : Nat) (tx : Bool) : Option Nat :=
  match s.tpFind r p tx 2 with
  | some k => some k
  | none => s.tpFind r p tx 0

/-- A byte of a control body. -/
def tpByte (c : List Byte) (i : Nat) : Nat := (c.getD i 0).toNat

/-- Entry of tone `k` and stream `i` in a TABLE body of `nss` streams. -/
def tpNibble (c : List Byte) (nss k i : Nat) : Nat :=
  let n := k * nss + i
  if i < nss then tpByte c (16 + n / 2) / 16 ^ (n % 2) % 16 else 0

/-- A TABLE frame passes its check (R279): the state, and the CHECK_OK of its answer. -/
def State.tpInstall (s : State) (r p punct : Nat) (c : List Byte) : State × Bool :=
  let tid := tpByte c 1
  let nss := tpByte c 2
  let tones := tpByte c 6 + 256 * tpByte c 7
  let epoch := (tpByte c 4 + 256 * tpByte c 5) % 4096
  let ncbps := tpByte c 8 + 256 * (tpByte c 9 + 256 * (tpByte c 10 + 256 * tpByte c 11))
  let st := RADIO.TP_PEER_STAT r p
  if tpByte c 3 != s.width r || tones != s.tpTones r || nss = 0 || pop8 (s.activeMask r) < nss
      || ((List.range tones).any fun k => (List.range nss).any fun i => tpNibble c nss k i = 15) then (s, false)
  else if tid = s.rf st 27 24 then (s, true)
  else
    match s.tpFree r p true with
    | none => (s, true)
    | some k =>
      let s1 := s.tpWrite r k 2 tid nss (s.width r) tones epoch ncbps punct (tpNibble c nss)
      let v := s1.rd st
      ((s1.wr st (putFld (putFld (putBit v 31 true) 23 20 tid) 11 0 epoch)).tpRecord r 2 p (epoch + tid % 16 * 4096), true)

/-- An entry of a table slot. -/
def State.tpEntry (s : State) (r slot k i : Nat) : Nat := (s.rb (tpSlot r slot + 64 + 4 * k + i / 2)).toNat / 16 ^ (i % 2) % 16

/-- The noise averages take a frame's measurements (R275). -/
def State.tpMeasure (s : State) (r p nss punct : Nat) (snr : List (Nat × Int)) : State :=
  let sh := min 8 (s.rf (RADIO.TP_LOAD_CTL r) 7 4)
  let x := s.tpPeer r p
  s.setTp r p { x with
    good := x.good + 1, nss := nss, punct := punct,
    avg := snr.foldl (fun a m =>
      tput (fun _ => none) a m.1 (some (match tget (fun _ => none) a m.1 with
        | some (v, false) => (v + (m.2 - v).tdiv (2 ^ sh), false)
        | _ => (m.2, false)))) x.avg }

/-! Acknowledgements (R278, R280, R285, R428). -/

/-- D of the frame of a transmission to a peer, in nanoseconds (R270). -/
def State.tpSentNs (s : State) (r : Nat) (t : TxNow) (p : Nat) : Nat :=
  let gi := s.rf (RADIO.TP_CTL r) 23 23
  match t.cmd.from_ with
  | .tpTable _ =>
    let nss := match s.tpFind r p false 2 with
      | some k => (s.rb (tpSlot r k + 2)).toNat
      | none => 1
    100 * tpDuration (4 + 16 + (s.tpTones r * nss + 7) / 8 * 4 + 8) 0 (2 * s.tpTones r) 1 gi
  | _ =>
    let sh := s.tpShape r (some p) 0 (nbits (s.tv r t.cmd 1) 31 16)
    100 * tpDuration (t.cmd.word 3 / 256 + 8) (s.rf (RADIO.TP_CTL r) 25 24) sh.2 sh.1 gi

/-- A frame to the parent drew an ACK: the delay takes a sample (R428), in 1/256 ns. -/
def State.tpDelay (s : State) (r p : Nat) (t : TxNow) (ackStamp : Nat) : State :=
  let par := s.rd TIME.TIME_PARENT
  let nh := s.rd (CLASS.NH_W0 (fld par 29 24))
  if bit par 31 && bit nh 31 && !bit nh 29 && fld nh 28 27 = r && fld nh 26 23 = p then
    let rtt : Int := (ackStamp : Int) - t.stamp - (s.tpSentNs r t p + 16000)
    let sample : Int := rtt * 128 - 32 * (fld par 15 0 : Int)
    let d := match s.time.delay with
      | none => sample
      | some d =>
        let diff := sample - d
        d + diff / 16 + (if diff % 16 != 0 && Config.delayUp diff then 1 else 0)
    { s with time := { s.time with delay := some d } }
  else s

/-- An ACK from a peer passes its check: the exchange that awaits it ends (R278, R283, R285). -/
def State.tpAck (s : State) (r p stamp : Nat) (c : List Byte) : State :=
  match (s.mac r).await with
  | none => s
  | some a =>
    let seq := (tpByte c 2 + 256 * tpByte c 3) % 4096
    if a.tx.tpPeer != some p || seq != a.tx.tpSeq || tpByte c 0 != 0 || c.length < 16 then s
    else
      let good := tpByte c 1 % 2 = 1
      let s0 := s.tpDelay r p a.tx stamp
      match a.tx.cmd.from_ with
      | .tpTable _ => if good then (s0.exchangeOk r a.tx).tpTableDone r p true else s0.exchangeFail r a.tx false
      | _ =>
        if good then ((s0.tpStatus r a.tx.cmd true false).exchangeOk r a.tx).wf (RADIO.TP_PEER_SEQ r p) 29 28 0
        else s0.exchangeFail r a.tx false

/-! Frames (R271 to R283). -/

/-- A fabric subframe of a DATA frame that passed is stored and handed to the forwarder (R273). -/
def State.tpDeliver (s : State) (r : Nat) (t : TpRx) (x : Rx) (d : List Byte) : State × Nat :=
  let full := (s.rf (RADIO.RXS_WR r) 14 0 + 1) % s.rxsSlots r = s.rf (RADIO.RXS_RD r) 14 0 % s.rxsSlots r
  let status := (s.radio r).recSeq * 65536 + b2n full * 2 ^ 15 + 2 ^ 14 + b2n (x.cut || x.overrun || x.maxIter) * 2 ^ 13
    + t.peer.getD 255
  let w := s.rxStore r d status x.stamp
  match w.2 with
  | none => (w.1, 0)
  | some a => ({ w.1 with fabric := { w.1.fabric with inQ := w.1.fabric.inQ ++ [⟨.radio r t.peer, a⟩] } }, 1)

/-- A frame from a peer fails its check (R283). -/
def State.tpRxFail (s : State) (r p : Nat) : State :=
  let sq := RADIO.TP_PEER_SEQ r p
  let s1 := s.sat (RADIO.TP_PEER_CNT r p) 31 16 1
  if 1 ≤ s1.rf sq 31 30 then s1.tpFall r p false else s1.wf sq 31 30 1

/-- The first DATA frame that names the next receive table makes it current (R281). -/
def State.tpRxSwitch (s : State) (r p : Nat) (t : TpRx) : State :=
  match s.tpFind r p false 2 with
  | none => s
  | some k =>
    if t.tid = 0 || (s.rb (tpSlot r k + 1)).toNat != t.tid then s
    else
      let epoch := s.rm (tpSlot r k + 6) 2
      let s1 := match s.tpFind r p false 1 with
        | some j => s.tpEmpty r j
        | none => s
      let s2 := s1.wb (tpSlot r k) 1
      let v := s2.rd (RADIO.TP_PEER_STAT r p)
      (s2.wr (RADIO.TP_PEER_STAT r p) (putFld (putFld (putFld (putBit v 30 false) 29 28 0) 19 16 t.tid) 15 12 0)).tpRecord r 4 p
        (epoch + t.tid * 4096)

/-- A Towpath frame that was not set aside ends (R271 to R283): its check, its deliveries, its control body, the
measurements, and the answer it requires. -/
def State.tpFrameEnd (s : State) (r : Nat) (t : TpRx) (pl : Option TpPayload) : State :=
  if t.other || t.unknownSrc then s
  else
    let x := (s.radio r).rx
    let ok := t.decoded && (match pl with
      | some q => tpCheckOk q t.src t.seq
      | none => false)
    let run : TpRun := match pl with
      | some q => if t.decoded then tpParsed q else {}
      | none => {}
    let snr := match pl with
      | some q => q.snr
      | none => []
    let s0 := s.sat (RADIO.TP_CNT r) 31 16 run.skipped
    let toMe := t.dst != 0xFFFF
    let s1 := match t.peer with
      | some p => if toMe then s0.wf (RADIO.TP_PEER_SEQ r p) 27 16 t.seq else s0
      | none => s0
    let answer := fun (s : State) (good : Bool) =>
      match t.peer with
      | some p =>
        if toMe && t.kind < 2 then s.modRadio r fun y => { y with rx := { y.rx with resp := some (.towpath p good) } } else s
      | none => s
    if !ok then
      answer (match t.peer with
        | some p => s1.tpRxFail r p
        | none => s1) false
    else
      let s2 := match t.peer with
        | some p => (s1.wf (RADIO.TP_PEER_SEQ r p) 31 30 0).tpMeasure r p t.nss t.punct snr
        | none => s1
      let s3 := match t.peer with
        | some p => if t.kind = 0 && toMe then s2.tpRxSwitch r p t else s2
        | none => s2
      let del := if t.kind = 0 then
          run.subs.foldl (fun (a : State × Nat) d =>
            let b := a.1.tpDeliver r t x d
            (b.1, a.2 + b.2)) (s3, 0)
        else (s3, 0)
      let s4 := del.1.modRadio r fun y => { y with rx := { y.rx with
        tp := some { t with checkOk := true, subframes := del.2, length := run.len.getD 0 } } }
      match t.peer with
      | none => s4
      | some p =>
        if t.kind = 1 && toMe then
          let i := s4.tpInstall r p t.punct (run.control.getD [])
          answer i.1 i.2
        else if t.kind = 2 && toMe then s4.tpAck r p x.stamp (run.control.getD [])
        else answer s4 true

/-! The loading engine (R276, R277). -/

/-- The candidate of a peer as a list of tones, each its bits by stream. -/
def State.tpCandidate (s : State) (r p : Nat) : List (List Nat) :=
  let x := s.tpPeer r p
  let c := s.rd (RADIO.TP_LOAD_CTL r)
  let margin : Int := (fld c 31 24 : Nat)
  let thr : Int := (fld c 23 16 : Nat)
  let step : Int := (max 1 (fld c 15 8) : Nat)
  let maxBits : Int := (clampN 1 14 (fld c 3 0) : Nat)
  let bits := fun k i => match tget (fun _ => none) x.avg (8 * k + i) with
    | none => 0
    | some (v, _) =>
      let m := v - margin
      if m < thr then 0 else (min (1 + (m - thr).tdiv step) maxBits).toNat
  (List.range (s.tpTones r)).map fun k => (List.range x.nss).map fun i => bits k i

/-- Sum of a candidate's entries with a ceiling. -/
def candSum (l : List (List Nat)) (c : Nat) : Nat := (l.map fun t => (t.map (min · c)).sum).sum

/-- The highest ceiling under which a candidate fits the decoder. -/
def candCap (l : List (List Nat)) (cap : Nat) : Nat → Nat
  | 0 => 0
  | c + 1 => if cap < candSum l (c + 1) then candCap l cap c else c + 1

/-- Streams of a candidate once its empty last streams are dropped. -/
def candNss (l : List (List Nat)) : Nat → Nat
  | 0 => 1
  | 1 => 1
  | n + 2 => if l.all (fun t => t.getD (n + 1) 0 = 0) then candNss l (n + 1) else n + 2

/-- A TABLE frame waits in queue 3 or is on its way. -/
def State.tpTableQueued (s : State) (r p : Nat) : Bool :=
  (s.radio r).cmds.any fun c => c.from_ = .tpTable p

/-- A candidate of a peer is formed and issued where R277 admits it; an issue whose TABLE frame found queue 3 full waits
for it (DEDUCED, log entry 17). -/
def State.tpPeerPeriod (s : State) (r p : Nat) : State :=
  let x := s.tpPeer r p
  let st := RADIO.TP_PEER_STAT r p
  let next := s.tpFind r p false 2
  let waiting := next.isSome && !s.rbit st 30
  let s := if waiting && !x.gaveUp && !s.tpTableQueued r p then s.txqTable r p else s
  if !s.tpValid r p || s.rbit (RADIO.TP_PEER_CFG r p) 30 || x.good < 16 then s
  else
    let raw := s.tpCandidate r p
    let tsym := if s.rf (RADIO.TP_CTL r) 23 23 = 0 then 136 else 144
    let c := candCap raw (s.rf (RADIO.RX_CAP r) 15 0 * tsym / 10) 14
    let cand := raw.map fun t => t.map (min · c)
    let nss := candNss cand x.nss
    let ncbps := candSum cand 14
    let cur := s.tpFind r p false 1
    let curEntry := fun k i => match cur with
      | some j => s.tpEntry r j k i
      | none =>
        if i < x.nss && (x.punct = 0 || (tget (fun _ => none) x.avg (8 * k + i)).isSome) then 2 else 0
    let curBits := match cur with
      | some j => s.rm (tpSlot r j + 8) 4
      | none => 2 * s.tpTonesIn r x.punct * x.nss
    let tones := s.tpTones r
    let entry := fun k i => (cand.getD k []).getD i 0
    let lower := (List.range tones).any fun k => (List.range 8).any fun i => entry k i < curEntry k i
    let gain := curBits * (256 + s.rf (RADIO.TP_LOAD_CTL2 r) 15 8) ≤ ncbps * 256
    if ncbps = 0 || (waiting && !x.gaveUp) || !(lower || gain) then s
    else
      match s.tpFree r p false with
      | none => s
      | some k =>
        let g := x.gen % 15 + 1
        let s1 := (s.tpWrite r k 2 g nss (s.width r) tones 0 ncbps x.punct entry).setTp r p { x with
          gen := g, good := 0, gaveUp := false }
        let v := s1.rd st
        ((s1.wr st (putFld (putFld (putBit v 30 false) 29 28 0) 15 12 g)).tpRecord r 1 p (g * 4096)).txqTable r p

/-- TP_LOAD_PERIOD (R276, R277): PERIOD_MS after the last candidates, one for each peer; no table is issued while PERIOD_MS is 0, where R264 does not hold, or while the radio
drains. -/
def execTpLoadPeriod (r : Fin 3) (s : State) : Host.Outcome State Fault Refusal :=
  .next <|
    let r := r.val
    let ms := s.rf (RADIO.TP_LOAD_CTL2 r) 31 16
    if ms = 0 || !s.tpOn r || s.life (rTile r) != .ready || s.clock < (s.radio r).loadAt + ms * 500000 then s
    else (List.range 16).foldl (fun s p => s.tpPeerPeriod r p) (s.modRadio r fun x => { x with loadAt := s.clock })

/-- TP_PEER_RST (R284): at once between frames, otherwise at the end of the frame in progress. -/
def execTpPeerRst (by_ : Req) (r : Fin 3) (bits : Word) (s : State) : Host.Outcome State Fault Refusal :=
  .next <| s.onWrite by_ (rTile r.val) fun s =>
    (s.modRadio r.val fun x => { x with tpRst := x.tpRst ||| fld bits 15 0 }).chainsAtEnd r.val

/-- TP_PEER_CFG_WRITE (R284): a change of NODE or VALID empties the peer's slots, its counters and its averages; generations go on
from the last issued (R274). -/
def execTpPeerCfgWrite (by_ : Req) (r : Fin 3) (p : Fin 16) (val : Word) (s : State) : Host.Outcome State Fault Refusal :=
  .next <| s.onWrite by_ (rTile r.val) fun s =>
    let r := r.val
    let p := p.val
    let a := RADIO.TP_PEER_CFG r p
    let old := s.rd a
    let new := val &&& 0xC007FFFF
    let s1 := s.wr a new
    if fld old 15 0 = fld new 15 0 && bit old 31 = bit new 31 then s1
    else
      let s2 := [0, 1, 2, 3].foldl (fun s i => s.tpEmpty r (4 * p + i)) s1
      ((s2.wr (RADIO.TP_PEER_STAT r p) 0).wr (RADIO.TP_PEER_SEQ r p) 0).setTp r p { gen := (s.tpPeer r p).gen }

end Sys2Proof.Machine
end

