-- ==== Sys2Proof/Machine/Rx.lean ====
section
/-! DEFINITION. The receive baseband: detection, qualification, SIG checks, restarts, the ends of receptions and their
records, and the decoder (R160 to R184). -/

namespace Sys2Proof.Machine

open Reg

/-- Set a NAV to a duration in microseconds where that is longer; virtual carrier sense is then busy (R185, R186). -/
def State.navSet (s : State) (r : Nat) (intra : Bool) (us : Nat) : State :=
  let t := s.clock + us * 500
  let s1 := s.modMac r fun m =>
    if intra then { m with navIntra := max m.navIntra t } else { m with navBasic := max m.navBasic t }
  if s1.navBusy r then s1.macBusy r else s1

/-- A reception begins with ED on a tick (R165, R145): a calibration slice yields (R127). -/
def State.edBegin (s : State) (r at_ : Nat) : State :=
  ((((s.sat (RADIO.RX_ED_CNT r) 31 0 1).seqEventAt r evED at_).macBusy r).sliceYield r).modRadio r fun x => { x with
    rx := { phase := .stage1, edAt := at_, chains := s.participating r } }

/-- The detector is blanked: a radio of an NSTR pair has a TXEN asserted (R114). -/
def State.blanked (s : State) (r : Nat) : Bool := (s.nstr r).any fun q => s.txen q != 0

/-- The TB window of a trigger is open (R165, R238). -/
def State.tbOpen (s : State) (r : Nat) : Bool :=
  match (s.mac r).tb with
  | some t => s.clock ≤ t.1
  | none => false

/-- ED_DETECT (R114, R165): the power in dBm at each chain's ball, in the primary 20 MHz channel and in the whole tuned channel, which
counts in its place during a TB window. -/
def execEdDetect (r : Fin 3) (prim whole : List Byte) (s : State) : Host.Outcome State Fault Refusal :=
  .next <|
    let r := r.val
    let thr := min (-40) (sval 8 (s.rf (RADIO.RX_DET_CTL r) 31 24))
    let level := fun n => sval 8 ((if s.tbOpen r then whole else prim).getD n 0x80).toNat
    if !(s.act r).testBit 17 || (s.radio r).rx.phase != .idle
        || !((List.range 8).any fun n => (s.participating r).testBit n && thr ≤ level n) then s
    else if s.blanked r then s.sat (RADIO.RF_BLANK_CNT r) 31 0 1
    else s.edBegin r s.tick

/-- 8.0 µs in ticks (R166). -/
def qualTicks : Nat := 2560

/-- The 20 MHz subchannels, counted in the tuned channel, that the trigger of a TB window allocated (R166, R228). -/
def State.tbSubs (s : State) (r : Nat) : List Nat :=
  match (s.radio r).tx with
  | none => []
  | some t =>
    let w0 := s.tv r t.cmd 0
    let bw := nbits w0 24 22
    let us := s.muUsers r t.cmd
    let us := match t.stage with
      | .ppdu n => if nbits w0 27 25 = 5 then (us.drop ((n - 2) * s.perBfrp r t.cmd)).take (s.perBfrp r t.cmd) else us
      | _ => us
    us.flatMap fun u =>
      let a := ruSpan (2 ≤ bw) (nbits u 31 29) (nbits u 28 21)
      (List.range a.2).flatMap fun i => (ruSubs (2 ≤ bw) (a.1 + i)).map (· + s.primaryIdx r / 2 ^ bw * 2 ^ bw)

/-- QUAL_STAGE1_OK (R129, R166, R169): over 1.6 µs without a change of gain the autocorrelation, in 1/256, stayed at or above
AC_THR on a subchannel that stage 1 looks at. -/
def execQualStage1Ok (r : Fin 3) (corr : BitVec 9) (sub : BitVec 4) (level : Int) (s : State) :
    Host.Outcome State Fault Refusal :=
  .next <|
    let r := r.val
    let x := (s.radio r).rx
    if x.phase != .stage1 || x.edAt + qualTicks < s.tick || s.tick < (s.radio r).gainAt + 512
        || corr.toNat < max 1 (s.rf (RADIO.RX_DET_CTL r) 23 16)
        || !(sub.toNat = s.primaryIdx r || (s.tbOpen r && (s.tbSubs r).contains sub.toNat)) then s
    else s.modRadio r fun y => { y with
      agc := max 1 y.agc, rx := { x with phase := .stage2, s1At := s.tick, ref := some level } }

/-- A PPDU reaches QUAL_OK: what the MAC takes from it (R186, R190, R238). -/
def State.macQual (s : State) (r : Nat) : State :=
  s.modMac r fun m => { m with
    navRts := none
    await := m.await.map fun a =>
      if s.clock ≤ a.endAt + s.sifs r + s.slot r + 1000 then { a with qual := true } else a
    tb := m.tb.map fun t => if s.clock ≤ t.1 then (t.1, t.2.1, true) else t }

/-- The chains of a mask freeze at their levels (R129). -/
def State.freezeLevels (s : State) (r mask : Nat) (levels : List Byte) : State :=
  (List.range 8).foldl (fun s n =>
    if mask.testBit n then
      (s.wf (RADIO.CHAIN_STATUS r n) 29 29 1).wf (RADIO.CHAIN_STATUS r n) 7 0 (levels.getD n 0).toNat
    else s) s

/-- QUAL_OK (R129, R166, R169, R173, R185, R430): the correlation peak in 1/256 reached XC_THR and the carrier offset, in units of
100 Hz, lies in ±300 kHz; the boundary lies 0.2 µs back, the PPDU's first sample 8.0 µs before it. -/
def execQualOk (r : Fin 3) (peak : BitVec 9) (cfo : BitVec 16) (levels : List Byte) (ref : Int) (frac : BitVec 16) (s : State) :
    Host.Outcome State Fault Refusal :=
  .next <|
    let r := r.val
    let x := (s.radio r).rx
    if x.phase != .stage2 || x.s1At + qualTicks < s.tick || peak.toNat < max 1 (s.rf (RADIO.RX_DET_CTL r) 15 8)
        || 3000 < cfo.toInt || cfo.toInt < -3000 then s
    else
      let stamp := s.ns - 8200 - s.femDelay r x.chains 15 0
      let s1 := (s.freezeLevels r x.chains levels).modRadio r fun y => { y with
        agc := 2, rx := { x with phase := .lsig, stamp := stamp, startAt := s.tick - 2624, ref := some ref, qualChains := x.chains } }
      let s2 := (s1.seqEvent r evQUAL).macQual r
      ((s2.nstr r).foldl (fun s q => s.macBusy q) s2).ftmOnRx r stamp frac.toNat

/-- AC_FAIL_TIMEOUT (R166). -/
def execAcFailTimeout (r : Fin 3) (s : State) : Host.Outcome State Fault Refusal :=
  .next <|
    let x := (s.radio r.val).rx
    if x.phase = .stage1 && x.edAt + qualTicks ≤ s.tick then s.rxAbort r.val 2 else s

/-- XC_FAIL_TIMEOUT (R166). -/
def execXcFailTimeout (r : Fin 3) (s : State) : Host.Outcome State Fault Refusal :=
  .next <|
    let x := (s.radio r.val).rx
    if x.phase = .stage2 && x.s1At + qualTicks ≤ s.tick then s.rxAbort r.val 3 else s

/-- DSSS_LOCK (R168): `ago` is how many nanoseconds before now the SYNC field began. -/
def execDsssLock (r : Fin 3) (ago : BitVec 16) (s : State) : Host.Outcome State Fault Refusal :=
  .next <|
    let r := r.val
    let x := (s.radio r).rx
    if (x.phase != .stage1 && x.phase != .stage2) || s.band r != 0 || !s.rbit (RADIO.RX_FORMAT_EN r) 0 then s
    else
      let stamp := s.ns - ago.toNat - s.femDelay r x.chains 15 0
      s.modRadio r fun y => { y with rx := { x with
        phase := .dsss, stamp := stamp, startAt := s.tick - ago.toNat * 8 / 25, qualChains := x.chains } }

/-- DSSS_SFD_TIMEOUT (R168): 144 µs from ED for the long preamble, 72 µs for the short. -/
def execDsssSfdTimeout (r : Fin 3) (short : Bool) (s : State) : Host.Outcome State Fault Refusal :=
  .next <|
    let x := (s.radio r.val).rx
    if x.phase = .dsss && x.edAt + (if short then 23040 else 46080) ≤ s.tick then s.rxAbort r.val 3 else s

/-! SIG fields (R160 to R163, R167). -/

/-- Data bits per symbol of a non-HT rate by the L-SIG RATE field; none where it is not one of the eight (PRESUMED, log entry 18). -/
def lsigNdbps (rate : Nat) : Option Nat :=
  match rate with
  | 11 => some 24 | 15 => some 36 | 10 => some 48 | 14 => some 72 | 9 => some 96 | 13 => some 144 | 8 => some 192
  | 12 => some 216 | _ => none

/-- The PPDU duration in microseconds that an L-SIG announces; none where the field fails its check (R167). -/
def lsigUs (w : Nat) : Option Nat :=
  let par := ((List.range 18).countP fun i => w.testBit i) % 2 = 0
  let len := nbits w 16 5
  match lsigNdbps (w % 16) with
  | none => none
  | some n => if par && nbits w 23 18 = 0 && len != 0 then some (20 + 4 * ((16 + 8 * len + 6 + n - 1) / n)) else none

/-- LSIG_CHECK (R167, R182): the power over the L-LTF, combined and of each chain, is known by then. -/
def execLsigCheck (r : Fin 3) (lsig : BitVec 24) (rssi : BitVec 16) (chainRssi : List Byte) (s : State) :
    Host.Outcome State Fault Refusal :=
  .next <|
    let r := r.val
    let x := { (s.radio r).rx with rssi := some (rssi.toNat, chainRssi) }
    if x.phase != .lsig then s
    else match lsigUs lsig.toNat with
      | none => (s.modRadio r fun y => { y with rx := x }).rxAbort r 4
      | some us => s.modRadio r fun y => { y with rx := { x with
          phase := .sig, durNs := us * 1000, endAt := x.startAt + us * 320 } }

/-- Streams that a PPDU announces. -/
def sigStreams (g : RxSig) : Nat := g.coding.toNat % 16

/-- A format's bit of RX_FORMAT_EN (R161). -/
def State.rxFormatOn (s : State) (r f : Nat) : Bool :=
  let en := s.rd (RADIO.RX_FORMAT_EN r)
  match f with
  | 0 => bit en 0 | 1 => bit en 1 | 2 => bit en 2 | 3 => bit en 3 | 4 => bit en 4 | 5 => bit en 4 | 6 => bit en 4
  | 7 => bit en 4 | 8 => bit en 5 | 9 => bit en 5 | _ => false

/-- A single-user PPDU in BCC carries more than 1,200 Mb/s, by its data tones, MCS, streams and symbol (R161); BCC serves no RU
on which a TB user would (PRESUMED, log entry 18). -/
def bccFast (g : RxSig) : Bool :=
  let f := g.format.toNat
  let m := if f = 2 then g.mcs.toNat % 8 else g.mcs.toNat
  let b := userBits (if f = 2 || f = 3 then oldTones g.bw.toNat else ruTones (3 + g.bw.toNat)) m (sigStreams g)
  let dur := if f = 2 || f = 3 then (if g.giLtf.toNat % 4 = 3 then 36 else 40) else symDur g.giLtf.toNat
  !g.coding.getLsbD 5 && (f = 2 || f = 3 || f = 4 || f = 8) && 1200 * dur * b.2 < 10 * b.1

/-- The puncturing patterns of a non-OFDMA EHT MU PPDU by width (R163; those of IEEE 802.11be, PRESUMED, log entry 18): none; one
20 MHz; at 160 MHz also 40 MHz; at 320 MHz 40 MHz, 80 MHz, or 80 MHz at an edge with 40 MHz more. -/
def punctOk (bw p : Nat) : Bool :=
  let at_ := fun k i => (2 ^ k - 1) * 2 ^ (k * i)
  p = 0 || (match bw with
    | 2 => (List.range 4).any fun i => p = at_ 1 i
    | 3 => ((List.range 8).any fun i => p = at_ 1 i) || (List.range 4).any fun i => p = at_ 2 i
    | 4 => ((List.range 8).any fun i => p = at_ 2 i) || ((List.range 4).any fun i => p = at_ 4 i)
      || (List.range 6).any fun i => p = at_ 4 0 + at_ 2 (i + 2) || p = at_ 4 3 + at_ 2 i
    | _ => false)

/-- The radio receives a PPDU of this format and these options (R160, R161). -/
def State.rxSupported (s : State) (r : Nat) (g : RxSig) : Bool :=
  let f := g.format.toNat
  let c := g.coding
  let su := fun k => suAllowed (s.band r) k g.bw.toNat g.mcs.toNat (sigStreams g) (g.giLtf.toNat % 4) (c.getLsbD 5) (c.getLsbD 4)
    (c.getLsbD 6)
  let tb := fun (lim : Nat) => g.mcs.toNat ≤ lim && (g.giLtf.toNat % 4 = 1 || g.giLtf.toNat % 4 = 2) && sigStreams g ≤ 8
    && !c.getLsbD 4
  let wide := g.bw.toNat ≤ (if s.band r = 0 then 1 else if s.band r = 2 then 4 else 3)
  s.rxFormatOn r f && !g.excluded && !bccFast g && (match f with
    | 0 => su 6 | 1 => su 0 | 2 => su 1 | 3 => su 2 | 4 => su 3 | 5 => su 4
    | 6 => g.bw.toNat ≤ (if s.band r = 0 then 1 else 3)
    | 7 => tb 11 && g.bw.toNat ≤ (if s.band r = 0 then 1 else 3)
    | 8 => if g.multi then wide else su 5
    | 9 => tb 13 && wide && !c.getLsbD 6
    | _ => false)

/-- The frozen gain is evaluated again over the HE-STF or EHT-STF, by at most 6 dB (R130, R169). -/
def State.reGain (s : State) (r mask : Nat) (l : StfLevels) : State :=
  let lim := s.gainLimits r
  let s1 := (List.range 8).foldl (fun s n =>
    if mask.testBit n then
      let g := s.rf (RADIO.CHAIN_STATUS r n) 15 8
      s.wf (RADIO.CHAIN_STATUS r n) 15 8 (clampN (max lim.1 (g - 6)) (min lim.2 (g + 6)) (l.gains.getD n 0).toNat)
    else s) s
  (s1.freezeLevels r mask l.levels).modRadio r fun x => { x with rx := { x.rx with ref := some l.ref } }

/-- Duration in microseconds of a DSSS PSDU of `n` bytes (R160). -/
def dsssUs (rate n : Nat) : Nat :=
  match rate with
  | 0 => 8 * n | 1 => 4 * n | 2 => (16 * n + 10) / 11 | _ => (8 * n + 10) / 11

/-- The channel estimate of the data is smoothed: SMOOTH is set and the PPDU permits it (R174). -/
def State.smooths (s : State) (r : Nat) (g : RxSig) : Bool :=
  s.rbit (RADIO.RX_DEC_CTL r) 31
    && (if g.format.toNat = 2 || g.format.toNat = 3 then g.smoothing else 4 ≤ g.format.toNat && !g.beamformed)

/-- The last SIG field of a PPDU, or a DSSS header, passes its check: what the PPDU announces decides (R161 to R163, R167,
R168, R174). -/
def State.sigPassed (s : State) (r : Nat) (g : RxSig) (stf : Option StfLevels) : State :=
  let x := { (s.radio r).rx with sig := some g, smooth := s.smooths r g }
  let cut := fun reason => (s.modRadio r fun y => { y with rx := x }).rxAbort r reason
  let dsss := x.phase = .dsss
  if dsss && (g.format.toNat != 0 || 3 < g.mcs.toNat) then s.rxAbort r 4
  else if !s.rxSupported r g then cut 6
  else if g.punct.toNat.testBit (s.primaryIdx r % 2 ^ g.bw.toNat)
      || (g.format.toNat = 8 && !g.multi && !punctOk g.bw.toNat g.punct.toNat) then cut 5
  else if !g.multi && pop8 x.chains < sigStreams g then cut 7
  else
    let multi := g.format.toNat = 6 || (g.format.toNat = 8 && g.multi)
    let us := dsssUs g.mcs.toNat g.length.toNat
    let x1 : Rx := { x with
      phase := if multi then .hold else .data, endKind := if multi then 1 else 0,
      endAt := if dsss then s.tick + us * 320 else x.endAt,
      durNs := if dsss then (s.tick - x.startAt) * 25 / 8 + us * 1000 else x.durNs }
    let s1 := s.modRadio r fun y => { y with rx := x1 }
    match stf with
    | some l => if 4 ≤ g.format.toNat then s1.reGain r x.chains l else s1
    | none => s1

/-- SIG_FIELD_CHECK (R130, R161 to R163, R167, R168, R267, R268). -/
def execSigFieldCheck (r : Fin 3) (found : SigCheck) (stf : Option StfLevels) (s : State) :
    Host.Outcome State Fault Refusal :=
  .next <|
    let r := r.val
    let x := (s.radio r).rx
    if x.phase != .sig && !(x.phase = .dsss && x.sig.isNone) then s
    else match found with
      | .more none => s
      | .more (some i) => if x.phase != .dsss && (!s.rxFormatOn r i.format.toNat || i.excluded) then s.rxAbort r 6 else s
      | .fails => s.rxAbort r (if x.phase = .dsss then 4 else 5)
      | .last g => s.sigPassed r g stf
      | .towpath h => if x.phase = .dsss then s else s.tpHeader r h

/-- The reception that a restart on this tick ends: the one in progress, or one that an abort of lower rank ended on the same tick
(R170, R172). -/
def State.restartable (s : State) (r : Nat) : Option Rx :=
  let x := s.radio r
  if x.rx.phase = .idle then (x.cutRx.filter fun c => c.tick = s.tick && abortRank 8 < abortRank c.reason).map (·.rx)
  else if s.tick < x.rx.edAt then none
  else some x.rx

/-- RX_RESTART (R114, R169 to R171): the received power reaches the reference level by RESTART_STEP, so the reception aborts and
acquisition begins again with ED on the next tick, unless the detector is blanked; a smaller rise with the start of periodicity marks
an onset. -/
def execRxRestart (r : Fin 3) (level : Int) (periodic : Bool) (s : State) : Host.Outcome State Fault Refusal :=
  .next <|
    let r := r.val
    let step : Int := (clampN 4 20 (s.rf (RADIO.RX_RESTART_CTL r) 4 0) : Nat)
    match s.restartable r with
    | none => s
    | some x =>
      match x.ref with
      | none => s
      | some ref =>
        if level < ref + step then
          if ref + 3 ≤ level && periodic then s.modRadio r fun y => { y with rx := { y.rx with onset := y.rx.phase != .idle } } else s
        else if !s.rbit (RADIO.RX_RESTART_CTL r) 31 then s
        else
          let s1 := s.rxAbort r 8
          if s1.blanked r then s1.sat (RADIO.RF_BLANK_CNT r) 31 0 1 else s1.edBegin r (s.tick + 1)

/-! Ends of receptions (R130, R162, R180, R181). -/

/-- RX_PPDU_END (R130, R145, R162, R180): the anchor is latched, the gain loops re-arm, a SIG_ONLY PPDU updates a NAV
(R186), and a Towpath frame takes its effects. -/
def execRxPpduEnd (r : Fin 3) (tp : Option TpPayload) (s : State) : Host.Outcome State Fault Refusal :=
  .next <|
    let r := r.val
    let x := (s.radio r).rx
    if (x.phase != .data && x.phase != .hold) || s.tick < x.endAt then s
    else
      let s1 := match x.tp with
        | some t => s.tpFrameEnd r t tp
        | none =>
          match x.sig with
          | some g =>
            match g.txop with
            | some us =>
              if x.endKind = 1 && us.toNat < 32768 then
                s.navSet r (s.rf (RADIO.MAC_CTL r) 27 22 != 0 && g.color.toNat = s.rf (RADIO.MAC_CTL r) 27 22) us.toNat
              else s
            | none => s
          | none => s
      let s2 := (s1.modRadio r fun y => { y with anchor := x.endAt, rx := {}, done := some y.rx }).sat
        (RADIO.RX_PPDU_CNT r) 31 0 1
      (s2.agcArm r).chainsAtEnd r

/-- RX_END (R145): 160 ticks after the PPDU end. -/
def execRxEnd (r : Fin 3) (s : State) : Host.Outcome State Fault Refusal :=
  .next <|
    match (s.radio r.val).done with
    | some d =>
      if !d.ended && d.endAt + 160 ≤ s.tick then
        (s.modRadio r.val fun x => { x with done := some { d with ended := true } }).seqEventAt r.val evRXEND (d.endAt + 160)
      else s
    | none => s

/-- A TB PPDU. -/
def Rx.isTb (x : Rx) : Bool :=
  match x.sig with
  | some g => g.format.toNat = 7 || g.format.toNat = 9
  | none => false

/-- Non-HT rate, by its number in rate order, that an MCS refers to (R201, PRESUMED, log entry 18). -/
def refRate (mcs : Nat) : Nat := [0, 2, 3, 4, 5, 6].getD mcs 7

/-- Rate in Mb/s of a response to a PPDU (R201): the highest basic rate that is not above the PPDU's reference rate, else the highest
mandatory one (the rule of IEEE 802.11, PRESUMED, log entry 18); for DSSS 1 or 2 Mb/s. -/
def State.respRate (s : State) (r : Nat) (g : RxSig) : Nat :=
  let f := g.format.toNat
  if f = 0 then (if g.mcs = 0 then 1 else 2)
  else
    let m := if f = 1 then min 7 g.mcs.toNat else refRate (if f = 2 then g.mcs.toNat % 8 else g.mcs.toNat)
    let basic := max 1 (s.rf (RADIO.MAC_CTL r) 7 0)
    let best := fun (l : List Nat) => (l.filter (· ≤ m)).getLast?
    let i := ((best ((List.range 8).filter fun i => basic.testBit i)).or (best [0, 2, 4])).getD 0
    [6, 9, 12, 18, 24, 36, 48, 54].getD i 6

/-- What a response reports (R201, R202): the scoreboards as they stand; to TB PPDUs an entry for each station heard that an AID is
bound to, and for each of its TIDs, an Ack where no agreement stands. -/
def State.respBas (s : State) (x : Rx) (k : RespKind) : List BaReport :=
  match k with
  | .blockAck scid tid => [s.baReport scid tid]
  | .multiSta => (x.heard.filter fun k => (s.aidFor k).isSome).flatMap fun k =>
    match x.tids.filter (·.1 = k) with
    | [] => [{ scid := k, tid := 15 }]
    | l => l.map fun e => if s.rxAgreed (8 * k + e.2) then s.baReport k e.2 else { scid := k, tid := e.2 }
  | _ => []

/-- A transmission to several users. -/
def State.isMu (s : State) (r : Nat) (t : TxNow) : Bool := nbits (s.tv r t.cmd 0) 31 28 = 8

/-- RX_DECIDED (R145, R181, R182, R187, R201, R202, R229, R280): the record or records, then the event, with RESP_DUE where a response
at SIFS is required. -/
def execRxDecided (r : Fin 3) (recs : List RxMeas) (s : State) : Host.Outcome State Fault Refusal :=
  .next <|
    let r := r.val
    match (s.radio r).done with
    | none => s
    | some d =>
      if !d.ended then s
      else
        let users := match d.sig with
          | some g => if d.isTb then g.users else [255]
          | none => [255]
        let meas := fun (u : BitVec 8) => ((if d.isTb then recs.find? fun m => m.user = u else recs.head?).getD s.freeMeas)
        let s1 := (users.foldl (fun (s : State) u => (s.rxsWrite r (recordBody d { meas u with user := u } d.endKind)).1) s).took
        let due := (s.radio r).resp.phase = .none || (s.radio r).resp.phase = .announced
        let s2 := (s1.seqEvent r evDECIDED).modRadio r fun x => { x with
          done := none
          resp := match d.resp with
            | some k => if due then {
                phase := .announced, kind := k, bas := s.respBas d k
                rate := match d.sig with
                  | some g => s.respRate r g
                  | none => 6 } else x.resp
            | none => x.resp
          mac := { x.mac with eifs := x.mac.eifs || (d.fcsFail && d.tp.isNone) } }
        let s3 := match (s2.mac r).await with
          | some a =>
            if d.answered && a.qual then
              (a.tx.cmd.mpdus.foldl (fun s m => s.stqMissed r (s.isMu r a.tx) m) s2).exchangeOk r { a.tx with cmd := { a.tx.cmd with mpdus := [] } }
            else s2
          | none => s2
        if d.resp.isSome then s3.seqEvent r evRESPDUE else s3

/-! Decoding (R176, R177, R179). -/

/-- Change the reception whose MPDUs the MAC judges: the one that ended, else the one in progress. -/
def State.modCur (s : State) (r : Nat) (f : Rx → Rx) : State :=
  s.modRadio r fun x => match x.done with
    | some d => { x with done := some (f d) }
    | none => { x with rx := f x.rx }

/-- That reception. -/
def State.rxCur (s : State) (r : Nat) : Rx := ((s.radio r).done).getD (s.radio r).rx

/-- It is one whose payload is decoded: no SIG_ONLY one (R162). -/
def State.decoding (s : State) (r : Nat) : Bool :=
  match (s.radio r).done with
  | some d => d.endKind = 0
  | none => (s.radio r).rx.phase = .data && (s.radio r).rx.endKind = 0

/-- The reception whose codewords are in the decoder is the one that ended, its deadline not having passed. -/
def Radio.cwDone (x : Radio) : Bool :=
  match x.done with
  | some d => d.endKind = 0 && !d.closed
  | none => false

/-- The reception whose codewords are in the decoder, none where no payload is being decoded. -/
def State.cwRx (s : State) (r : Nat) : Option Rx :=
  let x := s.radio r
  if x.cwDone then x.done else if x.rx.phase = .data && x.rx.endKind = 0 then some x.rx else none

/-- Replace it. -/
def State.setCwRx (s : State) (r : Nat) (v : Rx) : State :=
  s.modRadio r fun x => if x.cwDone then { x with done := some v } else { x with rx := v }

/-- Waiting codewords, the oldest first, take the lowest-numbered free lanes in service (R176). -/
def laneFill (active : Nat) : List (Nat × Nat) → List (Nat × Nat) → List (Nat × Nat)
  | [], held => held
  | c :: cs, held =>
    if held.any fun e => e.2 = c.1 then laneFill active cs held
    else match (List.range 13).find? fun i => active.testBit i && !(held.any fun e => e.1 = i) with
      | some i => laneFill active cs (held ++ [(i, c.1)])
      | none => held

/-- Codewords of users arrive: one that finds 96 waiting is not decoded (R176, R177). -/
def Rx.arrive (active : Nat) (x : Rx) (us : List (BitVec 8)) : Rx :=
  us.foldl (fun x u =>
    if 96 ≤ x.buf.length - x.lanes.length then { x with cwIn := x.cwIn + 1, overrun := true, bad := x.bad ++ [x.cwIn] }
    else
      let buf := x.buf ++ [(x.cwIn, u.toNat)]
      { x with cwIn := x.cwIn + 1, buf := buf, lanes := laneFill active buf x.lanes }) x

/-- The iteration limit (R176). -/
def State.maxIter (s : State) (r : Nat) : Nat := clampN 1 16 (s.rf (RADIO.RX_DEC_CTL r) 4 0)

/-- The codeword in a lane stops: after the iterations it needs to converge, or at the limit; the next one takes the lane (R176). -/
def State.laneEnds (s : State) (r : Nat) (x : Rx) (lane : Nat) (need : Option (BitVec 8)) : Rx :=
  match (x.lanes.find? fun e => e.1 = lane).bind fun e => x.buf.find? fun c => c.1 = e.2 with
  | none => x
  | some c =>
    let n := match need with
      | some k => min (s.maxIter r) (max 1 k.toNat)
      | none => s.maxIter r
    let good := match need with
      | some k => k.toNat ≤ s.maxIter r
      | none => false
    let t := tget (fun _ => (0, 0)) x.cws c.2
    let buf := x.buf.filter fun e => e.1 != c.1
    { x with
      buf := buf, lanes := laneFill (s.rf (RADIO.RX_LANES r) 12 0) buf (x.lanes.filter fun e => e.1 != lane)
      cws := tput (fun _ => (0, 0)) x.cws c.2 (t.1 + 1, t.2 + n)
      maxIter := x.maxIter || !good, bad := if good then x.bad else x.bad ++ [c.1] }

/-- CODEWORD_DECODED (R176, R177): codewords that have arrived enter the input buffer, and the one in a lane stops; `need` is the
iterations after which its syndrome is zero, if ever. -/
def execCodewordDecoded (r : Fin 3) (arrived : List (BitVec 8)) (lane : Fin 13) (need : Option (BitVec 8)) (s : State) :
    Host.Outcome State Fault Refusal :=
  .next <|
    let r := r.val
    match s.cwRx r with
    | none => s
    | some x =>
      let x1 := x.arrive (s.rf (RADIO.RX_LANES r) 12 0) arrived
      let x2 := s.laneEnds r x1 lane.val need
      ((s.setCwRx r x2).sat (RADIO.RX_DEC_CNT r) 7 0 (x1.bad.length - x.bad.length)).sat (RADIO.RX_DEC_CNT r) 31 16
        (x2.bad.length - x1.bad.length)

/-- DECODE_DEADLINE (R177): 4.0 µs after the last sample every codeword in the decoder is cut. -/
def execDecodeDeadline (r : Fin 3) (s : State) : Host.Outcome State Fault Refusal :=
  .next <|
    let r := r.val
    match (s.radio r).done with
    | some d =>
      if d.closed || s.tick < d.endAt + 1280 then s
      else (s.modRadio r fun x => { x with done := some { d with
        closed := true, cut := !d.buf.isEmpty, bad := d.bad ++ d.buf.map (·.1), buf := [], lanes := [] } }).sat
          (RADIO.RX_DEC_CNT r) 15 8 d.buf.length
    | none => s

/-- RX_LANES and RX_CAP with a lane's bits changed; LANE sets (R179, R184). -/
def State.setLanes (s : State) (r active failed : Nat) : State :=
  let n := (List.range 13).countP fun i => active.testBit i
  ((s.wr (RADIO.RX_LANES r) (wd (failed * 2 ^ 16 + active))).wr (RADIO.RX_CAP r) (wd (n * 2 ^ 24 + n * 2400))).evt (rTile r) 28

/-- The lanes in service from `k` on, in turn. -/
def laneFrom (active k : Nat) : Option Nat :=
  ((List.range 13).map fun i => (k + i) % 13).find? fun i => active.testBit i

/-- LANE_AUDIT (R179): AUDIT_MS after its last audit the next lane in turn is audited while it holds no codeword; the second failure in
a row takes it out of service and asks for a token for its spare. -/
def execLaneAudit (r : Fin 3) (passed : Bool) (s : State) : Host.Outcome State Fault Refusal :=
  .next <|
    let r := r.val
    let act := s.rf (RADIO.RX_LANES r) 12 0
    let failed := s.rf (RADIO.RX_LANES r) 28 16
    if s.rf (RADIO.RX_DEC_CTL r) 23 16 = 0 || !s.live (rTile r) then s
    else match laneFrom act (s.radio r).laneTurn with
      | none => s
      | some n =>
        let holds := match s.cwRx r with
          | some x => x.lanes.any fun e => e.1 = n
          | none => false
        if holds || s.clock < tget (fun _ => 0) (s.radio r).laneAt n + s.rf (RADIO.RX_DEC_CTL r) 23 16 * 500000 then s else
        let fails := if passed then 0 else tget (fun _ => 0) (s.radio r).laneFails n + 1
        let s1 := s.modRadio r fun x => { x with
          laneTurn := (n + 1) % 13, laneAt := tput (fun _ => 0) x.laneAt n s.clock, laneFails := tput (fun _ => 0) x.laneFails n (if 2 ≤ fails then 0 else fails) }
        if fails < 2 then s1
        else
          let s2 := s1.setLanes r (act - 2 ^ n) (failed + 2 ^ n)
          if act + failed = 2 ^ 13 - 1 then s2 else s2.axAsk 29 (rTile r) n

/-- RXS_RD_WRITE (R181). -/
def execRxsRdWrite (by_ : Req) (r : Fin 3) (val : Word) (s : State) : Host.Outcome State Fault Refusal :=
  .next <| s.onWrite by_ (rTile r.val) fun s => s.wr (RADIO.RXS_RD r.val) (val &&& 0x7FFF)

end Sys2Proof.Machine
end

