-- ==== Sys2Proof/Machine/Mac.lean ====
section
/-! DEFINITION. The MAC of the radios and the part of MLINK that serves it: addresses and filters, decryption, reorder,
acknowledgements, channel access, the AID map and the keys (R185 to R214). -/

namespace Sys2Proof.Machine

open Reg

/-! BSS slots and addresses (R194, R195). Octet 0 of an address is in bits 7:0. -/

/-- The address that the registers of a slot hold. -/
def State.slotReg (s : State) (r n : Nat) : Nat := (s.rd (RADIO.BSS_A r n)).toNat + 2 ^ 32 * s.rf (RADIO.BSS_B r n) 15 0

/-- Slot 15 is a non-AP station. -/
def State.slotSta (s : State) (r n : Nat) : Bool := n = 15 && s.rbit (RADIO.BSS_B r 15) 29

/-- The address of a slot: slot 0's with its low four bits moved on by the slot's number, or a station's own. -/
def State.slotAddr (s : State) (r n : Nat) : Nat :=
  if n = 0 || s.slotSta r n then s.slotReg r n
  else
    let a := s.slotReg r 0
    a - nbits a 43 40 * 2 ^ 40 + (nbits a 43 40 + n) % 16 * 2 ^ 40

/-- A slot is enabled. -/
def State.slotOn (s : State) (r n : Nat) : Bool :=
  s.rbit (RADIO.BSS_B r n) 31 && (n = 0 || s.slotSta r n || s.rbit (RADIO.BSS_B r 0) 31)

/-- The enabled slot with an address. -/
def State.slotOf (s : State) (r a : Nat) : Option Nat := (List.range 16).find? fun n => s.slotOn r n && s.slotAddr r n = a

/-- The context whose installed link record on a radio has an address (R195). -/
def State.addrOf (s : State) (r a : Nat) : Option Nat :=
  (s.mlink.addrs.find? fun e => e.1 / 1024 = r && e.2 = some a).map fun e => e.1 % 1024

/-- The broadcast address. -/
def bcast : Nat := 2 ^ 48 - 1
/-- A group address. -/
def isGroup (a : Nat) : Bool := a % 2 = 1

/-- LAST_TA takes an address (R195, R211). -/
def State.latchTa (s : State) (r a : Nat) : State :=
  let s1 := (s.wr (RADIO.LAST_TA_LO r) (wd a)).wr (RADIO.LAST_TA_HI r) (wd (a / 2 ^ 32 % 2 ^ 16))
  if (s.rd (RADIO.LAST_TA_LO r)).toNat = a % 2 ^ 32 && (s.rd (RADIO.LAST_TA_HI r)).toNat = a / 2 ^ 32 % 2 ^ 16 then s1
  else s1.evt (rTile r) 30

/-- What becomes of a received MPDU by its addresses (R195): dropped, or accepted with its slot, its context where known, and
whether it is a foreign frame taken promiscuously. -/
inductive Filtered where
  | dropped
  | taken (slot : Nat) (scid : Option Nat) (other : Bool)
deriving DecidableEq, Repr

/-- Kinds without an A2. -/
def noA2 : MpduKind → Bool
  | .cts => true
  | .ack => true
  | _ => false

/-- Management frames. -/
def isMgmt : MpduKind → Bool
  | .mgmt _ => true
  | _ => false

/-- The receive address filter (R195). -/
def State.rxFilter (s : State) (r : Nat) (m : RxMpdu) : State × Filtered :=
  let a1 := m.a1.toNat
  let a2 := m.a2.toNat
  let a3 := m.a3.toNat
  let sta := s.addrOf r a2
  let inGroup := fun (n : Nat) => sta.filter fun k => s.ctxGroup k = n
  match s.slotOf r a1 with
  | some n =>
    if isMgmt m.kind && a3 != a1 then (s.sat (RADIO.FILT_CNT r) 7 0 1, .dropped)
    else if noA2 m.kind then (s, .taken n none false)
    else match inGroup n with
      | some k => (s, .taken n (some k) false)
      | none =>
        if isMgmt m.kind then (s, .taken n none false)
        else ((s.sat (RADIO.FILT_CNT r) 15 8 1).latchTa r a2, .dropped)
  | none =>
    if a1 = bcast then
      if isMgmt m.kind && a3 != bcast && (s.slotOf r a3).isNone then (s.sat (RADIO.FILT_CNT r) 7 0 1, .dropped)
      else match s.slotOf r a3 with
        | some n => (s, .taken n (inGroup n) false)
        | none => (s, .taken 0 none false)
    else if isGroup a1 then
      if s.rbit (RADIO.MAC_CTL r) 28 then
        match s.slotOf r a3 with
        | some n => (s, .taken n (inGroup n) false)
        | none => (s, .taken 0 none false)
      else (s.sat (RADIO.FILT_CNT r) 31 16 1, .dropped)
    else if s.rbit (RADIO.MAC_CTL r) 29 then (s, .taken 0 none true)
    else (s.sat (RADIO.FILT_CNT r) 31 16 1, .dropped)

/-! The NAV (R186). -/

/-- NAVTimeout of an RTS in cycles of the model's clock: two SIFS, the CTS at 6 Mb/s, the receive start delay of 20 µs and
two slots (PRESUMED, log entry 18). -/
def State.navTimeout (s : State) (r : Nat) : Nat := 2 * s.sifs r + (44 + 20) * 500 + 2 * s.slot r

/-- A received MPDU with a valid FCS that is not for this radio updates a NAV (R186). -/
def State.navUpdate (s : State) (r : Nat) (m : RxMpdu) : State :=
  let color := s.rf (RADIO.MAC_CTL r) 27 22
  let sameColor := match (s.rxCur r).sig with
    | some g => color != 0 && g.color.toNat = color
    | none => false
  let intra := (s.slotOf r m.a1.toNat).isSome || (!noA2 m.kind && (s.slotOf r m.a2.toNat).isSome) || sameColor
  if (s.slotOf r m.a1.toNat).isSome then s
  else if m.kind = .cfEnd then
    s.modMac r fun x => if intra then { x with navIntra := 0 } else { x with navBasic := 0 }
  else if 32768 ≤ m.duration.toNat then s
  else
    let old := if intra then (s.mac r).navIntra else (s.mac r).navBasic
    let s1 := s.navSet r intra m.duration.toNat
    if m.kind = .rts && old < s.clock + m.duration.toNat * 500 then
      s1.modMac r fun x => { x with navRts := some (intra, s.clock + s.navTimeout r) }
    else s1

/-! Reorder and delivery (R196, R202, R211). -/

/-- Replay check of an MPDU in a class of counters: a TID, or 8 for management (R211). The second part tells whether it
passes. -/
def State.replayOk (s : State) (k : Option (Nat × Nat)) (cls : Nat) : State × Bool :=
  match k with
  | none => (s, true)
  | some (slot, pn) =>
    match s.key slot with
    | none => (s, true)
    | some key =>
      if pn ≤ tget (fun _ => 0) key.rxPn cls then ((s.sat MLINK.MLINK_CNT 23 16 1).evt 5 20, false)
      else (s.setKey slot (some { key with rxPn := tput (fun _ => 0) key.rxPn cls pn }), true)

/-- Release an MPDU from reorder to CLASS (R202, R346). -/
def State.rxRelease (s : State) (scid tid : Nat) (h : HeldMpdu) : State :=
  let p := s.replayOk h.key tid
  if p.2 then { p.1 with clsIn := p.1.clsIn ++ [{ ingress := 4 + h.radio, desc := h.desc, srcid := scid, tid := tid }] }
  else p.1.freeDesc 3 h.desc

/-- Put an MPDU among those held, in window order. -/
def holdIn (start : Nat) : List HeldMpdu → HeldMpdu → List HeldMpdu
  | [], h => [h]
  | g :: gs, h =>
    if (h.seq + 4096 - start) % 4096 < (g.seq + 4096 - start) % 4096 then h :: g :: gs else g :: holdIn start gs h

/-- Release the MPDUs held that follow on from the start of the window. -/
def State.rxRun (s : State) (q : Nat) : List HeldMpdu → State
  | [] => s.setBoard q { s.board q with held := [] }
  | h :: hs =>
    if h.seq = s.rxStart q then ((s.rxRelease (q / 8) (q % 8) h).setRxStart q (h.seq + 1)).rxRun q hs
    else s.setBoard q { s.board q with held := h :: hs, since := s.clock }

/-- Move the window to a start, releasing what lies before it; each hole passed is counted (R202). -/
def State.rxMove (s : State) (q start : Nat) : State :=
  let b := s.board q
  let old := s.rxStart q
  let dist := (start + 4096 - old) % 4096
  let before := b.held.filter fun h => (h.seq + 4096 - old) % 4096 < dist
  let after := b.held.filter fun h => dist ≤ (h.seq + 4096 - old) % 4096
  let go := before.foldl (fun (a : State × Nat × Nat) h =>
    (a.1.rxRelease (q / 8) (q % 8) h, h.seq + 1, a.2.2 + b2n (h.seq % 4096 != a.2.1 % 4096))) (s, old, 0)
  let holes := go.2.2 + b2n (go.2.1 % 4096 != start % 4096 && !b.held.isEmpty)
  ((go.1.sat MLINK.MLINK_CNT 15 0 holes).setRxStart q start).rxRun q after

/-- An MPDU reaches the scoreboard and reorder (R202, R215): without an agreement it goes on at once. -/
def State.rxReorder (s : State) (q : Nat) (h : HeldMpdu) : State :=
  if !s.rxAgreed q then s.rxRelease (q / 8) (q % 8) h
  else
    let s := s.setBoard q ((s.board q).mark (s.rxBuf q) h.seq)
    let d := (h.seq + 4096 - s.rxStart q) % 4096
    let n := s.rxBuf q
    if 2048 ≤ d || (s.board q).held.any (fun g => g.seq = h.seq) then s.freeDesc 3 h.desc
    else
      let s1 := if n ≤ d then s.rxMove q ((h.seq + 4096 - n + 1) % 4096) else s
      let b := s1.board q
      s1.setBoard q { b with
        held := holdIn (s1.rxStart q) b.held h, since := if b.held.isEmpty then s1.clock else b.since } |> fun s2 =>
          if h.seq = s2.rxStart q then s2.rxRun q (s2.board q).held else s2

/-- Entries of the management receive ring. -/
def State.mrxSlots (s : State) : Nat := 2 ^ clampN 4 12 (s.rf MLINK.MRX_CTL 3 0)

/-- An entry of the management receive ring (R196), or the drop of a frame that finds it full. -/
def State.mrxPush (s : State) (r slot : Nat) (scid : Option Nat) (other : Bool) (desc seq : Nat) : State :=
  let n := s.mrxSlots
  let w := s.rf MLINK.MRX_WR 11 0 % n
  if (w + 1) % n = s.rf MLINK.MRX_RD 11 0 % n then
    ((s.freeDesc 3 desc).sat MLINK.MLINK_CNT 31 24 1).evt 5 19
  else
    let a := lm 5 ((s.rf MLINK.MRX_CTL 17 4 * 16 + 16 * w) % 0x40000)
    let w0 := 2 ^ 31 + r * 2 ^ 29 + slot * 2 ^ 25 + b2n scid.isNone * 2 ^ 24 + b2n other * 2 ^ 23 + scid.getD 0
    ((s.wwords a [w0, desc % 2 ^ 32, desc / 2 ^ 32 % 256, seq * 65536]).wf MLINK.MRX_WR 11 0
      ((w + 1) % n)).evt 5 18

/-- Which of the records of the reception being judged an MPDU's will be: those of a TB PPDU stand in user order (R181). -/
def State.recIndex (s : State) (r : Nat) (m : RxMpdu) : Nat :=
  match (s.rxCur r).sig with
  | some g => if (s.rxCur r).isTb then g.users.findIdx (· = m.user) else 0
  | none => 0

/-- SEQ of an MPDU's record. -/
def State.recSeqOf (s : State) (r : Nat) (m : RxMpdu) : Nat := ((s.radio r).recSeq + s.recIndex r m) % 65536

/-- A codeword of an MPDU was cut, overrun or ended unconverged (R177). -/
def Rx.mpduCut (x : Rx) (m : RxMpdu) : Bool :=
  match m.cws with
  | some c => x.bad.any fun i => c.1 ≤ i && i ≤ c.2
  | none => false

/-- The MPDU status word of an MPDU being delivered (R183). Whether its record will be dropped is judged from the ring as it
stands (DEDUCED, log entry 22). -/
def State.mpduStatus (s : State) (r : Nat) (m : RxMpdu) : Nat :=
  let n := s.rxsSlots r
  let free := (n + s.rf (RADIO.RXS_RD r) 14 0 % n - s.rf (RADIO.RXS_WR r) 14 0 % n - 1) % n
  let drop := free ≤ s.recIndex r m || storeEnd < s.rf (RADIO.RXS_BASE r) 31 4 * 4096 + 64 * n
  s.recSeqOf r m * 65536 + b2n drop * 2 ^ 15 + 2 ^ 14 + b2n ((s.rxCur r).mpduCut m) * 2 ^ 13 + m.user.toNat

/-! Decryption (R211). -/

/-- The key slot that a received MPDU names. -/
def rxKeySlot (m : RxMpdu) (slot : Nat) (scid : Option Nat) (kid : Nat) : Option Nat :=
  if isGroup m.a1.toNat then (if kid = 0 then none else some (keyGroup slot kid))
  else if 1 < kid then none
  else scid.map fun k => keyPair k kid

/-- Decrypt: the MPDU goes on with its key slot and PN, or is dropped. -/
def State.decrypt (s : State) (r : Nat) (m : RxMpdu) (slot : Nat) (scid : Option Nat) :
    State × Option (Option (Nat × Nat)) :=
  match m.key with
  | none => (s, some none)
  | some k =>
    match (rxKeySlot m slot scid k.keyId.toNat).filter fun i => (s.key i).isSome with
    | none => (s.sat (RADIO.SEC_CNT r) 15 0 1, none)
    | some i =>
      if k.micOk then (s, some (some (i, k.pn.toNat)))
      else (((s.sat (RADIO.SEC_CNT r) 31 16 1).latchTa r m.a2.toNat).evt (rTile r) 29, none)

/-! Responses and outcomes (R190, R201, R203). -/

/-- The reception requires a response; a trigger's window turns it into a multi-STA block acknowledgement. -/
def State.respond (s : State) (r : Nat) (k : RespKind) : State :=
  s.modCur r fun x => { x with resp := some (if x.isTb then .multiSta else k) }

/-- Outcome of the MPDUs of a command under a test of their sequence numbers; the second part is what is left of them. -/
def State.mpduOutcomes (s : State) (r : Nat) (c : TxCmd) (mine : FlightMpdu → Bool) (good : Nat → Bool) :
    State × List FlightMpdu :=
  c.mpdus.foldl (fun (a : State × List FlightMpdu) m =>
    if mine m then
      let seq := ((s.stq m.stq).find? fun x => x.desc = m.desc).bind (·.seq)
      (match seq with
        | some n => if good n then a.1.stqAcked r m else a.1.stqMissed r false m
        | none => a.1.stqMissed r false m, a.2)
    else (a.1, a.2 ++ [m])) (s, [])

/-- The sequence number in the MAC header of an MPDU in the store. -/
def State.hdrSeq (s : State) (d : Nat) : Nat :=
  let b := s.dData d
  ((b.getD 22 0).toNat + 256 * (b.getD 23 0).toNat) / 16

/-- An exchange that waits for a response: it reached QUAL_OK in time. -/
def State.awaiting (s : State) (r : Nat) : Option Await := (s.mac r).await.filter (·.qual)

/-- TID of a QoS data MPDU in the store (R224; its place in the header PRESUMED, log entry 52). -/
def State.hdrTid (s : State) (d : Nat) : Nat := ((s.dData d).getD 24 0).toNat % 16

/-- A CTS arrives (R190, R192): the PPDU that an RTS protects follows; an MU-RTS command of its own has succeeded. -/
def State.ctsArrived (s : State) (r : Nat) : State :=
  match s.awaiting r with
  | none => s
  | some a =>
    match a.tx.stage with
    | .rts =>
      let p := s.sendMpdus r a.tx.cmd
      let t : TxNow := { a.tx with
        stage := .ppdu 0, onAir := true, unsent := a.tx.unsent + p.2.1, underrun := a.tx.underrun || p.2.2
        more := s.moreData r a.tx.cmd, eosp := s.eospOf r a.tx.cmd }
      ((p.1.modRadio r fun x => { x with
        tx := some { t with till := s.endTick r t (s.tick + s.sifs r * 16 / 25) } }).modMac r fun m =>
          { m with await := none }).syncTxBusy r
    | _ => if s.ackOf r a.tx = 1 && (nbits (s.tv r a.tx.cmd 0) 31 28 = 8 && nbits (s.tv r a.tx.cmd 0) 27 25 = 4) then
        s.exchangeOk r a.tx else s

/-- An Ack arrives: every MPDU of the exchange is acknowledged. -/
def State.ackArrived (s : State) (r : Nat) : State :=
  match s.awaiting r with
  | none => s
  | some a =>
    if a.tx.stage = .rts || s.ackOf r a.tx != 1 || 6 < nbits (s.tv r a.tx.cmd 0) 31 28 then s
    else
      let p := (s.fwStatus r a.tx.cmd (fun _ => true) false).mpduOutcomes r a.tx.cmd (fun _ => true) (fun _ => true)
      p.1.exchangeOk r { a.tx with cmd := { a.tx.cmd with mpdus := [] } }

/-- A BlockAck arrives from a station (R190, R203, R229, R232): the MPDUs of that station and TID have their outcome, and the exchange
is a success whatever the bitmap. A single-user one with MPDUs of other TIDs left ends when the reception is decided, as one to several
users does (DEDUCED, log entry 58). -/
def State.baArrived (s : State) (r scid tid ssn : Nat) (bits : List Bool) : State :=
  let good := fun n => bits.getD ((n + 4096 - ssn) % 4096) false
  let mine := fun (m : FlightMpdu) => m.stq / 8 = scid && m.stq % 8 = tid
  match s.awaiting r with
  | none =>
    match (s.mac r).tb, (s.radio r).tx with
    | some b, some t =>
      if b.2.2 && s.isMu r t then
        let p := s.mpduOutcomes r t.cmd mine good
        p.1.modRadio r fun x => { x with tx := some { t with cmd := { t.cmd with mpdus := p.2 } } }
      else s
    | _, _ => s
  | some a =>
    if a.tx.stage = .rts then s
    else if !s.isMu r a.tx && (s.ackOf r a.tx != 2 || s.tv r a.tx.cmd 1 % 1024 != scid) then s
    else
      let s0 := if s.isMu r a.tx then s else s.fwStatus r a.tx.cmd (fun d => s.hdrTid d = tid && good (s.hdrSeq d)) false
      let p := s0.mpduOutcomes r a.tx.cmd mine good
      let t : TxNow := { a.tx with cmd := { a.tx.cmd with mpdus := p.2 } }
      if s.isMu r a.tx || !p.2.isEmpty then
        (p.1.modCur r fun x => { x with answered := true }).modMac r fun m => { m with await := some { a with tx := t } }
      else p.1.exchangeOk r t

/-- What the radio learns of a station from an MPDU with FCS_OK (R199, R224, R236, R238, and the counters of its link record). -/
def State.fromStation (s : State) (r scid : Nat) (m : RxMpdu) : State :=
  let o := linkOff r
  let x := s.rxCur r
  let s1 := (s.ctxPut scid (o + 24) 4 (s.ctx scid (o + 24) 4 + 1)).ctxPut scid (o + 28) 4 x.stamp
  let s2 := (s1.ctxPut scid (o + 15) 1 0).modCur r fun y => { y with
    heard := if y.heard.contains scid then y.heard else y.heard ++ [scid] }
  let s2 := if s2.soundingNow r then s2
    else s2.modMac r fun y => { y with tb := y.tb.map fun t => (t.1, t.2.1.filter (· != scid), t.2.2) }
  let s3 := match m.pm with
    | some b => s2.setLinkFlag scid r 2 b
    | none => s2
  let s4 := match m.kind with
    | .data tid _ _ =>
      if m.user.toNat != 255 then
        let q := 56 + 4 * acOfTid tid.toNat
        (s3.ctxPut scid q 4 (s3.ctx scid q 4 - m.bytes.length)).addDeficit scid 52 (-(m.bytes.length : Int))
      else s3
    | _ => s3
  let s5 := if m.uapsd && s4.linkFlag scid r 2 then s4.setLinkFlag scid r 3 true else s4
  m.report.foldl (fun s q => s.ctxPut scid (56 + 4 * q.1.toNat) 4 q.2.toNat) s5

/-- A PS-Poll wakes the link of the station that its AID is bound to (R197, R218, R224). -/
def State.psPoll (s : State) (r slot aid : Nat) : State :=
  match tget (fun _ => none) s.mlink.aids aid with
  | none => s
  | some (scid, g) =>
    if g != slot || s.ctxState scid != 2 then s
    else
      (s.setLinkFlag scid r 3 true).modMlink fun x => { x with
        polled := if x.polled.contains (4 * scid + r) then x.polled else x.polled ++ [4 * scid + r] }

/-- An individually addressed data MPDU of a multi-link station is delivered with MLD addresses in place of its link's (R204,
the header's places PRESUMED, log entry 52). -/
def State.mldMpdu (s : State) (m : RxMpdu) (scid : Option Nat) : RxMpdu :=
  match scid.filter fun k => s.ctxFw k 4 1 % 2 = 1 && !isGroup m.a1.toNat with
  | none => m
  | some k =>
    let own := (s.rd (MLINK.MLD_A (s.ctxGroup k))).toNat + 2 ^ 32 * (s.rd (MLINK.MLD_B (s.ctxGroup k))).toNat
    let peer := s.ctxFw k 8 6
    let third := if m.a3 = m.a1 then le 6 own else if m.a3 = m.a2 then le 6 peer else (m.bytes.drop 16).take 6
    if m.bytes.length < 24 then m
    else { m with bytes := m.bytes.take 4 ++ le 6 own ++ le 6 peer ++ third ++ m.bytes.drop 22 }

/-- Store an accepted MPDU (R183, R313). -/
def State.mpduStore (s : State) (r : Nat) (m : RxMpdu) : State × Option Nat :=
  s.rxStore r m.bytes (s.mpduStatus r m) (s.rxCur r).stamp

/-- A management or foreign frame goes to the ring once it passes the ciphers (R196, R211). -/
def State.toRing (s : State) (r : Nat) (m : RxMpdu) (slot : Nat) (scid : Option Nat) (other : Bool) : State :=
  let d := if other then (s, some none) else s.decrypt r m slot scid
  match d.2 with
  | none => d.1
  | some k =>
    let p := d.1.replayOk k 8
    if !p.2 then p.1
    else
      let w := p.1.mpduStore r m
      match w.2 with
      | some a => w.1.mrxPush r slot scid other a (s.recSeqOf r m)
      | none => w.1

/-- An accepted data MPDU (R196, R201, R202, R211). The SRCID of one whose sender is not known is free (DESIGN CHOICE, log entry 5). -/
def State.rxData (s : State) (r : Nat) (m : RxMpdu) (slot : Nat) (scid : Option Nat) (tid seq policy : Nat) : State :=
  let direct := !isGroup m.a1.toNat
  let s1 := match scid with
    | some k =>
      if !direct || policy != 0 then s
      else (s.modCur r fun x => { x with tids := if x.tids.contains (k, tid) then x.tids else x.tids ++ [(k, tid)] }).respond r
        (if s.rxAgreed (8 * k + tid) then .blockAck k tid else .ack)
    | none => s
  let d := s1.decrypt r m slot scid
  match d.2 with
  | none => d.1
  | some key =>
    let w := d.1.mpduStore r (d.1.mldMpdu m scid)
    match w.2 with
    | none => w.1
    | some a =>
      let h : HeldMpdu := { seq := seq, desc := a, radio := r, key := key }
      match scid with
      | some k => if direct then w.1.rxReorder (8 * k + tid) h else w.1.rxRelease k tid h
      | none => (w.1.rxRelease (w.1.free 10) tid h).took

/-- The AIDs of an MU-RTS or a trigger name this radio's non-AP station: its AID is that of the context of its AP (R194, R215, DEDUCED,
log entry 58). -/
def State.aidsNameMe (s : State) (r : Nat) (aids : List (BitVec 12)) : Bool :=
  s.slotOn r 15 && s.slotSta r 15
    && aids.any fun a => a.toNat = s.ctxFw (s.rf (RADIO.BSS_B r 15) 25 16) 2 2 % 2048

/-- An MPDU that the filter accepts takes its effect. -/
def State.rxTaken (s : State) (r : Nat) (m : RxMpdu) (slot : Nat) (scid : Option Nat) (other : Bool) : State :=
  let s0 := match scid with
    | some k => s.fromStation r k m
    | none => s
  if other then s0.toRing r m slot scid true
  else
    let mine := !isGroup m.a1.toNat
    match m.kind with
    | .mgmt _ => (if mine then s0.respond r .ack else s0).toRing r m slot scid false
    | .data tid seq policy => s0.rxData r m slot scid tid.toNat seq.toNat policy.toNat
    | .rts => if mine && !s0.navBusy r then s0.respond r .cts else s0
    | .muRts aids => if !s0.navBusy r && s0.aidsNameMe r aids then s0.respond r .cts else s0
    | .cts => if mine then s0.ctsArrived r else s0
    | .ack => if mine then s0.ackArrived r else s0
    | .blockAck tid ssn bits =>
      match scid with
      | some k => s0.baArrived r k tid.toNat ssn.toNat bits
      | none => s0
    | .bar tid ssn =>
      match scid with
      | some k =>
        let q := 8 * k + tid.toNat
        if !s0.rxAgreed q then s0
        else
          let s1 := (s0.respond r (.blockAck k tid.toNat)).setBoard q ((s0.board q).moveTo ssn.toNat (s0.rxBuf q))
          let d := (ssn.toNat + 4096 - s1.rxStart q) % 4096
          if d = 0 || 2048 ≤ d then s1 else s1.rxMove q ssn.toNat
      | none => s0
    | .psPoll aid => (s0.psPoll r slot aid.toNat).respond r .ack
    | .trigger aids => if s0.aidsNameMe r aids then s0.respond r .tb else s0
    | .cfEnd => s0
    | .otherControl => s0

/-- MPDU_RECEIVE (R186, R195, R196, R201, R202, R211): one decoded MPDU of the reception that the MAC judges. While
MAC_CTL.EN is 0, only a NAV is updated. -/
def execMpduReceive (r : Fin 3) (m : RxMpdu) (s : State) : Host.Outcome State Fault Refusal :=
  .next <|
    let r := r.val
    if !s.decoding r || (s.rxCur r).tp.isSome || !s.live (rTile r) then s
    else
      let u := m.user.toNat
      let s0 := s.modCur r fun x => { x with mpdus := tput (fun _ => 0) x.mpdus u (tget (fun _ => 0) x.mpdus u + 1) }
      if !m.fcsOk then s0.modCur r fun x => { x with fcsFail := true }
      else
        let s1 := s0.navUpdate r m
        if !s1.rbit (RADIO.MAC_CTL r) 31 then s1
        else
          let f := s1.rxFilter r m
          match f.2 with
          | .dropped => f.1
          | .taken slot scid other => f.1.rxTaken r m slot scid other

/-! Carrier sense and channel access (R185 to R193). -/

/-- NAV_EXPIRE (R186). -/
def execNavExpire (r : Fin 3) (intra : Bool) (s : State) : Host.Outcome State Fault Refusal :=
  .next <| s.modMac r.val fun m =>
    if intra then (if m.navIntra ≤ s.clock then { m with navIntra := 0 } else m)
    else (if m.navBasic ≤ s.clock then { m with navBasic := 0 } else m)

/-- NAV_RTS_TIMEOUT (R186). -/
def execNavRtsTimeout (r : Fin 3) (s : State) : Host.Outcome State Fault Refusal :=
  .next <| s.modMac r.val fun m =>
    match m.navRts with
    | some (intra, t) =>
      if t ≤ s.clock then
        (if intra then { m with navIntra := 0, navRts := none } else { m with navBasic := 0, navRts := none })
      else m
    | none => m

/-- CCA_ENERGY_BUSY (R185): the mean power of the primary channel, in dBm, against CCA_ED_THR; below it the energy no longer
holds the medium busy (DEDUCED, log entry 20). -/
def execCcaEnergyBusy (r : Fin 3) (level : BitVec 8) (s : State) : Host.Outcome State Fault Refusal :=
  .next <|
    let r := r.val
    if sval 8 (s.rf (RADIO.MAC_CTL r) 15 8) ≤ sval 8 level.toNat then
      (s.modMac r fun m => { m with ccaBusy := true }).macBusy r
    else s.modMac r fun m => { m with ccaBusy := false }

/-- MEDIUM_IDLE (R185, R188): counting restarts with k at 0. -/
def execMediumIdle (r : Fin 3) (s : State) : Host.Outcome State Fault Refusal :=
  .next <|
    let r := r.val
    if s.physBusy r || s.navBusy r || (s.mac r).idleAt.isSome || !s.live (rTile r) then s
    else (s.modMac r fun m => { m with idleAt := some s.clock, slotJ := 0 }).seqEvent r evIDLE

/-- EIFS - DIFS in cycles: SIFS and an Ack at 6 Mb/s (R187, PRESUMED, log entry 18). -/
def State.eifsExtra (s : State) (r : Nat) : Nat := if (s.mac r).eifs then s.sifs r + 44 * 500 else 0

/-- Whether the radio may grant: READY, enabled, awake, and no schedule window of another member (R188, R207, R300, R303). -/
def State.mayGrant (s : State) (r : Nat) : Bool :=
  let sc := s.rd CLASS.FAB_SCHED
  let foreign := match s.fabric.win with
    | none => false
    | some w =>
      let o := s.rf (CLASS.SLOT_CUR w) 30 26
      bit sc 31 && bit sc (28 + r) && o < 16 && o != fld sc 27 24
  s.rbit (RADIO.MAC_CTL r) 31 && s.life (rTile r) = .ready && !s.dozing r && !s.dutyFull r && !foreign

/-- One access category at boundary `j` of the grid: its counter steps down from k = 1 on (R188). -/
def State.slotStep (s : State) (r j ac : Nat) : State :=
  let n := max 1 (fld (s.edca r ac) 7 4)
  let bo := tget (fun _ => 0) (s.mac r).bo ac
  if n + 1 ≤ j && bo != 0 then s.modMac r fun m => { m with bo := tput (fun _ => 0) m.bo ac (bo - 1) } else s

/-- An access category is a candidate at boundary `j`. -/
def State.slotCand (s : State) (r j ac : Nat) : Bool :=
  max 1 (fld (s.edca r ac) 7 4) ≤ j && tget (fun _ => 0) (s.mac r).bo ac = 0 && !(s.txq r ac).isEmpty && !s.acBarred r ac

/-- BACKOFF_SLOT (R188, R189, R192): the next boundary of the grid is evaluated for every access category; the highest candidate
is granted, the others collide inside. Nothing is granted while a grant stands or an exchange is under way. `busy` are the 20 MHz
subchannels that were busy in the PIFS before. -/
def execBackoffSlot (r : Fin 3) (busy : BitVec 16) (s : State) : Host.Outcome State Fault Refusal :=
  .next <|
    let r := r.val
    let x := s.radio r
    match x.mac.idleAt with
    | none => s
    | some t =>
      let j := x.mac.slotJ
      if s.physBusy r || s.navBusy r || s.clock < t + s.eifsExtra r + s.sifs r + j * s.slot r then s
      else
        let s1 := [0, 1, 2, 3].foldl (fun s ac => s.slotStep r j ac) (s.modMac r fun m => { m with slotJ := j + 1 })
        if !s.mayGrant r || x.granted.isSome || x.tx.isSome || x.mac.await.isSome then s1
        else match ([3, 2, 1, 0].filter fun ac => s1.slotCand r j ac) with
        | [] => s1
        | win :: lose =>
          let s2 := lose.reverse.foldl (fun s ac => (s.acFailure r ac).sat (RADIO.ACC_CNT r) 15 8 1)
            (s1.modMac r fun m => { m with subBusy := busy.toNat })
          s2.grant r win

/-- GRANT_WITHDRAW (R189, R192, R205): no TXQ_READY within a slot, a busy medium, or a busy secondary subchannel under a command
of fixed width; `busy` are the 20 MHz subchannels busy now. A command that cannot end with its partner's stays due. -/
def execGrantWithdraw (r : Fin 3) (busy : BitVec 16) (s : State) : Host.Outcome State Fault Refusal :=
  .next <|
    let r := r.val
    let x := s.radio r
    match x.granted with
    | none => s
    | some ac =>
      let head := (s.txq r ac).head?
      let sec := head.any fun c => s.secBusy r c busy.toNat
      let waits := head.any fun c => !s.aligned r c (s.tick + 1)
      if (x.selected != some ac && x.mac.grantAt + s.slot r ≤ s.clock && !waits) || s.physBusy r || s.navBusy r || sec then
        s.withdraw r
      else s

/-- RESP_TIMEOUT (R190, R278, R283): no response reached QUAL_OK in time, or the reception that did brought none. -/
def execRespTimeout (r : Fin 3) (s : State) : Host.Outcome State Fault Refusal :=
  .next <|
    let r := r.val
    match (s.mac r).await with
    | none => s
    | some a =>
      let x := s.radio r
      let past := if a.qual then x.rx.phase = .idle && x.done.isNone else true
      if s.clock < a.endAt + s.sifs r + s.slot r + 1000 || !past then s
      else (s.exchangeFail r a.tx true).sat (RADIO.ACC_CNT r) 31 16 1

/-- TXOP_NEXT_DUE (R191): SIFS after a success, the next head of the queue is due where its PPDU, its response and two SIFS fit in
the TXOP; otherwise the TXOP ends. -/
def execTxopNextDue (r : Fin 3) (s : State) : Host.Outcome State Fault Refusal :=
  .next <|
    let r := r.val
    let x := s.radio r
    match x.mac.txop with
    | none => s
    | some (ac, t0) =>
      if x.tx.isSome || x.mac.await.isSome || x.granted.isSome || s.clock < x.mac.exchangeEnd + s.sifs r then s
      else
        match s.txq r ac with
        | [] => s.endTxop r
        | c :: _ =>
          let need := (s.cmdNs r c + s.answerNs r c + 1) / 2 + 2 * s.sifs r
          if t0 + s.txopLimit r ac < s.clock + need || !s.mayGrant r then s.endTxop r else s.grant r ac

/-- MU_EDCA_TIMER_EXPIRE (R193). -/
def execMuEdcaTimerExpire (r : Fin 3) (s : State) : Host.Outcome State Fault Refusal :=
  .next <| s.modMac r.val fun m => { m with muUntil := m.muUntil.filter fun e => s.clock < e.2 }

/-- MAC_CTL_WRITE (R188): EN going to 1 loads the generator; EN at 0 gives no grant. -/
def execMacCtlWrite (by_ : Req) (r : Fin 3) (val : Word) (s : State) : Host.Outcome State Fault Refusal :=
  .next <| s.onWrite by_ (rTile r.val) fun s =>
    let r := r.val
    let old := s.rbit (RADIO.MAC_CTL r) 31
    let s1 := s.wr (RADIO.MAC_CTL r) (val &&& 0xFFC0FFFF)
    if bit val 31 && !old then s1.edcaReset r else if old && !bit val 31 then s1.withdraw r else s1

/-- MAC_SEED_WRITE (R188): the value is loaded when EN goes to 1. -/
def execMacSeedWrite (by_ : Req) (r : Fin 3) (val : Word) (s : State) : Host.Outcome State Fault Refusal :=
  .next <| s.onWrite by_ (rTile r.val) fun s => s.modMac r.val fun m => { m with seed := val.toNat }

/-! MLINK: reorder time-outs, the AID map, keys (R197, R202, R209). -/

/-- REORDER_TIMEOUT (R202): a hole that has waited for TIMEOUT is skipped. -/
def execReorderTimeout (q : Fin 8192) (s : State) : Host.Outcome State Fault Refusal :=
  .next <|
    let b := s.board q.val
    let t := s.rf MLINK.REORDER_CTL 15 0 * 50000
    match b.held with
    | [] => s
    | h :: _ => if t = 0 || s.clock < b.since + t || !s.live 5 then s else s.rxMove q.val h.seq

/-- A command of MLINK's AID path: dropped while one is in progress or a result is posted. -/
def State.aidCmd (s : State) (by_ : Req) (f : State → State) : State :=
  s.onWrite by_ 5 fun s => if s.pathFree MLINK.AID_RESULT then (f s).evt 5 16 else s.reqDrop 5

/-- An AID result: code, group and SCID. -/
def State.aidPost (s : State) (tag : Tag) (code g scid : Nat) : State :=
  s.pathPost MLINK.AID_RESULT 0 tag (code * 2 ^ 27 + g * 2 ^ 23 + scid * 2 ^ 13)

/-- The binding of an AID. -/
def State.aid (s : State) (a : Nat) : Option (Nat × Nat) := tget (fun _ => none) s.mlink.aids a

/-- An AID that stations may have. -/
def aidOk (a : Nat) : Bool := 16 ≤ a && a ≤ 2007

/-- AID_SET. -/
def execAidSet (by_ : Req) (tag : Tag) (s : State) : Host.Outcome State Fault Refusal :=
  .next <| s.aidCmd by_ fun s =>
    let w := s.rd MLINK.AID_ARG
    let a := fld w 10 0
    let scid := fld w 25 16
    if !aidOk a then s.aidPost tag 1 0 0
    else if (s.aid a).isSome || s.mlink.aids.any (fun e => match e.2 with
        | some (k, _) => k = scid
        | none => false) then s.aidPost tag 2 0 0
    else (s.modMlink fun x => { x with aids := tput (fun _ => none) x.aids a (some (scid, fld w 31 28)) }).aidPost tag 0 0 0

/-- AID_CLR. -/
def execAidClr (by_ : Req) (tag : Tag) (s : State) : Host.Outcome State Fault Refusal :=
  .next <| s.aidCmd by_ fun s =>
    let a := s.rf MLINK.AID_ARG 10 0
    if !aidOk a then s.aidPost tag 1 0 0
    else if (s.aid a).isNone then s.aidPost tag 3 0 0
    else (s.modMlink fun x => { x with aids := tput (fun _ => none) x.aids a none }).aidPost tag 0 0 0

/-- AID_LOOKUP. -/
def execAidLookup (by_ : Req) (tag : Tag) (s : State) : Host.Outcome State Fault Refusal :=
  .next <| s.aidCmd by_ fun s =>
    match s.aid (s.rf MLINK.AID_ARG 10 0) with
    | some (scid, g) => s.aidPost tag 0 g scid
    | none => s.aidPost tag 3 0 0

/-- AID_ILLEGAL_OP. -/
def execAidIllegalOp (by_ : Req) (tag : Tag) (s : State) : Host.Outcome State Fault Refusal :=
  .next <| s.aidCmd by_ fun s => s.aidPost tag 4 0 0

/-- AID_ACK (R28). -/
def execAidAck (by_ : Req) (tag : Tag) (s : State) : Host.Outcome State Fault Refusal :=
  .next <| s.onWrite by_ 5 fun s => s.pathAck MLINK.AID_RESULT 0 tag

/-- A command of the key path. -/
def State.keyCmd (s : State) (by_ : Req) (f : State → State) : State :=
  s.onWrite by_ 5 fun s => if s.pathFree MLINK.KEY_RESULT then (f s).evt 5 17 else s.reqDrop 5

/-- A key result. -/
def State.keyPost (s : State) (tag : Tag) (code : Nat) : State := s.pathPost MLINK.KEY_RESULT 0 tag (code * 2 ^ 27)

/-- SUITE suits the class of the key ID. -/
def State.suiteOk (s : State) : Bool :=
  let w := s.rd MLINK.KEY_ARG
  let suite := fld w 26 24
  let bip := fld w 31 30 = 1 && 4 ≤ fld w 29 27
  if bip then 2 ≤ suite && suite ≤ 5 else suite ≤ 1

/-- The key slot that KEY_ARG names, none where it is INVALID. -/
def State.keyArg (s : State) : Option Nat :=
  let w := s.rd MLINK.KEY_ARG
  let kid := fld w 29 27
  let i := fld w 9 0
  if !s.suiteOk then none
  else match fld w 31 30 with
  | 0 => if kid ≤ 1 then some (keyPair i kid) else none
  | 1 => if kid = 0 || 16 ≤ i then none else some (keyGroup i kid)
  | _ => none

/-- Where the selection of a key slot stands, and its key ID (R209). -/
def State.keySel (s : State) : Nat × Nat :=
  let w := s.rd MLINK.KEY_ARG
  let kid := fld w 29 27
  let i := fld w 9 0
  if fld w 31 30 = 0 then (i, kid) else (4096 + 4 * i + (if kid ≤ 3 then 0 else if kid ≤ 5 then 1 else 2), kid)

/-- KEY_INSTALL. -/
def execKeyInstall (by_ : Req) (tag : Tag) (s : State) : Host.Outcome State Fault Refusal :=
  .next <| s.keyCmd by_ fun s =>
    match s.keyArg with
    | none => s.keyPost tag 1
    | some k =>
      let data := (List.range 8).map fun i => (s.rd (MLINK.KEY_DATA i)).toNat
      (s.setKey k (some { suite := s.rf MLINK.KEY_ARG 26 24, data := data })).keyPost tag 0

/-- KEY_DELETE: the slot is empty; a selection of it goes with it. -/
def execKeyDelete (by_ : Req) (tag : Tag) (s : State) : Host.Outcome State Fault Refusal :=
  .next <| s.keyCmd by_ fun s =>
    match s.keyArg with
    | none => s.keyPost tag 1
    | some k =>
      if (s.key k).isNone then s.keyPost tag 3
      else
        let sel := s.keySel
        let s1 := if s.txKeyId sel.1 = some sel.2 then
            s.modMlink fun x => { x with txKey := tput (fun _ => none) x.txKey sel.1 none }
          else s
        (s1.setKey k none).keyPost tag 0

/-- KEY_SET_TX. -/
def execKeySetTx (by_ : Req) (tag : Tag) (s : State) : Host.Outcome State Fault Refusal :=
  .next <| s.keyCmd by_ fun s =>
    match s.keyArg with
    | none => s.keyPost tag 1
    | some k =>
      if (s.key k).isNone then s.keyPost tag 3
      else
        (s.modMlink fun x => { x with txKey := tput (fun _ => none) x.txKey s.keySel.1 (some s.keySel.2) }).keyPost tag 0

/-- KEY_ILLEGAL_OP. -/
def execKeyIllegalOp (by_ : Req) (tag : Tag) (s : State) : Host.Outcome State Fault Refusal :=
  .next <| s.keyCmd by_ fun s => s.keyPost tag 4

/-- KEY_ACK (R28). -/
def execKeyAck (by_ : Req) (tag : Tag) (s : State) : Host.Outcome State Fault Refusal :=
  .next <| s.onWrite by_ 5 fun s => s.pathAck MLINK.KEY_RESULT 0 tag

/-- MRX_RD_WRITE (R196). -/
def execMrxRdWrite (by_ : Req) (val : Word) (s : State) : Host.Outcome State Fault Refusal :=
  .next <| s.onWrite by_ 5 fun s => s.wr MLINK.MRX_RD (val &&& 0xFFF)

/-- LINK_CTL_WRITE (R204). -/
def execLinkCtlWrite (by_ : Req) (val : Word) (s : State) : Host.Outcome State Fault Refusal :=
  .next <| s.onWrite by_ 5 fun s => (s.wf MLINK.LINK_CTL 2 0 (fld val 2 0)).syncLinks

/-- MLINK_RUN_WRITE (R41, R214). -/
def execMlinkRunWrite (by_ : Req) (val : Word) (s : State) : Host.Outcome State Fault Refusal :=
  .next (s.runWrite by_ 5 4 MLINK.MLINK_RUN val)

end Sys2Proof.Machine
end

