-- ==== Sys2Proof/Machine/Mlink.lean ====
section
/-! DEFINITION. Station contexts, station-TID queues and the multi-user scheduler of MLINK (R215 to R242). -/

namespace Sys2Proof.Machine

open Reg

/-! Context commands (R216 to R218, R241). -/

/-- Add to CTX_COUNT's USED and ACTIVE. -/
def State.ctxCount (s : State) (used active : Int) : State :=
  let w := s.rd MLINK.CTX_COUNT
  s.wr MLINK.CTX_COUNT (wd ((((fld w 26 16 : Nat) : Int) + active).toNat * 2 ^ 16 + (((fld w 10 0 : Nat) : Int) + used).toNat))

/-- A context result. -/
def State.ctxPost (s : State) (tag : Tag) (code scid : Nat) : State :=
  (s.pathPost MLINK.CTX_RESULT 0 tag (code * 2 ^ 27 + scid * 2 ^ 8)).evt 5 22

/-- A context command is taken, or dropped; while MLINK drains, one other than FREE posts STATE (R241). -/
def State.ctxCmd (s : State) (by_ : Req) (tag : Tag) (free : Bool) (f : State → State) : State :=
  s.onWrite by_ 5 fun s =>
    if !s.pathFree MLINK.CTX_RESULT then s.reqDrop 5
    else if s.life 5 = .draining && !free then s.ctxPost tag 4 (s.rf MLINK.CTX_ARG 9 0)
    else f s

/-- CTX_ALLOC (R216, R219). -/
def execCtxAlloc (by_ : Req) (tag : Tag) (s : State) : Host.Outcome State Fault Refusal :=
  .next <| s.ctxCmd by_ tag false fun s =>
    match (List.range 1024).find? fun k => s.ctxState k = 0 with
    | none => s.ctxPost tag 1 0
    | some k => (((s.clearMem (ctxAddr k 0) 1024).ctxPut k 0 1 1).ctxCount 1 0).ctxPost tag 0 k

/-- USE of a link record as the context's bytes stand. -/
def ctxUse (b : List Byte) (l : Nat) : Bool := (b.getD (linkOff l) 0).getLsbD 0
/-- ADDR of a link record. -/
def ctxLinkAddr (b : List Byte) (l : Nat) : Nat :=
  ((b.drop (linkOff l + 8)).take 6).foldr (fun (x : Byte) a => x.toNat + 256 * a) 0
/-- GROUP. -/
def ctxGrp (b : List Byte) : Nat := (b.getD 1 0).toNat % 16

/-- Why ACTIVATE or REFRESH of a context with these bytes changes nothing (R217). -/
def State.ctxRefusal (s : State) (k : Nat) (b : List Byte) : Option Nat :=
  let used := [0, 1, 2].filter fun l => ctxUse b l
  if used.isEmpty || (!(b.getD 4 0).getLsbD 0 && 1 < used.length)
      || used.any (fun l => !s.rbit (RADIO.BSS_B l (ctxGrp b)) 31) then some 2
  else if used.any fun l => (match s.addrOf l (ctxLinkAddr b l) with
    | some j => j != k
    | none => false) then some 3
  else none

/-- Install or remove the link record of a link (R208, R217); what a removed link has sent and not had acknowledged may be offered on
others (R203). -/
def State.ctxInstall (s : State) (k : Nat) (b : List Byte) (l : Nat) : State :=
  let use := ctxUse b l
  let s := if use then s
    else (((s.radio l).sent.flatMap (·.cmd.mpdus)).filter fun m => m.stq / 8 = k).foldl (fun s m => s.landed m) s
  let s1 := (s.setLinkFlag k l 1 use).modMlink fun x => { x with
    addrs := tput (fun _ => none) x.addrs (1024 * l + k) (if use then some (ctxLinkAddr b l) else none) }
  if use then
    s1.ctxPut k (linkOff l + 3) 1 (min (clampN 1 8 (b.getD (linkOff l + 4) 0).toNat) (s.rf (RADIO.MAC_CAP l) 3 0))
  else s1

/-- A receive agreement that begins starts its window at RX_SSN; one that ends releases what it holds (DEDUCED, log entry 23). -/
def State.ctxAgree (s : State) (k : Nat) (was : Bool) (t : Nat) : State :=
  let q := 8 * k + t
  let is_ := s.rxAgreed q
  if is_ && !was then (s.setBoard q { start := s.ctxFw k (tidOff t + 6) 2 % 4096 }).setRxStart q (s.ctxFw k (tidOff t + 6) 2)
  else if was && !is_ then ((s.board q).held.foldl (fun s h => s.rxRelease k t h) s).setBoard q {}
  else s

/-- The firmware-owned bytes of a context take effect (R215, R217). -/
def State.ctxApply (s : State) (k : Nat) : State :=
  let b := s.rbytes (ctxAddr k 0) 1024
  let was := (List.range 8).map fun t => s.ctxState k = 2 && s.rxAgreed (8 * k + t)
  let s1 := s.modMlink fun x => { x with shadow := tput (fun _ => []) x.shadow k b }
  let s2 := [0, 1, 2].foldl (fun s l => s.ctxInstall k b l) s1
  (List.range 8).foldl (fun s t => s.ctxAgree k (was.getD t false) t) s2

/-- CTX_ACTIVATE. -/
def execCtxActivate (by_ : Req) (tag : Tag) (s : State) : Host.Outcome State Fault Refusal :=
  .next <| s.ctxCmd by_ tag false fun s =>
    let k := s.rf MLINK.CTX_ARG 9 0
    if s.ctxState k != 1 then s.ctxPost tag 4 k
    else match s.ctxRefusal k (s.rbytes (ctxAddr k 0) 1024) with
      | some c => s.ctxPost tag c k
      | none => (((s.ctxApply k).ctxPut k 0 1 2).ctxCount 0 1).ctxPost tag 0 k

/-- CTX_REFRESH. -/
def execCtxRefresh (by_ : Req) (tag : Tag) (s : State) : Host.Outcome State Fault Refusal :=
  .next <| s.ctxCmd by_ tag false fun s =>
    let k := s.rf MLINK.CTX_ARG 9 0
    if s.ctxState k != 2 then s.ctxPost tag 4 k
    else match s.ctxRefusal k (s.rbytes (ctxAddr k 0) 1024) with
      | some c => s.ctxPost tag c k
      | none => (s.ctxApply k).ctxPost tag 0 k

/-- Free the MPDUs of a queue that no command has claimed, counting them (R218). -/
def State.stqFlush (s : State) (q : Nat) : State :=
  let out := (s.stq q).filter fun m => !m.flight
  if out.isEmpty then s
  else
    let s1 := (s.setStq q ((s.stq q).filter (·.flight))).syncWindow q
    (out.foldl (fun s m => s.freeDesc 3 m.desc) s1).sat MLINK.STQ_DROP 31 0 out.length

/-- CTX_FREE (R218): CLOSING at once; DONE is posted by CTX_FREE_DONE. -/
def execCtxFree (by_ : Req) (tag : Tag) (s : State) : Host.Outcome State Fault Refusal :=
  .next <| s.ctxCmd by_ tag true fun s =>
    let k := s.rf MLINK.CTX_ARG 9 0
    let st := s.ctxState k
    if st != 1 && st != 2 then s.ctxPost tag 4 k
    else
      let s1 := (((s.pathBusy MLINK.CTX_RESULT 0 tag).wf MLINK.CTX_RESULT 17 8 k).ctxPut k 0 1 3).ctxCount 0 (if st = 2 then -1 else 0)
      let s2 := s1.modMlink fun x => { x with
        freeing := some k, addrs := x.addrs.filter fun e => e.1 % 1024 != k }
      let s3 := (List.range 8).foldl (fun s t =>
        (((s.board (8 * k + t)).held.foldl (fun s h => s.freeDesc 3 h.desc) s).setBoard (8 * k + t) {}).stqFlush (8 * k + t)) s2
      (List.range 32).foldl (fun s n =>
        if s.rf (MLINK.TWT_W0 n) 28 27 = 0 && s.rf (MLINK.TWT_W0 n) 9 0 = k then s.wf (MLINK.TWT_W0 n) 31 31 0 else s) s3

/-- CTX_ILLEGAL_OP. -/
def execCtxIllegalOp (by_ : Req) (tag : Tag) (s : State) : Host.Outcome State Fault Refusal :=
  .next <| s.ctxCmd by_ tag false fun s => s.ctxPost tag 5 0

/-- CTX_FREE_DONE (R218): none of the context's MPDUs remains in flight. -/
def execCtxFreeDone (s : State) : Host.Outcome State Fault Refusal :=
  .next <|
    match s.mlink.freeing with
    | none => s
    | some k =>
      if (List.range 8).any fun t => !(s.stq (8 * k + t)).isEmpty then s
      else
        let s1 := s.modMlink fun x => { x with freeing := none, shadow := tput (fun _ => []) x.shadow k [] }
        ((s1.ctxPut k 0 1 0).ctxCount (-1) 0).ctxPost (s.pathTag MLINK.CTX_RESULT 0) 0 k

/-- CTX_ACK (R28). -/
def execCtxAck (by_ : Req) (tag : Tag) (s : State) : Host.Outcome State Fault Refusal :=
  .next <| s.onWrite by_ 5 fun s => s.pathAck MLINK.CTX_RESULT 0 tag

/-! Station-TID queues (R220 to R223). -/

/-- QLIMIT of a context. -/
def State.qLimit (s : State) (k : Nat) : Nat :=
  let n := s.ctxFw k 26 2
  if n = 0 then 1024 else min 4095 n

/-- Link a descriptor of a queue to the next one, or end the chain (R220, R318). -/
def State.linkDesc (s : State) (d : Nat) (next : Option Nat) : State :=
  s.storeWrite 3 d (le 4 (match next with
    | some e => 2 ^ 31 + e / 64
    | none => 0))

/-- A write of STQ_ENQ[q]: the descriptor joins the queue, or is dropped (R220, R221). -/
def State.stqEnq (s : State) (q : Nat) (val : Word) : State :=
  let k := q / 8
  let d := 64 * fld val 26 0
  let l := s.stq q
  if s.ctxState k != 2 || s.qLimit k ≤ l.length || storeEnd ≤ d then
    ((if storeEnd ≤ d then s else s.freeDesc 3 d).sat MLINK.STQ_DROP 31 0 1).evt 5 23
  else
    let s1 := s.linkDesc d none
    let s2 := match l.getLast? with
      | some m => if m.flight then s1 else s1.linkDesc m.desc (some d)
      | none => s1
    s2.setStq q (l ++ [{ desc := d, arrived := s.clock }])

/-- STQ_ENQ (R220, R221). -/
def execStqEnq (by_ : Req) (q : Fin 8192) (val : Word) (s : State) : Host.Outcome State Fault Refusal :=
  .next <| s.onWrite by_ 5 fun s => s.stqEnq q.val val

/-! Target wake time (R239, R240). -/

/-- A TWT entry is in use. -/
def State.twtUsed (s : State) (n : Nat) : Bool :=
  let w := s.rd (MLINK.TWT_W0 n)
  bit w 31 && fld w 28 27 != 3 && fld w 26 25 != 3 && (s.rd (MLINK.TWT_W1 n)).toNat != 0 && s.rf (MLINK.TWT_W3 n) 15 0 != 0

/-- The TSF at which the present period of an entry began: the last of START, START + INTERVAL and so on, where that lies less than
DURATION back and after the last write of the entry; START is the first TSF with its low 32 bits after its own write (R239). -/
def State.twtNow (s : State) (n : Nat) : Option Nat :=
  let l := s.rf (MLINK.TWT_W0 n) 26 25
  let t := s.tsf l
  let tw := s.tsfAt l (tget (fun _ => 0) s.mlink.twtFrom n)
  let t0 := tw + ((s.rd (MLINK.TWT_W2 n)).toNat + 2 ^ 32 - tw % 2 ^ 32) % 2 ^ 32
  let d := (t - t0) % (s.rd (MLINK.TWT_W1 n)).toNat
  if t0 ≤ t && d < s.rf (MLINK.TWT_W3 n) 15 0 * 256 && s.tsfAt l (tget (fun _ => 0) s.mlink.twtAt n) ≤ t - d then some (t - d)
  else none

/-- TWT_PERIOD_START (R224, R237, R239): a period begins, once; one that still runs gives way to it. -/
def execTwtPeriodStart (n : Fin 32) (s : State) : Host.Outcome State Fault Refusal :=
  .next <|
    let n := n.val
    if !s.live 5 || !s.twtUsed n then s
    else match s.twtNow n with
      | none => s
      | some t =>
        if (s.twtRun n).map (·.start) = some t then s
        else
          let w := s.rd (MLINK.TWT_W0 n)
          let l := fld w 26 25
          let s1 := s.modMlink fun x => { x with
            twtOn := tput (fun _ => none) x.twtOn n (some { start := t, w0 := w, w3 := s.rd (MLINK.TWT_W3 n) })
            twtSel := if bit w 30 then x.twtSel.filter (· != n) ++ [n] else x.twtSel }
          let s2 := (List.range 1024).foldl (fun s k =>
            if s.twtMember w k && s.linkFlag k l 2 then s.setLinkFlag k l 3 true else s) s1
          if bit w 29 then s2.evt 5 25 else s2

/-- TWT_PERIOD_END (R224, R239): the period's time has passed; members sleep again unless another period of theirs runs. -/
def execTwtPeriodEnd (n : Fin 32) (s : State) : Host.Outcome State Fault Refusal :=
  .next <|
    let n := n.val
    match s.twtRun n with
    | none => s
    | some p =>
      let l := fld p.w0 26 25
      let t := s.tsf l
      if p.start ≤ t && t < p.start + fld p.w3 15 0 * 256 then s
      else
        let s1 := s.modMlink fun x => { x with
          twtOn := tput (fun _ => none) x.twtOn n none, twtSel := x.twtSel.filter (· != n) }
        (List.range 1024).foldl (fun s k =>
          if s.twtMember p.w0 k && !s.twtAwake k l then s.setLinkFlag k l 3 false else s) s1

/-- The restricted periods in progress on a link let in a station's TID (R240). -/
def State.rtwtAdmits (s : State) (r k t : Nat) : Bool :=
  let on := (List.range 32).filterMap fun n => (s.twtRun n).filter fun p => fld p.w0 28 27 = 2 && fld p.w0 26 25 = r
  on.isEmpty || on.any fun p => s.twtMember p.w0 k && (fld p.w3 31 24).testBit t

/-! Eligibility (R223, R224). -/

/-- A transmit agreement stands. -/
def State.txAgreed (s : State) (q : Nat) : Bool := (s.ctxFw (q / 8) (tidOff (q % 8)) 1).testBit 0
/-- TX_BUF. -/
def State.txBuf (s : State) (q : Nat) : Nat :=
  let b := s.ctxFw (q / 8) (tidOff (q % 8) + 2) 2
  if b = 0 then 64 else min 1024 b

/-- Sequence numbers of a list of MPDUs: those they have, then from TX_SN on. -/
def numberFrom (sn : Nat) : List QMpdu → List (QMpdu × Nat)
  | [] => []
  | m :: ms => match m.seq with
    | some n => (m, n) :: numberFrom sn ms
    | none => (m, sn % 4096) :: numberFrom (sn + 1) ms

/-- The claimable MPDUs of a queue with their sequence numbers: without an agreement at most one at a time (R215, R223). -/
def State.claimable (s : State) (q : Nat) : List (QMpdu × Nat) :=
  let start := s.ctx (q / 8) (tidOff (q % 8) + 10) 2 % 4096
  let l := numberFrom (s.txSn q) ((s.stq q).filter fun m => !m.flight)
  let ok := l.filter fun p => (p.2 + 4096 - start) % 4096 < s.txBuf q
  if s.txAgreed q then ok else if (s.stq q).any (·.flight) then [] else ok.take 1

/-- A TID may be sent on a link. -/
def State.tidOn (s : State) (k t r : Nat) : Bool :=
  s.tidMapped k t r && s.rtwtAdmits r k t

/-- A command holds MPDUs of a station. -/
def holdsMpdus (c : TxCmd) (k : Nat) : Bool := c.mpdus.any fun m => m.stq / 8 = k

/-- Links of a station that hold a started or queued command with its MPDUs. -/
def State.linksBusy (s : State) (k : Nat) : Nat :=
  [0, 1, 2].countP fun r => (s.radio r).cmds.any fun c => holdsMpdus c k

/-- Every condition of eligibility but the last (R224). -/
def State.reachable (s : State) (r k : Nat) : Bool :=
  let eml := nbits (s.ctxFw k 4 1) 2 1
  s.ctxState k = 2 && s.linkFlag k r 1 && s.linkUp r && (!s.linkFlag k r 2 || s.linkFlag k r 3) && !s.linkFlag k r 4
    && (eml != 2 || s.linksBusy k < clampN 1 3 (s.ctxFw k 5 1))

/-- TIDs of an access category with claimable MPDUs on a link. -/
def State.tidsReady (s : State) (r k ac : Nat) : List Nat :=
  (List.range 8).filter fun t => acOfTid t = ac && s.tidOn k t r && !(s.claimable (8 * k + t)).isEmpty

/-- TIDs of an access category with claimable MPDUs, on whatever link. -/
def State.tidsWaiting (s : State) (k ac : Nat) : List Nat :=
  (List.range 8).filter fun t => acOfTid t = ac && !(s.claimable (8 * k + t)).isEmpty

/-- Head age of a queue in microseconds (R221). -/
def State.headAge (s : State) (q : Nat) : Nat :=
  match (s.stq q).find? fun m => !m.flight with
  | some m => (s.clock - m.arrived) / 500
  | none => 0

/-! Order of candidates (R226). -/

/-- Put an entry into a list ordered by key descending, then SCID ascending. -/
def rankIn : List (Int × Nat) → Int × Nat → List (Int × Nat)
  | [], x => [x]
  | y :: ys, x => if y.1 < x.1 || (y.1 = x.1 && x.2 < y.2) then x :: y :: ys else y :: rankIn ys x

/-- Stations in the order of R226. -/
def ranked (l : List (Int × Nat)) : List Nat := (l.foldl rankIn []).map (·.2)

/-- A deficit of a context. -/
def State.deficit (s : State) (k off : Nat) : Int := sval 32 (s.ctx k off 4)

/-- Idle stations lose a positive deficit. -/
def State.idleDeficit (s : State) (k off : Nat) : State :=
  if 0 < s.deficit k off then s.ctxPut k off 4 0 else s

/-- QUANTUM in bytes. -/
def State.quantum (s : State) : Nat := max 1 (s.rf MLINK.SCHED_CTL 15 8) * 256

/-- A selection's candidates and the deficits it leaves (R226). -/
def State.dlCandidates (s : State) (r ac : Nat) : State × List Nat :=
  let all := (List.range 1024).filter fun k => s.reachable r k
  let el := all.filter fun k => !(s.tidsReady r k ac).isEmpty
  let idle := all.filter fun k => (s.tidsWaiting k ac).isEmpty
  let off := 36 + 4 * ac
  let s1 := el.foldl (fun s k => s.addDeficit k off ((max 1 (s.ctx k 24 1) * s.quantum : Nat) : Int)) s
  let s2 := idle.foldl (fun s k => s.idleDeficit k off) s1
  let age := fun k => ((s.tidsWaiting k ac).map fun t => s.headAge (8 * k + t)).foldl max 0
  let lat := fun k => s.ctx k (28 + 2 * ac) 2
  let urgent := fun k => lat k != 0 && lat k * 100 ≤ age k
  let urg := ranked ((el.filter urgent).map fun k => ((age k : Int) - (lat k * 100 : Nat), k))
  let rest := ranked (((el.filter fun k => !urgent k && decide (0 < s2.deficit k off))).map fun k => (s2.deficit k off, k))
  (s2, urg ++ rest)

/-! Rates and shares (R228 to R230). -/

/-- What a station's link record says of its rate: MCS and streams (R229). -/
def State.rateOf (s : State) (r k off : Nat) : Nat × Nat :=
  let v := s.ctx k (linkOff r + off) 1
  (min 13 (v % 16), min (nbits v 6 4 + 1) (max 1 (s.ctx k (linkOff r + 3) 1)))

/-- BW of a link record; 5 to 7 act as 0. -/
def State.bwOf (s : State) (r k : Nat) : Nat :=
  let b := s.ctxFw k (linkOff r + 2) 1 % 8
  if 4 < b then 0 else b

/-- CAPS of a link record. -/
def State.capOf (s : State) (r k i : Nat) : Bool := (s.ctxFw k (linkOff r + 1) 1).testBit i

/-- A-MPDU bytes of an MPDU: a delimiter, the MPDU with its FCS and MIC, padded to four bytes (PRESUMED, log entry 26). -/
def State.ampduBytes (s : State) (desc mic : Nat) : Nat := 4 + (s.dLen desc + 4 + mic + 3) / 4 * 4

/-- Bytes of MIC of a station's protected MPDUs. -/
def State.micOf (s : State) (k : Nat) : Nat :=
  match s.txKeyId k with
  | none => 0
  | some i => match s.key (keyPair k i) with
    | some key => if key.suite = 0 then 8 else 16
    | none => 0

/-- A user's TIDs in the order it sends them: access categories from the highest down, the most urgent first. -/
def State.tidOrder (s : State) (r k : Nat) : List Nat :=
  [3, 2, 1, 0].flatMap fun ac => ranked ((s.tidsReady r k ac).map fun t => ((s.headAge (8 * k + t) : Int), t))

/-- The MPDUs a user could send, in order: queue, MPDU, sequence number and A-MPDU bytes. -/
def State.offer (s : State) (r k mic : Nat) : List (Nat × QMpdu × Nat × Nat) :=
  (s.tidOrder r k).flatMap fun t => (s.claimable (8 * k + t)).map fun p => (8 * k + t, p.1, p.2, s.ampduBytes p.1.desc mic)

/-- The longest prefix of an offer within a number of bytes. -/
def fits (cap : Nat) : List (Nat × QMpdu × Nat × Nat) → List (Nat × QMpdu × Nat × Nat)
  | [] => []
  | x :: xs => if x.2.2.2 ≤ cap then x :: fits (cap - x.2.2.2) xs else []

/-- Claim MPDUs: each is in flight, and takes its number from TX_SN at its first claim (R223). -/
def State.claim (s : State) (l : List (Nat × QMpdu × Nat × Nat)) : State :=
  l.foldl (fun s x =>
    let q := x.1
    let s1 := if x.2.1.seq.isNone then s.ctxPut (q / 8) (tidOff (q % 8) + 8) 2 ((s.txSn q + 1) % 4096) else s
    (s1.setStq q ((s1.stq q).map fun m =>
      if m.desc = x.2.1.desc then { m with seq := some x.2.2.1, flight := true } else m)).syncWindow q) s

/-- Link the descriptors of a command into a transmit chain. -/
def State.chain_ (s : State) : List Nat → State
  | [] => s
  | [d] => s.linkDesc d none
  | d :: e :: l => (s.linkDesc d (some e)).chain_ (e :: l)

/-- A command that MLINK built. -/
def TxCmd.ofMlink (c : TxCmd) : Bool :=
  match c.from_ with
  | .mlink _ => true
  | .sounding _ => true
  | .trigger _ => true
  | _ => false

/-- Where in a radio's parameter memory the TXVECTOR of the next command goes: the lowest place, of 1,280 bytes, that no command MLINK
built and the radio has not finished uses, counted from the top down (R225; which place is not stated, DESIGN CHOICE, log entry 60). -/
def State.tvPlace (s : State) (r : Nat) : Nat :=
  let at_ := fun j => 0x10000 - 1280 * (j + 1)
  at_ (((List.range 51).find? fun j => !((s.radio r).cmds.any fun c => c.ofMlink && c.word 1 = at_ j)).getD 50)

/-- Place a command that MLINK built in a queue of a radio, its TXVECTOR in the radio's parameter memory; its POWER and TAG are free
(R151, R225, log entries 5 and 25). One that finds the queue full is dropped and counted; the second part tells. -/
def State.mlinkPush (s : State) (r ac : Nat) (from_ : CmdFrom) (tvec : List Nat) (l : List (Nat × QMpdu × Nat × Nat)) :
    State × Bool :=
  let w0 := ac * 2 ^ 28 + s.free 16
  let p := s.tvPlace r
  let d := match l with
    | x :: _ => x.2.1.desc
    | [] => 0
  let len := max 1 ((l.map fun x => x.2.2.2).sum)
  let c : TxCmd := {
    words := [w0, p, d % 2 ^ 32, len % 2 ^ 24 * 256 + d / 2 ^ 32, 0, 0, 0, 0], from_ := from_,
    mpdus := l.map fun x => { stq := x.1, desc := x.2.1.desc, bytes := x.2.2.2 } }
  match (s.took.wwords (lm (rTile r) (0x200000 + p)) tvec).txqPush r ac c with
  | some s1 => (((s1.claim l).chain_ (l.map fun x => x.2.1.desc)).sliceYield r, true)
  | none => ((s.sat (RADIO.TX_ERR_CNT r) 15 8 1).evt (rTile r) 26, false)

/-- Charge bytes to the deficits of an access category (R229). -/
def State.charge (s : State) (ac : Nat) (l : List (Nat × QMpdu × Nat × Nat)) : State :=
  l.foldl (fun s x => s.addDeficit (x.1 / 8) (36 + 4 * ac) (-(x.2.2.2 : Int))) s

/-! Building commands (R227 to R231). -/

/-- The steering entry that a single-user PPDU may use (R230). -/
def State.suSteer (s : State) (r k : Nat) : Option Nat :=
  let v := s.ctx k (linkOff r + 16) 2
  if v.testBit 15 && s.capOf r k 3 && !s.steerStale r (v % 256) then some (v % 256) else none

/-- FORMAT, data tones by width, bits of a stream per tone with the code rate, and symbol duration of a single-user PPDU
(R230; the older formats' symbols from IEEE 802.11, PRESUMED, log entry 18). An HT command takes two streams at most, since
its MCS field holds MCS 0 to 15 (DEDUCED, log entry 25). -/
def State.suShape (s : State) (r k : Nat) : Nat × Nat × Nat × Nat × Nat × Nat × Nat :=
  let bw := min (s.width r) (s.bwOf r k)
  let rate := s.rateOf r k 5
  let gi := s.ctx k (linkOff r + 14) 1
  let old := fun (m : Nat) => match m with
    | 0 => (1, 1, 2) | 1 => (2, 1, 2) | 2 => (2, 3, 4) | 3 => (4, 1, 2) | 4 => (4, 3, 4) | 5 => (6, 2, 3) | 6 => (6, 3, 4)
    | 7 => (6, 5, 6) | 8 => (8, 3, 4) | _ => (8, 5, 6)
  let short := if gi % 4 = 3 then 36 else 40
  if s.capOf r k 1 then
    let b := userBits (ruTones (3 + bw)) rate.1 rate.2
    (5, bw, rate.1, rate.2, b.1, b.2, symDur gi)
  else if s.capOf r k 0 then
    let bw := min 3 bw
    let b := userBits (ruTones (3 + bw)) rate.1 rate.2
    (3, bw, rate.1, rate.2, b.1, b.2, symDur gi)
  else
    let m := old rate.1
    if s.band r = 1 then
      let bw := min 3 bw
      (2, bw, rate.1, rate.2, oldTones bw * m.1 * m.2.1 * rate.2, m.2.2, short)
    else if s.band r = 0 then
      let bw := min 1 bw
      let nss := min 2 rate.2
      let m := old (min 7 rate.1)
      (1, bw, min 7 rate.1 + 8 * (nss - 1), nss, oldTones bw * m.1 * m.2.1 * nss, m.2.2, short)
    else
      let m := [(1, 1, 2), (1, 3, 4), (2, 1, 2), (2, 3, 4), (4, 1, 2), (4, 3, 4), (6, 2, 3), (6, 3, 4)].getD (rate.1 % 8) (1, 1, 2)
      (0, bw, rate.1 % 8, 1, 48 * m.1 * m.2.1, m.2.2, 40)

/-- MAX_DATA_US. -/
def State.maxData (s : State) : Nat := max 64 (s.rf MLINK.SCHED_LIM 31 16)

/-- A single-user command for a station (R230). -/
def State.buildSu (s : State) (r ac k : Nat) : State :=
  let sh := s.suShape r k
  let mic := s.micOf k
  let all := s.offer r k mic
  let first := match all with
    | x :: _ => if s.txAgreed x.1 then all.filter (fun y => s.txAgreed y.1) else [x]
    | [] => []
  let agreed := match all with
    | x :: _ => s.txAgreed x.1
    | [] => false
  let cap := (s.maxData * 10 / sh.2.2.2.2.2.2) * sh.2.2.2.2.1 / (sh.2.2.2.2.2.1 * 8)
  let l := fits cap first
  if l.isEmpty then s
  else
    let st := s.suSteer r k
    let prot := if s.emlNew r k then 3 else 0
    let tv0 := sh.1 * 2 ^ 28 + sh.2.1 * 2 ^ 25 + sh.2.2.1 * 2 ^ 20 + (sh.2.2.2.1 - 1) * 2 ^ 16
      + s.ctx k (linkOff r + 14) 1 % 16 * 2 ^ 12 + b2n (s.capOf r k 2 && sh.1 != 0) * 2 ^ 11 + b2n st.isSome * 2 ^ 8 + st.getD 0
    let tv1 := prot * 2 ^ 14 + (if agreed then 2 else 1) * 2 ^ 12 + b2n (s.txKeyId k).isSome * 2 ^ 11 + k
    let p := s.mlinkPush r ac (.mlink ac) [tv0, tv1, s.ctxGroup k, 0, 0, 0, 0, 0] l
    if p.2 then (p.1.charge ac l).sat MLINK.SCHED_CNT 15 0 1 else p.1

/-- RUs of a size at a width that no punctured subchannel touches; a radio's channel punctures none (DEDUCED, log entry 24). -/
def ruFree (size bw : Nat) : List Nat := (List.range (ruCount size bw)).filter fun i => !ruPunct (2 ≤ bw) 0 size i

/-- The largest RU size whose count reaches `n`, from `size` down. -/
def ruSize (bw n : Nat) : Nat → Nat
  | 0 => 0
  | k + 1 => if n ≤ (ruFree (k + 1) bw).length then k + 1 else ruSize bw n k

/-- A multi-user command for users on RUs, each (SCID, RU size, RU index, MCS, streams) (R229). -/
def State.buildMu (s : State) (r ac kind bw : Nat) (eht : Bool) (us : List (Nat × Nat × Nat × Nat × Nat)) : State :=
  match us with
  | [] => s
  | u0 :: _ =>
    let gi := s.ctx u0.1 (linkOff r + 14) 1
    let dur := symDur gi
    let need := fun (u : Nat × Nat × Nat × Nat × Nat) =>
      let b := userBits (ruTones u.2.1) u.2.2.2.1 u.2.2.2.2
      let bytes := ((s.offer r u.1 0).map fun x => x.2.2.2).sum
      if b.1 = 0 then 0 else (bytes * 8 * b.2 + b.1 - 1) / b.1
    let nsym := min ((us.map need).foldl max 0) (s.maxData * 10 / dur)
    let shares := us.map fun u =>
      let b := userBits (ruTones u.2.1) u.2.2.2.1 u.2.2.2.2
      (u, fits (nsym * b.1 / (b.2 * 8)) (s.offer r u.1 0))
    let used := shares.filter fun p => !p.2.isEmpty
    let l := used.flatMap (·.2)
    if l.isEmpty then s
    else
      let hdr := [8 * 2 ^ 28 + kind * 2 ^ 25 + bw * 2 ^ 22 + b2n eht * 2 ^ 21 + gi % 16 * 2 ^ 17 + used.length * 2 ^ 8,
        2 ^ 14 + s.ctxGroup u0.1, nsym, 0, 0, 0, 0, 0]
      let ents := used.flatMap fun p =>
        let u := p.1
        [u.2.1 * 2 ^ 29 + u.2.2.1 * 2 ^ 21 + (u.2.2.2.2 - 1) * 2 ^ 18 + u.2.2.2.1 * 2 ^ 14 + b2n (s.capOf r u.1 2) * 2 ^ 13 + u.1,
          (p.2.map fun x => x.2.2.2).sum]
      let p := s.mlinkPush r ac (.mlink ac) (hdr ++ ents) l
      if p.2 then (p.1.charge ac l).sat MLINK.SCHED_CNT 31 16 1 else p.1

/-- Squared length of a vector of complex numbers. -/
def normSq (v : List (Int × Int)) : Nat := (v.map fun z => (z.1 * z.1 + z.2 * z.2).toNat).sum

/-- Squared magnitude of the inner product of two. -/
def innerSq (a b : List (Int × Int)) : Nat :=
  let p := (a.zip b).foldl (fun (t : Int × Int) z =>
    (t.1 + z.1.1 * z.2.1 + z.1.2 * z.2.2, t.2 + z.1.1 * z.2.2 - z.1.2 * z.2.1)) (0, 0)
  (p.1 * p.1 + p.2 * p.2).toNat

/-- The correlation of two stations is at most `lim` / 256: the mean over subcarrier groups of the squared inner product of the first
columns over their squared lengths, as an exact fraction (R231). -/
def corrAtMost (a b : Nat) (ma mb : SteerMat) (lim : Nat) : Bool :=
  let ratios := (ma.v.zip mb.v).map fun g =>
    let x := g.1.take 8
    let y := g.2.take 8
    let d := normSq x * normSq y
    if d = 0 then (min 256 (Config.zeroCorr a b), 256) else (innerSq x y, d)
  let sum := ratios.foldl (fun (t : Nat × Nat) q => (t.1 * q.2 + q.1 * t.2, t.2 * q.2)) (0, 1)
  if ratios.isEmpty then min 256 (Config.zeroCorr a b) ≤ lim else sum.1 * 256 ≤ ratios.length * lim * sum.2

/-- The matrix that a station's STEER names. -/
def State.steerMat (s : State) (r k : Nat) : SteerMat :=
  tget (fun _ => {}) s.mlink.steer (256 * r + s.ctx k (linkOff r + 16) 2 % 256)

/-- Streams of a user in a MU-MIMO group: its own, limited to its matrix's columns. -/
def State.muStreams (s : State) (r k : Nat) : Nat :=
  min (s.rateOf r k 5).2 (s.rf (MLINK.STEER_STAT r (s.ctx k (linkOff r + 16) 2 % 256)) 30 28 + 1)

/-- MU-MIMO grouping (R231). -/
def State.muGroup (s : State) (r : Nat) (users : List Nat) : List Nat :=
  users.foldl (fun g k =>
    let v := s.ctx k (linkOff r + 16) 2
    let n := (g.map fun j => s.muStreams r j).sum + s.muStreams r k
    if s.capOf r k 4 && v.testBit 15 && !s.steerStale r (v % 256) && n ≤ min 8 (s.rf (RADIO.MAC_CAP r) 3 0) && g.length < 8
        && g.all fun j => corrAtMost j k (s.steerMat r j) (s.steerMat r k) (s.rf MLINK.SCHED_LIM 7 0) then g ++ [k] else g) []

/-- The users of step 2 of R227 at a width: the first candidates with HE or EHT and enough width. -/
def State.muUsersAt (s : State) (r bw : Nat) (cand : List Nat) : List Nat :=
  (cand.filter fun k => (s.capOf r k 0 || s.capOf r k 1) && bw ≤ s.bwOf r k).take (clampN 1 148 (s.rf MLINK.SCHED_CTL 23 16))

/-- The users of step 2, the PPDU width, and whether it is EHT (R227): at 320 MHz the users that 160 MHz would have decide first
whether every one has EHT (DEDUCED, log entry 24). -/
def State.muShape (s : State) (r : Nat) (cand : List Nat) : List Nat × Nat × Bool :=
  let w := s.width r
  let u1 := s.muUsersAt r (min 3 w) cand
  let us := s.muUsersAt r w cand
  let eht := fun (l : List Nat) => l.all fun k => s.capOf r k 1
  if eht u1 && eht us then (us, w, true) else (u1, min 3 w, w ≤ 3 && eht u1)

/-- Users with their RUs in candidate order, the most that the width holds (R228). -/
def State.assignRus (s : State) (r bw off : Nat) (users : List Nat) : List (Nat × Nat × Nat × Nat × Nat) :=
  let n := min users.length (ruFree 0 bw).length
  let size := ruSize bw n 7
  ((users.take n).zip (ruFree size bw)).map fun p => (p.1, size, p.2, (s.rateOf r p.1 off).1, (s.rateOf r p.1 off).2)

/-- Whether a station's matrix is missing or stale. -/
def State.needsSounding (s : State) (r k : Nat) : Bool :=
  let v := s.ctx k (linkOff r + 16) 2
  (s.capOf r k 3 || (s.capOf r k 4 && s.rbit MLINK.SCHED_CTL 29)) && (!v.testBit 15 || s.steerStale r (v % 256))

/-- A sounding command ahead of a selection's data command (R234), the stations of each BFRP trigger on RUs of their own. What TB_LEN_US
it asks for is free (DESIGN CHOICE, log entry 5). -/
def State.buildSounding (s : State) (r ac : Nat) (cand : List Nat) : State :=
  let c := s.rd MLINK.SOUND_CTL
  let who := (cand.filter fun k => s.needsSounding r k).take (clampN 1 64 (fld c 31 24))
  let gap := match (s.radio r).lastSound with
    | none => true
    | some t => decide (t + fld c 15 8 * 500000 ≤ s.clock)
  match who with
  | [] => s
  | k0 :: _ =>
    if !bit c 0 || !gap then s
    else
      let hdr := [8 * 2 ^ 28 + 5 * 2 ^ 25 + s.width r * 2 ^ 22 + b2n (who.all fun k => s.capOf r k 1) * 2 ^ 21 + who.length * 2 ^ 8,
        s.ctxGroup k0, s.free 16 * 2 ^ 16, 0, 0, 0, 0, 0]
      let per := max 1 (ruCount 0 (s.width r))
      let ents := ((List.range ((who.length + per - 1) / per)).flatMap fun i =>
        s.assignRus r (s.width r) 5 ((who.drop (per * i)).take per)).flatMap fun u =>
        [u.2.1 * 2 ^ 29 + u.2.2.1 * 2 ^ 21 + (u.2.2.2.2 - 1) * 2 ^ 18 + u.2.2.2.1 * 2 ^ 14 + u.1, 0]
      let p := s.took.mlinkPush r ac (.sounding who) (hdr ++ ents) []
      if p.2 then (p.1.modRadio r fun x => { x with lastSound := some s.clock }).sat MLINK.SOUND_CNT 31 16 1 else p.1

/-- Commands that MLINK built and that have not started. -/
def State.ahead (s : State) (r ac : Nat) : Nat :=
  (s.txq r ac).countP fun c => c.ofMlink

/-- DL_SELECTION (R225 to R231, R234, R241). -/
def execDlSelection (r : Fin 3) (ac : Fin 4) (s : State) : Host.Outcome State Fault Refusal :=
  .next <|
    let r := r.val
    let ac := ac.val
    let lim := clampN 1 4 (s.rf MLINK.SCHED_CTL 27 24)
    let any := (List.range 1024).any fun k => s.reachable r k && !(s.tidsReady r k ac).isEmpty
    if !s.rbit MLINK.SCHED_CTL 31 || s.life 5 != .ready || lim ≤ s.ahead r ac || !any then s
    else
      let c := s.dlCandidates r ac
      match c.2 with
      | [] => c.1
      | k :: ks =>
        let s1 := c.1.buildSounding r ac (k :: ks)
        if (!s1.capOf r k 0 && !s1.capOf r k 1) || !s1.rbit MLINK.SCHED_CTL 30 || ks.isEmpty then s1.buildSu r ac k
        else
          let sh := s1.muShape r (k :: ks)
          match sh.1 with
          | [] => s1.buildSu r ac k
          | [u] => s1.buildSu r ac u
          | us =>
            let g := if s1.rbit MLINK.SCHED_CTL 29 then s1.muGroup r us else []
            if clampN 2 8 (s1.rf MLINK.SCHED_CTL 7 4) ≤ g.length then
              s1.buildMu r ac 1 sh.2.1 sh.2.2 (g.map fun j => (j, 3 + sh.2.1, 0, (s1.rateOf r j 5).1, s1.muStreams r j))
            else s1.buildMu r ac 0 sh.2.1 sh.2.2 (s1.assignRus r sh.2.1 5 us)

/-! Uplink (R236 to R238). -/

/-- UL_Q of an access category. -/
def State.ulQ (s : State) (k ac : Nat) : Nat := s.ctx k (56 + 4 * ac) 4
/-- Uplink demand of a station. -/
def State.ulTotal (s : State) (k : Nat) : Nat := ([0, 1, 2, 3].map fun ac => s.ulQ k ac).sum

/-- Access categories with demand of which a TID is admitted on a link (R224, R237, R240). -/
def State.ulAcs (s : State) (r k : Nat) : List Nat :=
  [3, 2, 1, 0].filter fun ac => s.ulQ k ac != 0 && (List.range 8).any fun t => acOfTid t = ac && s.tidOn k t r

/-- The stations that an uplink selection chooses from, best first, once the deficits have moved (R197, R237, R240): of the stations
that it reaches and can name by AID, each with demand that is admitted gains its quantum and each without demand loses its credit. -/
def State.ulCandidates (s : State) (r : Nat) (members : Option (Fin 32)) : State × List Nat :=
  let all := (List.range 1024).filter fun k => s.reachable r k && (s.ctxFw k 4 1).testBit 3
    && (s.aidFor k).isSome && (match members.bind fun n => s.twtRun n.val with
      | some p => s.twtMember p.w0 k
      | none => true)
  let el := all.filter fun k => !(s.ulAcs r k).isEmpty
  let idle := all.filter fun k => s.ulTotal k = 0
  let s1 := el.foldl (fun s k => s.addDeficit k 52 ((max 1 (s.ctx k 25 1) * s.quantum : Nat) : Int)) s
  let s2 := idle.foldl (fun s k => s.idleDeficit k 52) s1
  (s2, ranked ((el.filter fun k => decide (0 < s2.deficit k 52)).map fun k => (s2.deficit k 52, k)))

/-- The users of the trigger frame for candidates `k :: ks`: one alone, or the shape of an OFDMA one; whether it stands alone, its
bandwidth and whether it is EHT. -/
def State.trigUsers (s : State) (r k : Nat) (ks : List Nat) : List Nat × Nat × Bool :=
  let sh := s.muShape r (k :: ks)
  let solo := (!s.capOf r k 0 && !s.capOf r k 1) || !s.rbit MLINK.SCHED_CTL 30 || ks.isEmpty || sh.1.isEmpty
  (if solo then [k] else sh.1, if solo then min (s.width r) (s.bwOf r k) else sh.2.1, if solo then s.capOf r k 1 else sh.2.2)

/-- The trigger frame for candidates `k :: ks` is queued on the highest access category with demand among its users (R237). -/
def State.buildTrigger (s : State) (r k : Nat) (ks : List Nat) : State :=
  let sel := s.trigUsers r k ks
  let bw := sel.2.1
  let us := s.assignRus r bw 6 sel.1
  let gi := s.ctx k (linkOff r + 14) 1
  let time := fun (u : Nat × Nat × Nat × Nat × Nat) =>
    let b := userBits (ruTones u.2.1) u.2.2.2.1 u.2.2.2.2
    if b.1 = 0 then 0 else ((s.ulTotal u.1 * 8 * b.2 + b.1 - 1) / b.1 * symDur gi + 9) / 10
  let tbMax := s.rf MLINK.UL_CTL 15 8
  let len := min ((us.map time).foldl max 0) ((if tbMax = 0 then 1 else min 171 tbMax) * 32)
  let ac := ([3, 2, 1, 0].find? fun a => us.any fun u => (s.ulAcs r u.1).contains a).getD 0
  let hdr := [8 * 2 ^ 28 + 2 * 2 ^ 25 + bw * 2 ^ 22 + b2n sel.2.2 * 2 ^ 21 + gi % 16 * 2 ^ 17 + us.length * 2 ^ 8,
    s.ctxGroup k, len * 2 ^ 16, 0, 0, 0, 0, 0]
  let ents := us.flatMap fun u =>
    [u.2.1 * 2 ^ 29 + u.2.2.1 * 2 ^ 21 + (u.2.2.2.2 - 1) * 2 ^ 18 + u.2.2.2.1 * 2 ^ 14 + b2n (s.capOf r u.1 2) * 2 ^ 13 + u.1,
      s.ctx u.1 (linkOff r + 7) 1]
  let p := s.mlinkPush r ac (.trigger (us.map (·.1))) (hdr ++ ents) []
  if p.2 then p.1.sat MLINK.TRIG_CNT 31 16 1 else p.1

/-- UL_SELECTION (R237): PERIOD_US after the last, or once at the start of a trigger-enabled service period, restricted to its members. -/
def execUlSelection (r : Fin 3) (members : Option (Fin 32)) (s : State) : Host.Outcome State Fault Refusal :=
  .next <|
    let r := r.val
    let ok := match members with
      | none => s.rf MLINK.UL_CTL 31 16 != 0
        && tget (fun _ => 0) s.mlink.ulAt r + s.rf MLINK.UL_CTL 31 16 * 500 ≤ s.clock
      | some n => s.mlink.twtSel.contains n.val && (match s.twtRun n.val with
        | some p => fld p.w0 26 25 = r
        | none => false)
    if !s.rbit MLINK.SCHED_CTL 31 || !s.rbit MLINK.SCHED_CTL 28 || s.life 5 != .ready || !ok then s
    else
      let s := s.modMlink fun x => match members with
        | none => { x with ulAt := tput (fun _ => 0) x.ulAt r s.clock }
        | some n => { x with twtSel := x.twtSel.filter (· != n.val) }
      let c := s.ulCandidates r members
      match c.2 with
      | [] => c.1
      | k :: ks => c.1.buildTrigger r k ks

/-- SOUND_FEEDBACK (R233, R235): a report with FCS_OK of a station, its matrix having `nc + 1` columns of 8 rows for each group of
subcarriers. A report for an entry that a command uses waits for it; one that finds no entry counts as missed. -/
def execSoundFeedback (r : Fin 3) (scid : Fin 1024) (nc : Fin 8) (mat : List (List (Int × Int))) (s : State) :
    Host.Outcome State Fault Refusal :=
  .next <|
    let r := r.val
    let k := scid.val
    match (s.radio r).tx with
    | none => s
    | some t =>
      if !s.isSounding r t.cmd || s.ctxState k != 2 then s
      else
        let named := (s.muUsers r t.cmd).map (· % 1024)
        let m : SteerMat := { nc := nc.val, ng := t.ng, v := mat }
        let s1 := (s.modMac r fun y => { y with tb := y.tb.map fun t => (t.1, t.2.1.filter (· != k), t.2.2) }).modRadio r fun x =>
          { x with tx := some { t with cmd := { t.cmd with heard := t.cmd.heard ++ [k] } } }
        let busy := match s.steerOf r k with
          | some i => s.steerInUse r i
          | none => false
        if busy then
          s1.modMlink fun x => { x with
            steerPend := (x.steerPend.filter fun p => p.radio != r || p.scid != k) ++ [{ radio := r, scid := k, mat := m }] }
        else (s1.steerInstall r k m named).getD s

/-- MU_NEXT_PPDU_DUE (R232): 513 ticks before anchor + SIFS the next PPDU of the command is due; TXQ_READY occurs. -/
def execMuNextPpduDue (r : Fin 3) (s : State) : Host.Outcome State Fault Refusal :=
  .next <|
    let r := r.val
    let x := s.radio r
    match x.tx with
    | none => s
    | some t =>
      let due := x.anchor + s.sifs r * 16 / 25 - 513
      let n := match t.stage with
        | .ppdu n => n + 1
        | _ => 100
      if t.onAir || x.muDue.isSome || x.mac.await.isSome || x.mac.tb.isSome || s.ppdusOf r t.cmd ≤ n || s.tick < due then s
      else (s.modRadio r fun y => { y with muDue := some due }).seqEvent r evTXQ

/-- A user of a trigger sent nothing (R238). -/
def State.tbMiss (s : State) (r k : Nat) : State :=
  let o := linkOff r + 15
  let n := min 255 (s.ctx k o 1 + 1)
  let s1 := (s.ctxPut k o 1 n).sat MLINK.TRIG_CNT 7 0 1
  if n < max 1 (s.rf MLINK.UL_CTL 7 4) then s1 else (s1.ctxPut k 56 16 0).evt 5 26

/-- TB_WINDOW_END (R229, R232, R235, R238): the window has ended and what reached QUAL_OK in it has been received. A command with
more PPDUs goes on. -/
def execTbWindowEnd (r : Fin 3) (s : State) : Host.Outcome State Fault Refusal :=
  .next <|
    let r := r.val
    let x := s.radio r
    match x.mac.tb with
    | none => s
    | some (t, users, qual) =>
      if s.clock < t || (qual && (x.rx.phase != .idle || x.done.isSome)) then s
      else
        let s1 := s.modMac r fun m => { m with tb := none }
        let sound := s.soundingNow r
        let s2 := if sound then s1 else users.foldl (fun s k => s.tbMiss r k) s1
        let s3 := if qual then s2 else s2.sat MLINK.TRIG_CNT 15 8 1
        match x.tx with
        | none => s3
        | some tx =>
          let more := match tx.stage with
            | .ppdu n => decide (n + 1 < s.ppdusOf r tx.cmd)
            | _ => false
          if more then s3 else s3.seriesEnd r tx (qual || !tx.cmd.heard.isEmpty)

/-- EML_TRANSITION_DELAY_END (R206). -/
def execEmlTransitionDelayEnd (scid : Fin 1024) (s : State) : Host.Outcome State Fault Refusal :=
  .next <|
    let k := scid.val
    let t := tget (fun _ => 0) s.mlink.emlUntil k
    if tget (fun _ => 0) s.mlink.emlLink k = 0 || t = 0 || s.clock < t then s
    else
      let s1 := s.modMlink fun x => { x with
        emlLink := tput (fun _ => 0) x.emlLink k 0, emlUntil := tput (fun _ => 0) x.emlUntil k 0 }
      [0, 1, 2].foldl (fun s l => s.setLinkFlag k l 4 false) s1

end Sys2Proof.Machine
end

