-- ==== Sys2Proof/Machine/Time.lean ====
section
/-! DEFINITION. The Milestone time base: the count, its commands and snapshots, the servo, PPS and fine captures (R411 to
R433). -/

namespace Sys2Proof.Machine

open Reg

/-! The count (R411, R413). -/

/-- The count in units of 2^-48 ns. -/
def Milestone.total (m : Milestone) : Nat := m.ns * 2 ^ 48 + m.frac

/-- The count at a number of 2^-48 ns, modulo 2^64 ns. -/
def Milestone.at_ (m : Milestone) (v : Int) : Milestone :=
  let n := ofInt 112 v
  { m with ns := n / 2 ^ 48, frac := n % 2 ^ 48 }

/-- Advance of one TIME cycle in 2^-48 ns: 2 × (1 + ADJ × 2^-32) ns. -/
def TimeUnit.inc (t : TimeUnit) : Nat := ((2 ^ 49 : Int) + t.adj * 2 ^ 17).toNat

/-- A TXEN is high on a chain of a radio tuned to a channel that overlaps the SENSE window (R136). -/
def State.senseHit (s : State) : Bool :=
  let c := fld s.sense.curA 12 0
  [0, 1, 2].any fun r => s.txen r != 0 && (s.edges r).2.1 < c + 160 && c < (s.edges r).2.2 + 160

/-- One cycle of 2 ns of the TIME island passes; the servo's wait runs only while TIME is READY (R425), and SENSE notes a TXEN that is
high in its window (R136). -/
def State.timeCycle (s : State) : State :=
  let n := s.time.inc
  { s with
    clock := s.clock + 1
    sense := if s.senseHit then { s.sense with txAt := some s.clock } else s.sense
    ms := if s.ms.started then s.ms.at_ ((s.ms.total + n : Nat) : Int) else s.ms
    time := { s.time with
      run := if s.ms.started then s.time.run + n else s.time.run
      wait := if s.life 1 = .ready then s.time.wait + 1 else s.time.wait } }

/-- Limit of ADJ and of the servo's integral (R411, R425). -/
def clampAdj (x : Int) : Int := max (-4194304) (min 4194304 x)

/-- Load ADJ. -/
def State.setAdj (s : State) (x : Int) : State :=
  { s with time := { s.time with adj := clampAdj x } }.wr TIME.MS_ADJ (wd (ofInt 32 (clampAdj x)))

/-- TSF offset in effect of a radio. -/
def State.tsfOfs (s : State) (r : Nat) : Nat := (s.rd (TIME.TSF_OFS_LO r)).toNat + 2 ^ 32 * (s.rd (TIME.TSF_OFS_HI r)).toNat

/-- Set the TSF offset in effect of a radio. -/
def State.setTsfOfs (s : State) (r v : Nat) : State :=
  (s.wr (TIME.TSF_OFS_LO r) (wd v)).wr (TIME.TSF_OFS_HI r) (wd (v / 2 ^ 32))

/-- A step of the count by an amount in 2^-48 ns (R415, R416): every TSF offset takes the change of NS. -/
def State.stepCount (s : State) (d : Int) : State :=
  let m := s.ms.at_ ((s.ms.total : Int) + d)
  let dn : Int := (m.ns : Int) - s.ms.ns
  let s1 : State := { s with
    ms := m
    time := { s.time with steps := (s.time.steps + 1) % 256, stepAt := some s.clock }
    fabric := if dn < 0 then { s.fabric with bcnMs := min s.fabric.bcnMs (m.ns / 1000000 + 1), passed := none }
      else { s.fabric with passed := some (s.fabric.passed.getD (s.ms.ns / 1000000)) } }
  ([0, 1, 2].foldl (fun (s : State) r => s.setTsfOfs r (ofInt 64 ((s.tsfOfs r : Int) + dn))) s1).evt 1 17

/-! Count commands (R415). -/

/-- A count command with its result path (R28, R132). -/
def State.msCmd (s : State) (by_ : Req) (tag : Tag) (f : State → State) (code : State → Nat) : State :=
  s.onWrite by_ 1 fun s =>
    if s.pathFree TIME.MS_RESULT then ((f s).pathPost TIME.MS_RESULT 0 tag (code s * 2 ^ 27)).evt 1 16 else s.reqDrop 1

/-- MS_ARG. -/
def State.msArg (s : State) : Nat := (s.rd TIME.MS_ARG_LO).toNat + 2 ^ 32 * (s.rd TIME.MS_ARG_HI).toNat

/-- MS_SET (R415). -/
def execMsSet (by_ : Req) (tag : Tag) (s : State) : Host.Outcome State Fault Refusal :=
  .next <| s.msCmd by_ tag (fun s => s.stepCount (((s.msArg * 2 ^ 48 : Nat) : Int) - s.ms.total)) fun _ => 0

/-- MS_STEP (R415). -/
def execMsStep (by_ : Req) (tag : Tag) (s : State) : Host.Outcome State Fault Refusal :=
  .next <| s.msCmd by_ tag (fun s => s.stepCount (sval 64 s.msArg * 2 ^ 48)) fun _ => 0

/-- MS_ADJ (R415): SERVO while the servo is enabled. -/
def execMsAdj (by_ : Req) (tag : Tag) (s : State) : Host.Outcome State Fault Refusal :=
  .next <| s.msCmd by_ tag
    (fun s => if s.rbit TIME.SERVO_CTL 31 then s else s.setAdj (sval 32 (s.rd TIME.MS_ARG_LO).toNat))
    fun s => b2n (s.rbit TIME.SERVO_CTL 31)

/-- MS_ILLEGAL_OP (R415). -/
def execMsIllegalOp (by_ : Req) (tag : Tag) (s : State) : Host.Outcome State Fault Refusal :=
  .next <| s.msCmd by_ tag id fun _ => 2

/-- MS_ACK (R415). -/
def execMsAck (by_ : Req) (tag : Tag) (s : State) : Host.Outcome State Fault Refusal :=
  .next <| s.onWrite by_ 1 fun s => s.pathAck TIME.MS_RESULT 0 tag

/-! Snapshots (R414). -/

/-- SNAP_CAPTURE (R414). -/
def execSnapCapture (by_ : Req) (k : Fin 4) (tag : BitVec 4) (s : State) : Host.Outcome State Fault Refusal :=
  .next <| s.onWrite by_ 1 fun s =>
    let k := k.val
    if s.rbit (TIME.SNAP_W1 k) 31 then s.reqDrop 1
    else
      let n := s.ms.ns
      let sec := n / 1000000000
      (((((s.wr (TIME.SNAP_W1 k)
        (wd (2 ^ 31 + tag.toNat * 2 ^ 24 + s.time.steps * 2 ^ 16 + s.ms.frac / 2 ^ 32))).wr (TIME.SNAP_W2 k) (wd n)).wr
        (TIME.SNAP_W3 k) (wd (n / 2 ^ 32))).wr (TIME.SNAP_W4 k) (wd sec)).wr (TIME.SNAP_W5 k) (wd (sec / 2 ^ 32 % 65536))).wr
        (TIME.SNAP_W6 k) (wd (n % 1000000000))

/-- SNAP_ACK (R414). -/
def execSnapAck (by_ : Req) (k : Fin 4) (tag : BitVec 4) (s : State) : Host.Outcome State Fault Refusal :=
  .next <| s.onWrite by_ 1 fun s =>
    if s.rbit (TIME.SNAP_W1 k.val) 31 && s.rf (TIME.SNAP_W1 k.val) 27 24 = tag.toNat then s.wr (TIME.SNAP_W1 k.val) 0 else s

/-! The servo (R424, R425). -/

/-- Servo state: 0 FREE, 1 LOCKING, 2 LOCKED, 3 HOLDOVER. -/
def State.servo (s : State) : Nat := s.rf TIME.SERVO_STATUS 31 30

/-- Change the servo's state; a change raises SERVO. -/
def State.setServo (s : State) (st : Nat) : State :=
  if s.servo = st then s else (s.wf TIME.SERVO_STATUS 31 30 st).evt 1 18

/-- A sample from a source of the servo is accepted (R424): SRC 3 acts as 0. -/
def State.sampleOk (s : State) (src : Nat) : Bool :=
  let sel := s.rf TIME.SERVO_CTL 30 29
  s.rbit TIME.SERVO_CTL 31 && (if sel = 3 then 0 else sel) = src && s.life 1 = .ready
    && (match s.time.sampleAt with
      | none => true
      | some t => t + 500000 ≤ s.clock)

/-- An accepted sample is applied (R425). -/
def State.applySample (s : State) (theta : Int) : State :=
  let c := s.rd TIME.SERVO_CTL
  let tau : Int := (max 1 ((s.time.run - s.time.sampleRun) / 2 ^ 48) : Nat)
  let s0 := (s.sat TIME.SERVO_STATUS 15 0 1).wr TIME.SERVO_LAST (wd (ofInt 32 theta))
  let s1 : State := { s0 with
    time := { s0.time with sampleRun := s.time.run, sampleAt := some s.clock, wait := 0 } }
  let s2 : State :=
    if s1.servo = 0 || s1.servo = 3 then
      { s1 with time := { s1.time with good := 0, first := true } }.setServo 1
    else s1
  let thr := fld c 19 8
  let mag := theta.natAbs
  let s3 : State :=
    if thr != 0 && thr * 256000 ≤ mag then
      let t := s2.stepCount (-(theta * 2 ^ 40))
      { t with time := { t.time with good := 0 } }
    else if !s2.time.first then
      let e := (theta * 2 ^ 24).tdiv tau
      let i := clampAdj (s2.time.integ - e.tdiv (2 ^ fld c 23 20))
      let t : State := { s2 with time := { s2.time with integ := i } }
      t.setAdj (i - e.tdiv (2 ^ fld c 27 24))
    else s2
  let s4 : State := { s3 with time := { s3.time with first := false } }
  let lock := max 1 (fld c 7 0) * 256
  if mag ≤ lock then
    let s5 : State := { s4 with time := { s4.time with good := s4.time.good + 1 } }
    if 8 ≤ s5.time.good then s5.setServo 2 else s5
  else
    let s5 : State := { s4 with time := { s4.time with good := 0 } }
    if s5.servo = 2 && 2 * lock < mag then s5.setServo 1 else s5

/-- A sample is offered to the servo. -/
def State.sample (s : State) (src : Nat) (theta : Int) : State := if s.sampleOk src then s.applySample theta else s

/-- SERVO_IN_WRITE (R424). -/
def execServoInWrite (by_ : Req) (val : Word) (s : State) : Host.Outcome State Fault Refusal :=
  .next <| s.onWrite by_ 1 fun s => s.sample 0 (sval 32 val.toNat)

/-- HOLDOVER_TIMEOUT (R425). -/
def execHoldoverTimeout (s : State) : Host.Outcome State Fault Refusal :=
  .next <|
    if s.servo = 2 && s.life 1 = .ready && max 1 (s.rf TIME.SERVO_HOLD 15 0) * 500000 ≤ s.time.wait then
      (s.setServo 3).setAdj s.time.integ
    else s

/-- SERVO_CTL_WRITE (R425): clearing EN makes the servo FREE and leaves ADJ. -/
def execServoCtlWrite (by_ : Req) (val : Word) (s : State) : Host.Outcome State Fault Refusal :=
  .next <| s.onWrite by_ 1 fun s =>
    let s1 := s.wr TIME.SERVO_CTL (val &&& 0xEFFFFFFF)
    if bit val 31 then s1 else s1.setServo 0

/-! PPS (R429). -/

/-- PPS_IN_EDGE (R429, R424): the edge is counted, captured while no capture is posted, and offered to the servo. -/
def execPpsInEdge (s : State) : Host.Outcome State Fault Refusal :=
  .next <|
    if !s.live 1 || !s.rbit TIME.PPS_CTL 30 then s
    else
      let n := (s.time.edges + 1) % 256
      let s1 : State := { s with time := { s.time with edges := n } }
      if s1.rbit TIME.PPS_IN_STAT 31 then s1
      else
        let s2 := ((s1.wr TIME.PPS_IN_LO (wd s.ms.ns)).wr TIME.PPS_IN_HI (wd (s.ms.ns / 2 ^ 32))).wr TIME.PPS_IN_STAT
          (wd (2 ^ 31 + n * 2 ^ 16 + s.ms.frac / 2 ^ 32))
        let d : Int := (s.ms.ns : Int) - sval 32 (s.rd TIME.PPS_IN_DELAY).toNat
        let c : Int := (d + 500000000) % 1000000000 - 500000000
        (s2.evt 1 19).sample 2 (256 * c)

/-- PPS_IN_ACK (R429). -/
def execPpsInAck (by_ : Req) (tag : Tag) (s : State) : Host.Outcome State Fault Refusal :=
  .next <| s.onWrite by_ 1 fun s => s.pathAck TIME.PPS_IN_STAT 16 tag

/-- PPS_OUT may be high: OUT_EN while TIME is READY. -/
def State.ppsOn (s : State) : Bool := s.rbit TIME.PPS_CTL 31 && s.life 1 = .ready

/-- PPS_OUT is low unless it may be high. -/
def State.ppsSync (s : State) : State := if s.ppsOn then s else { s with time := { s.time with pps := none } }

/-- PPS_OUT_RISE (R429, R416): the count reached the offset in the last cycle, and not by a step. -/
def execPpsOutRise (s : State) : Host.Outcome State Fault Refusal :=
  .next <|
    let g : Int := 1000000000 * 2 ^ 48
    let past : Int := ((s.ms.total : Int) - sval 32 (s.rd TIME.PPS_OUT_OFS).toNat * 2 ^ 48) % g
    if s.ppsOn && s.time.stepAt != some s.clock && past < (s.time.inc : Int) then
      { s with time := { s.time with pps := some s.time.run } }
    else s

/-- PPS_OUT_FALL (R429). -/
def execPpsOutFall (s : State) : Host.Outcome State Fault Refusal :=
  .next <|
    match s.time.pps with
    | none => s
    | some t =>
      if t + max 1 (s.rf TIME.PPS_CTL 15 0) * 1000 * 2 ^ 48 ≤ s.time.run then { s with time := { s.time with pps := none } }
      else s

/-! TSF and fine captures (R418, R430). -/

/-- TSF_OFS_HI_WRITE (R418): the held low word, or the one in effect where none is held, takes effect with it. -/
def execTsfOfsHiWrite (by_ : Req) (r : Fin 3) (val : Word) (s : State) : Host.Outcome State Fault Refusal :=
  .next <| s.onWrite by_ 1 fun s =>
    let lo := (tget (fun _ => none) s.time.tsfHeld r.val).getD (s.rd (TIME.TSF_OFS_LO r.val)).toNat
    { s with time := { s.time with tsfHeld := terase s.time.tsfHeld r.val } }.setTsfOfs r.val (lo + 2 ^ 32 * val.toNat)

/-- FTM_ARM (R430): selecting nothing arms nothing. -/
def execFtmArm (by_ : Req) (r : Fin 3) (val : Word) (s : State) : Host.Outcome State Fault Refusal :=
  .next <| s.onWrite by_ 1 fun s =>
    let r := r.val
    if s.rd (TIME.FTM_W0 r) != 0 || s.rbit (TIME.FTM_W1 r) 31 then s.reqDrop 1
    else if fld val 9 8 = 0 then s
    else (s.wr (TIME.FTM_W0 r) (val &&& 0x3FF)).modRadio r fun x => { x with ftmRx := false, ftmTx := false }

/-- FTM_ACK (R430). -/
def execFtmAck (by_ : Req) (r : Fin 3) (tag : Tag) (s : State) : Host.Outcome State Fault Refusal :=
  .next <| s.onWrite by_ 1 fun s => s.pathAck (TIME.FTM_W1 r.val) 16 tag

end Sys2Proof.Machine
end

