-- ==== Sys2Proof/Machine/Fabric.lean ====
section
/-! DEFINITION. The fabric forwarder: fabric frames, next hops, beacons and misses, forwarding entries, dozing and the
schedule (R287 to R306), with the time that beacons carry (R427, R428). -/

namespace Sys2Proof.Machine

open Reg

/-! Next hops (R294, R297). -/

/-- Replace the forwarder's hidden state. -/
def State.modFab (s : State) (f : Fabric → Fabric) : State := { s with fabric := f s.fabric }

/-- The forwarder is in service (R289, R293). -/
def State.fabOn (s : State) : Bool :=
  let c := s.rd CLASS.FAB_CTL
  bit c 31 && fld c 15 0 != 0 && fld c 15 0 != 0xFFFF

/-- A next hop is in use: RADIO 3 and lanes above 3 act as EN = 0. -/
def State.nhOk (s : State) (n : Nat) : Bool :=
  let w := s.rd (CLASS.NH_W0 n)
  bit w 31 && (if bit w 29 then fld w 26 23 < 4 else fld w 28 27 < 3)

/-- A next hop leads over a wired lane. -/
def State.nhWire (s : State) (n : Nat) : Bool := s.rbit (CLASS.NH_W0 n) 29
/-- Radio of a Towpath next hop. -/
def State.nhRadio (s : State) (n : Nat) : Nat := s.rf (CLASS.NH_W0 n) 28 27
/-- Peer or lane of a next hop. -/
def State.nhIndex (s : State) (n : Nat) : Nat := s.rf (CLASS.NH_W0 n) 26 23
/-- A next hop is monitored (R297). -/
def State.nhMon (s : State) (n : Nat) : Bool := s.nhOk n && s.rbit (CLASS.NH_W0 n) 30

/-- A next hop is UP: a monitored one by its beacons, another while it is in use and its lane's link is up (R297). -/
def State.nhUp (s : State) (n : Nat) : Bool :=
  s.nhOk n && (if s.rbit (CLASS.NH_W0 n) 30 then s.rbit (CLASS.NH_W3 n) 31
    else !s.nhWire n || s.rbit (WIRE.LANE_STATUS (s.nhIndex n)) 31)

/-- Queue of a next hop. -/
def State.nhQueue (s : State) (n : Nat) : List (Nat × Nat) := tget (fun _ => []) s.fabric.queues n
/-- Replace the queue of a next hop. -/
def State.setNhQueue (s : State) (n : Nat) (l : List (Nat × Nat)) : State :=
  s.modFab fun f => { f with queues := tput (fun _ => []) f.queues n l }

/-! Frames. -/

/-- Device address of data byte `k` of a packet. -/
def State.dByteAt (s : State) (d k : Nat) : Nat :=
  let o := s.dOfs d + k
  256 * (s.dBlocks d).getD (o / 256) 0 + o % 256

/-- Write one data byte of a packet through CLASS's port. -/
def State.dPoke (s : State) (d k v : Nat) : State := s.storeWrite 6 (s.dByteAt d k) (le 1 v)

/-- A big-endian number. -/
def beVal (l : List Byte) : Nat := l.foldl (fun a b => a * 256 + b.toNat) 0

/-- `n` bytes of a number, most significant first. -/
def be (n v : Nat) : List Byte := (le n v).reverse

/-- A field of `n` bytes at byte `k` of a fabric frame, most significant first (R290). -/
def fabField (h : List Byte) (k n : Nat) : Nat := beVal ((h.drop k).take n)

/-- A frame is dropped: counted in a field of a counter, its blocks returned (R293). -/
def State.fabDrop (s : State) (d : Nat) (cnt : RegId) (hi lo : Nat) : State := (s.sat cnt hi lo 1).freeDesc 6 d

/-- The installed entry of a node. -/
def State.fwdFind (s : State) (node : Nat) : Option Nat :=
  (List.range 1024).find? fun d => s.rbit (CLASS.FWD_W0 d) 31 && s.rf (CLASS.FWD_W0 d) 15 0 = node

/-- The next hop of an entry for a flow hash (R294), counting a reroute. -/
def State.fabResolve (s : State) (e hash : Nat) : State × Option Nat :=
  let w := s.rd (CLASS.FWD_W1 e)
  let p := fld w 5 0
  let a := fld w 13 8
  let alt := bit w 14 && s.nhUp a
  if s.nhUp p then (s, some (if bit w 31 && alt && hash % 2 = 1 then a else p))
  else if alt then (s.sat CLASS.FAB_CNT0 31 16 1, some a)
  else (s, none)

/-- Place a frame in a next hop's queue of at most 512 (R293). -/
def State.fabQueue (s : State) (n d resends : Nat) (front : Bool) : State :=
  let q := s.nhQueue n
  if 512 ≤ q.length then s.fabDrop d CLASS.FAB_CNT1 15 8
  else s.setNhQueue n (if front then (d, resends) :: q else q ++ [(d, resends)])

/-- Look a frame's destination up and queue it, or drop it as FWD_MISS or NH_DOWN (R293 steps 4 to 6); `ttl` is the TTL to
store. -/
def State.fabForward (s : State) (d resends : Nat) (ttl : Option Nat) (front : Bool) : State :=
  let h := (s.dData d).take 16
  match s.fwdFind (fabField h 2 2) with
  | none => (s.fabDrop d CLASS.FAB_CNT0 15 8).evt 9 28
  | some e =>
    let r := s.fabResolve e (fabField h 8 4)
    match r.2 with
    | none => r.1.fabDrop d CLASS.FAB_CNT1 23 16
    | some n =>
      let s1 := match ttl with
        | some t => r.1.dPoke d 1 t
        | none => r.1
      s1.fabQueue n d resends front

/-! Commands to the radios (R295, R303). -/

/-- Bytes of a frame's subframe with its delimiter and padding. -/
def State.fabBytes (s : State) (d : Nat) : Nat := 4 + (s.dLen d + 3) / 4 * 4

/-- Access category of a frame: its CLASS taken as a TID (R290). -/
def State.fabAc (s : State) (d : Nat) : Nat := acOfTid (fabField (s.dData d) 6 1 % 8)

/-- The leading frames of a queue that one command takes: one access category, at most `cap` bytes, at least one frame. -/
def State.fabTake (s : State) (ac cap : Nat) : List (Nat × Nat) → List (Nat × Nat)
  | [] => []
  | f :: l => if s.fabAc f.1 = ac && s.fabBytes f.1 ≤ cap then f :: s.fabTake ac (cap - s.fabBytes f.1) l else []

/-- Write a frame's framing words: its delimiter as PREFIX and its padding (R271, R318). -/
def State.fabFrame (s : State) (d : Nat) : State :=
  let w1 := s.dw d 1
  let pad := (4 - s.dLen d % 4) % 4
  (s.storeWrite 6 (d + 4) (le 4 (w1 / 2 ^ 14 * 2 ^ 14 + 2 ^ 13 + pad * 2 ^ 11 + w1 % 2 ^ 11))).storeWrite 6 (d + 20)
    (le 4 (s.dLen d % 2 ^ 14))

/-- Link the descriptors of a command's chain. -/
def State.fabChain (s : State) : List Nat → State
  | [] => s
  | d :: l => (s.storeWrite 6 d (le 4 (match l with
      | e :: _ => 2 ^ 31 + e / 64
      | [] => 0))).fabChain l

/-- Start and queue of a command built now: its EDCA queue, or queue 4 inside a window of this member's own, where it must
still fit (R303). -/
def State.fabStart (s : State) (r peer ac bytes : Nat) : Option (Nat × Nat × Nat) :=
  match s.ownWindow r with
  | none => some (ac, ac * 2 ^ 28, 0)
  | some w =>
    if !s.fabFits r peer bytes then none
    else
      let t := s.ns / 1024000 * 1024000 + s.rf (CLASS.SLOT_CUR w) 9 0 * 1000 + s.rf CLASS.FAB_SCHED 15 0
      if s.ns + 1604 < t then some (4, 2 ^ 30, t) else some (4, 2 ^ 31, 0)

/-- Build one command for a Towpath next hop, where R295 and R306 allow it. POWER and TAG are free, the TXVECTOR stays with
the command (log entries 5 and 25). -/
def State.fabBuild (s : State) (n : Nat) : State :=
  let un := tget (fun _ => 0) s.fabric.unfin n
  match s.nhQueue n with
  | [] => s
  | f :: _ =>
    if s.nhWire n || !s.nhUp n || 2 ≤ un || s.life 9 != .ready || !s.fabOn then s
    else
      let r := s.nhRadio n
      let peer := s.nhIndex n
      let ac := s.fabAc f.1
      let got := s.fabTake ac (max 1 (s.rf CLASS.FAB_CTL 23 16) * 1024) (s.nhQueue n)
      let take := if got = [] then [f] else got
      let bytes := (take.map fun g => s.fabBytes g.1).sum
      match s.fabStart r peer ac bytes with
      | none => s
      | some (q, w0, t) =>
        let c : TxCmd := {
          words := [w0 + s.free 16, 0, f.1 % 2 ^ 32, bytes % 2 ^ 24 * 256 + f.1 / 2 ^ 32, t % 2 ^ 32, t / 2 ^ 32, 0, 0]
          from_ := .fabric n take
          tvec := [7 * 2 ^ 28 + peer * 2 ^ 16, 0, 0, 0, 0, 0, 0, 0] }
        let s1 := (take.foldl (fun s g => s.fabFrame g.1) s).fabChain (take.map (·.1))
        match s1.took.txqPush r q c with
        | none => s
        | some s2 =>
          ((s2.setNhQueue n ((s.nhQueue n).drop take.length)).modFab fun x => { x with
            unfin := tput (fun _ => 0) x.unfin n (un + 1) }).sliceYield r

/-- Every next hop gets the commands it may have. -/
def State.fabKick (s : State) : State := (List.range 64).foldl (fun s n => (s.fabBuild n).fabBuild n) s

/-! The control ring (R298). -/

/-- Entries of the control ring. -/
def State.fabSlots (s : State) : Nat := 2 ^ clampN 6 12 (s.rf CLASS.FAB_RING 3 0)

/-- Write a ring entry for a frame of kind 1 to 4, or drop it where the ring is full or out of range. -/
def State.fabRing (s : State) (f : FabIn) (kind src : Nat) (isNew : Bool) : State :=
  let n := s.fabSlots
  let w := s.rf CLASS.FAB_RING_WR 11 0 % n
  let base := s.rf CLASS.FAB_RING 31 4 * 4096
  if (w + 1) % n = s.rf CLASS.FAB_RING_RD 11 0 % n || storeEnd < base + 16 * n then s.fabDrop f.desc CLASS.FAB_CNT1 7 0
  else
    let from_ := match f.src with
      | .radio r _ => r * 2 ^ 24
      | .lane l => 2 ^ 26 + l * 2 ^ 24
      | .enq => 2 ^ 27
    let w0 := 2 ^ 31 + kind * 2 ^ 28 + from_ + src * 2 ^ 8 + b2n isNew * 2 ^ 7
    ((s.storeWrite 6 (base + 16 * w) (le 4 w0 ++ le 8 f.desc ++ le 4 (s.dw f.desc 4))).wf CLASS.FAB_RING_WR 11 0
      ((w + 1) % n)).evt 9 24

/-! Beacons received (R297, R301, R427, R428). -/

/-- A frame came over a next hop. -/
def State.nhFrom (s : State) (n : Nat) (src : FabSrc) : Bool :=
  match src with
  | .radio r p => !s.nhWire n && s.nhRadio n = r && p = some (s.nhIndex n)
  | .lane l => s.nhWire n && s.nhIndex n = l
  | .enq => false

/-- DOZE_W3.WIDE of every radio follows its next hops. -/
def State.syncWide (s : State) : State :=
  [0, 1, 2].foldl (fun s r =>
    let any := (List.range 64).any fun n => s.nhMon n && !s.nhWire n && s.nhRadio n = r && s.rbit (CLASS.NH_W3 n) 30
    s.wf (CLASS.DOZE_W3 r) 30 30 (b2n any)) s

/-- A signed 32-bit difference. -/
def diff32 (a b : Nat) : Int := sval 32 (a + 2 ^ 32 - b % 2 ^ 32)

/-- A BEACON from a monitored peer gives m, FREQ and a servo sample (R427, R428): stamps are the low 32 bits. An f over no
advance is not stated, nor a FREQ past its field: those are free (DESIGN CHOICE, log entry 5). -/
def State.beaconTime (s : State) (n seq hash stamp : Nat) : State :=
  let b := tget (fun _ => {}) s.fabric.freq n
  let keep := fun (s : State) (m : Option Int) (mAt : Nat) => s.modFab fun x => { x with
    freq := tput (fun _ => {}) x.freq n { seq := some seq, rx := stamp, m := m, mAt := mAt } }
  if b.seq != some ((seq + 2 ^ 32 - 1) % 2 ^ 32) || hash = 0 then keep s b.m b.mAt
  else
    let m := diff32 b.rx hash
    let s1 := match b.m with
      | none => s
      | some prev =>
        let den := diff32 b.rx b.mAt
        let old := sval 12 (s.rf (CLASS.NH_W3 n) 27 16)
        let f := ((prev - m) * 10 ^ 8).tdiv den
        let new := old + (f - old).tdiv 8
        if den = 0 || new < -2048 || 2047 < new then (s.wf (CLASS.NH_W3 n) 27 16 (s.free 12)).took
        else s.wf (CLASS.NH_W3 n) 27 16 (ofInt 12 new)
    let s2 := keep s1 (some m) b.rx
    let par := s2.rd TIME.TIME_PARENT
    if bit par 31 && fld par 29 24 = n then
      let d : Option Int := if s2.nhWire n then some (64 * (fld par 15 0 : Int)) else s2.time.delay
      match d with
      | some d => s2.sample 1 (256 * m - d)
      | none => s2
    else s2

/-- A BEACON from PEER_NODE over a monitored next hop (R297, R301). -/
def State.nhHeard (s : State) (n seq hash stamp : Nat) : State :=
  let w := s.rd (CLASS.NH_W3 n)
  let up := bit w 31
  let s0 := if up then s else s.modFab fun x => { x with
    freq := tput (fun _ => {}) x.freq n { tget (fun _ => {}) x.freq n with m := none } }
  let s1 := (s0.wr (CLASS.NH_W3 n) (putFld (putBit (putBit w 31 true) 30 false) 29 28 0)).modFab fun x => { x with
    heardAt := tput (fun _ => none) x.heardAt n (some s.ns) }
  let s2 := if bit w 30 then
      let s2 := s1.syncWide
      if s2.servo = 3 then s2.setServo 1 else s2
    else s1
  (if up then s2 else s2.evt 9 31).beaconTime n seq hash stamp

/-! Arrival (R293). -/

/-- The forwarder disposes of one frame; one whose descriptor cannot be read has no header it knows. -/
def State.fabTakeIn (s0 : State) (f : FabIn) : State :=
  let r := s0.descRead 6 f.desc 1
  let s := r.1
  let h := if r.2 then (s.dData f.desc).take 16 else []
  let kind := fabField h 0 1 % 16
  let dst := fabField h 2 2
  let src := fabField h 4 2
  if !s.fabOn || h.length < 16 || 16 ≤ fabField h 0 1 || 4 < kind then s.fabDrop f.desc CLASS.FAB_CNT1 31 24
  else if dst = s.rf CLASS.FAB_CTL 15 0 || dst = 0xFFFF then
    if kind = 0 then
      { s with clsIn := s.clsIn ++ [{ ingress := 8, desc := f.desc, fabSrc := src, fabClass := fabField h 6 1 }] }
    else
      let known := (List.range 64).any fun n => s.nhOk n && s.rf (CLASS.NH_W0 n) 15 0 = src
      let isNew := kind ≤ 2 && !known
      let sn := if isNew then s.evt 9 26 else s
      let s1 := if kind = 1 then
          (List.range 64).foldl (fun s n =>
            if s.nhMon n && s.rf (CLASS.NH_W0 n) 15 0 = src && s.nhFrom n f.src then
              s.nhHeard n (fabField h 12 4) (fabField h 8 4) (s.dw f.desc 4)
            else s) sn
        else sn
      s1.fabRing f kind src isNew
  else if fabField h 1 1 = 0 then s.fabDrop f.desc CLASS.FAB_CNT0 7 0
  else s.fabForward f.desc 0 (some (fabField h 1 1 - 1)) false

/-- FAB_FRAME_ARRIVE (R293): the next frame is taken. -/
def execFabFrameArrive (s : State) : Host.Outcome State Fault Refusal :=
  .next <|
    if !s.live 9 then s
    else
      match s.fabric.inQ with
      | [] => s.fabKick
      | f :: l => ((s.modFab fun x => { x with inQ := l }).fabTakeIn f).fabKick

/-- A write of FAB_ENQ (R293): discarded while the forwarder is out of service. -/
def State.fabEnq (s : State) (val : Word) : State :=
  if s.fabOn then s.modFab fun x => { x with inQ := x.inQ ++ [⟨.enq, 64 * fld val 26 0⟩] } else s

/-- FAB_ENQ (R293). -/
def execFabEnq (by_ : Req) (val : Word) (s : State) : Host.Outcome State Fault Refusal :=
  .next <| s.onWrite by_ 9 fun s => s.fabEnq val

/-! Beacons sent (R292, R427). -/

/-- Send a BEACON on a port: radios at 0, lanes at 4 on. It is lost where no packet or place is left for it. -/
def State.beacon (s : State) (port : Nat) : State :=
  let c := s.rd CLASS.FAB_CTL
  let b := tget (fun _ => (0, 0)) s.fabric.bcn port
  let body := (s.dData (64 * s.rf CLASS.FAB_BCN_DESC 26 0)).take 24
  let flags := (body.getD 11 0).toNat
  let flags := if s.rf CLASS.FWD_COUNT 10 0 = 1024 then flags / 2 * 2 else flags
  let frame := le 1 1 ++ le 1 0 ++ be 2 0xFFFF ++ be 2 (fld c 15 0) ++ le 1 6 ++ le 1 0 ++ be 4 b.2 ++ be 4 b.1
    ++ body.take 11 ++ le 1 flags ++ body.drop 12
  let w := s.rxStore 6 frame 0 0
  match w.2 with
  | none => w.1
  | some d =>
    let s1 := w.1.modFab fun x => { x with bcn := tput (fun _ => (0, 0)) x.bcn port ((b.1 + 1) % 2 ^ 32, b.2) }
    if port < 4 then
      let s2 := s1.fabFrame d
      let cmd : TxCmd := {
        words := [3 * 2 ^ 28 + s.free 16, 0, d % 2 ^ 32, (4 + (frame.length + 3) / 4 * 4) * 256 + d / 2 ^ 32, 0, 0, 0, 0]
        from_ := .beacon
        tvec := [7 * 2 ^ 28 + 2 ^ 27, 0, 0, 0, 0, 0, 0, 0] }
      match s2.took.txqPush port 3 cmd with
      | some s3 => s3.sliceYield port
      | none => s1.freeDesc 6 d
    else { s1 with wireIn := s1.wireIn ++ [{ lane := port - 4, pri := 6, desc := d, dst := some 0x0180C200000E, beacon := true }] }

/-- A radio dozes between rendezvous windows (R300). -/
def State.dozes (s : State) (r : Nat) : Bool :=
  s.rbit (CLASS.DOZE_W0 r) 31 && s.rf (CLASS.DOZE_W0 r) 15 0 != 0 && s.rd (CLASS.DOZE_W1 r) != 0
    && !((List.range 16).any fun n => s.slotOn r n)

/-- Interval, phase, length and guard of a dozing radio, in ns. -/
def State.rdv (s : State) (r : Nat) : Nat × Nat × Nat × Nat :=
  let i := (s.rd (CLASS.DOZE_W1 r)).toNat
  (i * 1000, (s.rd (CLASS.DOZE_W2 r)).toNat % max 1 i * 1000, s.rf (CLASS.DOZE_W0 r) 15 0 * 1000, s.rf (CLASS.DOZE_W3 r) 15 0 * 1000)

/-- A dozing radio sends its beacon at the start of a rendezvous window, once (R292, R416). -/
def State.rdvBeacon (s : State) (r : Nat) : State :=
  let d := s.rdv r
  let k := (s.ns - d.2.1) / max 1 d.1
  let t := k * d.1 + d.2.1
  let inside := s.ns < t + d.2.2.1 || (match s.fabric.passed with
    | some p => p * 1000000 < t
    | none => false)
  if !s.dozes r || s.ns < d.2.1 || !inside || tget (fun _ => 0) s.fabric.bcnRdv r = k + 1 || !s.rbit CLASS.FAB_BCN_DESC 31
      || !s.rbit CLASS.FAB_BCN r || s.life 9 != .ready || !s.fabOn then s
  else (s.modFab fun x => { x with bcnRdv := tput (fun _ => 0) x.bcnRdv r (k + 1) }).beacon r

/-- FAB_BEACON_TIMER (R292, R306): beacons at each beacon millisecond that the count has reached, or passed by a step, and
at rendezvous starts. -/
def execFabBeaconTimer (s : State) : Host.Outcome State Fault Refusal :=
  .next <|
    let c := s.rd CLASS.FAB_BCN
    let i := fld c 31 16
    let ms := s.ns / 1000000
    let lo := match s.fabric.passed with
      | some p => p + 1
      | none => ms
    let ph := fld c 15 8 % max 1 i
    let due := ms - (ms + i - ph) % max 1 i
    if s.life 9 != .ready || !s.fabOn || !s.rbit CLASS.FAB_BCN_DESC 31 then s
    else
      let s1 := [0, 1, 2].foldl (fun s r => s.rdvBeacon r) s
      let s2 := if i != 0 && ph ≤ ms && lo ≤ due && s.fabric.bcnMs ≤ due then
          let s2 := [0, 1, 2].foldl (fun s r => if bit c r && !s.dozes r then s.beacon r else s) s1
          [0, 1, 2, 3].foldl (fun s l => if bit c (4 + l) then s.beacon (4 + l) else s) s2
        else s1
      (s2.modFab fun x => { x with bcnMs := ms + 1, passed := none }).fabKick

/-! Misses (R297, R301). -/

/-- The frames of a next hop that goes down are resolved again in queue order; their TTL was taken when they were queued. -/
def State.nhRequeue (s : State) (n : Nat) : State :=
  (s.nhQueue n).foldl (fun s f => s.fabForward f.1 f.2 none false) (s.setNhQueue n [])

/-- A miss of a monitored next hop; on a dozing radio the listening widens; the third takes the link down. -/
def State.nhMiss (s : State) (n : Nat) (dozing : Bool) : State :=
  let w := s.rd (CLASS.NH_W3 n)
  let m := fld w 29 28 + 1
  let s1 := s.wf (CLASS.NH_W3 n) 29 28 m
  let s2 := if dozing && !bit w 30 then ((s1.wf (CLASS.NH_W3 n) 30 30 1).syncWide).evt 9 30 else s1
  if m = 3 then ((s2.wf (CLASS.NH_W3 n) 31 31 0).evt 9 25).nhRequeue n else s2

/-- FAB_BEACON_MISS (R297): judged from the last beacon heard, or on a dozing radio at the end of each rendezvous window. A
DRAINING CLASS holds its counts. -/
def execFabBeaconMiss (n : Fin 64) (s : State) : Host.Outcome State Fault Refusal :=
  .next <|
    let n := n.val
    let w := s.rd (CLASS.NH_W3 n)
    match tget (fun _ => none) s.fabric.heardAt n with
    | none => s
    | some h =>
      if s.life 9 != .ready || !s.nhMon n || !bit w 31 || fld w 29 28 = 3 then s
      else
        let r := s.nhRadio n
        let d := s.rdv r
        if !s.nhWire n && s.dozes r then
          let past := d.2.1 + d.2.2.1 + d.2.2.2
          let k := (s.ns - past) / max 1 d.1
          let start := k * d.1 + d.2.1
          if s.ns < past || k + 1 ≤ tget (fun _ => 0) s.fabric.judged n || start < h then s
          else
            let s1 := s.modFab fun x => { x with judged := tput (fun _ => 0) x.judged n (k + 1) }
            if start ≤ h + d.2.2.2 then s1 else (s1.nhMiss n true).fabKick
        else
          let i := s.rf CLASS.FAB_BCN 31 16
          if i != 0 && h + (2 * fld w 29 28 + 3) * i * 500000 ≤ s.ns then (s.nhMiss n false).fabKick else s

/-! Statuses (R296). -/

/-- A frame that was not acknowledged is sent again, or dropped after RETRY re-sends. -/
def State.fabResend (s : State) (f : Nat × Nat) : State :=
  if s.rf CLASS.FAB_CTL 27 24 ≤ f.2 then s.fabDrop f.1 CLASS.FAB_CNT2 15 0
  else
    let fl := fabField (s.dData f.1) 7 1
    ((s.dPoke f.1 7 (fl / 2 * 2 + 1)).sat CLASS.FAB_CNT2 31 16 1).fabForward f.1 (f.2 + 1) none true

/-- FAB_TX_STATUS (R296): the status of a finished command is taken; re-sent frames go to the heads of their queues in
order. -/
def execFabTxStatus (s : State) : Host.Outcome State Fault Refusal :=
  .next <|
    if !s.live 9 then s
    else
      match s.fabric.done with
      | [] => s
      | (n, frames, acked) :: l =>
        let s1 := s.modFab fun x => { x with done := l, unfin := tput (fun _ => 0) x.unfin n (tget (fun _ => 0) x.unfin n - 1) }
        (if acked then frames.foldl (fun s f => s.freeDesc 6 f.1) s1
          else frames.reverse.foldl (fun s f => s.fabResend f) s1).fabKick

/-! Forwarding commands (R305). -/

/-- A forwarding command's result: code and index. -/
def State.fwdPost (s : State) (tag : Tag) (code index : Nat) : State :=
  (s.pathPost CLASS.FWD_RESULT 0 tag (code * 2 ^ 27 + index * 2 ^ 15)).evt 9 27

/-- A forwarding command with its result path; `f` has the node, its entry and the next hops. The INDEX of a command that
acted on no entry is free but for FULL (DESIGN CHOICE, log entry 5). -/
def State.fwdCmd (s : State) (by_ : Req) (tag : Tag) (hops : Bool)
    (f : State → Nat → Option Nat → Word → State × Nat × Option Nat) : State :=
  s.onWrite by_ 9 fun s =>
    if !s.pathFree CLASS.FWD_RESULT then s.reqDrop 9
    else
      let node := s.rf CLASS.FWD_ARG0 15 0
      let a := s.rd CLASS.FWD_ARG1
      let bad := node = 0 || node = 0xFFFF || (hops && (!s.nhOk (fld a 5 0) || (bit a 14 && !s.nhOk (fld a 13 8))))
      let r := if bad then (s, 4, none) else f s node (s.fwdFind node) a
      match r.2.2 with
      | some i => r.1.fwdPost tag r.2.1 i
      | none => (r.1.fwdPost tag r.2.1 (s.free 10)).took

/-- FWD_INSTALL (R305). -/
def execFwdInstall (by_ : Req) (tag : Tag) (s : State) : Host.Outcome State Fault Refusal :=
  .next <| s.fwdCmd by_ tag true fun s node e a =>
    match e with
    | some _ => (s, 2, none)
    | none =>
      match (List.range 1024).find? fun d => !s.rbit (CLASS.FWD_W0 d) 31 with
      | none => (s.evt 9 28, 1, some 0)
      | some d =>
        ((((s.wr (CLASS.FWD_W0 d) (wd (2 ^ 31 + node))).wr (CLASS.FWD_W1 d) a).wf CLASS.FWD_COUNT 10 0
          (s.rf CLASS.FWD_COUNT 10 0 + 1)), 0, some d)

/-- FWD_REMOVE (R305). -/
def execFwdRemove (by_ : Req) (tag : Tag) (s : State) : Host.Outcome State Fault Refusal :=
  .next <| s.fwdCmd by_ tag false fun s _ e _ =>
    match e with
    | none => (s, 3, none)
    | some d =>
      (((s.wr (CLASS.FWD_W0 d) 0).wr (CLASS.FWD_W1 d) 0).wf CLASS.FWD_COUNT 10 0 (s.rf CLASS.FWD_COUNT 10 0 - 1), 0, some d)

/-- FWD_SET (R305). -/
def execFwdSet (by_ : Req) (tag : Tag) (s : State) : Host.Outcome State Fault Refusal :=
  .next <| s.fwdCmd by_ tag true fun s _ e a =>
    match e with
    | none => (s, 3, none)
    | some d => (s.wr (CLASS.FWD_W1 d) a, 0, some d)

/-- FWD_LOOKUP (R305). -/
def execFwdLookup (by_ : Req) (tag : Tag) (s : State) : Host.Outcome State Fault Refusal :=
  .next <| s.fwdCmd by_ tag false fun s _ e _ =>
    match e with
    | none => (s, 3, none)
    | some d => (s, 0, some d)

/-- FWD_ACK (R305). -/
def execFwdAck (by_ : Req) (tag : Tag) (s : State) : Host.Outcome State Fault Refusal :=
  .next <| s.onWrite by_ 9 fun s => s.pathAck CLASS.FWD_RESULT 0 tag

/-- FAB_RING_RD_WRITE (R298). -/
def execFabRingRdWrite (by_ : Req) (val : Word) (s : State) : Host.Outcome State Fault Refusal :=
  .next <| s.onWrite by_ 9 fun s => s.wr CLASS.FAB_RING_RD (val &&& 0xFFF)

/-! Dozing (R300, R301). -/

/-- A time lies in a rendezvous window with its guards. -/
def State.rdvAwake (s : State) (r : Nat) : Bool :=
  let d := s.rdv r
  let k := (s.ns + d.2.2.2 - d.2.1) / max 1 d.1
  d.2.1 ≤ s.ns + d.2.2.2 && s.ns ≤ k * d.1 + d.2.1 + d.2.2.1 + d.2.2.2

/-- A radio listens wide for a peer at this time: from the cycle after the one that was missed (R301). -/
def State.wideAwake (s : State) (r : Nat) : Bool :=
  let d := s.rdv r
  (List.range 64).any fun n =>
    s.nhMon n && !s.nhWire n && s.nhRadio n = r && s.rbit (CLASS.NH_W3 n) 30 &&
      (match tget (fun _ => none) s.fabric.heardAt n with
      | none => false
      | some h =>
        let k0 := (s.ns - d.2.1) / max 1 d.1
        let first := (h - d.2.1) / max 1 d.1 + 2
        [k0 - 1, k0, k0 + 1].any fun k =>
          let t : Int := ((k * d.1 + d.2.1 : Nat) : Int)
          let c := (sval 12 (s.rf (CLASS.NH_W3 n) 27 16) * 10 * (t - h)).tdiv (10 ^ 9)
          first ≤ k && ((s.ns : Int) - t - c).natAbs * 2 ≤ d.1)

/-- A dozing radio must be awake now (R300). -/
def State.mustWake (s : State) (r : Nat) : Bool := !s.dozes r || s.rdvAwake r || s.wideAwake r

/-- DOZE_WAKE (R300, R292): enables may rise again and commands become due; the rendezvous beacon is sent at its start. -/
def execDozeWake (r : Fin 3) (s : State) : Host.Outcome State Fault Refusal :=
  .next <|
    let r := r.val
    if !s.dozing r || !s.mustWake r then s
    else
      let s1 := s.wf (CLASS.DOZE_W3 r) 31 31 0
      (s1.setTxq r 4 (s1.txq r 4)).rdvBeacon r

/-- DOZE_SLEEP (R300): no command or response of the radio's own is in progress; both enables fall and detection stops. -/
def execDozeSleep (r : Fin 3) (s : State) : Host.Outcome State Fault Refusal :=
  .next <|
    let r := r.val
    let x := s.radio r
    if s.dozing r || s.mustWake r || !s.live 9 || x.tx.isSome || x.resp.phase != .none || x.selected.isSome
        || x.mac.await.isSome then s
    else (s.wf (CLASS.DOZE_W3 r) 31 31 1).rxenChanged r

/-! The schedule (R303, R304). -/

/-- The slot whose window covers the present offset in the epoch: the lowest index wins. -/
def State.windowNow (s : State) : Option Nat :=
  let us := s.ns % 1024000 / 1000
  (List.range 16).find? fun i =>
    let w := s.rd (CLASS.SLOT_CUR i)
    bit w 31 && fld w 30 26 ≤ 16 && fld w 9 0 ≤ us && us < min 1024 (fld w 9 0 + min 1024 (fld w 20 10))

/-- FAB_EPOCH_START (R303, R304): windows of the last epoch have ended; an armed switch is made. -/
def execFabEpochStart (s : State) : Host.Outcome State Fault Refusal :=
  .next <|
    let e := s.ns / 1024000
    if !s.live 9 || s.fabric.epoch = e + 1 then s
    else
      let s1 := (s.wr CLASS.FAB_EPOCH (wd e)).modFab fun x => { x with epoch := e + 1, win := none }
      let ahead := (s.rd CLASS.FAB_SW_EPOCH - wd e).toNat
      let s2 := if s.fabric.armed && (ahead = 0 || 2 ^ 31 ≤ ahead) then
          ((List.range 16).foldl (fun (s : State) i => s.wr (CLASS.SLOT_CUR i) (s.rd (CLASS.SLOT_NEXT i))) s1
            |>.modFab fun x => { x with armed := false }).evt 9 29
        else s1
      s2.fabKick

/-- FAB_WINDOW_START (R303): the window that covers this time is in force. -/
def execFabWindowStart (s : State) : Host.Outcome State Fault Refusal :=
  .next <|
    match s.windowNow with
    | none => s
    | some w =>
      if !s.live 9 || s.fabric.win = some w then s else (s.modFab fun x => { x with win := some w }).fabKick

/-- FAB_WINDOW_END (R303): the window in force has ended. -/
def execFabWindowEnd (s : State) : Host.Outcome State Fault Refusal :=
  .next <|
    if !s.live 9 || s.fabric.win.isNone || s.windowNow = s.fabric.win then s
    else (s.modFab fun x => { x with win := s.windowNow }).fabKick

end Sys2Proof.Machine
end

