-- ==== Sys2Proof/Machine/ClsParse.lean ====
section
/-! DEFINITION. The parser of CLASS: the parse graph, length claims, layers, fragments, the flow hash and the metadata word of
the parser (R349 to R356). Offsets count bytes from the descriptor's OFS. -/

namespace Sys2Proof.Machine

/-- Byte of the parse window. -/
def pb (w : List Byte) (o : Nat) : Nat := (w.getD o 0).toNat

/-- `n` bytes of the parse window, most significant first. -/
def wv (w : List Byte) (o n : Nat) : Nat := beVal ((List.range n).map fun i => w.getD (o + i) 0)

/-- `n` bytes of the parse window in order. -/
def wbs (w : List Byte) (o n : Nat) : List Byte := (List.range n).map fun i => w.getD (o + i) 0

/-! Header kinds of R350. -/

def hETH : Nat := 1
def hVLAN : Nat := 2
def hWLAN : Nat := 3
def hLLC : Nat := 4
def hMPLS : Nat := 5
def hIPV4 : Nat := 6
def hIPV6 : Nat := 7
def hIPV6EXT : Nat := 8
def hTCP : Nat := 9
def hUDP : Nat := 10
def hICMP : Nat := 11
def hICMPV6 : Nat := 12
def hGRE : Nat := 13
def hVXLAN : Nat := 14
def hGENEVE : Nat := 15
def hGTPU : Nat := 16
def hESP : Nat := 17
def hAH : Nat := 18
def hSCTP : Nat := 19
def hPPPOE : Nat := 20
def hARP : Nat := 21

/-- A length that no bound reaches: "n beyond b" of R350. -/
def beyondLen : Nat := 2 ^ 20

/-- A byte of a header's fixed part, or its offset where it lies at or beyond the limit of what is read. -/
def fixedByte (w : List Byte) (lim o : Nat) : Except Nat Nat := if lim ≤ o then .error o else .ok (pb w o)

/-- Length of a GTP-U header whose extension headers start at `n`, the next type read (R350): each extension header gives its
length in four-octet units in its first octet and the next type in its last. -/
def gtpuLen (w : List Byte) (lim s : Nat) : Nat → Nat → Nat → Except Nat Nat
  | 0, _, _ => .ok beyondLen
  | fuel + 1, n, nxt =>
    if nxt = 0 then .ok n
    else do
      let l ← fixedByte w lim (s + n)
      if l = 0 then .ok beyondLen
      else do
        let nxt' ← fixedByte w lim (s + n + 4 * l - 1)
        gtpuLen w lim s fuel (n + 4 * l) nxt'

/-- Length of a WLAN MAC header with its security header (R350), from the frame control octets. -/
def wlanLen (fc0 fc1 : Nat) : Nat :=
  let typ := fc0 / 4 % 4
  let qos := typ = 2 && 128 ≤ fc0
  24 + (if fc1 % 4 = 3 then 6 else 0) + (if qos then 2 else 0) + (if 128 ≤ fc1 && (qos || typ = 0) then 4 else 0)
    + (if fc1 / 64 % 2 = 1 then 8 else 0)

/-- The length n of a header of kind `k` at `s` (R350), or the offset of the first byte of its fixed part that cannot be
read; `sel` is the next-header value that led to an IPV6_EXT header. -/
def hdrLen (w : List Byte) (lim k s sel : Nat) : Except Nat Nat :=
  match k with
  | 1 => .ok 14
  | 2 | 5 => .ok 4
  | 4 | 20 | 10 | 11 | 12 | 17 | 14 => .ok 8
  | 7 => .ok 40
  | 19 => .ok 12
  | 21 => .ok 28
  | 3 => do
    let a ← fixedByte w lim s
    let b ← fixedByte w lim (s + 1)
    .ok (wlanLen a b)
  | 6 => do
    let a ← fixedByte w lim s
    .ok (if a % 16 < 5 then beyondLen else a % 16 * 4)
  | 8 => if sel = 44 then .ok 8 else do
    let a ← fixedByte w lim (s + 1)
    .ok ((a + 1) * 8)
  | 9 => do
    let a ← fixedByte w lim (s + 12)
    .ok (a / 16 * 4)
  | 18 => do
    let a ← fixedByte w lim (s + 1)
    .ok ((a + 2) * 4)
  | 13 => do
    let a ← fixedByte w lim s
    .ok (4 + 4 * (a / 128 % 2 + a / 32 % 2 + a / 16 % 2))
  | 15 => do
    let a ← fixedByte w lim s
    .ok (8 + a % 64 * 4)
  | 16 => do
    let a ← fixedByte w lim s
    if a % 8 = 0 then .ok 8
    else if a / 4 % 2 = 0 then .ok 12
    else do
      let t ← fixedByte w lim (s + 11)
      gtpuLen w lim s 64 12 t
  | _ => .ok beyondLen

/-- Where a header's length claim says its data ends (R351). -/
def claim (w : List Byte) (k s : Nat) : Option Nat :=
  match k with
  | 1 => if wv w (s + 12) 2 < 0x600 then some (s + 14 + wv w (s + 12) 2) else none
  | 20 => some (s + 6 + wv w (s + 4) 2)
  | 6 => some (s + wv w (s + 2) 2)
  | 7 => some (s + 40 + wv w (s + 4) 2)
  | 10 => some (s + wv w (s + 4) 2)
  | _ => none

/-- The header an EtherType names, 0 none. -/
def ofEtherType (t : Nat) : Nat :=
  if t = 0x8100 || t = 0x88A8 || t = 0x9100 then hVLAN
  else if t = 0x0800 then hIPV4
  else if t = 0x86DD then hIPV6
  else if t = 0x8847 || t = 0x8848 then hMPLS
  else if t = 0x8864 then hPPPOE
  else if t = 0x0806 then hARP
  else 0

/-- The header an IPv4 protocol number names. -/
def ofProto (p : Nat) : Nat :=
  match p with
  | 6 => hTCP | 17 => hUDP | 1 => hICMP | 47 => hGRE | 50 => hESP | 51 => hAH | 132 => hSCTP | 4 => hIPV4 | 41 => hIPV6
  | _ => 0

/-- The header an IPv6 next-header value names. -/
def ofNextHeader (p : Nat) : Nat :=
  if p = 0 || p = 43 || p = 60 || p = 44 then hIPV6EXT else if p = 58 then hICMPV6 else ofProto p

/-- The header a GRE or GENEVE protocol names. -/
def ofEncap (t : Nat) : Nat := if t = 0x0800 then hIPV4 else if t = 0x86DD then hIPV6 else if t = 0x6558 then hETH else 0

/-- The IP version in a nibble. -/
def ofNibble (n : Nat) : Nat := if n = 4 then hIPV4 else if n = 6 then hIPV6 else 0

/-- The UDP destination ports of the parse graph. -/
structure TunPorts where
  vxlan : Nat
  geneve : Nat
  gtpu : Nat
deriving DecidableEq, Repr

/-- An IP header. -/
def isIp (k : Nat) : Bool := k = hIPV4 || k = hIPV6

/-- Place of the last IP header recorded. -/
def lastIp (l : List ClsHdr) : Option Nat := ((List.range l.length).reverse).find? fun i => isIp ((l.map (·.kind)).getD i 0)

/-- The datagram of the last IP header is a fragment (R353). -/
def ClsParse.markFrag (p : ClsParse) (off : Nat) : ClsParse := { p with frag := lastIp p.hdrs, first := off = 0 }

/-- The next header of the parse graph after the one of kind `k` recorded at `s` with length `n` (R350): its kind, 0 for none,
and the next-header value that led to it. -/
def nextHdr (w : List Byte) (ports : TunPorts) (k s n sel : Nat) (p : ClsParse) : ClsParse × Nat × Nat :=
  let lim := min p.bound w.length
  let pk := fun o => if o < lim then pb w o else 0
  let byType : Nat :=
    let t := wv w (s + n - 2) 2
    if t < 0x600 then (if pk (s + n) = 0xAA && pk (s + n + 1) = 0xAA && pk (s + n + 2) = 3 then hLLC else 0)
    else ofEtherType t
  match k with
  | 1 | 2 => (p, byType, 0)
  | 4 => (p, if wv w (s + 3) 3 = 0 || wv w (s + 3) 3 = 0xF8 then byType else 0, 0)
  | 3 =>
    let fc0 := pb w s
    let fc1 := pb w (s + 1)
    if fc0 / 4 % 4 != 2 || fc0 / 64 % 2 = 1 then (p, 0, 0)
    else if 128 ≤ fc0 && 128 ≤ pb w (s + if fc1 % 4 = 3 then 30 else 24) then ({ p with amsdu := true }, 0, 0)
    else (p, hLLC, 0)
  | 5 => (p, if pb w (s + 2) % 2 = 0 then hMPLS else ofNibble (pk (s + 4) / 16), 0)
  | 20 => (p, if wv w (s + 6) 2 = 0x21 then hIPV4 else if wv w (s + 6) 2 = 0x57 then hIPV6 else 0, 0)
  | 6 =>
    let off := wv w (s + 6) 2 % 8192
    if pb w (s + 6) / 32 % 2 = 1 || off != 0 then (p.markFrag off, 0, 0) else (p, ofProto (pb w (s + 9)), pb w (s + 9))
  | 7 => (p, ofNextHeader (pb w (s + 6)), pb w (s + 6))
  | 8 =>
    let off := wv w (s + 2) 2 / 8
    if sel = 44 && (off != 0 || pb w (s + 3) % 2 = 1) then (p.markFrag off, 0, 0) else (p, ofNextHeader (pb w s), pb w s)
  | 18 => (p, ofProto (pb w s), pb w s)
  | 10 =>
    let dp := wv w (s + 2) 2
    (p, if dp = ports.vxlan then hVXLAN else if dp = ports.geneve then hGENEVE else if dp = ports.gtpu then hGTPU else 0, 0)
  | 13 => (p, if pb w (s + 1) % 8 != 0 then 0 else ofEncap (wv w (s + 2) 2), 0)
  | 14 => (p, hETH, 0)
  | 15 => (p, ofEncap (wv w (s + 2) 2), 0)
  | 16 => (p, if pb w (s + 1) = 255 then ofNibble (pk (s + n) / 16) else 0, 0)
  | _ => (p, 0, 0)

/-- A header of kind `k` after one of kind `prev` opens the next layer (R352). -/
def opensLayer (prev k : Nat) : Bool :=
  (isIp k && (isIp prev || prev = hIPV6EXT || prev = hAH || prev = hGRE || prev = hGENEVE || prev = hGTPU))
    || (k = hETH && (prev = hGRE || prev = hVXLAN || prev = hGENEVE))

/-- A kind that L4KIND reports (R356). -/
def isL4 (k : Nat) : Bool := k = hTCP || k = hUDP || k = hICMP || k = hICMPV6 || k = hSCTP || k = hESP

/-- A recorded header's length claim (R351): the bound falls to it; a claim other than the bound is a conflict, Ethernet
padding excepted. -/
def ClsParse.applyClaim (p : ClsParse) (w : List Byte) (len k s lay : Nat) : ClsParse :=
  match claim w k s with
  | none => p
  | some c =>
    let pad := c < p.bound && len ≤ 64 && lay = 0 && !p.claimed
    { p with conf := p.conf || (c != p.bound && !pad), bound := min p.bound c, claimed := p.claimed || lay = 0 }

/-- The parser at a header of kind `k` at `s` (R350); `fuel` bounds the headers. -/
def parseFrom (w : List Byte) (len : Nat) (ports : TunPorts) : Nat → Nat → Nat → Nat → Nat → ClsParse → ClsParse
  | 0, _, _, _, _, p => p
  | fuel + 1, k, s, sel, prev, p =>
    let lay := if opensLayer prev k then p.layer + 1 else p.layer
    if k = 0 then p
    else if 12 ≤ p.hdrs.length || 4 < lay then { p with trunc := true }
    else
      match hdrLen w (min p.bound w.length) k s sel with
      | .error o => if p.bound ≤ o then { p with conf := true } else { p with trunc := true }
      | .ok n =>
        if p.bound < s + n then { p with conf := true }
        else if 256 < s + n then { p with trunc := true }
        else
          let p1 : ClsParse := { p with
            hdrs := p.hdrs ++ [{ kind := k, layer := lay, off := s, len := n }], layer := lay,
            vlans := if k = hVLAN && lay = 0 then p.vlans + 1 else p.vlans, l4 := if isL4 k then k else p.l4 }
          let r := nextHdr w ports k s n sel (p1.applyClaim w len k s lay)
          parseFrom w len ports fuel r.2.1 (s + n) r.2.2 k r.1

/-- Parse a frame of LEN bytes from byte `start` of its window (R349). -/
def parseFrame (w : List Byte) (len start : Nat) (wlan : Bool) (ports : TunPorts) : ClsParse :=
  parseFrom w len ports 13 (if wlan then hWLAN else hETH) start 0 0 { bound := len }

/-! Flow hash (R355). -/

/-- A flow tuple before the swap: source and destination as 16 bytes, ports and protocol, and where its TCP header lies. -/
structure FlowTuple where
  sa : List Byte := le 16 0
  da : List Byte := le 16 0
  sp : Nat := 0
  dp : Nat := 0
  pr : Nat := 0
  tcp : Option Nat := none
deriving DecidableEq, Repr

/-- The headers after an IP header past the extension headers of its layer, and the protocol: the last next-header value. -/
def pastExt (w : List Byte) (lay : Nat) : List ClsHdr → Nat → List ClsHdr × Nat
  | [], pr => ([], pr)
  | h :: t, pr => if h.kind = hIPV6EXT && h.layer = lay then pastExt w lay t (pb w h.off) else (h :: t, pr)

/-- The IP header that a selection names: the innermost or the outermost recorded. -/
def selectIp (p : ClsParse) (inner : Bool) : Option Nat :=
  if inner then lastIp p.hdrs else (List.range p.hdrs.length).find? fun i => isIp ((p.hdrs.map (·.kind)).getD i 0)

/-- The tuple of an IP header. -/
def ipTuple (w : List Byte) (p : ClsParse) (i : Nat) : FlowTuple :=
  match p.hdrs.drop i with
  | [] => {}
  | h :: t =>
    let v4 := h.kind = hIPV4
    let sa := if v4 then le 12 0 ++ wbs w (h.off + 12) 4 else wbs w (h.off + 8) 16
    let da := if v4 then le 12 0 ++ wbs w (h.off + 16) 4 else wbs w (h.off + 24) 16
    let r := pastExt w h.layer t (if v4 then pb w (h.off + 9) else pb w (h.off + 6))
    if p.frag = some i then { sa := sa, da := da }
    else
      match r.1 with
      | [] => { sa := sa, da := da, pr := r.2 }
      | n :: _ =>
        if n.layer = h.layer && (n.kind = hTCP || n.kind = hUDP || n.kind = hSCTP) then
          { sa := sa, da := da, sp := wv w n.off 2, dp := wv w (n.off + 2) 2, pr := r.2,
            tcp := if n.kind = hTCP then some n.off else none }
        else { sa := sa, da := da, pr := r.2 }

/-- Source and destination MAC address of an ETH or WLAN header: of a WLAN frame, the MSDU's. -/
def macPair (w : List Byte) (h : ClsHdr) : List Byte × List Byte :=
  if h.kind = hETH then (wbs w (h.off + 6) 6, wbs w h.off 6)
  else
    let ds := pb w (h.off + 1) % 4
    (wbs w (h.off + match ds with | 0 => 10 | 1 => 10 | 2 => 16 | _ => 24) 6, wbs w (h.off + if ds % 2 = 1 then 16 else 4) 6)

/-- The tuple that the flow hash takes. -/
def hashTuple (w : List Byte) (p : ClsParse) (inner : Bool) : FlowTuple :=
  match selectIp p inner with
  | some i => ipTuple w p i
  | none =>
    match p.hdrs.find? fun h => h.kind = hETH || h.kind = hWLAN with
    | some h => { sa := le 10 0 ++ (macPair w h).1, da := le 10 0 ++ (macPair w h).2 }
    | none => {}

/-- The 40 bytes of a tuple with three last bytes (R355, R365). -/
def tupleBytes (t : FlowTuple) (tail : List Byte) : List Byte := t.sa ++ t.da ++ be 2 t.sp ++ be 2 t.dp ++ le 1 t.pr ++ tail

/-- The flow hash (R355): the larger end is the second. -/
def flowHash (w : List Byte) (p : ClsParse) (inner : Bool) : Nat :=
  let t := hashTuple w p inner
  let t' := if beVal (t.da ++ be 2 t.dp) < beVal (t.sa ++ be 2 t.sp) then { t with sa := t.da, da := t.sa, sp := t.dp, dp := t.sp } else t
  crc32c (tupleBytes t' (le 3 0))

/-! Words of the parser. -/

/-- M1 after parsing (R356). -/
def ClsParse.m1 (p : ClsParse) : Nat :=
  b2n p.trunc * 2 ^ 31 + b2n p.conf * 2 ^ 30 + b2n p.frag.isSome * 2 ^ 29 + b2n p.first * 2 ^ 28 + b2n p.amsdu * 2 ^ 27
    + b2n (lastIp p.hdrs).isNone * 2 ^ 26 + p.layer % 8 * 2 ^ 21 + p.hdrs.length % 16 * 2 ^ 17 + p.l4 % 32 * 2 ^ 12
    + min 15 p.vlans * 2 ^ 8

/-- The parse summary (R354). -/
def ClsParse.summary (p : ClsParse) (m1 : Nat) : List Byte :=
  (List.range 12).flatMap (fun i =>
    le 2 (match p.hdrs.drop i with
      | [] => 0
      | h :: _ => h.kind * 2 ^ 11 + h.layer * 2 ^ 8 + h.off % 256))
    ++ le 2 p.bound ++ le 2 0 ++ le 4 m1

/-- Header instance of a kind: counted from the outermost, 7 the innermost (R358). -/
def ClsParse.inst (p : ClsParse) (kind i : Nat) : Option ClsHdr :=
  let l := p.hdrs.filter (·.kind = kind)
  if i = 7 then l.getLast? else l[i]?

/-- Bytes of a header instance for a key (R358): zero beyond the bound or the window, or where the instance is not recorded. -/
def ClsParse.hdrBytes (p : ClsParse) (w : List Byte) (kind i off n : Nat) : List Byte :=
  match p.inst kind i with
  | none => le n 0
  | some h => (List.range n).map fun j => if h.off + off + j < p.bound then w.getD (h.off + off + j) 0 else 0

end Sys2Proof.Machine
end

