-- ==== Sys2Proof/Machine/Class.lean ====
section
/-! DEFINITION. CLASS: ingress queues, stages, tables and table commands (R346 to R371). -/

namespace Sys2Proof.Machine

open Reg

/-! Ingress queues (R346, R347). -/

/-- Change the classifier's hidden state. -/
def State.modCls (s : State) (f : ClassUnit → ClassUnit) : State := { s with cls := f s.cls }

/-- The queue of an ingress. -/
def State.clsQueue (s : State) (i : Nat) : List ClsFrame := tget (fun _ => []) s.cls.queues i
/-- Replace the queue of an ingress. -/
def State.setClsQueue (s : State) (i : Nat) (l : List ClsFrame) : State :=
  s.modCls fun x => { x with queues := tput (fun _ => []) x.queues i l }

/-- CLS_STATUS: descriptors in the ingress queues. -/
def State.clsQueued (s : State) : Nat := ((List.range 11).map fun i => (s.clsQueue i).length).sum

/-- Store the number of queued descriptors in CLS_STATUS. -/
def State.syncCls (s : State) : State := s.wf CLASS.CLS_STATUS 9 0 s.clsQueued

/-- Dropped frames at the head of an ingress leave it: items leave in arrival order (R347). -/
def State.clsSettle (s : State) (i : Nat) : State :=
  (s.setClsQueue i ((s.clsQueue i).dropWhile fun f => f.out = .dropped)).syncCls

/-- Take the oldest frame handed over by an ingress into its queue, READY only (R347, R370): STALL counts as the queue
becomes full. -/
def State.clsAccept (s : State) (i : Nat) : State :=
  match s.clsIn.find? (·.ingress = i) with
  | none => s
  | some f =>
    let q := s.clsQueue i
    if s.life 9 != .ready || 64 ≤ q.length then s
    else
      let s1 := (({ s with clsIn := s.clsIn.erase f } : State).setClsQueue i (q ++ [{ src := f }])).syncCls
      if q.length = 63 then s1.sat CLASS.CLS_CNT3 15 0 1 else s1

/-- A write of CLS_INJ (R347): the descriptor enters queue 10, or waits at the attachment while it is full. -/
def State.clsInject (s : State) (val : Word) : State :=
  ({ s with clsIn := s.clsIn ++ [{ ingress := 10, desc := fld val 26 0 * 64 }] } : State).clsAccept 10

/-- CLS_INJ (R346, R347). -/
def execClsInj (by_ : Req) (val : Word) (s : State) : Host.Outcome State Fault Refusal :=
  .next <| s.onWrite by_ 9 fun s => s.clsInject val

/-! Frames. -/

/-- Replace frame `n` of an ingress queue. -/
def State.setClsFrame (s : State) (i n : Nat) (f : ClsFrame) : State := s.setClsQueue i ((s.clsQueue i).set n f)

/-- A frame is dropped: its reference is released (R346, R360). -/
def State.clsDrop (s : State) (i n : Nat) (f : ClsFrame) : State :=
  (((s.sat CLASS.CLS_FRAMES 31 0 1).freeDesc 6 f.src.desc).setClsFrame i n { f with out := .dropped }).clsSettle i

/-- The eight words of a work item (R377). -/
def itemWords (desc list domain : Nat) (m : List Nat) : List Nat :=
  let w := fun k => m.getD k 0
  [w 1 / 2 ^ 7 % 2 * 2 ^ 27 + desc / 64 % 2 ^ 27, w 0 / 2 ^ 12 * 2 ^ 12 + list, w 1 / 2 ^ 8 * 2 ^ 8 + domain, w 2,
   w 4, w 5, w 6, w 7]

/-- A frame becomes a work item (R348, R354, R360): the parse summary is written first. -/
def State.clsItem (s : State) (i n : Nat) (f : ClsFrame) (list domain : Nat) : State :=
  let d := f.src.desc
  let s1 :=
    if s.rbit CLASS.CLS_CTL 30 && 32 ≤ s.dOfs d then
      s.storeWrite 6 (s.dByteAt d 0 - 32) (f.found.summary (f.m.getD 1 0))
    else s
  ((s1.sat CLASS.CLS_FRAMES 31 0 1).setClsFrame i n { f with out := .item (itemWords d list domain f.m) }).clsSettle i

/-- A frame goes to the exception list (R348, R360). -/
def State.clsException (s : State) (i n : Nat) (f : ClsFrame) : State :=
  (s.sat CLASS.CLS_CNT2 15 0 1).clsItem i n f (s.rf CLASS.CLS_EXC 17 8) (s.rf CLASS.CLS_EXC 7 0)

/-- Disposition (R360) with word 0 of the pending result, or of the default action. -/
def State.clsDispose (s : State) (i n : Nat) (f : ClsFrame) : State :=
  let r := wd (f.pend.getD (s.rd (CLASS.ACTION (s.rf CLASS.CLS_CTL 15 8) 0)).toNat)
  let m1 := wd (f.m.getD 1 0)
  let t := bit m1 31 && !bit r 27
  let l := bit m1 30 && !bit r 26
  let g := { f with m := f.m.set 1 (putFld m1 25 24 (2 * b2n l + b2n t)).toNat }
  let v := fld r 31 29
  if bit m1 7 then s.clsException i n g
  else if (t && s.rf CLASS.CLS_CTL 29 28 = 1) || (l && s.rf CLASS.CLS_CTL 27 26 = 1) then
    (s.sat CLASS.CLS_CNT2 31 16 1).clsDrop i n g
  else if t || l || 3 ≤ v then s.clsException i n g
  else if v = 2 then (s.sat CLASS.CLS_CNT2 31 16 1).clsDrop i n g
  else
    let hash := f.m.getD 2 0
    s.clsItem i n g (fld r 10 1) ((fld r 18 11 + hash / 2 ^ 24 % 2 ^ fld r 21 19) % 256)

/-- The parse window's read (R349): the descriptor, then up to 256 bytes over at most two blocks. -/
def State.clsRead (s : State) (d : Nat) : State × Bool :=
  let r := s.descRead 6 d 2
  if !r.2 then r
  else
    let n := min 256 (s.dLen d)
    let n0 := min n (256 - s.dOfs d)
    let r1 := if n0 = 0 then (r.1, true) else r.1.storeRead 6 (s.dByteAt d 0) n0
    if !r1.2 || n = n0 then r1 else r1.1.storeRead 6 (s.dByteAt d n0) (n - n0)

/-- Parse a frame whose window has been read (R348 to R356): M0 to M4, and straight to the exception list while EN is 0. -/
def State.clsParsed (s : State) (i n : Nat) (f : ClsFrame) : State :=
  let d := f.src.desc
  let len := s.dLen d
  let win := (s.dData d).take (min 256 len)
  let ports : TunPorts := { vxlan := s.rf CLASS.TUN_PORTS 31 16, geneve := s.rf CLASS.TUN_PORTS 15 0, gtpu := s.rf CLASS.GTPU_PORT 15 0 }
  let p := parseFrame win len (if i = 8 then 16 else 0) (nbits (s.dw d 1) 19 15 ≤ 2) ports
  let m := [i * 2 ^ 28 + f.src.srcid % 4096 * 2 ^ 16 + f.src.tid % 16 * 2 ^ 12, p.m1,
    flowHash win p (s.rbit CLASS.CLS_CTL 25),
    if i = 8 then f.src.fabSrc % 2 ^ 16 * 2 ^ 16 + f.src.fabClass % 256 * 2 ^ 8 else 0,
    s.rf (CLASS.ING_CFG i) 7 0] ++ List.replicate 11 0
  let g := { f with win := win, found := p, m := m }
  let s1 := if p.trunc then s.sat CLASS.CLS_CNT1 31 16 1 else s
  let s2 := if p.conf then s1.sat CLASS.CLS_CNT1 15 0 1 else s1
  if s.rbit CLASS.CLS_CTL 31 then s2.setClsFrame i n g else s2.clsException i n g

/-- CLS_PARSE (R348 to R356, R368): the oldest unparsed frame of an ingress; a window read with bad data drops it. -/
def execClsParse (i : Fin 11) (s : State) : Host.Outcome State Fault Refusal :=
  .next <|
    match (s.clsQueue i.val).findIdx? (fun f => f.m = [] && f.out = .open_) with
    | none => s
    | some n =>
      match (s.clsQueue i.val)[n]? with
      | none => s
      | some f =>
        if !s.live 9 then s
        else
          let r := s.clsRead f.src.desc
          if r.2 then r.1.clsParsed i.val n f
          else
            let s1 := if s.storeUp then r.1.recordErr 9 0x80 0xFF 0 f.src.desc false else r.1
            (s1.sat CLASS.CLS_CNT3 31 24 1).clsDrop i.val n f

/-! Keys (R358). -/

/-- The bytes one extract appends to a key. -/
def ClsFrame.extract (f : ClsFrame) (x : Word) : List Byte :=
  let n := fld x 15 8
  let off := fld x 23 16
  if fld x 31 27 = 0 then
    let meta_ := f.m.flatMap (le 4)
    (List.range n).map fun j => meta_.getD (off + j) 0
  else f.found.hdrBytes f.win (fld x 31 27) (fld x 26 24) off n

/-- A key template. -/
def State.clsTpl (s : State) (t : Nat) : List Word := (List.range 8).map fun i => s.rd (CLASS.KEY_TPL t i)

/-- The key of a template, zero-filled or cut to a width. -/
def ClsFrame.key (f : ClsFrame) (tpl : List Word) (width : Nat) : List Byte :=
  let k := tpl.flatMap f.extract
  (List.range width).map fun j => k.getD j 0

/-- The address that an LPM stage looks up: the first used extract, of the length given and of a recorded header. -/
def ClsFrame.lpmKey (f : ClsFrame) (tpl : List Word) (n : Nat) : Option Nat :=
  match tpl.find? (fld · 15 8 != 0) with
  | none => none
  | some x =>
    if fld x 15 8 = n && (f.found.inst (fld x 31 27) (fld x 26 24)).isSome then some (beVal (f.extract x)) else none

/-! Exact-match tables (R361). -/

/-- An exact-match table is enabled. -/
def State.emOn (s : State) (t : Nat) : Bool := s.rbit (CLASS.EM_TBL_W1 t) 31
/-- First address of a table. -/
def State.emBase (s : State) (t : Nat) : Nat := s.rf (CLASS.EM_TBL_W0 t) 31 4 * 4096
/-- Key width of a table in bytes. -/
def State.emKeyw (s : State) (t : Nat) : Nat :=
  match s.rf (CLASS.EM_TBL_W1 t) 5 4 with
  | 0 => 16
  | 1 => 48
  | _ => 112
/-- SIZE_LOG2 in effect. -/
def State.emLog (s : State) (t : Nat) : Nat := clampN 4 18 (s.rf (CLASS.EM_TBL_W2 t) 4 0)
/-- Device address of an entry. -/
def State.emAddr (s : State) (t i : Nat) : Nat := s.emBase t + (s.emKeyw t + 16) * i

/-- The two candidate buckets of a key. -/
def emBuckets (t log : Nat) (key : List Byte) : Nat × Nat :=
  let h := crc32c (BitVec.ofNat 8 t :: key)
  let b1 := h % 2 ^ log
  let b2 := h / 2 ^ (32 - log)
  (b1, if b2 = b1 then b1 ^^^ 1 else b2)

/-- The eight candidate entries of a key in order. -/
def State.emPlaces (s : State) (t : Nat) (key : List Byte) : List Nat :=
  let b := emBuckets t (s.emLog t) key
  (List.range 4).map (4 * b.1 + ·) ++ (List.range 4).map (4 * b.2 + ·)

/-- An entry is in use. -/
def State.emValid (s : State) (t i : Nat) : Bool := 128 ≤ (s.rb (s.emAddr t i + s.emKeyw t + 15)).toNat

/-- The valid entry that holds a key. -/
def State.emFind (s : State) (t : Nat) (key : List Byte) : Option Nat :=
  (s.emPlaces t key).find? fun i => s.emValid t i && s.rbytes (s.emAddr t i) (s.emKeyw t) = key

/-- The reads of a key's two buckets: the first address whose read returned bad data, if one did. -/
def State.emRead (s : State) (t : Nat) (key : List Byte) : State × Option Nat :=
  let b := emBuckets t (s.emLog t) key
  let n := 4 * (s.emKeyw t + 16)
  let r := s.storeRead 6 (s.emAddr t (4 * b.1)) n
  if !r.2 then (r.1, some (s.emAddr t (4 * b.1)))
  else
    let r2 := r.1.storeRead 6 (s.emAddr t (4 * b.2)) n
    (r2.1, if r2.2 then none else some (s.emAddr t (4 * b.2)))

/-! Ternary table (R363). -/

/-- First address of CLASS local memory (R24). -/
def clsMem : Nat := 0x2090000000

/-- The lowest entry of a set that a key matches. -/
def State.ternFind (s : State) (set : Nat) (key : List Byte) : Option Nat :=
  (List.range 4096).find? fun i =>
    let a := clsMem + 80 * i
    128 ≤ (s.rb (a + 79)).toNat && (s.rb (a + 76)).toNat = set
      && (List.range 32).all fun j => (key.getD j 0 ^^^ s.rb (a + j)) &&& s.rb (a + 32 + j) = 0

/-! Longest-prefix tables (R364). -/

/-- The prefix of length `n` of an address of `w` bits. -/
def prefixOf (w n a : Nat) : Nat := a / 2 ^ (w - n) * 2 ^ (w - n)

/-- The result of the longest prefix of at most `n` bits that covers an address. -/
def lpmFind (t : Tbl (Option Nat)) (w a : Nat) : Nat → Option Nat
  | 0 => tget (fun _ => none) t 0
  | n + 1 =>
    match tget (fun _ => none) t (prefixOf w (n + 1) a * 256 + (n + 1)) with
    | some r => some r
    | none => lpmFind t w a n

/-- The routes of a family, IPv6 for 1. -/
def State.routes (s : State) (v6 : Bool) : Tbl (Option Nat) := if v6 then s.cls.lpm6 else s.cls.lpm4
/-- Replace the routes of a family. -/
def State.setRoutes (s : State) (v6 : Bool) (t : Tbl (Option Nat)) : State :=
  s.modCls fun x => if v6 then { x with lpm6 := t } else { x with lpm4 := t }
/-- The base register of a family. -/
def lpmReg (v6 : Bool) : RegId := if v6 then CLASS.LPM6_BASE else CLASS.LPM4_BASE
/-- The count register of a family. -/
def lpmCountReg (v6 : Bool) : RegId := if v6 then CLASS.LPM6_COUNT else CLASS.LPM4_COUNT

/-! Connection tracking (R365, R366). -/

/-- First address of the connection records. -/
def State.ctBase (s : State) : Nat := s.rf CLASS.CT_BASE 31 12 * 2 ^ 20

/-- The connection that holds a tuple, and in which direction. -/
def State.ctFind (s : State) (key : List Byte) : Option (Nat × Bool) :=
  (s.cls.ct.find? fun p => match p.2 with | some c => c.orig = key || c.reply = key | none => false).map fun p =>
    (p.1, match p.2 with | some c => c.orig != key | none => false)

/-- SYN, FIN and RST of a TCP header, in bits 2 to 0. -/
def tcpBits (w : List Byte) (o : Nat) : Nat :=
  let f := pb w (o + 13)
  f / 2 % 2 * 4 + f % 2 * 2 + f / 4 % 2

/-- A hit's write of CTL and LAST (R366): one merged write, when either changes. -/
def State.ctTouch (s : State) (i : Nat) (reply : Bool) (flags : Nat) : State :=
  let a := s.ctBase + 128 * i
  let old := s.rbytes a 8
  let ctl := wd (s.rm a 4) ||| wd (if reply then 16 * flags else flags)
  let new := le 4 ctl.toNat ++ le 4 (s.ns / 2 ^ 20)
  if old = new then s else s.storeWrite 6 a new

/-! Stages (R357 to R360). -/

/-- What a stage's lookup gives: it does not run, it misses, or it hits with the four words of an action record. -/
inductive ClsHit where
  | notRun
  | miss
  | hit (act : List Nat)
deriving DecidableEq, Repr

/-- The words of ACTION[a]. -/
def State.clsAction (s : State) (a : Nat) : List Nat := (List.range 4).map fun j => (s.rd (CLASS.ACTION a j)).toNat

/-- A table read of a stage returned bad data (R368): the stage misses and RD_ERR sets. -/
def State.clsRdErr (s : State) (st addr : Nat) : State := s.recordErr 9 0x80 st 0 addr false

/-- M1 with RD_ERR. -/
def ClsFrame.setRdErr (f : ClsFrame) : ClsFrame := { f with m := f.m.set 1 (putBit (wd (f.m.getD 1 0)) 7 true).toNat }

/-- A CONNTRACK lookup (R365, R366). -/
def State.ctLookup (s : State) (st : Nat) (f : ClsFrame) : State × ClsFrame × ClsHit :=
  match selectIp f.found (s.rbit CLASS.CT_BASE 1) with
  | none => (s, f, .miss)
  | some i =>
    if f.found.frag.isSome then (s, f, .miss)
    else
      let t := ipTuple f.win f.found i
      match s.ctFind (tupleBytes t (le 1 (f.m.getD 4 0) ++ le 2 0)) with
      | none => (s, f, .miss)
      | some (k, reply) =>
        let r := s.storeRead 6 (s.ctBase + 128 * k) 128
        if !r.2 then (r.1.clsRdErr st (s.ctBase + 128 * k), f.setRdErr, .miss)
        else
          let flags := match t.tcp with | some o => tcpBits f.win o | none => 0
          let act := s.clsAction (s.rf (CLASS.STAGE_W3 st) 15 8)
          (r.1.ctTouch k reply flags, f, .hit (act.set 1 (2 ^ 31 + b2n reply * 2 ^ 30 + k % 2 ^ 19)))

/-- The lookup of a stage whose condition holds (R357 to R359). -/
def State.clsLookup (s : State) (st : Nat) (f : ClsFrame) : State × ClsFrame × ClsHit :=
  let w0 := s.rd (CLASS.STAGE_W0 st)
  let tpl := s.clsTpl (fld w0 23 20)
  let lpm := fun (v6 : Bool) =>
    if !s.rbit (lpmReg v6) 0 || s.cls.clearing.contains (if v6 then 18 else 17) then ClsHit.notRun
    else
      match (f.lpmKey tpl (if v6 then 16 else 4)).bind fun a => lpmFind (s.routes v6) (if v6 then 128 else 32) a (if v6 then 128 else 32) with
      | none => .miss
      | some r => .hit ((s.clsAction (r / 2 ^ 24)).set 1 (r % 2 ^ 24))
  match fld w0 30 28 with
  | 0 =>
    let t := fld w0 27 24
    if !s.emOn t || s.cls.clearing.contains t then (s, f, .notRun)
    else
      let key := f.key tpl (s.emKeyw t)
      let r := s.emRead t key
      match r.2 with
      | some a => (r.1.clsRdErr st a, f.setRdErr, .miss)
      | none =>
        match s.emFind t key with
        | none => (r.1, f, .miss)
        | some i => (r.1, f, .hit ((List.range 4).map fun j => s.rm (s.emAddr t i + s.emKeyw t + 4 * j) 4))
  | 1 =>
    match s.ternFind (fld w0 15 8) (f.key tpl 32) with
    | none => (s, f, .miss)
    | some i => (s, f, .hit ((List.range 4).map fun j => s.rm (clsMem + 80 * i + 64 + 4 * j) 4))
  | 2 => (s, f, lpm false)
  | 3 => (s, f, lpm true)
  | 4 => if !s.rbit CLASS.CT_BASE 0 || s.cls.clearing.contains 16 then (s, f, .notRun) else s.ctLookup st f
  | _ => (s, f, .notRun)

/-- Apply an action record (R359). -/
def ClsFrame.apply (f : ClsFrame) (act : List Nat) : ClsFrame :=
  let w := fun j => wd (act.getD j 0)
  let mw := fld (w 0) 25 22
  let g := if 4 ≤ mw then { f with m := f.m.set mw (((wd (f.m.getD mw 0)) &&& ~~~ w 2) ||| (w 1 &&& w 2)).toNat } else f
  if fld (w 0) 31 29 = 0 then g else { g with pend := some (act.getD 0 0) }

/-- One stage of a frame (R357): the frame after it, and whether a STOP ends the stages. -/
def State.clsStage (s : State) (st : Nat) (f : ClsFrame) : State × ClsFrame × Bool :=
  let w0 := s.rd (CLASS.STAGE_W0 st)
  if !bit w0 31 || 4 < fld w0 30 28
      || (wd (f.m.getD (fld w0 19 16) 0) &&& s.rd (CLASS.STAGE_W1 st)) != s.rd (CLASS.STAGE_W2 st) then (s, f, false)
  else
    let r := s.clsLookup st f
    match r.2.2 with
    | .notRun => (r.1, r.2.1, false)
    | .miss =>
      let act := s.clsAction (s.rf (CLASS.STAGE_W3 st) 7 0)
      (r.1.sat (CLASS.STAGE_MISS st) 31 0 1, r.2.1.apply act, bit (wd (act.getD 0 0)) 28)
    | .hit act => (r.1.sat (CLASS.STAGE_HIT st) 31 0 1, r.2.1.apply act, bit (wd (act.getD 0 0)) 28)

/-- CLS_STAGE_LOOKUP (R357 to R360): the next stage of frame `n` of an ingress queue; after the last, or a STOP, the frame is
disposed of. -/
def execClsStageLookup (i : Fin 11) (n : Fin 64) (s : State) : Host.Outcome State Fault Refusal :=
  .next <|
    match (s.clsQueue i.val)[n.val]? with
    | none => s
    | some f =>
      if !s.live 9 || f.m = [] || f.out != .open_ || 8 ≤ f.stage then s
      else
        let r := s.clsStage f.stage f
        let g := { r.2.1 with stage := f.stage + 1 }
        if r.2.2 || f.stage = 7 then r.1.clsDispose i.val n.val g else r.1.setClsFrame i.val n.val g

/-- Frames left in CLASS are dropped (R370): each counts DROP. -/
def State.clsFlush (s : State) : State :=
  let fs := (List.range 11).flatMap s.clsQueue
  let s1 := (fs.filter (·.out != .dropped)).foldl (fun s f => (s.sat CLASS.CLS_CNT2 31 16 1).freeDesc 6 f.src.desc) s
  (s1.modCls fun x => { x with queues := [] }).syncCls

/-! Table regions (R362). -/

/-- Zeros written over a range of the store by a port. -/
def State.storeZero (s : State) (port a n : Nat) : State :=
  if !s.storeUp then (s.earlyWrite 8).recordErr (portTile port) 8 noUnit 0 a false else (s.touch port a n).clearMem a n

/-- A table becomes enabled and its region starts to be cleared, where the region lies in the software range. -/
def State.tableOn (s : State) (t : Nat) (reg : RegId) (enBit base size : Nat) (count : RegId) : State :=
  if storeEnd < base + size then s
  else
    (((s.wr reg (putBit (s.rd reg) enBit true)).wr count 0).storeZero 6 base size).modCls fun x => { x with
      clearing := if x.clearing.contains t then x.clearing else x.clearing ++ [t]
      ct := if t = 16 then [] else x.ct
      lpm4 := if t = 17 then [] else x.lpm4
      lpm6 := if t = 18 then [] else x.lpm6 }

/-- The register that enables a table: EM_TBL[t].W1, CT_BASE, LPM4_BASE or LPM6_BASE. -/
def tableReg (t : Nat) : RegId :=
  match t with
  | 16 => CLASS.CT_BASE
  | 17 => CLASS.LPM4_BASE
  | 18 => CLASS.LPM6_BASE
  | _ => CLASS.EM_TBL_W1 t

/-- A write of the register that enables a table (R362): BASE and KEYW ignore it while EN is 1. -/
def State.tableWrite (s : State) (t : Nat) (val : Word) : State :=
  let reg := tableReg t
  if t < 16 then
    if s.rbit reg 31 then s.wr reg (putBit (s.rd reg) 31 (bit val 31))
    else
      let s1 := s.wr reg (val &&& 0x30)
      if bit val 31 then s1.tableOn t reg 31 (s1.emBase t) ((s1.emKeyw t + 16) * (4 * 2 ^ s1.emLog t)) (CLASS.EM_TBL_W3 t) else s1
  else
    let inner : Word := if t = 16 then 2 else 0
    if s.rbit reg 0 then s.wr reg ((s.rd reg &&& 0xFFFFF000) ||| (val &&& (inner ||| 1)))
    else
      let s1 := s.wr reg (val &&& (0xFFFFF000 ||| inner))
      if bit val 0 then
        s1.tableOn t reg 0 (fld val 31 12 * 2 ^ 20) ((if t = 16 then 80 else 64) * 2 ^ 20)
          (if t = 16 then CLASS.CT_COUNT else lpmCountReg (t = 18))
      else s1

/-- TABLE_ENABLE (R362): a write of EM_TBL[t].W1, CT_BASE, LPM4_BASE or LPM6_BASE. -/
def execTableEnable (by_ : Req) (t : Fin 19) (val : Word) (s : State) : Host.Outcome State Fault Refusal :=
  .next <| s.onWrite by_ 9 fun s => s.tableWrite t.val val

/-- TABLE_CLEAR_DONE (R362): lookups and commands proceed. -/
def execTableClearDone (t : Fin 19) (s : State) : Host.Outcome State Fault Refusal :=
  .next <| s.modCls fun x => { x with clearing := x.clearing.filter (· != t.val) }

/-! Table commands (R367). -/

/-- A write of TCMD[k].CMD: taken with the arguments, or dropped and counted. -/
def State.tcmd (s : State) (by_ : Req) (k op table len : Nat) (tag : BitVec 4) : State :=
  s.onWrite by_ 9 fun s =>
    if !s.pathFree (CLASS.TCMD_RES k) || !s.live 9 then s.sat CLASS.CLS_CNT3 23 16 1
    else
      (s.wr (CLASS.TCMD_RES k) (wd (2 ^ 30 + tag.toNat))).modCls fun x => { x with
        cmds := x.cmds ++ [{ slot := k, op := op, table := table, len := len, tag := tag.toNat,
                             args := (List.range 5).map fun j => (s.rd (CLASS.TCMD_ARG k j)).toNat }] }

/-- EM_INSERT (R367). -/
def execEmInsert (by_ : Req) (k : Fin 16) (table : BitVec 4) (tag : BitVec 4) (s : State) : Host.Outcome State Fault Refusal :=
  .next <| s.tcmd by_ k.val 0 table.toNat 0 tag
/-- EM_DELETE (R367). -/
def execEmDelete (by_ : Req) (k : Fin 16) (table : BitVec 4) (tag : BitVec 4) (s : State) : Host.Outcome State Fault Refusal :=
  .next <| s.tcmd by_ k.val 1 table.toNat 0 tag
/-- EM_SET (R367). -/
def execEmSet (by_ : Req) (k : Fin 16) (table : BitVec 4) (tag : BitVec 4) (s : State) : Host.Outcome State Fault Refusal :=
  .next <| s.tcmd by_ k.val 2 table.toNat 0 tag
/-- EM_LOOKUP (R367). -/
def execEmLookup (by_ : Req) (k : Fin 16) (table : BitVec 4) (tag : BitVec 4) (s : State) : Host.Outcome State Fault Refusal :=
  .next <| s.tcmd by_ k.val 3 table.toNat 0 tag
/-- ROUTE_ADD (R364, R367). -/
def execRouteAdd (by_ : Req) (k : Fin 16) (table : BitVec 4) (len : BitVec 8) (tag : BitVec 4) (s : State) :
    Host.Outcome State Fault Refusal := .next <| s.tcmd by_ k.val 4 table.toNat len.toNat tag
/-- ROUTE_DEL (R367). -/
def execRouteDel (by_ : Req) (k : Fin 16) (table : BitVec 4) (len : BitVec 8) (tag : BitVec 4) (s : State) :
    Host.Outcome State Fault Refusal := .next <| s.tcmd by_ k.val 5 table.toNat len.toNat tag
/-- CT_CREATE (R367). -/
def execCtCreate (by_ : Req) (k : Fin 16) (tag : BitVec 4) (s : State) : Host.Outcome State Fault Refusal :=
  .next <| s.tcmd by_ k.val 6 0 0 tag
/-- CT_DELETE (R367). -/
def execCtDelete (by_ : Req) (k : Fin 16) (tag : BitVec 4) (s : State) : Host.Outcome State Fault Refusal :=
  .next <| s.tcmd by_ k.val 7 0 0 tag
/-- TCMD_ILLEGAL_OP (R367): OP 8 to 15. -/
def execTcmdIllegalOp (by_ : Req) (k : Fin 16) (op : Fin 8) (tag : BitVec 4) (s : State) : Host.Outcome State Fault Refusal :=
  .next <| s.tcmd by_ k.val (8 + op.val) 0 0 tag

/-- A write of TCMD[k].ACK (R28, R367). -/
def State.tcmdAck (s : State) (k : Nat) (tag : Nat) : State :=
  if s.rbit (CLASS.TCMD_RES k) 31 && s.rf (CLASS.TCMD_RES k) 3 0 = tag then s.wr (CLASS.TCMD_RES k) 0 else s

/-- TCMD_ACK (R28, R367). -/
def execTcmdAck (by_ : Req) (k : Fin 16) (tag : BitVec 4) (s : State) : Host.Outcome State Fault Refusal :=
  .next <| s.onWrite by_ 9 fun s => s.tcmdAck k.val tag.toNat

/-- The result codes of table commands. -/
def tDONE : Nat := 0
def tFULL : Nat := 1
def tIN_USE : Nat := 2
def tNOT_FOUND : Nat := 3
def tINVALID : Nat := 4
def tILLEGAL : Nat := 5

/-- Address of a command's image. -/
def ClsCmd.image (c : ClsCmd) : Nat := c.args.getD 1 0 + c.args.getD 2 0 % 256 * 2 ^ 32

/-- An exact-match command (R361, R367): its code and index. -/
def State.emDo (s : State) (c : ClsCmd) : State × Nat × Nat :=
  let t := c.table
  let kw := s.emKeyw t
  let n := if c.op = 0 || c.op = 2 then kw + 16 else kw
  if !s.emOn t || storeEnd < c.image + n then (s, tINVALID, 0)
  else
    let r := s.storeRead 6 c.image n
    if !r.2 then (r.1, tINVALID, 0)
    else
      let img := s.rbytes c.image n
      let key := img.take kw
      let r2 := r.1.emRead t key
      let act := (img.drop kw).set 15 ((img.getD (kw + 15) 0) ||| 0x80)
      if r2.2.isSome then (r2.1, tINVALID, 0)
      else
        match s.emFind t key, c.op with
        | some _, 0 => (r2.1, tIN_USE, 0)
        | none, 0 =>
          match (s.emPlaces t key).find? (!s.emValid t ·) with
          | none => (r2.1.evt 9 17, tFULL, 0)
          | some i => ((r2.1.storeWrite 6 (s.emAddr t i) (key ++ act)).sat (CLASS.EM_TBL_W3 t) 20 0 1, tDONE, i)
        | none, _ => (r2.1, tNOT_FOUND, 0)
        | some i, 1 =>
          let s1 := r2.1.storeWrite 6 (s.emAddr t i) (le (kw + 16) 0)
          (s1.wf (CLASS.EM_TBL_W3 t) 20 0 (s1.rf (CLASS.EM_TBL_W3 t) 20 0 - 1), tDONE, i)
        | some i, 2 => (r2.1.storeWrite 6 (s.emAddr t i + kw) act, tDONE, i)
        | some i, _ => (r2.1, tDONE, i)

/-- A route command (R364, R367): its code. -/
def State.routeDo (s : State) (c : ClsCmd) : State × Nat × Nat :=
  let v6 := c.table = 1
  let w := if v6 then 128 else 32
  let a := fun j => c.args.getD j 0
  let pfx := if v6 then a 1 * 2 ^ 96 + a 2 * 2 ^ 64 + a 3 * 2 ^ 32 + a 4 else a 1
  let routes := s.routes v6
  let k := pfx * 256 + c.len
  let cnt := lpmCountReg v6
  let n := s.rf cnt 20 0
  let stored := w ≥ c.len && (tget (fun _ => none) routes k).isSome
  if 1 < c.table || !s.rbit (lpmReg v6) 0 then (s, tINVALID, 0)
  else if c.op = 5 then
    if stored then ((s.setRoutes v6 (tput (fun _ => none) routes k none)).wf cnt 20 0 (n - 1), tDONE, 0) else (s, tNOT_FOUND, 0)
  else if w < c.len || prefixOf w c.len pfx != pfx then (s, tINVALID, 0)
  else if !stored && (if v6 then 262144 else 1048576) ≤ n then (s.evt 9 18, tFULL, 0)
  else ((s.setRoutes v6 (tput (fun _ => none) routes k (some (a 0)))).wf cnt 20 0 (if stored then n else n + 1), tDONE, 0)

/-- The lowest free connection index. -/
def State.ctFree (s : State) : Nat := ((s.cls.ct.map (·.1)).foldl (fun n k => if k = n then n + 1 else n) 0)

/-- A connection command (R365, R367): its code and index. -/
def State.ctDo (s : State) (c : ClsCmd) (indexFull : Bool) : State × Nat × Nat :=
  let n := s.rf CLASS.CT_COUNT 20 0
  if !s.rbit CLASS.CT_BASE 0 then (s, tINVALID, 0)
  else if c.op = 7 then
    let i := c.args.getD 0 0
    if (tget (fun _ => none) s.cls.ct i).isSome then
      (((s.storeWrite 6 (s.ctBase + 128 * i) (le 4 0)).modCls fun x => { x with ct := terase x.ct i }).wf CLASS.CT_COUNT 20 0 (n - 1),
        tDONE, 0)
    else (s, tNOT_FOUND, 0)
  else if storeEnd < c.image + 128 then (s, tINVALID, 0)
  else
    let r := s.storeRead 6 c.image 128
    if !r.2 then (r.1, tINVALID, 0)
    else
      let img := s.rbytes c.image 128
      let conn : CtConn := { orig := (img.drop 8).take 40, reply := (img.drop 48).take 40 }
      if (s.ctFind conn.orig).isSome || (s.ctFind conn.reply).isSome then (r.1, tIN_USE, 0)
      else if 524288 ≤ n || indexFull then (r.1.evt 9 19, tFULL, 0)
      else
        let i := s.ctFree
        let rec_ := le 4 (2 ^ 31) ++ le 4 (s.ns / 2 ^ 20) ++ img.drop 8
        (((r.1.storeWrite 6 (s.ctBase + 128 * i) rec_).modCls fun x => { x with
            ct := tput (fun _ => none) x.ct i (some conn) }).wf CLASS.CT_COUNT 20 0 (n + 1), tDONE, i)

/-- The table a command waits for while it is being cleared, if it names one. -/
def ClsCmd.waitsFor (c : ClsCmd) : Option Nat :=
  if c.op < 4 then some c.table
  else if c.op < 6 then (if c.table = 0 then some 17 else if c.table = 1 then some 18 else none)
  else if c.op < 8 then some 16
  else none

/-- A command's code and index. -/
def State.tcmdDo (s : State) (c : ClsCmd) (indexFull : Bool) : State × Nat × Nat :=
  if c.op < 4 then s.emDo c
  else if c.op < 6 then s.routeDo c
  else if c.op < 8 then s.ctDo c indexFull
  else (s, tILLEGAL, 0)

/-- TABLE_COMMAND_DONE (R367, R368): the oldest command takes effect and posts its result; a command to a table that is being
cleared waits. -/
def execTableCommandDone (indexFull : Bool) (s : State) : Host.Outcome State Fault Refusal :=
  .next <|
    match s.cls.cmds with
    | [] => s
    | c :: rest =>
      if !s.active 9 || (c.waitsFor.any fun t => s.cls.clearing.contains t) then s
      else
        let r := (s.modCls fun x => { x with cmds := rest }).tcmdDo c indexFull
        (r.1.wr (CLASS.TCMD_RES c.slot) (wd (2 ^ 31 + r.2.1 * 2 ^ 27 + r.2.2 % 2 ^ 20 * 16 + c.tag))).evt 9 16

end Sys2Proof.Machine
end

