-- ==== Sys2Proof/Machine/Sched.lean ====
section
/-! DEFINITION. SCHED and the engine clusters: work items, ready lists, dispatch, order domains and release, cancellation,
the decision trace, engine clocks and substitution (R372 to R398). -/

namespace Sys2Proof.Machine

open Reg

/-! Hidden state. -/

/-- Change SCHED's hidden state. -/
def State.modSched (s : State) (f : SchedUnit → SchedUnit) : State := { s with sched := f s.sched }

/-- The item in a slot. -/
def State.item (s : State) (k : Nat) : Option WorkItem := tget (fun _ => none) s.sched.items k

/-- SCHED_STATUS (R395): items held, and those whose record is on chip. -/
def State.syncItems (s : State) : State :=
  s.wr SCHED.SCHED_STATUS (wd (s.sched.items.length * 2 ^ 16 + s.sched.items.countP fun p => p.1 < 1024))

/-- Replace the item in a slot. -/
def State.setItem (s : State) (k : Nat) (x : Option WorkItem) : State :=
  (s.modSched fun u => { u with items := tput (fun _ => none) u.items k x }).syncItems

/-- Words of an item's record (R377). -/
def WorkItem.w (x : WorkItem) (i : Nat) : Word := wd (x.words.getD i 0)
/-- UNORD of an item. -/
def WorkItem.unord (x : WorkItem) : Bool := bit (x.w 0) 31
/-- Descriptor address of an item, 0 for none. -/
def WorkItem.desc (x : WorkItem) : Nat := 64 * fld (x.w 0) 26 0
/-- Ready list of an item. -/
def WorkItem.list (x : WorkItem) : Nat := fld (x.w 1) 9 0
/-- Order domain of an item. -/
def WorkItem.dom (x : WorkItem) : Nat := fld (x.w 2) 7 0
/-- Flow bucket of an item. -/
def WorkItem.bucket (x : WorkItem) : Nat := fld (x.w 3) 11 0
/-- An item's handle (R376). -/
def WorkItem.handle (x : WorkItem) (k : Nat) : Nat := 2 ^ 31 + x.gen % 65536 * 4096 + k

/-- The slot of a handle that is known (R376). -/
def State.known (s : State) (h : Nat) : Option Nat :=
  match s.item (h % 4096) with
  | some x => if x.handle (h % 4096) = h then some (h % 4096) else none
  | none => none

/-- Overflow region in use (R395). -/
def State.ovfOn (s : State) : Bool := s.rbit SCHED.SCHED_OVF 0
/-- Address of the overflow record of a slot. -/
def State.ovfAddr (s : State) (k : Nat) : Nat := s.rf SCHED.SCHED_OVF 31 4 * 4096 + 32 * (k - 1024)

/-- SCHED takes arrivals (R378). -/
def State.schedOn (s : State) : Bool := s.life 10 = .ready && s.rbit SCHED.SCHED_CTL 31 && s.ovfOn

/-- A write of SCHED_OVF (R395): BASE ignores it while EN is 1; EN reads 0 where the region leaves the software range. -/
def State.ovfWrite (s : State) (val : Word) : State :=
  let base := if s.ovfOn then s.rf SCHED.SCHED_OVF 31 4 else fld val 31 4
  s.wr SCHED.SCHED_OVF (wd (base * 16 + b2n (bit val 0 && base * 4096 + 98304 ≤ storeEnd)))

/-! Decision trace (R391). -/

/-- A write of TRC_CTL: the count of arrivals starts again where EN rises. -/
def State.trcWrite (s : State) (val : Word) : State :=
  let s1 := if bit val 31 && !s.rbit SCHED.TRC_CTL 31 then s.modSched fun u => { u with traced := 0 } else s
  s1.wr SCHED.TRC_CTL (val &&& 0x80FF000F)

/-- Write one trace record of a sampled item: `marks` are bits 15 and 14 of LIST, `voided` FLAGS bit 1, `ns` the wait. -/
def State.trace (s : State) (k : Nat) (x : WorkItem) (event eng marks : Nat) (voided : Bool) (ns : Nat) : State :=
  if !x.sampled || !s.rbit SCHED.TRC_CTL 31 || !s.rbit SCHED.TRC_CTL (16 + event) then s
  else
    let n := 2 ^ clampN 8 15 (s.rf SCHED.TRC_BASE 3 0)
    let w := s.rf SCHED.TRC_WR 14 0 % n
    let r := s.rf SCHED.TRC_RD 14 0 % n
    let base := s.rf SCHED.TRC_BASE 31 4 * 4096
    if (w + 1) % n = r || storeEnd < base + 16 * n then (s.sat SCHED.SCHED_CNT3 31 16 1).evt 10 17
    else
      let bytes := le 4 s.ns ++ le 4 (x.handle k) ++ le 1 event ++ le 1 eng ++ le 2 (x.list + marks) ++ le 1 x.dom
        ++ le 1 (b2n x.unord + 2 * b2n voided) ++ le 2 (min 65535 (ns / 8))
      ((s.storeWrite 7 (base + 16 * w) bytes).wf SCHED.TRC_WR 14 0 ((w + 1) % n)).evt 10 16

/-! Ready lists (R379). -/

/-- READY items of a list, the oldest first. -/
def State.readyList (s : State) (l : Nat) : List Nat := tget (fun _ => []) s.sched.lists l

/-- Replace a ready list, with its depth and greatest depth (R390). -/
def State.setReadyList (s : State) (l : Nat) (x : List Nat) : State :=
  let s1 := s.modSched fun u => { u with lists := tput (fun _ => []) u.lists l x }
  s1.wr (SCHED.LIST_STAT l) (wd (max (s.rf (SCHED.LIST_STAT l) 31 16) x.length * 2 ^ 16 + x.length))

/-- An item becomes READY at the end of its list. -/
def State.makeReady (s : State) (k : Nat) (x : WorkItem) : State :=
  (s.setItem k (some { x with st := .ready, readyAt := s.clock })).setReadyList x.list (s.readyList x.list ++ [k])

/-! Engines (R372, R380). -/

/-- Tile of a cluster. -/
def engTile (c : Nat) : Nat := 11 + c

/-- Items in an engine's dispatch queue. -/
def State.dispatchQ (s : State) (g : Nat) : List Nat := tget (fun _ => []) s.sched.dq g
/-- Replace an engine's dispatch queue. -/
def State.setDispatchQ (s : State) (g : Nat) (l : List Nat) : State :=
  s.modSched fun u => { u with dq := tput (fun _ => []) u.dq g l }

/-- Items held by the threads of an engine. -/
def State.engHeld (s : State) (g : Nat) : Nat :=
  s.sched.items.countP fun p => match p.2 with | some x => x.st = .held && x.eng = g | none => false

/-- Load of an engine. -/
def State.engLoad (s : State) (g : Nat) : Nat := (s.dispatchQ g).length + s.engHeld g

/-- The substitution in progress in a cluster. -/
def State.substOf (s : State) (c : Nat) : Option Subst := tget (fun _ => none) s.subst c
/-- Engine `g` is under substitution. -/
def State.engSubst (s : State) (g : Nat) : Bool := (s.substOf (g / 8)).any fun x => x.eng = g % 8

/-- The keys of an engine's threads. -/
def engKeys (g : Nat) : List Nat := (List.range 4).map fun t => threadKey (engTile (g / 8)) (g % 8) t

/-- Engine `g` is eligible (R380). -/
def State.eligible (s : State) (g : Nat) : Bool :=
  s.rbit SCHED.ENG_EN g && s.life (engTile (g / 8)) = .ready && (engKeys g).any (fun k => (s.thread k).run != .stopped)
    && !s.engSubst g && (s.dispatchQ g).length < 8

/-- ENG_LOAD[g] as it reads (R390). -/
def State.engLoadWord (s : State) (g : Nat) : Word :=
  wd (b2n (s.engSubst g) * 2 ^ 31 + b2n (s.eligible g) * 2 ^ 30 + (s.dispatchQ g).length % 16 * 16 + s.engHeld g % 8)

/-! Acceptance (R378). -/

/-- What an arriving record meets. -/
inductive Room where
  | off
  | full
  | domain
  | ok
deriving DecidableEq, Repr

/-- Whether a record can be accepted (R378); an UNORD item takes no ticket. -/
def State.room (s : State) (words : List Nat) : Room :=
  let x : WorkItem := { gen := 0, words := words, st := .ready }
  if !s.schedOn then .off
  else if 4096 ≤ s.sched.items.length then .full
  else if !x.unord && 1024 ≤ s.rf (SCHED.DOM_STAT x.dom) 26 16 then .domain
  else .ok

/-- The lowest free slot. -/
def State.freeSlot (s : State) : Nat := (s.sched.items.map (·.1)).foldl (fun n k => if k = n then n + 1 else n) 0

/-- Accept an item (R376 to R378, R383): its slot's generation advances, it takes its ticket, and it is READY or PENDING. The
handle is answered. -/
def State.accept (s : State) (words0 : List Nat) : State × Nat :=
  let words := (words0.set 1 ((wd (words0.getD 1 0)) &&& 0xFFFFF3FF).toNat).take 8
  let k := s.freeSlot
  let gen := (tget (fun _ => 0) s.sched.gens k + 1) % 65536
  let cfg := s.rd (SCHED.LIST_CFG (fld (wd (words.getD 1 0)) 9 0))
  let tr := s.rbit SCHED.TRC_CTL 31
  let x : WorkItem := {
    gen := (gen + s.sched.genAdd) % 65536, words := words, st := .ready, seq := s.sched.seq
    sampled := tr && bit cfg 28 && s.sched.traced % 2 ^ s.rf SCHED.TRC_CTL 3 0 = 0 }
  let s1 := (s.modSched fun u => { u with
    gens := tput (fun _ => 0) u.gens k gen, seq := u.seq + 1, traced := if tr then u.traced + 1 else u.traced
    doms := if x.unord then u.doms else tput (fun _ => []) u.doms x.dom (tget (fun _ => []) u.doms x.dom ++ [k]) }).sat
    SCHED.SCHED_CNT0 31 0 1
  let ds := SCHED.DOM_STAT x.dom
  let s2 := if x.unord then s1 else s1.wr ds (wd ((s1.rf ds 26 16 + 1) * 2 ^ 16 + (s1.rf ds 15 0 + 1) % 65536))
  let s3 := if 1024 ≤ k then s2.storeWrite 7 (s2.ovfAddr k) (words.flatMap (le 4)) else s2
  let s4 := (s3.setItem k (some x)).trace k x 0 0xFF 0 false 0
  let delay := fld (x.w 0) 30 28
  (if delay = 0 then s4.makeReady k x
   else s4.setItem k (some { x with st := .pending (s.clock + 500 * 4 ^ (delay - 1)) }), x.handle k)

/-- An item is refused at 4,096 (R389). -/
def State.schedFull (s : State) : State := (s.sat SCHED.SCHED_CNT2 15 8 1).evt 10 18

/-! Threads that wait for SCHED. -/

/-- Write predicate `p` of a thread; P0 is always true (R37). -/
def Thread.setPred (x : Thread) (p : Nat) (v : Bool) : Thread :=
  if p % 8 = 0 then x else { x with pr := if v then x.pr ||| BitVec.ofNat 8 (2 ^ (p % 8)) else x.pr &&& ~~~ BitVec.ofNat 8 (2 ^ (p % 8)) }

/-- SCHED answers an ENQ (R104). -/
def State.enqAnswer (s : State) (key : Nat) (ok : Bool) (h : Nat) : State :=
  let x := s.thread key
  match x.run with
  | .enq p => s.setThread key { (x.setPred p ok) with a := wd h, run := .running }
  | _ => s

/-- SCHED answers a CANCEL (R105). -/
def State.cancelAnswer (s : State) (key : Nat) (ok : Bool) : State :=
  let x := s.thread key
  if x.run = .cancel then s.setThread key { x with a := wd (b2n ok), run := .running } else s

/-- SCHED_ITEM_ARRIVE (R104, R347, R378, R407). -/
def execSchedItemArrive (src : ItemSrc) (s : State) : Host.Outcome State Fault Refusal :=
  .next <|
    match src with
    | .cls i =>
      match s.clsQueue i.val with
      | [] => s
      | f :: rest =>
        match f.out with
        | .item words =>
          if !s.live 9 then s
          else match s.room words with
            | .ok => ((s.accept words).1.setClsQueue i.val rest).clsSettle i.val
            | .full => s.schedFull
            | _ => s
        | _ => s
    | .cipher =>
      match s.cipher.items with
      | [] => s
      | words :: rest =>
        match s.room words with
        | .ok =>
          let r := (s.accept words).1
          { r with cipher := { r.cipher with items := rest } }
        | .full => s.schedFull
        | _ => s
    | .enq n =>
      match s.sched.enqs[n]? with
      | none => s
      | some (key, words) =>
        let taken := fun (s : State) => s.modSched fun u => { u with enqs := u.enqs.eraseIdx n }
        match s.room words with
        | .ok =>
          let r := s.accept words
          (taken r.1).enqAnswer key true r.2
        | .full => (taken s.schedFull).enqAnswer key false 0
        | .off => (taken s).enqAnswer key false 0
        | .domain => s

/-- DELAY_EXPIRE (R378): a PENDING item whose delay has run becomes READY. -/
def execDelayExpire (slot : Fin 4096) (s : State) : Host.Outcome State Fault Refusal :=
  .next <|
    match s.item slot.val with
    | none => s
    | some x =>
      match x.st with
      | .pending due => if due ≤ s.clock && s.live 10 then (s.makeReady slot.val x).trace slot.val x 1 0xFF 0 false 0 else s
      | _ => s

/-! Dispatch (R381). -/

/-- The least loaded of a set of engines, the lowest number among equals. -/
def State.leastLoaded (s : State) (gs : List Nat) : Option Nat :=
  gs.foldl (fun b g => match b with
    | none => some g
    | some h => if s.engLoad g < s.engLoad h then some g else b) none

/-- The engines that may take the head of a list. -/
def State.listEngines (s : State) (l : Nat) : List Nat :=
  let m := s.rd (SCHED.GROUP_MASK (s.rf (SCHED.LIST_CFG l) 19 16))
  (List.range 32).filter fun g => bit m g && s.eligible g

/-- Enabled, non-empty lists of a priority in round-robin order after the list last served. -/
def State.listOrder (s : State) (pri : Nat) : List Nat :=
  let ls := (s.sched.lists.map (·.1)).filter fun l => s.rbit (SCHED.LIST_CFG l) 31 && s.rf (SCHED.LIST_CFG l) 27 26 = pri
  let last := tget (fun _ => 0) s.sched.rr pri
  ls.filter (last ≤ ·) ++ ls.filter (· < last)

/-- The HIST bin of a wait in ns (R390). -/
def histBin (w : Nat) : Nat := ((List.range 7).find? fun k => w < 128 * 4 ^ k).getD 7

/-- Move the head of a list to an engine's dispatch queue. -/
def State.dispatch (s : State) (l : Nat) : State :=
  match s.readyList l with
  | [] => s
  | k :: rest =>
    match s.item k with
    | none => s
    | some x =>
      let gs := s.listEngines l
      let cfg := s.rd (SCHED.LIST_CFG l)
      let b := s.rd (SCHED.AFF x.bucket)
      let thr := min 12 (s.rf SCHED.SCHED_CTL 11 8)
      let affine := bit cfg 30 && bit b 31 && gs.contains (fld b 4 0) && s.engLoad (fld b 4 0) ≤ thr
      match (if affine then some (fld b 4 0) else s.leastLoaded gs) with
      | none => s
      | some g =>
        let wait := (s.clock - x.readyAt) * 2
        let y := { x with st := ItemState.dispatched, eng := g }
        let s1 := ((s.setReadyList l rest).setItem k (some y)).setDispatchQ g (s.dispatchQ g ++ [k])
        let s2 := (s1.wr (SCHED.AFF x.bucket) (wd (2 ^ 31 + g))).sat SCHED.SCHED_CNT1 31 0 1
        let s3 := if bit cfg 29 then s2.sat (SCHED.HIST (histBin wait)) 31 0 1 else s2
        let s4 := s3.modSched fun u => { u with rr := tput (fun _ => 0) u.rr (fld cfg 27 26) (l + 1) }
        s4.trace k y 2 g (if affine then 2 ^ 15 else if bit b 31 && fld b 4 0 != g then 2 ^ 14 else 0) false wait

/-- SCHED_DISPATCH (R381): at most one item, from the first list in order whose head can be placed. -/
def execSchedDispatch (s : State) : Host.Outcome State Fault Refusal :=
  .next <|
    if !s.live 10 then s
    else
      match ([3, 2, 1, 0].flatMap s.listOrder).find? fun l => !(s.listEngines l).isEmpty with
      | none => s
      | some l => s.dispatch l

/-! Discards, stopped threads and GETW (R382, R392, R395, R396). -/

/-- An item leaves SCHED (R376, R383): its ticket, if it has one, is released or voided. -/
def State.freeItem (s : State) (k : Nat) (x : WorkItem) : State :=
  let s1 := s.setItem k none
  if x.unord then s1
  else
    let ds := SCHED.DOM_STAT x.dom
    (s1.modSched fun u => { u with
      doms := tput (fun _ => []) u.doms x.dom ((tget (fun _ => []) u.doms x.dom).filter (· != k)) }).wf ds 26 16 (s1.rf ds 26 16 - 1)

/-- Release an item's descriptor reference (R315, R377). -/
def State.itemDrop (s : State) (x : WorkItem) : State := if x.desc = 0 then s else s.freeDesc 7 x.desc

/-- Take an item out of the list or dispatch queue it stands in. -/
def State.unqueue (s : State) (k : Nat) (x : WorkItem) : State :=
  match x.st with
  | .ready => s.setReadyList x.list ((s.readyList x.list).filter (· != k))
  | .dispatched => s.setDispatchQ x.eng ((s.dispatchQ x.eng).filter (· != k))
  | _ => s

/-- Discard an item (R395, R396). -/
def State.discard (s : State) (k : Nat) (x : WorkItem) (release : Bool) : State :=
  let s1 := ((s.unqueue k x).freeItem k x).trace k x 7 0xFF 0 (!x.unord) 0
  let s2 := if release then s1.itemDrop x else s1
  (s2.sat SCHED.SCHED_CNT3 15 0 1).evt 10 20

/-- The place in the cluster's local memory of an engine's scratchpad (R24). -/
def scratch (g : Nat) : Nat := 0x2000000000 + engTile (g / 8) * 2 ^ 28 + g % 8 * 2 ^ 18

/-- When each thread of an engine parked in GETW, with its key and the address of its record. -/
def State.getwWaits (s : State) (g : Nat) : List (Nat × Nat × Nat) :=
  (engKeys g).filterMap fun key => match (s.thread key).run with | .getw ea since => some (since, key, ea) | _ => none

/-- The earliest entry. -/
def earliest : List (Nat × Nat × Nat) → Option (Nat × Nat × Nat)
  | [] => none
  | p :: l => match earliest l with
    | none => some p
    | some q => if q.1 < p.1 then some q else some p

/-- GETW_TAKE (R102, R382): the thread that has waited longest takes the oldest item of its engine's queue; the record of a
slot above 1,023 is read from the overflow region. -/
def execGetwTake (g : Fin 32) (s : State) : Host.Outcome State Fault Refusal :=
  .next <|
    match s.dispatchQ g.val, earliest (s.getwWaits g.val) with
    | k :: rest, some (_, key, ea) =>
      match s.item k with
      | none => s
      | some x =>
        if !s.live (engTile (g.val / 8)) || s.engSubst g.val then s
        else
          let y := { x with st := ItemState.held, eng := g.val }
          let r := if k < 1024 then (s, true) else s.storeRead 7 (s.ovfAddr k) 32
          if !r.2 then (r.1.recordErr 10 0x80 0xFF k (s.ovfAddr k) false).discard k x false
          else
            let rec_ := if k < 1024 then x.words
              else (List.range 8).map fun j =>
                let w := s.rm (s.ovfAddr k + 4 * j) 4
                if j = 1 then (wd w &&& 0xFFFFF3FF).toNat else w
            let s1 := ((r.1.setDispatchQ g.val rest).setItem k (some y)).wwords (scratch g.val + ea) rec_
            (s1.setThread key { (s1.thread key) with a := wd (x.handle k), item := some (x.handle k), run := .running }).trace
              k y 3 g.val 0 false 0
    | _, _ => s

/-! Release (R383 to R385). -/

/-- Bits of PARAM that a disposition KIND uses (R384). -/
def dispParam (kind : Nat) : Word :=
  match kind with
  | 1 => 0x1F
  | 2 => 0x1FFF
  | 3 => 0xFF
  | 6 => 0xFF
  | _ => 0

/-- Carry out a disposition word on a descriptor (R384). -/
def State.dispose (s : State) (x : WorkItem) (disp : Word) : State :=
  let d := x.desc
  let kind := fld disp 31 28
  let p := fld disp 15 0
  let val := wd (d / 64)
  if d = 0 then s
  else if 8 ≤ kind || (disp &&& 0x0FFFFFFF &&& ~~~ dispParam kind) != 0 then
    ((s.sat SCHED.SCHED_CNT2 7 0 1).evt 10 19).itemDrop x
  else match kind with
    | 0 => s.itemDrop x
    | 1 => { s with wireIn := s.wireIn ++ [{ lane := p % 4, pri := p / 4 % 8, desc := d }] }
    | 2 => s.onWrite (.tile 10) 5 fun s => s.stqEnq p val
    | 3 => { s with hostIn := s.hostIn ++ [(p, d)] }
    | 4 => s.onWrite (.tile 10) 9 fun s => s.fabEnq val
    | 5 => s.onWrite (.tile 10) 9 fun s => s.clsInject val
    | 6 => { s with cipher := { s.cipher with inQ := s.cipher.inQ ++ [(p, d)] } }
    | _ => s

/-- Release a COMPLETE item: its slot is free and its disposition carried out. -/
def State.release (s : State) (k : Nat) (x : WorkItem) (disp : Word) : State :=
  ((s.freeItem k x).trace k x 5 0xFF 0 false ((s.clock - x.doneAt) * 2)).dispose x disp

/-- Release an UNORD item that is COMPLETE and waits for no store (R385). -/
def State.releaseUnord (s : State) (k : Nat) : State :=
  match s.item k with
  | some x => match x.st with
    | .complete disp _ 0 => if x.unord then s.release k x disp else s
    | _ => s
  | none => s

/-- An item becomes COMPLETE (R376). -/
def State.complete (s : State) (k : Nat) (x : WorkItem) (disp : Word) (key waits : Nat) : State :=
  let y := { x with st := ItemState.complete disp key waits, doneAt := s.clock }
  ((s.setItem k (some y)).trace k y 4 x.eng 0 false 0).releaseUnord k

/-- SCHED_DONE_ARRIVE (R103, R385): a DONE whose handle is not of a HELD item is ignored (R396). -/
def execSchedDoneArrive (s : State) : Host.Outcome State Fault Refusal :=
  .next <|
    match s.sched.dones with
    | [] => s
    | m :: rest =>
      let s1 := s.modSched fun u => { u with dones := rest }
      match s.known m.handle with
      | none => s1
      | some k =>
        match s.item k with
        | some x => if x.st = .held then s1.complete k x m.disp m.key m.waits else s1
        | none => s1

/-- Posted store `n` of a thread has completed: releases of its earlier DONEs wait for one store less (R385). -/
def State.postedDone (s : State) (key n : Nat) : State :=
  let less := fun (w : Nat) => if n < w then w - 1 else w
  let step := fun (x : WorkItem) => match x.st with
    | .complete d t w => if t = key then { x with st := ItemState.complete d t (less w) } else x
    | _ => x
  let s1 := s.modSched fun u => { u with
    dones := u.dones.map fun (m : DoneMsg) => if m.key = key then { m with waits := less m.waits } else m
    items := u.items.map fun p => (p.1, p.2.map step) }
  (s1.sched.items.map (·.1)).foldl (fun s k => s.releaseUnord k) s1

/-- The domain whose oldest ticket can be released, in round-robin order, with its item. -/
def State.nextRelease (s : State) : Option (Nat × Nat × WorkItem × Word) :=
  let order := (List.range 256).map fun i => (s.sched.relRr + i) % 256
  order.findSome? fun d =>
    match tget (fun _ => []) s.sched.doms d with
    | [] => none
    | k :: _ =>
      match s.item k with
      | some x => match x.st with
        | .complete disp _ 0 => some (d, k, x, disp)
        | _ => none
      | none => none

/-- TICKET_RELEASE (R383): at most one release over all domains. -/
def execTicketRelease (s : State) : Host.Outcome State Fault Refusal :=
  .next <|
    if !s.live 10 then s
    else
      match s.nextRelease with
      | none => s
      | some (d, k, x, disp) => (s.modSched fun u => { u with relRr := d + 1 }).release k x disp

/-- SCHED_CANCEL_ARRIVE (R387): a PENDING or READY item is removed and its ticket voided. -/
def execSchedCancelArrive (s : State) : Host.Outcome State Fault Refusal :=
  .next <|
    match s.sched.cancels with
    | [] => s
    | (key, h) :: rest =>
      let s1 := s.modSched fun u => { u with cancels := rest }
      match (s.known h).bind fun k => (s.item k).map fun x => (k, x) with
      | none => s1.cancelAnswer key false
      | some (k, x) =>
        let early := match x.st with | .pending _ => true | .ready => true | _ => false
        if early && s.live 10 then
          ((((s1.unqueue k x).freeItem k x).trace k x 6 0xFF 0 (!x.unord) 0).itemDrop x |>.sat SCHED.SCHED_CNT2 31 16 1).cancelAnswer
            key true
        else s1.cancelAnswer key false

/-! Stopped threads and leaving READY (R392, R393, R396). -/

/-- The item a thread holds is completed with the DROP disposition (R392). -/
def State.abandon (s : State) (key : Nat) : State :=
  let x := s.thread key
  let s1 := s.setThread key { x with item := none }
  match x.item.bind s.known with
  | none => s1
  | some k =>
    match s.item k with
    | some it => if it.st = .held then s1.complete k it 0 key 0 else s1
    | none => s1

/-- An engine thread stops under R70 (R392): cause 0x80, counted, its item abandoned. -/
def State.engThreadStop (s : State) (c e t cause : Nat) : State :=
  let key := threadKey (engTile c) e t
  let had := (s.thread key).item.isSome
  let s0 := s.axEvidence 28 (engTile c) (s.rf (ENG.ENG_MAP c) (4 * e + 3) (4 * e)) 43200000000000 (s.rf MGMT.AX_CTL 3 0)
  let s1 := (s0.setThread key { (s.thread key) with run := .stopped }).recordErr (engTile c) 0x80 (4 * e + t) cause 0 false
  let s2 := (s1.sat (ENG.ENG_CNT c) 15 8 1).wr (ENG.ENG_STOPPED c) (putBit (s1.rd (ENG.ENG_STOPPED c)) (4 * e + t) true)
  let s3 := if had then (s2.sat (ENG.ENG_CNT c) 31 16 1).abandon key else s2
  s3.evt (engTile c) 16

/-- Items in the dispatch queue of an engine return to the heads of their lists in their original order, and buckets naming it
are cleared (R393). -/
def State.engineLeaves (s : State) (g : Nat) : State :=
  let s1 := ((s.dispatchQ g).reverse).foldl (fun (s : State) k =>
    match s.item k with
    | some x => (s.setItem k (some { x with st := .ready })).setReadyList x.list (k :: s.readyList x.list)
    | none => s) s
  let s2 := s1.setDispatchQ g []
  (List.range 4096).foldl (fun s b => if s.rd (SCHED.AFF b) = wd (2 ^ 31 + g) then s.wr (SCHED.AFF b) 0 else s) s2

/-- A cluster leaves READY (R393). -/
def State.clusterLeaves (s : State) (c : Nat) : State := (List.range 8).foldl (fun s e => s.engineLeaves (8 * c + e)) s

/-- Keys of a cluster's threads. -/
def clusterKeys (c : Nat) : List Nat := (List.range 8).flatMap fun e => engKeys (8 * c + e)

/-- A cluster may enter HELD (R393): every thread that is not stopped is parked in GETW with nothing held or outstanding. -/
def State.clusterQuiet (s : State) (c : Nat) : Bool :=
  (clusterKeys c).all fun k =>
    let x := s.thread k
    let parked := match x.run with | .getw _ _ => true | .stopped => true | _ => false
    parked && x.item.isNone && x.posted.isEmpty && x.copies.isEmpty

/-- Items still held at the drain bound are completed with DROP and counted (R393). -/
def State.clusterAbandon (s : State) (c : Nat) : State :=
  (clusterKeys c).foldl (fun s k => if (s.thread k).item.isSome then (s.sat (ENG.ENG_CNT c) 31 16 1).abandon k else s) s

/-- A cluster enters RESET or OFF (R41, R373): every thread stops, what it held is completed with DROP. -/
def State.clusterStop (s : State) (c : Nat) : State :=
  (clusterKeys c).foldl (fun s k => (s.abandon k).setThread k {}) s

/-- Items left in SCHED at its drain bound are discarded (R396). -/
def State.schedFlush (s : State) : State :=
  s.sched.items.foldl (fun s p => match p.2 with | some x => s.discard p.1 x true | none => s) s

/-- A RESET of SCHED (R376, R396): every item is discarded without a release of its reference, generations advance, and
threads parked in ENQ and CANCEL are answered. -/
def State.schedReset (s : State) : State :=
  let u := s.sched
  let s1 := u.enqs.foldl (fun s p => s.enqAnswer p.1 false 0) s
  let s2 := u.cancels.foldl (fun s p => s.cancelAnswer p.1 false) s1
  s2.modSched fun u => { gens := u.gens, genAdd := (u.genAdd + 1) % 65536, dones := u.dones }

/-! Engine clusters. -/

/-- A write of ENG_RUN (R373): each thread whose bit is written 1 starts when it is stopped. -/
def State.engRunWrite (s : State) (by_ : Req) (c : Nat) (val : Word) : State :=
  if !reqMgmt by_ then s
  else
    let s1 := s.wr (ENG.ENG_RUN c) (s.rd (ENG.ENG_RUN c) ||| val)
    (List.range 32).foldl (fun s b =>
      let key := threadKey (engTile c) (b / 4) (b % 4)
      if bit val b && (s.thread key).run = .stopped then
        (s.setThread key { run := .running }).wr (ENG.ENG_STOPPED c) (putBit (s.rd (ENG.ENG_STOPPED c)) b false)
      else s) s1

/-- ENG_RUN_WRITE (R373). -/
def execEngRunWrite (by_ : Req) (c : Fin 4) (val : Word) (s : State) : Host.Outcome State Fault Refusal :=
  .next <| s.onWrite by_ (engTile c.val) fun s => s.engRunWrite by_ c.val val

/-- The frequency limit of the thermal stage in MHz (R465). -/
def State.engLimit (s : State) : Nat :=
  match s.rf MGMT.THERM_STATUS 31 29 with
  | 0 => 2200
  | 1 => 1600
  | 2 => 1200
  | _ => 800

/-- The frequency a cluster should run at (R375). -/
def State.engTarget (s : State) (c : Nat) : Nat := min s.engLimit (clampN 800 2200 (s.rf (ENG.ENG_CLK c) 11 0) / 25 * 25)

/-- The island of a cluster stops for a change of frequency, where one is due, in READY (R375). -/
def State.engClkCheck (s : State) (c : Nat) : State :=
  let r := ENG.ENG_CLK c
  if s.life (engTile c) = .ready && !s.rbit r 31 && s.engTarget c != s.rf r 27 16 then s.wf r 31 31 1 else s

/-- A write of ENG_CLK. -/
def State.engClkWrite (s : State) (c : Nat) (val : Word) : State := (s.wf (ENG.ENG_CLK c) 11 0 (fld val 11 0)).engClkCheck c

/-- ENG_CLK_WRITE (R375). -/
def execEngClkWrite (by_ : Req) (c : Fin 4) (val : Word) (s : State) : Host.Outcome State Fault Refusal :=
  .next <| s.onWrite by_ (engTile c.val) fun s => s.engClkWrite c.val val

/-- ENG_CLK_CHANGE_DONE (R375). -/
def execEngClkChangeDone (c : Fin 4) (s : State) : Host.Outcome State Fault Refusal :=
  .next <|
    let r := ENG.ENG_CLK c.val
    if !s.rbit r 31 then s
    else (((s.wf r 27 16 (s.engTarget c.val)).wf r 31 31 0).evt (engTile c.val) 18).engClkCheck c.val

/-! Substitution (R394). -/

/-- The physical engine that carries no logical number (R372). -/
def State.spareEng (s : State) (c : Nat) : Nat :=
  ((List.range 9).find? fun p => (List.range 8).all fun e => s.rf (ENG.ENG_MAP c) (4 * e + 3) (4 * e) != p).getD 8

/-- The spare of a cluster is in service: some logical engine has left its own physical engine. -/
def State.spareUsed (s : State) (c : Nat) : Bool := s.rd (ENG.ENG_MAP c) != 0x76543210

/-- Post a substitution result. -/
def State.substPost (s : State) (c : Nat) (tag : Tag) (code e : Nat) : State :=
  (s.pathPost (ENG.SUBST_RESULT c) 0 tag (code * 2 ^ 27 + s.rf (ENG.ENG_MAP c) (4 * e + 3) (4 * e) * 2 ^ 8)).evt (engTile c) 17

/-- A write of SUBST_CMD (R394). -/
def State.substCmd (s : State) (c e : Nat) (tag : Tag) : State :=
  if !s.pathFree (ENG.SUBST_RESULT c) then s.reqDrop (engTile c)
  else if s.life (engTile c) != .ready then s.substPost c tag 4 e
  else if !s.hasToken (engTile c) then s.substPost c tag 2 e
  else if s.spareUsed c then s.substPost c tag 1 e
  else
    let s1 := (s.pathBusy (ENG.SUBST_RESULT c) 0 tag).spareAsk (engTile c)
    { s1 with subst := tput (fun _ => none) s1.subst c (some { eng := e, since := s.clock }) }

/-- SUBST_CMD (R394). -/
def execSubstCmd (by_ : Req) (c : Fin 4) (e : Fin 8) (tag : Tag) (s : State) : Host.Outcome State Fault Refusal :=
  .next <| s.onWrite by_ (engTile c.val) fun s => s.substCmd c.val e.val tag

/-- An engine's accesses and copies have completed. -/
def State.engIdle (s : State) (g : Nat) : Bool :=
  (engKeys g).all fun k =>
    let x := s.thread k
    let waits := match x.run with | .resp _ _ => true | _ => false
    !waits && x.posted.isEmpty && x.copies.isEmpty

/-- SUBST_DONE (R394): the spare carries the logical engine. -/
def execSubstDone (c : Fin 4) (s : State) : Host.Outcome State Fault Refusal :=
  .next <|
    match s.substOf c.val with
    | none => s
    | some x =>
      if !s.engIdle (8 * c.val + x.eng) then s
      else
        let s1 := s.wf (ENG.ENG_MAP c.val) (4 * x.eng + 3) (4 * x.eng) (s.spareEng c.val)
        ((({ s1 with subst := tput (fun _ => none) s1.subst c.val none } : State).substPost c.val (s.pathTag (ENG.SUBST_RESULT c.val) 0) 0 x.eng).spareEnd
          (engTile c.val) true).axEngEnd (engTile c.val) (s.spareEng c.val) 0

/-- SUBST_TIMEOUT (R394): the wait has exceeded DRAIN_US. -/
def execSubstTimeout (c : Fin 4) (s : State) : Host.Outcome State Fault Refusal :=
  .next <|
    match s.substOf c.val with
    | none => s
    | some x =>
      if s.engIdle (8 * c.val + x.eng) || s.clock < x.since + 500 * max 1 (s.rf (ENG.ENG_CTL c.val) 31 16) then s
      else
        ((({ s with subst := tput (fun _ => none) s.subst c.val none } : State).substPost c.val (s.pathTag (ENG.SUBST_RESULT c.val) 0) 3 x.eng).spareEnd
          (engTile c.val) false).axEngEnd (engTile c.val) (s.spareEng c.val) 3

/-- SUBST_ACK (R394). -/
def execSubstAck (by_ : Req) (c : Fin 4) (tag : Tag) (s : State) : Host.Outcome State Fault Refusal :=
  .next <| s.onWrite by_ (engTile c.val) fun s => s.pathAck (ENG.SUBST_RESULT c.val) 0 tag

end Sys2Proof.Machine
end

