-- ==== Sys2Proof/Machine/Cipher.lean ====
section
/-! DEFINITION. CIPHER: sessions, cipher queues and jobs (R402 to R410). -/

namespace Sys2Proof.Machine

open Reg

/-- Change CIPHER's hidden state. -/
def State.modCipher (s : State) (f : CipherUnit → CipherUnit) : State := { s with cipher := f s.cipher }

/-! Sessions (R402, R403). -/

/-- A session, where it is valid. -/
def State.session (s : State) (n : Nat) : Option Session := tget (fun _ => none) s.cipher.sess n
/-- Replace a session. -/
def State.setSession (s : State) (n : Nat) (x : Option Session) : State :=
  s.modCipher fun u => { u with sess := tput (fun _ => none) u.sess n x }

/-- A session command is taken, or dropped while a result is posted (R132, R403); its code is answered. -/
def State.sessCmd (s : State) (by_ : Req) (tag : Tag) (f : State → State × Nat) : State :=
  s.onWrite by_ 15 fun s =>
    if !s.pathFree CIPHER.SESS_RESULT then s.reqDrop 15
    else
      let n := s.rf CIPHER.SESS_ARG 10 0
      let r := f s
      (r.1.pathPost CIPHER.SESS_RESULT 0 tag (r.2 * 2 ^ 27 + n * 2 ^ 8)).evt 15 16

/-- The session that SESS_ARG, SESS_SALT and SESS_KEY describe, where R402 allows it. -/
def State.sessArg (s : State) : Option Session :=
  let alg := s.rf CIPHER.SESS_ARG 31 30
  let icv := s.rf CIPHER.SESS_ARG 29 28
  let words := (List.range (if alg = 0 then 4 else 8)).map fun i => (s.rd (CIPHER.SESS_KEY i)).toNat
  if alg = 3 || icv = 3 || (alg = 2 && icv != 0) then none
  else some { alg := alg, icv := 16 - 4 * icv, key := words.flatMap (le 4), salt := le 4 (s.rd CIPHER.SESS_SALT).toNat }

/-- SESS_INSTALL (R403). -/
def execSessInstall (by_ : Req) (tag : Tag) (s : State) : Host.Outcome State Fault Refusal :=
  .next <| s.sessCmd by_ tag fun s =>
    match s.sessArg with
    | none => (s, 1)
    | some x => (s.setSession (s.rf CIPHER.SESS_ARG 10 0) (some x), 0)

/-- SESS_DELETE (R403). -/
def execSessDelete (by_ : Req) (tag : Tag) (s : State) : Host.Outcome State Fault Refusal :=
  .next <| s.sessCmd by_ tag fun s =>
    let n := s.rf CIPHER.SESS_ARG 10 0
    if (s.session n).isNone then (s, 2) else (s.setSession n none, 0)

/-- SESS_ILLEGAL_OP (R403). -/
def execSessIllegalOp (by_ : Req) (tag : Tag) (s : State) : Host.Outcome State Fault Refusal :=
  .next <| s.sessCmd by_ tag fun s => (s, 3)

/-- SESS_ACK (R28, R403). -/
def execSessAck (by_ : Req) (tag : Tag) (s : State) : Host.Outcome State Fault Refusal :=
  .next <| s.onWrite by_ 15 fun s => s.pathAck CIPHER.SESS_RESULT 0 tag

/-! Jobs (R404 to R408). -/

/-- CIPHER_STATUS: jobs accepted and not handed on, those among them whose work item waits included. -/
def State.syncCipher (s : State) : State := s.wf CIPHER.CIPHER_STATUS 9 0 (s.cipher.jobs.length + s.cipher.items.length)

/-- Word `i` of a job record, at OFS − 64 of BLK[0] (R405). -/
def State.jobWord (s : State) (d i : Nat) : Nat := s.rm (s.dByteAt d 0 - 64 + 4 * i) 4

/-- A job is dropped and counted in BAD_JOB (R404, R405, R409). -/
def State.badJob (s : State) (d : Nat) : State := ((s.sat CIPHER.CIPHER_CNT1 15 8 1).evt 15 18).freeDesc 12 d

/-- The lowest engine of the eight that runs no job. -/
def State.freeCipher (s : State) : Option Nat :=
  (List.range 8).find? fun e => s.cipher.jobs.all fun j => j.engine != some e

/-- The oldest job that waits starts on a free engine, with its session as it then stands (R403, R408). -/
def State.startJobs (s : State) : State :=
  match s.freeCipher, s.cipher.jobs.findIdx? (·.engine.isNone) with
  | some e, some n =>
    s.modCipher fun u => { u with
      jobs := u.jobs.modify n fun j => { j with engine := some e, sess := s.session (s.jobWord j.desc 0 % 2048) } }
  | _, _ => s

/-- CIPHER_JOB_ARRIVE (R404, R405, R409): the oldest release on its way to CIPHER. -/
def execCipherJobArrive (s : State) : Host.Outcome State Fault Refusal :=
  .next <|
    match s.cipher.inQ with
    | [] => s
    | (q, d) :: rest =>
      if s.life 15 != .ready || 512 ≤ s.cipher.jobs.length + s.cipher.items.length then s
      else
        let s1 := s.modCipher fun u => { u with inQ := rest }
        if !s.rbit CIPHER.CIPHER_CTL 31 || !s.rbit (CIPHER.QUEUE_CFG q) 31 || s.dOfs d < 64 then s1.badJob d
        else
          ((s1.modCipher fun u => { u with jobs := u.jobs ++ [{
              queue := q, desc := d, known := (s.session (s.jobWord d 0 % 2048)).isSome }] }).startJobs).syncCipher

/-- A job record is malformed (R406): bits marked zero, or a region that reaches beyond LEN. -/
def jobMalformed (w : Nat → Nat) (len icv : Nat) : Bool :=
  let beyond := fun o n => len < o + n
  w 0 / 2 ^ 11 % 2 ^ 20 != 0 || w 2 % 2 ^ 16 != 0 || w 4 % 2 ^ 16 != 0
    || (w 1 % 2 ^ 16 != 0 && beyond (w 1 / 2 ^ 16) (w 1 % 2 ^ 16)) || beyond (w 2 / 2 ^ 16) 8
    || (w 3 % 2 ^ 16 != 0 && beyond (w 3 / 2 ^ 16) (w 3 % 2 ^ 16)) || beyond (w 4 / 2 ^ 16) icv

/-- Encrypt or decrypt: both are the same stream (R402). -/
def Session.crypt (x : Session) (nonce data : List Nat) : List Nat :=
  let key := x.key.map (·.toNat)
  if x.alg = 2 then chachaCrypt key nonce data else gcmCrypt (aesKeys key) nonce data

/-- The tag over additional data and ciphertext (R402, R406). -/
def Session.tag (x : Session) (nonce aad ct : List Nat) : List Nat :=
  let key := x.key.map (·.toNat)
  if x.alg = 2 then chachaTag key nonce aad ct else gcmTag (aesKeys key) nonce aad ct

/-- Write bytes of a frame from byte `o` on, through CIPHER's port. -/
def State.framePut (s : State) (d o : Nat) (l : List Byte) : State :=
  (List.range l.length).foldl (fun s i => s.storeWrite 12 (s.dByteAt d (o + i)) [l.getD i 0]) s

/-- Perform a job whose session is valid and whose record is well formed: the frame after it and the code (R406). -/
def State.runJob (s : State) (d : Nat) (x : Session) : State × Nat :=
  let w := s.jobWord d
  let data := (s.dData d).map (·.toNat)
  let part := fun o n => (data.drop o).take n
  let nonce := x.salt.map (·.toNat) ++ part (w 2 / 2 ^ 16) 8
  let aad := part (w 1 / 2 ^ 16) (w 1 % 2 ^ 16)
  let o := w 3 / 2 ^ 16
  let body := part o (w 3 % 2 ^ 16)
  let out := x.crypt nonce body
  let s1 := s.framePut d o (out.map (BitVec.ofNat 8))
  if w 0 / 2 ^ 31 = 1 then (s1, if (x.tag nonce aad body).take x.icv = part (w 4 / 2 ^ 16) x.icv then 0 else 1)
  else (s1.framePut d (w 4 / 2 ^ 16) (((x.tag nonce aad out).take x.icv).map (BitVec.ofNat 8)), 0)

/-- The reads of a job: descriptor and record, and the data of one that has its session and is well formed (R406, R407). -/
def State.jobRead (s : State) (d : Nat) (sess : Option Session) : State × Bool :=
  let r := s.descRead 12 d ((s.dOfs d + s.dLen d + 255) / 256)
  if !r.2 then r
  else
    let r1 := r.1.storeRead 12 (s.dByteAt d 0 - 64) 32
    if !r1.2 || !(sess.any fun x => !jobMalformed (s.jobWord d) (s.dLen d) x.icv) then r1 else s.dataRead 12 d r1

/-- A job's frame is handed on as its queue directs, or dropped (R407). -/
def State.handOn (s : State) (q d code result : Nat) : State :=
  let cfg := s.rd (CIPHER.QUEUE_CFG q)
  if code != 0 && bit cfg 29 then s.freeDesc 12 d
  else if bit cfg 30 then
    s.modCipher fun u => { u with items := u.items ++ [[d / 64 % 2 ^ 27, 9 * 2 ^ 28 + fld cfg 17 8, fld cfg 7 0, s.jobWord d 6,
      s.jobWord d 7, result, 0, 0]] }
  else { s with clsIn := s.clsIn ++ [{ ingress := 9, desc := d }] }

/-- A job ends with a code: RESULT is written before the frame is handed on (R406, R407). -/
def State.jobEnd (s : State) (q d code : Nat) : State :=
  let result := 2 ^ 31 + code * 2 ^ 28
  let s1 := s.storeWrite 12 (s.dByteAt d 0 - 64 + 20) (le 4 result)
  let s2 := match code with
    | 0 => s1.sat CIPHER.CIPHER_CNT0 31 0 1
    | 1 => (s1.sat CIPHER.CIPHER_CNT1 31 16 1).evt 15 17
    | _ => (s1.sat CIPHER.CIPHER_CNT1 15 8 1).evt 15 18
  s2.handOn q d code result

/-- CIPHER_JOB_DONE (R405 to R408): the oldest job of a queue ends. -/
def execCipherJobDone (q : BitVec 8) (s : State) : Host.Outcome State Fault Refusal :=
  .next <|
    match s.cipher.jobs.find? (·.queue = q.toNat) with
    | none => s
    | some j =>
      match j.engine with
      | none => s
      | some e =>
        if !s.live 15 then s
        else
          let r := (s.modCipher fun u => { u with jobs := u.jobs.erase j }).jobRead j.desc j.sess
          let s1 :=
            if !r.2 then
              let s0 := if s.storeUp then r.1.recordErr 15 0x80 e q.toNat j.desc false else r.1
              (s0.sat CIPHER.CIPHER_CNT1 7 0 1).freeDesc 12 j.desc
            else match j.sess with
              | none => r.1.jobEnd q.toNat j.desc (if j.known then 3 else 2)
              | some x =>
                if jobMalformed (s.jobWord j.desc) (s.dLen j.desc) x.icv then r.1.jobEnd q.toNat j.desc 2
                else
                  let p := r.1.runJob j.desc x
                  p.1.jobEnd q.toNat j.desc p.2
          s1.startJobs.syncCipher

/-- Jobs left at the drain bound are dropped and counted (R409). -/
def State.cipherFlush (s : State) : State :=
  let s1 := s.cipher.jobs.foldl (fun s j => s.badJob j.desc) s
  let s2 := s1.cipher.items.foldl (fun s w => s.badJob (64 * (w.getD 0 0 % 2 ^ 27))) s1
  (s2.modCipher fun u => { u with jobs := [], items := [] }).syncCipher

end Sys2Proof.Machine
end

