-- ==== Sys2Proof/Machine/Dram.lean ====
section
/-! DEFINITION. The store's DRAM controller: address mapping, requests and their order, refresh, neighbour refresh,
retraining, page retirement and repair (R326 to R345). -/

namespace Sys2Proof.Machine

open Reg

/-! Address mapping (R327, R328). -/

/-- Parity of the low `n` bits. -/
def parity (x : Nat) : Nat → Bool
  | 0 => false
  | n + 1 => (x.testBit n) != parity x n

/-- Mapping bit `i` of an address under the masks in force. -/
def State.mapBit (s : State) (a i : Nat) : Nat := b2n (parity (a &&& (s.store.masks.getD i 0 * 256)) 33)
/-- Channel of a store address. -/
def State.chOf (s : State) (a : Nat) : Nat := s.mapBit a 0 + 2 * s.mapBit a 1 + 4 * s.mapBit a 2
/-- Bank of a store address. -/
def State.bankOf (s : State) (a : Nat) : Nat := s.mapBit a 3 + 2 * s.mapBit a 4 + 4 * s.mapBit a 5 + 8 * s.mapBit a 6
/-- Row of a store address. -/
def rowOf (a : Nat) : Nat := a / 2 ^ 18 % 32768

/-- Whether rows of 7 bits are independent over GF(2), eliminating the columns in turn. -/
def independent : Nat → List Nat → Bool
  | 0, rows => rows.isEmpty
  | c + 1, rows =>
    match rows.filter (·.testBit c) with
    | [] => independent c rows
    | p :: ps => independent c (ps.map (· ^^^ p) ++ rows.filter fun r => !r.testBit c)

/-- A mask set is valid (R328). -/
def masksValid (ms : List Nat) : Bool := ms.all (· % 8 = 0) && independent 7 (ms.map fun m => m / 8 % 128)

/-- The masks as written. -/
def State.maskRegs (s : State) : List Nat :=
  [MAP0, MAP1, MAP2, MAP3, MAP4, MAP5, MAP6].map fun r => s.rf r 24 0
where
  MAP0 := STORE.MAP_MASK0
  MAP1 := STORE.MAP_MASK1
  MAP2 := STORE.MAP_MASK2
  MAP3 := STORE.MAP_MASK3
  MAP4 := STORE.MAP_MASK4
  MAP5 := STORE.MAP_MASK5
  MAP6 := STORE.MAP_MASK6

/-- Channel and bank bits of an address under a mask set (R327). -/
def placeOf (masks : List Nat) (a : Nat) : List Bool := masks.map fun m => parity (a &&& (m * 256)) 33

/-- Where a byte of the DRAM stands in the address space once another mask set is in force: the row and the place in the page
stay, and address bits 17:11 are those that give its channel and bank (R327, R328). -/
def remapAddr (old new : List Nat) (a : Nat) : Nat :=
  if storeEnd ≤ a then a
  else
    (((List.range 128).map fun c => a / 2 ^ 18 * 2 ^ 18 + c * 2 ^ 11 + a % 2 ^ 11).find? fun b =>
      placeOf new b = placeOf old a).getD a

/-- Another mask set is in force: the DRAM keeps its contents, which the store shows at other addresses (R328). -/
def State.setMasks (s : State) (new : List Nat) : State :=
  let old := s.store.masks
  if old = new then s
  else
    let m := s.mem.foldl (fun m c => if c.1 < storeEnd then tput memDefault m (remapAddr old new c.1) c.2 else m)
      (s.mem.filter fun c => decide (storeEnd ≤ c.1))
    { s with mem := m, store := { s.store with masks := new } }

/-- HELD → READY of STORE: written masks are applied, or rejected (R328). -/
def State.applyMasks (s : State) : State :=
  if !s.rbit STORE.MAP_STATUS 31 then s
  else if masksValid s.maskRegs then (s.setMasks s.maskRegs).wr STORE.MAP_STATUS 0
  else (s.wr STORE.MAP_STATUS 0x40000000).evt 8 26

/-- MAP_MASK_WRITE (R328): from MGMT while STORE is HELD; discarded otherwise. -/
def execMapMaskWrite (by_ : Req) (i : Fin 7) (val : Word) (s : State) : Host.Outcome State Fault Refusal :=
  .next <| s.onWrite by_ 8 fun s =>
    if reqMgmt by_ && s.life 8 = .held then
      (s.wr (STORE.MAP_MASK0 + 4 * i.val) (val &&& 0x01FFFFFF)).wr STORE.MAP_STATUS (putBit (s.rd STORE.MAP_STATUS) 31 true)
    else s

/-! Channels. -/

/-- A channel's state. -/
def State.chan (s : State) (c : Nat) : Chan := tget (fun _ => {}) s.store.chans c
/-- Replace a channel's state; CH_STAT shows its queue, its pause and its neighbour refreshes (R340). -/
def State.setChan (s : State) (c : Nat) (x : Chan) : State :=
  let r := STORE.CH_STAT c
  let s1 := s.modStore fun st => { st with chans := tput (fun _ => {}) st.chans c x }
  s1.wr r (putBit (putBit (putFld (s.rd r) 31 26 x.queue.length) 25 x.paused) 24 (!x.nrPend.isEmpty))

/-- The open row of a bank and its run of hits. -/
def Chan.row (x : Chan) (b : Nat) : Option (Nat × Nat) := tget (fun _ => none) x.rows b
/-- Open or close a bank. -/
def Chan.setRow (x : Chan) (b : Nat) (r : Option (Nat × Nat)) : Chan := { x with rows := tput (fun _ => none) x.rows b r }

/-! Urgency (R331). -/

/-- Age of a request in nanoseconds. -/
def State.ageNs (s : State) (q : StReq) : Nat := (s.clock - q.arrived) * 2

/-- Latency target of a port, 0 acting as 65,535. -/
def State.target (s : State) (port : Nat) : Nat :=
  let t := s.rf (STORE.PORT_LAT port) 15 0
  if t = 0 then 65535 else t

/-- Urgency by age alone. -/
def State.ageUrgency (s : State) (q : StReq) : Nat :=
  let t := s.target q.port
  let a := s.ageNs q
  if t ≤ a then 3 else if t * 3 ≤ a * 4 then 2 else if t ≤ a * 2 then 1 else 0

/-- Two requests touch a common sector (R334). -/
def overlap (p q : StReq) : Bool :=
  p.addr / 32 ≤ (q.addr + q.len - 1) / 32 && q.addr / 32 ≤ (p.addr + p.len - 1) / 32

/-- Urgency of a request in its queue: a write one level up behind many writes, and as urgent as a read that waits for it
(R331). -/
def State.urgency (s : State) (queue : List StReq) (q : StReq) : Nat :=
  let u := s.ageUrgency q
  if q.data.isNone then u
  else
    let w := queue.countP fun r => r.data.isSome
    let u1 := if 24 < w then min 3 (u + 1) else u
    queue.foldl (fun m r => if r.data.isNone && q.seq < r.seq && overlap q r then max m (s.ageUrgency r) else m) u1

/-- No rule of R334 holds the request back. -/
def hazardFree (queue : List StReq) (q : StReq) : Bool :=
  !queue.any fun r => r.seq < q.seq && overlap r q && (r.data.isSome || q.data.isSome)

/-! Completion and admission (R330, R335). -/

/-- A request completes: its wait is compared with the port's target. -/
def State.reqDone (s : State) (q : StReq) : State :=
  let st := STORE.PORT_STAT q.port
  let w := s.ageNs q
  let s1 := s.wf st 31 16 (max (s.rf st 31 16) (min 65535 w))
  if s.target q.port < w then
    let s2 := (s1.sat st 15 0 1).sat STORE.DRAM_CNT1 31 16 1
    if s.rbit (STORE.PORT_LAT q.port) 31 then s2.evt 8 25 else s2
  else s1

/-- Requests of a port admitted in every channel and not completed. -/
def State.inflight (s : State) (port : Nat) : Nat :=
  ((List.range 8).map fun c => let x := s.chan c
    (x.queue ++ x.issued).countP fun q => q.port = port).sum

/-- A request may be admitted: its port is below INFLIGHT_MAX. -/
def State.mayAdmit (s : State) (q : StReq) : Bool :=
  s.inflight q.port < clampN 1 64 (s.rf (STORE.PORT_LAT q.port) 23 16)

/-- The better of two requests at an attachment: more urgent, then earlier. -/
def State.better (s : State) (p q : StReq) : Bool :=
  s.ageUrgency q < s.ageUrgency p || (s.ageUrgency p = s.ageUrgency q && p.seq < q.seq)

/-- The best request of a list by an order. -/
def bestOf (lt : StReq → StReq → Bool) : List StReq → Option StReq
  | [] => none
  | q :: qs => some (qs.foldl (fun b r => if lt r b then r else b) q)

/-- Admit waiting requests of a channel while it has room; a write completes on entry (R330). Port 16 completes a
corrective write, which changes neither data nor metadata (R320). -/
def State.letIn (s : State) (c : Nat) : Nat → State
  | 0 => s
  | n + 1 =>
    let x := s.chan c
    if 32 ≤ x.queue.length then s
    else match bestOf s.better (x.waiting.filter s.mayAdmit) with
      | none => s
      | some q =>
        let s1 := s.setChan c { x with queue := x.queue ++ [q], waiting := x.waiting.filter (· != q) }
        let s2 := match q.data with
          | none => s1
          | some bs =>
            if q.port = 16 && s.store.wbPend.contains (q.addr / 32) then
              (s1.modStore fun st => { st with wbPend := st.wbPend.filter (· != q.addr / 32) }).reqDone q
            else (s1.storeWrite q.port q.addr bs).reqDone q
        s2.letIn c n

/-- STORE_REQUEST_ARRIVE (R309, R330, R334, R335): a decode error while STORE does not serve requests or past the store's
software range. -/
def execStoreRequestArrive (port : Fin 18) (addr : BitVec 33) (len : BitVec 9) (wdata : Option (List Byte)) (s : State) :
    Host.Outcome State Fault Refusal :=
  .next <|
    let n := match wdata with
      | some bs => bs.length
      | none => len.toNat
    let a := addr.toNat
    if !s.storeUp then
      (match wdata with
        | some _ => s.earlyWrite 8
        | none => s.earlyRead 8).recordErr (portTile port.val) 8 noUnit 0 a false
    else if n = 0 then s
    else if port.val < 16 && storeEnd < a + n then s.recordErr (portTile port.val) 8 noUnit 0 a false
    else
      let c := s.chOf a
      let x := s.chan c
      let q : StReq := { port := port.val, addr := a, len := n, data := wdata, arrived := s.clock, seq := s.store.seq }
      let raw := wdata.isNone && (x.queue ++ x.waiting).any fun r => r.data.isSome && overlap r q
      let s1 := (s.modStore fun st => { st with seq := st.seq + 1 }).setChan c { x with waiting := x.waiting ++ [q] }
      let s2 := if raw then s1.sat STORE.DRAM_CNT1 15 0 1 else s1
      s2.letIn c 32

/-! Commands to the DRAM (R332, R333, R337). -/

/-- The threshold of R337. -/
def State.nrThr (s : State) : Nat := clampN 256 1024 (s.rf STORE.NR_CTL 10 0)

/-- Count an activate of a row in a table of at most sixteen entries: the new table and the entry's count (R337). -/
def countAct (t : List (Nat × Nat)) (row : Nat) : List (Nat × Nat) × Nat :=
  match t.findIdx? (fun e => e.1 = row) with
  | some i => (t.set i (row, (t.getD i (row, 0)).2 + 1), (t.getD i (row, 0)).2 + 1)
  | none =>
    if t.length < 16 then (t ++ [(row, 1)], 1)
    else
      let m := (t.map (·.2)).foldl min (t.headD (0, 0)).2
      match t.findIdx? (fun e => e.2 = m) with
      | some i => (t.set i (row, m + 1), m + 1)
      | none => (t, 0)

/-- Reset the count of a row's entry. -/
def clearAct (t : List (Nat × Nat)) (row : Nat) : List (Nat × Nat) := t.map fun e => if e.1 = row then (row, 0) else e

/-- A row takes no activate from the request of its neighbour refresh until it completes (R338). -/
def Chan.blocked (x : Chan) (b row : Nat) : Bool := x.nrPend.contains (b, row) || x.nrNow.contains (b, row)

/-- A post-package repair keeps this bank closed: one is in progress under its token (R343). -/
def State.pprBank (s : State) (c b : Nat) : Bool :=
  match s.store.ppr with
  | none => false
  | some p => s.chOf (2048 * p.page) = c && s.bankOf (2048 * p.page) = b && s.holds kSUBST (18 + c)

/-- The request's next command may be issued: its bank is not refreshing its neighbours or under repair, and its row is
not blocked from an activate. -/
def State.issuable (s : State) (c : Nat) (x : Chan) (q : StReq) : Bool :=
  let b := s.bankOf q.addr
  let r := rowOf q.addr
  let hit := (x.row b).map (·.1) = some r
  hazardFree x.queue q && !s.pprBank c b && !(x.nrNow.any fun p => p.1 = b) && (hit || !x.blocked b r)

/-- Whether a request hits the open row of its bank. -/
def State.rowHit (s : State) (x : Chan) (q : StReq) : Bool := (x.row (s.bankOf q.addr)).map (·.1) = some (rowOf q.addr)

/-- R332's order: urgency, then row hits, then arrival, then port. -/
def State.slotBefore (s : State) (x : Chan) (p q : StReq) : Bool :=
  let up := s.urgency x.queue p
  let uq := s.urgency x.queue q
  if up != uq then uq < up
  else if s.rowHit x p != s.rowHit x q then s.rowHit x p
  else if p.arrived != q.arrived then p.arrived < q.arrived
  else if p.port != q.port then p.port < q.port
  else p.seq < q.seq

/-- Close rows that no queued request hits, and rows with sixteen hits in a row that another request of the bank waits
behind at the same or a higher urgency (R333). -/
def State.closeRows (s : State) (c : Nat) : State :=
  let x := s.chan c
  let y := (List.range 16).foldl (fun (y : Chan) b =>
    match x.row b with
    | none => y
    | some (r, hits) =>
      let mine := x.queue.filter fun q => s.bankOf q.addr = b
      let hitters := mine.filter fun q => rowOf q.addr = r
      let top := (hitters.map (s.urgency x.queue)).foldl max 0
      let others := mine.any fun q => rowOf q.addr != r && top ≤ s.urgency x.queue q
      if hitters.isEmpty || (16 ≤ hits && others) then y.setRow b none else y) x
  s.setChan c y

/-- Ask for a neighbour refresh of a row (R337). -/
def State.nrRequest (s : State) (c b row : Nat) : State :=
  let x := s.chan c
  if x.nrPend.contains (b, row) then s
  else (s.setChan c { x with nrPend := x.nrPend ++ [(b, row)] }).askToken kNR (18 + c)

/-- Issue the next command of the request chosen (R332). -/
def State.issueCmd (s : State) (c : Nat) (q : StReq) : State :=
  let x := s.chan c
  let b := s.bankOf q.addr
  let r := rowOf q.addr
  match x.row b with
  | some (r', h) =>
    if r' = r then
      let y := { x with queue := x.queue.filter (· != q) }.setRow b (some (r, h + 1))
      s.setChan c (if q.data.isNone then { y with issued := y.issued ++ [q] } else y)
    else s.setChan c (x.setRow b none)
  | none =>
    let t := countAct (tget (fun _ => []) x.acts b) r
    let due := s.rbit STORE.DRAM_CTL 31 && s.nrThr ≤ t.2
    let t1 := if due then clearAct t.1 r else t.1
    let s1 := s.setChan c { x.setRow b (some (r, 0)) with acts := tput (fun _ => []) x.acts b t1 }
    if due then s1.nrRequest c b r else s1

/-- DRAM_COMMAND_ISSUE (R332, R333): a command slot of a channel that is not paused. -/
def execDramCommandIssue (ch : Fin 8) (s : State) : Host.Outcome State Fault Refusal :=
  .next <|
    let c := ch.val
    let x := s.chan c
    if !s.storeUp || x.paused then s
    else match bestOf (s.slotBefore x) (x.queue.filter (s.issuable c x)) with
      | none => s.closeRows c
      | some q => ((s.issueCmd c q).closeRows c).letIn c 32

/-- What the data of a read brings with it (R320, R322). -/
def State.readEnds (s : State) (q : StReq) : ReadFound → State
  | .clean =>
    match s.readFault q.addr q.len with
    | none => s
    | some f => s.readFailed q.port f
  | .corrected =>
    let k := q.addr / 32
    let s1 := s.corrInc 8
    if !s.rbit STORE.STORE_CTL 30 || s1.store.wbPend.contains k then s1
    else if 16 ≤ s1.store.wbPend.length then s1.sat STORE.STORE_CNT1 15 8 1
    else s1.modStore fun x => { x with wbPend := x.wbPend ++ [k] }
  | .uncorrectable =>
    (s.modStore fun x => { x with secBad := tput (fun _ => false) x.secBad (q.addr / 32) true }).eccFail q.port q.addr true
  | .metadata =>
    (s.modStore fun x => { x with metaBad := tput (fun _ => false) x.metaBad (q.addr / 256) true }).metaFail q.port q.addr
  | .checkFail =>
    let b := q.addr / 256
    let s1 := s.modStore fun x => { x with chkBad := tput (fun _ => false) x.chkBad b true }
    match s1.readFault q.addr q.len with
    | none => s1
    | some f => s1.readFailed q.port f
  | .freeLink pool kept =>
    let x := s.pool pool.val
    let keep := (x.list.foldl (fun (acc : List (Nat × Nat) × Nat) r =>
      (if acc.2 = 0 then acc.1 else acc.1 ++ [(r.1, min r.2 acc.2)], acc.2 - r.2)) ([], kept)).1
    ((s.setPool pool.val { x with list := keep }).wf (STORE.POOL_W3 pool.val) 25 0 ((keep.map (·.2)).sum)).metaFail q.port q.addr

/-- STORE_READ_COMPLETE (R322, R330): the oldest read of the channel whose column command has been issued leaves STORE. -/
def execStoreReadComplete (ch : Fin 8) (found : ReadFound) (s : State) : Host.Outcome State Fault Refusal :=
  .next <|
    let x := s.chan ch.val
    match x.issued with
    | [] => s
    | q :: rest =>
      let s1 := ((s.setChan ch.val { x with issued := rest }).readEnds q found).reqDone q
      (List.range 8).foldl (fun s c => s.letIn c 32) s1

/-! Refresh (R336). -/

/-- A read or write of urgency 3 waits for a bank. -/
def State.urgentBank (s : State) (x : Chan) (b : Nat) : Bool :=
  x.queue.any fun q => s.bankOf q.addr = b && s.urgency x.queue q = 3

/-- REFRESH_DUE (R336): issued, which closes the bank's row, or postponed up to JEDEC's limit. -/
def execRefreshDue (ch : Fin 8) (bank : Fin 16) (s : State) : Host.Outcome State Fault Refusal :=
  .next <|
    let x := s.chan ch.val
    let p := tget (fun _ => 0) x.postponed bank.val
    if !s.storeUp then s
    else if s.rbit STORE.DRAM_CTL 30 && s.urgentBank x bank.val && p < Config.refPostponeMax then
      (s.setChan ch.val { x with postponed := tput (fun _ => 0) x.postponed bank.val (p + 1) }).sat STORE.DRAM_CNT2 31 16 1
    else s.setChan ch.val { x.setRow bank.val none with postponed := tput (fun _ => 0) x.postponed bank.val 0 }

/-- Mode register 4 of a channel is due for its read: 16 ms after the last (R336). -/
def State.mr4Due (s : State) (c : Nat) : Bool := s.storeUp && (s.chan c).mr4At + 8000000 ≤ s.clock

/-- MR4_POLL (R336): 16 ms after the last read the refresh-rate field is read; above the rated range it is an error and an event. -/
def execMr4Poll (ch : Fin 8) (rate : BitVec 3) (above : Bool) (s : State) : Host.Outcome State Fault Refusal :=
  .next <|
    if !s.mr4Due ch.val then s
    else
      let s1 := (s.setChan ch.val { s.chan ch.val with mr4At := s.clock }).wf (STORE.CH_STAT ch.val) 23 21 rate.toNat
      if above then (s1.recordErr 8 0x86 (0x20 + ch.val) 0xFFFF 0 false).evt 8 24 else s1

/-- The activate-count tables are due to be cleared: 32 ms after the last time (R337). -/
def State.actDue (s : State) : Bool := 16000000 ≤ s.clock - s.store.actAt

/-- ACT_TABLE_CLEAR (R337): every 32 ms every entry of every bank becomes unused. -/
def execActTableClear (s : State) : Host.Outcome State Fault Refusal :=
  .next <|
    if !s.actDue then s
    else (List.range 8).foldl (fun s c => s.setChan c { s.chan c with acts := [] })
      (s.modStore fun x => { x with actAt := s.clock })

/-! Neighbour refresh (R338, R341). -/

/-- The channel's retraining request is aged (R341). -/
def State.rtAged (s : State) (c : Nat) : Bool :=
  s.tokenReqs.any fun q => q.kind = kRETRAIN && q.scope = 18 + c && q.holder = .unit && q.aged

/-- NR_START (R338, R341): the oldest pending neighbour refresh of the bank starts, unless one is in progress there, the
channel is paused or an aged retraining waits. -/
def execNrStart (ch : Fin 8) (bank : Fin 16) (s : State) : Host.Outcome State Fault Refusal :=
  .next <|
    let c := ch.val
    let x := s.chan c
    match x.nrPend.find? fun p => p.1 = bank.val with
    | none => s
    | some p =>
      if !s.storeUp || x.paused || s.rtAged c || !s.holds kNR (18 + c) || x.nrNow.any (fun r => r.1 = bank.val) then s
      else s.setChan c { x.setRow bank.val none with nrPend := x.nrPend.erase p, nrNow := x.nrNow ++ [p] }

/-- Give back the channel's NR token where nothing of it is in progress and nothing waits, or an aged retraining waits;
pending refreshes ask again behind it (R341). -/
def State.nrSettle (s : State) (c : Nat) : State :=
  let x := s.chan c
  if !x.nrNow.isEmpty then s
  else if x.nrPend.isEmpty then s.releaseToken kNR (18 + c)
  else if s.rtAged c then (s.releaseToken kNR (18 + c)).askToken kNR (18 + c)
  else s

/-- NR_COMPLETE (R338): the neighbour refresh in progress in the bank ends and its row is released. -/
def execNrComplete (ch : Fin 8) (bank : Fin 16) (s : State) : Host.Outcome State Fault Refusal :=
  .next <|
    let x := s.chan ch.val
    match x.nrNow.find? fun p => p.1 = bank.val with
    | none => s
    | some p => ((s.setChan ch.val { x with nrNow := x.nrNow.erase p }).sat STORE.DRAM_CNT0 31 16 1).nrSettle ch.val

/-! Retraining (R340, R341). -/

/-- RETRAIN_PERIOD (R340): a pause is asked for the next channel in turn, PERIOD_MS after its last (DEDUCED, log entry 63: the period
is each channel's own). -/
def execRetrainPeriod (s : State) : Host.Outcome State Fault Refusal :=
  .next <|
    let c := s.store.rtNext
    let ms := s.rf STORE.RETRAIN_CTL 23 16
    if !s.storeUp || !s.rbit STORE.RETRAIN_CTL 31 || ms = 0 || s.clock < (s.chan c).rtAt + ms * 500000 then s
    else ((s.setChan c { s.chan c with rtAt := s.clock }).modStore fun x => { x with rtNext := (x.rtNext + 1) % 8 }).askToken
      kRETRAIN (18 + c)

/-- RETRAIN_DRIFT (R340): the oscillator's drift is read; at DRIFT_THR steps a pause is asked for. -/
def execRetrainDrift (ch : Fin 8) (drift : BitVec 16) (s : State) : Host.Outcome State Fault Refusal :=
  .next <|
    if !s.storeUp then s
    else
      let s1 := s.wf (STORE.CH_STAT ch.val) 15 0 drift.toNat
      if s.rbit STORE.RETRAIN_CTL 31 && max 1 (s.rf STORE.RETRAIN_CTL 15 8) ≤ (sval 16 drift.toNat).natAbs then
        s1.askToken kRETRAIN (18 + ch.val)
      else s1

/-- RETRAIN_AGED (R341): a request that has waited 8 µs is aged, and the pause waits only for refreshes in progress. -/
def execRetrainAged (ch : Fin 8) (s : State) : Host.Outcome State Fault Refusal :=
  .next <|
    let s1 := State.arbitrate { s with tokenReqs := s.tokenReqs.map fun q =>
      if q.kind = kRETRAIN && q.scope = 18 + ch.val && q.holder = .unit && s.tokenOld q then { q with aged := true } else q }
    s1.nrSettle ch.val

/-- RETRAIN_PAUSE_START (R340): the channel precharges all its banks, one channel at a time. -/
def execRetrainPauseStart (ch : Fin 8) (s : State) : Host.Outcome State Fault Refusal :=
  .next <|
    let x := s.chan ch.val
    if !s.storeUp || x.paused || !s.holds kRETRAIN (18 + ch.val) || !x.nrNow.isEmpty
      || (List.range 8).any (fun c => (s.chan c).paused) then s
    else (s.setChan ch.val { x with rows := [], paused := true }).sat STORE.DRAM_CNT0 15 0 1

/-- A retraining pause ends (R340): trained, or cause 0x84, and 0x85 with FAULT at the eighth failure in succession. -/
def State.retrainEnd (s : State) (c : Nat) (converged : Bool) : State :=
  let x := s.chan c
  if !x.paused then s
  else
    let s0 := s.releaseToken kRETRAIN (18 + c)
    if converged then
      (s0.setChan c { x with paused := false, rtFails := 0, rtRetry := false }).wf (STORE.CH_STAT c) 15 0 0
    else
      let s1 := s0.setChan c { x with paused := false, rtFails := x.rtFails + 1, rtRetry := true, failAt := s.clock }
      let s2 := ((s1.recordErr 8 0x84 (0x20 + c) 0xFFFF 0 false).sat STORE.DRAM_CNT2 15 8 1).evt 8 23
      if 8 ≤ x.rtFails + 1 then s2.recordErr 8 0x85 (0x20 + c) 0xFFFF 0 true else s2

/-- Every channel is trained, at CALIBRATE and from HELD to READY (R344): no drift, no failure, and its period starts anew (DEDUCED, log
entry 63). -/
def State.trainChannels (s : State) : State :=
  (List.range 8).foldl (fun s c =>
    (s.setChan c { s.chan c with rtFails := 0, rtRetry := false, rtAt := s.clock }).wf (STORE.CH_STAT c) 15 0 0) s

/-- RETRAIN_RETRY (R340): a failed retraining is asked for again after 1 ms. -/
def execRetrainRetry (ch : Fin 8) (s : State) : Host.Outcome State Fault Refusal :=
  .next <|
    let x := s.chan ch.val
    if !s.storeUp || !x.rtRetry || s.clock < x.failAt + 500000 then s
    else (s.setChan ch.val { x with rtRetry := false }).askToken kRETRAIN (18 + ch.val)

/-! Retirement and repair (R342, R343). -/

/-- The page of REPAIR_ARG. -/
def State.repairPage (s : State) : Nat := s.rf STORE.REPAIR_ARG 21 0

/-- Post a repair result with the page's retirement bit, channel and bank. -/
def State.repairPost (s : State) (page : Nat) (tag : Tag) (code : Nat) : State :=
  (s.pathPost STORE.REPAIR_RESULT 0 tag (code * 2 ^ 27 + b2n (tflag s.store.retired page) * 2 ^ 26
    + s.chOf (2048 * page) * 2 ^ 23 + s.bankOf (2048 * page) * 2 ^ 19)).evt 8 22

/-- A repair command is taken, or dropped (R132). -/
def State.repairCmd (s : State) (by_ : Req) (f : State → State) : State :=
  s.onWrite by_ 8 fun s => if s.pathFree STORE.REPAIR_RESULT then f s else s.reqDrop 8

/-- REPAIR_RETIRE (R342). -/
def execRepairRetire (by_ : Req) (tag : Tag) (s : State) : Host.Outcome State Fault Refusal :=
  .next <| s.repairCmd by_ fun s =>
    let p := s.repairPage
    if 3866624 ≤ p then s.repairPost p tag 1 else (s.retirePage p).repairPost p tag 0

/-- REPAIR_QUERY (R342). -/
def execRepairQuery (by_ : Req) (tag : Tag) (s : State) : Host.Outcome State Fault Refusal :=
  .next <| s.repairCmd by_ fun s => s.repairPost s.repairPage tag 0

/-- REPAIR_ILLEGAL_OP (R342). -/
def execRepairIllegalOp (by_ : Req) (tag : Tag) (s : State) : Host.Outcome State Fault Refusal :=
  .next <| s.repairCmd by_ fun s => s.repairPost s.repairPage tag 4

/-- REPAIR_PPR (R343): in the state its mode asks for and with a resource left, the repair asks for its token; `spare`
is what mode register 25 reports for the bank group. -/
def execRepairPpr (by_ : Req) (tag : Tag) (spare : Bool) (s : State) : Host.Outcome State Fault Refusal :=
  .next <| s.repairCmd by_ fun s =>
    let p := s.repairPage
    let hard := s.rbit STORE.REPAIR_ARG 31
    let c := s.chOf (2048 * p)
    if s.life 8 != (if hard then Life.held else Life.ready) then s.repairPost p tag 3
    else if !spare || (!hard && s.store.soft.contains (16 * c + s.bankOf (2048 * p))) then s.repairPost p tag 2
    else
      ((s.pathBusy STORE.REPAIR_RESULT 0 tag).modStore fun x =>
        { x with ppr := some { page := p, hard := hard, tag := tag } }).askToken kSUBST (18 + c)

/-- PPR_DONE (R343): under its token the repair ends, verified or with cause 0x87. -/
def execPprDone (verified : Bool) (s : State) : Host.Outcome State Fault Refusal :=
  .next <|
    match s.store.ppr with
    | none => s
    | some p =>
      let c := s.chOf (2048 * p.page)
      let b := s.bankOf (2048 * p.page)
      if !s.holds kSUBST (18 + c) then s
      else
        let s1 := (s.modStore fun x => { x with ppr := none }).releaseToken kSUBST (18 + c)
        let s2 := s1.setChan c ((s1.chan c).setRow b none)
        if verified then
          let s3 := s2.sat STORE.DRAM_CNT2 7 0 1
          let s4 := if p.hard then s3
            else (s3.modStore fun x => { x with soft := x.soft ++ [16 * c + b] }).sat STORE.REPAIR_STATUS 7 0 1
          s4.repairPost p.page p.tag 0
        else (s2.recordErr 8 0x87 (0x20 + c) b 0 false).repairPost p.page p.tag 5

/-- REPAIR_ACK (R28, R342). -/
def execRepairAck (by_ : Req) (tag : Tag) (s : State) : Host.Outcome State Fault Refusal :=
  .next <| s.onWrite by_ 8 fun s => s.pathAck STORE.REPAIR_RESULT 0 tag

end Sys2Proof.Machine
end

