-- ==== Sys2Proof/Machine/Wire.lean ====
section
/-! DEFINITION. WIRE: the four Ethernet lanes, PAUSE, the one-step transparent clock and the MDIO master (R419 to R423, R450 to
R458). -/

namespace Sys2Proof.Machine

open Reg

/-- A lane's hidden state. -/
def State.lane (s : State) (n : Nat) : Lane := tget (fun _ => {}) s.wire.lanes n
/-- Replace a lane's hidden state. -/
def State.setLane (s : State) (n : Nat) (x : Lane) : State :=
  { s with wire := { s.wire with lanes := tput (fun _ => {}) s.wire.lanes n x } }

/-! Link (R450, R451). -/

/-- MODE of a lane. -/
def State.laneMode (s : State) (n : Nat) : Nat := s.rf (WIRE.LANE_CTL n) 30 28
/-- The lane is in service: EN, a mode of the table, and a tile that keeps its transmitters on (R457). -/
def State.laneOn (s : State) (n : Nat) : Bool := s.rbit (WIRE.LANE_CTL n) 31 && s.laneMode n ≤ 4 && s.active 17
/-- LINK of a lane. -/
def State.link (s : State) (n : Nat) : Bool := s.rbit (WIRE.LANE_STATUS n) 31
/-- The partner speaks by control word: USXGMII and SGMII. -/
def State.laneWord (s : State) (n : Nat) : Bool := s.laneMode n = 2 || s.laneMode n = 4

/-- LINK's conditions hold (R451). Bits 15 and 12 of a control word are link and duplex. -/
def State.laneOk (s : State) (n : Nat) : Bool :=
  let x := s.lane n
  let lp := s.rd (WIRE.LANE_LP n)
  let done := s.rbit (WIRE.LANE_STATUS n) 30
  s.laneOn n && x.lock && !x.fault && (!s.rbit (WIRE.LANE_CTL n) 27 || done)
    && (!s.laneWord n || (done && bit lp 15 && bit lp 12))

/-- The code of LANE_STATUS.SPEED: fixed by the mode, or named by the control word. -/
def State.laneSpeed (s : State) (n : Nat) : Nat :=
  let lp := s.rd (WIRE.LANE_LP n)
  match s.laneMode n with
  | 0 => 6
  | 1 => 5
  | 2 => [0, 1, 2, 5, 3, 4, 5, 5].getD (fld lp 11 9) 5
  | 3 => 3
  | _ => min 2 (fld lp 11 10)

/-- FEC in use for a setting (R450): none for 3, for RS-FEC in MODE 1, and in MODE 2 to 4. -/
def State.laneFec (s : State) (n fec : Nat) : Nat :=
  let m := s.laneMode n
  if 2 ≤ m || fec = 3 || (m = 1 && fec = 2) then 0 else fec

/-- Follow a change of a lane's conditions: HDX, FAULT, and since when they hold. -/
def State.laneSync (s : State) (n : Nat) : State :=
  let x := s.lane n
  let st := WIRE.LANE_STATUS n
  let hdx := s.laneOn n && s.laneWord n && s.rbit st 30 && !s.rbit (WIRE.LANE_LP n) 12
  let s1 := (s.wf st 29 29 (b2n hdx)).wf st 28 28 (b2n x.fault)
  s1.setLane n { x with okSince := if s1.laneOk n then some (x.okSince.getD s.clock) else none }

/-- A lane whose service ends loses its receiver, its control word and auto-negotiation. -/
def State.laneOff (s : State) (n : Nat) : State :=
  if s.laneOn n then s.laneSync n
  else
    let s1 := s.wf (WIRE.LANE_STATUS n) 30 30 0
    ((s1.wr (WIRE.LANE_LP n) 0).setLane n { s1.lane n with lock := false, fault := false }).laneSync n

/-- A write of LANE_CTL: MODE ignores it while EN is 1. -/
def State.laneCtlWrite (s : State) (n : Nat) (val : Word) : State :=
  let old := s.rd (WIRE.LANE_CTL n)
  let v := val &&& 0xFFC03FFF
  (s.wr (WIRE.LANE_CTL n) (if bit old 31 then putFld v 30 28 (fld old 30 28) else v)).laneOff n

/-- LANE_CTL_WRITE (R450). -/
def execLaneCtlWrite (by_ : Req) (n : Fin 4) (val : Word) (s : State) : Host.Outcome State Fault Refusal :=
  .next <| s.onWrite by_ 17 fun s => s.laneCtlWrite n.val val

/-- LANE_RX_LOCK (R451): the receiver gains block lock or synchronisation, with no fault signalled. -/
def execLaneRxLock (n : Fin 4) (s : State) : Host.Outcome State Fault Refusal :=
  .next <|
    if !s.laneOn n.val then s
    else
      let c := s.rd (WIRE.LANE_CTL n.val)
      let s1 := if bit c 27 then s else s.wf (WIRE.LANE_STATUS n.val) 27 26 (s.laneFec n.val (fld c 26 25))
      (s1.setLane n.val { s1.lane n.val with lock := true, fault := false }).laneSync n.val

/-- AN_DONE (R450, R451): auto-negotiation, or the exchange of control words, completes with the partner's abilities and the
FEC resolved. -/
def execAnDone (n : Fin 4) (lp : Word) (fec : BitVec 2) (s : State) : Host.Outcome State Fault Refusal :=
  .next <|
    let i := n.val
    if !s.laneOn i || (!s.rbit (WIRE.LANE_CTL i) 27 && !s.laneWord i) then s
    else
      let rises := !s.rbit (WIRE.LANE_STATUS i) 30
      let s1 := ((s.wr (WIRE.LANE_LP i) (if s.laneMode i < 2 then lp else lp &&& 0xFFFF)).wf (WIRE.LANE_STATUS i) 30 30 1).wf
        (WIRE.LANE_STATUS i) 27 26 (s.laneFec i fec.toNat)
      (if rises then s1.evt 17 (20 + i) else s1).laneSync i

/-- A frame released to a lane is dropped: TXQ_DROP (R451, R453, R457). -/
def State.txqDrop (s : State) (n d : Nat) : State := (s.sat (WIRE.LANE_DROP_CNT n) 7 0 1).freeDesc 14 d

/-- Every queued frame of a lane is released and counted (R451, R457). -/
def State.laneFlush (s : State) (n : Nat) : State :=
  let x := s.lane n
  (x.q.flatMap (·.2)).foldl (fun s f => s.txqDrop n f.desc) (s.setLane n { x with q := [] })

/-- LANE_LINK_UP (R451): the conditions have held for 10 ms. -/
def execLaneLinkUp (n : Fin 4) (s : State) : Host.Outcome State Fault Refusal :=
  .next <|
    let i := n.val
    let st := WIRE.LANE_STATUS i
    match (s.lane i).okSince with
    | none => s
    | some t =>
      if s.link i || !s.laneOk i || s.clock < t + 5000000 then s
      else (((s.wf st 31 31 1).wf st 19 16 (s.laneSpeed i)).evt 17 (16 + i))

/-- LINK falls (R451). -/
def State.laneDown (s : State) (n : Nat) : State :=
  if !s.link n then s
  else
    let s1 := (s.wf (WIRE.LANE_STATUS n) 31 31 0).wf (WIRE.LANE_STATUS n) 19 16 0
    (s1.evt 17 (16 + n)).laneFlush n

/-- LANE_LINK_DOWN (R451): a condition fails outside, its receiver lock or a fault signalled, or has failed inside. -/
def execLaneLinkDown (n : Fin 4) (lockLost fault : Bool) (s : State) : Host.Outcome State Fault Refusal :=
  .next <|
    let x := s.lane n.val
    let s1 := s.setLane n.val { x with lock := x.lock && !lockLost, fault := x.fault || fault }
    let s3 := s1.laneSync n.val
    if s3.laneOk n.val then s3 else s3.laneDown n.val

/-! Receive (R452) and PAUSE (R454). -/

/-- MAX_FRAME in effect. -/
def State.maxFrame (s : State) (n : Nat) : Nat := clampN 1518 9600 (s.rf (WIRE.LANE_CTL n) 13 0)

/-- Frames of a lane that CLASS has not taken, handed over or in the buffer: bytes on the wire. -/
def State.laneFill (s : State) (n : Nat) : Nat :=
  ((s.lane n).rx.map (·.wireLen)).sum + (((s.clsIn.filter (·.ingress = n)).map fun f => s.dLen f.desc + 4)).sum

/-- PAUSE threshold in bytes. -/
def State.xoffBytes (s : State) (n : Nat) : Nat := 1024 * clampN 16 240 (s.rf (WIRE.LANE_PAUSE n) 15 0)

/-- Follow the fill of a lane's receive buffer (R454): PAUSE at the threshold, PAUSE with quanta 0 below half of it. -/
def State.pauseSync (s : State) (n : Nat) : State :=
  let x := s.lane n
  let fill := s.laneFill n
  match x.xoff with
  | none =>
    if s.rbit (WIRE.LANE_CTL n) 24 && s.xoffBytes n ≤ fill then
      s.setLane n { x with pauseOut := x.pauseOut ++ [s.rf (WIRE.LANE_PAUSE n) 31 16], xoff := some s.clock }
    else s
  | some _ =>
    if 2 * fill < s.xoffBytes n then s.setLane n { x with pauseOut := x.pauseOut ++ [0], xoff := none } else s

/-- 20 ps units in one bit time of a SPEED code; a TIME cycle holds 100. -/
def bitUnits (speed : Nat) : Nat := [5000, 500, 50, 20, 10, 5, 2].getD speed 2

/-- Clock cycles that a number of bit times takes. -/
def State.bitCycles (s : State) (n bits : Nat) : Nat := (bits * bitUnits (s.rf (WIRE.LANE_STATUS n) 19 16) + 99) / 100

/-- PAUSE_RESEND_TIMER (R454): half the quanta time after the last PAUSE, with the fill at or above half the threshold. -/
def execPauseResendTimer (n : Fin 4) (s : State) : Host.Outcome State Fault Refusal :=
  .next <|
    let x := s.lane n.val
    let quanta := s.rf (WIRE.LANE_PAUSE n.val) 31 16
    match x.xoff with
    | none => s
    | some t =>
      if s.clock < t + s.bitCycles n.val (quanta * 256) || 2 * s.laneFill n.val < s.xoffBytes n.val
          || !s.rbit (WIRE.LANE_CTL n.val) 24 then s
      else s.setLane n.val { x with pauseOut := x.pauseOut ++ [quanta], xoff := some s.clock }

/-- A receive count of LANE_DROP_CNT increases: RX_DROP (R458). -/
def State.rxDrop (s : State) (n hi lo : Nat) : State := (s.sat (WIRE.LANE_DROP_CNT n) hi lo 1).evt 17 29

/-- Hand over the oldest frame of a lane's buffer (R452): to the forwarder without its Ethernet header, or to CLASS; `fuel` bounds
the frames. It waits while CLASS back-pressures the lane. -/
def State.wirePump (s : State) (n : Nat) : Nat → State
  | 0 => s
  | fuel + 1 =>
    let x := s.lane n
    match x.rx with
    | [] => s
    | f :: rest =>
      if !f.fabric && s.clsIn.any (·.ingress = n) then s
      else
        let r := (s.setLane n { x with rx := rest }).rxStore 14 f.data f.status f.stamp
        let s1 : State := match r.2 with
          | none => r.1.rxDrop n 15 8
          | some d =>
            let s2 := r.1.sat (WIRE.LANE_RX_CNT n) 31 0 1
            if f.fabric then
              (s2.storeWrite 6 (d + 8) (le 4 (s2.dw d 2 + 14 * 2 ^ 16 - 14))).modFab fun (u : Fabric) => { u with
                inQ := u.inQ ++ [{ src := .lane n, desc := d }] }
            else ({ s2 with clsIn := s2.clsIn ++ [{ ingress := n, desc := d, srcid := n }] } : State).clsAccept n
        s1.wirePump n fuel

/-- Hand over what a lane's buffer holds, and follow its fill. -/
def State.wireDrain (s : State) (n : Nat) : State := (s.wirePump n (s.lane n).rx.length).pauseSync n

/-- CLS_INGRESS_ARRIVE (R346, R347): a lane's buffer follows. -/
def execClsIngressArrive (i : Fin 11) (s : State) : Host.Outcome State Fault Refusal :=
  .next <|
    let s1 := s.clsAccept i.val
    if i.val < 4 then s1.wireDrain i.val else s1

/-- A received PAUSE frame (R454): the destination is the PAUSE address or the lane's own, the opcode 0x0001. -/
def State.pauseIn (s : State) (n : Nat) (data : List Byte) : State :=
  let own := le 4 (s.rd (WIRE.LANE_MAC_LO n)).toNat ++ le 2 (s.rd (WIRE.LANE_MAC_HI n)).toNat
  let dst := data.take 6
  if !s.rbit (WIRE.LANE_CTL n) 23 || (dst != be 6 0x0180C2000001 && dst != own) || fabField data 14 2 != 1 then s
  else
    let q := fabField data 16 2
    (s.setLane n { s.lane n with pauseUntil := s.clock + s.bitCycles n (q * 512) }).wf (WIRE.LANE_STATUS n) 25 25 (b2n (q != 0))

/-- WIRE_RX_FRAME (R401, R419, R452, R457): a frame with its FCS. -/
def execWireRxFrame (n : Fin 4) (data : List Byte) (s : State) : Host.Outcome State Fault Refusal :=
  .next <|
    let i := n.val
    let len := data.length
    let body := data.take (len - 4)
    let ok := le 4 (crc32 body) = data.drop (len - 4)
    let keep := ok || s.rbit (WIRE.LANE_CTL i) 22
    let type := fabField data 12 2
    let s1 := if ok then s else s.sat (WIRE.LANE_ERR_CNT i) 31 16 1
    if !s.link i then s
    else if s.life 17 != .ready then s.rxDrop i 31 16
    else if len < 64 || s.maxFrame i < len then s.sat (WIRE.LANE_ERR_CNT i) 15 8 1
    else if !keep then s1
    else if type = 0x8808 then (if ok then s1.pauseIn i data else s1)
    else if 262144 < s1.laneFill i + len then s1.rxDrop i 31 16
    else
      let ps := s.ns * 1000 - 10 * s.rf (TIME.WIRE_DELAY i) 15 0
      let x := s1.lane i
      let f : WireRx := {
        data := body, wireLen := len, stamp := if s.ns = 0 then 0 else ps / 1000 % 2 ^ 32, fabric := type = 0x88B5
        status := 2 ^ 31 + b2n ok * 2 ^ 30 + i * 2 ^ 28 + s.rf (WIRE.LANE_STATUS i) 19 16 * 2 ^ 16 + len }
      (s1.setLane i { x with rx := x.rx ++ [f] }).wireDrain i

/-! Transmit (R453). -/

/-- A frame enters a transmit queue, or is dropped (R451, R453, R457). -/
def State.txEnqueue (s : State) (n pri : Nat) (f : WireFrame) : State :=
  let x := s.lane n
  let q := tget (fun _ => []) x.q pri
  if s.life 17 != .ready || !s.link n || 256 ≤ q.length then s.txqDrop n f.desc
  else s.setLane n { x with q := tput (fun _ => []) x.q pri (q ++ [f]) }

/-- WIRE_TX_ENQUEUE (R295, R453): the oldest frame released to a lane, or the head of a wire next hop's queue. -/
def execWireTxEnqueue (src : Option (Fin 64)) (s : State) : Host.Outcome State Fault Refusal :=
  .next <|
    match src with
    | none =>
      match s.wireIn with
      | [] => s
      | w :: rest =>
        ({ s with wireIn := rest } : State).txEnqueue w.lane w.pri { desc := w.desc, dst := w.dst, beacon := w.beacon }
    | some n =>
      match s.nhQueue n.val with
      | [] => s
      | (d, _) :: rest =>
        if !s.nhOk n.val || !s.nhWire n.val || !s.live 9 then s
        else
          let mac := beVal (le 4 (s.rd (CLASS.NH_W1 n.val)).toNat ++ le 2 (s.rd (CLASS.NH_W2 n.val)).toNat)
          (s.setNhQueue n.val rest).txEnqueue (s.nhIndex n.val) (fabField (s.dData d) 6 1 % 8) { desc := d, dst := some mac }

/-- The reads of a frame before it is sent. -/
def State.wireRead (s : State) (d : Nat) : State × Bool :=
  s.frameRead 14 d

/-- Where the PTP header of an event message lies, its UDP checksum if it has one, and whether it is over IPv4 (R421). -/
structure PtpPlace where
  hdr : Nat
  sum : Option Nat := none
  v4 : Bool := false
deriving DecidableEq, Repr

/-- Byte after the VLAN tags of a frame, at most two, from its EtherType at 12 (R421). -/
def skipTags (f : List Byte) : Nat → Nat → Nat
  | 0, o => o
  | n + 1, o => let t := wv f o 2; if t = 0x8100 || t = 0x88A8 || t = 0x9100 then skipTags f n (o + 4) else o

/-- The place of PTP in a frame (R421). -/
def ptpPlace (f : List Byte) : Option PtpPlace :=
  let o := skipTags f 2 12 + 2
  let t := wv f (o - 2) 2
  let udp := fun (u : Nat) (v4 : Bool) => if wv f (u + 2) 2 = 319 then some { hdr := u + 8, sum := some (u + 6), v4 := v4 : PtpPlace } else none
  let p := if t = 0x88F7 then some { hdr := o : PtpPlace }
    else if t = 0x0800 && pb f (o + 9) = 17 then udp (o + pb f o % 16 * 4) true
    else if t = 0x86DD && pb f (o + 6) = 17 then udp (o + 40) false
    else none
  p.bind fun p => if f.length < p.hdr + 16 || pb f (p.hdr + 1) % 16 != 2 || 3 < pb f p.hdr % 16 then none else some p

/-- Ones'-complement addition of 16-bit words (RFC 1624). -/
def onesAdd (a b : Nat) : Nat := (a + b) % 65536 + (a + b) / 65536

/-- A list with bytes replaced from a place on. -/
def patch (f : List Byte) (o : Nat) (l : List Byte) : List Byte := f.take o ++ l ++ f.drop (o + l.length)

/-- A UDP checksum after correctionField changes (R423). -/
def udpSum (old new : List Byte) (hc : Nat) : Nat :=
  let c := (List.range 4).foldl (fun hc k =>
    let m := wv old (2 * k) 2
    let m' := wv new (2 * k) 2
    if m = m' then hc else 65535 - onesAdd (onesAdd (65535 - hc) (65535 - m)) m') hc
  if c = 0 then 65535 else c

/-- Egress stamp of a lane now (R419, R422). -/
def State.egress (s : State) (n : Nat) : Nat :=
  if s.ns = 0 then 0 else (s.ns * 1000 + 10 * s.rf (TIME.WIRE_DELAY n) 31 16) / 1000 % 2 ^ 32

/-- The one-step transparent clock on a frame with its STAMP (R421 to R423). -/
def State.transparent (s : State) (n stamp : Nat) (f : List Byte) : State × List Byte :=
  if !s.rbit TIME.TC_CTL n then (s, f)
  else match ptpPlace f with
    | none => (s, f)
    | some p =>
      let mt := pb f p.hdr % 16
      let corr := wv f (p.hdr + 8) 8
      let res := (s.egress n + 2 ^ 32 - stamp % 2 ^ 32) % 2 ^ 32
      if ((mt = 0 || mt = 3) && pb f (p.hdr + 6) / 2 % 2 = 1) || stamp = 0 || corr = 2 ^ 63 - 1 || 2 ^ 31 ≤ res then
        (s.sat TIME.TC_CNT 15 0 1, f)
      else
        let new := be 8 (corr + res * 2 ^ 16)
        let g := patch f (p.hdr + 8) new
        let h := match p.sum with
          | some o =>
            if p.v4 && wv f o 2 = 0 then g else patch g o (be 2 (udpSum (wbs f (p.hdr + 8) 8) new (wv f o 2)))
          | none => g
        (s.sat TIME.TC_CNT 31 16 1, h)

/-- The lane's own address in wire order. -/
def State.laneMac (s : State) (n : Nat) : List Byte :=
  le 4 (s.rd (WIRE.LANE_MAC_LO n)).toNat ++ le 2 (s.rd (WIRE.LANE_MAC_HI n)).toNat

/-- Bytes go onto the lane, padded and with their FCS (R401, R453). -/
def State.laneSend (s : State) (n : Nat) (d : Option Nat) (bytes : List Byte) : State :=
  let padded := bytes ++ List.replicate (60 - bytes.length) 0
  let out := padded ++ le 4 (crc32 padded)
  s.setLane n { s.lane n with cur := some { desc := d, bytes := out, endAt := s.clock + s.bitCycles n (8 * (out.length + 8)) } }

/-- A frame fails before it starts: TX_ERR (R453). -/
def State.txErr (s : State) (n d : Nat) : State := (s.sat (WIRE.LANE_ERR_CNT n) 7 0 1).freeDesc 14 d

/-- A frame is committed to the lane (R295, R422, R427, R453). -/
def State.txFrame (s : State) (n : Nat) (f : WireFrame) : State :=
  let r := s.wireRead f.desc
  if !r.2 then (if s.storeUp then r.1.recordErr 17 0x80 n 0 f.desc false else r.1).txErr n f.desc
  else
    let data := s.dData f.desc
    let whole := match f.dst with
      | some m => be 6 m ++ s.laneMac n ++ be 2 0x88B5 ++ data
      | none => data
    if s.maxFrame n - 4 < whole.length then r.1.txErr n f.desc
    else
      let t := r.1.transparent n (s.dw f.desc 4) whole
      let s1 := if f.beacon then t.1.modFab fun u => { u with
          bcn := tput (fun _ => (0, 0)) u.bcn (4 + n) ((tget (fun _ => (0, 0)) u.bcn (4 + n)).1, s.egress n) } else t.1
      s1.laneSend n (some f.desc) t.2

/-- WIRE_TX_START (R422, R453, R454): a PAUSE frame first, else the head of the highest queue while no PAUSE holds the lane. -/
def execWireTxStart (n : Fin 4) (s : State) : Host.Outcome State Fault Refusal :=
  .next <|
    let i := n.val
    let x := s.lane i
    if x.cur.isSome || !s.link i || !s.live 17 then s
    else match x.pauseOut with
      | q :: rest =>
        (s.setLane i { x with pauseOut := rest }).laneSend i none (be 6 0x0180C2000001 ++ s.laneMac i ++ be 2 0x8808 ++ be 2 1 ++ be 2 q)
      | [] =>
        if s.clock < x.pauseUntil then s
        else match [7, 6, 5, 4, 3, 2, 1, 0].find? fun p => !(tget (fun _ => []) x.q p).isEmpty with
          | none => s
          | some p =>
            match tget (fun _ => []) x.q p with
            | [] => s
            | f :: rest => (s.setLane i { x with q := tput (fun _ => []) x.q p rest }).txFrame i f

/-- WIRE_TX_END (R453): the last byte has left; the reference is released. -/
def execWireTxEnd (n : Fin 4) (s : State) : Host.Outcome State Fault Refusal :=
  .next <|
    let x := s.lane n.val
    match x.cur with
    | none => s
    | some t =>
      if s.clock < t.endAt then s
      else
        let s1 := s.setLane n.val { x with cur := none }
        match t.desc with
        | some d => (s1.freeDesc 14 d).sat (WIRE.LANE_TX_CNT n.val) 31 0 1
        | none => s1

/-- PAUSE_EXPIRE (R454). -/
def execPauseExpire (n : Fin 4) (s : State) : Host.Outcome State Fault Refusal :=
  .next <| if s.clock < (s.lane n.val).pauseUntil then s else s.wf (WIRE.LANE_STATUS n.val) 25 25 0

/-- WIRE may enter HELD: its queues are empty and no frame is on a lane (R457). -/
def State.wireQuiet (s : State) : Bool :=
  (List.range 4).all fun n => let x := s.lane n; x.cur.isNone && (x.q.flatMap (·.2)).isEmpty

/-- Work of WIRE is discarded at a RESET (R17): references it holds are released. -/
def State.wireDiscard (s : State) : State :=
  (List.range 4).foldl (fun s n =>
    let x := s.lane n
    let ds := (x.q.flatMap (·.2)).map (·.desc) ++ (match x.cur with | some t => t.desc.toList | none => [])
    (ds.foldl (fun s d => s.freeDesc 14 d) s).setLane n {}) s

/-! MDIO (R455, R456). -/

/-- A command of MDIO_CMD: dropped while one is in progress or posted, ILLEGAL while EN is 0, else on the bus. -/
def State.mdioCmd (s : State) (by_ : Req) (c45 read : Bool) (phyad reg : Nat) (tag : Tag) : State :=
  s.onWrite by_ 17 fun s =>
    if !s.pathFree WIRE.MDIO_RESULT then s.reqDrop 17
    else if !s.rbit WIRE.MDIO_CTL 31 then (s.pathPost WIRE.MDIO_RESULT 16 tag (2 * 2 ^ 28)).evt 17 24
    else
      let a := s.rd WIRE.MDIO_ARG
      let s1 := s.pathBusy WIRE.MDIO_RESULT 16 tag
      { s1 with wire := { s1.wire with mdio := s1.wire.mdio ++ [{
          c45 := c45, read := read, phyad := phyad, reg := reg, addr := fld a 31 16, data := fld a 15 0, tag := tag }] } }

/-- MDIO_C22_WRITE (R455). -/
def execMdioC22Write (by_ : Req) (phyad reg : BitVec 5) (tag : Tag) (s : State) : Host.Outcome State Fault Refusal :=
  .next <| s.mdioCmd by_ false false phyad.toNat reg.toNat tag
/-- MDIO_C22_READ (R455). -/
def execMdioC22Read (by_ : Req) (phyad reg : BitVec 5) (tag : Tag) (s : State) : Host.Outcome State Fault Refusal :=
  .next <| s.mdioCmd by_ false true phyad.toNat reg.toNat tag
/-- MDIO_C45_WRITE (R455). -/
def execMdioC45Write (by_ : Req) (phyad mmd : BitVec 5) (tag : Tag) (s : State) : Host.Outcome State Fault Refusal :=
  .next <| s.mdioCmd by_ true false phyad.toNat mmd.toNat tag
/-- MDIO_C45_READ (R455). -/
def execMdioC45Read (by_ : Req) (phyad mmd : BitVec 5) (tag : Tag) (s : State) : Host.Outcome State Fault Refusal :=
  .next <| s.mdioCmd by_ true true phyad.toNat mmd.toNat tag

/-- PHY_POLL (R456): POLL_MS after the last poll, a read of the link status joins the bus. -/
def execPhyPoll (n : Fin 4) (s : State) : Host.Outcome State Fault Refusal :=
  .next <|
    let w := s.rd (WIRE.PHY_POLL n.val)
    let last := tget (fun _ => 0) s.wire.polled n.val
    if !bit w 31 || !s.rbit WIRE.MDIO_CTL 31 || !s.live 17 || s.wire.mdio.any (·.poll = some n.val)
        || (last != 0 && s.clock + 1 < last + 500000 * max 1 (fld w 23 16)) then s
    else
      { s with wire := { s.wire with
          polled := tput (fun _ => 0) s.wire.polled n.val (s.clock + 1)
          mdio := s.wire.mdio ++ [{
            poll := some n.val, c45 := bit w 30, read := true, phyad := fld w 29 25, reg := 1, addr := 1, data := 0 }] } }

/-- MDIO_TRANSACTION_DONE (R455, R456): the oldest transaction ends; a read finds the data a PHY drives, or none. -/
def execMdioTransactionDone (resp : Option (BitVec 16)) (s : State) : Host.Outcome State Fault Refusal :=
  .next <|
    match s.wire.mdio with
    | [] => s
    | t :: rest =>
      let s1 : State := { s with wire := { s.wire with mdio := rest } }
      let data := (resp.map (·.toNat)).getD 0xFFFF
      match t.poll with
      | some n =>
        let r := WIRE.PHY_POLL n
        let up := data / 4 % 2
        if s1.rf r 24 24 = up then s1 else (s1.wf r 24 24 up).evt 17 (25 + n)
      | none =>
        let code := if t.read && resp.isNone then 1 else 0
        (s1.pathPost WIRE.MDIO_RESULT 16 t.tag (code * 2 ^ 28 + if t.read then data else 0)).evt 17 24

/-- MDIO_ACK (R28, R455). -/
def execMdioAck (by_ : Req) (tag : Tag) (s : State) : Host.Outcome State Fault Refusal :=
  .next <| s.onWrite by_ 17 fun s => s.pathAck WIRE.MDIO_RESULT 16 tag

end Sys2Proof.Machine
end

