-- ==== Sys2Proof/Machine/HostIf.lean ====
section
/-! DEFINITION. HOST: the PCI Express function, host rings, message coalescing and mailboxes (R434 to R449). Accesses of the
host through its BARs are with the bus. -/

namespace Sys2Proof.Machine

open Reg

/-- Change HOST's hidden state. -/
def State.modHost (s : State) (f : HostUnit → HostUnit) : State := { s with hostU := f s.hostU }

/-! Rings (R440 to R445). -/

/-- Entries of a ring. -/
def State.ringSize (s : State) (r : Nat) : Nat := 2 ^ max 4 (s.rf (HOST.RING_W0 r) 19 16)
/-- EN of a ring. -/
def State.ringOn (s : State) (r : Nat) : Bool := s.rbit (HOST.RING_W0 r) 31
/-- The ring is device-to-host. -/
def State.ringD2h (s : State) (r : Nat) : Bool := s.rbit (HOST.RING_W0 r) 30
/-- The ring's data carries a check. -/
def State.ringCrc (s : State) (r : Nat) : Bool := s.rbit (HOST.RING_W0 r) 29
/-- HEAD of a ring. -/
def State.ringHead (s : State) (r : Nat) : Nat := s.rf (HOST.RING_W4 r) 14 0 % s.ringSize r
/-- The ring has no entry for HOST. -/
def State.ringEmpty (s : State) (r : Nat) : Bool := s.ringHead r = s.rf (HOST.RING_W3 r) 14 0 % s.ringSize r
/-- Host address of the entry at HEAD. -/
def State.ringEntry (s : State) (r : Nat) : Nat :=
  (s.rd (HOST.RING_W1 r)).toNat + 2 ^ 32 * (s.rd (HOST.RING_W2 r)).toNat + 32 * s.ringHead r

/-- Rings are served: HOST is READY or finishes frames in DRAINING, EN is 1 and the host is present (R447). -/
def State.ringServed (s : State) (r : Nat) : Bool :=
  s.live 16 && s.rbit HOST.HOST_CTL 31 && !s.hostAbsent && s.ringOn r

/-- Waiting frames of a D2H ring. -/
def State.d2hQueue (s : State) (r : Nat) : List Nat := tget (fun _ => []) s.hostU.d2h r
/-- Replace the waiting frames of a D2H ring. -/
def State.setD2h (s : State) (r : Nat) (l : List Nat) : State :=
  s.modHost fun x => { x with d2h := tput (fun _ => []) x.d2h r l }

/-- A write of RING word 0 (R440): DIR, CRC and SIZE_LOG2 ignore it while EN is 1; EN written 1 sets HEAD and TAIL to 0 and
clears STOPPED. -/
def State.ringConfig (s : State) (r : Nat) (val : Word) : State :=
  let old := s.rd (HOST.RING_W0 r)
  let v := if bit old 31 then (old &&& 0x700F0000) ||| (val &&& 0x8000FF00) else (old &&& 0x10000000) ||| (val &&& 0xE00FFF00)
  let s1 := s.wr (HOST.RING_W0 r) v
  if bit val 31 then ((s1.wr (HOST.RING_W0 r) (putBit v 28 false)).wr (HOST.RING_W3 r) 0).wr (HOST.RING_W4 r) 0 else s1

/-- RING_CONFIG_WRITE (R440). -/
def execRingConfigWrite (by_ : Req) (r : BitVec 8) (val : Word) (s : State) : Host.Outcome State Fault Refusal :=
  .next <| s.onWrite by_ 16 fun s => s.ringConfig r.toNat val

/-- RING_TAIL_WRITE (R440). -/
def execRingTailWrite (by_ : Req) (r : BitVec 8) (val : Word) (s : State) : Host.Outcome State Fault Refusal :=
  .next <| s.onWrite by_ 16 fun s => s.wr (HOST.RING_W3 r.toNat) (val &&& 0x7FFF)

/-- A posted write to host memory (R440). -/
def State.hostWrite (s : State) (a : Nat) (l : List Byte) : State :=
  s.modHost fun x => { x with out := x.out ++ [{ addr := a % 2 ^ 64, bytes := l }] }

/-- Send the message of a ring, with which its count starts again (R444). -/
def State.ringMsg (s : State) (r : Nat) : State :=
  (s.modHost fun x => { x with coal := tput (fun _ => 0) x.coal r 0, coalAt := tput (fun _ => 0) x.coalAt r 0 }).sendMsix
    (s.rf (HOST.RING_W0 r) 15 8)

/-- An entry is finished: written back from byte `o` on, HEAD advances, FRAMES counts an OK, and the message is sent once
COAL_CNT entries have been written back (R440, R444). -/
def State.entryDone (s : State) (r o : Nat) (words : List Nat) (ok : Bool) : State :=
  let s1 := s.hostWrite (s.ringEntry r + o) (words.flatMap (le 4))
  let s2 := s1.wr (HOST.RING_W4 r) (wd ((s1.ringHead r + 1) % s1.ringSize r))
  let s3 := if ok then s2.wr (HOST.RING_W6 r) (s2.rd (HOST.RING_W6 r) + 1) else s2
  let n := tget (fun _ => 0) s3.hostU.coal r + 1
  let s4 := s3.modHost fun x => { x with
    coal := tput (fun _ => 0) x.coal r n, coalAt := if n = 1 then tput (fun _ => 0) x.coalAt r (s3.clock + 1) else x.coalAt }
  if max 1 (s4.rf (HOST.RING_W5 r) 15 0) ≤ n then s4.ringMsg r else s4

/-- COAL_TIMER (R444): COAL_US after the first write-back not yet signalled. -/
def execCoalTimer (r : BitVec 8) (s : State) : Host.Outcome State Fault Refusal :=
  .next <|
    let us := s.rf (HOST.RING_W5 r.toNat) 31 16
    let at_ := tget (fun _ => 0) s.hostU.coalAt r.toNat
    if us = 0 || at_ = 0 || s.clock + 1 < at_ + 500 * us then s else s.ringMsg r.toNat

/-- The check of a ring's data (R443): over the entry index, the ring number, then the data. -/
def ringSum (idx r : Nat) (data : List Byte) : List Byte := le 4 (crc32c (le 2 idx ++ le 1 r ++ data))

/-- HOST_H2D_FRAME (R441): the entry at HEAD, with LEN and the bytes read from its buffer. -/
def execHostH2dFrame (r : BitVec 8) (len : BitVec 16) (buf : List Byte) (s : State) : Host.Outcome State Fault Refusal :=
  .next <|
    let i := r.toNat
    let crc := s.ringCrc i
    let n := len.toNat
    let raw := (List.range n).map fun j => buf.getD j 0
    let data := if crc then raw.take (n - 4) else raw
    let done := fun (s : State) (code : Nat) => s.entryDone i 12 [2 ^ 31 + code * 2 ^ 28, s.ns % 2 ^ 32, 0, 0, 0] (code = 0)
    if !s.ringServed i || s.life 16 != .ready || s.ringD2h i || s.ringEmpty i || s.clsIn.any (·.ingress = 7)
        || 64 ≤ (s.clsQueue 7).length then s
    else if n = 0 || (crc && n ≤ 4) then done s 5
    else
      let w := s.rxStore 13 data 0 s.ns
      match w.2 with
      | none => done (w.1.sat HOST.HOST_CNT0 15 8 1) 1
      | some d =>
        if crc && raw.drop (n - 4) != ringSum (s.ringHead i) i data then
          done ((w.1.freeDesc 13 d).sat HOST.HOST_CNT0 7 0 1) 2
        else
          done (({ w.1 with clsIn := w.1.clsIn ++ [{ ingress := 7, desc := d, srcid := i }] } : State).clsAccept 7) 0

/-- A frame released to a ring is dropped: GONE_DROP (R442, R447). -/
def State.goneDrop (s : State) (d : Nat) : State := (s.sat HOST.HOST_CNT0 31 16 1).freeDesc 13 d

/-- HOST_D2H_RELEASE (R442, R448): the oldest frame released to a host ring. -/
def execHostD2hRelease (s : State) : Host.Outcome State Fault Refusal :=
  .next <|
    match s.hostIn with
    | [] => s
    | (r, d) :: rest =>
      if s.life 16 = .draining then s
      else
        let s1 : State := { s with hostIn := rest }
        if !s.ringServed r || !s.ringD2h r then s1.goneDrop d
        else if 64 ≤ (s.d2hQueue r).length then (s1.sat HOST.HOST_CNT1 31 16 1).freeDesc 13 d
        else s1.setD2h r (s.d2hQueue r ++ [d])

/-- The reads of a frame for the host. -/
def State.hostRead (s : State) (d : Nat) : State × Bool :=
  s.frameRead 13 d

/-- HOST_D2H_WRITEBACK (R442): the oldest frame of a ring into the entry at HEAD, with the entry's ADDR and BUF_LEN. -/
def execHostD2hWriteback (r : BitVec 8) (addr : BitVec 64) (bufLen : BitVec 16) (s : State) : Host.Outcome State Fault Refusal :=
  .next <|
    let i := r.toNat
    match s.d2hQueue i with
    | [] => s
    | d :: rest =>
      if !s.ringServed i || !s.ringD2h i || s.ringEmpty i then s
      else
        let s1 := s.setD2h i rest
        let done := fun (s : State) (code len : Nat) =>
          (s.entryDone i 8 [bufLen.toNat * 2 ^ 16 + len, 2 ^ 31 + code * 2 ^ 28, s.dw d 4, s.dw d 3, nbits (s.dw d 1) 19 15, 0]
            (code = 0)).freeDesc 13 d
        if bufLen.toNat < 64 then done s1 5 0
        else
          let rd := s1.hostRead d
          if !rd.2 then done (if s.storeUp then rd.1.recordErr 16 0x80 noUnit 0 d false else rd.1) 4 0
          else
            let data := s.dData d
            let out := if s.ringCrc i then data ++ ringSum (s.ringHead i) i data else data
            if bufLen.toNat < out.length then done (rd.1.sat HOST.HOST_CNT1 15 8 1) 3 0
            else done (rd.1.hostWrite addr.toNat out) 0 out.length

/-- HOST_DMA_ERROR (R445): the ring stops; a frame in progress is released. -/
def execHostDmaError (r : BitVec 8) (s : State) : Host.Outcome State Fault Refusal :=
  .next <|
    let i := r.toNat
    if !s.ringServed i then s
    else
      let s1 := ((s.wf (HOST.RING_W0 i) 31 31 0).wf (HOST.RING_W0 i) 28 28 1).recordErr 16 0x81 i 0 0 false
      let s2 := s1.evt 16 20
      match s.ringD2h i, s2.d2hQueue i with
      | true, d :: rest => (s2.setD2h i rest).freeDesc 13 d
      | _, _ => s2

/-! Absence, link and function (R435, R447). -/

/-- HOST quiesces (R447): every ring stops, and waiting frames are released and counted. -/
def State.quiesce (s : State) : State :=
  let s1 := (List.range 256).foldl (fun s r =>
    if s.ringOn r then (s.wf (HOST.RING_W0 r) 31 31 0).wf (HOST.RING_W0 r) 28 28 1 else s) s
  (s1.hostU.d2h.flatMap (·.2)).foldl (fun s d => s.goneDrop d) (s1.modHost fun x => { x with d2h := [] })

/-- After a change of the function's state the host may have become absent (R447). -/
def State.hostSync (s : State) : State := if s.hostAbsent then s.quiesce else s

/-- Pending messages whose masks have fallen are sent (R439). -/
def State.msixFlush (s : State) : State :=
  if s.hostAbsent || !s.rbit HOST.HOST_STATUS 29 || s.msixFuncMask then s
  else
    let ready := s.msixPend.filter fun v => !(tget (fun _ => {}) s.msix v).masked
    { s with msixPend := s.msixPend.filter fun v => (tget (fun _ => {}) s.msix v).masked, msixSent := s.msixSent ++ ready }

/-- Set BME, MSIX_EN and D3; FUNC_CHG sets where one changes (R449). -/
def State.setFunction (s : State) (bme msixEn d3 : Bool) : State :=
  let v := 4 * b2n bme + 2 * b2n msixEn + b2n d3
  if s.rf HOST.HOST_STATUS 30 28 = v then s
  else (((s.wf HOST.HOST_STATUS 30 28 v).evt 16 21).hostSync).msixFlush

/-- The configuration space, the MSI-X table and the BAR size return to reset (R447). -/
def State.configReset (s : State) : State :=
  (({ s with msix := [], msixFuncMask := false, msixPend := [] } : State).modHost fun x => { x with barLog := 28 }).setFunction
    false false false

/-- PCIE_LINK_UP (R435, R449): the link trains once HOST has entered CALIBRATE, while PERST_N is high. -/
def execPcieLinkUp (speed : Fin 4) (width : BitVec 4) (s : State) : Host.Outcome State Fault Refusal :=
  .next <|
    let l := s.life 16
    let w := if width.toNat = 1 || width.toNat = 2 then width.toNat else 4
    if l = .off || l = .reset || l = .selftest || !s.hostU.perst || s.rbit HOST.HOST_STATUS 31 then s
    else ((s.wf HOST.HOST_STATUS 31 31 1).wf HOST.HOST_STATUS 23 16 ((speed.val + 1) * 16 + w)).evt 16 16

/-- The link goes down (R447). -/
def State.linkDown (s : State) : State :=
  if !s.rbit HOST.HOST_STATUS 31 then s
  else ((((s.wf HOST.HOST_STATUS 31 31 0).wf HOST.HOST_STATUS 23 16 0).evt 16 17).quiesce).configReset

/-- PCIE_LINK_DOWN (R447). -/
def execPcieLinkDown (s : State) : Host.Outcome State Fault Refusal := .next s.linkDown

/-- HOST_FUNCTION_CHANGE (R447, R449): an FLR resets the configuration space without loss of the link. -/
def execHostFunctionChange (bme msixEn d3 flr : Bool) (s : State) : Host.Outcome State Fault Refusal :=
  .next <|
    if !s.rbit HOST.HOST_STATUS 31 || !s.active 16 then s
    else if flr then (s.quiesce).configReset
    else s.setFunction bme msixEn d3

/-- PCIE_CONFIG_REQUEST (R435, R437): retried before READY, performed otherwise. -/
def execPcieConfigRequest (cfg : HostCfg) (s : State) : Host.Outcome State Fault Refusal :=
  .next <|
    if !s.rbit HOST.HOST_STATUS 31 || !s.active 16 then s
    else match cfg with
      | .barSize n => if 28 ≤ n.val && n.val ≤ 33 then s.modHost fun x => { x with barLog := n.val } else s
      | .functionMask on => ({ s with msixFuncMask := on } : State).msixFlush
      | .other => s

/-- CLKREQ_N as HOST drives it: low while HOST is not OFF (R435). -/
def State.clkreqN (s : State) : Bool := s.life 16 = .off

/-- WAKE_N as HOST drives it: low in D3hot while an event routed with TO_HOST is pending (R435). -/
def State.wakeN (s : State) : Bool :=
  !(s.rbit HOST.HOST_STATUS 28 && (List.range 18).any fun t =>
    let x := s.tile t
    x.life != .off && bit x.evtRoute 30 && (x.evtPend &&& x.evtMask) != 0)

/-! Mailboxes (R446). -/

/-- A write of MBX[k].CMD. -/
def State.mbxCmd (s : State) (k : Nat) (val : Word) : State :=
  if !s.pathFree (HOST.MBX_W5 k) then s.sat HOST.HOST_CNT1 7 0 1
  else ((s.pathBusy (HOST.MBX_W5 k) 0 (BitVec.ofNat 8 (fld val 7 0))).wr (HOST.MBX_W4 k) (val &&& 0xFFFF00FF)).evt 16 18

/-- MBX_CMD (R446). -/
def execMbxCmd (by_ : Req) (k : Fin 8) (op : BitVec 16) (tag : Tag) (s : State) : Host.Outcome State Fault Refusal :=
  .next <| s.onWrite by_ 16 fun s => s.mbxCmd k.val (wd (op.toNat * 2 ^ 16 + tag.toNat))

/-- A write of MBX[k].POST: from MGMT only, with the tag of the pending command. -/
def State.mbxPost (s : State) (by_ : Req) (k code tag : Nat) : State :=
  let r := HOST.MBX_W5 k
  if reqMgmt by_ && s.rbit r 30 && s.rf r 7 0 = tag then
    (s.pathPost r 0 (BitVec.ofNat 8 tag) (code * 2 ^ 16)).evt 16 19
  else s

/-- MBX_POST (R446). -/
def execMbxPost (by_ : Req) (k : Fin 8) (code : BitVec 8) (tag : Tag) (s : State) : Host.Outcome State Fault Refusal :=
  .next <| s.onWrite by_ 16 fun s => s.mbxPost by_ k.val code.toNat tag.toNat

/-- MBX_ACK (R28, R446). -/
def execMbxAck (by_ : Req) (k : Fin 8) (tag : Tag) (s : State) : Host.Outcome State Fault Refusal :=
  .next <| s.onWrite by_ 16 fun s => s.pathAck (HOST.MBX_W5 k.val) 0 tag

end Sys2Proof.Machine
end

