-- ==== Sys2Proof/Machine/Sha.lean ====
section
/-! DEFINITION. SHA-384 (FIPS 180-4) and the verification of ECDSA signatures on P-384 (FIPS 186), which R459, R463 and R473
name and leave to those standards (PRESUMED, log entry 27). -/

namespace Sys2Proof.Machine

/-- A sum of 64-bit words. -/
def add64 (a b : Nat) : Nat := (a + b) % 2 ^ 64
/-- Right rotation of a 64-bit word. -/
def rotr64 (x n : Nat) : Nat := x / 2 ^ n + x * 2 ^ (64 - n) % 2 ^ 64

/-- The round constants of SHA-384. -/
def sha384K : List Nat :=
  [0x428A2F98D728AE22, 0x7137449123EF65CD, 0xB5C0FBCFEC4D3B2F, 0xE9B5DBA58189DBBC] ++
  [0x3956C25BF348B538, 0x59F111F1B605D019, 0x923F82A4AF194F9B, 0xAB1C5ED5DA6D8118] ++
  [0xD807AA98A3030242, 0x12835B0145706FBE, 0x243185BE4EE4B28C, 0x550C7DC3D5FFB4E2] ++
  [0x72BE5D74F27B896F, 0x80DEB1FE3B1696B1, 0x9BDC06A725C71235, 0xC19BF174CF692694] ++
  [0xE49B69C19EF14AD2, 0xEFBE4786384F25E3, 0x0FC19DC68B8CD5B5, 0x240CA1CC77AC9C65] ++
  [0x2DE92C6F592B0275, 0x4A7484AA6EA6E483, 0x5CB0A9DCBD41FBD4, 0x76F988DA831153B5] ++
  [0x983E5152EE66DFAB, 0xA831C66D2DB43210, 0xB00327C898FB213F, 0xBF597FC7BEEF0EE4] ++
  [0xC6E00BF33DA88FC2, 0xD5A79147930AA725, 0x06CA6351E003826F, 0x142929670A0E6E70] ++
  [0x27B70A8546D22FFC, 0x2E1B21385C26C926, 0x4D2C6DFC5AC42AED, 0x53380D139D95B3DF] ++
  [0x650A73548BAF63DE, 0x766A0ABB3C77B2A8, 0x81C2C92E47EDAEE6, 0x92722C851482353B] ++
  [0xA2BFE8A14CF10364, 0xA81A664BBC423001, 0xC24B8B70D0F89791, 0xC76C51A30654BE30] ++
  [0xD192E819D6EF5218, 0xD69906245565A910, 0xF40E35855771202A, 0x106AA07032BBD1B8] ++
  [0x19A4C116B8D2D0C8, 0x1E376C085141AB53, 0x2748774CDF8EEB99, 0x34B0BCB5E19B48A8] ++
  [0x391C0CB3C5C95A63, 0x4ED8AA4AE3418ACB, 0x5B9CCA4F7763E373, 0x682E6FF3D6B2B8A3] ++
  [0x748F82EE5DEFB2FC, 0x78A5636F43172F60, 0x84C87814A1F0AB72, 0x8CC702081A6439EC] ++
  [0x90BEFFFA23631E28, 0xA4506CEBDE82BDE9, 0xBEF9A3F7B2C67915, 0xC67178F2E372532B] ++
  [0xCA273ECEEA26619C, 0xD186B8C721C0C207, 0xEADA7DD6CDE0EB1E, 0xF57D4F7FEE6ED178] ++
  [0x06F067AA72176FBA, 0x0A637DC5A2C898A6, 0x113F9804BEF90DAE, 0x1B710B35131C471B] ++
  [0x28DB77F523047D84, 0x32CAAB7B40C72493, 0x3C9EBE0A15C9BEBC, 0x431D67C49C100D4C] ++
  [0x4CC5D4BECB3E42B6, 0x597F299CFC657E2A, 0x5FCB6FAB3AD6FAEC, 0x6C44198C4A475817]

/-- The initial hash words of SHA-384. -/
def sha384H : List Nat :=
  [0xCBBB9D5DC1059ED8, 0x629A292A367CD507, 0x9159015A3070DD17, 0x152FECD8F70E5939] ++
  [0x67332667FFC00B31, 0x8EB44A8768581511, 0xDB0C2E0D64F98FA7, 0x47B5481DBEFA4FA4]

/-- The sixteen last words of the message schedule, newest first, after one more word. -/
def shaNext (w : List Nat) : Nat :=
  let a := w.getD 14 0
  let b := w.getD 1 0
  add64 (add64 (rotr64 b 19 ^^^ rotr64 b 61 ^^^ (b / 2 ^ 6)) (w.getD 6 0))
    (add64 (rotr64 a 1 ^^^ rotr64 a 8 ^^^ (a / 2 ^ 7)) (w.getD 15 0))

/-- The message schedule, newest word first, extended by `n` words. -/
def shaSchedule : Nat → List Nat → List Nat
  | 0, w => w
  | n + 1, w => shaSchedule n (shaNext w :: w)

/-- One round on the eight working words, with the sum of its constant and its schedule word. -/
def shaRound (v : List Nat) (kw : Nat) : List Nat :=
  match v with
  | [a, b, c, d, e, f, g, h] =>
    let t1 := add64 (add64 h (rotr64 e 14 ^^^ rotr64 e 18 ^^^ rotr64 e 41))
      (add64 ((e &&& f) ^^^ ((2 ^ 64 - 1 - e) &&& g)) kw)
    let t2 := add64 (rotr64 a 28 ^^^ rotr64 a 34 ^^^ rotr64 a 39) ((a &&& b) ^^^ (a &&& c) ^^^ (b &&& c))
    [add64 t1 t2, a, b, c, add64 d t1, e, f, g]
  | _ => v

/-- Eight octets, most significant first. -/
def be64 (l : List Nat) : Nat := ofBe l

/-- One block of 128 octets. -/
def shaBlock (h : List Nat) (blk : List Nat) : List Nat :=
  let w := shaSchedule 64 ((groups 8 16 blk).map be64).reverse
  List.zipWith add64 h ((List.zipWith add64 sha384K w.reverse).foldl shaRound h)

/-- SHA-384 of octets, as 48 octets. -/
def sha384 (m : List Nat) : List Nat :=
  let pad := m ++ [0x80] ++ List.replicate ((239 - m.length % 128) % 128) 0 ++ beN 16 (8 * m.length)
  (((groups 128 (pad.length / 128) pad).foldl shaBlock sha384H).take 6).flatMap (beN 8)

/-- The field prime of P-384. -/
def p384 : Nat := 2 ^ 384 - 2 ^ 128 - 2 ^ 96 + 2 ^ 32 - 1
/-- The order of its base point. -/
def n384 : Nat := 0xffffffffffffffffffffffffffffffffffffffffffffffffc7634d81f4372ddf581a0db248b0a77aecec196accc52973
/-- The constant term of its equation. -/
def b384 : Nat := 0xb3312fa7e23ee7e4988e056be3f82d19181d9c6efe8141120314088f5013875ac656398d8a2ed19d2a85c8edd3ec2aef
/-- Its base point. -/
def g384 : Nat × Nat :=
  (0xaa87ca22be8b05378eb1c71ef320ad746e1d3b628ba79b9859f741e082542a385502f25dbf55296c3a545e3872760ab7,
   0x3617de4a96262c6f5d9e98bf9292dc29f8f41dbd289a147ce9da3113b5f0b8c00a60b1ce1d7e819d7a431d7c90ea0e5f)

/-- A power modulo `m`, by `n` bits of the exponent. -/
def powMod (m : Nat) : Nat → Nat → Nat → Nat
  | 0, _, _ => 1
  | n + 1, b, e => (if e % 2 = 1 then b else 1) * powMod m n (b * b % m) (e / 2) % m

/-- The inverse modulo a prime of 384 bits. -/
def invMod (m a : Nat) : Nat := powMod m 384 (a % m) (m - 2)

/-- The sum of two points; none is the point at infinity. -/
def ecAdd (u v : Option (Nat × Nat)) : Option (Nat × Nat) :=
  match u, v with
  | none, v => v
  | u, none => u
  | some (x, y), some (x', y') =>
    if x = x' && (y + y') % p384 = 0 then none
    else
      let l := if x = x' then (3 * x * x + (p384 - 3)) * invMod p384 (2 * y) % p384
        else (y' + p384 - y) * invMod p384 (x' + p384 - x) % p384
      let r := (l * l + 2 * p384 - x - x') % p384
      some (r, (l * (x + p384 - r) + p384 - y) % p384)

/-- A multiple of a point, by `n` bits of the factor. -/
def ecMul : Nat → Nat → Option (Nat × Nat) → Option (Nat × Nat)
  | 0, _, _ => none
  | n + 1, k, u => ecAdd (if k % 2 = 1 then u else none) (ecMul n (k / 2) (ecAdd u u))

/-- A signature (r, s), each 48 octets most significant first, verifies a digest with a public key, x then y (R463). -/
def ecdsaVerify (digest key sig : List Nat) : Bool :=
  let x := ofBe (key.take 48)
  let y := ofBe ((key.drop 48).take 48)
  let r := ofBe (sig.take 48)
  let t := ofBe ((sig.drop 48).take 48)
  let onCurve := x < p384 && y < p384 && (y * y) % p384 = (x * x * x + (p384 - 3) * x + b384) % p384
  let inRange := 0 < r && r < n384 && 0 < t && t < n384
  if !onCurve || !inRange then false
  else
    let w := invMod n384 t
    match ecAdd (ecMul 384 (ofBe digest * w % n384) (some g384)) (ecMul 384 (r * w % n384) (some (x, y))) with
    | some (rx, _) => rx % n384 = r
    | none => false

end Sys2Proof.Machine
end

