-- ==== Sys2Proof/Machine/Mgmt.lean ====
section
/-! DEFINITION. MGMT (chapters 19 and 20): the OTP, the event log, sensors and throttling, watchdogs, Axolotl's attempts, the
CR, flash and AVS commands, restarts of MGMT and device resets. -/

namespace Sys2Proof.Machine

open Reg

/-- Change what MGMT holds behind its registers. -/
def State.modMgmt (s : State) (f : MgmtUnit → MgmtUnit) : State := { s with mgmt := f s.mgmt }

/-- A decode error on an access that a requester issued: cause 0x08 in its tile (R25). -/
def State.decodeErr (s : State) (by_ : Req) (addr : Nat) : State := s.recordErr (reqTile by_) 8 noUnit 0 addr false

/-- Base of MGMT's private space (R23). -/
def privBase : Nat := 0x3001000000

/-- A write to MGMT's private space at an offset: from MGMT only (R23). -/
def State.onPriv (s : State) (by_ : Req) (off : Nat) (f : State → State) : State :=
  if reqMgmt by_ then f s else s.decodeErr by_ (privBase + off)

/-! OTP and the event log (R459, R464). -/

/-- The OTP word CFG. -/
def State.otpCfg (s : State) : Word := wd (s.rm (privBase + 0xD4) 4)

/-- A write of OTP_PROG: bits of a permitted word go from 0 to 1. -/
def State.otpProg (s : State) (val : Word) : State :=
  let o := 4 * fld val 31 20
  if o < 0x10 || (bit s.otpCfg 4 && o < 0x200) then s
  else
    let a := privBase + o + (if bit val 16 then 2 else 0)
    s.wm a 2 (s.rm a 2 ||| fld val 15 0)

/-- OTP_PROG (R459, R473). -/
def execOtpProg (by_ : Req) (val : Word) (s : State) : Host.Outcome State Fault Refusal :=
  .next <| s.onPriv by_ 0x1000 fun s => s.otpProg val

/-- A write of LOG_PUT: a KIND of 128 or more is appended for the tile that wrote it. -/
def State.logPut (s : State) (by_ : Req) (val : Word) : State :=
  if fld val 31 24 < 128 then s else s.logRec (reqTile by_) (fld val 31 24) (fld val 23 8) (fld val 7 0) 0 0 0

/-- LOG_PUT (R464). -/
def execLogPut (by_ : Req) (val : Word) (s : State) : Host.Outcome State Fault Refusal :=
  .next <| s.onWrite by_ 0 fun s => s.logPut by_ val

/-- A write of LOG_PERS: the records from it up to LOG_WR are those not persisted (DEDUCED, log entry 32). -/
def State.logPers (s : State) (val : Word) : State :=
  let s1 := s.wr MGMT.LOG_PERS (val &&& 0x7FF)
  { s1 with logUnpers := (s.rf MGMT.LOG_WR 10 0 + 2048 - fld val 10 0) % 2048 }

/-! Sensors, throttling and monitors (R465, R466). -/

/-- A threshold of THERM_THR in whole degrees. -/
def State.thr (s : State) (k : Nat) : Int := sval 8 (s.rf MGMT.THERM_THR (8 * k - 1) (8 * k - 8))

/-- The stages left as the temperature falls. -/
def stageFall (thr : Nat → Int) (tj : Int) : Nat → Nat
  | 0 => 0
  | k + 1 => if tj < thr (k + 1) - 3 then stageFall thr tj k else k + 1

/-- The thermal stage after a reading (R465). -/
def stageNext (thr : Nat → Int) (tj : Int) (stage : Nat) : Nat :=
  let up := if thr 4 ≤ tj then 4 else if thr 3 ≤ tj then 3 else if thr 2 ≤ tj then 2 else if thr 1 ≤ tj then 1 else 0
  if stage < up then up else stageFall thr tj stage

/-- Whether a reading in 0.25 °C is within -60 to 150 °C. -/
def tempValid (d : BitVec 16) : Bool := -240 ≤ d.toInt && d.toInt ≤ 600

/-- The hottest of the VALID sensors, the lowest numbered of equals, with its reading. -/
def hottest : Nat → List (BitVec 16) → Option (Nat × Int)
  | _, [] => none
  | n, d :: l =>
    match hottest (n + 1) l with
    | none => if tempValid d then some (n, d.toInt) else none
    | some (m, v) => if tempValid d && v ≤ d.toInt then some (n, d.toInt) else some (m, v)

/-- The thermal stage changes: its record, THERM, the clusters' clocks (R375, R465), and heads of queue 4 that a duty limit
held. -/
def State.setStage (s : State) (st : Nat) (tj : Int) (hot : Nat) : State :=
  let s1 := ((s.wf MGMT.THERM_STATUS 31 29 st).logRec 0 4 st (ofInt 32 tj) hot 0 0).evt 0 16
  [0, 1, 2, 3].foldl (fun s c => s.engClkCheck c) s1

/-- Heads of queue 4 that may become due are looked at again. -/
def State.dutyFree (s : State) : State := [0, 1, 2].foldl (fun s r => s.setTxq r 4 (s.txq r 4)) s

/-- One voltage monitor is read; each flag that rises sets VOLT and writes a record (R466). -/
def State.readVolt (s : State) (n : Nat) (mv : BitVec 16) : State :=
  let lim := s.rd (MGMT.VMON_LIM n)
  let uv := mv.toNat < fld lim 15 0
  let ov := fld lim 31 16 < mv.toNat
  let old := s.rd (MGMT.VMON n)
  let s1 := s.wr (MGMT.VMON n) (wd (b2n uv * 2 ^ 31 + b2n ov * 2 ^ 30 + mv.toNat))
  let s2 := if uv && !bit old 31 then (s1.logRec 0 5 n mv.toNat 1 0 0).evt 0 17 else s1
  if ov && !bit old 30 then (s2.logRec 0 5 n mv.toNat 2 0 0).evt 0 17 else s2

/-- A device reset input is active: POR_N low, REFCLK_40M stopped, or SYS_RST_N low. -/
def State.inReset (s : State) : Bool := s.mgmt.porLow || s.mgmt.refOff || s.mgmt.sysLow

/-- A reading of the sensors and monitors falls now: on a whole millisecond of the AON clock since the release of POR_N, once (R465,
R466). -/
def State.sensorDue (s : State) : Bool :=
  !s.inReset && s.porClock < s.clock && (s.clock - s.porClock) % 500000 = 0 && s.mgmt.sensorAt != s.clock

/-- SENSOR_READ (R465, R466): readings in 0.25 °C by sensor and in mV by monitor. -/
def execSensorRead (temps : List (BitVec 16)) (mv : List (BitVec 16)) (s : State) : Host.Outcome State Fault Refusal :=
  .next <| if !s.sensorDue then s else
    let ts := temps.take 12
    let s1 : State := (ts.zipIdx).foldl (fun s p =>
      s.wr (MGMT.TEMP p.2) (wd (b2n (tempValid p.1) * 2 ^ 31 + p.1.toNat))) (s.modMgmt fun x => { x with sensorAt := s.clock })
    let h := hottest 0 ts
    let tj : Int := match h with | some (_, v) => (v + 3) / 4 | none => 150
    let hot := match h with | some (n, _) => n | none => 15
    let st := s.rf MGMT.THERM_STATUS 31 29
    let st' := stageNext s.thr tj st
    let s2 := (s1.wf MGMT.THERM_STATUS 23 16 (ofInt 8 tj)).wf MGMT.THERM_STATUS 3 0 hot
    let s3 := if st' = st then s2 else (s2.setStage st' tj hot).dutyFree
    (mv.take 16).zipIdx.foldl (fun s p => s.readVolt p.2 p.1) s3

/-- RO_MON_UPDATE (R466): NOW of each ring-oscillator monitor, 100 ms after the last report. -/
def execRoMonUpdate (now : List (BitVec 16)) (s : State) : Host.Outcome State Fault Refusal :=
  .next <| if s.inReset || s.clock - s.mgmt.roAt < 50000000 then s else
    (now.take 24).zipIdx.foldl (fun (s : State) p => s.wf (MGMT.RO_MON p.2) 15 0 p.1.toNat)
      (s.modMgmt fun x => { x with roAt := s.clock })

/-- DUTY_WINDOW (R465): an aligned Milestone window of 10 ms begins. -/
def execDutyWindow (s : State) : Host.Outcome State Fault Refusal :=
  .next <|
    let w := s.ns / 10000000 + 1
    if s.mgmt.dutyWin = w then s
    else (([0, 1, 2].foldl (fun (s : State) r => s.modRadio r fun x => { x with duty := 0 }) s).modMgmt fun x =>
      { x with dutyWin := w }).dutyFree

/-- THERM_ALERT_N is driven low at stage 4 (R465). -/
def State.thermAlertN (s : State) : Bool := s.rf MGMT.THERM_STATUS 31 29 != 4

/-- HOST_INT_N is driven low while a tile that contributes to it has a masked event pending, and is not in OFF (R35). -/
def State.hostIntN (s : State) : Bool :=
  (List.range 18).all fun t => !bit (s.tile t).evtRoute 29 || ((s.tile t).evtPend &&& (s.tile t).evtMask) = 0 || s.life t = .off

/-! Restart of MGMT (R22, R70, R467, R472, R525). -/

/-- Tokens and requests of slots that MGMT wrote are released and withdrawn, and their results clear. -/
def State.dropMgmtSlots (s : State) : State :=
  let mine := fun (q : Token) => q.byMgmt && (match q.holder with | .slot _ => true | .unit => false)
  let slots := (s.tokens ++ s.tokenReqs).filter mine
  let s1 := slots.foldl (fun (s : State) q => match q.holder with
    | .slot k => s.wr (MGMT.MT_RES k) 0
    | .unit => s) s
  State.arbitrate { s1 with tokens := s1.tokens.filter fun q => !mine q, tokenReqs := s1.tokenReqs.filter fun q => !mine q }

/-- MGMT restarts from the boot ROM: it enters RESET with `cause` for BOOT_STATUS; no other tile changes. -/
def State.mgmtRestart (s : State) (cause : Nat) : State :=
  let s1 := ((s.dropMgmtSlots.wr PRIV.CR_RES 0).wr PRIV.FL_RES 0).modMgmt fun x => { x with
    cr := none, fl := none, phase := .rom, cause := cause }
  let s2 : State := { s1 with evtIn := tput (fun _ => []) s1.evtIn 0 [] }
  s2.mgmtThreads.setLife 0 .reset

/-! Watchdogs (R467). -/

/-- A write of a watchdog's CTL, whose fields are RWL: going to EN starts it where its tile is live, and leaving EN stops it. -/
def State.wdCtlWrite (s : State) (k : Nat) (val : Word) : State :=
  if (s.tile 0).lock then s
  else
    let was := s.rbit (MGMT.WDT_CTL k) 31
    let s1 := s.wr (MGMT.WDT_CTL k) (val &&& 0x8000FFFF)
    if bit val 31 && !was && s.live (wdTiles.getD k 0) then s1.wdLoad k else if bit val 31 then s1 else s1.wdStop k

/-- A write of a watchdog's KICK. -/
def State.wdKick (s : State) (k : Nat) (key : Nat) : State :=
  let armed := s.mgmt.wdArm.contains k
  let s1 := s.modMgmt fun x => { x with wdArm := x.wdArm.filter (· != k) ++ (if key = 0x55 then [k] else []) }
  if key = 0xAA && armed then
    if (tget (fun _ => none) s.mgmt.wdDue k).isSome then s1.wdLoad k
    else s1.modMgmt fun x => { x with wdLeft := tput (fun _ => 0) x.wdLeft k (s.wdPeriod k) }
  else s1

/-- WDT_KICK (R467). -/
def execWdtKick (by_ : Req) (k : Fin 7) (key : Byte) (s : State) : Host.Outcome State Fault Refusal :=
  .next <| s.onWrite by_ 0 fun s => s.wdKick k.val key.toNat

/-- REMAIN_MS of a watchdog: whole or part milliseconds left. -/
def State.wdRemain (s : State) (k : Nat) : Nat :=
  let left := match tget (fun _ => none) s.mgmt.wdDue k with
    | some d => d - s.clock
    | none => tget (fun _ => 0) s.mgmt.wdLeft k
  min 65535 ((left + 499999) / 500000)

/-- A watchdog has counted to 0 (R467): the tile records cause 0x03, or MGMT restarts. -/
def State.wdExpire (s : State) (k : Nat) : State :=
  match tget (fun _ => none) s.mgmt.wdDue k with
  | some d =>
    if s.clock < d then s
    else
      let t := wdTiles.getD k 0
      let s1 := (s.modMgmt fun x => { x with
        wdDue := tput (fun _ => none) x.wdDue k none, wdLeft := tput (fun _ => 0) x.wdLeft k 0 }).sat (MGMT.WDT_STATUS k) 31 16 1
      let s2 := (s1.logRec t 6 k 0 0 0 0).evt 0 18
      if k = 0 then s2.mgmtRestart 3 else s2.recordErr t 3 noUnit 0 0 true
  | none => s

/-! Axolotl's attempts (R473). -/

/-- SRAM_CORRECTED_ERROR (R473, R31): counted, and evidence against the row for 24 hours. -/
def execSramCorrectedError (t : Fin 18) (row : BitVec 16) (s : State) : Host.Outcome State Fault Refusal :=
  .next <|
    if s.life t.val = .off then s
    else (s.corrInc t.val).axEvidence 31 t.val row.toNat 43200000000000 (s.rf MGMT.AX_CTL 15 8)

/-- AX_SRAM_ROW_SUBST (R473): `spare` is the row taken, none where the array has no spare left. -/
def execAxSramRowSubst (t : Fin 18) (row : BitVec 16) (spare : Option (BitVec 8)) (s : State) :
    Host.Outcome State Fault Refusal :=
  .next <|
    match s.axReady 31 t.val row.toNat with
    | some q =>
      if !s.live t.val then s
      else match spare with
        | some n => s.axEnd q n.toNat 0
        | none => s.axEnd q 0 1
    | none => s

/-- The unit that Axolotl names for a track of a link. -/
def trackUnit (link track : Nat) : Nat := link * 512 + track

/-- AX_TRACK_SUBST (R473): a link has two spare tracks. -/
def execAxTrackSubst (t : Fin 18) (link : Fin 4) (track : BitVec 9) (s : State) : Host.Outcome State Fault Refusal :=
  .next <|
    match s.axReady 30 t.val (trackUnit link.val track.toNat) with
    | some q =>
      let key := t.val * 4 + link.val
      let used := tget (fun _ => 0) s.mgmt.tracks key
      if !s.live t.val then s
      else if 2 ≤ used then s.axEnd q 0 1
      else (s.modMgmt fun x => { x with tracks := tput (fun _ => 0) x.tracks key (used + 1) }).axEnd q used 0
    | none => s

/-- AX_LANE_SUBST (R179, R473): the lane that stands by enters service for the oldest failed one. -/
def execAxLaneSubst (r : Fin 3) (s : State) : Host.Outcome State Fault Refusal :=
  .next <|
    let t := rTile r.val
    let act := s.rf (RADIO.RX_LANES r.val) 12 0
    let failed := s.rf (RADIO.RX_LANES r.val) 28 16
    match s.mgmt.axPend.find? fun q => q.kind = 29 && q.scope = t with
    | some q =>
      if !s.holds kSUBST t || !s.live t then s
      else match laneFrom (2 ^ 13 - 1 - act - failed) 0 with
        | some n => (s.setLanes r.val (act + 2 ^ n) failed).axEnd q n 0
        | none => s.axEnd q 0 1
    | none => s

/-- AX_ENGINE_SUBST (R473, R394): the manager issues SUBST_CMD for the engine that has the physical unit; its tag is a free
value (DESIGN CHOICE, log entry 31). -/
def execAxEngineSubst (c : Fin 4) (e : Fin 8) (s : State) : Host.Outcome State Fault Refusal :=
  .next <|
    let t := engTile c.val
    match s.axReady 28 t (s.rf (ENG.ENG_MAP c.val) (4 * e.val + 3) (4 * e.val)) with
    | some q =>
      if !s.live t || !s.pathFree (ENG.SUBST_RESULT c.val) then s
      else
        let s1 := (s.setAxPend (s.mgmt.axPend.map fun p => if p = q then { p with started := true } else p)).took.substCmd c.val
          e.val (BitVec.ofNat 8 (s.free 8))
        if s1.rbit (ENG.SUBST_RESULT c.val) 31 then s1.axEngEnd t (s.spareEng c.val) (s1.rf (ENG.SUBST_RESULT c.val) 29 27) else s1
    | none => s

/-! CR, flash and AVS commands (R473, R479). -/

/-- A command of CR: taken unless one is in progress or a result is posted (R28, R132). -/
def State.crCmd (s : State) (verify : Bool) (tag : Tag) : State :=
  if !s.pathFree PRIV.CR_RES then s.reqDrop 0
  else (s.pathBusy PRIV.CR_RES 8 tag).modMgmt fun x => { x with cr := some verify }

/-- CR_HASH (R473). -/
def execCrHash (by_ : Req) (tag : Tag) (s : State) : Host.Outcome State Fault Refusal :=
  .next <| s.onPriv by_ 0x20014 fun s => s.crCmd false tag

/-- CR_VERIFY (R473). -/
def execCrVerify (by_ : Req) (tag : Tag) (s : State) : Host.Outcome State Fault Refusal :=
  .next <| s.onPriv by_ 0x20014 fun s => s.crCmd true tag

/-- CR_ACK (R473). -/
def execCrAck (by_ : Req) (tag : Tag) (s : State) : Host.Outcome State Fault Refusal :=
  .next <| s.onPriv by_ 0x2001C fun s => s.pathAck PRIV.CR_RES 8 tag

/-- Octets of MGMT's SRAM from an offset; past its end nothing answers (DEDUCED, log entry 32). -/
def State.sramBytes (s : State) (o n : Nat) : List Byte :=
  (List.range n).map fun i => if o + i < 0x80000 then s.rb (0x2000000000 + o + i) else 0

/-- Write octets into MGMT's SRAM; those past its end are lost. -/
def State.sramPut (s : State) (o : Nat) (l : List Byte) : State := s.wbytes (0x2000000000 + o) (l.take (0x80000 - o))

/-- CR_DIGEST as 48 octets. -/
def State.crDigest (s : State) : List Byte := (List.range 12).flatMap fun i => le 4 (s.rd (PRIV.CR_DIGEST i)).toNat

/-- A flash command: taken unless one is in progress or a result is posted. -/
def State.flCmd (s : State) (c : FlCmd) (tag : Tag) : State :=
  if !s.pathFree PRIV.FL_RES then s.reqDrop 0
  else (s.pathBusy PRIV.FL_RES 8 tag).modMgmt fun x => { x with fl := some c }

/-- FL_READ (R473). -/
def execFlRead (by_ : Req) (op : Byte) (dtr : Bool) (tag : Tag) (s : State) : Host.Outcome State Fault Refusal :=
  .next <| s.onPriv by_ 0x30000 fun s => s.flCmd { op := op, dtr := dtr, write := false } tag

/-- FL_WRITE (R473). -/
def execFlWrite (by_ : Req) (op : Byte) (dtr : Bool) (tag : Tag) (s : State) : Host.Outcome State Fault Refusal :=
  .next <| s.onPriv by_ 0x30000 fun s => s.flCmd { op := op, dtr := dtr, write := true } tag

/-- FL_ACK (R473). -/
def execFlAck (by_ : Req) (tag : Tag) (s : State) : Host.Outcome State Fault Refusal :=
  .next <| s.onPriv by_ 0x30014 fun s => s.pathAck PRIV.FL_RES 8 tag

/-- A byte of the flash; one that nothing has written reads as erased (DEDUCED, log entry 32). -/
def State.flashByte (s : State) (a : Nat) : Byte := tget (fun _ => 0xFF) s.mgmt.flash a

/-- `n` bytes of the flash. -/
def State.flashBytes (s : State) (a n : Nat) : List Byte := (List.range n).map fun i => s.flashByte (a + i)

/-- FL_DONE (R473): the bytes pass between SRAM and flash, and the result is posted. -/
def execFlDone (s : State) : Host.Outcome State Fault Refusal :=
  .next <|
    match s.mgmt.fl with
    | none => s
    | some c =>
      let a := (s.rd PRIV.FL_ADDR).toNat
      let n := min 4096 (s.rd PRIV.FL_LEN).toNat
      let o := (s.rd PRIV.FL_BUF).toNat
      let s1 := if c.write then
          s.modMgmt fun x => { x with flash :=
            (s.sramBytes o n).zipIdx.foldl (fun f p => tput (fun _ => 0xFF) f (a + p.2) p.1) x.flash }
        else s.sramPut o (s.flashBytes a n)
      ((s1.modMgmt fun x => { x with fl := none }).pathPost PRIV.FL_RES 8 (s.pathTag PRIV.FL_RES 8) (2 ^ 29)).evt 0 22

/-- The data word that AVS sends for a voltage in mV: LINEAR16 with the exponent EXP, rounded up (R479). -/
def avsCode (e : Int) (mv : Nat) : Nat :=
  if e ≤ 0 then (mv * 2 ^ e.natAbs + 999) / 1000 else (mv + 999 * 2 ^ e.natAbs) / (1000 * 2 ^ e.natAbs)

/-- A write of AVS_TARGET. -/
def State.avsTarget (s : State) (mv : Nat) (tag : Tag) : State :=
  if !s.pathFree MGMT.AVS_RESULT then s.reqDrop 0
  else if !s.rbit MGMT.AVS_CTL 31 then s.pathPost MGMT.AVS_RESULT 16 tag (3 * 2 ^ 28)
  else if mv < 650 || 900 < mv then s.pathPost MGMT.AVS_RESULT 16 tag (2 * 2 ^ 28)
  else (s.pathBusy MGMT.AVS_RESULT 16 tag).modMgmt fun x => { x with
    avs := some (avsCode (sval 5 (s.rf MGMT.AVS_CTL 12 8)) mv % 65536) }

/-- AVS_TARGET (R479). -/
def execAvsTarget (by_ : Req) (mv : BitVec 16) (tag : Tag) (s : State) : Host.Outcome State Fault Refusal :=
  .next <| s.onWrite by_ 0 fun s => s.avsTarget mv.toNat tag

/-- AVS_DONE (R479): the regulator has answered, or not acknowledged. -/
def execAvsDone (acked : Bool) (s : State) : Host.Outcome State Fault Refusal :=
  .next <|
    match s.mgmt.avs with
    | none => s
    | some w => (s.modMgmt fun x => { x with avs := none }).pathPost MGMT.AVS_RESULT 16 (s.pathTag MGMT.AVS_RESULT 16)
        ((if acked then 0 else 2 ^ 28) + w)

/-- AVS_ACK (R479). -/
def execAvsAck (by_ : Req) (tag : Tag) (s : State) : Host.Outcome State Fault Refusal :=
  .next <| s.onWrite by_ 0 fun s => s.pathAck MGMT.AVS_RESULT 16 tag

/-! Device reset (R481, R482). -/

/-- Memory that a device reset keeps: the boot ROM and the OTP, and but for POR_N the event log. -/
def resetKeeps (por : Bool) (a : Nat) : Bool :=
  (0x3000000000 ≤ a && a < 0x3000020000) || (privBase ≤ a && a < privBase + 0x1000) ||
    (!por && logBase ≤ a && a < logBase + 0x10000)

/-- Registers that a device reset keeps: the fused values, and but for POR_N the log's indices and TRIAL. -/
def resetRegs (por : Bool) (a : RegId) : Bool :=
  a = MGMT.AVS_FUSE || (!por && (a = MGMT.LOG_WR || a = MGMT.LOG_PERS || a = MGMT.TRIAL))

/-- A device reset: everything takes its reset state but what R464, R481 and the world outside the part keep. -/
def State.deviceReset (s : State) (por : Bool) : State :=
  let z : State := {}
  let m := s.mgmt
  { z with
    clock := s.clock
    freeTick := s.freeTick
    order := s.order
    pending := s.pending
    regs := s.regs.filter fun e => resetRegs por e.1
    mem := s.mem.filter fun e => resetKeeps por e.1
    logUnpers := if por then 0 else s.logUnpers
    porClock := if por then s.clock else s.porClock
    msixSent := s.msixSent
    hostU := { z.hostU with perst := s.hostU.perst, out := s.hostU.out, replies := s.hostU.replies }
    mgmt := { z.mgmt with
      phase := .held
      cause := if por then 0 else 1
      mode := m.mode
      straps := m.straps
      porLow := m.porLow
      sysLow := m.sysLow
      refOff := m.refOff
      uartOut := m.uartOut
      flash := m.flash } }

/-- The end of a device reset: BOOT_MODE is sampled and MGMT is about to run its ROM (R42, R482). -/
def State.resetEnd (s : State) : State :=
  if s.inReset || s.mgmt.phase != .held then s
  else (s.modMgmt fun x => { x with mode := x.straps, phase := .rom }).mgmtThreads

/-- POR_N_ASSERT (R481). -/
def execPorNAssert (s : State) : Host.Outcome State Fault Refusal :=
  .next <| if s.mgmt.porLow then s else (s.modMgmt fun x => { x with porLow := true }).deviceReset true

/-- POR_N_RELEASE (R481, R482): `mode` is what BOOT_MODE shows; the AON count starts. -/
def execPorNRelease (mode : BitVec 2) (s : State) : Host.Outcome State Fault Refusal :=
  .next <|
    if !s.mgmt.porLow then s
    else ({ (s.modMgmt fun x => { x with porLow := false, straps := mode.toNat }) with porClock := s.clock } : State).resetEnd

/-- SYS_RST_N_ASSERT (R481): no effect while POR_N is low. -/
def execSysRstNAssert (s : State) : Host.Outcome State Fault Refusal :=
  .next <|
    if s.mgmt.sysLow then s
    else
      let s1 := s.modMgmt fun x => { x with sysLow := true }
      if s.mgmt.porLow || s.mgmt.refOff then s1 else s1.deviceReset false

/-- SYS_RST_N_RELEASE (R481, R482): within one 25 ns AON cycle of a POR_N release the reset counts as POR_N; later than that
it is SYS_RST_N that ended it (DEDUCED, log entry 32). -/
def execSysRstNRelease (mode : BitVec 2) (s : State) : Host.Outcome State Fault Refusal :=
  .next <|
    if !s.mgmt.sysLow then s
    else
      let s1 := s.modMgmt fun x => { x with sysLow := false, straps := mode.toNat }
      let late := !s.mgmt.porLow && !s.mgmt.refOff && s.porClock + 12 < s.clock
      (if late then s1.modMgmt fun x => { x with cause := 1 } else s1).resetEnd

/-- DEV_RST (R481): 0xA5C3 from MGMT acts as a pulse on SYS_RST_N. -/
def execDevRst (by_ : Req) (key : BitVec 16) (s : State) : Host.Outcome State Fault Refusal :=
  .next <| s.onWrite by_ 0 fun s =>
    if reqMgmt by_ && key = 0xA5C3 then (s.deviceReset false).resetEnd else s

/-- REFCLK_STOP (R480): as POR_N held low. -/
def execRefclkStop (s : State) : Host.Outcome State Fault Refusal :=
  .next <| if s.mgmt.refOff then s else (s.modMgmt fun x => { x with refOff := true }).deviceReset true

/-- REFCLK_RESUME (R480). -/
def execRefclkResume (mode : BitVec 2) (s : State) : Host.Outcome State Fault Refusal :=
  .next <|
    if !s.mgmt.refOff then s
    else ({ (s.modMgmt fun x => { x with refOff := false, straps := mode.toNat }) with porClock := s.clock } : State).resetEnd

end Sys2Proof.Machine
end

