-- ==== Sys2Proof/Machine/Newt.lean ====
section
/-! DEFINITION. The Newt radio: channel, gain and antenna, reception with its filtering, tables, Acks and ring, transmission
commands, CCM* and coexistence (R243 to R263). Frame formats, third-level filtering and security are those of IEEE
802.15.4-2020, which the spec names (PRESUMED, log entry 28). -/

namespace Sys2Proof.Machine

open Reg

/-- Replace NEWT's hidden state. -/
def State.modNewt (s : State) (f : Newt → Newt) : State := { s with newt := f s.newt }

/-! Frame headers (IEEE 802.15.4). -/

/-- A MAC header: frame type, flags, version, sequence number, addressing, auxiliary security header, and where header and
private payload end and begin. -/
structure NewtMhr where
  type : Nat
  sec : Bool
  ar : Bool
  ver : Nat
  seq : Option Nat
  dstMode : Nat
  srcMode : Nat
  dstPan : Option Nat
  srcPan : Option Nat
  dst : Nat
  src : Nat
  level : Nat
  keyMode : Nat
  keyIndex : Nat
  ctr : Nat
  ctrAt : Option Nat
  keyLen : Nat
  body : Nat
  priv : Nat
deriving DecidableEq, Repr

/-- A little-endian field of a frame. -/
def frameField (p : List Byte) (k n : Nat) : Nat := ofLe (((p.drop k).take n).map (·.toNat))

/-- Octets of an address by mode. -/
def addrLen (mode : Nat) : Nat := if mode = 2 then 2 else if mode = 3 then 8 else 0

/-- Whether the destination and source PAN IDs are present. -/
def newtPans (ver dstMode srcMode : Nat) (comp : Bool) : Bool × Bool :=
  let d := dstMode != 0
  let r := srcMode != 0
  if ver < 2 then (d, r && !comp)
  else if !d && !r then (comp, false)
  else if d && !r then (!comp, false)
  else if !d && r then (false, !comp)
  else if dstMode = 3 && srcMode = 3 then (!comp, false)
  else (true, !comp)

/-- The end of the header information elements from an offset. -/
def newtIes (p : List Byte) : Nat → Nat → Nat
  | 0, k => k
  | n + 1, k =>
    if p.length < k + 2 then k
    else
      let v := frameField p k 2
      let id := v / 128 % 256
      if id = 0x7E || id = 0x7F then k + 2 else newtIes p n (k + 2 + v % 128)

/-- Where the private payload of a frame begins. -/
def newtPriv (p : List Byte) (type ver body : Nat) : Nat :=
  if type = 3 then body + 1
  else if type = 0 && ver < 2 then
    let gts := frameField p (body + 2) 1 % 8
    let k := body + 3 + (if gts = 0 then 0 else 1 + 3 * gts)
    let pend := frameField p k 1
    k + 1 + 2 * (pend % 8) + 8 * (pend / 16 % 8)
  else body

/-- Read the header of a frame given without its FCS; none where it is cut short or uses a reserved address mode. -/
def newtParse (p : List Byte) : Option NewtMhr :=
  let fc := frameField p 0 2
  let ver := fc / 4096 % 4
  let dm := fc / 1024 % 4
  let sm := fc / 16384 % 4
  let noSeq := ver = 2 && fc / 256 % 2 = 1
  let pans := newtPans ver dm sm (fc / 64 % 2 = 1)
  let k0 := if noSeq then 2 else 3
  let k1 := k0 + if pans.1 then 2 else 0
  let k2 := k1 + addrLen dm
  let k3 := k2 + if pans.2 then 2 else 0
  let k4 := k3 + addrLen sm
  let sec := fc / 8 % 2 = 1
  let sc := frameField p k4 1
  let noCtr := sc / 32 % 2 = 1
  let kl := [0, 1, 5, 9].getD (sc / 8 % 4) 0
  let k5 := if sec then k4 + 1 + (if noCtr then 0 else 4) + kl else k4
  let body := if ver = 2 && fc / 512 % 2 = 1 then newtIes p 64 k5 else k5
  if p.length < body || p.length < 2 || dm = 1 || sm = 1 then none
  else some {
    type := fc % 8, sec := sec, ar := fc / 32 % 2 = 1, ver := ver, seq := if noSeq then none else some (frameField p 2 1),
    dstMode := dm, srcMode := sm,
    dstPan := if pans.1 then some (frameField p k0 2) else none,
    srcPan := if pans.2 then some (frameField p k2 2) else if pans.1 && sm != 0 then some (frameField p k0 2) else none,
    dst := frameField p k1 (addrLen dm), src := frameField p k3 (addrLen sm),
    level := if sec then sc % 8 else 0, keyMode := sc / 8 % 4,
    keyIndex := if kl = 0 then 0 else frameField p (k5 - 1) 1,
    ctr := if sec && !noCtr then frameField p (k4 + 1) 4 else 0,
    ctrAt := if sec && !noCtr then some (k4 + 1) else none,
    keyLen := kl, body := body, priv := newtPriv p (fc % 8) ver body }

/-! Addresses and tables (R248, R249). -/

/-- NEWT_EXT. -/
def State.newtExt (s : State) : Nat := (s.rd NEWT.NEWT_EXT_LO).toNat + 2 ^ 32 * (s.rd NEWT.NEWT_EXT_HI).toNat

/-- A frame is addressed individually to NEWT. -/
def State.newtMine (s : State) (h : NewtMhr) : Bool :=
  let a := s.rd NEWT.NEWT_ADDR
  (h.dstMode = 2 && h.dst = fld a 15 0 && h.dst != 0xFFFF) || (h.dstMode = 3 && h.dst = s.newtExt)

/-- Third-level filtering of a PAN coordinator (R248). -/
def State.newtAccept (s : State) (h : NewtMhr) : Bool :=
  let pan := s.rf NEWT.NEWT_ADDR 31 16
  let typeOk := h.ver < 3 && (h.type = 1 || h.type = 3 || (h.type = 0 && s.rbit NEWT.NEWT_CTL 29))
  let panOk := match h.dstPan with
    | some p => p = pan || p = 0xFFFF
    | none => true
  let dstOk := if h.dstMode = 0 then
      h.type = 0 || (h.srcMode != 0 && h.srcPan = some pan)
    else s.newtMine h || (h.dstMode = 2 && h.dst = 0xFFFF)
  let beaconOk := h.type != 0 || pan = 0xFFFF || h.srcPan = some pan
  typeOk && panOk && dstOk && beaconOk

/-- An entry of the short table: its short and extended addresses. -/
def State.newtShort (s : State) (i : Nat) : Option (Nat × Nat) := tget (fun _ => none) s.newt.short i
/-- An entry of the extended table. -/
def State.newtExtEntry (s : State) (i : Nat) : Option Nat := tget (fun _ => none) s.newt.ext i

/-- The short entry that holds a short address. -/
def State.newtFindShort (s : State) (a : Nat) : Option Nat :=
  (List.range 512).find? fun i => match s.newtShort i with
    | some e => e.1 = a
    | none => false

/-- The extended entry that holds an address. -/
def State.newtFindExt (s : State) (a : Nat) : Option Nat := (List.range 64).find? fun i => s.newtExtEntry i = some a

/-- The entry that holds a frame's source, as INDEX: an extended address is sought in the extended table, then among the
short entries' extended addresses. -/
def State.newtSource (s : State) (h : NewtMhr) : Option Nat :=
  if h.srcMode = 2 then s.newtFindShort h.src
  else if h.srcMode = 3 then
    match s.newtFindExt h.src with
    | some i => some (0x8000 + i)
    | none => (List.range 512).find? fun i => match s.newtShort i with
      | some e => e.2 = h.src
      | none => false
  else none

/-- Register and bit of an entry's pending bit. -/
def newtPendBit (i : Nat) : RegId × Nat :=
  if 0x8000 ≤ i then (if i % 64 < 32 then NEWT.EXT_PEND0 else NEWT.EXT_PEND1, i % 32) else (NEWT.PEND_BITS (i / 32), i % 32)

/-- An entry's pending bit. -/
def State.newtPend (s : State) (i : Nat) : Bool := s.rbit (newtPendBit i).1 (newtPendBit i).2
/-- Set or clear it. -/
def State.setNewtPend (s : State) (i : Nat) (v : Bool) : State :=
  s.wr (newtPendBit i).1 (putBit (s.rd (newtPendBit i).1) (newtPendBit i).2 v)

/-! Channel and antenna (R244, R247). -/

/-- Put the antenna in use in NEWT_STATUS. -/
def State.newtAnt (s : State) (a : Nat) : State := s.wf NEWT.NEWT_STATUS 29 29 a

/-- A frame of a command is on its way or its Ack is awaited. -/
def NewtTx.busy (t : NewtTx) : Bool :=
  match t.phase with
  | .sending _ => true
  | .await _ => true
  | _ => false

/-- A frame is on its way. -/
def State.newtSending (s : State) : Bool :=
  match s.newt.tx with
  | some t => (match t.phase with
    | .sending _ => true
    | _ => false)
  | none => false

/-- Listen on the antenna that ANT_MODE gives, unless a frame is received, sent or to be answered. -/
def State.newtListen (s : State) : State :=
  let m := s.rf NEWT.NEWT_CTL 17 16
  if s.newt.rx.isSome || s.newt.ack.isSome || s.newtSending || s.clock < s.newt.ackEnd then s
  else s.newtAnt (if m = 0 then 0 else if m = 1 then 1 else s.newt.lastAnt)

/-- No frame is received or sent and no Ack is due or awaited. -/
def State.newtIdle (s : State) : Bool :=
  s.newt.rx.isNone && s.newt.ack.isNone && s.newt.ackEnd ≤ s.clock
    && (match s.newt.tx with
      | some t => !t.busy
      | none => true)

/-- The synthesiser is relocking. -/
def State.newtRetuning (s : State) : Bool := s.rbit NEWT.NEWT_STATUS 31

/-- A waiting channel takes effect once the radio is idle. -/
def State.newtRetune (s : State) : State :=
  match s.newt.chanPend with
  | none => s
  | some c =>
    if s.newtIdle && !s.newtRetuning then
      ((s.modNewt fun x => { x with chanPend := none, retries := 0 }).wf NEWT.NEWT_CTL 4 0 c).wf NEWT.NEWT_STATUS 31 31 1
    else s

/-! Coexistence (R260). -/

/-- The coexistence grant for a priority at this moment. -/
def State.newtGrant (s : State) (pri : Nat) : Bool :=
  !s.rbit NEWT.COEX_CTL 31 || [0, 1, 2].all fun r =>
    let q := s.rd (RADIO.TXQ_STATUS r)
    let x := (s.radio r).rx
    s.band r != 0 ||
      !(s.txen r != 0 || bit q 31 || bit q 30 || (x.qualified && pri ≤ s.rf NEWT.COEX_CTL 1 0))

/-! Security (R258, R259). -/

/-- Octets of the MIC of a level. -/
def micLen (level : Nat) : Nat := [0, 4, 8, 16].getD (level % 4) 0

/-- The key slot of a security header. -/
def State.newtKey (s : State) (h : NewtMhr) : Option Nat :=
  (List.range 16).find? fun k =>
    let c := s.rd (NEWT.KEY_CTL k)
    bit c 31 && fld c 9 8 = h.keyMode && (h.keyMode = 0 || fld c 7 0 = h.keyIndex)

/-- Round keys of a slot. -/
def State.newtKeys (s : State) (k : Nat) : List (List Nat) :=
  aesKeys ((List.range 4).flatMap fun i => (le 4 (s.rd (NEWT.KEY_DATA k i)).toNat).map (·.toNat))

/-- The nonce of a frame. -/
def newtNonce (ext ctr level : Nat) : List Nat := beN 8 ext ++ beN 4 ctr ++ [level]

/-- Secure a frame given without FCS, whose last octets are room for the MIC. -/
def newtSeal (keys : List (List Nat)) (nonce : List Nat) (h : NewtMhr) (p : List Byte) : List Byte :=
  let m := micLen h.level
  let b := (p.take (p.length - m)).map (·.toNat)
  let enc := 4 ≤ h.level
  let aad := if enc then b.take h.priv else b
  let msg := if enc then b.drop h.priv else []
  (aad ++ ccmCrypt keys nonce msg ++ (ccmTag keys nonce aad msg m).take m).map fun v => BitVec.ofNat 8 v

/-- Unsecure a frame given without FCS: its octets with the private payload decrypted, and whether the MIC matched. -/
def newtOpen (keys : List (List Nat)) (nonce : List Nat) (h : NewtMhr) (p : List Byte) : List Byte × Bool :=
  let m := micLen h.level
  let b := (p.take (p.length - m)).map (·.toNat)
  let mic := (p.drop (p.length - m)).map (·.toNat)
  let enc := 4 ≤ h.level
  let aad := if enc then b.take h.priv else b
  let msg := if enc then ccmCrypt keys nonce (b.drop h.priv) else []
  ((aad ++ msg ++ mic).map (fun v => BitVec.ofNat 8 v), mic = (ccmTag keys nonce aad msg m).take m)

/-- Unsecure a received frame given without FCS (R259): the octets delivered and SEC. -/
def State.newtUnsecure (s : State) (h : NewtMhr) (p : List Byte) : List Byte × Nat :=
  if !h.sec then (p, 0)
  else if h.level = 0 then (p, 5)
  else
    match s.newtKey h with
    | none => (p, 2)
    | some k =>
      let ext := if h.srcMode = 3 then some h.src
        else if h.srcMode = 2 then ((s.newtFindShort h.src).bind s.newtShort).map (·.2) else none
      match ext with
      | none => (p, 3)
      | some e =>
        if p.length < h.priv + micLen h.level then (p, 4)
        else
          let r := newtOpen (s.newtKeys k) (newtNonce e h.ctr h.level) h p
          (r.1, if r.2 then 1 else 4)

/-! Transmission commands (R255 to R257). -/

/-- Change the command in progress. -/
def State.modNewtTx (s : State) (f : NewtTx → NewtTx) : State := s.modNewt fun x => { x with tx := x.tx.map f }

/-- Post the result of a command (R257). -/
def State.newtPost (s : State) (tag : Tag) (code attempts : Nat) (fp : Bool) : State :=
  let s1 := ((s.modNewt fun x => { x with tx := none }).pathPost NEWT.TX_RESULT 8 tag
    (code * 2 ^ 27 + b2n fp * 2 ^ 26 + (attempts - 1) % 8 * 2 ^ 16)).evt 7 16
  if code = 1 then s1.sat NEWT.NEWT_CNT1 31 24 1 else if code = 2 then s1.sat NEWT.NEWT_CNT1 23 16 1 else s1

/-- MAX_BE and MIN_BE in effect. -/
def State.newtBe (s : State) : Nat × Nat :=
  let mx := clampN 3 8 (s.rf NEWT.NEWT_CSMA 11 8)
  (mx, min mx (s.rf NEWT.NEWT_CSMA 7 4))

/-- Begin a backoff with exponent `be` (R256). -/
def State.newtBackoff (s : State) (nb be : Nat) : State :=
  let g := drawG s.newt.g
  (s.modNewt fun x => { x with g := g }).modNewtTx fun t => { t with
    nb := nb, be := be, phase := .backoff (s.clock + g.toNat % 2 ^ be * 160000) }

/-- An attempt starts from CSMA with nb 0. -/
def State.newtCsma (s : State) : State := s.newtBackoff 0 s.newtBe.2

/-- The frame of the command is sent, its first chip `lead` cycles from now. -/
def State.newtSend (s : State) (t : NewtTx) (lead : Nat) : State :=
  ((s.modNewtTx fun t => { t with phase := .sending (s.clock + lead + (6 + t.psdu.length) * 16000) }).wr NEWT.COEX_STATUS
    0x80000000).newtAnt (if t.ant < 2 then t.ant else s.newt.lastAnt)

/-- A command without CSMA-CA goes once no reception is in progress and no Ack is due. The spec does not say what a refused
grant does to it: it is not sent, and its CODE is free among those reported (DESIGN CHOICE, log entry 5). -/
def State.newtGo (s : State) : State :=
  match s.newt.tx with
  | none => s
  | some t =>
    if t.phase != .waiting || s.newt.rx.isSome || s.newt.ack.isSome || s.clock < s.newt.ackEnd || s.newtRetuning
        || !s.live 7 then s
    else if s.newtGrant t.pri then s.newtSend t 1000
    else (s.newtPost t.tag (s.free 3 % 6) t.attempts false).took

/-- What follows the end of an Ack (R244, R256): NEWT listens, a command or a channel that waited for it goes. -/
def State.newtAckEnd (s : State) : State := s.newtListen.newtGo.newtRetune

/-- What NEWT does by the clock: symbol 2 of a reception is measured on the other antenna (R247), and a sent Ack ends. -/
def State.newtTick (s : State) : State :=
  let s1 := match s.newt.rx with
    | some (t, false) =>
      if s.clock = t + 8000 && 2 ≤ s.rf NEWT.NEWT_CTL 17 16 then s.newtAnt (1 - s.rf NEWT.NEWT_STATUS 29 29) else s
    | _ => s
  if s1.newt.ackEnd = s1.clock then s1.newtAckEnd else s1

/-- One cycle of 2 ns passes (R411). -/
def State.cycle (s : State) : State := s.timeCycle.newtTick

/-- The PSDU that a command sends (R255, R258): secured where SEC is 1, with its FCS. A command whose header names no key or
leaves no room sends octets that the spec does not give (PRESUMED, log entry 28). -/
def State.newtPsdu (s : State) (p : List Byte) (sec : Bool) : List Byte :=
  let b := p.take (p.length - 2)
  let body := if !sec then b
    else
      match newtParse b with
      | none => Config.newtUnsecurable b
      | some h =>
        match s.newtKey h, h.ctrAt with
        | some k, some at_ =>
          if h.level = 0 || b.length < h.priv + micLen h.level then Config.newtUnsecurable b
          else
            let fc := (s.rd NEWT.NEWT_FC).toNat
            newtSeal (s.newtKeys k) (newtNonce s.newtExt fc h.level) h (b.take at_ ++ le 4 fc ++ b.drop (at_ + 4))
        | _, _ => Config.newtUnsecurable b
  body ++ le 2 (crc16 body)

/-- NEWT_TX_CMD (R255, R258, R262): INVALID while the radio is off too (DEDUCED, log entry 62). -/
def execNewtTxCmd (by_ : Req) (tag : Tag) (s : State) : Host.Outcome State Fault Refusal :=
  .next <| s.onWrite by_ 7 fun s =>
    let a := s.rd NEWT.TX_ARG0
    let len := fld a 25 16
    let sec := bit a 27
    if !s.pathFree NEWT.TX_RESULT then s.sat NEWT.NEWT_CNT2 7 0 1
    else if !s.rbit NEWT.NEWT_CTL 31 || len < 5 || 127 < len || s.life 7 != .ready then s.newtPost tag 4 0 false
    else if sec && s.rd NEWT.NEWT_FC = 0xFFFFFFFF then s.newtPost tag 3 0 false
    else
      let raw := (List.range len).map fun i => s.rb (lm 7 ((fld a 15 0 + i) % 65536))
      let t : NewtTx := {
        psdu := s.newtPsdu raw sec, tag := tag, pri := fld a 29 28, ant := fld a 31 30,
        power := max (-20) (min 10 (sval 8 (s.rf NEWT.TX_ARG1 7 0))) }
      let s1 := (s.pathBusy NEWT.TX_RESULT 8 tag).modNewt fun x => { x with tx := some t }
      let s2 := if sec then s1.wr NEWT.NEWT_FC (s.rd NEWT.NEWT_FC + 1) else s1
      if bit a 26 then s2.newtCsma else s2.newtGo

/-- NEWT_BACKOFF_EXPIRE (R256): a command that becomes ready during a retune waits for it. -/
def execNewtBackoffExpire (s : State) : Host.Outcome State Fault Refusal :=
  .next <|
    match s.newt.tx with
    | none => s
    | some t =>
      match t.phase with
      | .backoff u => if u ≤ s.clock && !s.newtRetuning then s.modNewtTx fun t => { t with phase := .cca (s.clock + 64000) } else s
      | _ => s

/-- CCA by CCA_MODE (R256). -/
def State.newtCca (s : State) (energy : Int) (signal : Bool) : Bool :=
  let c := s.rd NEWT.NEWT_CTL
  let e := max (-100) (min (-40) (sval 8 (fld c 15 8))) ≤ energy
  match fld c 7 6 with
  | 0 => e || signal
  | 1 => e
  | 2 => signal
  | _ => e && signal

/-- NEWT_CCA_END (R256, R260); one that a retune interrupts is made again after it (R244). -/
def execNewtCcaEnd (energy : Int) (signal : Bool) (s : State) : Host.Outcome State Fault Refusal :=
  .next <|
    match s.newt.tx with
    | none => s
    | some t =>
      match t.phase with
      | .cca u =>
        if s.clock < u || s.newtRetuning || !s.live 7 then s
        else
          let s0 := s.wf NEWT.NEWT_STATUS 7 0 (ofInt 8 energy)
          let granted := s.newtGrant t.pri
          let s1 := if granted then s0 else s0.sat NEWT.NEWT_CNT1 15 8 1
          if s.newtCca energy signal || s.newt.rx.isSome || s.newt.ack.isSome || s.clock < s.newt.ackEnd || !granted then
            if min 5 (s.rf NEWT.NEWT_CSMA 15 12) < t.nb + 1 then (s1.newtPost t.tag 1 t.attempts false).newtRetune
            else s1.newtBackoff (t.nb + 1) (min (t.be + 1) s.newtBe.1)
          else s1.newtSend t 96000
      | _ => s

/-- NEWT_TX_END (R257). -/
def execNewtTxEnd (s : State) : Host.Outcome State Fault Refusal :=
  .next <|
    match s.newt.tx with
    | none => s
    | some t =>
      match t.phase with
      | .sending u =>
        if s.clock < u then s
        else
          let s1 := (s.wr NEWT.COEX_STATUS 0).wr NEWT.TX_TIME (wd (s.ns - (t.psdu.length + 1) * 32000))
          if (t.psdu.headD 0).toNat / 32 % 2 = 1 then
            (s1.modNewtTx fun t => { t with attempts := t.attempts + 1, phase := .await (s.clock + 432000) }).newtListen
          else (s1.newtPost t.tag 0 (t.attempts + 1) false).newtListen.newtRetune
      | _ => s

/-- NEWT_ACK_TIMEOUT (R257, R262): a reception acquired within the wait is let end first, since its SFD may have come within it (DEDUCED,
log entry 62); a DRAINING tile makes no retry. -/
def execNewtAckTimeout (s : State) : Host.Outcome State Fault Refusal :=
  .next <|
    match s.newt.tx with
    | none => s
    | some t =>
      match t.phase with
      | .await u =>
        let maybe := match s.newt.rx with
          | some (a, _) => a ≤ u
          | none => false
        if s.clock < u || maybe then s
        else if t.attempts ≤ s.rf NEWT.NEWT_CSMA 18 16 && s.life 7 != .draining then s.newtCsma.newtRetune
        else (s.newtPost t.tag 2 t.attempts false).newtRetune
      | _ => s

/-- NEWT_TX_ACK (R255). -/
def execNewtTxAck (by_ : Req) (tag : Tag) (s : State) : Host.Outcome State Fault Refusal :=
  .next <| s.onWrite by_ 7 fun s => s.pathAck NEWT.TX_RESULT 8 tag

/-! Reception (R246 to R253, R261). -/

/-- NEWT_CTL_WRITE (R244, R256): an unlisted channel leaves the channel unchanged. -/
def execNewtCtlWrite (by_ : Req) (val : Word) (s : State) : Host.Outcome State Fault Refusal :=
  .next <| s.onWrite by_ 7 fun s =>
    let old := s.rd NEWT.NEWT_CTL
    let c := fld val 4 0
    let seed := s.rd NEWT.NEWT_SEED
    let s1 := s.wr NEWT.NEWT_CTL (putFld (val &&& 0xFC03FFDF) 4 0 (fld old 4 0))
    let s2 := if bit val 31 && !bit old 31 then
        s1.modNewt fun x => { x with g := if seed = 0 then 0x2545F491 else seed }
      else s1
    let s3 := if 11 ≤ c && c ≤ 26 then
        s2.modNewt fun x => { x with chanPend := if c = fld old 4 0 then none else some c }
      else s2
    s3.newtRetune.newtListen

/-- A retuning of NEWT ends (R244): the second failure is fatal. -/
def State.newtRetuned (s : State) (locked : Bool) : State :=
  if !s.newtRetuning then s
  else if locked then
    (((s.wf NEWT.NEWT_STATUS 31 31 0).modNewt fun x => { x with retries := 0 }).modNewtTx fun t => match t.phase with
      | .cca _ => { t with phase := .cca (s.clock + 64000) }
      | _ => t).newtRetune.newtGo
  else if s.newt.retries = 0 then s.modNewt fun x => { x with retries := 1 }
  else (s.modNewt fun x => { x with retries := 0 }).recordErr 7 0x80 noUnit 0 0 true

/-- The receiver is on. -/
def State.newtOn (s : State) : Bool := s.live 7 && s.rbit NEWT.NEWT_CTL 31 && !s.newtRetuning && !s.newtSending

/-- NEWT_AGC_STEP (R246). -/
def execNewtAgcStep (peak : Int) (s : State) : Host.Outcome State Fault Refusal :=
  .next <|
    let g := s.rf NEWT.NEWT_STATUS 13 8
    if !s.newtOn then s
    else if -8 ≤ peak && 8 ≤ g then s.wf NEWT.NEWT_STATUS 13 8 (g - 8)
    else if peak ≤ -24 && g ≤ 40 then s.wf NEWT.NEWT_STATUS 13 8 (g + 8)
    else s

/-- NEWT_PREAMBLE_ACQUIRE (R247). -/
def execNewtPreambleAcquire (s : State) : Host.Outcome State Fault Refusal :=
  .next <|
    if !s.newtOn || s.newt.rx.isSome || s.clock < s.newt.ackEnd then s
    else (s.modNewt fun x => { x with rx := some (s.clock, false) }).wf NEWT.NEWT_STATUS 30 30 1

/-- NEWT_ANT_SELECT (R247): at the end of symbol 2 the antenna of the stronger of symbols 1 and 2, the other antenna being in use and the
listening one taken on a tie; an SFD found before keeps the antenna in use. -/
def execNewtAntSelect (mine other : Nat) (sfd : Bool) (s : State) : Host.Outcome State Fault Refusal :=
  .next <|
    match s.newt.rx with
    | some (t, false) =>
      let s1 := s.modNewt fun x => { x with rx := some (t, true) }
      if sfd then s1
      else if s.clock < t + 16000 then s
      else if 2 ≤ s.rf NEWT.NEWT_CTL 17 16 && other ≤ mine then s1.newtAnt (1 - s.rf NEWT.NEWT_STATUS 29 29)
      else s1
    | _ => s

/-- Slots of the receive ring. -/
def State.newtSlots (s : State) : Nat := 2 ^ clampN 2 6 (s.rf NEWT.RXR_CTL 3 0)

/-- The receive ring is full. -/
def State.newtFull (s : State) : Bool :=
  let n := s.newtSlots
  (s.rf NEWT.RXR_WR 5 0 % n + 1) % n = s.rf NEWT.RXR_RD 5 0 % n

/-- Write a record and its PSDU to the ring (R261). -/
def State.newtDeliver (s : State) (record psdu : List Byte) : State :=
  let n := s.newtSlots
  let w := s.rf NEWT.RXR_WR 5 0 % n
  if s.newtFull then (s.sat NEWT.NEWT_CNT2 15 8 1).evt 7 18
  else
    (((s.wbytes (lm 7 ((s.rf NEWT.RXR_CTL 15 8 + w) * 256 % 65536)) (record ++ psdu)).wf NEWT.RXR_WR 5 0 ((w + 1) % n)).sat
      NEWT.NEWT_CNT0 31 16 1).evt 7 17

/-- A receive record (R261). -/
def newtRecord (len flags rssi lqi sec chan index time ctr : Nat) : List Byte :=
  le 1 len ++ le 1 flags ++ le 1 rssi ++ le 1 lqi ++ le 1 sec ++ le 1 chan ++ le 2 index ++ le 4 time ++ le 4 ctr

/-- Unsecure a frame and deliver it with its record; one whose record carries SEC 2 to 5 counts (R259, R261). -/
def State.newtHand (s : State) (g : NewtGot) (flags : Nat) : State :=
  let body := g.psdu.take (g.psdu.length - 2)
  match newtParse body with
  | none => s
  | some h =>
    let un := s.newtUnsecure h body
    let s1 := if 2 ≤ un.2 && !s.newtFull then (s.sat NEWT.NEWT_CNT2 31 16 1).evt 7 20 else s
    s1.newtDeliver (newtRecord g.psdu.length (1 + flags + 8 * g.ant + 16 * b2n g.index.isSome) g.rssi g.lqi un.2 g.chan
      (g.index.getD 0xFFFF) g.time h.ctr) (un.1 ++ g.psdu.drop (g.psdu.length - 2))

/-- A received Ack whose SFD came at a clock answers the frame that awaits one (R257). -/
def State.newtMatch (s : State) (h : NewtMhr) (sfd : Nat) : Option NewtTx :=
  match s.newt.tx with
  | none => none
  | some t =>
    match t.phase, newtParse (t.psdu.take (t.psdu.length - 2)) with
    | .await u, some f =>
      let seqOk := if h.ver = 2 && h.seq.isNone then true else h.seq = f.seq
      let panOk := match h.dstPan with
        | some p => p = s.rf NEWT.NEWT_ADDR 31 16
        | none => true
      let dstOk := h.ver != 2 || ((h.dstMode = 0 || s.newtMine h) && panOk)
      if h.type = 2 && h.ver < 3 && seqOk && dstOk && sfd ≤ u then some t else none
    | _, _ => none

/-- NEWT_FRAME_RECEIVE (R248 to R253, R257, R259, R261): a frame that is to be answered is unsecured and delivered after its Ack. -/
def execNewtFrameReceive (psdu : List (BitVec 8)) (rssi lqi : BitVec 8) (s : State) : Host.Outcome State Fault Refusal :=
  .next <|
    match s.newt.rx with
    | none => s
    | some _ =>
      let len := psdu.length
      let ant := s.rf NEWT.NEWT_STATUS 29 29
      let s0 := (s.modNewt fun x => { x with rx := none }).wf NEWT.NEWT_STATUS 30 30 0
      let body := psdu.take (len - 2)
      let fcsOk := 5 ≤ len && len ≤ 127 && crc16 body = frameField psdu (len - 2) 2
      let s1 := if fcsOk then s0.modNewt fun x => { x with lastAnt := ant } else s0
      let finish := fun (s : State) => s.newtListen.newtGo.newtRetune
      let promisc := s.rbit NEWT.NEWT_CTL 30
      let chan := s.rf NEWT.NEWT_CTL 4 0
      let time := s.ns - (len + 1) * 32000
      let raw := fun (s : State) =>
        s.newtDeliver (newtRecord len (b2n fcsOk + 8 * ant) rssi.toNat lqi.toNat 0 chan 0xFFFF time 0) psdu
      if len < 5 || 127 < len then finish s1
      else if !fcsOk then finish (if promisc then raw s1 else s1.sat NEWT.NEWT_CNT0 15 8 1)
      else
        match newtParse body with
        | none => finish (if promisc then raw s1 else s1.sat NEWT.NEWT_CNT0 7 0 1)
        | some h =>
          let src := s.newtSource h
          let s2 := match s.newtMatch h (s.clock - (len + 1) * 16000) with
            | some t => s1.newtPost t.tag 0 t.attempts ((psdu.headD 0).toNat / 16 % 2 = 1)
            | none => s1
          let known := src.isSome
          let accepted := s.newtAccept h
          let answer := accepted && h.ar && s.newtMine h && !promisc
          let fpAsked := s.rbit NEWT.NEWT_CTL 27 || (h.type = 3 && frameField body h.body 1 = 4)
          let fp := answer && fpAsked && (match src with
            | some i => s.newtPend i
            | none => s.rbit NEWT.NEWT_CTL 26)
          let deliver := promisc || (accepted && !(s.rbit NEWT.NEWT_CTL 28 && h.type = 1 && !known))
          let s3 := if deliver || (h.type = 2 && h.ver < 3) then s2 else s2.sat NEWT.NEWT_CNT0 7 0 1
          let got : NewtGot := { psdu := psdu, ant := ant, rssi := rssi.toNat, lqi := lqi.toNat, chan := chan, index := src, time := time }
          if answer then
            let octets := if h.ver < 2 then 5
              else 6 + b2n h.seq.isSome + addrLen h.srcMode + (if h.sec then 5 + h.keyLen + micLen h.level else 0)
            s3.modNewt fun x => { x with ack := some {
              at_ := s.clock + 95000, octets := octets, secured := h.ver = 2 && h.sec, fp := fp, deliver := deliver, got := got } }
          else finish (if deliver then s3.newtHand got 0 else s3)

/-- NEWT_ACK_SEND (R252, R258, R260): the grant is evaluated 2 µs before the first chip, and only then is the frame unsecured. A secured
Ack takes the frame counter, and is not sent once that is spent. -/
def execNewtAckSend (s : State) : Host.Outcome State Fault Refusal :=
  .next <|
    match s.newt.ack with
    | none => s
    | some a =>
      if s.clock < a.at_ then s
      else
        let granted := s.newtGrant (s.rf NEWT.COEX_CTL 9 8)
        let spent := a.secured && s.rd NEWT.NEWT_FC = 0xFFFFFFFF
        let sent := granted && !spent
        let s0 := s.modNewt fun x => { x with
          ack := none, ackEnd := if sent then s.clock + 1000 + (6 + a.octets) * 16000 else x.ackEnd }
        let s1 := if granted then s0 else s0.sat NEWT.NEWT_CNT1 7 0 1
        let s2 := if sent && a.secured then s1.wr NEWT.NEWT_FC (s.rd NEWT.NEWT_FC + 1) else s1
        let s3 := if a.deliver then s2.newtHand a.got (if sent then 2 + 4 * b2n a.fp else 0) else s2
        s3.newtListen.newtGo.newtRetune

/-! Child commands and pending bits (R250, R251, R254). -/

/-- A child command with its result path; none of them is accepted while the tile drains (R262). -/
def State.childCmd (s : State) (by_ : Req) (tag : Tag) (f : State → State × Nat × Nat) : State :=
  s.onWrite by_ 7 fun s =>
    if !s.pathFree NEWT.CHILD_RESULT then s.reqDrop 7
    else
      let r := if s.life 7 = .draining then (s, 4, 0) else f s
      (r.1.pathPost NEWT.CHILD_RESULT 8 tag (r.2.1 * 2 ^ 27 + r.2.2 * 2 ^ 16)).evt 7 19

/-- The extended address of child commands. -/
def State.childExt (s : State) : Nat := (s.rd NEWT.CHILD_EXT_LO).toNat + 2 ^ 32 * (s.rd NEWT.CHILD_EXT_HI).toNat

/-- CHILD_ADD_SHORT (R250). -/
def execChildAddShort (by_ : Req) (tag : Tag) (s : State) : Host.Outcome State Fault Refusal :=
  .next <| s.childCmd by_ tag fun s =>
    let a := s.rf NEWT.CHILD_ARG 15 0
    if 0xFFFE ≤ a then (s, 4, 0)
    else if (s.newtFindShort a).isSome then (s, 2, 0)
    else
      match (List.range 512).find? fun i => s.newtShort i = none with
      | none => (s, 1, 0)
      | some i =>
        ((s.modNewt fun x => { x with short := tput (fun _ => none) x.short i (some (a, s.childExt)) }).setNewtPend i false, 0, i)

/-- CHILD_DEL_SHORT (R250, R254). -/
def execChildDelShort (by_ : Req) (tag : Tag) (s : State) : Host.Outcome State Fault Refusal :=
  .next <| s.childCmd by_ tag fun s =>
    match s.newtFindShort (s.rf NEWT.CHILD_ARG 15 0) with
    | none => (s, 3, 0)
    | some i => ((s.modNewt fun x => { x with short := terase x.short i }).setNewtPend i false, 0, i)

/-- CHILD_ADD_EXT (R250). -/
def execChildAddExt (by_ : Req) (tag : Tag) (s : State) : Host.Outcome State Fault Refusal :=
  .next <| s.childCmd by_ tag fun s =>
    if (s.newtFindExt s.childExt).isSome then (s, 2, 0)
    else
      match (List.range 64).find? fun i => s.newtExtEntry i = none with
      | none => (s, 1, 0)
      | some i =>
        ((s.modNewt fun x => { x with ext := tput (fun _ => none) x.ext i (some s.childExt) }).setNewtPend (0x8000 + i) false, 0, i)

/-- CHILD_DEL_EXT (R250, R254). -/
def execChildDelExt (by_ : Req) (tag : Tag) (s : State) : Host.Outcome State Fault Refusal :=
  .next <| s.childCmd by_ tag fun s =>
    match s.newtFindExt s.childExt with
    | none => (s, 3, 0)
    | some i => ((s.modNewt fun x => { x with ext := terase x.ext i }).setNewtPend (0x8000 + i) false, 0, i)

/-- CHILD_ILLEGAL_OP (R250). -/
def execChildIllegalOp (by_ : Req) (tag : Tag) (s : State) : Host.Outcome State Fault Refusal :=
  .next <| s.childCmd by_ tag fun s => (s, 5, 0)

/-- CHILD_ACK (R250). -/
def execChildAck (by_ : Req) (tag : Tag) (s : State) : Host.Outcome State Fault Refusal :=
  .next <| s.onWrite by_ 7 fun s => s.pathAck NEWT.CHILD_RESULT 8 tag

/-- A write to PEND_SET or PEND_CLR: an INDEX above 63 in the extended table is ignored. -/
def State.pendWrite (s : State) (by_ : Req) (val : Word) (v : Bool) : State :=
  s.onWrite by_ 7 fun s =>
    let i := fld val 8 0
    if !bit val 15 then s.setNewtPend i v else if i < 64 then s.setNewtPend (0x8000 + i) v else s

/-- PEND_SET (R254). -/
def execPendSet (by_ : Req) (val : Word) (s : State) : Host.Outcome State Fault Refusal := .next <| s.pendWrite by_ val true

/-- PEND_CLR (R254). -/
def execPendClr (by_ : Req) (val : Word) (s : State) : Host.Outcome State Fault Refusal := .next <| s.pendWrite by_ val false

/-- RXR_RD_WRITE (R261). -/
def execRxrRdWrite (by_ : Req) (val : Word) (s : State) : Host.Outcome State Fault Refusal :=
  .next <| s.onWrite by_ 7 fun s => s.wr NEWT.RXR_RD (val &&& 0x3F)

/-- NEWT_RUN_WRITE (R262, R41). -/
def execNewtRunWrite (by_ : Req) (val : Word) (s : State) : Host.Outcome State Fault Refusal :=
  .next <| s.runWrite by_ 7 1 NEWT.NEWT_RUN val

/-- NEWT enters DRAINING (R262): a command not yet sent is flushed; one waiting to repeat an attempt ends NO_ACK. -/
def State.newtDrain (s : State) : State :=
  match s.newt.tx with
  | none => s
  | some t => if t.busy then s else s.newtPost t.tag (if t.attempts = 0 then 5 else 2) t.attempts false

/-- NEWT enters HELD, where the radio is off (R262): a reception in progress is lost. -/
def State.newtHeld (s : State) : State :=
  ((s.modNewt fun x => { x with rx := none, ack := none }).wf NEWT.NEWT_STATUS 30 30 0).newtListen.newtRetune

/-- NEWT enters READY anew: it listens on antenna A where ANT_MODE follows the last frame (R247). -/
def State.newtReady (s : State) : State := (s.modNewt fun x => { x with lastAnt := 0 }).newtListen

/-- NEWT has drained (R262). -/
def State.newtDrained (s : State) : Bool :=
  s.newt.ack.isNone && s.newt.ackEnd ≤ s.clock && (match s.newt.tx with
    | some t => !t.busy
    | none => true)

end Sys2Proof.Machine
end

