-- ==== Sys2Proof/Machine/Sense.lean ====
section
/-! DEFINITION. The sense receiver (R134 to R140). -/

namespace Sys2Proof.Machine

open Reg

/-- A scan entry is in use: VALID, and its centre within 2,560 to 6,965 MHz (R138). -/
def scanValid (a : Word) : Bool := bit a 31 && 2560 ≤ fld a 12 0 && fld a 12 0 ≤ 6965

/-- The first entry in use among `n` entries from `e`. -/
def State.scanFrom (s : State) : Nat → Nat → Option Nat
  | 0, _ => none
  | n + 1, e => if scanValid (s.rd (SENSE.SCAN_A e)) then some e else s.scanFrom n (e + 1)

/-- The scan stops (R138). -/
def State.scanStop (s : State) : State :=
  { s.wr SENSE.SENSE_STATUS (putBit (putBit (s.rd SENSE.SENSE_STATUS) 31 false) 30 false) with
    sense := { s.sense with stopReq := false, frames := [], pulses := [], total := 0, selfTx := 0 } }

/-- Start an entry: capture it and retune; the gain is the fixed one where AUTO is 0 (R135, R138). -/
def State.scanEnter (s : State) (e : Nat) : State :=
  let a := s.rd (SENSE.SCAN_A e)
  let b := s.rd (SENSE.SCAN_B e)
  let st := s.rd SENSE.SENSE_STATUS
  let g := if bit b 7 then fld st 15 8 else 6 * min 10 (fld b 3 0)
  { s.wr SENSE.SENSE_STATUS (putFld (putFld (putFld st 31 30 3) 20 16 e) 15 8 g) with
    sense := { s.sense with curA := a, curB := b, frames := [], pulses := [], total := 0, selfTx := 0 } }

/-- Go to the next entry of the pass from `e`, or stop where a pass finds none (R138). LAST of an entry that is skipped does not end the
pass (DESIGN CHOICE, log entry 61). -/
def State.scanNext (s : State) (from_ : Option Nat) : State :=
  let later := match from_ with
    | none => none
    | some e => if bit s.sense.curA 30 then none else s.scanFrom (31 - e) (e + 1)
  match later with
  | some e => s.scanEnter e
  | none =>
    match s.scanFrom 32 0 with
    | some e => s.scanEnter e
    | none => s.scanStop.evt 6 18

/-- Slots of the report ring (R139). -/
def State.rptSlots (s : State) : Nat := 2 ^ clampN 4 12 (s.rf SENSE.RPT_BASE 3 0)

/-- Write one report, or discard it where the ring is full or lies outside the store (R139). -/
def State.report (s : State) (type : Nat) (flags count : Nat) (body : List Byte) : State :=
  let n := s.rptSlots
  let w := s.rf SENSE.RPT_WR 11 0 % n
  let r := s.rf SENSE.RPT_RD 11 0 % n
  let base := s.rf SENSE.RPT_BASE 31 4 * 4096
  let s1 := { s with sense := { s.sense with seq := s.sense.seq + 1 } }
  if (w + 1) % n = r || storeEnd < base + n * 4096 then (s1.sat SENSE.RPT_DROP 31 0 1).evt 6 17
  else
    let x := s.sense
    let hdr := le 1 type ++ le 1 1 ++ le 2 (32 + body.length) ++ le 4 x.seq ++ le 8 x.startNs ++ le 2 (fld x.curA 12 0)
      ++ le 1 x.gain0 ++ le 1 flags ++ le 2 count ++ le 2 x.frames.length ++ le 2 x.selfTx
      ++ le 1 (s.rf SENSE.SENSE_STATUS 20 16) ++ le 5 0
    ((s1.storeWrite 4 (base + w * 4096) (hdr ++ body)).wf SENSE.RPT_WR 11 0 ((w + 1) % n)).evt 6 16

/-- The power codes of one bin over the frames accumulated. -/
def binCodes (frames : List (List Byte)) (b : Nat) : List Byte := frames.map fun f => f.getD b 0

/-- Frames times 255 over all frames; a free value where there is none (R139). -/
def occOf (n total : Nat) : Nat := if total = 0 then Config.emptyOcc.toNat else n * 255 / total

/-- Occupancy of a bin: frames at or above the threshold times 255, over the frames (R139). -/
def occupancy (thr : Nat) (codes : List Byte) : Nat := occOf (codes.countP fun c => thr ≤ c.toNat) codes.length

/-- The power code of a power in half decibels of full scale, in a bin and at a gain (R135, R139): dBFS minus the gain plus the
calibration. -/
def State.powerCode (s : State) (gain bin : Nat) (p : Int) : Byte :=
  let v : Int := p - 2 * (gain : Int) + Config.senseCal (fld s.sense.curA 12 0) gain bin + 320
  if v < 0 then Config.lowCode (-v).toNat else BitVec.ofNat 8 (min 255 v.toNat)

/-- Maximal runs of bins whose occupancy reaches a threshold, as (start, length) (R139). -/
def runsOf (thr : Nat) : List Nat → Nat → Option (Nat × Nat) → List (Nat × Nat)
  | [], _, none => []
  | [], _, some r => [r]
  | o :: os, b, cur =>
    if thr ≤ o then runsOf thr os (b + 1) (some (match cur with | none => (b, 1) | some (st, n) => (st, n + 1)))
    else match cur with
      | none => runsOf thr os (b + 1) none
      | some r => r :: runsOf thr os (b + 1) none

/-- Runs of consecutive true values. -/
def bursts : Bool → List Bool → Nat
  | _, [] => 0
  | prev, b :: bs => (if b && !prev then 1 else 0) + bursts b bs

/-- A frame is occupied in a segment when a bin of it reaches OCC_THR (DESIGN CHOICE, log entry 11). -/
def frameOccupied (thr st n : Nat) (f : List Byte) : Bool := ((f.drop st).take n).any fun c => thr ≤ c.toNat

/-- One 16-byte segment of an interference report (R139). -/
def segmentBytes (thr : Nat) (frames : List (List Byte)) (r : Nat × Nat) : List Byte :=
  let codes := frames.flatMap fun f => (f.drop r.1).take r.2
  let occ := frames.map (frameOccupied thr r.1 r.2)
  let peak := codes.foldl (fun m c => max m c.toNat) 0
  le 2 r.1 ++ le 2 r.2 ++ [Config.meanCode codes] ++ le 1 peak
    ++ le 1 (occOf (occ.countP id) frames.length) ++ le 1 (b2n (r.1 = 0 || r.1 + r.2 = 1600))
    ++ le 4 (bursts false occ) ++ le 4 0

/-- One 16-byte pulse of a pulse report (R139). -/
def pulseBytes (p : PulseRec) : List Byte :=
  le 4 p.start.toNat ++ le 2 p.width ++ [p.peak]
    ++ le 1 (b2n (p.width = 0xFFFF) + 2 * b2n p.slope.isSome) ++ le 2 p.centre.toNat ++ le 2 p.bandwidth.toNat
    ++ le 2 ((p.slope.map (·.toNat)).getD 0) ++ le 2 0

/-- The pulse that a run of the envelope makes (R137): at least 50 ns, above the noise estimate by PULSE_THR, which is held to 3 to 40.
Its start on the count is reckoned back at the present rate (DEDUCED, log entry 61). -/
def State.pulseOf (s : State) (gain : Nat) (p : SensePulse) : Option PulseRec :=
  if p.ns < 50 || p.above < (clampN 3 40 (s.rf SENSE.SENSE_CTL 7 0) : Int) then none
  else
    let back := if s.ms.started then p.ago * s.time.inc else 0
    some { start := wd (s.ms.at_ ((s.ms.total : Int) - back)).ns, width := min 65535 (p.ns / 10)
           peak := s.powerCode gain p.centre.toNat p.peak, slope := p.slope, centre := p.centre, bandwidth := p.bandwidth }

/-- Write the pulse report of the entry with its first 254 pulses and keep the others (R138, R139). -/
def State.pulseReport (s : State) (partialFlag : Bool) : State :=
  let x := s.sense
  let ps := x.pulses.take 254
  let s1 := s.report 3 (b2n x.gainChanged + 2 * b2n partialFlag) ps.length (ps.flatMap pulseBytes)
  { s1 with sense := { s1.sense with pulses := x.pulses.drop 254 } }

/-- Write the reports the entry's RPT mask requests (R138, R139). -/
def State.entryReports (s : State) (partialFlag : Bool) : State :=
  let x := s.sense
  let thr := s.rf SENSE.SENSE_CTL 15 8
  let occ := (List.range 1600).map fun b => occupancy thr (binCodes x.frames b)
  let fl := b2n x.gainChanged + 2 * b2n partialFlag
  let s1 := if bit x.curA 29 then
      s.report 1 fl 1600 ((List.range 1600).map (fun b => Config.meanCode (binCodes x.frames b)) ++ occ.flatMap (le 1))
    else s
  let segs := runsOf (s.rf SENSE.SENSE_CTL 23 16) occ 0 none
  let s2 := if bit x.curA 28 then
      s1.report 2 (fl + 4 * b2n (254 < segs.length)) (min 254 segs.length)
        ((segs.take 254).flatMap (segmentBytes thr x.frames))
    else s1
  if bit x.curA 27 then s2.pulseReport partialFlag else s2

/-- The gain after a frame in automatic mode (R135). -/
def senseGain (peak : Int) (gain : Nat) : Nat :=
  if -3 ≤ peak && 6 ≤ gain then gain - 6 else if peak ≤ -15 && gain ≤ 54 then gain + 6 else gain

/-- SENSE_CTL_WRITE (R138): RUN rising starts a scan at entry 0; RUN falling stops it after the current frame. RUN
set in DRAINING or HELD starts a scan too (DESIGN CHOICE, log entry 61). -/
def execSenseCtlWrite (by_ : Req) (val : Word) (s : State) : Host.Outcome State Fault Refusal :=
  .next <| s.onWrite by_ 6 fun s =>
    let old := s.rd SENSE.SENSE_CTL
    let s1 := s.wr SENSE.SENSE_CTL (val &&& 0xC0FFFFFF)
    let running := s.rbit SENSE.SENSE_STATUS 31
    if bit val 31 && !bit old 31 then
      State.scanNext { s1 with sense := { s1.sense with seq := 0, stopReq := false } } none
    else if !bit val 31 && running then
      if s.rbit SENSE.SENSE_STATUS 30 then s1.scanStop else { s1 with sense := { s1.sense with stopReq := true } }
    else s1

/-- The present frame overlaps in time with a TXEN high in the window (R136). -/
def State.selfTransmit (s : State) : Bool :=
  match s.sense.txAt with
  | some t => s.sense.frameAt ≤ t
  | none => false

/-- SENSE_FRAME_END (R134 to R138): 5 µs after the frame began. A frame not marked self-transmit is accumulated, the gain steps, and a
scan asked to stop ends with PARTIAL reports. -/
def execSenseFrameEnd (peak : Int) (bins : List Int) (pulses : List SensePulse) (s : State) : Host.Outcome State Fault Refusal :=
  .next <|
    let st := s.rd SENSE.SENSE_STATUS
    let x := s.sense
    if !bit st 31 || bit st 30 || max 1 (fld x.curB 31 16) ≤ x.total || s.clock < x.frameAt + 2500 then s
    else
      let g := fld st 15 8
      let g1 := if bit x.curB 7 then senseGain peak g else g
      let keep := s.rbit SENSE.SENSE_CTL 30 && bit x.curA 27 && !s.selfTransmit
      let x1 : Sense := { x with
        frames := if s.selfTransmit then x.frames else x.frames ++ [(bins.take 1600).mapIdx fun b p => s.powerCode g b p]
        selfTx := if s.selfTransmit then x.selfTx + 1 else x.selfTx
        total := x.total + 1
        gainChanged := x.gainChanged || g1 != g
        frameAt := s.clock
        pulses := if keep then x.pulses ++ pulses.filterMap (s.pulseOf g) else x.pulses }
      let s1 := { s.wr SENSE.SENSE_STATUS (putFld st 15 8 g1) with sense := x1 }
      let s2 := (List.range (x1.pulses.length / 254)).foldl (fun (s : State) _ => s.pulseReport false) s1
      if x.stopReq then (s2.entryReports true).scanStop else s2

/-- SENSE_DWELL_END (R138): the entry has dwelt DWELL frames; its reports are written and the next entry is tuned, or the scan stops
where it was asked to. -/
def execSenseDwellEnd (s : State) : Host.Outcome State Fault Refusal :=
  .next <|
    let st := s.rd SENSE.SENSE_STATUS
    if bit st 31 && !bit st 30 && max 1 (fld s.sense.curB 31 16) ≤ s.sense.total then
      if s.sense.stopReq then (s.entryReports true).scanStop else (s.entryReports false).scanNext (some (fld st 20 16))
    else s

/-- SENSE_RETUNE_DONE (R134): the synthesiser has retuned and frames resume. -/
def execSenseRetuneDone (s : State) : Host.Outcome State Fault Refusal :=
  .next <|
    let st := s.rd SENSE.SENSE_STATUS
    if bit st 31 && bit st 30 then
      { s.wr SENSE.SENSE_STATUS (putBit st 30 false) with
        sense := { s.sense with startNs := s.ns, gain0 := fld st 15 8, gainChanged := false, frameAt := s.clock } }
    else s

/-- SENSE_RPT_RD_WRITE (R139): software frees slots by advancing RPT_RD. -/
def execSenseRptRdWrite (by_ : Req) (val : Word) (s : State) : Host.Outcome State Fault Refusal :=
  .next <| s.onWrite by_ 6 fun s => s.wr SENSE.RPT_RD (val &&& 0xFFF)

/-- SENSE_RUN_WRITE (R140): the start control of the two sense controller threads. -/
def execSenseRunWrite (by_ : Req) (val : Word) (s : State) : Host.Outcome State Fault Refusal :=
  .next (s.runWrite by_ 6 2 SENSE.SENSE_RUN val)

end Sys2Proof.Machine
end

