-- ==== Sys2Proof/Machine/Life.lean ====
section
/-! DEFINITION. The tile life cycle of chapter 1: requests and their paths, resets, drains, faults, and the header's error
and event words. -/

namespace Sys2Proof.Machine

open Reg

/-! What a tile's memories and registers become. -/

/-- Populated local memories of a tile, as offset and size (R24). -/
def localMem (t : Nat) : List (Nat × Nat) :=
  if t = 0 then [(0, 0x80000)]
  else if t = 2 ∨ t = 3 ∨ t = 4 then [(0, 0x40000), (0x100000, 0x8000), (0x200000, 0x10000), (0x400000, 0x100000)]
  else if t = 5 then [(0, 0x80000), (0x100000, 0x100000)]
  else if t = 6 then [(0, 0x20000)]
  else if t = 7 then [(0, 0x10000)]
  else if t = 9 then [(0, 0x50000)]
  else if t = 11 ∨ t = 12 ∨ t = 13 ∨ t = 14 then
    ((List.range 8).map fun e => (e * 0x40000, 0x20000)) ++ [(0x800000, 0x40000), (0x1000000, 0x200000)]
  else []

/-- Base of a tile's local memory window (R11). -/
def localBase (t : Nat) : Nat := 0x2000000000 + t * 0x10000000

/-- Registers that keep their values when their tile enters RESET: counters of HOST, TIME's offsets in effect, and what
SELFTEST leaves (R432, R447). -/
def keptReg (a : RegId) : Bool :=
  a = HOST.HOST_CNT0 || a = HOST.HOST_CNT1 || (List.range 3).any (fun r => a = TIME.TSF_OFS_LO r || a = TIME.TSF_OFS_HI r)
    || (List.range 4).any (fun c => a = ENG.ENG_MAP c) || (List.range 3).any (fun r => a = RADIO.RX_LANES r || a = RADIO.RX_CAP r)

/-- What a register's value becomes when its tile enters RESET: its reset value, but for fields marked RWL (R30). -/
def resetVal (a : RegId) (v : Word) : Word :=
  if keptReg a then v
  else match regAt a with
    | some (row, _) => (regReset a &&& ~~~ (wd row.lmask)) ||| (v &&& wd row.lmask)
    | none => v

/-- The registers of a tile outside its header take their reset values. -/
def State.resetRegsOf (s : State) (t : Nat) : State :=
  { s with regs := s.regs.filterMap fun e =>
      if RegId.tile e.1 = t then
        (let v := resetVal e.1 e.2
         if v = regReset e.1 then none else some (e.1, v))
      else some e }

/-- Every local memory of a tile reads as zero, as SELFTEST leaves it (R41). -/
def State.zeroLocal (s : State) (t : Nat) : State :=
  (localMem t).foldl (fun s m => s.clearMem (localBase t + m.1) m.2) s

/-- The threads of a controller stop, and its pending event entries are lost (R41). -/
def State.ctrlStop (s : State) (t : Nat) : State :=
  if !hasController t then s
  else
    let s1 := [0, 1, 2, 3].foldl (fun (s : State) n => s.setThread (threadKey t 0 n) {}) s
    { s1 with evtIn := tput (fun _ => []) s1.evtIn t [] }

/-- Tokens that hardware holds or asks for in a tile are released, Axolotl's apart; STORE's include those of its channels. -/
def State.dropTileTokens (s : State) (t : Nat) : State :=
  let mine := fun (q : Token) => q.holder = .unit && q.kind != kSUBST && (q.scope = t || (t = 8 && 18 ≤ q.scope))
  State.arbitrate { s with tokens := s.tokens.filter fun q => !mine q, tokenReqs := s.tokenReqs.filter fun q => !mine q }

/-- What a radio holds is discarded at RESET: a pending swap is cancelled, the sequencer stops, commands leave without
completion records and return their MPDUs, and the slots of loading tables become EMPTY (R149, R150, R156, R207, R274). -/
def State.radioReset (s : State) (r : Nat) : State :=
  let s1 := (s.modRadio r fun x => { x with swap := none }).seqStop r
  let s2 := (s1.radio r).cmds.foldl (fun s c => (s.returnMpdus r c).fabStatus c false) s1
  (s2.clearMem (lm (rTile r) 0x400000) 0x100000).modRadio r fun _ => {}

/-- A radio's background calibration stops (R128). -/
def State.calStop (s : State) (r : Nat) : State :=
  let s1 := s.sliceYield r
  ((s1.modRadio r fun x => { x with rounds := 0 }).releaseToken kCAL (rTile r)).releaseToken kDPD (rTile r)

/-- Entry of a radio into HELD: the sequencer stops, commands not started complete FLUSHED, calibration stops (R128, R150,
R156). -/
def State.radioHeld (s : State) (r : Nat) : State :=
  let s1 := (s.seqStop r).modRadio r fun x => { x with selected := none, granted := none }
  let s2 := [0, 1, 2, 3, 4].foldl (fun (s : State) q =>
    (s.txq r q).foldl (fun s c => s.txUnsent r q c 3) (s.setTxq r q [])) s1
  s2.calStop r

/-- A radio enters READY anew: its record numbers and its peers' table generations start over (R181, R274; entering READY again from
DRAINING is none, DEDUCED, log entry 62). -/
def State.radioReady (s : State) (r : Nat) : State :=
  s.modRadio r fun x => { x with recSeq := 0, tp := x.tp.map fun p => (p.1, { p.2 with gen := 0 }) }

/-- TIME is to free its servo at its next READY (R432). -/
def State.timeLost (s : State) : State := { s with time := { s.time with lost := true } }

/-- A tile that leaves a state for another: what its chapter ties to that. -/
def State.lifeHook (s : State) (t : Nat) (old : Life) : State :=
  let new := s.life t
  if t = 1 then
    let s1 := if new = .fault || new = .reset || new = .off then s.timeLost else s
    if new = .ready then
      let s2 : State := { s1 with ms := { s1.ms with started := true } }
      let s3 := if s2.time.lost then
          ({ s2 with time := { s2.time with lost := false, adj := 0, integ := 0, good := 0, first := false } } : State).setServo 0
        else s2
      s3.ppsSync
    else s1.ppsSync
  else if t = 2 ∨ t = 3 ∨ t = 4 then
    let r := t - 2
    let s0 := if old = .ready then s.sliceYield r else s
    (if new = .held then s0.radioHeld r else if new = .fault then (s0.seqStop r).calStop r
      else if new = .ready && old != .draining then s0.radioReady r else s0).syncLinks
  else if t = 6 then
    if new = .draining && s.rbit SENSE.SENSE_STATUS 31 then
      if s.rbit SENSE.SENSE_STATUS 30 then s.scanStop else { s with sense := { s.sense with stopReq := true } }
    else s
  else if t = 7 then if new = .draining then s.newtDrain else if new = .held then s.newtHeld
    else if new = .ready && old != .draining then s.newtReady else s
  else if t = 8 then if old = .held && new = .ready then s.applyMasks.trainChannels else s
  else if t = 11 ∨ t = 12 ∨ t = 13 ∨ t = 14 then
    if old = .ready && new != .ready then s.clusterLeaves (t - 11)
    else if new = .ready then s.engClkCheck (t - 11) else s
  else if t = 17 then (List.range 4).foldl (fun s n => s.laneOff n) s
  else s

/-- Enter a state, with what follows from it. -/
def State.enter (s : State) (t : Nat) (l : Life) : State :=
  let old := s.life t
  if old = l then s else (s.setLife t l).lifeHook t old

/-- What follows where an event has put a tile into FAULT. -/
def State.faultHook (s0 s1 : State) (t : Nat) : State :=
  if s0.life t != .fault && s1.life t = .fault then s1.lifeHook t (s0.life t) else s1

/-- Work of a tile is discarded as it enters RESET, and its state behind its registers is lost, as its chapter says. -/
def State.discardWork (s : State) (t : Nat) : State :=
  let s0 := (s.ctrlStop t).dropTileTokens t
  if t = 1 then
    { s0 with time := { run := s0.time.run, adj := s0.time.adj, steps := s0.time.steps, stepAt := s0.time.stepAt, lost := true } }
  else if t = 2 ∨ t = 3 ∨ t = 4 then s0.radioReset (t - 2)
  else if t = 5 then { s0 with mlink := {} }
  else if t = 6 then { s0 with sense := {} }
  else if t = 7 then { s0 with newt := {} }
  else if t = 8 then
    (s0.setMasks ({} : Store).masks).modStore fun x => { x with
      pools := [], initPool := none, mbReq := [], inHand := [], wbPend := [], chans := [], ppr := none, soft := [], rtNext := 0
      passAt := none }
  else if t = 9 then
    let s1 := s0.clsFlush
    let s2 := (s1.fabric.queues.flatMap (·.2)).foldl (fun (s : State) f => s.freeDesc 6 f.1) s1
    { s2 with cls := {}, fabric := {} }
  else if t = 10 then s0.schedReset
  else if t = 11 ∨ t = 12 ∨ t = 13 ∨ t = 14 then
    let s1 := s0.clusterStop (t - 11)
    { s1 with subst := tput (fun _ => none) s1.subst (t - 11) none }
  else if t = 15 then
    let s1 := s0.cipherFlush
    { s1 with cipher := { s1.cipher with sess := [] } }
  else if t = 16 then
    let s1 := s0.quiesce.linkDown
    (s1.configReset).modHost fun x => { x with coal := [], coalAt := [] }
  else if t = 17 then
    let s1 := s0.wireDiscard
    { s1 with wire := {} }
  else s0

/-- A tile enters RESET: work discarded, registers at reset but for what R30 and its chapter keep, no request and no posted
result, no event pending or enabled (R17, R21, R31). The error record and the counters of TILE_ERR_CNT stay, and so do LOCK and
TILE_EVT_ROUTE (R30, R31). -/
def State.tileReset (s : State) (t : Nat) : State :=
  let s0 := (s.discardWork t).resetRegsOf t
  let s1 := if t = 2 ∨ t = 3 ∨ t = 4 then s0.placeOf (t - 2) else s0
  let s2 := s1.modTile t fun x => { x with
    busy := false, target := 15, resValid := false, resCode := 0, resTag := 0, ctlTag := 0, ctlReq := 15, flitFails := [],
    flitLast := [], evtPend := 0, evtMask := 0 }
  s2.enter t .reset

/-- Tiles whose chapter gives CALIBRATE content; the others pass through it without dwelling (R16): SCHED (R397), the
engine clusters (R398) and CIPHER (R410), which say so; MLINK and CLASS, whose chapters name nothing to calibrate (DEDUCED, log
entry 55). -/
def hasCalib (t : Nat) : Bool := !(t = 5 || (9 ≤ t && t ≤ 15))

/-! Requests (R17 to R22, R31). -/

/-- A request is in progress with a target and a tag. -/
def State.startReq (s : State) (t target : Nat) (tag : Tag) : State :=
  s.modTile t fun x => { x with busy := true, target := target, reqTag := tag, resValid := false }

/-- The request in progress ends: DONE under its tag, or nothing where there is none. -/
def State.endReq (s : State) (t code : Nat) : State :=
  if (s.tile t).busy then s.postReq t code (s.tile t).reqTag else s

/-- The READY path of a tile in RESET: HOST waits for PERST_N (R483). -/
def State.readyPath (s : State) (t : Nat) : State :=
  if t = 16 && !s.hostU.perst then s else s.enter t .selftest

/-- Every tile from 2 to 17 but STORE is out of use (R310). -/
def State.storeAlone (s : State) : Bool :=
  (List.range 18).all fun t => t < 2 || t = 8 ||
    (match s.life t with | .off => true | .reset => true | .held => true | .fault => true | _ => false)

/-- The answer to a request that the table of R17 does not start: refused with a code at once. -/
def State.refuse (s : State) (t code : Nat) (tag : Tag) : State := s.postReq t code tag

/-- A request that needs the maintenance token (R20). -/
def State.tokenReq (s : State) (t target : Nat) (tag : Tag) (dest : Life) : State :=
  if !s.hasToken t then s.refuse t 2 tag
  else
    let s1 := s.startReq t target tag
    (s1.modTile t fun x => { x with since := s.clock }).enter t dest

/-- A request of a tile other than MGMT, by its REQ_STATE code. -/
def State.request (s : State) (t code : Nat) (tag : Tag) : State :=
  let x := s.tile t
  if code = 0 then
    if x.life = .off then s.modTile t fun x => { x with busy := false, target := 15 } else s.startReq t 0 tag
  else if code = 1 then
    if x.life = .reset then
      (s.modTile t fun x => { x with busy := false, target := 15, resValid := false }).postReq t 0 tag
    else s.startReq t 1 tag
  else if code = 4 && x.life = .draining && x.busy && x.target = 6 then s.startReq t 4 tag
  else if x.busy || x.resValid then s.reqDrop t
  else
    match x.life, code with
    | .off, 4 => s.startReq t 4 tag
    | .reset, 4 => (s.startReq t 4 tag).readyPath t
    | .ready, 4 => s.postReq t 0 tag
    | .held, 4 => s.startReq t 4 tag
    | .ready, 6 => if t = 8 && !s.storeAlone then s.refuse t 1 tag else s.tokenReq t 6 tag .draining
    | .held, 2 => s.tokenReq t 2 tag .selftest
    | .held, 3 =>
      let s1 := s.tokenReq t 3 tag .calibrate
      if !hasCalib t && s1.life t = .calibrate then (s1.enter t .held).endReq t 0 else s1
    | _, _ => s.refuse t 1 tag

/-- A request of MGMT (R22): RESET restarts it; READY from READY is DONE; the rest is refused. -/
def State.mgmtRequest (s : State) (code : Nat) (tag : Tag) : State :=
  let x := s.tile 0
  if code = 1 then
    ((s.modTile 0 fun x => { x with busy := false, target := 15, resValid := false }).mgmtRestart 2).postReq 0 0 tag
  else if x.busy || x.resValid then s.reqDrop 0
  else if code = 4 && x.life = .ready then s.postReq 0 0 tag
  else s.refuse 0 1 tag

/-- A write of TILE_CTL: LOCK is W1S and is not taken in OFF; 15 requests nothing (R29, R31). -/
def State.ctlWrite (s : State) (t code : Nat) (tag : Tag) (lock : Bool) : State :=
  if s.inReset then s
  else
    let s1 := s.modTile t fun x => { x with
      lock := x.lock || (lock && x.life != .off), ctlTag := tag, ctlReq := code }
    if code = 15 then s1 else if t = 0 then s1.mgmtRequest code tag else s1.request t code tag

/-- REQ_STATE_OFF (R17, R21). -/
def execReqStateOff (t : Fin 18) (tag : Tag) (lock : Bool) (s : State) : Host.Outcome State Fault Refusal :=
  .next <| s.ctlWrite t.val 0 tag lock
/-- REQ_STATE_RESET (R17, R21, R22). -/
def execReqStateReset (t : Fin 18) (tag : Tag) (lock : Bool) (s : State) : Host.Outcome State Fault Refusal :=
  .next <| s.ctlWrite t.val 1 tag lock
/-- REQ_STATE_SELFTEST (R17, R20). -/
def execReqStateSelftest (t : Fin 18) (tag : Tag) (lock : Bool) (s : State) : Host.Outcome State Fault Refusal :=
  .next <| s.ctlWrite t.val 2 tag lock
/-- REQ_STATE_CALIBRATE (R17, R20). -/
def execReqStateCalibrate (t : Fin 18) (tag : Tag) (lock : Bool) (s : State) : Host.Outcome State Fault Refusal :=
  .next <| s.ctlWrite t.val 3 tag lock
/-- REQ_STATE_READY (R17, R21). -/
def execReqStateReady (t : Fin 18) (tag : Tag) (lock : Bool) (s : State) : Host.Outcome State Fault Refusal :=
  .next <| s.ctlWrite t.val 4 tag lock
/-- REQ_STATE_HELD (R17, R20, R310). -/
def execReqStateHeld (t : Fin 18) (tag : Tag) (lock : Bool) (s : State) : Host.Outcome State Fault Refusal :=
  .next <| s.ctlWrite t.val 6 tag lock
/-- REQ_STATE_REFUSED_CODE (R17): 5, 7 to 14; another code is no row of this kind and is taken as 5. -/
def execReqStateRefusedCode (t : Fin 18) (tag : Tag) (lock : Bool) (code : BitVec 4) (s : State) :
    Host.Outcome State Fault Refusal :=
  let c := code.toNat
  .next <| s.ctlWrite t.val (if c = 7 || (8 ≤ c && c < 15) then c else 5) tag lock
/-- TILE_CTL_LOCK_TAG (R31). -/
def execTileCtlLockTag (t : Fin 18) (tag : Tag) (lock : Bool) (s : State) : Host.Outcome State Fault Refusal :=
  .next <| s.ctlWrite t.val 15 tag lock

/-- A write of TILE_CTL_ACK: the posted tag retires the result (R31). -/
def State.ctlAck (s : State) (t : Nat) (tag : Tag) : State :=
  let x := s.tile t
  if x.life != .off && x.resValid && x.resTag = tag then s.modTile t fun x => { x with resValid := false } else s

/-- TILE_CTL_ACK (R28, R31). -/
def execTileCtlAck (t : Fin 18) (tag : Tag) (s : State) : Host.Outcome State Fault Refusal := .next <| s.ctlAck t.val tag

/-- TILE_RESET_REACHED (R514): a tile asked for RESET, or for OFF by way of it, reaches RESET. -/
def execTileResetReached (t : Fin 18) (s : State) : Host.Outcome State Fault Refusal :=
  .next <|
    let t := t.val
    let x := s.tile t
    if !x.busy || 2 ≤ x.target || x.life = .off || x.life = .reset then s
    else
      let s1 := s.tileReset t
      if x.target = 1 then s1.postReq t 0 x.reqTag else s1.startReq t 0 x.reqTag

/-- TILE_OFF_REACHED (R21, R29): the whole header reads zero. -/
def execTileOffReached (t : Fin 18) (s : State) : Host.Outcome State Fault Refusal :=
  .next <|
    let t := t.val
    let x := s.tile t
    if !x.busy || x.target != 0 || x.life != .reset then s
    else (s.modTile t fun x => { x with busy := false, target := 15 }).enter t .off

/-- OFF_TO_RESET_DONE (R17, R514). -/
def execOffToResetDone (t : Fin 18) (s : State) : Host.Outcome State Fault Refusal :=
  .next <|
    let t := t.val
    let x := s.tile t
    if !x.busy || x.life != .off then s
    else
      let s1 := s.enter t .reset
      if x.target = 1 then s1.endReq t 0 else s1.readyPath t

/-- Registers of MLINK that count or show what its memories hold: contexts, station-TID queues, steering entries (R215, R223, R233). -/
def mlinkCount (a : RegId) : Bool :=
  a = MLINK.CTX_COUNT || (MLINK.STQ_STAT 0 ≤ a && a < MLINK.STQ_STAT 8192) || (MLINK.STEER_STAT 0 0 ≤ a && a < MLINK.STEER_STAT 3 0)

/-- SELFTEST of MLINK leaves no context, no queue and no steering matrix (R215, R223, R233). -/
def State.mlinkTested (s : State) : State := { s with mlink := {}, regs := s.regs.filter fun e => !mlinkCount e.1 }

/-- What SELFTEST leaves of a tile beside its zeroed memories: the spares in service, and what its chapter lists. -/
def State.tested (s : State) (t used : Nat) (replaced : List Nat) : State :=
  let s1 := s.zeroLocal t
  let s2 := if (s1.tile t).sparesUsed = used then s1 else (s1.modTile t fun x => { x with sparesUsed := used }).evt t 4
  if t = 2 ∨ t = 3 ∨ t = 4 then
    let r := t - 2
    let out := fun n => replaced.contains n || (s.rf (RADIO.RX_LANES r) 28 16).testBit n
    let bad := ((List.range 13).filter out).foldl (fun a n => a + 2 ^ n) 0
    let act := (((List.range 13).filter fun n => !out n).take 12).foldl (fun a n => a + 2 ^ n) 0
    let s3 := s2.modRadio r fun x => { x with tp := [], laneFails := [] }
    if s3.rd (RADIO.RX_LANES r) = wd (bad * 2 ^ 16 + act) then s3 else s3.setLanes r act bad
  else if t = 5 then s2.mlinkTested
  else if t = 7 then { s2 with newt := {} }
  else if t = 11 ∨ t = 12 ∨ t = 13 ∨ t = 14 then
    s2.wr (ENG.ENG_MAP (t - 11)) (wd ((List.range 8).foldl (fun a e =>
      a + (if replaced.contains e then 8 else e) * 2 ^ (4 * e)) 0))
  else if t = 15 then { s2 with cipher := { s2.cipher with sess := [] } }
  else s2

/-- What CALIBRATE leaves: STORE's trains every channel (R344), and its first after a device reset writes the metadata region
(R517); a radio's characterises the VCO and,
from HELD with a channel tuned, repeats the band calibration (R128). -/
def State.calibrated (s : State) (t : Nat) : State :=
  if t = 8 then
    (if s.store.metaInit then s
     else (s.modStore fun x => { x with
      free := [], gen := [], written := [], chkBad := [], metaBad := [], secBad := [], retired := [], metaInit := true }).clearMem
        0 storeEnd).trainChannels
  else if t = 2 ∨ t = 3 ∨ t = 4 then
    let r := t - 2
    let s1 := s.modRadio r fun x => { x with vco := true }
    if (s.tile t).busy && (s.tile t).target = 3 && s.rf (RADIO.RF_TUNED r) 28 0 != 0 then s1.trainAll r else s1
  else s

/-- CALIBRATE is past: on to READY, or back to HELD where that was asked for (R16, R17). -/
def State.calibEnd (s : State) (t : Nat) : State :=
  if (s.tile t).busy && (s.tile t).target = 3 then (s.enter t .held).endReq t 0
  else
    let s2 := s.enter t .ready
    let s3 := if t = 2 ∨ t = 3 ∨ t = 4 then s2.chainsAtReady (t - 2) else s2
    s3.endReq t 0

/-- The unit that SELFTEST finds failed with no spare left though its outcome names none (R18): the second lane of a radio, counting those
that audits marked FAILED (R179), or the second engine of a cluster (R372). -/
def State.noneLeft (s : State) (t : Nat) (l : List Nat) : Option Nat :=
  let failed := if t = 2 ∨ t = 3 ∨ t = 4 then s.rf (RADIO.RX_LANES (t - 2)) 28 16 else 0
  let units := if t = 2 ∨ t = 3 ∨ t = 4 then 13 else if t = 11 ∨ t = 12 ∨ t = 13 ∨ t = 14 then 9 else 0
  ((List.range units).filter fun n => l.contains n || failed.testBit n)[1]?.map fun n => (if units = 13 then 16 else 0x40) + n

/-- SELFTEST_DONE (R16 to R18). -/
def execSelftestDone (t : Fin 18) (found : TestOutcome) (s : State) : Host.Outcome State Fault Refusal :=
  .next <|
    let t := t.val
    let x := s.tile t
    if x.life != .selftest || (x.busy && x.target < 2) then s
    else match found with
      | .noSpare u => s.faultHook (s.recordErr t 4 u.toNat 0 0 true) t
      | .pass n l =>
        match s.noneLeft t (l.map (·.toNat)) with
        | some u => s.faultHook (s.recordErr t 4 u 0 0 true) t
        | none =>
          let s1 := s.tested t n.toNat (l.map (·.toNat))
          if x.busy && x.target = 2 then (s1.enter t .held).endReq t 0
          else if hasCalib t then s1.enter t .calibrate
          else (s1.enter t .calibrate).calibEnd t

/-- CALIBRATE_DONE (R16, R17): `failed` is the unit that did not converge. -/
def execCalibrateDone (t : Fin 18) (failed : Option (BitVec 8)) (s : State) : Host.Outcome State Fault Refusal :=
  .next <|
    let t := t.val
    let x := s.tile t
    if x.life != .calibrate || (x.busy && x.target < 2) then s
    else match failed with
      | some u => s.faultHook (s.recordErr t 5 u.toNat 0 0 true) t
      | none => (s.calibrated t).calibEnd t

/-- RESUME_READY_DONE (R514): HELD or DRAINING to READY. -/
def execResumeReadyDone (t : Fin 18) (s : State) : Host.Outcome State Fault Refusal :=
  .next <|
    let t := t.val
    let x := s.tile t
    if !x.busy || x.target != 4 || (x.life != .held && x.life != .draining) then s
    else (s.enter t .ready).endReq t 0

/-! Draining (R19, R29). -/

/-- A tile has completed its work in flight, as its chapter says. -/
def State.drained (s : State) (t : Nat) : Bool :=
  if t = 2 ∨ t = 3 ∨ t = 4 then
    let x := s.radio (t - 2)
    !s.ppduInProgress (t - 2) && x.tx.isNone && x.mac.await.isNone && x.mac.tb.isNone && x.resp.phase = .none && x.done.isNone
  else if t = 5 then
    (List.range 3).all fun r => (s.radio r).cmds.all fun c =>
      match c.from_ with | .mlink _ => false | .sounding _ => false | .trigger _ => false | _ => true
  else if t = 6 then !s.rbit SENSE.SENSE_STATUS 31
  else if t = 7 then s.newtDrained
  else if t = 8 then (List.range 8).all fun c =>
    let x := s.chan c
    x.queue.isEmpty && x.waiting.isEmpty && x.issued.isEmpty
  else if t = 9 then s.clsQueued = 0
  else if t = 10 then s.sched.items.all fun p => p.2.isNone
  else if t = 11 ∨ t = 12 ∨ t = 13 ∨ t = 14 then s.clusterQuiet (t - 11)
  else if t = 15 then s.cipher.jobs.isEmpty && s.cipher.items.isEmpty
  else if t = 16 then s.hostU.d2h.all fun p => p.2.isEmpty
  else if t = 17 then s.wireQuiet
  else true

/-- DRAIN_COMPLETE (R19). -/
def execDrainComplete (t : Fin 18) (s : State) : Host.Outcome State Fault Refusal :=
  .next <|
    let t := t.val
    let x := s.tile t
    if x.life != .draining || !x.busy || x.target != 6 || !s.drained t then s else (s.enter t .held).endReq t 0

/-- The drain bound of a tile in clock cycles. -/
def State.drainBound (s : State) (t : Nat) : Nat :=
  500 * (if t = 1 || t = 8 then 10 else if t = 2 || t = 3 || t = 4 || t = 7 then 6000 else if t = 5 || t = 10 then 10000
    else if t = 6 then 20 else if t = 9 then 50
    else if t = 11 || t = 12 || t = 13 || t = 14 then max 1 (s.rf (ENG.ENG_CTL (t - 11)) 31 16)
    else if t = 15 then 100 else 1000)

/-- What is still in flight at the drain bound is discarded and counted, as the tile's chapter says. -/
def State.drainExpired (s : State) (t : Nat) : State :=
  if t = 2 ∨ t = 3 ∨ t = 4 then
    let r := t - 2
    let s1 := s.txAbort r
    let s2 := match (s1.mac r).await with
      | some a => s1.exchangeFail r a.tx true
      | none => s1
    (s2.modRadio r fun x => { x with resp := {}, done := none, mac := { x.mac with tb := none } }).rxAbort r 11
  else if t = 6 then s.scanStop
  else if t = 7 then
    let s1 := match s.newt.tx with
      | some q => s.newtPost q.tag 5 q.attempts false
      | none => s
    s1.modNewt fun x => { x with ack := none }
  else if t = 8 then s.modStore fun x => { x with chans := x.chans.map fun p => (p.1, { p.2 with queue := [], waiting := [], issued := [] }) }
  else if t = 9 then s.clsFlush
  else if t = 10 then s.schedFlush
  else if t = 11 ∨ t = 12 ∨ t = 13 ∨ t = 14 then s.clusterAbandon (t - 11)
  else if t = 15 then s.cipherFlush
  else if t = 16 then
    (s.hostU.d2h.flatMap (·.2)).foldl (fun s d => s.goneDrop d) (s.modHost fun x => { x with d2h := [] })
  else if t = 17 then (List.range 4).foldl (fun s n => s.laneFlush n) s
  else s

/-- DRAIN_TIMEOUT (R19). -/
def execDrainTimeout (t : Fin 18) (s : State) : Host.Outcome State Fault Refusal :=
  .next <|
    let t := t.val
    let x := s.tile t
    if x.life != .draining || !x.busy || x.target != 6 || s.clock < x.since + s.drainBound t then s
    else ((s.drainExpired t).enter t .held).endReq t 4

/-! The error record and the event words (R31 to R34). -/

/-- A write of TILE_ERR: each 1 clears its bit. -/
def State.errWrite (s : State) (t : Nat) (first multi early drop : Bool) : State :=
  if s.life t = .off then s
  else s.modTile t fun x => { x with
    firstValid := x.firstValid && !first, multi := x.multi && !multi, early := x.early && !early, reqDrop := x.reqDrop && !drop }

/-- TILE_ERR_WRITE (R31). -/
def execTileErrWrite (t : Fin 18) (firstValid multi early reqDrop : Bool) (s : State) : Host.Outcome State Fault Refusal :=
  .next <| s.errWrite t.val firstValid multi early reqDrop

/-- Counters of a tile's window that CNT_CLR clears whole, by its chapter. -/
def cntRegs (t : Nat) : List RegId :=
  if t = 0 then [MGMT.LOG_CNT]
  else if t = 1 then [TIME.TC_CNT]
  else if t = 2 ∨ t = 3 ∨ t = 4 then
    let r := t - 2
    [RADIO.RF_ERR_CNT r, RADIO.SEQ_ERR_CNT r, RADIO.TX_CNT r, RADIO.RESP_CNT r, RADIO.TX_ERR_CNT r, RADIO.RX_ED_CNT r,
      RADIO.RX_PPDU_CNT r, RADIO.RX_QUAL_CNT r, RADIO.RX_SIG_CNT r, RADIO.RX_RESTART_CNT r, RADIO.RESTART_MISS_CNT r,
      RADIO.RX_ABORT_CNT r, RADIO.RX_DEC_CNT r, RADIO.RXS_DROP r, RADIO.FILT_CNT r, RADIO.ACC_CNT r, RADIO.SEC_CNT r,
      RADIO.TP_CNT r] ++ (List.range 16).map (RADIO.TP_PEER_CNT r)
  else if t = 5 then [MLINK.MLINK_CNT, MLINK.STQ_DROP, MLINK.SCHED_CNT, MLINK.SOUND_CNT, MLINK.TRIG_CNT]
  else if t = 7 then [NEWT.NEWT_CNT0, NEWT.NEWT_CNT1, NEWT.NEWT_CNT2]
  else if t = 8 then
    [STORE.STORE_CNT0, STORE.STORE_CNT1, STORE.DRAM_CNT0, STORE.DRAM_CNT1, STORE.DRAM_CNT2] ++ (List.range 18).map STORE.PORT_STAT
  else if t = 9 then
    [CLASS.CLS_FRAMES, CLASS.CLS_CNT1, CLASS.CLS_CNT2, CLASS.CLS_CNT3, CLASS.FAB_CNT0, CLASS.FAB_CNT1, CLASS.FAB_CNT2]
      ++ (List.range 8).map CLASS.STAGE_HIT ++ (List.range 8).map CLASS.STAGE_MISS
  else if t = 10 then [SCHED.SCHED_CNT0, SCHED.SCHED_CNT1, SCHED.SCHED_CNT2, SCHED.SCHED_CNT3] ++ (List.range 8).map SCHED.HIST
  else if t = 11 ∨ t = 12 ∨ t = 13 ∨ t = 14 then [ENG.ENG_CNT (t - 11)]
  else if t = 15 then [CIPHER.CIPHER_CNT0, CIPHER.CIPHER_CNT1]
  else if t = 16 then [HOST.HOST_CNT0, HOST.HOST_CNT1]
  else if t = 17 then (List.range 4).flatMap fun n =>
    [WIRE.LANE_RX_CNT n, WIRE.LANE_TX_CNT n, WIRE.LANE_ERR_CNT n, WIRE.LANE_DROP_CNT n]
  else []

/-- TILE_ERR.CNT_CLR is written 1 (R31): the header's counters and the tile's own. -/
def State.cntClr (s : State) (t : Nat) : State :=
  if s.life t = .off then s
  else
    let s1 := s.modTile t fun x => { x with earlyWr := 0, uncorr := 0, corr := 0 }
    let s2 := (cntRegs t).foldl (fun (s : State) a => s.wr a 0) s1
    if t = 0 then
      ((List.range 7).foldl (fun (s : State) k => s.wf (MGMT.WDT_STATUS k) 31 16 0) (s2.wf MGMT.AX_STATUS 31 16 0))
    else if t = 1 then s2.wf TIME.SERVO_STATUS 15 0 0
    else if t = 10 then (List.range 1024).foldl (fun (s : State) l =>
      let r := SCHED.LIST_STAT l
      s.wf r 31 16 (s.rf r 15 0)) s2
    else s2

/-- CNT_CLR (R31). -/
def execCntClr (t : Fin 18) (s : State) : Host.Outcome State Fault Refusal := .next <| s.cntClr t.val

/-- A W1C write of TILE_EVT_PEND. -/
def State.evtClear (s : State) (t : Nat) (bits : Word) : State :=
  if s.life t = .off then s else s.setEvtWords t ((s.tile t).evtPend &&& ~~~ bits) (s.tile t).evtMask

/-- EVT_PEND_CLEAR (R33, R34). -/
def execEvtPendClear (t : Fin 18) (bits : Word) (s : State) : Host.Outcome State Fault Refusal := .next <| s.evtClear t.val bits

/-- Event bits that a tile defines: the five common ones and those of its chapter (R33). -/
def evtDefined (t : Nat) : Word :=
  let own : Word := match t with
    | 0 => 0x007F0000
    | 1 => 0x001F0000
    | 2 => 0xFFFF0000
    | 3 => 0xFFFF0000
    | 4 => 0xFFFF0000
    | 5 => 0x07FF0000
    | 6 => 0x00070000
    | 7 => 0x001F0000
    | 8 => 0x07FF0000
    | 9 => 0xFF0F0000
    | 10 => 0x001F0000
    | 11 => 0x00070000
    | 12 => 0x00070000
    | 13 => 0x00070000
    | 14 => 0x00070000
    | 15 => 0x00070000
    | 16 => 0x003F0000
    | 17 => 0x3FFF0000
    | _ => 0
  own ||| 0x1F

/-- A write of TILE_EVT_MASK; reserved bits read as zero (R7, R33). -/
def State.maskWrite (s : State) (t : Nat) (mask : Word) : State :=
  if s.life t = .off then s else s.setEvtWords t (s.tile t).evtPend (mask &&& evtDefined t)

/-- EVT_MASK_WRITE (R34). -/
def execEvtMaskWrite (t : Fin 18) (mask : Word) (s : State) : Host.Outcome State Fault Refusal := .next <| s.maskWrite t.val mask

/-- Pending entries of a controller with a message ORed into its source's (R107). -/
def orEntry (l : List (Nat × Word)) (src : Nat) (bits : Word) : List (Nat × Word) :=
  if l.any fun e => e.1 = src then l.map fun e => if e.1 = src then (src, e.2 ||| bits) else e else l ++ [(src, bits)]

/-- The thread of a controller that has waited longest in WAITEV, if any (R107). -/
def State.waiter (s : State) (t : Nat) : Option Nat :=
  ([0, 1, 2, 3].foldl (fun (best : Option (Nat × Nat)) n =>
    match (s.thread (threadKey t 0 n)).run with
    | .waitev since _ => match best with
      | some (_, b) => if since < b then some (n, since) else best
      | none => some (n, since)
    | _ => best) none).map (·.1)

/-- Give the oldest pending entry of a controller to the thread that waits longest (R106, R107). -/
def State.evtDeliver (s : State) (t : Nat) : State :=
  match tget (fun _ => []) s.evtIn t, s.waiter t with
  | e :: rest, some n =>
    let k := threadKey t 0 n
    let s1 := s.setThread k { (s.thread k) with a := wd (0x80000000 + e.1), e := e.2, run := .running }
    { s1 with evtIn := tput (fun _ => []) s1.evtIn t rest }
  | _, _ => s

/-- EVENT_MESSAGE_ARRIVE (R34, R107): the `n`th message on its way reaches its controller. -/
def execEventMessageArrive (n : Nat) (s : State) : Host.Outcome State Fault Refusal :=
  .next <|
    match s.msgs[n]? with
    | none => s
    | some m =>
      let s1 := { s with msgs := s.msgs.eraseIdx n }
      if !hasController m.dst then s1
      else
        ({ s1 with evtIn := tput (fun _ => []) s1.evtIn m.dst (orEntry (tget (fun _ => []) s1.evtIn m.dst) m.src m.bits) } :
          State).evtDeliver m.dst

/-! Errors of a tile's hardware (R14, R18, R32, R515). -/

/-- Causeway attachments of a tile (R11). -/
def attachments (t : Nat) : Nat := if t = 8 then 4 else 1

/-- CRC-8 of a flit's 256 data bits, least significant byte first (R14, R399). -/
def flitCrc (data : BitVec 256) : Nat := crcRun 0xE0 0xFF (le 32 data.toNat)

/-- The one track on which two flits of 264 bits differ; none where they are equal or differ on more. -/
def trackDiff (a b : Nat) : Option Nat :=
  match (List.range 264).filter fun k => (a ^^^ b).testBit k with
  | [k] => some k
  | _ => none

/-- FLIT_RECEIVE (R14, R473): the check of the 256 data bits and 8 check bits as they arrive. A failed check has the flit sent
again and counted; the sixteenth retransmission in succession that fails is fatal. A retransmission that passes and differs from
the last failed flit on one track is evidence against that track. -/
def execFlitReceive (t : Fin 18) (link : Fin 4) (data : BitVec 256) (check : Byte) (s : State) :
    Host.Outcome State Fault Refusal :=
  .next <|
    let t := t.val
    let l := link.val
    let n := tget (fun _ => 0) (s.tile t).flitFails l
    let got := data.toNat + 2 ^ 256 * check.toNat
    let setFails := fun (s : State) (n : Nat) => s.modTile t fun x => { x with
      flitFails := tput (fun _ => 0) x.flitFails l n
      flitLast := tput (fun _ => 0) x.flitLast l (if n = 0 then 0 else got) }
    if s.life t = .off || attachments t ≤ l then s
    else if flitCrc data = check.toNat then
      let s1 := setFails s 0
      match (if n = 0 then none else trackDiff (tget (fun _ => 0) (s.tile t).flitLast l) got) with
      | some k => s1.axEvidence 30 t (trackUnit l k) 1800000000000 (s.rf MGMT.AX_CTL 23 16)
      | none => s1
    else if n < 16 then setFails (s.corrInc t) (n + 1)
    else s.faultHook ((setFails s 0).recordErr t 2 noUnit 0 0 true) t

/-- Clock islands of a tile (R12). -/
def islands (t : Nat) : Nat :=
  if t = 0 then 2 else if t = 2 ∨ t = 3 ∨ t = 4 then 3 else if t = 8 then 2 else if t = 17 then 5 else 1

/-- ISLAND_LOCK_LOSS (R515): cause 0x06. The recovered lane clocks follow their receivers, and a stopped island has no lock to
lose. -/
def execIslandLockLoss (t : Fin 18) (island : Fin 5) (s : State) : Host.Outcome State Fault Refusal :=
  .next <|
    let t := t.val
    let i := island.val
    let l := s.life t
    if l = .off || islands t ≤ i || (t = 17 && 1 ≤ i) || (t = 8 && i = 1 && (l = .reset || l = .held))
        || (s.tile t).unlocked.contains i then s
    else s.faultHook ((s.modTile t fun x => { x with unlocked := x.unlocked ++ [i] }).recordErr t 6 noUnit 0 0 true) t

/-- ISLAND_RELOCK (R515). -/
def execIslandRelock (t : Fin 18) (island : Fin 5) (s : State) : Host.Outcome State Fault Refusal :=
  .next <| if s.life t.val = .off then s else s.modTile t.val fun x => { x with unlocked := x.unlocked.filter (· != island.val) }

/-- SRAM_UNCORRECTABLE (R32): counted, and cause 0x01. -/
def execSramUncorrectable (t : Fin 18) (unit : BitVec 8) (addr : BitVec 40) (s : State) : Host.Outcome State Fault Refusal :=
  .next <|
    let t := t.val
    if s.life t = .off then s else s.faultHook ((s.uncorrInc t).recordErr t 1 unit.toNat 0 addr.toNat true) t

/-- WDT_EXPIRE (R467). -/
def execWdtExpire (k : Fin 7) (s : State) : Host.Outcome State Fault Refusal :=
  .next <| s.faultHook (s.wdExpire k.val) (wdTiles.getD k.val 0)

/-- TUNE_LOCK_TIMEOUT (R115, R117): the second is fatal. -/
def execTuneLockTimeout (r : Fin 3) (s : State) : Host.Outcome State Fault Refusal :=
  .next <| s.faultHook (s.tuneTimeout r.val) (rTile r.val)

/-- NEWT_RETUNE_DONE (R244): the second failure is fatal. -/
def execNewtRetuneDone (locked : Bool) (s : State) : Host.Outcome State Fault Refusal :=
  .next <| s.faultHook (s.newtRetuned locked) 7

/-- RETRAIN_PAUSE_END (R340): the eighth failure in succession is fatal. -/
def execRetrainPauseEnd (ch : Fin 8) (converged : Bool) (s : State) : Host.Outcome State Fault Refusal :=
  .next <| s.faultHook (s.retrainEnd ch.val converged) 8

/-! PERST_N (R435, R483). -/

/-- PERST_N_ASSERT (R435): HOST enters RESET with no result. -/
def execPerstNAssert (s : State) : Host.Outcome State Fault Refusal :=
  .next <|
    if !s.hostU.perst then s
    else
      let s1 := s.modHost fun x => { x with perst := false }
      if s1.life 16 = .off then s1 else s1.tileReset 16

/-- PERST_N_RELEASE (R435, R483): HOST starts on the path to READY. -/
def execPerstNRelease (s : State) : Host.Outcome State Fault Refusal :=
  .next <|
    if s.hostU.perst then s
    else
      let s1 := s.modHost fun x => { x with perst := true }
      if s1.inReset then s1
      else if s1.life 16 = .off then
        if (s1.tile 16).busy then s1 else (s1.enter 16 .reset).readyPath 16
      else if s1.life 16 = .reset && !((s1.tile 16).busy && (s1.tile 16).target = 0) then s1.readyPath 16 else s1

end Sys2Proof.Machine
end

