-- ==== Sys2Proof/Machine/BusRead.lean ====
section
/-! DEFINITION. The device address map (R23 to R25) and what reads of it return: the common header, the registers as they read,
local memories, the boot ROM and the private space of MGMT. -/

namespace Sys2Proof.Machine

open Reg

/-- The parts of the device address map (R23), with the offset into each. -/
inductive Region where
  | store (off : Nat)
  | control (tile off : Nat)
  | loc (tile off : Nat)
  | rom (off : Nat)
  | priv (off : Nat)
  | unmapped
deriving DecidableEq, Repr

/-- The region of a device address. -/
def regionOf (a : Nat) : Region :=
  if a < storeEnd then .store a
  else if 0x1000000000 ≤ a ∧ a < 0x1012000000 then .control ((a - 0x1000000000) / 0x1000000) ((a - 0x1000000000) % 0x1000000)
  else if 0x2000000000 ≤ a ∧ a < 0x2120000000 then .loc ((a - 0x2000000000) / 0x10000000) ((a - 0x2000000000) % 0x10000000)
  else if 0x3000000000 ≤ a ∧ a < 0x3000020000 then .rom (a - 0x3000000000)
  else if privBase ≤ a ∧ a < privBase + 0x1000000 then .priv (a - privBase)
  else .unmapped

/-- How an access ends: served; with a decode error (R25); or with uncorrectable data (R323). -/
inductive BusRes where
  | ok
  | decode
  | dataErr
deriving DecidableEq, Repr

/-- A tile's local memory holds the whole range (R24). -/
def localHolds (t off n : Nat) : Bool := (localMem t).any fun m => m.1 ≤ off && off + n ≤ m.1 + m.2

/-! The common header as it reads (R31, R515). -/

/-- KIND of TILE_ID. -/
def tileKind (t : Nat) : Nat := [0, 1, 2, 2, 2, 3, 4, 5, 6, 7, 8, 9, 9, 9, 9, 0xA, 0xB, 0xC].getD t 0

/-- ISLAND_ID and nominal frequency of each island of a tile (R12). -/
def islandTable (t : Nat) : List (Nat × Nat) :=
  match t with
  | 0 => [(0, 400), (1, 40)]
  | 1 => [(2, 500)]
  | 2 => [(3, 320), (4, 1280), (5, 800)]
  | 3 => [(6, 320), (7, 1280), (8, 800)]
  | 4 => [(9, 320), (10, 1280), (11, 800)]
  | 5 => [(12, 800)]
  | 6 => [(13, 640)]
  | 7 => [(14, 64)]
  | 8 => [(15, 1067), (16, 4267)]
  | 9 => [(17, 1500)]
  | 10 => [(18, 1500)]
  | 11 => [(19, 0)]
  | 12 => [(20, 0)]
  | 13 => [(21, 0)]
  | 14 => [(22, 0)]
  | 15 => [(23, 1200)]
  | 16 => [(24, 500)]
  | 17 => [(25, 781), (26, 0), (27, 0), (28, 0), (29, 0)]
  | _ => []

/-- TILE_ISLAND[n] (R515). -/
def State.islandWord (s : State) (t n : Nat) : Word :=
  match (islandTable t)[n]? with
  | none => 0
  | some (id, mhz) =>
    let lane := t = 17 && 1 ≤ n
    let eng := 11 ≤ t && t ≤ 14
    let phyStop := t = 8 && n = 1 && (s.life 8 = .reset || s.life 8 = .held)
    let laneLock := (tget (fun _ => {}) s.wire.lanes (n - 1)).lock
    let changing := eng && s.rbit (ENG.ENG_CLK (t - 11)) 31
    let running := if lane then laneLock else !phyStop && !changing
    let locked := if lane then laneLock else !phyStop && !(s.tile t).unlocked.contains n
    let f := if eng then s.rf (ENG.ENG_CLK (t - 11)) 27 16 else mhz
    wd (2 ^ 31 + b2n running * 2 ^ 30 + b2n locked * 2 ^ 29 + id * 2 ^ 24 + (if running then f else 0))

/-- TILE_ERR. -/
def Tile.errWord (x : Tile) : Word :=
  wd (b2n x.firstValid * 2 ^ 31 + b2n x.multi * 2 ^ 30 + b2n x.early * 2 ^ 29 + b2n x.reqDrop * 2 ^ 28
    + x.earlyWr % 4096 * 2 ^ 16 + x.cause % 256)

/-- A word of the header (R31); a tile in OFF reads zero (R29). -/
def State.headerWord (s : State) (t off : Nat) : Word :=
  let x := s.tile t
  if x.life = .off then 0
  else if off = 0x00 then wd (0x9472 * 2 ^ 16 + t * 256 + tileKind t)
  else if off = 0x04 then 0x41010001
  else if off = 0x08 then s.tileStatus t
  else if off = 0x0C then wd (b2n x.lock * 2 ^ 31 + x.ctlTag.toNat * 256 + x.ctlReq % 16)
  else if off = 0x14 then x.errWord
  else if off = 0x18 then wd x.errAddr
  else if off = 0x1C then wd (x.errDetail % 65536 * 65536 + x.errUnit % 256 * 256 + x.errAddr / 2 ^ 32 % 256)
  else if off = 0x20 then wd (x.uncorr % 65536 * 65536 + x.corr % 65536)
  else if off = 0x24 then x.evtPend
  else if off = 0x28 then x.evtMask
  else if off = 0x2C then x.evtRoute
  else if 0x30 ≤ off ∧ off ≤ 0x40 then s.islandWord t ((off - 0x30) / 4)
  else if off = 0x44 then
    wd (Config.sparesTotal t % 256 * 2 ^ 24 + x.sparesUsed % 256 * 2 ^ 16 + x.substCnt % 256 * 256 + x.substPend % 256)
  else 0

/-! Registers that show more than they store. -/

/-- Kinds of the tokens of a list for a scope, one bit each. -/
def kindBits (l : List Token) (scope : Nat) : Nat :=
  (List.range 9).foldl (fun a k => if l.any fun q => q.kind = k && q.scope = scope then a + 2 ^ k else a) 0

/-- A NAV in whole microseconds left. -/
def State.navUs (s : State) (till : Nat) : Nat := min 65535 ((till - s.clock + 499) / 500)

/-- Levels at the GPIO balls (R487): what OE drives; else 0 under the pull-down; else a free value, as are GPIO[1:0] while
they carry MDIO. A read changes nothing (R27). -/
def State.gpioIn (s : State) : Word :=
  let oe := s.rd MGMT.GPIO_OE
  let pd := s.rd MGMT.GPIO_PD
  let free := wd (Config.floatPins s.freeTick)
  let plain := (oe &&& s.rd MGMT.GPIO_OUT) ||| (~~~ oe &&& ~~~ pd &&& free)
  if s.rbit WIRE.MDIO_CTL 31 then (plain &&& ~~~ (3 : Word)) ||| (free &&& 3) else plain

/-- A register as it reads, from the value it holds. -/
def State.shown (s : State) (a : RegId) (v : Word) : Word :=
  let t := RegId.tile a
  let u := t - 2
  if t = 0 then
    if a = MGMT.DEV_ID_LO then wd (s.rm privBase 4)
    else if a = MGMT.DEV_ID_HI then wd (s.rm (privBase + 4) 4)
    else if a = MGMT.GPIO_IN then s.gpioIn
    else if 0x1200 ≤ a ∧ a < 0x1270 ∧ a % 16 = 8 then putFld v 15 0 (s.wdRemain ((a - 0x1200) / 16))
    else if 0x1400 ≤ a ∧ a < 0x1468 then
      wd (kindBits s.tokens ((a - 0x1400) / 4) + 2 ^ 16 * kindBits s.tokenReqs ((a - 0x1400) / 4))
    else v
  else if t = 2 ∨ t = 3 ∨ t = 4 then
    let n := (a - RADIO.BSS_A u 0) / 8
    if RADIO.CHAIN_STATUS u 0 ≤ a ∧ a < RADIO.CHAIN_STATUS u 8 then putFld v 23 16 (ofInt 8 (s.chainTemp u))
    else if a = RADIO.NAV_STATUS u then wd (s.navUs (s.mac u).navBasic * 65536 + s.navUs (s.mac u).navIntra)
    else if RADIO.BSS_A u 0 ≤ a ∧ a < RADIO.BSS_A u 16 then
      if a = RADIO.BSS_A u n then wd (s.slotAddr u n) else putFld v 15 0 (s.slotAddr u n / 2 ^ 32)
    else v
  else if t = 5 then
    if MLINK.STQ_STAT 0 ≤ a ∧ a < MLINK.STQ_STAT 8192 then
      match (s.stq ((a - MLINK.STQ_STAT 0) / 4)).find? fun m => !m.flight with
      | some m => putFld v 7 0 (min 255 ((s.clock - m.arrived) / 500000))
      | none => v
    else if MLINK.STEER_STAT 0 0 ≤ a ∧ a < MLINK.STEER_STAT 3 0 && bit v 31 then
      putFld v 15 0 (min 65535 (s.steerAge ((a - MLINK.STEER_STAT 0 0) / 1024) ((a - MLINK.STEER_STAT 0 0) % 1024 / 4) / 500000))
    else v
  else if a = NEWT.COEX_STATUS then if s.clock < s.newt.ackEnd then v ||| 0x80000000 else v
  else if a = CLASS.FAB_EPOCH then wd (s.ns / 1024000)
  else if CLASS.NH_W3 0 ≤ a ∧ a < CLASS.NH_W3 64 ∧ a % 16 = 12 then
    let n := (a - CLASS.NH_W3 0) / 16
    putFld (putBit v 31 (s.nhUp n)) 9 0 (s.nhQueue n).length
  else if SCHED.ENG_LOAD 0 ≤ a ∧ a < SCHED.ENG_LOAD 32 then s.engLoadWord ((a - SCHED.ENG_LOAD 0) / 4)
  else v

/-- A register as it reads: reserved offsets and WO registers read 0 (R7, R26). -/
def State.regWord (s : State) (a : RegId) : Word :=
  match regAt a with
  | none => 0
  | some (row, _) => if row.acc = .wo then 0 else s.shown a (s.rd a)

/-- A read of a word of a control window (R29), and the state after it. -/
def State.controlRead (s : State) (by_ : Req) (t off : Nat) : State × Word :=
  if s.life t = .off then (s, 0)
  else if off < 0x100 then (s, s.headerWord t off)
  else if !s.accepts by_ t then (s.earlyRead t, 0)
  else
    (s, s.regWord (t * 0x1000000 + off))

/-! Reads of the bus. -/

/-- `n` zero bytes. -/
def zeros (n : Nat) : List Byte := List.replicate n 0

/-- A read that meets no memory (R25): the issuing tile records cause 0x08. -/
def State.noRead (s : State) (by_ : Req) (a n : Nat) : State × BusRes × List Byte := (s.decodeErr by_ a, .decode, zeros n)

/-- Offsets of the private space that hold registers, OTP, event log and flash (R473). -/
def privMapped (off : Nat) : Bool :=
  off < 0x1004 || (0x10000 ≤ off && off < 0x20050) || (0x30000 ≤ off && off < 0x30018) || (0x800000 ≤ off && off < 0x1000000)

/-- A byte of the private space. -/
def State.privByte (s : State) (off : Nat) : Byte :=
  if 0x800000 ≤ off then s.flashByte (off - 0x800000)
  else if off < 0x1000 ∨ (0x10000 ≤ off ∧ off < 0x20000) then s.rb (privBase + off)
  else
    let w := s.regWord (256 * 0x1000000 + off / 4 * 4)
    BitVec.ofNat 8 (w.toNat / 2 ^ (8 * (off % 4)))

/-- Words of control windows read in ascending order (R516). -/
def State.controlReads (s : State) (by_ : Req) (a : Nat) : Nat → State × List Byte
  | 0 => (s, [])
  | n + 1 =>
    let r := s.controlRead by_ ((a - 0x1000000000) / 0x1000000) ((a - 0x1000000000) % 0x1000000)
    let rest := r.1.controlReads by_ (a + 4) n
    (rest.1, le 4 r.2.toNat ++ rest.2)

/-- A read of `n` bytes at a device address (R23 to R25, R29, R309, R323, R516): the state after it, how it ends, and the data,
zero unless it is served. -/
def State.busRead (s : State) (by_ : Req) (a n : Nat) : State × BusRes × List Byte :=
  match regionOf a with
  | .store _ =>
    if !s.storeUp then (s.earlyRead 8).noRead by_ a n
    else if storeEnd < a + n then s.noRead by_ storeEnd n
    else
      let r := s.storeRead (reqPort by_) a n
      if r.2 then (r.1, .ok, s.rbytes a n) else (r.1, .dataErr, zeros n)
  | .control _ _ =>
    if 0x1012000000 < a + n then s.noRead by_ 0x1012000000 n
    else
      let r := s.controlReads by_ (a / 4 * 4) ((a % 4 + n + 3) / 4)
      (r.1, .ok, (r.2.drop (a % 4)).take n)
  | .loc t off =>
    if !localHolds t off n || by_ = .host then s.noRead by_ a n
    else if s.life t = .off then (s, .ok, zeros n)
    else if !s.accepts by_ t then (s.earlyRead t, .ok, zeros n)
    else (s, .ok, s.rbytes a n)
  | .rom off => if reqMgmt by_ && off + n ≤ 0x20000 then (s, .ok, s.rbytes a n) else s.noRead by_ a n
  | .priv off =>
    if reqMgmt by_ && privMapped off && privMapped (off + n - 1) then
      (s, .ok, (List.range n).map fun i => s.privByte (off + i))
    else s.noRead by_ a n
  | .unmapped => s.noRead by_ a n

end Sys2Proof.Machine
end

