-- ==== Sys2Proof/Machine/BusWrite.lean ====
section
/-! DEFINITION. Writes at device addresses: the common header, the registers of every tile as the commands they are or as plain
stores under their access codes (R26, R516), local memories, and the host's accesses through its BARs (R436 to R439). -/

namespace Sys2Proof.Machine

open Reg

/-- The state after a command; a command that does not end in a next state changes nothing. -/
def State.cmd (s : State) (f : State → Host.Outcome State Fault Refusal) : State :=
  match f s with
  | .next t => t
  | _ => s

/-- A tag in bits 7:0. -/
def tag0 (v : Word) : Tag := BitVec.ofNat 8 (fld v 7 0)
/-- A tag in bits 15:8. -/
def tag8 (v : Word) : Tag := BitVec.ofNat 8 (fld v 15 8)

/-- Store a register under its row: RW and RWL fields, and the arguments that WO registers hold for their command (R26, R30). -/
def State.regStore (s : State) (a : RegId) (val : Word) : State :=
  match regAt a with
  | some (row, _) =>
    if row.acc = .ro then s else s.wr a (maskedWrite row (s.tile (RegId.tile a)).lock (s.rd a) val)
  | none => s

/-- A write of a register without a behaviour of its own. -/
def State.plainWrite (s : State) (by_ : Req) (a : RegId) (val : Word) : State :=
  s.onWrite by_ (RegId.tile a) fun s => s.regStore a val

/-! Writes by tile. `b` is the place of the register's row in the first tile of its kind, `i` its index in the row. -/

/-- RF_CMD (R114). -/
def State.rfCmdWrite (s : State) (by_ : Req) (r : Fin 3) (v : Word) : State :=
  let t := tag8 v
  let c := BitVec.ofNat 8 (fld v 23 16)
  match fld v 7 0 with
  | 1 => s.cmd (execRfTune by_ r t)
  | 2 => s.cmd (execRfCalAll by_ r t)
  | 3 => s.cmd (execRfFemScan by_ r t)
  | 4 => s.cmd (execRfChainOff by_ r t c)
  | 5 => s.cmd (execRfChainOn by_ r t c)
  | n => s.cmd (execRfCmdIllegalOp by_ r t (BitVec.ofNat 8 n))

/-- RFFE_CMD (R118). -/
def State.rffeCmdWrite (s : State) (by_ : Req) (r : Fin 3) (v : Word) : State :=
  let u := BitVec.ofNat 4 (fld v 31 28)
  let a := BitVec.ofNat 8 (fld v 23 16)
  let d := BitVec.ofNat 8 (fld v 15 8)
  let t := tag0 v
  match fld v 27 24 with
  | 0 => s.cmd (execRffeRegWrite by_ r u a d t)
  | 1 => s.cmd (execRffeRegRead by_ r u a t)
  | 2 => s.cmd (execRffeExtRegWrite by_ r u a d t)
  | 3 => s.cmd (execRffeExtRegRead by_ r u a t)
  | 4 => s.cmd (execRffeReg0Write by_ r u d t)
  | n => s.cmd (execRffeIllegalKind by_ r (BitVec.ofNat 4 n) t)

/-- BSS_A[n] and BSS_B[n] (R194): the address is writable for slot 0 and for slot 15 with ROLE 1, and only slot 15 has a
ROLE. -/
def State.bssWrite (s : State) (r n : Nat) (hi : Bool) (v : Word) : State :=
  let b := RADIO.BSS_B r n
  let own := fun (w : Word) => n = 0 || (n = 15 && bit w 29)
  if hi then
    let w := s.rd b
    let ctl : Word := if n = 15 then 0xE3FF0000 else 0xC3FF0000
    let m := if own (if n = 15 then v else w) then ctl ||| 0xFFFF else ctl
    s.wr b ((w &&& ~~~ m) ||| (v &&& m))
  else if own (s.rd b) then s.wr (RADIO.BSS_A r n) v else s

/-- A write to a radio. -/
def State.radioWrite (s : State) (by_ : Req) (r : Fin 3) (b i : Nat) (a : RegId) (v : Word) : State :=
  let t := 2 + r.val
  if b = RADIO.RF_CMD 0 then s.rfCmdWrite by_ r v
  else if b = RADIO.RF_RESULT_ACK 0 then s.cmd (execRfResultAck by_ r (tag0 v))
  else if b = RADIO.RFFE_CMD 0 then s.rffeCmdWrite by_ r v
  else if b = RADIO.RFFE_ACK 0 then s.cmd (execRffeAck by_ r (tag0 v))
  else if b = RADIO.RF_BOARD 0 then s.onWrite by_ t fun s =>
    let old := s.rd a
    let s1 := s.regStore a v
    if s1.rd a = old then s1 else s1.boardChanged r.val old (s1.rd a)
  else if b = RADIO.RF_CAL_CTL 0 then s.cmd (execRfCalCtlWrite by_ r v)
  else if b = RADIO.SEQ_CTL 0 then s.cmd (execSeqCtlWrite by_ r v)
  else if b = RADIO.SEQ_SWAP 0 then s.cmd (execSeqSwapRequest by_ r (BitVec.ofNat 10 (fld v 25 16)) (tag8 v))
  else if b = RADIO.SEQ_ACK 0 then s.cmd (execSeqAck by_ r (tag0 v))
  else if b = RADIO.SEQ_POKE 0 then s.cmd (execSeqPoke by_ r (bit v 0))
  else if b = RADIO.CTRL_RUN 0 then s.cmd (execCtrlRunWrite by_ r v)
  else if b = RADIO.TXQ_PUSH 0 then s.cmd (execTxqPush by_ r (bit v 0))
  else if b = RADIO.TXC_ACK 0 then s.cmd (execTxcAck by_ r (tag0 v))
  else if b = RADIO.TXC_CTL 0 then s.cmd (execTxcCtlWrite by_ r v)
  else if b = RADIO.RXS_RD 0 then s.cmd (execRxsRdWrite by_ r v)
  else if b = RADIO.MAC_CTL 0 then s.cmd (execMacCtlWrite by_ r v)
  else if b = RADIO.MAC_SEED 0 then s.cmd (execMacSeedWrite by_ r v)
  else if b = RADIO.TP_PEER_RST 0 then s.cmd (execTpPeerRst by_ r v)
  else if b = RADIO.TP_PEER_CFG 0 0 then s.cmd (execTpPeerCfgWrite by_ r (Fin.ofNat 16 i) v)
  else if b = RADIO.BSS_A 0 0 then s.onWrite by_ t fun s => s.bssWrite r.val i false v
  else if b = RADIO.BSS_B 0 0 then s.onWrite by_ t fun s => s.bssWrite r.val i true v
  else s.plainWrite by_ a v

/-- A write to MLINK. -/
def State.mlinkWrite (s : State) (by_ : Req) (b i : Nat) (a : RegId) (v : Word) : State :=
  if b = MLINK.MLINK_RUN then s.cmd (execMlinkRunWrite by_ v)
  else if b = MLINK.LINK_CTL then s.cmd (execLinkCtlWrite by_ v)
  else if b = MLINK.AID_CMD then
    match fld v 1 0 with
    | 0 => s.cmd (execAidSet by_ (tag8 v))
    | 1 => s.cmd (execAidClr by_ (tag8 v))
    | 2 => s.cmd (execAidLookup by_ (tag8 v))
    | _ => s.cmd (execAidIllegalOp by_ (tag8 v))
  else if b = MLINK.AID_ACK then s.cmd (execAidAck by_ (tag0 v))
  else if b = MLINK.MRX_RD then s.cmd (execMrxRdWrite by_ v)
  else if b = MLINK.KEY_CMD then
    match fld v 1 0 with
    | 0 => s.cmd (execKeyInstall by_ (tag8 v))
    | 1 => s.cmd (execKeyDelete by_ (tag8 v))
    | 2 => s.cmd (execKeySetTx by_ (tag8 v))
    | _ => s.cmd (execKeyIllegalOp by_ (tag8 v))
  else if b = MLINK.KEY_ACK then s.cmd (execKeyAck by_ (tag0 v))
  else if b = MLINK.CTX_CMD then
    match fld v 2 0 with
    | 0 => s.cmd (execCtxAlloc by_ (tag8 v))
    | 1 => s.cmd (execCtxActivate by_ (tag8 v))
    | 2 => s.cmd (execCtxRefresh by_ (tag8 v))
    | 3 => s.cmd (execCtxFree by_ (tag8 v))
    | _ => s.cmd (execCtxIllegalOp by_ (tag8 v))
  else if b = MLINK.CTX_ACK then s.cmd (execCtxAck by_ (tag0 v))
  else if b = MLINK.STQ_ENQ 0 then s.cmd (execStqEnq by_ (Fin.ofNat 8192 i) v)
  else if b = MLINK.TWT_W0 0 ∨ b = MLINK.TWT_W1 0 ∨ b = MLINK.TWT_W2 0 ∨ b = MLINK.TWT_W3 0 then
    s.onWrite by_ 5 fun s => (s.regStore a v).twtWritten i ((b - MLINK.TWT_W0 0) / 4)
  else s.plainWrite by_ a v

/-- A write to SENSE. -/
def State.senseWrite (s : State) (by_ : Req) (b : Nat) (a : RegId) (v : Word) : State :=
  if b = SENSE.SENSE_CTL then s.cmd (execSenseCtlWrite by_ v)
  else if b = SENSE.RPT_RD then s.cmd (execSenseRptRdWrite by_ v)
  else if b = SENSE.SENSE_RUN then s.cmd (execSenseRunWrite by_ v)
  else s.plainWrite by_ a v

/-- A write to NEWT. -/
def State.newtWrite (s : State) (by_ : Req) (b : Nat) (a : RegId) (v : Word) : State :=
  if b = NEWT.NEWT_RUN then s.cmd (execNewtRunWrite by_ v)
  else if b = NEWT.NEWT_CTL then s.cmd (execNewtCtlWrite by_ v)
  else if b = NEWT.TX_CMD then s.cmd (execNewtTxCmd by_ (tag8 v))
  else if b = NEWT.TX_ACK then s.cmd (execNewtTxAck by_ (tag0 v))
  else if b = NEWT.CHILD_CMD then
    match fld v 2 0 with
    | 0 => s.cmd (execChildAddShort by_ (tag8 v))
    | 1 => s.cmd (execChildDelShort by_ (tag8 v))
    | 2 => s.cmd (execChildAddExt by_ (tag8 v))
    | 3 => s.cmd (execChildDelExt by_ (tag8 v))
    | _ => s.cmd (execChildIllegalOp by_ (tag8 v))
  else if b = NEWT.CHILD_ACK then s.cmd (execChildAck by_ (tag0 v))
  else if b = NEWT.PEND_SET then s.cmd (execPendSet by_ v)
  else if b = NEWT.PEND_CLR then s.cmd (execPendClr by_ v)
  else if b = NEWT.RXR_RD then s.cmd (execRxrRdWrite by_ v)
  else s.plainWrite by_ a v

/-- BASE, SIZE and KIND of a pool ignore writes while EN is 1 and while an INIT of the pool is in progress (R311). -/
def State.poolFixed (s : State) (p : Nat) : Bool := s.poolEn p || s.store.initPool = some p

/-- A write to STORE. Whether a repair finds a spare row is a free value here (DESIGN CHOICE, log entry 5). -/
def State.storeTileWrite (s : State) (by_ : Req) (b i : Nat) (a : RegId) (v : Word) : State :=
  if b = STORE.POOL_CMD then
    match fld v 17 16 with
    | 0 => s.cmd (execPoolInit by_ (Fin.ofNat 64 (fld v 5 0)) (tag8 v))
    | 1 => s.cmd (execPoolDisable by_ (Fin.ofNat 64 (fld v 5 0)) (tag8 v))
    | _ => s.cmd (execPoolIllegalOp by_ (Fin.ofNat 64 (fld v 5 0)) (tag8 v))
  else if b = STORE.POOL_ACK then s.cmd (execPoolAck by_ (tag0 v))
  else if b = STORE.FREE_DESC then s.cmd (execFreeDesc by_ v)
  else if b = STORE.FREE_BLK then s.cmd (execFreeBlk by_ v)
  else if b = STORE.POOL_W0 0 ∨ b = STORE.POOL_W1 0 then if s.poolFixed i then s.onWrite by_ 8 id else s.plainWrite by_ a v
  else if b = STORE.POOL_W2 0 then
    s.plainWrite by_ a (if s.poolFixed i then putBit v 30 (s.poolDesc i) else v)
  else if b = STORE.MB_REQ 0 then
    s.cmd (execMbRequest by_ (Fin.ofNat 192 i) (Fin.ofNat 64 (fld v 5 0)) (BitVec.ofNat 4 (fld v 11 8)))
  else if b = STORE.MB_ACK 0 then s.cmd (execMbAck by_ (Fin.ofNat 192 i) (BitVec.ofNat 4 (fld v 3 0)))
  else if b = STORE.REPAIR_CMD then
    match fld v 1 0 with
    | 0 => s.cmd (execRepairRetire by_ (tag8 v))
    | 1 => s.took.cmd (execRepairPpr by_ (tag8 v) (s.free 1 = 1))
    | 2 => s.cmd (execRepairQuery by_ (tag8 v))
    | _ => s.cmd (execRepairIllegalOp by_ (tag8 v))
  else if b = STORE.REPAIR_ACK then s.cmd (execRepairAck by_ (tag0 v))
  else if STORE.MAP_MASK0 ≤ b ∧ b ≤ STORE.MAP_MASK6 then s.cmd (execMapMaskWrite by_ (Fin.ofNat 7 ((b - STORE.MAP_MASK0) / 4)) v)
  else s.plainWrite by_ a v

/-- TCMD[k].CMD (R367). -/
def State.tcmdWrite (s : State) (by_ : Req) (k : Fin 16) (v : Word) : State :=
  let tab := BitVec.ofNat 4 (fld v 23 20)
  let len := BitVec.ofNat 8 (fld v 31 24)
  let tag := BitVec.ofNat 4 (fld v 11 8)
  match fld v 3 0 with
  | 0 => s.cmd (execEmInsert by_ k tab tag)
  | 1 => s.cmd (execEmDelete by_ k tab tag)
  | 2 => s.cmd (execEmSet by_ k tab tag)
  | 3 => s.cmd (execEmLookup by_ k tab tag)
  | 4 => s.cmd (execRouteAdd by_ k tab len tag)
  | 5 => s.cmd (execRouteDel by_ k tab len tag)
  | 6 => s.cmd (execCtCreate by_ k tag)
  | 7 => s.cmd (execCtDelete by_ k tag)
  | n => s.cmd (execTcmdIllegalOp by_ k (Fin.ofNat 8 (n - 8)) tag)

/-- A write to CLASS. -/
def State.classWrite (s : State) (by_ : Req) (b i : Nat) (a : RegId) (v : Word) : State :=
  if b = CLASS.CLS_INJ then s.cmd (execClsInj by_ v)
  else if b = CLASS.CT_BASE then s.cmd (execTableEnable by_ 16 v)
  else if b = CLASS.LPM4_BASE then s.cmd (execTableEnable by_ 17 v)
  else if b = CLASS.LPM6_BASE then s.cmd (execTableEnable by_ 18 v)
  else if b = CLASS.EM_TBL_W1 0 then s.cmd (execTableEnable by_ (Fin.ofNat 19 i) v)
  else if b = CLASS.EM_TBL_W0 0 ∨ b = CLASS.EM_TBL_W2 0 then
    if s.rbit (CLASS.EM_TBL_W1 i) 31 then s.onWrite by_ 9 id else s.plainWrite by_ a v
  else if b = CLASS.TCMD_CMD 0 then s.tcmdWrite by_ (Fin.ofNat 16 i) v
  else if b = CLASS.TCMD_ACK 0 then s.cmd (execTcmdAck by_ (Fin.ofNat 16 i) (BitVec.ofNat 4 (fld v 3 0)))
  else if b = CLASS.ACTION 0 0 then
    s.plainWrite by_ a (v &&& (if i % 4 = 0 then 0xFFFFFFFE else if i % 4 = 3 then 0x800000FF else 0xFFFFFFFF))
  else if b = CLASS.FAB_ENQ then s.cmd (execFabEnq by_ v)
  else if b = CLASS.FWD_CMD then
    match fld v 1 0 with
    | 0 => s.cmd (execFwdInstall by_ (tag8 v))
    | 1 => s.cmd (execFwdRemove by_ (tag8 v))
    | 2 => s.cmd (execFwdSet by_ (tag8 v))
    | _ => s.cmd (execFwdLookup by_ (tag8 v))
  else if b = CLASS.FWD_ACK then s.cmd (execFwdAck by_ (tag0 v))
  else if b = CLASS.FAB_RING_RD then s.cmd (execFabRingRdWrite by_ v)
  else if b = CLASS.FAB_SW_EPOCH then s.onWrite by_ 9 fun s =>
    (s.regStore a v).modFab fun f => { f with armed := true }
  else s.plainWrite by_ a v

/-- A write to SCHED. -/
def State.schedWrite (s : State) (by_ : Req) (b : Nat) (a : RegId) (v : Word) : State :=
  if b = SCHED.SCHED_OVF then s.onWrite by_ 10 fun s => s.ovfWrite v
  else if b = SCHED.TRC_CTL then s.onWrite by_ 10 fun s => s.trcWrite v
  else s.plainWrite by_ a v

/-- A write to an engine cluster. -/
def State.engWrite (s : State) (by_ : Req) (c : Fin 4) (b : Nat) (a : RegId) (v : Word) : State :=
  if b = ENG.ENG_RUN 0 then s.cmd (execEngRunWrite by_ c v)
  else if b = ENG.ENG_CLK 0 then s.cmd (execEngClkWrite by_ c v)
  else if b = ENG.SUBST_CMD 0 then s.cmd (execSubstCmd by_ c (Fin.ofNat 8 (fld v 2 0)) (tag8 v))
  else if b = ENG.SUBST_ACK 0 then s.cmd (execSubstAck by_ c (tag0 v))
  else s.plainWrite by_ a v

/-- A write to CIPHER. -/
def State.cipherWrite (s : State) (by_ : Req) (b : Nat) (a : RegId) (v : Word) : State :=
  if b = CIPHER.SESS_CMD then
    match fld v 1 0 with
    | 0 => s.cmd (execSessInstall by_ (tag8 v))
    | 1 => s.cmd (execSessDelete by_ (tag8 v))
    | _ => s.cmd (execSessIllegalOp by_ (tag8 v))
  else if b = CIPHER.SESS_ACK then s.cmd (execSessAck by_ (tag0 v))
  else s.plainWrite by_ a v

/-- A write to TIME. A write of TSF_OFS_LO is held until TSF_OFS_HI is written (R418). -/
def State.timeWrite (s : State) (by_ : Req) (b i : Nat) (a : RegId) (v : Word) : State :=
  if b = TIME.MS_CMD then
    match fld v 1 0 with
    | 0 => s.cmd (execMsSet by_ (tag8 v))
    | 1 => s.cmd (execMsStep by_ (tag8 v))
    | 2 => s.cmd (execMsAdj by_ (tag8 v))
    | _ => s.cmd (execMsIllegalOp by_ (tag8 v))
  else if b = TIME.MS_ACK then s.cmd (execMsAck by_ (tag0 v))
  else if b = TIME.SERVO_IN then s.cmd (execServoInWrite by_ v)
  else if b = TIME.SERVO_CTL then s.cmd (execServoCtlWrite by_ v)
  else if b = TIME.PPS_CTL then s.onWrite by_ 1 fun s => (s.regStore a v).ppsSync
  else if b = TIME.PPS_IN_ACK then s.cmd (execPpsInAck by_ (tag0 v))
  else if b = TIME.TSF_OFS_LO 0 then s.onWrite by_ 1 fun s =>
    { s with time := { s.time with tsfHeld := tput (fun _ => none) s.time.tsfHeld i (some v.toNat) } }
  else if b = TIME.TSF_OFS_HI 0 then s.cmd (execTsfOfsHiWrite by_ (Fin.ofNat 3 i) v)
  else if b = TIME.SNAP_W0 0 then s.cmd (execSnapCapture by_ (Fin.ofNat 4 i) (BitVec.ofNat 4 (fld v 3 0)))
  else if b = TIME.SNAP_W7 0 then s.cmd (execSnapAck by_ (Fin.ofNat 4 i) (BitVec.ofNat 4 (fld v 3 0)))
  else if b = TIME.FTM_W0 0 then s.cmd (execFtmArm by_ (Fin.ofNat 3 i) v)
  else if b = TIME.FTM_W7 0 then s.cmd (execFtmAck by_ (Fin.ofNat 3 i) (tag0 v))
  else s.plainWrite by_ a v

/-- A write to HOST (R440, R446). -/
def State.hostTileWrite (s : State) (by_ : Req) (b i : Nat) (a : RegId) (v : Word) : State :=
  if b = HOST.MBX_W0 0 ∨ b = HOST.MBX_W1 0 ∨ b = HOST.MBX_W2 0 ∨ b = HOST.MBX_W3 0 then
    if by_ = .host && !s.pathFree (HOST.MBX_W5 i) then s.onWrite by_ 16 id else s.plainWrite by_ a v
  else if b = HOST.MBX_W4 0 then
    s.cmd (execMbxCmd by_ (Fin.ofNat 8 i) (BitVec.ofNat 16 (fld v 31 16)) (tag0 v))
  else if b = HOST.MBX_W6 0 then s.cmd (execMbxAck by_ (Fin.ofNat 8 i) (tag0 v))
  else if b = HOST.MBX_W7 0 then s.cmd (execMbxPost by_ (Fin.ofNat 8 i) (BitVec.ofNat 8 (fld v 23 16)) (tag0 v))
  else if b = HOST.RING_W0 0 then s.cmd (execRingConfigWrite by_ (BitVec.ofNat 8 i) v)
  else if b = HOST.RING_W1 0 ∨ b = HOST.RING_W2 0 then
    if s.ringOn i then s.onWrite by_ 16 id else s.plainWrite by_ a v
  else if b = HOST.RING_W3 0 then s.cmd (execRingTailWrite by_ (BitVec.ofNat 8 i) v)
  else s.plainWrite by_ a v

/-- A write to WIRE. -/
def State.wireWrite (s : State) (by_ : Req) (b i : Nat) (a : RegId) (v : Word) : State :=
  if b = WIRE.LANE_CTL 0 then s.cmd (execLaneCtlWrite by_ (Fin.ofNat 4 i) v)
  else if b = WIRE.MDIO_CMD then
    let p := BitVec.ofNat 5 (fld v 29 25)
    let g := BitVec.ofNat 5 (fld v 24 20)
    match fld v 31 30 with
    | 0 => s.cmd (execMdioC22Write by_ p g (tag0 v))
    | 1 => s.cmd (execMdioC22Read by_ p g (tag0 v))
    | 2 => s.cmd (execMdioC45Write by_ p g (tag0 v))
    | _ => s.cmd (execMdioC45Read by_ p g (tag0 v))
  else if b = WIRE.MDIO_ACK then s.cmd (execMdioAck by_ (tag0 v))
  else s.plainWrite by_ a v

/-- A write to MGMT's window (R464, R467, R471, R473, R481). -/
def State.mgmtWrite (s : State) (by_ : Req) (b i : Nat) (a : RegId) (v : Word) : State :=
  if b = MGMT.TRIAL then s.onWrite by_ 0 fun s => if reqMgmt by_ then s.regStore a v else s
  else if b = MGMT.LOG_PERS then s.onWrite by_ 0 fun s => s.logPers v
  else if b = MGMT.LOG_PUT then s.cmd (execLogPut by_ v)
  else if b = MGMT.WDT_CTL 0 then s.onWrite by_ 0 fun s => s.wdCtlWrite i v
  else if b = MGMT.WDT_KICK 0 then s.cmd (execWdtKick by_ (Fin.ofNat 7 i) (BitVec.ofNat 8 (fld v 7 0)))
  else if b = MGMT.MT_REQ 0 then
    s.cmd (execMtRequest by_ (Fin.ofNat 16 i) (BitVec.ofNat 5 (fld v 28 24)) (BitVec.ofNat 4 (fld v 19 16)) (tag0 v))
  else if b = MGMT.MT_ACK 0 then s.cmd (execMtAck by_ (Fin.ofNat 16 i) (tag0 v))
  else if b = MGMT.AVS_TARGET then
    s.cmd (execAvsTarget by_ (BitVec.ofNat 16 (fld v 15 0)) (BitVec.ofNat 8 (fld v 23 16)))
  else if b = MGMT.AVS_ACK then s.cmd (execAvsAck by_ (tag0 v))
  else if b = MGMT.DEV_RST then s.cmd (execDevRst by_ (BitVec.ofNat 16 (fld v 15 0)))
  else s.plainWrite by_ a v

/-- A write to a register of MGMT's private space, from MGMT (R473). -/
def State.privWrite (s : State) (by_ : Req) (off : Nat) (v : Word) : State :=
  let a := 256 * 0x1000000 + off
  if a = PRIV.OTP_PROG then s.cmd (execOtpProg by_ v)
  else if a = PRIV.CR_CMD then s.cmd (if bit v 0 then execCrVerify by_ (tag8 v) else execCrHash by_ (tag8 v))
  else if a = PRIV.CR_ACK then s.cmd (execCrAck by_ (tag0 v))
  else if a = PRIV.FL_CMD then
    let op := BitVec.ofNat 8 (fld v 31 24)
    s.cmd (if bit v 0 then execFlWrite by_ op (bit v 1) (tag8 v) else execFlRead by_ op (bit v 1) (tag8 v))
  else if a = PRIV.FL_ACK then s.cmd (execFlAck by_ (tag0 v))
  else s.regStore a v

/-- A write to the common header (R31): each register has the behaviour of its own. -/
def State.headerWrite (s : State) (t off : Nat) (v : Word) : State :=
  if off = 0x0C then s.ctlWrite t (fld v 3 0) (tag8 v) (bit v 31)
  else if off = 0x10 then s.ctlAck t (tag0 v)
  else if off = 0x14 then
    let s1 := s.errWrite t (bit v 31) (bit v 30) (bit v 29) (bit v 28)
    if bit v 15 then s1.cntClr t else s1
  else if off = 0x24 then s.evtClear t v
  else if off = 0x28 then s.maskWrite t v
  else if off = 0x2C then
    if s.life t = .off || (s.tile t).lock then s else s.modTile t fun x => { x with evtRoute := v &&& 0xF000FF1F }
  else s

/-- A write to the register at base `b` (index `i`, address `a`) of a tile, `kind` standing for the tiles of one kind. -/
def State.unitWrite (s : State) (by_ : Req) (t kind b i : Nat) (a : RegId) (v : Word) : State :=
  if t = 0 then s.mgmtWrite by_ b i a v
  else if t = 1 then s.timeWrite by_ b i a v
  else if kind = 2 then s.radioWrite by_ (Fin.ofNat 3 (t - 2)) b i a v
  else if t = 5 then s.mlinkWrite by_ b i a v
  else if t = 6 then s.senseWrite by_ b a v
  else if t = 7 then s.newtWrite by_ b a v
  else if t = 8 then s.storeTileWrite by_ b i a v
  else if t = 9 then s.classWrite by_ b i a v
  else if t = 10 then s.schedWrite by_ b a v
  else if kind = 11 then s.engWrite by_ (Fin.ofNat 4 (t - 11)) b a v
  else if t = 15 then s.cipherWrite by_ b a v
  else if t = 16 then s.hostTileWrite by_ b i a v
  else s.wireWrite by_ b i a v

/-- A write to the register at address `a` of tile `t` past the common header; an address that names no register takes nothing. -/
def State.regWrite (s : State) (by_ : Req) (t : Nat) (a : RegId) (v : Word) : State :=
  match regAt a with
  | none => s.onWrite by_ t id
  | some (row, i) =>
    let kind := if t = 3 ∨ t = 4 then 2 else if t = 12 ∨ t = 13 ∨ t = 14 then 11 else t
    s.unitWrite by_ t kind (kind * 0x1000000 + row.off) i a v

/-- A write of a word of a control window (R26, R29). -/
def State.controlWrite (s : State) (by_ : Req) (t off : Nat) (v : Word) : State :=
  if off < 0x100 then s.headerWrite t off v else s.regWrite by_ t (t * 0x1000000 + off) v

/-! Local memories. -/

/-- Bits of a byte of a station context that firmware owns, by the byte's offset (R215). -/
def ctxFwBits (o : Nat) : Nat :=
  if o < 128 then
    if o = 1 ∨ o = 4 then 0x0F
    else if o = 2 ∨ o = 5 ∨ o = 6 ∨ o = 7 then 0xFF
    else if o = 3 then 0x07
    else if 8 ≤ o ∧ o ≤ 13 then 0xFF
    else if 16 ≤ o ∧ o ≤ 23 then 0x07
    else if 24 ≤ o ∧ o ≤ 35 then 0xFF else 0
  else if o < 320 then
    let p := (o - 128) % 64
    if p = 0 then 1 else if p = 1 then 0x3F else if p = 2 ∨ p = 4 then 0xFF else if p = 5 ∨ p = 6 then 0x7F
    else if 7 ≤ p ∧ p ≤ 13 then 0xFF else if p = 14 then 0x0F else if 32 ≤ p ∧ p ≤ 35 then 0xFF else 0
  else if o < 576 then
    let p := (o - 320) % 32
    if p = 0 then 3 else if 2 ≤ p ∧ p ≤ 7 then 0xFF else 0
  else 0

/-- Software writes a byte of the station context table: only firmware-owned bits of a context that is OPEN or ACTIVE (R215). -/
def State.ctxWrite (s : State) (o : Nat) (v : Byte) : State :=
  let st := s.ctxState (o / 1024)
  if st = 0 ∨ st = 3 then s
  else
    let a := localBase 5 + 0x100000 + o
    let m : Byte := BitVec.ofNat 8 (ctxFwBits (o % 1024))
    s.wb a ((s.rb a &&& ~~~ m) ||| (v &&& m))

/-- Software writes bytes of a tile's local memory: sequencer banks under R148, loading tables read-only, station contexts under
R215. -/
def State.localWrite (s : State) (t off : Nat) (bs : List Byte) : State :=
  if (t = 2 ∨ t = 3 ∨ t = 4) ∧ 0x100000 ≤ off ∧ off < 0x108000 then
    s.bankWrite (t - 2) ((off - 0x100000) / 0x4000) ((off - 0x100000) % 0x4000) bs
  else if (t = 2 ∨ t = 3 ∨ t = 4) ∧ 0x400000 ≤ off then s
  else if t = 5 ∧ 0x100000 ≤ off then
    (bs.zipIdx).foldl (fun (s : State) p => s.ctxWrite (off - 0x100000 + p.2) p.1) s
  else s.wbytes (localBase t + off) bs

/-! Writes of the bus. -/

/-- A write that meets no memory, or that R516 turns away: discarded, with cause 0x08 in the issuing tile (R25). -/
def State.noWrite (s : State) (by_ : Req) (a : Nat) : State × BusRes := (s.decodeErr by_ a, .decode)

/-- A write of the word at address `a` of the control space. -/
@[irreducible] def State.wordWrite (s : State) (by_ : Req) (a : Nat) (v : Word) : State :=
  s.controlWrite by_ ((a - 0x1000000000) / 0x1000000) ((a - 0x1000000000) % 0x1000000) v

/-- Words of control windows written in ascending order (R516). -/
def State.controlWrites (s : State) (by_ : Req) (a : Nat) : List Byte → State
  | b0 :: b1 :: b2 :: b3 :: l =>
    let v := wd (b0.toNat + 256 * b1.toNat + 65536 * b2.toNat + 16777216 * b3.toNat)
    (s.wordWrite by_ a v).controlWrites by_ (a + 4) l
  | _ => s

/-- Words of the private space written in ascending order. -/
def State.privWrites (s : State) (by_ : Req) (off : Nat) : List Byte → State
  | b0 :: b1 :: b2 :: b3 :: l =>
    let v := wd (b0.toNat + 256 * b1.toNat + 65536 * b2.toNat + 16777216 * b3.toNat)
    (s.privWrite by_ off v).privWrites by_ (off + 4) l
  | _ => s

/-- A write of bytes at a device address (R23 to R25, R29, R309, R516). A sub-word or misaligned write of MGMT's private space is
answered as R516 answers one of a control window (DESIGN CHOICE, log entry 55). -/
def State.busWrite (s : State) (by_ : Req) (a : Nat) (bs : List Byte) : State × BusRes :=
  match regionOf a with
  | .store _ =>
    if !s.storeUp then (s.earlyWrite 8).noWrite by_ a
    else if storeEnd < a + bs.length then s.noWrite by_ storeEnd
    else (s.storeWrite (reqPort by_) a bs, .ok)
  | .control _ _ =>
    if a % 4 != 0 || bs.length % 4 != 0 || bs.length = 0 || 0x1012000000 < a + bs.length then s.noWrite by_ a
    else (s.controlWrites by_ a bs, .ok)
  | .loc t off =>
    if !localHolds t off bs.length || by_ = .host then s.noWrite by_ a
    else if s.life t = .off then (s, .ok)
    else if !s.accepts by_ t then (s.earlyWrite t, .ok)
    else (s.localWrite t off bs, .ok)
  | .rom _ => s.noWrite by_ a
  | .priv off =>
    if !reqMgmt by_ || !privMapped off || a % 4 != 0 || bs.length % 4 != 0 then s.noWrite by_ a
    else (s.privWrites by_ off bs, .ok)
  | .unmapped => s.noWrite by_ a

/-- REGISTER_WRITE (R26, R29, R516): `size` bytes of `val` written at a device address. -/
def execRegisterWrite (by_ : Req) (addr : BitVec 40) (size : Nat) (val : Word) (s : State) :
    Host.Outcome State Fault Refusal :=
  .next <| (s.busWrite by_ addr.toNat (le (min 4 size) val.toNat)).1

/-- DEVICE_ACCESS_RESPONSE (R25): an access of a tile's hardware is performed and answered. -/
def execDeviceAccessResponse (issuer : Fin 18) (acc : Access) (s : State) : Host.Outcome State Fault Refusal :=
  .next <|
    match acc.wdata with
    | none => (s.busRead (.tile issuer) acc.addr.toNat acc.size).1
    | some v => (s.busWrite (.tile issuer) acc.addr.toNat (le (min 4 acc.size) v.toNat)).1

/-! The host's accesses (R436 to R439). -/

/-- A word of the MSI-X table. -/
def State.msixWord (s : State) (off : Nat) : Word :=
  let e := tget (fun _ => {}) s.msix (off / 16)
  match off % 16 / 4 with
  | 0 => wd e.addr
  | 1 => wd (e.addr / 2 ^ 32)
  | 2 => e.data
  | _ => if e.masked then 1 else 0

/-- A write of a word of the MSI-X table; a vector whose mask falls sends what it kept pending. -/
def State.msixWrite (s : State) (off : Nat) (v : Word) : State :=
  let e := tget (fun _ => {}) s.msix (off / 16)
  let e1 := match off % 16 / 4 with
    | 0 => { e with addr := e.addr / 2 ^ 32 * 2 ^ 32 + v.toNat }
    | 1 => { e with addr := e.addr % 2 ^ 32 + v.toNat * 2 ^ 32 }
    | 2 => { e with data := v }
    | _ => { e with masked := bit v 0 }
  ({ s with msix := tput (fun _ => {}) s.msix (off / 16) e1 } : State).msixFlush

/-- A word of the pending bit array. -/
def State.pbaWord (s : State) (off : Nat) : Word :=
  wd ((List.range 32).foldl (fun a i => if s.msixPend.contains (8 * off + i) then a + 2 ^ i else a) 0)

/-- A read of one dword through BAR 0. -/
def State.bar0Read (s : State) (off : Nat) : State × Word :=
  if off < 0x12000000 then s.controlRead .host (off / 0x1000000) (off % 0x1000000)
  else if 0x1F000000 ≤ off ∧ off < 0x1F001000 then (s, s.msixWord (off - 0x1F000000))
  else if 0x1F001000 ≤ off ∧ off < 0x1F001020 then (s, s.pbaWord (off - 0x1F001000))
  else (s.decodeErr .host (0x1000000000 + off), 0)

/-- A write of one dword through BAR 0. -/
def State.bar0Write (s : State) (off : Nat) (v : Word) : State :=
  if off < 0x12000000 then s.controlWrite .host (off / 0x1000000) (off % 0x1000000) v
  else if 0x1F000000 ≤ off ∧ off < 0x1F001000 then s.msixWrite (off - 0x1F000000) v
  else if 0x1F001000 ≤ off ∧ off < 0x1F001020 then s
  else s.decodeErr .host (0x1000000000 + off)

/-- Dwords of a read through BAR 0, in ascending order. -/
def State.bar0Reads (s : State) (off : Nat) : Nat → State × List Byte
  | 0 => (s, [])
  | n + 1 =>
    let r := s.bar0Read (off % 0x20000000)
    let rest := r.1.bar0Reads (off + 4) n
    (rest.1, le 4 r.2.toNat ++ rest.2)

/-- Dwords of a write through BAR 0, in ascending order: one whose byte enables do not cover it whole is discarded as a decode
error, and one with no byte enabled does nothing. -/
def State.bar0Writes (s : State) (off : Nat) (be : Nat → Bool) (data : List Byte) : Nat → State
  | 0 => s
  | n + 1 =>
    let on := [0, 1, 2, 3].map be
    let d := fun i => (data.getD i 0).toNat
    let v := wd (d 0 + 256 * d 1 + 65536 * d 2 + 16777216 * d 3)
    let s1 := if on.all id then s.bar0Write off v
      else if on.any id then s.decodeErr .host (0x1000000000 + off) else s
    s1.bar0Writes (off + 4) (fun i => be (i + 4)) (data.drop 4) n

/-- Device address of an offset in BAR 2 (R437): bits of BASE below the BAR's size are zero. -/
def State.bar2Addr (s : State) (off : Nat) : Nat :=
  let size := 2 ^ s.hostU.barLog
  s.rf HOST.BAR2_BASE 3 0 * 2 ^ 28 / size * size + off % size

/-- Runs of enabled bytes of a write, as offset and bytes. -/
def enabledRuns : List Bool → List Byte → Nat → Nat → List Byte → List (Nat × List Byte)
  | true :: be, b :: l, o, at_, run => enabledRuns be l (o + 1) (if run.isEmpty then o else at_) (run ++ [b])
  | false :: be, _ :: l, o, at_, run => (if run.isEmpty then [] else [(at_, run)]) ++ enabledRuns be l (o + 1) 0 []
  | _, _, _, at_, run => if run.isEmpty then [] else [(at_, run)]

/-- A read completes to the host (R438): zero data after an error, poisoned and recorded as cause 0x80 where the data is
uncorrectable. -/
def State.hostReply (s : State) (a : Nat) (res : BusRes) (data : List Byte) : State :=
  let bad := res = .dataErr
  let s1 := if bad then s.recordErr 16 0x80 noUnit 0 a false else s
  s1.modHost fun x => { x with replies := x.replies ++ [{ data := if res = .ok then data else zeros data.length, poisoned := bad }] }

/-- HOST_BAR_REQUEST (R436 to R438): a read of as many bytes as there are byte enables, or a write of `wdata`. HOST serves it
while its link is up and the function is not in D3hot. -/
def execHostBarRequest (bar2 : Bool) (off : BitVec 34) (be : List Bool) (wdata : Option (List Byte)) (s : State) :
    Host.Outcome State Fault Refusal :=
  .next <|
    let o := off.toNat
    let n := be.length
    if !s.rbit HOST.HOST_STATUS 31 || s.rbit HOST.HOST_STATUS 28 || !s.active 16 || n = 0 then s
    else if bar2 then
      let a := s.bar2Addr o
      match wdata with
      | none =>
        let r := if storeEnd < a + n then s.noRead .host a n else s.busRead .host a n
        r.1.hostReply a r.2.1 r.2.2
      | some d => (enabledRuns be d 0 0 []).foldl (fun (s : State) p =>
          if storeEnd < a + p.1 + p.2.length then (s.noWrite .host (a + p.1)).1 else (s.busWrite .host (a + p.1) p.2).1) s
    else
      let lo := o % 0x20000000 / 4 * 4
      let k := o % 4
      let words := (k + n + 3) / 4
      match wdata with
      | none =>
        let r := s.bar0Reads lo words
        r.1.hostReply (0x1000000000 + lo) .ok ((r.2.drop k).take n)
      | some d =>
        s.bar0Writes lo (fun i => k ≤ i && be.getD (i - k) false) (zeros k ++ d) words

end Sys2Proof.Machine
end

