-- ==== Sys2Proof/WellFormed.lean ====
section
/-! DEFINITION. Which commands are well formed: the operands that a row's rule admits and their types do not already say. -/

namespace Sys2Proof

/-- Threads of the processor of a tile (R39): four in each engine of a cluster, none where the tile has no processor. -/
def threadsOf (t : Nat) : Nat :=
  if t = 0 || t = 6 then 2 else if t = 7 then 1 else if (2 ≤ t && t ≤ 5) || (11 ≤ t && t ≤ 14) then 4 else 0

/-- The thread exists: only a cluster has more than one processor (R36, R39). -/
def ThreadRef.exists_ (th : ThreadRef) : Bool :=
  th.thr.val < threadsOf th.tile.val && (11 ≤ th.tile.val && th.tile.val ≤ 14 || th.eng.val = 0)

/-- Where a command runs on a thread, that thread. -/
def Instr.thread : Instr → Option ThreadRef
  | .illegalInstruction th => some th
  | .ld th => some th
  | .st th => some th
  | .ldx th => some th
  | .stx th => some th
  | .ldy th => some th
  | .sty th => some th
  | .lea th => some th
  | .xch th => some th
  | .add th => some th
  | .adc th => some th
  | .sub th => some th
  | .sbc th => some th
  | .neg th => some th
  | .abs th => some th
  | .mul th => some th
  | .mulu th => some th
  | .div th => some th
  | .divu th => some th
  | .and th => some th
  | .or th => some th
  | .xor th => some th
  | .shl th => some th
  | .shr th => some th
  | .sar th => some th
  | .rol th => some th
  | .ror th => some th
  | .bfx th => some th
  | .bfi th => some th
  | .bswap th => some th
  | .pand th => some th
  | .pior th => some th
  | .pxor th => some th
  | .cmpEq th => some th
  | .cmpNe th => some th
  | .cmpLt th => some th
  | .cmpGe th => some th
  | .cmpLe th => some th
  | .cmpGt th => some th
  | .cmpLo th => some th
  | .cmpHs th => some th
  | .cmpLs th => some th
  | .cmpHi th => some th
  | .cmpVa th => some th
  | .cmpVs th => some th
  | .tst th => some th
  | .br th => some th
  | .call th => some th
  | .ret th => some th
  | .retTrap th => some th
  | .trap th => some th
  | .rep th => some th
  | .crc th => some th
  | .hash th => some th
  | .fetch th => some th
  | .fadd th => some th
  | .cas th => some th
  | .fence th => some th
  | .getw th => some th
  | .done th => some th
  | .enq th => some th
  | .cancel th => some th
  | .waitev th => some th
  | .seqw th => some th
  | .threadResponseArrive th _ => some th
  | .postedStoreComplete th _ => some th
  | .impreciseTrap th => some th
  | .fetchCopyComplete th _ _ => some th
  | .waitevTimeout th => some th
  | _ => none

/-- What a row's rule admits of its other operands. -/
def Instr.operandsOk : Instr → Bool
  | .reqStateRefusedCode _ _ _ code => code = 5 || (7 ≤ code.toNat && code.toNat < 15)
  | .registerWrite _ _ size _ => size = 1 || size = 2 || size = 4
  | .deviceAccessResponse _ acc => acc.size = 1 || acc.size = 2 || acc.size = 4
  | .rfCmdIllegalOp _ _ _ op => op = 0 || 5 < op.toNat
  | .rffeIllegalKind _ _ kind _ => 5 ≤ kind.toNat
  | .newtFrameReceive psdu _ _ => psdu.length ≤ 127
  | .storeRequestArrive _ _ len wdata => 0 < len.toNat && (match wdata with | some l => l.length = len.toNat | none => true)
  | .pcieLinkUp _ width => width = 1 || width = 2 || width = 4
  | .hostBarRequest _ _ be wdata => 0 < be.length && (match wdata with | some l => l.length = be.length | none => true)
  | .sensorRead temps mv => temps.length = 12 && mv.length = 16
  | .roMonUpdate now => now.length = 24
  | _ => true

/-- A well-formed command. -/
def Instr.wellFormed (i : Instr) : Bool :=
  (match i.thread with
    | some th => th.exists_
    | none => true) && i.operandsOk

end Sys2Proof
end

