-- ==== Sys2Proof/Machine/UzBase.lean ====
section
/-! DEFINITION. Uzoath (chapters 2 and 3): processors, instruction words and their legal forms, the core address space, ordering,
traps and the issue of an instruction. -/

namespace Sys2Proof.Machine

open Reg

/-! Processors (R39). -/

/-- A packet engine's tile. -/
def isEng (t : Nat) : Bool := 11 ≤ t && t ≤ 14

end Sys2Proof.Machine

namespace Sys2Proof

open Sys2Proof.Machine

/-- Place in the table of threads. -/
def ThreadRef.key (th : ThreadRef) : Nat := threadKey th.tile.val th.eng.val th.thr.val

/-- Device address and size of the local data memory. -/
def ThreadRef.data (th : ThreadRef) : Nat × Nat :=
  let t := th.tile.val
  if isEng t then (localBase t + th.eng.val * 0x40000, 0x20000)
  else (localBase t, ((localMem t).headD (0, 0)).2)

/-- Device address and size of the instruction memory. -/
def ThreadRef.code (th : ThreadRef) : Nat × Nat :=
  let t := th.tile.val
  if isEng t then (localBase t + 0x800000, 0x40000) else th.data

/-- Device address of an instruction word, where it lies in instruction memory. -/
def ThreadRef.fetchAt (th : ThreadRef) (pc : Nat) : Option Nat :=
  if pc < th.code.2 then some (th.code.1 + pc)
  else if th.tile = 0 ∧ 0x40000000 ≤ pc ∧ pc < 0x40020000 then some (0x3000000000 + pc % 2 ^ 17)
  else none

end Sys2Proof

namespace Sys2Proof.Machine

open Reg

/-- Clock island frequency in MHz that counts a WAITEV timeout (R106). -/
def uzMhz (t : Nat) : Nat := if t = 0 then 400 else if t = 6 then 640 else if t = 7 then 64 else 800

/-! Instruction words (R46). -/

/-- The fields of an instruction word. -/
structure Insn where
  gn : Bool
  gp : Nat
  op : Nat
  sz : Nat
  mode : Nat
  opd : Nat
deriving DecidableEq, Repr

/-- The fields of a word. -/
def Insn.ofWord (w : Nat) : Insn :=
  { gn := w.testBit 31
    gp := nbits w 30 28
    op := nbits w 27 22
    sz := nbits w 21 20
    mode := nbits w 19 16
    opd := nbits w 15 0 }

/-- Operand width in bits. -/
def Insn.width (i : Insn) : Nat := 8 * 2 ^ i.sz

/-- The instruction has an extension word. -/
def Insn.hasExt (i : Insn) : Bool := i.mode = 1 || i.mode = 3

/-- The compare forms, which are not guarded (R49). -/
def Insn.compare (i : Insn) : Bool := 0x21 ≤ i.op && i.op ≤ 0x2D

/-- The instruction has no operand size and is encoded as .W (R47, R73). -/
def opSizeless (op : Nat) : Bool :=
  (0x1E ≤ op && op ≤ 0x20) || (0x2E ≤ op && op ≤ 0x32) || op = 0x35 || (0x38 ≤ op && op ≤ 0x3E)

/-- SZ is one that the operation takes (R73). -/
def szOk (op sz : Nat) : Bool :=
  if opSizeless op || op = 0x1B || op = 0x1C || op = 0x34 || op = 0x36 || op = 0x37 then sz = 2
  else if op = 0x1D then sz = 1 || sz = 2 else sz < 3

/-- MODE is one that the operation takes (R73). -/
def modeOk (op m : Nat) : Bool :=
  if op = 2 || op = 4 || op = 6 || op = 8 then 2 ≤ m
  else if op = 7 || op = 0x35 || op = 0x36 || op = 0x37 || op = 0x39 || op = 0x3E then 2 ≤ m && m ≤ 14
  else if (0x1E ≤ op && op ≤ 0x20) || (0x30 ≤ op && op ≤ 0x32) || op = 0x38 then m = 0
  else if op = 0x2E || op = 0x2F then m ≤ 6 || 11 ≤ m
  else if op = 0x33 then 7 ≤ m
  else if op = 0x3A || op = 0x3C || op = 0x3D then m = 0 || m = 1 || m = 15
  else if op = 0x3B then 7 ≤ m && m ≤ 14
  else true

/-- The operation writes its operand, so a named PC is illegal (R37, R53, R77). -/
def writesOperand (op : Nat) : Bool := op = 2 || op = 4 || op = 6 || op = 8

/-- OPD is one that the operation and mode take (R50, R52, R73, R88, R90, R95, R104). -/
def opdOk (i : Insn) : Bool :=
  if i.mode = 15 then
    i.opd % 16 < 13 && (if i.op = 0x33 then i.opd / 64 = 0 else i.opd / 16 = 0) && !(writesOperand i.op && i.opd % 16 = 7)
  else if 7 ≤ i.mode then
    if i.op = 0x33 then i.opd &&& 0xFFCF = 0 else if i.op = 0x3B then i.opd < 8 else i.opd = 0
  else if i.hasExt then i.opd = 0
  else if 0x1E ≤ i.op && i.op ≤ 0x20 then i.opd &&& 0x800F = 0
  else if i.op = 0x30 then i.opd ≤ 1
  else if i.op = 0x32 || i.op = 0x38 then i.opd = 0
  else true

/-- An operation that a processor excludes (R39). -/
def excluded (t op : Nat) : Bool :=
  if isEng t then op = 0x3D || op = 0x3E
  else op = 0x39 || op = 0x3A || op = 0x3B || op = 0x3C || (op = 0x3E && !(2 ≤ t && t ≤ 4))

/-- The word is a legal form on a tile's processor, as far as the word alone decides (R64). -/
def Insn.legal (i : Insn) (t : Nat) : Bool :=
  i.op != 0 && i.op != 0x3F && !excluded t i.op && szOk i.op i.sz && modeOk i.op i.mode && opdOk i

/-- Instructions that REP may not repeat (R94). -/
def repBarrier (op : Nat) : Bool := 0x2E ≤ op && op ≤ 0x32

/-! Thread registers (R36 to R38). -/

/-- IN_TRAP. -/
def Thread.inTrap (x : Thread) : Bool := bit x.st 17
/-- SYSTEM mode. -/
def Thread.system (x : Thread) : Bool := bit x.st 16

/-- ST as it reads. -/
def Thread.stWord (x : Thread) (thr : Nat) : Nat := (x.st.toNat % 2 ^ 28) + thr * 2 ^ 28

/-- W_n. -/
def Thread.w (x : Thread) (n : Nat) : Word := match n with | 0 => x.w0 | 1 => x.w1 | 2 => x.w2 | _ => x.w3

/-- The value of P_n. -/
def Thread.pred (x : Thread) (n : Nat) : Bool := n = 0 || x.pr.getLsbD n

/-- A mode-15 register as it reads; PC reads as the next instruction's address. -/
def Thread.reg (x : Thread) (thr next n : Nat) : Nat :=
  match n with
  | 0 => x.a.toNat
  | 1 => x.e.toNat
  | 2 => x.x.toNat
  | 3 => x.y.toNat
  | 4 => x.sp.toNat
  | 5 => x.k.toNat
  | 6 => x.stWord thr
  | 7 => next
  | 12 => x.pr.toNat ||| 1
  | n => (x.w (n - 8)).toNat

/-- Bits of ST that a write takes: MODE, V_TRAP, DZ_TRAP, DZ and V. -/
def stMask : Word := 0x10303

/-- Write a mode-15 register. -/
def Thread.setReg (x : Thread) (n v : Nat) : Thread :=
  match n with
  | 0 => { x with a := wd v }
  | 1 => { x with e := wd v }
  | 2 => { x with x := wd v }
  | 3 => { x with y := wd v }
  | 4 => { x with sp := wd v }
  | 5 => { x with k := BitVec.ofNat 16 v }
  | 6 => { x with st := (x.st &&& ~~~ stMask) ||| (wd v &&& stMask) }
  | 8 => { x with w0 := wd v &&& 0xFFFFFF07 }
  | 9 => { x with w1 := wd v &&& 0xFFFFFF07 }
  | 10 => { x with w2 := wd v &&& 0xFFFFFF07 }
  | 11 => { x with w3 := wd v &&& 0xFFFFFF07 }
  | 12 => { x with pr := BitVec.ofNat 8 v ||| 1 }
  | _ => x

/-- A write that USER mode may not make (R38). -/
def Thread.privileged (x : Thread) (n v : Nat) : Bool :=
  !x.system && ((n = 6 && v.testBit 16) || (8 ≤ n && n ≤ 11))

/-! An instruction in execution. -/

/-- A thread's instruction: its word, extension word and addresses, and whether its device accesses are performed now; `dataErr`
says that the response carries uncorrectable data. -/
structure Uz where
  th : ThreadRef
  i : Insn
  ext : Nat
  pc : Nat
  arrived : Bool := false
  dataErr : Bool := false
deriving DecidableEq, Repr

/-- Why an instruction does not complete now: a trap before completion, with the state in which it is taken; its device access
is still to be made; an order or the limit on copies holds it; or the limit on posted stores does. -/
inductive Stop where
  | trap (s : State) (cause addr : Nat)
  | park
  | hold
  | full

/-- Address of the next instruction. -/
def Uz.next (c : Uz) : Nat := (c.pc + (if c.i.hasExt then 8 else 4)) % 2 ^ 32

/-- The thread of an instruction. -/
def State.uz (s : State) (c : Uz) : Thread := s.thread c.th.key

/-- Change the thread of an instruction. -/
def State.modUz (s : State) (c : Uz) (f : Thread → Thread) : State := s.setThread c.th.key (f (s.uz c))

/-- PC moves past the instruction, or a repetition counts down (R48, R92, R93). -/
def Thread.advance (x : Thread) (next : Nat) : Thread :=
  match x.rep with
  | some r => if r.left ≤ 1 then { x with rep := none, pc := next } else { x with rep := some { r with left := r.left - 1 } }
  | none => { x with pc := next }

/-- The thread completes the instruction: PC advances. -/
def State.uzDone (s : State) (c : Uz) : State := s.modUz c fun x => x.advance c.next

/-! Core addresses (R43, R44). -/

/-- Where a data access lands: a device address of the thread's own memory, or of a window with its ORD. -/
inductive Place where
  | here (addr : Nat)
  | dev (addr : Nat) (ord : Bool)
deriving DecidableEq, Repr

/-- Translation through a window. -/
def window (x : Thread) (ea : Nat) : Nat :=
  (fld (x.w (ea / 2 ^ 29 % 4)) 31 8 * 2 ^ 16 + ea % 2 ^ 29) % 2 ^ 40

/-- Where an access of `size` bytes at a core address lands, or its trap: 4 ALIGN, 5 LOCAL, 6 WINDOW. -/
def place (th : ThreadRef) (x : Thread) (ea size : Nat) (write : Bool) : Except Nat Place :=
  if ea % size != 0 then .error 4
  else if 2 ^ 31 ≤ ea then
    let w := x.w (ea / 2 ^ 29 % 4)
    if !bit w 0 || (write && bit w 1) then .error 6 else .ok (.dev (window x ea) (bit w 2))
  else if ea + size ≤ th.data.2 then .ok (.here (th.data.1 + ea))
  else if th.tile = 0 && 0x40000000 ≤ ea && ea < 0x40020000 && !write then .ok (.here (0x3000000000 + ea % 2 ^ 17))
  else .error 5

/-- The place of an access of an instruction, or its trap. -/
def Uz.place (c : Uz) (s : State) (ea size : Nat) (write : Bool) : Except Stop Place :=
  match Machine.place c.th (s.uz c) ea size write with
  | .ok p => .ok p
  | .error cause => .error (.trap s cause ea)

/-- Earlier device accesses of a thread are outstanding: posted stores, or FETCH copies from devices (R60). -/
def Thread.devBusy (x : Thread) : Bool := !x.posted.isEmpty || x.copies.any fun k => !k.isLocal

/-- A posted store to a word is outstanding (R59). -/
def Thread.postedAt (x : Thread) (dev : Nat) : Bool := x.posted.any fun p => p.dev / 4 = dev / 4

/-- A device access that parks the thread is performed, once it may be (R57, R59, R60): `isLoad` for a load or an atomic. -/
def Uz.ready (c : Uz) (s : State) (dev : Nat) (ord isLoad : Bool) : Except Stop Unit :=
  if !c.arrived then .error .park
  else if (ord && (s.uz c).devBusy) || (isLoad && (s.uz c).postedAt dev) then .error .hold
  else .ok ()

/-- The requester of a thread's accesses. -/
def Uz.by_ (c : Uz) : Req := .tile c.th.tile

/-- A number from bytes, the first least significant. -/
def leVal (l : List Byte) : Nat := l.foldr (fun (b : Byte) a => b.toNat + 256 * a) 0

/-- The response of a load or an atomic: decode errors and uncorrectable data trap (R64). A response reported uncorrectable is
recorded as the store's read. -/
def Uz.answer (c : Uz) (r : State × BusRes × List Byte) (ea dev : Nat) : Except Stop (State × Nat) :=
  match r.2.1 with
  | .decode => .error (.trap r.1 7 ea)
  | .dataErr => .error (.trap r.1 8 ea)
  | .ok =>
    if c.dataErr && dev < storeEnd then .error (.trap (r.1.eccFail (reqPort c.by_) (dev / 32 * 32) true) 8 ea)
    else .ok (r.1, leVal r.2.2)

/-- A load of `size` bytes (R43, R57). -/
def Uz.load (c : Uz) (s : State) (ea size : Nat) : Except Stop (State × Nat) := do
  match ← c.place s ea size false with
  | .here a => .ok (s, s.rm a size)
  | .dev d ord =>
    c.ready s d ord true
    c.answer (s.busRead c.by_ d size) ea d

/-- A store of `size` bytes (R57, R58, R60): through a window it is posted unless the window is ordered; with eight outstanding
it waits until the oldest of them completes. -/
def Uz.store (c : Uz) (s : State) (ea size v : Nat) : Except Stop State := do
  match ← c.place s ea size true with
  | .here a => .ok (s.wm a size v)
  | .dev d ord =>
    if ord then
      c.ready s d ord false
      let r := s.busWrite c.by_ d (le size v)
      if r.2 = .decode then .error (.trap r.1 7 ea) else .ok r.1
    else if 8 ≤ (s.uz c).posted.length || (s.uz c).postHold then .error .full
    else .ok (s.modUz c fun x => { x with posted := x.posted ++ [{ core := ea, dev := d, size := size, val := v }] })

/-- An atomic at a device address (R100): on the store and on local memories only; elsewhere a decode error without an access.
`f` gives what is written, if anything, from what is read. -/
def State.busAtomic (s : State) (by_ : Req) (a size : Nat) (f : Nat → Option Nat) : State × BusRes × List Byte :=
  let served := match regionOf a with
    | .store _ => true
    | .loc _ _ => true
    | _ => false
  if !served then s.noRead by_ a size
  else
    let r := s.busRead by_ a size
    if r.2.1 = .ok then
      match f (leVal r.2.2) with
      | some v => ((r.1.busWrite by_ a (le size v)).1, .ok, r.2.2)
      | none => r
    else r

/-- An atomic of an instruction (R77, R99, R100): indivisible on local memory and at its target. -/
def Uz.atomic (c : Uz) (s : State) (ea size : Nat) (f : Nat → Option Nat) : Except Stop (State × Nat) := do
  match ← c.place s ea size true with
  | .here a =>
    let old := s.rm a size
    .ok (match f old with
      | some v => s.wm a size v
      | none => s, old)
  | .dev d ord =>
    c.ready s d ord true
    if c.dataErr && d < storeEnd then c.answer (s.busRead c.by_ d size) ea d
    else c.answer (s.busAtomic c.by_ d size f) ea d

/-! Addressing modes (R52). -/

/-- An operand: an immediate, a register number, or an effective core address. -/
inductive Opnd where
  | imm (v : Nat)
  | reg (n : Nat)
  | ea (a : Nat)
deriving DecidableEq, Repr

/-- Sign extension of a 16-bit field to 32 bits. -/
def sext16 (d : Nat) : Nat := ofInt 32 (sval 16 d)

/-- The step of modes 7 to 10: the operand size, or the bytes accessed by an instruction without one. -/
def Insn.step (i : Insn) (x : Thread) : Nat :=
  if i.op = 0x39 || i.op = 0x3B then 32 else if i.op = 0x3E then 16 else if i.op = 0x35 then fld x.e 8 0 else 2 ^ i.sz

/-- The operand of a mode, and the register update of modes 7 to 10. -/
def Insn.operand (i : Insn) (ext : Nat) (x : Thread) : Opnd × (Thread → Thread) :=
  let n := i.step x
  let add := fun (r : Word) => (r.toNat + sext16 i.opd) % 2 ^ 32
  let idx := fun (k : Nat) => (x.x.toNat + x.y.toNat * k) % 2 ^ 32
  match i.mode with
  | 0 => (.imm (sext16 i.opd), id)
  | 1 => (.imm ext, id)
  | 2 => (.ea i.opd, id)
  | 3 => (.ea ext, id)
  | 4 => (.ea (add x.x), id)
  | 5 => (.ea (add x.y), id)
  | 6 => (.ea (add x.sp), id)
  | 7 => (.ea x.x.toNat, fun t => { t with x := x.x + wd n })
  | 8 => (.ea x.y.toNat, fun t => { t with y := x.y + wd n })
  | 9 => (.ea (x.x - wd n).toNat, fun t => { t with x := x.x - wd n })
  | 10 => (.ea (x.y - wd n).toNat, fun t => { t with y := x.y - wd n })
  | 11 => (.ea (idx 1), id)
  | 12 => (.ea (idx 2), id)
  | 13 => (.ea (idx 4), id)
  | 14 => (.ea (idx 8), id)
  | _ => (.reg (i.opd % 16), id)

/-- The operand and register update of an instruction. -/
def Uz.opnd (c : Uz) (s : State) : Opnd × (Thread → Thread) := c.i.operand c.ext (s.uz c)

/-- The operand's value: an immediate whole, a register's low bits, or what memory holds (R51, R84). -/
def Uz.value (c : Uz) (s : State) (w : Nat) : Opnd → Except Stop (State × Nat)
  | .imm v => .ok (s, v)
  | .reg n => .ok (s, (s.uz c).reg c.th.thr.val c.next n % 2 ^ w)
  | .ea a => c.load s a (w / 8)

/-! Traps (R64 to R70). -/

/-- A double trap (R70): the thread stops as it stands; a controller's tile faults, MGMT restarts, an engine's thread is
reported. UNIT of cause 0x07 is the thread number on MGMT as on the other controllers (DESIGN CHOICE, log entry 55). -/
def State.doubleTrap (s : State) (th : ThreadRef) (cause : Nat) : State :=
  let t := th.tile.val
  let s1 := s.setThread th.key { (s.thread th.key) with run := .stopped }
  if t = 0 then (s1.recordErr 0 7 th.thr.val 0 0 false).mgmtRestart 4
  else if isEng t then s1.engThreadStop (t - 11) th.eng.val th.thr.val cause
  else s1.faultHook (s1.recordErr t 7 th.thr.val 0 0 true) t

/-- A word of a trap frame goes through an ordered window while earlier device accesses of the thread are outstanding (R60). -/
def State.frameWaits (s : State) (th : ThreadRef) (frame : Nat) : Bool :=
  (s.thread th.key).devBusy && [0, 4, 8, 12].any fun o =>
    match Machine.place th (s.thread th.key) ((frame + o) % 2 ^ 32) 4 true with
    | .ok (.dev _ ord) => ord
    | _ => false

/-- One word of a trap frame: never posted (R66). -/
def State.frameStore (s : State) (th : ThreadRef) (ea v : Nat) : State × Bool :=
  match Machine.place th (s.thread th.key) ea 4 true with
  | .error _ => (s, false)
  | .ok (.here a) => (s.wm a 4 v, true)
  | .ok (.dev d _) =>
    let r := s.busWrite (.tile th.tile) d (le 4 v)
    (r.1, r.2 = .ok)

/-- The words of a frame from an address, in order, up to the first that faults. -/
def State.frameStores (s : State) (th : ThreadRef) (ea : Nat) : List Nat → State × Bool
  | [] => (s, true)
  | v :: l =>
    let r := s.frameStore th (ea % 2 ^ 32) v
    if r.2 then r.1.frameStores th (ea + 4) l else (r.1, false)

/-- A trap is entered (R66), or is a double trap (R70). A frame of which an ordered window holds back a word waits whole (DESIGN
CHOICE, log entry 55). -/
def State.trapEnter (s : State) (th : ThreadRef) (cause addr saved info : Nat) : State :=
  let x := s.thread th.key
  if x.inTrap then s.doubleTrap th cause
  else
    let frame := (x.sp - 16).toNat
    if s.frameWaits th frame then s.setThread th.key { x with run := .frame cause addr saved info }
    else
    let r := s.frameStores th frame [saved % 2 ^ 32, x.stWord th.thr.val, info, addr % 2 ^ 32]
    if !r.2 then r.1.doubleTrap th cause
    else r.1.setThread th.key { (r.1.thread th.key) with
      sp := wd frame, st := x.st ||| 0x30000, pc := cause * 16, rep := none, run := .running }

/-- INFO of a trap inside a repetition with iterations left (R67). -/
def repInfo (left : Nat) : Nat := left % 2 ^ 16 * 2 ^ 16 + 0x200

/-- A trap before completion, and an imprecise one: REMAIN counts the iteration in hand (R67, R68). -/
def State.trapBefore (s : State) (th : ThreadRef) (cause addr : Nat) (imprecise : Bool) : State :=
  let x := s.thread th.key
  let extra := cause + (if imprecise then 0x100 else 0)
  match x.rep with
  | some r => s.trapEnter th cause addr r.pc (repInfo r.left + extra)
  | none => s.trapEnter th cause addr x.pc extra

/-- A trap after completion: REMAIN counts the iterations that follow (R65, R67). -/
def State.trapAfter (s : State) (th : ThreadRef) (cause addr : Nat) : State :=
  let x := s.thread th.key
  match x.rep with
  | some r => s.trapEnter th cause addr r.pc (repInfo r.left + cause)
  | none => s.trapEnter th cause addr x.pc cause

/-! Fetch and issue (R40, R43, R46 to R48). -/

/-- An instruction word. -/
def State.fetchWord (s : State) (th : ThreadRef) (pc : Nat) : Option Nat := (th.fetchAt pc).map fun a => s.rm a 4

/-- The thread can issue now (R40, R373, R375, R393, R394): it runs, its tile's processor issues, and no imprecise trap waits
to be taken first. -/
def State.canIssue (s : State) (th : ThreadRef) : Bool :=
  let t := th.tile.val
  let x := s.thread th.key
  th.exists_ && !s.inReset && x.run = .running && (x.traps.isEmpty || x.inTrap)
    && (if isEng t then
        s.live t && !s.rbit (ENG.ENG_CLK (t - 11)) 31 && !s.engSubst (8 * (t - 11) + th.eng.val)
      else s.live t || s.life t = .held)

/-- What a thread would issue: the trap that its fetch meets, or the instruction with its extension word. -/
inductive Fetched where
  | trap (cause addr : Nat)
  | insn (c : Uz)
deriving DecidableEq, Repr

/-- Misuse that instructions name (R64): a REP before an instruction it may not repeat, a trap return outside a handler, GETW and
DONE without the item they need, a FETCH with a bad E. -/
def State.misuse (s : State) (c : Uz) : Bool :=
  let x := s.uz c
  if c.i.op = 0x32 then
    match s.fetchWord c.th c.next with
    | some w => repBarrier (Insn.ofWord w).op
    | none => false
  else if c.i.op = 0x30 then c.i.opd = 1 && !x.inTrap
  else if c.i.op = 0x39 then x.item.isSome
  else if c.i.op = 0x3A then x.item.isNone
  else if c.i.op = 0x35 then 256 < fld x.e 8 0 || fld x.e 15 9 != 0
  else x.rep.isSome && repBarrier c.i.op

/-- Fetch at PC: ILLEGAL, then FETCH for the words outside instruction memory (R48, R64, R65). -/
def State.fetched (s : State) (th : ThreadRef) : Fetched :=
  let pc := (s.thread th.key).pc
  match s.fetchWord th pc with
  | none => .trap 3 pc
  | some w =>
    let i := Insn.ofWord w
    let c : Uz := { th := th, i := i, ext := 0, pc := pc }
    if !i.legal th.tile.val || ((s.thread th.key).rep.isSome && repBarrier i.op) || s.misuse c then .trap 1 pc
    else if i.hasExt then
      match s.fetchWord th ((pc + 4) % 2 ^ 32) with
      | none => .trap 3 ((pc + 4) % 2 ^ 32)
      | some e => .insn { c with ext := e }
    else .insn c

/-- The guard of an instruction (R48); compare forms are not guarded. -/
def Uz.guard (c : Uz) (s : State) : Bool := c.i.compare || ((s.uz c).pred c.i.gp != c.i.gn)

/-- The outcome of an instruction's body: completion with a cause raised after it (0 for none), a trap, a device access still to
make, or nothing. -/
def State.conclude (s : State) (c : Uz) : Except Stop (State × Nat) → State
  | .ok (s1, 0) => s1
  | .ok (s1, cause) => s1.trapAfter c.th cause c.pc
  | .error (.trap s1 cause addr) => s1.trapBefore c.th cause addr false
  | .error .park => s
  | .error .hold => s
  | .error .full => s.modUz c fun x => { x with postHold := true }

/-- A word as an instruction in a thread. -/
def Uz.word (c : Uz) : Nat :=
  (if c.i.gn then 2 ^ 31 else 0) + c.i.gp * 2 ^ 28 + c.i.op * 2 ^ 22 + c.i.sz * 2 ^ 20 + c.i.mode * 2 ^ 16 + c.i.opd

end Sys2Proof.Machine
end

