-- ==== Sys2Proof/Machine/UzAlu.lean ====
section
/-! DEFINITION. The arithmetic of Uzoath (R71, R78 to R88, R95, R96): what each operation computes from its sources, and the flags
V and DZ it sets. `a` and `b` are numbers of `w` bits. -/

namespace Sys2Proof.Machine

/-- What an operation writes: A, E, X or Y where given, and the flags it sets. -/
structure Alu where
  a : Option Nat := none
  e : Option Nat := none
  x : Option Nat := none
  y : Option Nat := none
  v : Bool := false
  dz : Bool := false
deriving DecidableEq, Repr

/-- A signed number of `w` bits lies in its range. -/
def fitsS (w : Nat) (r : Int) : Bool := -(2 ^ (w - 1) : Int) ≤ r && r < (2 ^ (w - 1) : Int)

/-- A sum with a carry in (R78). -/
def aluAdd (w a b c : Nat) : Alu :=
  { a := some ((a + b + c) % 2 ^ w), v := !fitsS w (sval w a + sval w b + c) }

/-- A sum with the carry in E (R78). -/
def aluAdc (w a b e : Nat) : Alu := { aluAdd w a b (e % 2) with e := some ((a + b + e % 2) / 2 ^ w) }

/-- A difference with a borrow in (R78). -/
def aluSub (w a b c : Nat) : Alu :=
  { a := some ((a + 2 ^ (w + 1) - b - c) % 2 ^ w), v := !fitsS w (sval w a - sval w b - c) }

/-- A difference with the borrow in E (R78). -/
def aluSbc (w a b e : Nat) : Alu := { aluSub w a b (e % 2) with e := some (if a < b + e % 2 then 1 else 0) }

/-- NEG (R79). -/
def aluNeg (w b : Nat) : Alu := { a := some (ofInt w (-(sval w b))), v := b = 2 ^ (w - 1) }

/-- ABS (R79). -/
def aluAbs (w b : Nat) : Alu := { a := some ((sval w b).natAbs % 2 ^ w), v := b = 2 ^ (w - 1) }

/-- MUL (R80). -/
def aluMul (w a b : Nat) : Alu :=
  let p := sval w a * sval w b
  { a := some (ofInt w p), e := some (ofInt (2 * w) p / 2 ^ w), v := !fitsS w p }

/-- MULU (R80). -/
def aluMulu (w a b : Nat) : Alu := { a := some (a * b % 2 ^ w), e := some (a * b / 2 ^ w) }

/-- DIV (R81): the quotient truncated toward zero, the remainder with the dividend's sign. -/
def aluDiv (w a b : Nat) : Alu :=
  if b = 0 then { a := some (2 ^ w - 1), e := some a, dz := true }
  else if a = 2 ^ (w - 1) && b = 2 ^ w - 1 then { a := some a, e := some 0, v := true }
  else { a := some (ofInt w ((sval w a).tdiv (sval w b))), e := some (ofInt w ((sval w a).tmod (sval w b))) }

/-- DIVU (R81). -/
def aluDivu (w a b : Nat) : Alu :=
  if b = 0 then { a := some (2 ^ w - 1), e := some a, dz := true } else { a := some (a / b), e := some (a % b) }

/-- SHL (R84). -/
def aluShl (w a c : Nat) : Nat := if w ≤ c then 0 else a * 2 ^ c % 2 ^ w
/-- SHR (R84). -/
def aluShr (w a c : Nat) : Nat := if w ≤ c then 0 else a / 2 ^ c
/-- SAR (R84). -/
def aluSar (w a c : Nat) : Nat := ofInt w (sval w a / (2 ^ min c w : Nat))
/-- ROL (R84). -/
def aluRol (w a c : Nat) : Nat := (a * 2 ^ (c % w) + a / 2 ^ (w - c % w)) % 2 ^ w
/-- ROR (R84). -/
def aluRor (w a c : Nat) : Nat := (a / 2 ^ (c % w) + a * 2 ^ (w - c % w)) % 2 ^ w

/-- LEN of a control operand of BFX and BFI (R85). -/
def bfLen (c : Nat) : Nat := min 32 (nbits c 13 8)

/-- BFX (R85). -/
def aluBfx (a c : Nat) : Nat :=
  let n := bfLen c
  let f := a / 2 ^ nbits c 4 0 % 2 ^ n
  if nbits c 15 15 = 1 && n != 0 && f.testBit (n - 1) then f + (2 ^ 32 - 2 ^ n) else f

/-- BFI (R85). -/
def aluBfi (a e c : Nat) : Nat :=
  let p := nbits c 4 0
  let m : Word := wd ((2 ^ bfLen c - 1) * 2 ^ p)
  ((wd a &&& ~~~ m) ||| (wd (e * 2 ^ p) &&& m)).toNat

/-- BSWAP (R86). -/
def aluBswap (w b : Nat) : Nat := leVal (le (w / 8) b).reverse

/-- HASH (R96). -/
def aluHash (a b : Nat) : Nat :=
  let h := a ^^^ b
  let h := h ^^^ (h / 2 ^ 16)
  let h := h * 0x7A3DC8E5 % 2 ^ 32
  let h := h ^^^ (h / 2 ^ 13)
  let h := h * 0x91B24F63 % 2 ^ 32
  h ^^^ (h / 2 ^ 16)

/-- Polynomial, in the reflected form, and register width that OPD bits 5:4 of CRC select (R95, R399). -/
def crcSel (sel : Nat) : Nat × Nat :=
  match sel with
  | 0 => (0xEDB88320, 32)
  | 1 => (0x82F63B78, 32)
  | 2 => (0x8408, 16)
  | _ => (0xE0, 8)

/-- CRC (R95). -/
def aluCrc (sel w e b : Nat) : Nat := crcRun (crcSel sel).1 (e % 2 ^ (crcSel sel).2) (le (w / 8) b)

/-- What an operation that reads an operand computes. `c` is the whole operand value, of which `b` is the low `w` bits. -/
def aluOf (i : Insn) (a32 e c : Nat) : Alu :=
  let w := i.width
  let a := a32 % 2 ^ w
  let b := c % 2 ^ w
  match i.op with
  | 0x01 => { a := some b }
  | 0x03 => { x := some b }
  | 0x05 => { y := some b }
  | 0x09 => aluAdd w a b 0
  | 0x0A => aluAdc w a b e
  | 0x0B => aluSub w a b 0
  | 0x0C => aluSbc w a b e
  | 0x0D => aluNeg w b
  | 0x0E => aluAbs w b
  | 0x0F => aluMul w a b
  | 0x10 => aluMulu w a b
  | 0x11 => aluDiv w a b
  | 0x12 => aluDivu w a b
  | 0x13 => { a := some (a &&& b) }
  | 0x14 => { a := some (a ||| b) }
  | 0x15 => { a := some (a ^^^ b) }
  | 0x16 => { a := some (aluShl w a c) }
  | 0x17 => { a := some (aluShr w a c) }
  | 0x18 => { a := some (aluSar w a c) }
  | 0x19 => { a := some (aluRol w a c) }
  | 0x1A => { a := some (aluRor w a c) }
  | 0x1B => { a := some (aluBfx a32 c) }
  | 0x1C => { a := some (aluBfi a32 e c) }
  | 0x1D => { a := some (aluBswap w b) }
  | 0x33 => { e := some (aluCrc (nbits i.opd 5 4) w e b) }
  | 0x34 => { a := some (aluHash a32 c) }
  | _ => {}

/-- Conditions of the compare forms (R87). -/
def condOf (op w a b : Nat) : Bool :=
  match op with
  | 0x21 => a = b
  | 0x22 => a != b
  | 0x23 => sval w a < sval w b
  | 0x24 => sval w b ≤ sval w a
  | 0x25 => sval w a ≤ sval w b
  | 0x26 => sval w b < sval w a
  | 0x27 => a < b
  | 0x28 => b ≤ a
  | 0x29 => a ≤ b
  | 0x2A => b < a
  | 0x2B => !fitsS w (sval w a + sval w b)
  | 0x2C => !fitsS w (sval w a - sval w b)
  | _ => (a &&& b) != 0

/-- PAND, PIOR and PXOR (R88). -/
def predOf (op : Nat) (x y : Bool) : Bool := if op = 0x1E then x && y else if op = 0x1F then x || y else x != y

end Sys2Proof.Machine
end

