-- ==== Sys2Proof/Machine/Uzoath.lean ====
section
/-! DEFINITION. The instructions of Uzoath (R71 to R108): the body of each, its issue, and the events that complete what a thread
has outstanding. -/

namespace Sys2Proof.Machine

open Reg

/-- What a body gives: the state and the cause raised after completion, 0 for none. -/
abbrev Body := Except Stop (State × Nat)

/-- Write the results of an operation (R55, R82): the register update first, then the destination and the flags. -/
def Thread.apply (x : Thread) (r : Alu) : Thread :=
  { x with
    a := (r.a.map wd).getD x.a
    e := (r.e.map wd).getD x.e
    x := (r.x.map wd).getD x.x
    y := (r.y.map wd).getD x.y
    st := x.st ||| (if r.v then 1 else 0) ||| (if r.dz then 2 else 0) }

/-- The cause that an operation's flags raise after completion: OVERFLOW under V_TRAP, DIVZERO under DZ_TRAP. -/
def Thread.flagTrap (x : Thread) (r : Alu) : Nat :=
  if r.v && bit x.st 9 then 9 else if r.dz && bit x.st 8 then 10 else 0

/-- Operations that read an operand and write registers: loads, arithmetic, logic, shifts, CRC and HASH. -/
def Uz.data_ (c : Uz) (s : State) : Body := do
  let m := c.opnd s
  let (s1, v) ← c.value s c.i.width m.1
  let x := s1.uz c
  let r := aluOf c.i x.a.toNat x.e.toNat v
  .ok (s1.modUz c fun x => ((m.2 x).apply r).advance c.next, x.flagTrap r)

/-- The compare forms (R49, R87). -/
def Uz.compare (c : Uz) (s : State) : Body := do
  let m := c.opnd s
  let w := c.i.width
  let (s1, v) ← c.value s w m.1
  let x := s1.uz c
  let t := condOf c.i.op w (x.a.toNat % 2 ^ w) (v % 2 ^ w)
  let t' := if c.i.gn then t && x.pred c.i.gp else t
  .ok (s1.modUz c fun x => ((m.2 x).setPred c.i.gp t').advance c.next, 0)

/-- Stores (R75): the value of the register before any update (R55). -/
def Uz.store_ (c : Uz) (s : State) : Body := do
  let m := c.opnd s
  let x := s.uz c
  let w := c.i.width
  let src := if c.i.op = 2 then x.a else if c.i.op = 4 then x.x else x.y
  let v := src.toNat % 2 ^ w
  match m.1 with
  | .reg n =>
    if x.privileged n v then .error (.trap s 2 c.pc)
    else .ok (s.modUz c fun x => (x.setReg n v).advance c.next, 0)
  | .ea a =>
    let s1 ← c.store s a (w / 8) v
    .ok (s1.modUz c fun x => (m.2 x).advance c.next, 0)
  | .imm _ => .ok (s, 0)

/-- LEA (R76). -/
def Uz.lea (c : Uz) (s : State) : Body :=
  let m := c.opnd s
  match m.1 with
  | .ea a => .ok (s.modUz c fun x => ({ (m.2 x) with a := wd a }).advance c.next, 0)
  | _ => .ok (s, 0)

/-- XCH (R77). -/
def Uz.xch (c : Uz) (s : State) : Body := do
  let m := c.opnd s
  let x := s.uz c
  let w := c.i.width
  let v := x.a.toNat % 2 ^ w
  match m.1 with
  | .reg n =>
    let t := x.reg c.th.thr.val c.next n % 2 ^ w
    if x.privileged n v then .error (.trap s 2 c.pc)
    else .ok (s.modUz c fun x => ({ (x.setReg n v) with a := wd t }).advance c.next, 0)
  | .ea a =>
    let (s1, t) ← c.atomic s a (w / 8) fun _ => some v
    .ok (s1.modUz c fun x => ({ (m.2 x) with a := wd t }).advance c.next, 0)
  | .imm _ => .ok (s, 0)

/-- PAND, PIOR and PXOR (R88). -/
def Uz.predOp (c : Uz) (s : State) : Body :=
  let o := c.i.opd
  let x := s.uz c
  let p := x.pred (nbits o 10 8) != o.testBit 11
  let q := x.pred (nbits o 6 4) != o.testBit 7
  .ok (s.modUz c fun x => (x.setPred (nbits o 14 12) (predOf c.i.op p q)).advance c.next, 0)

/-- A target of a transfer that is no instruction address (R89). -/
def Uz.badTarget (c : Uz) (t : Nat) : Bool := t % 4 != 0 || (c.th.fetchAt t).isNone

/-- The target of BR and CALL (R89). -/
def Uz.target (c : Uz) (s : State) : Nat :=
  match (c.opnd s).1 with
  | .imm v => (c.next + v) % 2 ^ 32
  | .ea a => a
  | .reg n => (s.uz c).reg c.th.thr.val c.next n

/-- BR (R89). -/
def Uz.br (c : Uz) (s : State) : Body :=
  let t := c.target s
  if c.badTarget t then .error (.trap s 3 t) else .ok (s.modUz c fun x => { x with pc := t }, 0)

/-- CALL (R89, R90). -/
def Uz.call (c : Uz) (s : State) : Body := do
  let t := c.target s
  if c.badTarget t then .error (.trap s 3 t)
  else
    let sp := ((s.uz c).sp - 4).toNat
    let s1 ← c.store s sp 4 c.next
    .ok (s1.modUz c fun x => { x with sp := wd sp, pc := t }, 0)

/-- RET (R89, R90). -/
def Uz.ret (c : Uz) (s : State) : Body := do
  let sp := (s.uz c).sp.toNat
  let (s1, t) ← c.load s sp 4
  if c.badTarget t then .error (.trap s1 3 t)
  else .ok (s1.modUz c fun x => { x with sp := wd (sp + 4), pc := t }, 0)

/-- `RET #1` (R69). -/
def Uz.retTrap (c : Uz) (s : State) : Body := do
  if !(s.uz c).system then .error (.trap s 2 c.pc)
  else
    let sp := (s.uz c).sp.toNat
    let (s1, pc) ← c.load s sp 4
    let (s2, st) ← c.load s1 ((sp + 4) % 2 ^ 32) 4
    let (s3, info) ← c.load s2 ((sp + 8) % 2 ^ 32) 4
    let (s4, _) ← c.load s3 ((sp + 12) % 2 ^ 32) 4
    if c.badTarget pc then .error (.trap s4 3 pc)
    else
      let left := nbits info 31 16
      let again := info.testBit 9 && left != 0
      .ok (s4.modUz c fun x => { x with
        sp := wd (sp + 16)
        st := wd st &&& stMask
        pc := if again then (pc + 4) % 2 ^ 32 else pc
        rep := if again then some { left := left, pc := pc } else none }, 0)

/-- RET in its two forms, by OPD. -/
def Uz.retOp (c : Uz) (s : State) : Body := if c.i.opd = 1 then c.retTrap s else c.ret s

/-- TRAP (R91). -/
def Uz.trap (c : Uz) (s : State) : Body := .ok (s.uzDone c, 11)

/-- REP (R92, R93). With K = 0 and no instruction memory at the following word, that word counts as one without an extension
word, and the fetch after it traps (DESIGN CHOICE, log entry 55). -/
def Uz.repOp (c : Uz) (s : State) : Body :=
  let k := (s.uz c).k.toNat
  if k = 0 then
    let long := match s.fetchWord c.th c.next with
      | some w => (Insn.ofWord w).hasExt
      | none => false
    .ok (s.modUz c fun x => { x with pc := (c.next + (if long then 8 else 4)) % 2 ^ 32 }, 0)
  else .ok (s.modUz c fun x => { x with rep := some { left := k, pc := c.pc }, pc := c.next }, 0)

/-- Whether local data memory holds a core address and `n` bytes from it. -/
def Uz.localRange (c : Uz) (a n : Nat) : Bool := a < c.th.data.2 && a + n ≤ c.th.data.2

/-- The first cause that a FETCH meets at issue, the lowest code first, with its address (R65, R97). A source that runs past the
end of local data memory, or of the boot ROM, gives the first byte beyond it; a destination that does gives its own address; and
of several the source comes first, then the destination, then the completion word (DESIGN CHOICE, log entry 55). -/
def Uz.fetchFault (c : Uz) (s : State) (ea : Nat) : Option (Nat × Nat) :=
  let x := s.uz c
  let n := fld x.e 8 0
  let inRom := c.th.tile = 0 && 0x40000000 ≤ ea && ea < 0x40020000
  let rom := inRom && ea + n ≤ 0x40020000
  if ea < 2 ^ 31 && !rom && !c.localRange ea n then some (5, if inRom then 0x40020000 else max ea c.th.data.2)
  else if !c.localRange x.a.toNat n then some (5, x.a.toNat)
  else if !c.localRange (4 * fld x.e 31 16) 4 then some (5, 4 * fld x.e 31 16)
  else if 2 ^ 31 ≤ ea && !bit (x.w (ea / 2 ^ 29 % 4)) 0 then some (6, ea)
  else none

/-- Core addresses below 2^31 as device addresses. -/
def Uz.localAddr (c : Uz) (ea : Nat) : Nat := if ea < 0x40000000 then c.th.data.1 + ea else 0x3000000000 + ea % 2 ^ 17

/-- FETCH (R97, R98). -/
def Uz.fetch (c : Uz) (s : State) : Body :=
  let m := c.opnd s
  let x := s.uz c
  match m.1 with
  | .ea ea =>
    match c.fetchFault s ea with
    | some (cause, a) => .error (.trap s cause a)
    | none =>
      let n := fld x.e 8 0
      let cw := 4 * fld x.e 31 16
      let isLocal := decide (ea < 2 ^ 31)
      if n = 0 then .ok ((s.wm (c.th.data.1 + cw) 4 (2 ^ 31)).modUz c fun x => (m.2 x).advance c.next, 0)
      else if 4 ≤ x.copies.length then .error .hold
      else
        let ord := !isLocal && bit (x.w (ea / 2 ^ 29 % 4)) 2
        let k : CopySlot :=
          { coreSrc := ea, devSrc := if isLocal then c.localAddr ea else window x ea, ordSrc := ord, isLocal := isLocal,
            dst := x.a.toNat, len := n, compl := cw, waits := if ord then x.posted.length else 0 }
        .ok (s.modUz c fun x => { ((m.2 x).advance c.next) with copies := x.copies ++ [k] }, 0)
  | _ => .ok (s, 0)

/-- FADD and CAS (R99). -/
def Uz.atomicOp (c : Uz) (s : State) : Body := do
  let m := c.opnd s
  let x := s.uz c
  match m.1 with
  | .ea a =>
    let f := fun (old : Nat) =>
      if c.i.op = 0x36 then some ((old + x.a.toNat) % 2 ^ 32) else if old = x.e.toNat then some x.a.toNat else none
    let (s1, old) ← c.atomic s a 4 f
    .ok (s1.modUz c fun x => ({ (m.2 x) with a := wd old }).advance c.next, 0)
  | _ => .ok (s, 0)

/-- FENCE (R61, R101): at once with nothing outstanding; otherwise the thread parks at it. -/
def Uz.fence (c : Uz) (s : State) : Body :=
  let x := s.uz c
  if x.posted.isEmpty && x.copies.isEmpty then .ok (s.uzDone c, 0) else .ok (s.modUz c fun x => { x with run := .fence }, 0)

/-- GETW (R102): the record's place is checked, and the thread parks until SCHED dispatches an item to it. ADDR of a record that
runs past the scratchpad is `ea` (DESIGN CHOICE, log entry 55). -/
def Uz.getw (c : Uz) (s : State) : Body :=
  let m := c.opnd s
  match m.1 with
  | .ea a =>
    if a % 4 != 0 then .error (.trap s 4 a)
    else if !c.localRange a 32 then .error (.trap s 5 a)
    else .ok ({ (s.modUz c fun x => { ((m.2 x).advance c.next) with run := .getw a s.order }) with order := s.order + 1 }, 0)
  | _ => .ok (s, 0)

/-- DONE (R103). -/
def Uz.done (c : Uz) (s : State) : Body := do
  let m := c.opnd s
  let (s1, v) ← c.value s 32 m.1
  let x := s1.uz c
  let msg : DoneMsg := { handle := x.item.getD 0, disp := wd v, key := c.th.key, waits := x.posted.length }
  let s2 := s1.modUz c fun x => { (x.advance c.next) with item := none }
  .ok ({ s2 with sched := { s2.sched with dones := s2.sched.dones ++ [msg] } }, 0)

/-- Eight or four word loads at consecutive core addresses (R104, R108). ADDR of one that faults is that word's own address
(DESIGN CHOICE, log entry 55). -/
def Uz.loads (c : Uz) (ea : Nat) : Nat → State → Except Stop (State × List Nat)
  | 0, s => .ok (s, [])
  | n + 1, s => do
    let (s1, v) ← c.load s (ea % 2 ^ 32) 4
    let (s2, l) ← c.loads (ea + 4) n s1
    .ok (s2, v :: l)

/-- ENQ (R104): the record goes to SCHED, and the thread parks until it answers. -/
def Uz.enq (c : Uz) (s : State) : Body := do
  let m := c.opnd s
  match m.1 with
  | .ea a =>
    let (s1, words) ← c.loads a 8 s
    let s2 := s1.modUz c fun x => { ((m.2 x).advance c.next) with run := .enq (c.i.opd % 8) }
    .ok ({ s2 with sched := { s2.sched with enqs := s2.sched.enqs ++ [(c.th.key, words)] } }, 0)
  | _ => .ok (s, 0)

/-- CANCEL (R105). -/
def Uz.cancel (c : Uz) (s : State) : Body := do
  let m := c.opnd s
  let (s1, h) ← c.value s 32 m.1
  let s2 := s1.modUz c fun x => { (x.advance c.next) with run := .cancel }
  .ok ({ s2 with sched := { s2.sched with cancels := s2.sched.cancels ++ [(c.th.key, h)] } }, 0)

/-- WAITEV (R106, R107): a pending entry is delivered at once; a timeout of 0 returns at once; else the thread parks. -/
def Uz.waitev (c : Uz) (s : State) : Body := do
  let m := c.opnd s
  let (s1, t) ← c.value s 32 m.1
  let tile := c.th.tile.val
  if t = 0 && (tget (fun _ => []) s1.evtIn tile).isEmpty then
    .ok (s1.modUz c fun x => { (x.advance c.next) with a := 0, e := 0 }, 0)
  else
    let f := uzMhz tile
    let due := if t = 0xFFFFFFFF then none else some (s1.clock + (t * 500 + f - 1) / f)
    let s2 := s1.modUz c fun x => { (x.advance c.next) with run := .waitev s1.order due }
    .ok (({ s2 with order := s1.order + 1 } : State).evtDeliver tile, 0)

/-- SEQW (R108, R148). -/
def Uz.seqw (c : Uz) (s : State) : Body := do
  let m := c.opnd s
  match m.1 with
  | .ea a =>
    let (s1, words) ← c.loads a 4 s
    let x := s1.uz c
    let s2 := s1.bankWrite (c.th.tile.val - 2) (fld x.a 10 10) (16 * fld x.a 9 0) (words.flatMap (le 4))
    .ok (s2.modUz c fun x => (m.2 x).advance c.next, 0)
  | _ => .ok (s, 0)

/-- The body of a legal instruction whose guard is true. -/
def Uz.body (c : Uz) (s : State) : Body :=
  match c.i.op with
  | 0x02 => c.store_ s
  | 0x04 => c.store_ s
  | 0x06 => c.store_ s
  | 0x07 => c.lea s
  | 0x08 => c.xch s
  | 0x1E => c.predOp s
  | 0x1F => c.predOp s
  | 0x20 => c.predOp s
  | 0x2E => c.br s
  | 0x2F => c.call s
  | 0x30 => c.retOp s
  | 0x31 => c.trap s
  | 0x32 => c.repOp s
  | 0x35 => c.fetch s
  | 0x36 => c.atomicOp s
  | 0x37 => c.atomicOp s
  | 0x38 => c.fence s
  | 0x39 => c.getw s
  | 0x3A => c.done s
  | 0x3B => c.enq s
  | 0x3C => c.cancel s
  | 0x3D => c.waitev s
  | 0x3E => c.seqw s
  | _ => if c.i.compare then c.compare s else c.data_ s

/-- A legal instruction issues: its guard is evaluated, its body runs, and a device access that parks it is left to its
response. -/
def Uz.run (c : Uz) (s : State) : State :=
  if !c.guard s then s.uzDone c
  else
    let r := c.body s
    match r with
    | .error .park => s.modUz c fun x => { x with run := .resp c.word c.ext }
    | _ => s.conclude c r

/-- The instruction that a thread can issue now, if its words are a legal form. -/
def State.nextInsn (s : State) (th : ThreadRef) : Option Uz :=
  if !s.canIssue th then none
  else match s.fetched th with
    | .insn c => some c
    | .trap _ _ => none

/-- The row of an operation: the thread issues it where it is what stands at PC; otherwise the event does not occur. -/
def State.issue (s : State) (th : ThreadRef) (want : Insn → Bool) : State :=
  match s.nextInsn th with
  | some c => if want c.i then c.run s else s
  | none => s

/-- ILLEGAL_INSTRUCTION (R64): the thread meets ILLEGAL or FETCH at the word it would issue, whatever the guard. -/
def execIllegalInstruction (th : ThreadRef) (s : State) : Host.Outcome State Fault Refusal :=
  .next <|
    if !s.canIssue th then s
    else match s.fetched th with
      | .trap cause addr => s.trapBefore th cause addr false
      | .insn _ => s

/-- LD (R75). -/
def execLd (th : ThreadRef) (s : State) : Host.Outcome State Fault Refusal :=
  .next <| s.issue th fun i => i.op = 0x01

/-- ST (R75). -/
def execSt (th : ThreadRef) (s : State) : Host.Outcome State Fault Refusal :=
  .next <| s.issue th fun i => i.op = 0x02

/-- LDX (R75). -/
def execLdx (th : ThreadRef) (s : State) : Host.Outcome State Fault Refusal :=
  .next <| s.issue th fun i => i.op = 0x03

/-- STX (R75). -/
def execStx (th : ThreadRef) (s : State) : Host.Outcome State Fault Refusal :=
  .next <| s.issue th fun i => i.op = 0x04

/-- LDY (R75). -/
def execLdy (th : ThreadRef) (s : State) : Host.Outcome State Fault Refusal :=
  .next <| s.issue th fun i => i.op = 0x05

/-- STY (R75). -/
def execSty (th : ThreadRef) (s : State) : Host.Outcome State Fault Refusal :=
  .next <| s.issue th fun i => i.op = 0x06

/-- LEA (R76). -/
def execLea (th : ThreadRef) (s : State) : Host.Outcome State Fault Refusal :=
  .next <| s.issue th fun i => i.op = 0x07

/-- XCH (R77). -/
def execXch (th : ThreadRef) (s : State) : Host.Outcome State Fault Refusal :=
  .next <| s.issue th fun i => i.op = 0x08

/-- ADD (R78). -/
def execAdd (th : ThreadRef) (s : State) : Host.Outcome State Fault Refusal :=
  .next <| s.issue th fun i => i.op = 0x09

/-- ADC (R78). -/
def execAdc (th : ThreadRef) (s : State) : Host.Outcome State Fault Refusal :=
  .next <| s.issue th fun i => i.op = 0x0A

/-- SUB (R78). -/
def execSub (th : ThreadRef) (s : State) : Host.Outcome State Fault Refusal :=
  .next <| s.issue th fun i => i.op = 0x0B

/-- SBC (R78). -/
def execSbc (th : ThreadRef) (s : State) : Host.Outcome State Fault Refusal :=
  .next <| s.issue th fun i => i.op = 0x0C

/-- NEG (R79). -/
def execNeg (th : ThreadRef) (s : State) : Host.Outcome State Fault Refusal :=
  .next <| s.issue th fun i => i.op = 0x0D

/-- ABS (R79). -/
def execAbs (th : ThreadRef) (s : State) : Host.Outcome State Fault Refusal :=
  .next <| s.issue th fun i => i.op = 0x0E

/-- MUL (R80). -/
def execMul (th : ThreadRef) (s : State) : Host.Outcome State Fault Refusal :=
  .next <| s.issue th fun i => i.op = 0x0F

/-- MULU (R80). -/
def execMulu (th : ThreadRef) (s : State) : Host.Outcome State Fault Refusal :=
  .next <| s.issue th fun i => i.op = 0x10

/-- DIV (R81). -/
def execDiv (th : ThreadRef) (s : State) : Host.Outcome State Fault Refusal :=
  .next <| s.issue th fun i => i.op = 0x11

/-- DIVU (R81). -/
def execDivu (th : ThreadRef) (s : State) : Host.Outcome State Fault Refusal :=
  .next <| s.issue th fun i => i.op = 0x12

/-- AND (R83). -/
def execAnd (th : ThreadRef) (s : State) : Host.Outcome State Fault Refusal :=
  .next <| s.issue th fun i => i.op = 0x13

/-- OR (R83). -/
def execOr (th : ThreadRef) (s : State) : Host.Outcome State Fault Refusal :=
  .next <| s.issue th fun i => i.op = 0x14

/-- XOR (R83). -/
def execXor (th : ThreadRef) (s : State) : Host.Outcome State Fault Refusal :=
  .next <| s.issue th fun i => i.op = 0x15

/-- SHL (R84). -/
def execShl (th : ThreadRef) (s : State) : Host.Outcome State Fault Refusal :=
  .next <| s.issue th fun i => i.op = 0x16

/-- SHR (R84). -/
def execShr (th : ThreadRef) (s : State) : Host.Outcome State Fault Refusal :=
  .next <| s.issue th fun i => i.op = 0x17

/-- SAR (R84). -/
def execSar (th : ThreadRef) (s : State) : Host.Outcome State Fault Refusal :=
  .next <| s.issue th fun i => i.op = 0x18

/-- ROL (R84). -/
def execRol (th : ThreadRef) (s : State) : Host.Outcome State Fault Refusal :=
  .next <| s.issue th fun i => i.op = 0x19

/-- ROR (R84). -/
def execRor (th : ThreadRef) (s : State) : Host.Outcome State Fault Refusal :=
  .next <| s.issue th fun i => i.op = 0x1A

/-- BFX (R85). -/
def execBfx (th : ThreadRef) (s : State) : Host.Outcome State Fault Refusal :=
  .next <| s.issue th fun i => i.op = 0x1B

/-- BFI (R85). -/
def execBfi (th : ThreadRef) (s : State) : Host.Outcome State Fault Refusal :=
  .next <| s.issue th fun i => i.op = 0x1C

/-- BSWAP (R86). -/
def execBswap (th : ThreadRef) (s : State) : Host.Outcome State Fault Refusal :=
  .next <| s.issue th fun i => i.op = 0x1D

/-- PAND (R88). -/
def execPand (th : ThreadRef) (s : State) : Host.Outcome State Fault Refusal :=
  .next <| s.issue th fun i => i.op = 0x1E

/-- PIOR (R88). -/
def execPior (th : ThreadRef) (s : State) : Host.Outcome State Fault Refusal :=
  .next <| s.issue th fun i => i.op = 0x1F

/-- PXOR (R88). -/
def execPxor (th : ThreadRef) (s : State) : Host.Outcome State Fault Refusal :=
  .next <| s.issue th fun i => i.op = 0x20

/-- CMP_EQ (R87). -/
def execCmpEq (th : ThreadRef) (s : State) : Host.Outcome State Fault Refusal :=
  .next <| s.issue th fun i => i.op = 0x21

/-- CMP_NE (R87). -/
def execCmpNe (th : ThreadRef) (s : State) : Host.Outcome State Fault Refusal :=
  .next <| s.issue th fun i => i.op = 0x22

/-- CMP_LT (R87). -/
def execCmpLt (th : ThreadRef) (s : State) : Host.Outcome State Fault Refusal :=
  .next <| s.issue th fun i => i.op = 0x23

/-- CMP_GE (R87). -/
def execCmpGe (th : ThreadRef) (s : State) : Host.Outcome State Fault Refusal :=
  .next <| s.issue th fun i => i.op = 0x24

/-- CMP_LE (R87). -/
def execCmpLe (th : ThreadRef) (s : State) : Host.Outcome State Fault Refusal :=
  .next <| s.issue th fun i => i.op = 0x25

/-- CMP_GT (R87). -/
def execCmpGt (th : ThreadRef) (s : State) : Host.Outcome State Fault Refusal :=
  .next <| s.issue th fun i => i.op = 0x26

/-- CMP_LO (R87). -/
def execCmpLo (th : ThreadRef) (s : State) : Host.Outcome State Fault Refusal :=
  .next <| s.issue th fun i => i.op = 0x27

/-- CMP_HS (R87). -/
def execCmpHs (th : ThreadRef) (s : State) : Host.Outcome State Fault Refusal :=
  .next <| s.issue th fun i => i.op = 0x28

/-- CMP_LS (R87). -/
def execCmpLs (th : ThreadRef) (s : State) : Host.Outcome State Fault Refusal :=
  .next <| s.issue th fun i => i.op = 0x29

/-- CMP_HI (R87). -/
def execCmpHi (th : ThreadRef) (s : State) : Host.Outcome State Fault Refusal :=
  .next <| s.issue th fun i => i.op = 0x2A

/-- CMP_VA (R87). -/
def execCmpVa (th : ThreadRef) (s : State) : Host.Outcome State Fault Refusal :=
  .next <| s.issue th fun i => i.op = 0x2B

/-- CMP_VS (R87). -/
def execCmpVs (th : ThreadRef) (s : State) : Host.Outcome State Fault Refusal :=
  .next <| s.issue th fun i => i.op = 0x2C

/-- TST (R87). -/
def execTst (th : ThreadRef) (s : State) : Host.Outcome State Fault Refusal :=
  .next <| s.issue th fun i => i.op = 0x2D

/-- BR (R89). -/
def execBr (th : ThreadRef) (s : State) : Host.Outcome State Fault Refusal :=
  .next <| s.issue th fun i => i.op = 0x2E

/-- CALL (R89). -/
def execCall (th : ThreadRef) (s : State) : Host.Outcome State Fault Refusal :=
  .next <| s.issue th fun i => i.op = 0x2F

/-- RET (R90). -/
def execRet (th : ThreadRef) (s : State) : Host.Outcome State Fault Refusal :=
  .next <| s.issue th fun i => i.op = 0x30 && i.opd = 0

/-- RET_TRAP (R69). -/
def execRetTrap (th : ThreadRef) (s : State) : Host.Outcome State Fault Refusal :=
  .next <| s.issue th fun i => i.op = 0x30 && i.opd = 1

/-- TRAP (R91). -/
def execTrap (th : ThreadRef) (s : State) : Host.Outcome State Fault Refusal :=
  .next <| s.issue th fun i => i.op = 0x31

/-- REP (R92). -/
def execRep (th : ThreadRef) (s : State) : Host.Outcome State Fault Refusal :=
  .next <| s.issue th fun i => i.op = 0x32

/-- CRC (R95). -/
def execCrc (th : ThreadRef) (s : State) : Host.Outcome State Fault Refusal :=
  .next <| s.issue th fun i => i.op = 0x33

/-- HASH (R96). -/
def execHash (th : ThreadRef) (s : State) : Host.Outcome State Fault Refusal :=
  .next <| s.issue th fun i => i.op = 0x34

/-- FETCH (R97). -/
def execFetch (th : ThreadRef) (s : State) : Host.Outcome State Fault Refusal :=
  .next <| s.issue th fun i => i.op = 0x35

/-- FADD (R99). -/
def execFadd (th : ThreadRef) (s : State) : Host.Outcome State Fault Refusal :=
  .next <| s.issue th fun i => i.op = 0x36

/-- CAS (R99). -/
def execCas (th : ThreadRef) (s : State) : Host.Outcome State Fault Refusal :=
  .next <| s.issue th fun i => i.op = 0x37

/-- FENCE (R101). -/
def execFence (th : ThreadRef) (s : State) : Host.Outcome State Fault Refusal :=
  .next <| s.issue th fun i => i.op = 0x38

/-- GETW (R102). -/
def execGetw (th : ThreadRef) (s : State) : Host.Outcome State Fault Refusal :=
  .next <| s.issue th fun i => i.op = 0x39

/-- DONE (R103). -/
def execDone (th : ThreadRef) (s : State) : Host.Outcome State Fault Refusal :=
  .next <| s.issue th fun i => i.op = 0x3A

/-- ENQ (R104). -/
def execEnq (th : ThreadRef) (s : State) : Host.Outcome State Fault Refusal :=
  .next <| s.issue th fun i => i.op = 0x3B

/-- CANCEL (R105). -/
def execCancel (th : ThreadRef) (s : State) : Host.Outcome State Fault Refusal :=
  .next <| s.issue th fun i => i.op = 0x3C

/-- WAITEV (R106). -/
def execWaitev (th : ThreadRef) (s : State) : Host.Outcome State Fault Refusal :=
  .next <| s.issue th fun i => i.op = 0x3D

/-- SEQW (R108). -/
def execSeqw (th : ThreadRef) (s : State) : Host.Outcome State Fault Refusal :=
  .next <| s.issue th fun i => i.op = 0x3E

/-! What completes later. -/

/-- THREAD_RESPONSE_ARRIVE (R57, R59, R60): the device accesses that park a thread reach their target once the order of R59 and
R60 lets them, and the instruction completes or traps. -/
def execThreadResponseArrive (th : ThreadRef) (dataErr : Bool) (s : State) : Host.Outcome State Fault Refusal :=
  .next <|
    let x := s.thread th.key
    match x.run with
    | .resp word ext =>
      let c : Uz := { th := th, i := Insn.ofWord word, ext := ext, pc := x.pc, arrived := true, dataErr := dataErr }
      let s1 := s.setThread th.key { x with run := .running }
      match c.body s1 with
      | .error .park => s
      | .error .hold => s
      | r => s1.conclude c r
    | .frame cause addr saved info =>
      let s1 := s.setThread th.key { x with run := .running }
      if x.devBusy then s else s1.trapEnter th cause addr saved info
    | _ => s

/-- A thread parked in FENCE with nothing outstanding goes on: past it, or to the imprecise trap that is taken first (R101). -/
def State.fenceCheck (s : State) (th : ThreadRef) : State :=
  let x := s.thread th.key
  if x.run = .fence && x.posted.isEmpty && x.copies.isEmpty then
    if x.traps.isEmpty || x.inTrap then s.setThread th.key { (x.advance ((x.pc + 4) % 2 ^ 32)) with run := .running }
    else s.setThread th.key { x with run := .running }
  else s

/-- Drop the element at a place of a list. -/
def dropNth {α : Type} : Nat → List α → List α
  | _, [] => []
  | 0, _ :: l => l
  | n + 1, a :: l => a :: dropNth n l

/-- POSTED_STORE_COMPLETE (R58, R68): the `n`th outstanding store reaches its target; stores to one word reach it in program
order (DEDUCED, log entry 34). -/
def execPostedStoreComplete (th : ThreadRef) (n : Fin 8) (s : State) : Host.Outcome State Fault Refusal :=
  .next <|
    let x := s.thread th.key
    match x.posted[n.val]? with
    | none => s
    | some p =>
      if (x.posted.take n.val).any fun q => q.dev / 4 = p.dev / 4 then s
      else
        let r := s.busWrite (.tile th.tile) p.dev (le p.size p.val)
        let y := r.1.thread th.key
        let s1 := r.1.setThread th.key { y with
          posted := dropNth n.val y.posted
          postHold := y.postHold && n.val != 0
          copies := y.copies.map fun (k : CopySlot) => if n.val < k.waits then { k with waits := k.waits - 1 } else k
          traps := if r.2 = .decode then y.traps ++ [{ cause := 7, addr := p.core, posted := true }] else y.traps }
        (s1.postedDone th.key n.val).fenceCheck th

/-- FETCH_COPY_COMPLETE (R60, R97, R98): the `n`th copy reads its whole source, writes destination and completion word and frees
its slot, or fails with an imprecise trap. -/
def execFetchCopyComplete (th : ThreadRef) (n : Fin 4) (dataErr : Bool) (s : State) : Host.Outcome State Fault Refusal :=
  .next <|
    let x := s.thread th.key
    match x.copies[n.val]? with
    | none => s
    | some k =>
      if k.ordSrc && (k.waits != 0 || (x.copies.take n.val).any fun q => !q.isLocal) then s
      else
        let r : State × BusRes × List Byte := if k.isLocal then (s, .ok, s.rbytes k.devSrc k.len)
          else s.busRead (.tile th.tile) k.devSrc k.len
        let bad := !k.isLocal && dataErr && r.2.1 = .ok && k.devSrc < storeEnd
        let s0 := if bad then r.1.eccFail (portOf th.tile.val) (k.devSrc / 32 * 32) true else r.1
        let y := s0.thread th.key
        let base := th.data.1
        let s1 :=
          if r.2.1 = .ok && !bad then
            ((s0.setThread th.key { y with copies := dropNth n.val y.copies }).wbytes (base + k.dst) r.2.2).wm
              (base + k.compl) 4 (2 ^ 31 + k.len)
          else
            (s0.setThread th.key { y with
              copies := dropNth n.val y.copies
              traps := y.traps ++ [{ cause := if r.2.1 = .decode then 7 else 8, addr := k.coreSrc, posted := false }] }).wm
              (base + k.compl) 4 (2 ^ 31 + 2 ^ 30)
        s1.fenceCheck th

/-- IMPRECISE_TRAP (R68, R98): the oldest held trap is taken at an instruction boundary while IN_TRAP is 0. -/
def execImpreciseTrap (th : ThreadRef) (s : State) : Host.Outcome State Fault Refusal :=
  .next <|
    let x := s.thread th.key
    match x.traps with
    | [] => s
    | h :: rest =>
      let s1 := s.setThread th.key { x with traps := rest }
      if x.inTrap || !(s.setThread th.key { x with traps := [] }).canIssue th then s
      else s1.trapBefore th h.cause h.addr h.posted

/-- WAITEV_TIMEOUT (R106). -/
def execWaitevTimeout (th : ThreadRef) (s : State) : Host.Outcome State Fault Refusal :=
  .next <|
    let x := s.thread th.key
    match x.run with
    | .waitev _ (some due) => if s.clock < due then s else s.setThread th.key { x with a := 0, e := 0, run := .running }
    | _ => s

end Sys2Proof.Machine
end

