-- ==== Sys2Proof/Machine/Boot.lean ====
section
/-! DEFINITION. The boot ROM (R42, R460 to R463): images and their checks, the slot tables of the flash, boot from flash, host and
UART; and the end of a CR command (R473), which hashes and verifies as the ROM does. -/

namespace Sys2Proof.Machine

open Reg

/-- Octets as numbers. -/
def nats (l : List Byte) : List Nat := l.map (·.toNat)

/-! CR commands (R473). -/

/-- The part of line `i` of 64 bytes that lies in the range of `n` bytes at `a`: its address and its length. -/
def linePart (a n i : Nat) : Nat × Nat := (max a (64 * i), min (a + n) (64 * i + 64) - max a (64 * i))

/-- A range of device addresses read line by line by a requester. -/
def State.readLines (s : State) (by_ : Req) (a n : Nat) : State × List Byte :=
  (List.range ((a % 64 + n + 63) / 64)).foldl (fun (r : State × List Byte) i =>
    let p := linePart a n (a / 64 + i)
    let q := r.1.busRead by_ p.1 p.2
    (q.1, r.2 ++ q.2.2)) (s, [])

/-- Store a digest in CR_DIGEST, its first byte in bits 7:0 of the first word. -/
def State.putDigest (s : State) (d : List Nat) : State :=
  (groups 4 12 d).zipIdx.foldl (fun (s : State) p => s.wr (PRIV.CR_DIGEST p.2) (wd (ofBe p.1.reverse))) s

/-- CR_DONE (R473): HASH leaves its digest; VERIFY sets OK where the signature verifies. -/
def execCrDone (s : State) : Host.Outcome State Fault Refusal :=
  .next <|
    match s.mgmt.cr with
    | none => s
    | some verify =>
      let s0 := s.modMgmt fun x => { x with cr := none }
      let r := s0.readLines (.tile 0) ((s.rd PRIV.CR_SRC_HI).toNat * 2 ^ 32 + (s.rd PRIV.CR_SRC_LO).toNat)
        (s.rd PRIV.CR_LEN).toNat
      let ok := ecdsaVerify (nats s.crDigest) (nats (s.sramBytes (s.rd PRIV.CR_KEY).toNat 96))
        (nats (s.sramBytes (s.rd PRIV.CR_SIG).toNat 96))
      let s1 := if verify then s0 else r.1.putDigest (sha384 (nats r.2))
      (s1.pathPost PRIV.CR_RES 8 (s.pathTag PRIV.CR_RES 8) (b2n (!verify || ok) * 2 ^ 29)).evt 0 21

/-! Images (R463). -/

/-- A little-endian field of `n` bytes at an offset; bytes that are absent read as 0. -/
def leAt (l : List Byte) (o n : Nat) : Nat := ofBe ((nats ((l.drop o).take n)).reverse)

/-- LENGTH of an image. -/
def imgLength (l : List Byte) : Nat := leAt l 12 4
/-- LOAD of an image. -/
def imgLoad (l : List Byte) : Nat := leAt l 16 4
/-- ENTRY of an image. -/
def imgEntry (l : List Byte) : Nat := leAt l 20 4
/-- SVN of an image. -/
def imgSvn (l : List Byte) : Nat := leAt l 8 4
/-- The body of an image. -/
def imgBody (l : List Byte) : List Byte := (l.drop 512).take (imgLength l)

/-- The header passes check 1. -/
def imgHdrOk (l : List Byte) : Bool :=
  let n := imgLength l
  let o := imgLoad l
  let e := imgEntry l
  leAt l 0 4 = 0x494B4852 && leAt l 4 2 = 1 && n != 0 && n % 4 = 0 && o + n ≤ 491520 && o ≤ e && e < o + n && e % 4 = 0

/-- Octets of the OTP. -/
def State.otpBytes (s : State) (o n : Nat) : List Byte := s.rbytes (privBase + o) n

/-- CFG.SECURE_EN. -/
def State.secure (s : State) : Bool := bit s.otpCfg 0

/-- The ROLLBACK floor: the number of its bits that are set. -/
def State.rollback (s : State) : Nat := ((List.range 64).filter fun i => (s.rm (privBase + 0xD8) 8).testBit i).length

/-- The key of an image is the one the OTP names, and is not revoked. -/
def State.imgKeyOk (s : State) (l : List Byte) : Bool :=
  let k := leAt l 6 1
  k < 4 && nats (s.otpBytes (0x10 + 0x30 * k) 48) = sha384 (nats ((l.drop 72).take 96)) && !(s.rm (privBase + 0xD0) 4).testBit k

/-- The signature of an image verifies. -/
def imgSigOk (l : List Byte) : Bool :=
  ecdsaVerify (sha384 (nats (l.take 168))) (nats ((l.drop 72).take 96)) (nats ((l.drop 168).take 96))

/-- The result code of an image: 0 where every check passes (R463). -/
def State.imgCode (s : State) (l : List Byte) : Nat :=
  if !imgHdrOk l then 1
  else if s.secure && !s.imgKeyOk l then 2
  else if s.secure && !imgSigOk l then 3
  else if sha384 (nats (imgBody l)) != nats ((l.drop 24).take 48) then 4
  else if imgSvn l < s.rollback then 5
  else 0

/-- The ROM's outcome is recorded: BOOT_STATUS; `svn` is that of the image started. -/
def State.bootStatus (s : State) (source resA resB svn : Nat) : State :=
  s.wr MGMT.BOOT_STATUS (wd (b2n s.secure * 2 ^ 31 + s.mgmt.cause % 8 * 2 ^ 28 + s.mgmt.mode % 4 * 2 ^ 26 + source % 4 * 2 ^ 24
    + resA % 8 * 2 ^ 21 + resB % 8 * 2 ^ 18 + svn % 128))

/-- The BOOT record of the event log (R464). -/
def State.bootRecord (s : State) : State :=
  s.logRec 0 7 (s.rf MGMT.BOOT_STATUS 15 0) (s.rd MGMT.BOOT_STATUS).toNat 0 0 0

/-- What the ROM leaves in the top 32 KiB of SRAM, its own until the jump: a free value (DESIGN CHOICE, log entry 35). -/
def State.romOwn (s : State) : State :=
  let f := s.free (8 * 0x8000)
  (s.took).sramPut 0x78000 (le 0x8000 f)

/-- A thread of MGMT as the ROM hands it to an image: at ENTRY; its work registers hold what the ROM left there, a free value
(DESIGN CHOICE, log entry 35). -/
def bootThread (f entry : Nat) : Thread :=
  { run := .running
    pc := entry
    a := wd (nbits f 31 0)
    e := wd (nbits f 63 32)
    x := wd (nbits f 95 64)
    y := wd (nbits f 127 96)
    sp := wd (nbits f 159 128)
    k := BitVec.ofNat 16 (nbits f 175 160)
    w0 := wd (nbits f 223 192)
    w1 := wd (nbits f 255 224)
    w2 := wd (nbits f 287 256)
    w3 := wd (nbits f 319 288) }

/-- A verified image is started: its body stands at LOAD, MGMT enters READY and its threads run at ENTRY. -/
def State.startImage (s : State) (l : List Byte) (source resA resB : Nat) : State :=
  let f := s.free 1024
  let s1 := s.took.romOwn.sramPut (imgLoad l) (imgBody l)
  let svn := if imgSvn l ≤ 64 then imgSvn l else nbits f 1007 1000 % 65
  let s2 := (s1.bootStatus source resA resB svn).modMgmt fun x => { x with phase := .done }
  let s3 := (s2.setThread (threadKey 0 0 0) (bootThread f (imgEntry l))).setThread (threadKey 0 0 1)
    (bootThread (f / 2 ^ 400) (imgEntry l))
  (s3.enter 0 .ready).bootRecord

/-! Flash boot (R461). -/

/-- A slot of a slot table. -/
structure BootSlot where
  ofs : Nat
  seq : Nat
  state : Nat

/-- The slot table at a flash offset, where its MAGIC and CRC are correct. -/
def State.slotTable (s : State) (o : Nat) : Option (List Byte) :=
  let l := s.flashBytes o 64
  if leAt l 0 4 = 0x544C5352 && leAt l 60 4 = crc32 (l.take 60) then some l else none

/-- The slot table in force: of the correct ones that with the higher GEN; of equals either one, as `pick` says (DESIGN CHOICE, log entry 35). -/
def State.slotTables (s : State) (pick : Bool) : Option (List Byte) :=
  match s.slotTable 0, s.slotTable 0x1000 with
  | some a, some b => some (if leAt a 4 4 < leAt b 4 4 || (leAt a 4 4 = leAt b 4 4 && pick) then b else a)
  | some a, none => some a
  | none, b => b

/-- Slot A (0) or B (1) of a slot table. -/
def tableSlot (l : List Byte) (n : Nat) : BootSlot :=
  { ofs := leAt l (8 + 12 * n) 4
    seq := leAt l (12 + 12 * n) 4
    state := leAt l (16 + 12 * n) 1 }

/-- The slots in the order the ROM tries them: candidates by descending SEQ; of equals either first, as `pick` says. -/
def slotOrder (l : List Byte) (pick : Bool) : List Nat :=
  let a := (tableSlot l 0).seq
  let b := (tableSlot l 1).seq
  (if a < b || (a = b && pick) then [1, 0] else [0, 1]).filter fun n =>
    (tableSlot l n).state = 1 || (tableSlot l n).state = 2

/-- The image in a slot of the flash. -/
def State.slotImage (s : State) (o : Nat) : List Byte :=
  let h := s.flashBytes o 512
  if imgHdrOk h then h ++ s.flashBytes (o + 512) (imgLength h) else h

/-- A result for slot A or B. -/
def slotRes (r : Nat × Nat) (n v : Nat) : Nat × Nat := if n = 0 then (v, r.2) else (r.1, v)

/-- The slots are tried in turn: the slot that passes, if any, with its image, and RES_A and RES_B. -/
def State.trySlots (s : State) (l : List Byte) : List Nat → Nat × Nat → Option (Nat × List Byte) × Nat × Nat
  | [], r => (none, r)
  | n :: rest, r =>
    let q := tableSlot l n
    if q.state = 1 && s.rf MGMT.TRIAL 1 0 = n + 1 then s.trySlots l rest (slotRes r n 7)
    else
      let im := s.slotImage q.ofs
      let c := s.imgCode im
      if c = 0 then (some (n, im), slotRes r n 0) else s.trySlots l rest (slotRes r n c)

/-- Host boot begins (R462): the ROM asks for STORE and HOST in READY; on a restart it changes no other tile (R460). -/
def State.hostBoot (s : State) (resA resB : Nat) : State :=
  let s1 := s.modMgmt fun x => { x with phase := .host resA resB }
  if 2 ≤ s.mgmt.cause then s1
  else [8, 16].foldl (fun (s : State) t => if s.life t = .ready then s else s.request t 4 0) s1

/-- UART boot begins (R462). -/
def State.uartBoot (s : State) (resA resB : Nat) : State := s.modMgmt fun x => { x with phase := .uart resA resB }

/-- No slot passes (R461): host boot, UART boot, or a halt, with SOURCE and SVN free values as no image was started. -/
def State.bootFallback (s : State) (resA resB : Nat) : State :=
  if !bit s.otpCfg 3 then s.hostBoot resA resB
  else if !bit s.otpCfg 2 then s.uartBoot resA resB
  else
    let f := s.free 16
    ((s.took.bootStatus (f % 4) resA resB (f / 4 % 65)).modMgmt fun x => { x with phase := .halted }).bootRecord

/-- Flash boot: before a TRIAL slot is started, TRIAL.SLOT names it. -/
def State.flashBoot (s : State) : State :=
  let f := s.free 2
  let s0 := s.took
  match s.slotTables (f.testBit 0) with
  | none => s0.bootFallback 6 6
  | some l =>
    match s.trySlots l (slotOrder l (f.testBit 1)) (6, 6) with
    | (some (n, im), r) =>
      let s1 := if (tableSlot l n).state = 1 then s0.wf MGMT.TRIAL 1 0 (n + 1) else s0
      s1.startImage im n r.1 r.2
    | (none, r) => s0.bootFallback r.1 r.2

/-- ROM_BOOT (R42, R460): the trap vectors come from the ROM, and the ROM boots from flash on a restart, else as BOOT_MODE
says. -/
def execRomBoot (s : State) : Host.Outcome State Fault Refusal :=
  .next <|
    if s.inReset || s.mgmt.phase != .rom || s.life 0 != .reset then s
    else
      let s1 := s.sramPut 0 (s.rbytes 0x3000000000 256)
      if 2 ≤ s.mgmt.cause || s.mgmt.mode = 0 || s.mgmt.mode = 3 then s1.flashBoot
      else if s.mgmt.mode = 1 then s1.hostBoot 6 6
      else s1.uartBoot 6 6

/-- HOST_BOOT_IMAGE (R462): the ROM takes OP 0x0001 of MBX[0], verifies the image it names and answers with the code. It has
retired the results of its own two requests by then (DESIGN CHOICE, log entry 35). -/
def execHostBootImage (s : State) : Host.Outcome State Fault Refusal :=
  .next <|
    match s.mgmt.phase with
    | .host resA resB =>
      let cmd := s.rd (HOST.MBX_W4 0)
      if !s.live 16 || !s.live 8 || !s.rbit (HOST.MBX_W5 0) 30 || fld cmd 31 16 != 1 then s
      else
        let a := s.rf (HOST.MBX_W1 0) 7 0 * 2 ^ 32 + (s.rd (HOST.MBX_W0 0)).toNat
        let s0 := if 2 ≤ s.mgmt.cause then s else (s.ctlAck 8 0).ctlAck 16 0
        let r := s0.readLines (.tile 0) a (s.rd (HOST.MBX_W2 0)).toNat
        let c := r.1.imgCode r.2
        let s1 := r.1.mbxPost (.tile 0) 0 c (s.rf (HOST.MBX_W5 0) 7 0)
        if c = 0 then s1.startImage r.2 2 resA resB else s1
    | _ => s

/-- UART_BOOT_IMAGE (R462): an image received over UART0 is verified; the ROM answers with one byte. -/
def execUartBootImage (image : List Byte) (s : State) : Host.Outcome State Fault Refusal :=
  .next <|
    match s.mgmt.phase with
    | .uart resA resB =>
      let c := s.imgCode image
      let s1 := s.modMgmt fun x => { x with uartOut := x.uartOut ++ [BitVec.ofNat 8 c] }
      if c = 0 then s1.startImage image 3 resA resB else s1
    | _ => s

end Sys2Proof.Machine
end

