-- ==== Sys2Proof/Machine/Dispatch.lean ====
section
/-! DEFINITION. The one dispatch: each command to its meaning. -/

namespace Sys2Proof.Machine

def exec (i : Instr) (s : State) : Host.Outcome State Fault Refusal :=
  match i with
  | .reqStateOff t tag lock => Sys2Proof.Machine.execReqStateOff t tag lock s
  | .reqStateReset t tag lock => Sys2Proof.Machine.execReqStateReset t tag lock s
  | .reqStateSelftest t tag lock => Sys2Proof.Machine.execReqStateSelftest t tag lock s
  | .reqStateCalibrate t tag lock => Sys2Proof.Machine.execReqStateCalibrate t tag lock s
  | .reqStateReady t tag lock => Sys2Proof.Machine.execReqStateReady t tag lock s
  | .reqStateHeld t tag lock => Sys2Proof.Machine.execReqStateHeld t tag lock s
  | .reqStateRefusedCode t tag lock code => Sys2Proof.Machine.execReqStateRefusedCode t tag lock code s
  | .tileCtlLockTag t tag lock => Sys2Proof.Machine.execTileCtlLockTag t tag lock s
  | .tileCtlAck t tag => Sys2Proof.Machine.execTileCtlAck t tag s
  | .tileResetReached t => Sys2Proof.Machine.execTileResetReached t s
  | .tileOffReached t => Sys2Proof.Machine.execTileOffReached t s
  | .offToResetDone t => Sys2Proof.Machine.execOffToResetDone t s
  | .selftestDone t found => Sys2Proof.Machine.execSelftestDone t found s
  | .calibrateDone t failed => Sys2Proof.Machine.execCalibrateDone t failed s
  | .resumeReadyDone t => Sys2Proof.Machine.execResumeReadyDone t s
  | .drainComplete t => Sys2Proof.Machine.execDrainComplete t s
  | .drainTimeout t => Sys2Proof.Machine.execDrainTimeout t s
  | .tileErrWrite t firstValid multi early reqDrop => Sys2Proof.Machine.execTileErrWrite t firstValid multi early reqDrop s
  | .cntClr t => Sys2Proof.Machine.execCntClr t s
  | .evtPendClear t bits => Sys2Proof.Machine.execEvtPendClear t bits s
  | .evtMaskWrite t mask => Sys2Proof.Machine.execEvtMaskWrite t mask s
  | .eventMessageArrive n => Sys2Proof.Machine.execEventMessageArrive n s
  | .registerWrite by_ addr size val => Sys2Proof.Machine.execRegisterWrite by_ addr size val s
  | .deviceAccessResponse issuer acc => Sys2Proof.Machine.execDeviceAccessResponse issuer acc s
  | .flitReceive t link data check => Sys2Proof.Machine.execFlitReceive t link data check s
  | .islandLockLoss t island => Sys2Proof.Machine.execIslandLockLoss t island s
  | .islandRelock t island => Sys2Proof.Machine.execIslandRelock t island s
  | .sramUncorrectable t unit addr => Sys2Proof.Machine.execSramUncorrectable t unit addr s
  | .illegalInstruction th => Sys2Proof.Machine.execIllegalInstruction th s
  | .ld th => Sys2Proof.Machine.execLd th s
  | .st th => Sys2Proof.Machine.execSt th s
  | .ldx th => Sys2Proof.Machine.execLdx th s
  | .stx th => Sys2Proof.Machine.execStx th s
  | .ldy th => Sys2Proof.Machine.execLdy th s
  | .sty th => Sys2Proof.Machine.execSty th s
  | .lea th => Sys2Proof.Machine.execLea th s
  | .xch th => Sys2Proof.Machine.execXch th s
  | .add th => Sys2Proof.Machine.execAdd th s
  | .adc th => Sys2Proof.Machine.execAdc th s
  | .sub th => Sys2Proof.Machine.execSub th s
  | .sbc th => Sys2Proof.Machine.execSbc th s
  | .neg th => Sys2Proof.Machine.execNeg th s
  | .abs th => Sys2Proof.Machine.execAbs th s
  | .mul th => Sys2Proof.Machine.execMul th s
  | .mulu th => Sys2Proof.Machine.execMulu th s
  | .div th => Sys2Proof.Machine.execDiv th s
  | .divu th => Sys2Proof.Machine.execDivu th s
  | .and th => Sys2Proof.Machine.execAnd th s
  | .or th => Sys2Proof.Machine.execOr th s
  | .xor th => Sys2Proof.Machine.execXor th s
  | .shl th => Sys2Proof.Machine.execShl th s
  | .shr th => Sys2Proof.Machine.execShr th s
  | .sar th => Sys2Proof.Machine.execSar th s
  | .rol th => Sys2Proof.Machine.execRol th s
  | .ror th => Sys2Proof.Machine.execRor th s
  | .bfx th => Sys2Proof.Machine.execBfx th s
  | .bfi th => Sys2Proof.Machine.execBfi th s
  | .bswap th => Sys2Proof.Machine.execBswap th s
  | .pand th => Sys2Proof.Machine.execPand th s
  | .pior th => Sys2Proof.Machine.execPior th s
  | .pxor th => Sys2Proof.Machine.execPxor th s
  | .cmpEq th => Sys2Proof.Machine.execCmpEq th s
  | .cmpNe th => Sys2Proof.Machine.execCmpNe th s
  | .cmpLt th => Sys2Proof.Machine.execCmpLt th s
  | .cmpGe th => Sys2Proof.Machine.execCmpGe th s
  | .cmpLe th => Sys2Proof.Machine.execCmpLe th s
  | .cmpGt th => Sys2Proof.Machine.execCmpGt th s
  | .cmpLo th => Sys2Proof.Machine.execCmpLo th s
  | .cmpHs th => Sys2Proof.Machine.execCmpHs th s
  | .cmpLs th => Sys2Proof.Machine.execCmpLs th s
  | .cmpHi th => Sys2Proof.Machine.execCmpHi th s
  | .cmpVa th => Sys2Proof.Machine.execCmpVa th s
  | .cmpVs th => Sys2Proof.Machine.execCmpVs th s
  | .tst th => Sys2Proof.Machine.execTst th s
  | .br th => Sys2Proof.Machine.execBr th s
  | .call th => Sys2Proof.Machine.execCall th s
  | .ret th => Sys2Proof.Machine.execRet th s
  | .retTrap th => Sys2Proof.Machine.execRetTrap th s
  | .trap th => Sys2Proof.Machine.execTrap th s
  | .rep th => Sys2Proof.Machine.execRep th s
  | .crc th => Sys2Proof.Machine.execCrc th s
  | .hash th => Sys2Proof.Machine.execHash th s
  | .fetch th => Sys2Proof.Machine.execFetch th s
  | .fadd th => Sys2Proof.Machine.execFadd th s
  | .cas th => Sys2Proof.Machine.execCas th s
  | .fence th => Sys2Proof.Machine.execFence th s
  | .getw th => Sys2Proof.Machine.execGetw th s
  | .done th => Sys2Proof.Machine.execDone th s
  | .enq th => Sys2Proof.Machine.execEnq th s
  | .cancel th => Sys2Proof.Machine.execCancel th s
  | .waitev th => Sys2Proof.Machine.execWaitev th s
  | .seqw th => Sys2Proof.Machine.execSeqw th s
  | .threadResponseArrive th dataErr => Sys2Proof.Machine.execThreadResponseArrive th dataErr s
  | .postedStoreComplete th n => Sys2Proof.Machine.execPostedStoreComplete th n s
  | .impreciseTrap th => Sys2Proof.Machine.execImpreciseTrap th s
  | .fetchCopyComplete th n dataErr => Sys2Proof.Machine.execFetchCopyComplete th n dataErr s
  | .waitevTimeout th => Sys2Proof.Machine.execWaitevTimeout th s
  | .rfTune by_ r tag => Sys2Proof.Machine.execRfTune by_ r tag s
  | .rfCalAll by_ r tag => Sys2Proof.Machine.execRfCalAll by_ r tag s
  | .rfFemScan by_ r tag => Sys2Proof.Machine.execRfFemScan by_ r tag s
  | .rfChainOff by_ r tag chain => Sys2Proof.Machine.execRfChainOff by_ r tag chain s
  | .rfChainOn by_ r tag chain => Sys2Proof.Machine.execRfChainOn by_ r tag chain s
  | .rfCmdIllegalOp by_ r tag op => Sys2Proof.Machine.execRfCmdIllegalOp by_ r tag op s
  | .rfResultAck by_ r tag => Sys2Proof.Machine.execRfResultAck by_ r tag s
  | .tuneLock r => Sys2Proof.Machine.execTuneLock r s
  | .tuneLockTimeout r => Sys2Proof.Machine.execTuneLockTimeout r s
  | .bandCalDone r converged => Sys2Proof.Machine.execBandCalDone r converged s
  | .calAllDone r converged => Sys2Proof.Machine.execCalAllDone r converged s
  | .femScanDone r ids => Sys2Proof.Machine.execFemScanDone r ids s
  | .synthLockLoss r => Sys2Proof.Machine.execSynthLockLoss r s
  | .rffeRegWrite by_ r usid addr data tag => Sys2Proof.Machine.execRffeRegWrite by_ r usid addr data tag s
  | .rffeRegRead by_ r usid addr tag => Sys2Proof.Machine.execRffeRegRead by_ r usid addr tag s
  | .rffeExtRegWrite by_ r usid addr data tag => Sys2Proof.Machine.execRffeExtRegWrite by_ r usid addr data tag s
  | .rffeExtRegRead by_ r usid addr tag => Sys2Proof.Machine.execRffeExtRegRead by_ r usid addr tag s
  | .rffeReg0Write by_ r usid data tag => Sys2Proof.Machine.execRffeReg0Write by_ r usid data tag s
  | .rffeIllegalKind by_ r kind tag => Sys2Proof.Machine.execRffeIllegalKind by_ r kind tag s
  | .rffeTransactionDone r ok data => Sys2Proof.Machine.execRffeTransactionDone r ok data s
  | .rffeAck by_ r tag => Sys2Proof.Machine.execRffeAck by_ r tag s
  | .femHealthPoll r ids => Sys2Proof.Machine.execFemHealthPoll r ids s
  | .calRoundStart r kind => Sys2Proof.Machine.execCalRoundStart r kind s
  | .calSliceStart r kind chain => Sys2Proof.Machine.execCalSliceStart r kind chain s
  | .calSliceEnd r how => Sys2Proof.Machine.execCalSliceEnd r how s
  | .agcStep r chain level => Sys2Proof.Machine.execAgcStep r chain level s
  | .senseCtlWrite by_ val => Sys2Proof.Machine.execSenseCtlWrite by_ val s
  | .senseFrameEnd peak bins pulses => Sys2Proof.Machine.execSenseFrameEnd peak bins pulses s
  | .senseDwellEnd => Sys2Proof.Machine.execSenseDwellEnd s
  | .senseRetuneDone => Sys2Proof.Machine.execSenseRetuneDone s
  | .senseRptRdWrite by_ val => Sys2Proof.Machine.execSenseRptRdWrite by_ val s
  | .senseRunWrite by_ val => Sys2Proof.Machine.execSenseRunWrite by_ val s
  | .seqStepBegin r => Sys2Proof.Machine.execSeqStepBegin r s
  | .seqTimedEnd r => Sys2Proof.Machine.execSeqTimedEnd r s
  | .seqWaitEvent r => Sys2Proof.Machine.execSeqWaitEvent r s
  | .seqWaitTimeout r => Sys2Proof.Machine.execSeqWaitTimeout r s
  | .seqTestEnd r => Sys2Proof.Machine.execSeqTestEnd r s
  | .anchorAt r => Sys2Proof.Machine.execAnchorAt r s
  | .seqCtlWrite by_ r val => Sys2Proof.Machine.execSeqCtlWrite by_ r val s
  | .seqSwapRequest by_ r entry tag => Sys2Proof.Machine.execSeqSwapRequest by_ r entry tag s
  | .seqSwapApply r => Sys2Proof.Machine.execSeqSwapApply r s
  | .seqAck by_ r tag => Sys2Proof.Machine.execSeqAck by_ r tag s
  | .seqPoke by_ r poke => Sys2Proof.Machine.execSeqPoke by_ r poke s
  | .ctrlRunWrite by_ r val => Sys2Proof.Machine.execCtrlRunWrite by_ r val s
  | .txqPush by_ r push => Sys2Proof.Machine.execTxqPush by_ r push s
  | .txcAck by_ r tag => Sys2Proof.Machine.execTxcAck by_ r tag s
  | .txcCtlWrite by_ r val => Sys2Proof.Machine.execTxcCtlWrite by_ r val s
  | .cmdDueAtTime r => Sys2Proof.Machine.execCmdDueAtTime r s
  | .txqReady r => Sys2Proof.Machine.execTxqReady r s
  | .cmdExpire r q => Sys2Proof.Machine.execCmdExpire r q s
  | .txUnderrun r unsent => Sys2Proof.Machine.execTxUnderrun r unsent s
  | .txPpduEnd r airtime errs => Sys2Proof.Machine.execTxPpduEnd r airtime errs s
  | .respReady r => Sys2Proof.Machine.execRespReady r s
  | .respLaunch r => Sys2Proof.Machine.execRespLaunch r s
  | .respAbandon r => Sys2Proof.Machine.execRespAbandon r s
  | .edDetect r prim whole => Sys2Proof.Machine.execEdDetect r prim whole s
  | .qualStage1Ok r corr sub level => Sys2Proof.Machine.execQualStage1Ok r corr sub level s
  | .qualOk r peak cfo levels ref frac => Sys2Proof.Machine.execQualOk r peak cfo levels ref frac s
  | .acFailTimeout r => Sys2Proof.Machine.execAcFailTimeout r s
  | .xcFailTimeout r => Sys2Proof.Machine.execXcFailTimeout r s
  | .dsssLock r ago => Sys2Proof.Machine.execDsssLock r ago s
  | .dsssSfdTimeout r short => Sys2Proof.Machine.execDsssSfdTimeout r short s
  | .lsigCheck r lsig rssi chainRssi => Sys2Proof.Machine.execLsigCheck r lsig rssi chainRssi s
  | .sigFieldCheck r found stf => Sys2Proof.Machine.execSigFieldCheck r found stf s
  | .rxRestart r level periodic => Sys2Proof.Machine.execRxRestart r level periodic s
  | .rxPpduEnd r tp => Sys2Proof.Machine.execRxPpduEnd r tp s
  | .rxEnd r => Sys2Proof.Machine.execRxEnd r s
  | .rxDecided r recs => Sys2Proof.Machine.execRxDecided r recs s
  | .codewordDecoded r arrived lane need => Sys2Proof.Machine.execCodewordDecoded r arrived lane need s
  | .decodeDeadline r => Sys2Proof.Machine.execDecodeDeadline r s
  | .laneAudit r passed => Sys2Proof.Machine.execLaneAudit r passed s
  | .rxsRdWrite by_ r val => Sys2Proof.Machine.execRxsRdWrite by_ r val s
  | .mpduReceive r m => Sys2Proof.Machine.execMpduReceive r m s
  | .navExpire r intra => Sys2Proof.Machine.execNavExpire r intra s
  | .navRtsTimeout r => Sys2Proof.Machine.execNavRtsTimeout r s
  | .mediumIdle r => Sys2Proof.Machine.execMediumIdle r s
  | .backoffSlot r busy => Sys2Proof.Machine.execBackoffSlot r busy s
  | .grantWithdraw r busy => Sys2Proof.Machine.execGrantWithdraw r busy s
  | .respTimeout r => Sys2Proof.Machine.execRespTimeout r s
  | .muEdcaTimerExpire r => Sys2Proof.Machine.execMuEdcaTimerExpire r s
  | .macCtlWrite by_ r val => Sys2Proof.Machine.execMacCtlWrite by_ r val s
  | .macSeedWrite by_ r val => Sys2Proof.Machine.execMacSeedWrite by_ r val s
  | .reorderTimeout q => Sys2Proof.Machine.execReorderTimeout q s
  | .aidSet by_ tag => Sys2Proof.Machine.execAidSet by_ tag s
  | .aidClr by_ tag => Sys2Proof.Machine.execAidClr by_ tag s
  | .aidLookup by_ tag => Sys2Proof.Machine.execAidLookup by_ tag s
  | .aidIllegalOp by_ tag => Sys2Proof.Machine.execAidIllegalOp by_ tag s
  | .aidAck by_ tag => Sys2Proof.Machine.execAidAck by_ tag s
  | .keyInstall by_ tag => Sys2Proof.Machine.execKeyInstall by_ tag s
  | .keyDelete by_ tag => Sys2Proof.Machine.execKeyDelete by_ tag s
  | .keySetTx by_ tag => Sys2Proof.Machine.execKeySetTx by_ tag s
  | .keyIllegalOp by_ tag => Sys2Proof.Machine.execKeyIllegalOp by_ tag s
  | .keyAck by_ tag => Sys2Proof.Machine.execKeyAck by_ tag s
  | .mrxRdWrite by_ val => Sys2Proof.Machine.execMrxRdWrite by_ val s
  | .linkCtlWrite by_ val => Sys2Proof.Machine.execLinkCtlWrite by_ val s
  | .mlinkRunWrite by_ val => Sys2Proof.Machine.execMlinkRunWrite by_ val s
  | .ctxAlloc by_ tag => Sys2Proof.Machine.execCtxAlloc by_ tag s
  | .ctxActivate by_ tag => Sys2Proof.Machine.execCtxActivate by_ tag s
  | .ctxRefresh by_ tag => Sys2Proof.Machine.execCtxRefresh by_ tag s
  | .ctxFree by_ tag => Sys2Proof.Machine.execCtxFree by_ tag s
  | .ctxIllegalOp by_ tag => Sys2Proof.Machine.execCtxIllegalOp by_ tag s
  | .ctxFreeDone => Sys2Proof.Machine.execCtxFreeDone s
  | .ctxAck by_ tag => Sys2Proof.Machine.execCtxAck by_ tag s
  | .stqEnq by_ q val => Sys2Proof.Machine.execStqEnq by_ q val s
  | .dlSelection r ac => Sys2Proof.Machine.execDlSelection r ac s
  | .ulSelection r members => Sys2Proof.Machine.execUlSelection r members s
  | .soundFeedback r scid nc mat => Sys2Proof.Machine.execSoundFeedback r scid nc mat s
  | .muNextPpduDue r => Sys2Proof.Machine.execMuNextPpduDue r s
  | .tbWindowEnd r => Sys2Proof.Machine.execTbWindowEnd r s
  | .twtPeriodStart n => Sys2Proof.Machine.execTwtPeriodStart n s
  | .twtPeriodEnd n => Sys2Proof.Machine.execTwtPeriodEnd n s
  | .newtCtlWrite by_ val => Sys2Proof.Machine.execNewtCtlWrite by_ val s
  | .newtRetuneDone locked => Sys2Proof.Machine.execNewtRetuneDone locked s
  | .newtAgcStep peak => Sys2Proof.Machine.execNewtAgcStep peak s
  | .newtPreambleAcquire => Sys2Proof.Machine.execNewtPreambleAcquire s
  | .newtAntSelect mine other sfd => Sys2Proof.Machine.execNewtAntSelect mine other sfd s
  | .newtFrameReceive psdu rssi lqi => Sys2Proof.Machine.execNewtFrameReceive psdu rssi lqi s
  | .newtAckSend => Sys2Proof.Machine.execNewtAckSend s
  | .newtTxCmd by_ tag => Sys2Proof.Machine.execNewtTxCmd by_ tag s
  | .newtBackoffExpire => Sys2Proof.Machine.execNewtBackoffExpire s
  | .newtCcaEnd energy signal => Sys2Proof.Machine.execNewtCcaEnd energy signal s
  | .newtTxEnd => Sys2Proof.Machine.execNewtTxEnd s
  | .newtAckTimeout => Sys2Proof.Machine.execNewtAckTimeout s
  | .newtTxAck by_ tag => Sys2Proof.Machine.execNewtTxAck by_ tag s
  | .childAddShort by_ tag => Sys2Proof.Machine.execChildAddShort by_ tag s
  | .childDelShort by_ tag => Sys2Proof.Machine.execChildDelShort by_ tag s
  | .childAddExt by_ tag => Sys2Proof.Machine.execChildAddExt by_ tag s
  | .childDelExt by_ tag => Sys2Proof.Machine.execChildDelExt by_ tag s
  | .childIllegalOp by_ tag => Sys2Proof.Machine.execChildIllegalOp by_ tag s
  | .childAck by_ tag => Sys2Proof.Machine.execChildAck by_ tag s
  | .pendSet by_ val => Sys2Proof.Machine.execPendSet by_ val s
  | .pendClr by_ val => Sys2Proof.Machine.execPendClr by_ val s
  | .rxrRdWrite by_ val => Sys2Proof.Machine.execRxrRdWrite by_ val s
  | .newtRunWrite by_ val => Sys2Proof.Machine.execNewtRunWrite by_ val s
  | .tpLoadPeriod r => Sys2Proof.Machine.execTpLoadPeriod r s
  | .tpPeerRst by_ r bits => Sys2Proof.Machine.execTpPeerRst by_ r bits s
  | .tpPeerCfgWrite by_ r p val => Sys2Proof.Machine.execTpPeerCfgWrite by_ r p val s
  | .fabFrameArrive => Sys2Proof.Machine.execFabFrameArrive s
  | .fabEnq by_ val => Sys2Proof.Machine.execFabEnq by_ val s
  | .fabBeaconTimer => Sys2Proof.Machine.execFabBeaconTimer s
  | .fabBeaconMiss n => Sys2Proof.Machine.execFabBeaconMiss n s
  | .fabTxStatus => Sys2Proof.Machine.execFabTxStatus s
  | .fwdInstall by_ tag => Sys2Proof.Machine.execFwdInstall by_ tag s
  | .fwdRemove by_ tag => Sys2Proof.Machine.execFwdRemove by_ tag s
  | .fwdSet by_ tag => Sys2Proof.Machine.execFwdSet by_ tag s
  | .fwdLookup by_ tag => Sys2Proof.Machine.execFwdLookup by_ tag s
  | .fwdAck by_ tag => Sys2Proof.Machine.execFwdAck by_ tag s
  | .fabRingRdWrite by_ val => Sys2Proof.Machine.execFabRingRdWrite by_ val s
  | .dozeWake r => Sys2Proof.Machine.execDozeWake r s
  | .dozeSleep r => Sys2Proof.Machine.execDozeSleep r s
  | .fabEpochStart => Sys2Proof.Machine.execFabEpochStart s
  | .fabWindowStart => Sys2Proof.Machine.execFabWindowStart s
  | .storeRequestArrive port addr len wdata => Sys2Proof.Machine.execStoreRequestArrive port addr len wdata s
  | .dramCommandIssue ch => Sys2Proof.Machine.execDramCommandIssue ch s
  | .storeReadComplete ch found => Sys2Proof.Machine.execStoreReadComplete ch found s
  | .refreshDue ch bank => Sys2Proof.Machine.execRefreshDue ch bank s
  | .mr4Poll ch rate above => Sys2Proof.Machine.execMr4Poll ch rate above s
  | .actTableClear => Sys2Proof.Machine.execActTableClear s
  | .nrStart ch bank => Sys2Proof.Machine.execNrStart ch bank s
  | .nrComplete ch bank => Sys2Proof.Machine.execNrComplete ch bank s
  | .retrainPeriod => Sys2Proof.Machine.execRetrainPeriod s
  | .retrainDrift ch drift => Sys2Proof.Machine.execRetrainDrift ch drift s
  | .retrainAged ch => Sys2Proof.Machine.execRetrainAged ch s
  | .retrainPauseStart ch => Sys2Proof.Machine.execRetrainPauseStart ch s
  | .retrainPauseEnd ch converged => Sys2Proof.Machine.execRetrainPauseEnd ch converged s
  | .retrainRetry ch => Sys2Proof.Machine.execRetrainRetry ch s
  | .poolInit by_ pool tag => Sys2Proof.Machine.execPoolInit by_ pool tag s
  | .poolDisable by_ pool tag => Sys2Proof.Machine.execPoolDisable by_ pool tag s
  | .poolIllegalOp by_ pool tag => Sys2Proof.Machine.execPoolIllegalOp by_ pool tag s
  | .poolInitDone => Sys2Proof.Machine.execPoolInitDone s
  | .poolAck by_ tag => Sys2Proof.Machine.execPoolAck by_ tag s
  | .freeDesc by_ val => Sys2Proof.Machine.execFreeDesc by_ val s
  | .freeBlk by_ val => Sys2Proof.Machine.execFreeBlk by_ val s
  | .hwAlloc port desc => Sys2Proof.Machine.execHwAlloc port desc s
  | .mbRequest by_ m pool tag => Sys2Proof.Machine.execMbRequest by_ m pool tag s
  | .mbAnswer m => Sys2Proof.Machine.execMbAnswer m s
  | .mbAck by_ m tag => Sys2Proof.Machine.execMbAck by_ m tag s
  | .scrubChunk corrected found => Sys2Proof.Machine.execScrubChunk corrected found s
  | .repairRetire by_ tag => Sys2Proof.Machine.execRepairRetire by_ tag s
  | .repairPpr by_ tag spare => Sys2Proof.Machine.execRepairPpr by_ tag spare s
  | .repairQuery by_ tag => Sys2Proof.Machine.execRepairQuery by_ tag s
  | .repairIllegalOp by_ tag => Sys2Proof.Machine.execRepairIllegalOp by_ tag s
  | .pprDone verified => Sys2Proof.Machine.execPprDone verified s
  | .repairAck by_ tag => Sys2Proof.Machine.execRepairAck by_ tag s
  | .mapMaskWrite by_ n val => Sys2Proof.Machine.execMapMaskWrite by_ n val s
  | .clsIngressArrive q => Sys2Proof.Machine.execClsIngressArrive q s
  | .clsInj by_ val => Sys2Proof.Machine.execClsInj by_ val s
  | .clsParse q => Sys2Proof.Machine.execClsParse q s
  | .clsStageLookup q n => Sys2Proof.Machine.execClsStageLookup q n s
  | .emInsert by_ k table tag => Sys2Proof.Machine.execEmInsert by_ k table tag s
  | .emDelete by_ k table tag => Sys2Proof.Machine.execEmDelete by_ k table tag s
  | .emSet by_ k table tag => Sys2Proof.Machine.execEmSet by_ k table tag s
  | .emLookup by_ k table tag => Sys2Proof.Machine.execEmLookup by_ k table tag s
  | .routeAdd by_ k table len tag => Sys2Proof.Machine.execRouteAdd by_ k table len tag s
  | .routeDel by_ k table len tag => Sys2Proof.Machine.execRouteDel by_ k table len tag s
  | .ctCreate by_ k tag => Sys2Proof.Machine.execCtCreate by_ k tag s
  | .ctDelete by_ k tag => Sys2Proof.Machine.execCtDelete by_ k tag s
  | .tcmdIllegalOp by_ k op tag => Sys2Proof.Machine.execTcmdIllegalOp by_ k op tag s
  | .tcmdAck by_ k tag => Sys2Proof.Machine.execTcmdAck by_ k tag s
  | .tableEnable by_ t val => Sys2Proof.Machine.execTableEnable by_ t val s
  | .tableClearDone t => Sys2Proof.Machine.execTableClearDone t s
  | .schedItemArrive src => Sys2Proof.Machine.execSchedItemArrive src s
  | .delayExpire slot => Sys2Proof.Machine.execDelayExpire slot s
  | .schedDispatch => Sys2Proof.Machine.execSchedDispatch s
  | .getwTake g => Sys2Proof.Machine.execGetwTake g s
  | .schedDoneArrive => Sys2Proof.Machine.execSchedDoneArrive s
  | .schedCancelArrive => Sys2Proof.Machine.execSchedCancelArrive s
  | .ticketRelease => Sys2Proof.Machine.execTicketRelease s
  | .engRunWrite by_ c val => Sys2Proof.Machine.execEngRunWrite by_ c val s
  | .engClkWrite by_ c val => Sys2Proof.Machine.execEngClkWrite by_ c val s
  | .engClkChangeDone c => Sys2Proof.Machine.execEngClkChangeDone c s
  | .substCmd by_ c e tag => Sys2Proof.Machine.execSubstCmd by_ c e tag s
  | .substDone c => Sys2Proof.Machine.execSubstDone c s
  | .substTimeout c => Sys2Proof.Machine.execSubstTimeout c s
  | .substAck by_ c tag => Sys2Proof.Machine.execSubstAck by_ c tag s
  | .cipherJobArrive => Sys2Proof.Machine.execCipherJobArrive s
  | .cipherJobDone q => Sys2Proof.Machine.execCipherJobDone q s
  | .sessInstall by_ tag => Sys2Proof.Machine.execSessInstall by_ tag s
  | .sessDelete by_ tag => Sys2Proof.Machine.execSessDelete by_ tag s
  | .sessIllegalOp by_ tag => Sys2Proof.Machine.execSessIllegalOp by_ tag s
  | .sessAck by_ tag => Sys2Proof.Machine.execSessAck by_ tag s
  | .msSet by_ tag => Sys2Proof.Machine.execMsSet by_ tag s
  | .msStep by_ tag => Sys2Proof.Machine.execMsStep by_ tag s
  | .msAdj by_ tag => Sys2Proof.Machine.execMsAdj by_ tag s
  | .msIllegalOp by_ tag => Sys2Proof.Machine.execMsIllegalOp by_ tag s
  | .msAck by_ tag => Sys2Proof.Machine.execMsAck by_ tag s
  | .snapCapture by_ k tag => Sys2Proof.Machine.execSnapCapture by_ k tag s
  | .snapAck by_ k tag => Sys2Proof.Machine.execSnapAck by_ k tag s
  | .servoInWrite by_ val => Sys2Proof.Machine.execServoInWrite by_ val s
  | .holdoverTimeout => Sys2Proof.Machine.execHoldoverTimeout s
  | .ppsInEdge => Sys2Proof.Machine.execPpsInEdge s
  | .ppsInAck by_ tag => Sys2Proof.Machine.execPpsInAck by_ tag s
  | .ppsOutRise => Sys2Proof.Machine.execPpsOutRise s
  | .ppsOutFall => Sys2Proof.Machine.execPpsOutFall s
  | .tsfOfsHiWrite by_ r val => Sys2Proof.Machine.execTsfOfsHiWrite by_ r val s
  | .ftmArm by_ r val => Sys2Proof.Machine.execFtmArm by_ r val s
  | .ftmAck by_ r tag => Sys2Proof.Machine.execFtmAck by_ r tag s
  | .perstNAssert => Sys2Proof.Machine.execPerstNAssert s
  | .perstNRelease => Sys2Proof.Machine.execPerstNRelease s
  | .pcieLinkUp speed width => Sys2Proof.Machine.execPcieLinkUp speed width s
  | .pcieLinkDown => Sys2Proof.Machine.execPcieLinkDown s
  | .hostFunctionChange bme msixEn d3 flr => Sys2Proof.Machine.execHostFunctionChange bme msixEn d3 flr s
  | .hostBarRequest bar2 off be wdata => Sys2Proof.Machine.execHostBarRequest bar2 off be wdata s
  | .ringConfigWrite by_ r val => Sys2Proof.Machine.execRingConfigWrite by_ r val s
  | .ringTailWrite by_ r val => Sys2Proof.Machine.execRingTailWrite by_ r val s
  | .hostH2dFrame r len buf => Sys2Proof.Machine.execHostH2dFrame r len buf s
  | .hostD2hRelease => Sys2Proof.Machine.execHostD2hRelease s
  | .hostD2hWriteback r addr bufLen => Sys2Proof.Machine.execHostD2hWriteback r addr bufLen s
  | .hostDmaError r => Sys2Proof.Machine.execHostDmaError r s
  | .coalTimer r => Sys2Proof.Machine.execCoalTimer r s
  | .mbxCmd by_ k op tag => Sys2Proof.Machine.execMbxCmd by_ k op tag s
  | .mbxPost by_ k code tag => Sys2Proof.Machine.execMbxPost by_ k code tag s
  | .mbxAck by_ k tag => Sys2Proof.Machine.execMbxAck by_ k tag s
  | .laneCtlWrite by_ n val => Sys2Proof.Machine.execLaneCtlWrite by_ n val s
  | .laneLinkUp n => Sys2Proof.Machine.execLaneLinkUp n s
  | .laneLinkDown n lockLost fault => Sys2Proof.Machine.execLaneLinkDown n lockLost fault s
  | .wireRxFrame n data => Sys2Proof.Machine.execWireRxFrame n data s
  | .wireTxEnqueue src => Sys2Proof.Machine.execWireTxEnqueue src s
  | .wireTxStart n => Sys2Proof.Machine.execWireTxStart n s
  | .wireTxEnd n => Sys2Proof.Machine.execWireTxEnd n s
  | .pauseExpire n => Sys2Proof.Machine.execPauseExpire n s
  | .pauseResendTimer n => Sys2Proof.Machine.execPauseResendTimer n s
  | .mdioC22Write by_ phyad reg tag => Sys2Proof.Machine.execMdioC22Write by_ phyad reg tag s
  | .mdioC22Read by_ phyad reg tag => Sys2Proof.Machine.execMdioC22Read by_ phyad reg tag s
  | .mdioC45Write by_ phyad mmd tag => Sys2Proof.Machine.execMdioC45Write by_ phyad mmd tag s
  | .mdioC45Read by_ phyad mmd tag => Sys2Proof.Machine.execMdioC45Read by_ phyad mmd tag s
  | .mdioTransactionDone resp => Sys2Proof.Machine.execMdioTransactionDone resp s
  | .mdioAck by_ tag => Sys2Proof.Machine.execMdioAck by_ tag s
  | .phyPoll n => Sys2Proof.Machine.execPhyPoll n s
  | .romBoot => Sys2Proof.Machine.execRomBoot s
  | .hostBootImage => Sys2Proof.Machine.execHostBootImage s
  | .uartBootImage image => Sys2Proof.Machine.execUartBootImage image s
  | .otpProg by_ val => Sys2Proof.Machine.execOtpProg by_ val s
  | .logPut by_ val => Sys2Proof.Machine.execLogPut by_ val s
  | .sensorRead temps mv => Sys2Proof.Machine.execSensorRead temps mv s
  | .roMonUpdate now => Sys2Proof.Machine.execRoMonUpdate now s
  | .dutyWindow => Sys2Proof.Machine.execDutyWindow s
  | .wdtKick by_ k key => Sys2Proof.Machine.execWdtKick by_ k key s
  | .wdtExpire k => Sys2Proof.Machine.execWdtExpire k s
  | .mtRequest by_ k scope kind tag => Sys2Proof.Machine.execMtRequest by_ k scope kind tag s
  | .mtAck by_ k tag => Sys2Proof.Machine.execMtAck by_ k tag s
  | .hwTokenRequest kind scope release => Sys2Proof.Machine.execHwTokenRequest kind scope release s
  | .tokenAged n => Sys2Proof.Machine.execTokenAged n s
  | .axSramRowSubst t row spare => Sys2Proof.Machine.execAxSramRowSubst t row spare s
  | .axTrackSubst t link track => Sys2Proof.Machine.execAxTrackSubst t link track s
  | .axLaneSubst r => Sys2Proof.Machine.execAxLaneSubst r s
  | .axEngineSubst c e => Sys2Proof.Machine.execAxEngineSubst c e s
  | .crHash by_ tag => Sys2Proof.Machine.execCrHash by_ tag s
  | .crVerify by_ tag => Sys2Proof.Machine.execCrVerify by_ tag s
  | .crDone => Sys2Proof.Machine.execCrDone s
  | .crAck by_ tag => Sys2Proof.Machine.execCrAck by_ tag s
  | .flRead by_ op dtr tag => Sys2Proof.Machine.execFlRead by_ op dtr tag s
  | .flWrite by_ op dtr tag => Sys2Proof.Machine.execFlWrite by_ op dtr tag s
  | .flDone => Sys2Proof.Machine.execFlDone s
  | .flAck by_ tag => Sys2Proof.Machine.execFlAck by_ tag s
  | .porNAssert => Sys2Proof.Machine.execPorNAssert s
  | .porNRelease mode => Sys2Proof.Machine.execPorNRelease mode s
  | .sysRstNAssert => Sys2Proof.Machine.execSysRstNAssert s
  | .sysRstNRelease mode => Sys2Proof.Machine.execSysRstNRelease mode s
  | .devRst by_ key => Sys2Proof.Machine.execDevRst by_ key s
  | .refclkStop => Sys2Proof.Machine.execRefclkStop s
  | .avsTarget by_ mv tag => Sys2Proof.Machine.execAvsTarget by_ mv tag s
  | .avsDone acked => Sys2Proof.Machine.execAvsDone acked s
  | .avsAck by_ tag => Sys2Proof.Machine.execAvsAck by_ tag s
  | .ccaEnergyBusy r level => Sys2Proof.Machine.execCcaEnergyBusy r level s
  | .txopNextDue r => Sys2Proof.Machine.execTxopNextDue r s
  | .emlTransitionDelayEnd scid => Sys2Proof.Machine.execEmlTransitionDelayEnd scid s
  | .fabWindowEnd => Sys2Proof.Machine.execFabWindowEnd s
  | .tableCommandDone indexFull => Sys2Proof.Machine.execTableCommandDone indexFull s
  | .pcieConfigRequest cfg => Sys2Proof.Machine.execPcieConfigRequest cfg s
  | .anDone n lp fec => Sys2Proof.Machine.execAnDone n lp fec s
  | .laneRxLock n => Sys2Proof.Machine.execLaneRxLock n s
  | .refclkResume mode => Sys2Proof.Machine.execRefclkResume mode s
  | .sramCorrectedError t row => Sys2Proof.Machine.execSramCorrectedError t row s
  | .servoCtlWrite by_ val => Sys2Proof.Machine.execServoCtlWrite by_ val s
  | .rfCalCtlWrite by_ r val => Sys2Proof.Machine.execRfCalCtlWrite by_ r val s

end Sys2Proof.Machine
end

