-- ==== Sys2Proof/Machine/Firmware.lean ====
section
/-! DEFINITION. What the spec has firmware compute and keep (R287 to R289, R302, R478): the node ID of an identity, the agreement of
node IDs, the guard time of a dozing radio, and the least core voltage. The block enforces none of it, so no command uses these. -/

namespace Sys2Proof.Machine
open Reg

/-- derive of R287 for a device identity and a counter; none where the counter would pass 255, as such a member does not join the
fabric (R288). `fuel` bounds the counters tried. -/
def nodeId (id : BitVec 64) : Nat → Nat → Option Nat
  | 0, _ => none
  | fuel + 1, ctr =>
    if 255 < ctr then none
    else
      let c := crc32c (le 8 id.toNat ++ [BitVec.ofNat 8 ctr])
      let n := (c / 65536) ^^^ (c % 65536)
      if n = 0 ∨ n = 0xFFFF then nodeId id fuel (ctr + 1) else some n

/-- R289: the node ID of the fabric is that of every radio that carries Towpath peers. -/
def State.nodesAgree (s : State) : Bool :=
  (List.range 3).all fun r => !(s.tpOn r && (List.range 16).any fun p => s.rbit (RADIO.TP_PEER_CFG r p) 31) ||
    s.rf CLASS.FAB_CTL 15 0 == s.rf (RADIO.TP_CTL r) 15 0

/-- R302 with the y_h of R426, in tenths of a picosecond: GUARD_US holds against the drift over INTERVAL_US. -/
def State.guardHolds (s : State) (r : Nat) : Bool :=
  400000 + (s.rd (CLASS.DOZE_W1 r)).toNat ≤ 10000000 * s.rf (CLASS.DOZE_W3 r) 15 0

/-- v_req of R478 in mV, for the highest frequency that a cluster requests and the lowest ratio NOW to BASE of RO_MON 0 to 15. A
monitor with BASE 0, which no device has after test, is left out (DESIGN CHOICE, log entry 63). -/
def State.vReq (s : State) : Nat :=
  let f : Int := ((List.range 4).foldl (fun m c => max m (s.rf (ENG.ENG_CLK c) 11 0)) 0 : Nat)
  let steps := (List.range 16).foldl (fun m n =>
    let base := s.rf (MGMT.RO_MON n) 31 16
    max m ((100 * (base - s.rf (MGMT.RO_MON n) 15 0) + base - 1) / base)) 0
  let v : Int := s.rf MGMT.AVS_FUSE 15 0 + ((f - 2000) * 125).tdiv 1000 + 5 * steps
  (min (max v 650) 900).toNat

end Sys2Proof.Machine
end

