-- ==== Sys2Proof/Safety.lean ====
section
/-! DEFINITION. What a safe run means here: every table of the state keeps its canonical form, so that equal contents are equal
data. -/

namespace Sys2Proof.Machine

/-- Memory and the register file keep their canonical forms. -/
def State.Canonical (s : State) : Prop := Memory.wf s.mem ∧ twf regReset 0 s.regs = true

/-- The state after a write of TILE_CTL of tile `t` has shown in its fields, before its request is judged (R31): LOCK is set by a 1 and
is not taken in OFF. -/
def State.asked (s : State) (t code : Nat) (tag : Tag) (lock : Bool) : State :=
  s.modTile t fun x => { x with lock := x.lock || (lock && x.life != .off), ctlTag := tag, ctlReq := code }

/-- The rows of the instruction table of Uzoath: the command that issues each on a thread, and the words that are its (R46, R73). -/
def uzRows (th : ThreadRef) : List (Instr × (Insn → Prop)) :=
  [(Instr.ld th, fun (i : Insn) => i.op = 0x01),
   (Instr.st th, fun (i : Insn) => i.op = 0x02),
   (Instr.ldx th, fun (i : Insn) => i.op = 0x03),
   (Instr.stx th, fun (i : Insn) => i.op = 0x04),
   (Instr.ldy th, fun (i : Insn) => i.op = 0x05),
   (Instr.sty th, fun (i : Insn) => i.op = 0x06),
   (Instr.lea th, fun (i : Insn) => i.op = 0x07),
   (Instr.xch th, fun (i : Insn) => i.op = 0x08)] ++
  [(Instr.add th, fun (i : Insn) => i.op = 0x09),
   (Instr.adc th, fun (i : Insn) => i.op = 0x0A),
   (Instr.sub th, fun (i : Insn) => i.op = 0x0B),
   (Instr.sbc th, fun (i : Insn) => i.op = 0x0C),
   (Instr.neg th, fun (i : Insn) => i.op = 0x0D),
   (Instr.abs th, fun (i : Insn) => i.op = 0x0E),
   (Instr.mul th, fun (i : Insn) => i.op = 0x0F),
   (Instr.mulu th, fun (i : Insn) => i.op = 0x10)] ++
  [(Instr.div th, fun (i : Insn) => i.op = 0x11),
   (Instr.divu th, fun (i : Insn) => i.op = 0x12),
   (Instr.and th, fun (i : Insn) => i.op = 0x13),
   (Instr.or th, fun (i : Insn) => i.op = 0x14),
   (Instr.xor th, fun (i : Insn) => i.op = 0x15),
   (Instr.shl th, fun (i : Insn) => i.op = 0x16),
   (Instr.shr th, fun (i : Insn) => i.op = 0x17),
   (Instr.sar th, fun (i : Insn) => i.op = 0x18)] ++
  [(Instr.rol th, fun (i : Insn) => i.op = 0x19),
   (Instr.ror th, fun (i : Insn) => i.op = 0x1A),
   (Instr.bfx th, fun (i : Insn) => i.op = 0x1B),
   (Instr.bfi th, fun (i : Insn) => i.op = 0x1C),
   (Instr.bswap th, fun (i : Insn) => i.op = 0x1D),
   (Instr.pand th, fun (i : Insn) => i.op = 0x1E),
   (Instr.pior th, fun (i : Insn) => i.op = 0x1F),
   (Instr.pxor th, fun (i : Insn) => i.op = 0x20)] ++
  [(Instr.cmpEq th, fun (i : Insn) => i.op = 0x21),
   (Instr.cmpNe th, fun (i : Insn) => i.op = 0x22),
   (Instr.cmpLt th, fun (i : Insn) => i.op = 0x23),
   (Instr.cmpGe th, fun (i : Insn) => i.op = 0x24),
   (Instr.cmpLe th, fun (i : Insn) => i.op = 0x25),
   (Instr.cmpGt th, fun (i : Insn) => i.op = 0x26),
   (Instr.cmpLo th, fun (i : Insn) => i.op = 0x27),
   (Instr.cmpHs th, fun (i : Insn) => i.op = 0x28)] ++
  [(Instr.cmpLs th, fun (i : Insn) => i.op = 0x29),
   (Instr.cmpHi th, fun (i : Insn) => i.op = 0x2A),
   (Instr.cmpVa th, fun (i : Insn) => i.op = 0x2B),
   (Instr.cmpVs th, fun (i : Insn) => i.op = 0x2C),
   (Instr.tst th, fun (i : Insn) => i.op = 0x2D),
   (Instr.br th, fun (i : Insn) => i.op = 0x2E),
   (Instr.call th, fun (i : Insn) => i.op = 0x2F),
   (Instr.ret th, fun (i : Insn) => i.op = 0x30 ∧ i.opd = 0)] ++
  [(Instr.retTrap th, fun (i : Insn) => i.op = 0x30 ∧ i.opd = 1),
   (Instr.trap th, fun (i : Insn) => i.op = 0x31),
   (Instr.rep th, fun (i : Insn) => i.op = 0x32),
   (Instr.crc th, fun (i : Insn) => i.op = 0x33),
   (Instr.hash th, fun (i : Insn) => i.op = 0x34),
   (Instr.fetch th, fun (i : Insn) => i.op = 0x35),
   (Instr.fadd th, fun (i : Insn) => i.op = 0x36),
   (Instr.cas th, fun (i : Insn) => i.op = 0x37)] ++
  [(Instr.fence th, fun (i : Insn) => i.op = 0x38),
   (Instr.getw th, fun (i : Insn) => i.op = 0x39),
   (Instr.done th, fun (i : Insn) => i.op = 0x3A),
   (Instr.enq th, fun (i : Insn) => i.op = 0x3B),
   (Instr.cancel th, fun (i : Insn) => i.op = 0x3C),
   (Instr.waitev th, fun (i : Insn) => i.op = 0x3D),
   (Instr.seqw th, fun (i : Insn) => i.op = 0x3E)]

end Sys2Proof.Machine
end

