-- ==== Sys2Proof/Certificates/Slice0/Obligations.lean ====
section
/-! DEFINITION. The statements about the model, for the provers: one definition for each, its docstring naming the rules of the spec it
rests on. Where a clause rests on a choice of the model, its docstring names the log entry. -/

open Sys2Proof Sys2Proof.Machine

/-- A step runs the command at the front of the queue with the queue's rest, and with none waiting 2 ns pass (R411; log entries 4 and 7:
the queue and the cycle are the model's): the queue stays empty and a Milestone count that has started moves on by its increment; no
register, no byte of memory, no tile and no thread changes while Newt neither acquires a frame nor ends an Ack in that cycle. -/
def Obligations.StepRunsTheFrontCommand : Prop :=
  (∀ (c : Instr) (rest : List Instr) (s : State), s.pending = c :: rest → step s = exec c { s with pending := rest }) ∧
  (∀ (c : Instr) (s : State), step (s.push c) = exec c s) ∧
  (∀ s : State, s.pending = [] → ∃ u, step s = .next u ∧ u.pending = [] ∧ u.clock = s.clock + 1 ∧
    (s.newt.rx = none → s.newt.ackEnd ≠ s.clock + 1 →
      u.ms = (if s.ms.started then s.ms.at_ ((s.ms.total + s.time.inc : Nat) : Int) else s.ms) ∧ (∀ a, u.rd a = s.rd a) ∧
      (∀ a, u.rb a = s.rb a) ∧ (∀ t, u.tile t = s.tile t) ∧ ∀ k, u.thread k = s.thread k))

/-- The state right after POR_N is released (R17, R36, R42, R481): every tile in RESET with nothing requested or posted, no event
pending and no error; every register at its reset value; every thread stopped but MGMT's two, which run from address 0; no token held
or asked for; the device not held in reset and MGMT about to run its ROM; the tables canonical. That memory outside the ROM reads 0
and that the queue is empty are the model's (log entries 1 and 4). -/
def Obligations.ResetLeavesWhatTheSpecSays : Prop :=
  let s := State.reset
  s.Canonical ∧ s.pending = [] ∧ s.inReset = false ∧ s.mgmt.phase = .rom ∧ s.tokens = [] ∧ s.tokenReqs = [] ∧
  (∀ t, s.life t = .reset ∧ (s.tile t).busy = false ∧ (s.tile t).resValid = false ∧ (s.tile t).lock = false ∧
    (s.tile t).firstValid = false ∧ (s.tile t).evtPend = 0 ∧ (s.tile t).evtMask = 0) ∧
  (∀ a, s.rd a = regReset a) ∧ (∀ a, s.rb a = memDefault a) ∧
  (∀ k, (s.thread k).run = (if k = threadKey 0 0 0 ∨ k = threadKey 0 0 1 then .running else .stopped) ∧
    (s.thread k).st = 0x10000 ∧ (s.thread k).pr = 1 ∧ (s.thread k).pc = 0) ∧ s.secure = false

/-- Every command on every state with canonical tables answers a next state, leaves the rest of the queue and the clock alone, and
keeps memory and the register file in canonical form. -/
def Obligations.EveryCommandKeepsTheForm : Prop :=
  ∀ (c : Instr) (s : State), s.Canonical → ∃ u, exec c s = .next u ∧ u.pending = s.pending ∧ u.clock = s.clock ∧ u.Canonical

/-- Canonical tables are an invariant of the machine: from every state that has them, a step answers a next state that has them,
with one command less in the queue, or one cycle later where none waits. -/
def Obligations.StepsKeepTheForm : Prop :=
  ∀ s : State, s.Canonical → ∃ u, step s = .next u ∧ u.Canonical ∧ u.pending = s.pending.tail ∧
    u.clock = s.clock + (if s.pending = [] then 1 else 0)

/-- A REQ_STATE write of a tile other than MGMT, with no request in progress and no result posted, starts the transition that the
table of R17 gives, under the maintenance token where R20 asks for it, and a tile with nothing to calibrate is back in HELD at once
(R16); what the table does not start is refused at once with
INVALID, and a request without its token with NO_TOKEN. The write of TILE_CTL itself shows in its fields (R31). A request that
finds one in progress or a result posted is dropped and sets REQ_DROP, RESET and OFF apart and READY apart while the tile drains
for HELD (R17, R21). A posted request result (R17, R31): BUSY falls, TARGET reads 15, RESULT is valid with its code and tag, event
bit 1 pends; no register, no byte of memory and no other tile changes. -/
def Obligations.LifecycleRequestsAreTaken : Prop :=
  (∀ (t : Fin 18) (tag : Tag) (lock : Bool) (s : State), t.val ≠ 0 → s.inReset = false →
    (s.tile t.val).busy = false → (s.tile t.val).resValid = false →
    let from_ := fun (code : Nat) => s.asked t.val code tag lock
    let timed := fun (code : Nat) => ((from_ code).startReq t.val code tag).modTile t.val fun x => { x with since := s.clock }
    let idle := fun (u : State) => u.modTile t.val fun x => { x with busy := false, target := 15, resValid := false }
    (s.life t.val ≠ .off → exec (.reqStateOff t tag lock) s = .next ((from_ 0).startReq t.val 0 tag)) ∧
    (s.life t.val ≠ .reset → exec (.reqStateReset t tag lock) s = .next ((from_ 1).startReq t.val 1 tag)) ∧
    (s.life t.val = .reset → exec (.reqStateReset t tag lock) s = .next ((idle (from_ 1)).postReq t.val 0 tag)) ∧
    (s.life t.val = .off → exec (.reqStateReady t tag lock) s = .next ((from_ 4).startReq t.val 4 tag)) ∧
    (s.life t.val = .reset → (t.val = 16 → s.hostU.perst = true) →
      exec (.reqStateReady t tag lock) s = .next (((from_ 4).startReq t.val 4 tag).enter t.val .selftest)) ∧
    (s.life t.val = .held → exec (.reqStateReady t tag lock) s = .next ((from_ 4).startReq t.val 4 tag)) ∧
    (s.life t.val = .ready → exec (.reqStateReady t tag lock) s = .next ((from_ 4).postReq t.val 0 tag)) ∧
    (s.life t.val = .ready → s.hasToken t.val = true → (t.val = 8 → s.storeAlone = true) →
      exec (.reqStateHeld t tag lock) s = .next ((timed 6).enter t.val .draining)) ∧
    (s.life t.val = .ready → t.val = 8 → s.storeAlone = false →
      exec (.reqStateHeld t tag lock) s = .next ((from_ 6).postReq t.val 1 tag)) ∧
    (s.life t.val ≠ .ready → exec (.reqStateHeld t tag lock) s = .next ((from_ 6).postReq t.val 1 tag)) ∧
    (s.life t.val ≠ .off → s.life t.val ≠ .reset → s.life t.val ≠ .ready → s.life t.val ≠ .held →
      exec (.reqStateReady t tag lock) s = .next ((from_ 4).postReq t.val 1 tag)) ∧
    (s.life t.val = .ready → s.hasToken t.val = false → t.val ≠ 8 →
      exec (.reqStateHeld t tag lock) s = .next ((from_ 6).postReq t.val 2 tag)) ∧
    (s.life t.val = .held → s.hasToken t.val = true →
      exec (.reqStateSelftest t tag lock) s = .next ((timed 2).enter t.val .selftest)) ∧
    (s.life t.val = .held → s.hasToken t.val = true → exec (.reqStateCalibrate t tag lock) s = .next
      (if hasCalib t.val then (timed 3).enter t.val .calibrate
       else (((timed 3).enter t.val .calibrate).enter t.val .held).endReq t.val 0)) ∧
    (s.life t.val = .held → s.hasToken t.val = false →
      exec (.reqStateSelftest t tag lock) s = .next ((from_ 2).postReq t.val 2 tag) ∧
      exec (.reqStateCalibrate t tag lock) s = .next ((from_ 3).postReq t.val 2 tag)) ∧
    (s.life t.val ≠ .held →
      exec (.reqStateSelftest t tag lock) s = .next ((from_ 2).postReq t.val 1 tag) ∧
      exec (.reqStateCalibrate t tag lock) s = .next ((from_ 3).postReq t.val 1 tag)) ∧
    (∀ code : BitVec 4, code.toNat = 5 ∨ (7 ≤ code.toNat ∧ code.toNat ≤ 14) →
      exec (.reqStateRefusedCode t tag lock code) s = .next ((from_ code.toNat).postReq t.val 1 tag)) ∧
    exec (.tileCtlLockTag t tag lock) s = .next (from_ 15)) ∧
  (∀ (t : Fin 18) (tag : Tag) (lock : Bool) (s : State), t.val ≠ 0 → s.inReset = false →
    ((s.tile t.val).busy = true ∨ (s.tile t.val).resValid = true) →
    exec (.reqStateHeld t tag lock) s = .next ((s.asked t.val 6 tag lock).reqDrop t.val) ∧
    exec (.reqStateSelftest t tag lock) s = .next ((s.asked t.val 2 tag lock).reqDrop t.val) ∧
    exec (.reqStateCalibrate t tag lock) s = .next ((s.asked t.val 3 tag lock).reqDrop t.val) ∧
    (s.life t.val ≠ .draining → exec (.reqStateReady t tag lock) s = .next ((s.asked t.val 4 tag lock).reqDrop t.val)) ∧
    (s.life t.val = .draining → (s.tile t.val).busy = true → (s.tile t.val).target = 6 →
      exec (.reqStateReady t tag lock) s = .next ((s.asked t.val 4 tag lock).startReq t.val 4 tag)) ∧
    (s.life t.val ≠ .off → exec (.reqStateOff t tag lock) s = .next ((s.asked t.val 0 tag lock).startReq t.val 0 tag)) ∧
    (s.life t.val ≠ .reset → exec (.reqStateReset t tag lock) s = .next ((s.asked t.val 1 tag lock).startReq t.val 1 tag))) ∧
  (∀ (t code : Nat) (tag : Tag) (s : State),
    let u := s.postReq t code tag
    (u.tile t).busy = false ∧ (u.tile t).target = 15 ∧ (u.tile t).resValid = true ∧ (u.tile t).resCode = code ∧
    (u.tile t).resTag = tag ∧ bit (u.tile t).evtPend 1 = true ∧ (u.tile t).life = (s.tile t).life ∧
    (∀ a, u.rd a = s.rd a) ∧ (∀ a, u.rb a = s.rb a) ∧ (∀ k, k ≠ t → u.tile k = s.tile k))

/-- The events that end a transition (R16 to R19, R21, R514): each moves the tile on and ends the request with the code that R17
gives, on towards READY by way of SELFTEST and CALIBRATE, which a tile with nothing to calibrate passes through; an OFF request
goes on from RESET; a drain that its bound ends goes to HELD with DRAIN_ABANDONED. SELFTEST without a spare, or with more units of a
radio or an engine cluster out than it has spares, and CALIBRATE that does not
converge are fatal, with causes 0x04 and 0x05 and the failing unit (R18, R32). PERST_N (R435, R483): asserted, HOST enters RESET
from wherever it is but OFF; released with HOST in RESET, outside a device reset and with no OFF request in progress, HOST starts
towards READY. -/
def Obligations.TransitionsComplete : Prop :=
  (∀ (t : Fin 18) (s : State),
    let x := s.tile t.val
    (x.busy = true → x.target = 1 → x.life ≠ .off → x.life ≠ .reset →
      exec (.tileResetReached t) s = .next ((s.tileReset t.val).postReq t.val 0 x.reqTag)) ∧
    (x.busy = true → x.target = 0 → x.life ≠ .off → x.life ≠ .reset →
      exec (.tileResetReached t) s = .next ((s.tileReset t.val).startReq t.val 0 x.reqTag)) ∧
    (x.busy = true → x.target = 0 → x.life = .reset →
      exec (.tileOffReached t) s =
        .next ((s.modTile t.val fun y => { y with busy := false, target := 15 }).enter t.val .off)) ∧
    (x.busy = true → x.target = 1 → x.life = .off →
      exec (.offToResetDone t) s = .next ((s.enter t.val .reset).endReq t.val 0)) ∧
    (x.busy = true → x.target = 4 → x.life = .off →
      exec (.offToResetDone t) s = .next ((s.enter t.val .reset).readyPath t.val)) ∧
    (∀ (n : BitVec 8) (l : List (BitVec 8)), x.life = .selftest → s.noneLeft t.val (l.map (·.toNat)) = none →
      let u := s.tested t.val n.toNat (l.map (·.toNat))
      (x.busy = true → x.target = 4 → exec (.selftestDone t (.pass n l)) s =
        .next (if hasCalib t.val then u.enter t.val .calibrate
          else ((u.enter t.val .calibrate).enter t.val .ready).endReq t.val 0)) ∧
      (x.busy = true → x.target = 2 → exec (.selftestDone t (.pass n l)) s = .next ((u.enter t.val .held).endReq t.val 0))) ∧
    (x.life = .calibrate → x.busy = true → x.target = 4 →
      let u := (s.calibrated t.val).enter t.val .ready
      exec (.calibrateDone t none) s =
        .next ((if t.val = 2 ∨ t.val = 3 ∨ t.val = 4 then u.chainsAtReady (t.val - 2) else u).endReq t.val 0)) ∧
    (x.life = .calibrate → x.busy = true → x.target = 3 →
      exec (.calibrateDone t none) s = .next (((s.calibrated t.val).enter t.val .held).endReq t.val 0)) ∧
    (x.busy = true → x.target = 4 → x.life = .held ∨ x.life = .draining →
      exec (.resumeReadyDone t) s = .next ((s.enter t.val .ready).endReq t.val 0)) ∧
    (x.life = .draining → x.busy = true → x.target = 6 → s.drained t.val = true →
      exec (.drainComplete t) s = .next ((s.enter t.val .held).endReq t.val 0)) ∧
    (x.life = .draining → x.busy = true → x.target = 6 → x.since + s.drainBound t.val ≤ s.clock →
      exec (.drainTimeout t) s = .next (((s.drainExpired t.val).enter t.val .held).endReq t.val 4))) ∧
  (∀ (t : Fin 18) (u : BitVec 8) (s : State), ((s.tile t.val).busy = true → 2 ≤ (s.tile t.val).target) →
    (s.life t.val = .selftest →
      exec (.selftestDone t (.noSpare u)) s = .next (s.faultHook (s.recordErr t.val 4 u.toNat 0 0 true) t.val) ∧
      ∀ (n : BitVec 8) (l : List (BitVec 8)) (k : Nat), s.noneLeft t.val (l.map (·.toNat)) = some k →
        exec (.selftestDone t (.pass n l)) s = .next (s.faultHook (s.recordErr t.val 4 k 0 0 true) t.val)) ∧
    (s.life t.val = .calibrate →
      exec (.calibrateDone t (some u)) s = .next (s.faultHook (s.recordErr t.val 5 u.toNat 0 0 true) t.val))) ∧
  (∀ s : State,
    (s.hostU.perst = true → s.life 16 ≠ .off →
      exec .perstNAssert s = .next ((s.modHost fun x => { x with perst := false }).tileReset 16)) ∧
    (s.hostU.perst = true → s.life 16 = .off →
      exec .perstNAssert s = .next (s.modHost fun x => { x with perst := false })) ∧
    (s.hostU.perst = false → s.inReset = false → s.life 16 = .reset → ¬ ((s.tile 16).busy = true ∧ (s.tile 16).target = 0) →
      exec .perstNRelease s = .next ((s.modHost fun x => { x with perst := true }).enter 16 .selftest)))

/-- The header's write-one commands outside OFF (R28, R31, R33, R34): an acknowledgement retires the result whose tag it carries
and nothing else, TILE_ERR's bits clear where 1 is written, CNT_CLR clears the header's counters, TILE_EVT_PEND's bits clear and
the mask takes the bits that the tile defines. An event message that reaches a controller is ORed into the pending entry of its
source, or makes one (R107), and with no thread in WAITEV it stays there; with one waiting and nothing pending before, that thread
runs with the source in A and the bits in E. -/
def Obligations.HeaderWritesAndMessages : Prop :=
  (∀ (t : Fin 18) (s : State), s.life t.val ≠ .off →
    (∀ tag : Tag, exec (.tileCtlAck t tag) s = .next
      (if (s.tile t.val).resValid ∧ (s.tile t.val).resTag = tag then s.modTile t.val fun x => { x with resValid := false } else s)) ∧
    (∀ f m e d : Bool, exec (.tileErrWrite t f m e d) s = .next (s.modTile t.val fun x => { x with
      firstValid := x.firstValid && !f, multi := x.multi && !m, early := x.early && !e, reqDrop := x.reqDrop && !d })) ∧
    (∃ u, exec (.cntClr t) s = .next u ∧ u.tile t.val = { s.tile t.val with earlyWr := 0, uncorr := 0, corr := 0 } ∧
      (∀ a ∈ cntRegs t.val, t.val ≠ 0 → t.val ≠ 1 → t.val ≠ 10 → u.rd a = 0)) ∧
    (∀ bits : Word, ∃ u, exec (.evtPendClear t bits) s = .next u ∧
      (u.tile t.val).evtPend = (s.tile t.val).evtPend &&& ~~~ bits ∧ (u.tile t.val).evtMask = (s.tile t.val).evtMask ∧
      (∀ a, u.rd a = s.rd a) ∧ (∀ a, u.rb a = s.rb a)) ∧
    (∀ mask : Word, ∃ u, exec (.evtMaskWrite t mask) s = .next u ∧
      (u.tile t.val).evtMask = mask &&& evtDefined t.val ∧ (u.tile t.val).evtPend = (s.tile t.val).evtPend ∧
      (∀ a, u.rd a = s.rd a) ∧ (∀ a, u.rb a = s.rb a))) ∧
  (∀ (n : Nat) (m : EvtMsg) (s : State), s.msgs[n]? = some m → hasController m.dst = true → s.waiter m.dst = none →
    ∃ u, exec (.eventMessageArrive n) s = .next u ∧ u.msgs = s.msgs.eraseIdx n ∧
      (∃ w, (m.src, w) ∈ tget (fun _ => []) u.evtIn m.dst ∧ w &&& m.bits = m.bits) ∧
      (∀ a, u.rd a = s.rd a) ∧ (∀ a, u.rb a = s.rb a) ∧ (∀ k, u.tile k = s.tile k)) ∧
  (∀ (n : Nat) (m : EvtMsg) (thr : Nat) (s : State), s.msgs[n]? = some m → hasController m.dst = true → s.waiter m.dst = some thr →
    tget (fun _ => []) s.evtIn m.dst = [] → ∃ u, exec (.eventMessageArrive n) s = .next u ∧ u.msgs = s.msgs.eraseIdx n ∧
      u.thread (threadKey m.dst 0 thr) =
        { s.thread (threadKey m.dst 0 thr) with a := wd (0x80000000 + m.src), e := m.bits, run := .running } ∧
      tget (fun _ => []) u.evtIn m.dst = [] ∧ (∀ a, u.rd a = s.rd a) ∧ (∀ a, u.rb a = s.rb a) ∧ (∀ k, u.tile k = s.tile k))

/-- Errors of a tile's own hardware outside OFF (R14, R32, R515): a failed flit is counted as corrected until the sixteenth
retransmission in succession fails, which is fatal with cause 0x02; a good flit ends the succession, and one that differs from the
last failed one on a single track is evidence against that track (R473); a lost lock is fatal with cause 0x06 and stays listed until the island locks again; an uncorrectable error of a local memory is counted and fatal with cause
0x01. The first error of a tile that is not OFF fills its record, once (R32): cause, unit, detail and address; a later one sets
MULTI and leaves the record as it is, and of two at one time the lower cause stands; a fatal one puts a
tile other than MGMT into FAULT unless it is in RESET (R18). -/
def Obligations.HardwareErrorsAreRecorded : Prop :=
  (∀ (t : Fin 18) (s : State), s.life t.val ≠ .off →
    (∀ (link : Fin 4) (data : BitVec 256) (check : Byte), link.val < attachments t.val →
      let n := tget (fun _ => 0) (s.tile t.val).flitFails link.val
      let got := data.toNat + 2 ^ 256 * check.toNat
      let fails := fun (u : State) (k last : Nat) => u.modTile t.val fun x => { x with
        flitFails := tput (fun _ => 0) x.flitFails link.val k, flitLast := tput (fun _ => 0) x.flitLast link.val last }
      (flitCrc data ≠ check.toNat →
        (n < 16 → exec (.flitReceive t link data check) s = .next (fails (s.corrInc t.val) (n + 1) got)) ∧
        (16 ≤ n → exec (.flitReceive t link data check) s =
          .next (s.faultHook ((fails s 0 0).recordErr t.val 2 noUnit 0 0 true) t.val))) ∧
      (flitCrc data = check.toNat →
        (n = 0 ∨ trackDiff (tget (fun _ => 0) (s.tile t.val).flitLast link.val) got = none →
          exec (.flitReceive t link data check) s = .next (fails s 0 0)) ∧
        (∀ k, n ≠ 0 → trackDiff (tget (fun _ => 0) (s.tile t.val).flitLast link.val) got = some k →
          exec (.flitReceive t link data check) s = .next ((fails s 0 0).axEvidence 30 t.val (trackUnit link.val k) 1800000000000
            (s.rf Reg.MGMT.AX_CTL 23 16))))) ∧
    (∀ island : Fin 5, island.val < islands t.val → ¬ (t.val = 17 ∧ 1 ≤ island.val) →
      ¬ (t.val = 8 ∧ island.val = 1 ∧ (s.life 8 = .reset ∨ s.life 8 = .held)) →
      (s.tile t.val).unlocked.contains island.val = false →
      exec (.islandLockLoss t island) s = .next (s.faultHook
        ((s.modTile t.val fun x => { x with unlocked := x.unlocked ++ [island.val] }).recordErr t.val 6 noUnit 0 0 true) t.val)) ∧
    (∀ island : Fin 5, exec (.islandRelock t island) s =
      .next (s.modTile t.val fun x => { x with unlocked := x.unlocked.filter (· != island.val) })) ∧
    (∀ (unit : BitVec 8) (addr : BitVec 40), exec (.sramUncorrectable t unit addr) s =
      .next (s.faultHook ((s.uncorrInc t.val).recordErr t.val 1 unit.toNat 0 addr.toNat true) t.val))) ∧
  (∀ (t cause unit detail addr : Nat) (s : State), s.life t ≠ .off →
    let u := s.recordErr t cause unit detail addr false
    ((s.tile t).firstValid = false →
      (u.tile t).firstValid = true ∧ (u.tile t).cause = cause ∧ (u.tile t).errUnit = unit ∧ (u.tile t).errDetail = detail ∧
      (u.tile t).errAddr = addr % 2 ^ 40 ∧ (u.tile t).multi = (s.tile t).multi ∧ bit (u.tile t).evtPend 2 = true) ∧
    ((s.tile t).firstValid = true → ¬ ((s.tile t).firstAt = s.clock ∧ cause < (s.tile t).cause) →
      u.tile t = { s.tile t with multi := true }) ∧
    ((s.tile t).firstValid = true → (s.tile t).firstAt = s.clock → cause < (s.tile t).cause →
      (u.tile t).multi = true ∧ (u.tile t).cause = cause ∧ (u.tile t).errUnit = unit ∧ (u.tile t).errDetail = detail ∧
      (u.tile t).errAddr = addr % 2 ^ 40) ∧
    (t ≠ 0 → s.life t ≠ .reset → (s.recordErr t cause unit detail addr true).life t = .fault))

/-- One pass of the maintenance arbiter (R469, R470): tokens held without conflict stay so, no token held is lost, every request
of before is granted or still waits, and a request that conflicts with nothing held and with no other request is granted.
Maintenance requests (R468, R470, R471): a slot that is free takes the request and the arbiter passes, INVALID at once where the
kind does not name the scope, dropped where the slot is busy; an acknowledgement with the slot's tag gives the token or the
request up and clears the word; hardware asks once; a request old enough counts as aged from then on. The watchdogs (R467): 0x55
arms the kick, 0xAA kicks while armed and reloads the count, any other value disarms; at its expiry a controller's tile records
cause 0x03 and the WDT event pends, and MGMT's own restarts MGMT. -/
def Obligations.MaintenanceTokensAndWatchdogs : Prop :=
  (∀ s : State, s.tokens.Pairwise (fun p q => conflicts p q = false) →
    s.arbitrate.tokens.Pairwise (fun p q => conflicts p q = false) ∧
    (∀ q ∈ s.tokens, q ∈ s.arbitrate.tokens) ∧
    (∀ q ∈ s.tokenReqs, q ∈ s.arbitrate.tokens ∨ q ∈ s.arbitrate.tokenReqs) ∧
    (∀ q ∈ s.tokenReqs, (∀ p, p ∈ s.tokens ∨ (p ∈ s.tokenReqs ∧ p ≠ q) → conflicts q p = false) →
      conflicts q q = false → q ∈ s.arbitrate.tokens)) ∧
  (∀ (by_ : Req) (k : Fin 16) (scope : BitVec 5) (kind : BitVec 4) (tag : Tag) (s : State), s.accepts by_ 0 = true →
    let res := Reg.MGMT.MT_RES k.val
    (s.pathFree res = true → scopeOk kind.toNat scope.toNat = true →
      let q : Token := ⟨kind.toNat, scope.toNat, .slot k.val, tag, reqMgmt by_, false, s.clock⟩
      exec (.mtRequest by_ k scope kind tag) s =
        .next (State.arbitrate { s.pathBusy res 0 tag with tokenReqs := s.tokenReqs ++ [q] })) ∧
    (s.pathFree res = true → scopeOk kind.toNat scope.toNat = false → ∃ u,
      exec (.mtRequest by_ k scope kind tag) s = .next u ∧ u.rd res = wd (2 ^ 31 + 2 ^ 27 + tag.toNat) ∧
      bit (u.tile 0).evtPend 19 = true ∧ u.tokenReqs = s.tokenReqs ∧ (∀ a, a ≠ res → u.rd a = s.rd a) ∧ (∀ a, u.rb a = s.rb a)) ∧
    (s.pathFree res = false → exec (.mtRequest by_ k scope kind tag) s = .next (s.reqDrop 0)) ∧
    (s.pathFree res = false → s.pathTag res 0 = tag → ∃ u, exec (.mtAck by_ k tag) s = .next (State.arbitrate u) ∧ u.rd res = 0 ∧
      (∀ q, q ∈ u.tokens ↔ q ∈ s.tokens ∧ q.holder ≠ .slot k.val) ∧
      (∀ q, q ∈ u.tokenReqs ↔ q ∈ s.tokenReqs ∧ q.holder ≠ .slot k.val)) ∧
    (s.pathTag res 0 ≠ tag → exec (.mtAck by_ k tag) s = .next s) ∧
    (scopeOk kind.toNat scope.toNat = true → s.holds kind.toNat scope.toNat = false → s.asks kind.toNat scope.toNat = false →
      let q : Token := { kind := kind.toNat, scope := scope.toNat, holder := .unit, since := s.clock }
      exec (.hwTokenRequest kind scope false) s = .next (State.arbitrate { s with tokenReqs := s.tokenReqs ++ [q] })) ∧
    (∀ n : Nat, ∃ l, exec (.tokenAged n) s = .next (State.arbitrate { s with tokenReqs := l }) ∧ l.length = s.tokenReqs.length ∧
      (∀ j, ∀ q ∈ s.tokenReqs[j]?, l[j]? = some (if j = n ∧ s.tokenOld q = true then { q with aged := true } else q)))) ∧
  (∀ (by_ : Req) (k : Fin 7) (key : Byte) (s : State) (due : Nat), s.accepts by_ 0 = true →
    tget (fun _ => none) s.mgmt.wdDue k.val = some due →
    (key ≠ 0x55 → key ≠ 0xAA → ∃ u, exec (.wdtKick by_ k key) s = .next u ∧ u.mgmt.wdArm.contains k.val = false ∧
      u.mgmt.wdDue = s.mgmt.wdDue) ∧
    (∃ u, exec (.wdtKick by_ k 0x55) s = .next u ∧ u.mgmt.wdArm.contains k.val = true ∧ u.mgmt.wdDue = s.mgmt.wdDue) ∧
    (∃ u, exec (.wdtKick by_ k 0xAA) s = .next u ∧ u.mgmt.wdArm.contains k.val = false ∧
      tget (fun _ => none) u.mgmt.wdDue k.val =
        some (if s.mgmt.wdArm.contains k.val then s.clock + s.wdPeriod k.val else due) ∧
      (∀ a, u.rd a = s.rd a) ∧ (∀ a, u.rb a = s.rb a)) ∧
    (due ≤ s.clock → k.val ≠ 0 → ∃ u : State, exec (.wdtExpire k) s =
      .next (s.faultHook (u.recordErr (wdTiles.getD k.val 0) 3 noUnit 0 0 true) (wdTiles.getD k.val 0)) ∧
      tget (fun _ => none) u.mgmt.wdDue k.val = none ∧ bit (u.tile 0).evtPend 18 = true) ∧
    (due ≤ s.clock → k.val = 0 → ∃ u : State, exec (.wdtExpire k) s = .next (s.faultHook (State.mgmtRestart u 3) 0)))

/-- The thermal stage (R465): it rises at once to the highest threshold that the temperature reaches, and falls one stage at a
time while the temperature is more than 3 degrees below the stage's threshold. The monitors of MGMT (R465, R466): a reading of the
sensors and the voltage monitors shows in TEMP, THERM_STATUS and VMON, UV and OV by the monitor's limits; RO_MON takes its counts;
and an aligned window of 10 ms that begins sets the duty counts of the radios to 0. No byte but the event log's changes at a
reading; a reading at another time than each millisecond's (R465), a report within 100 ms of the last (R466) and either in a
reset of the device do nothing. -/
def Obligations.MonitorsSetTheThermalStage : Prop :=
  (∀ (thr : Nat → Int) (tj : Int) (st : Nat),
    let n := stageNext thr tj st
    (∀ k, 1 ≤ k → k ≤ 4 → thr k ≤ tj → k ≤ n) ∧ (st < n → 1 ≤ n ∧ n ≤ 4 ∧ thr n ≤ tj) ∧
    (n < st → ∀ j, n < j → j ≤ st → tj < thr j - 3) ∧ (n ≤ st → 0 < n → thr n - 3 ≤ tj)) ∧
  (∀ (temps mv now : List (BitVec 16)) (s : State),
    (s.sensorDue = false → exec (.sensorRead temps mv) s = .next s) ∧
    (s.inReset = true ∨ s.clock - s.mgmt.roAt < 50000000 → exec (.roMonUpdate now) s = .next s) ∧
    (s.sensorDue = true → ∃ u, exec (.sensorRead temps mv) s = .next u ∧
      (∀ n d, n < 12 → temps[n]? = some d → u.rd (Reg.MGMT.TEMP n) = wd (b2n (tempValid d) * 2 ^ 31 + d.toNat)) ∧
      (∀ hot v, hottest 0 (temps.take 12) = some (hot, v) →
        u.rf Reg.MGMT.THERM_STATUS 31 29 = stageNext s.thr ((v + 3) / 4) (s.rf Reg.MGMT.THERM_STATUS 31 29) % 8 ∧
        u.rf Reg.MGMT.THERM_STATUS 23 16 = ofInt 8 ((v + 3) / 4)) ∧
      (∀ n d, n < 16 → mv[n]? = some d →
        let lim := s.rd (Reg.MGMT.VMON_LIM n)
        u.rd (Reg.MGMT.VMON n) =
          wd (b2n (d.toNat < fld lim 15 0) * 2 ^ 31 + b2n (fld lim 31 16 < d.toNat) * 2 ^ 30 + d.toNat)) ∧
      (∀ a, a < logBase ∨ logBase + 65536 ≤ a → u.rb a = s.rb a)) ∧
    (s.inReset = false → 50000000 ≤ s.clock - s.mgmt.roAt → ∃ u, exec (.roMonUpdate now) s = .next u ∧
      (∀ n d, n < 24 → now[n]? = some d → u.rf (Reg.MGMT.RO_MON n) 15 0 = d.toNat ∧
        u.rf (Reg.MGMT.RO_MON n) 31 16 = s.rf (Reg.MGMT.RO_MON n) 31 16) ∧
      (∀ a, u.rb a = s.rb a) ∧ (∀ t, u.tile t = s.tile t)) ∧
    (s.mgmt.dutyWin ≠ s.ns / 10000000 + 1 → ∃ u, exec .dutyWindow s = .next u ∧
      (∀ r, r < 3 → (u.radio r).duty = 0) ∧ u.mgmt.dutyWin = s.ns / 10000000 + 1 ∧ (∀ a, u.rb a = s.rb a)))

/-- OTP_PROG and LOG_PUT (R23, R459, R464): bits of a permitted OTP word go from 0 to 1, both halves of the word apart from each
other, and nothing else changes; another requester's write of the private space is a decode error; a KIND of 128 or more appends a
record for the writer. The commands of CR, the flash and AVS (R473, R474, R479): each is taken where its result word is free, and
its end posts the result; the flash moves bytes between MGMT's SRAM and itself; AVS refuses a voltage outside 650 to 900 mV, or
while its EN is 0. -/
def Obligations.MgmtCommandsPostResults : Prop :=
  (∀ (by_ : Req) (val : Word) (s : State),
    (reqMgmt by_ = true →
      let o := 4 * fld val 31 20
      let at_ := privBase + o + (if bit val 16 then 2 else 0)
      ∃ u, exec (.otpProg by_ val) s = .next u ∧
        (0x10 ≤ o → (bit s.otpCfg 4 = false ∨ 0x200 ≤ o) → u.rm at_ 2 = s.rm at_ 2 ||| fld val 15 0) ∧
        (o < 0x10 → u = s) ∧ (∀ a, a ≠ at_ → a ≠ at_ + 1 → u.rb a = s.rb a) ∧ (∀ a, u.rd a = s.rd a) ∧
        (∀ t, u.tile t = s.tile t)) ∧
    (reqMgmt by_ = false →
      exec (.otpProg by_ val) s = .next (s.recordErr (reqTile by_) 8 noUnit 0 (privBase + 0x1000) false)) ∧
    (s.accepts by_ 0 = true → 128 ≤ fld val 31 24 →
      exec (.logPut by_ val) s = .next (s.logRec (reqTile by_) (fld val 31 24) (fld val 23 8) (fld val 7 0) 0 0 0)) ∧
    (s.accepts by_ 0 = true → fld val 31 24 < 128 → exec (.logPut by_ val) s = .next s)) ∧
  (∀ (by_ : Req) (op : Byte) (dtr acked : Bool) (mv : BitVec 16) (tag : Tag) (s : State),
    (reqMgmt by_ = true → s.pathFree Reg.PRIV.CR_RES = true →
      (∃ u, exec (.crHash by_ tag) s = .next u ∧ u.mgmt.cr = some false ∧ u.rd Reg.PRIV.CR_RES = wd (2 ^ 30 + tag.toNat * 256)) ∧
      (∃ u, exec (.crVerify by_ tag) s = .next u ∧ u.mgmt.cr = some true ∧ u.rd Reg.PRIV.CR_RES = wd (2 ^ 30 + tag.toNat * 256))) ∧
    (reqMgmt by_ = true → s.rbit Reg.PRIV.CR_RES 31 = true → s.pathTag Reg.PRIV.CR_RES 8 = tag →
      exec (.crAck by_ tag) s = .next (s.wr Reg.PRIV.CR_RES 0)) ∧
    (reqMgmt by_ = true → s.pathFree Reg.PRIV.FL_RES = true →
      let taken := fun (write : Bool) => (s.pathBusy Reg.PRIV.FL_RES 8 tag).modMgmt fun x => { x with fl := some ⟨op, dtr, write⟩ }
      exec (.flRead by_ op dtr tag) s = .next (taken false) ∧ exec (.flWrite by_ op dtr tag) s = .next (taken true)) ∧
    (reqMgmt by_ = true → s.rbit Reg.PRIV.FL_RES 31 = true → s.pathTag Reg.PRIV.FL_RES 8 = tag →
      exec (.flAck by_ tag) s = .next (s.wr Reg.PRIV.FL_RES 0)) ∧
    (∀ c, s.mgmt.fl = some c → ∃ u, exec .flDone s = .next u ∧ u.mgmt.fl = none ∧
      u.rbit Reg.PRIV.FL_RES 31 = true ∧ u.pathTag Reg.PRIV.FL_RES 8 = s.pathTag Reg.PRIV.FL_RES 8 ∧
      bit (u.tile 0).evtPend 22 = true ∧ (c.write = true → ∀ a, u.rb a = s.rb a) ∧
      (c.write = false → u.mgmt.flash = s.mgmt.flash ∧
        let o := (s.rd Reg.PRIV.FL_BUF).toNat
        let n := min 4096 (s.rd Reg.PRIV.FL_LEN).toNat
        (∀ k, k < n → o + k < 0x80000 → u.rb (0x2000000000 + o + k) = s.flashByte ((s.rd Reg.PRIV.FL_ADDR).toNat + k)) ∧
        (∀ a, a < 0x2000000000 + o ∨ 0x2000000000 + o + n ≤ a → u.rb a = s.rb a))) ∧
    (s.accepts by_ 0 = true → s.pathFree Reg.MGMT.AVS_RESULT = true → s.rbit Reg.MGMT.AVS_CTL 31 = true →
      (650 ≤ mv.toNat → mv.toNat ≤ 900 → ∃ u, exec (.avsTarget by_ mv tag) s = .next u ∧
        u.rd Reg.MGMT.AVS_RESULT = wd (2 ^ 30 + tag.toNat * 2 ^ 16) ∧
        u.mgmt.avs = some (avsCode (sval 5 (s.rf Reg.MGMT.AVS_CTL 12 8)) mv.toNat % 65536)) ∧
      (mv.toNat < 650 ∨ 900 < mv.toNat → exec (.avsTarget by_ mv tag) s =
        .next (s.pathPost Reg.MGMT.AVS_RESULT 16 tag (2 * 2 ^ 28)))) ∧
    (∀ w, s.mgmt.avs = some w → ∃ u, exec (.avsDone acked) s = .next u ∧ u.mgmt.avs = none ∧
      u.rd Reg.MGMT.AVS_RESULT =
        wd (2 ^ 31 + ((if acked then 0 else 2 ^ 28) + w) + (s.pathTag Reg.MGMT.AVS_RESULT 16).toNat * 2 ^ 16)) ∧
    (s.accepts by_ 0 = true → s.rbit Reg.MGMT.AVS_RESULT 31 = true → s.pathTag Reg.MGMT.AVS_RESULT 16 = tag →
      exec (.avsAck by_ tag) s = .next (s.wr Reg.MGMT.AVS_RESULT 0)))

/-- Axolotl (R31, R473): corrected errors of a row are counted and gathered as evidence for 24 hours; an attempt ends in service
with code 0, or with code 1 where no spare is left, and an engine's is the manager's SUBST_CMD. -/
def Obligations.AxolotlSubstitutes : Prop :=
  ∀ (t : Fin 18) (link : Fin 4) (row : BitVec 16) (track : BitVec 9) (r : Fin 3) (c : Fin 4) (e : Fin 8) (q : AxReq) (s : State),
    (s.life t.val ≠ .off → exec (.sramCorrectedError t row) s =
      .next ((s.corrInc t.val).axEvidence 31 t.val row.toNat 43200000000000 (s.rf Reg.MGMT.AX_CTL 15 8))) ∧
    (s.axReady 31 t.val row.toNat = some q → s.live t.val = true →
      (∀ n : BitVec 8, exec (.axSramRowSubst t row (some n)) s = .next (s.axEnd q n.toNat 0)) ∧
      exec (.axSramRowSubst t row none) s = .next (s.axEnd q 0 1)) ∧
    (s.axReady 30 t.val (link.val * 512 + track.toNat) = some q → s.live t.val = true →
      let key := t.val * 4 + link.val
      let used := tget (fun _ => 0) s.mgmt.tracks key
      (2 ≤ used → exec (.axTrackSubst t link track) s = .next (s.axEnd q 0 1)) ∧
      (used < 2 → ∃ v : State, exec (.axTrackSubst t link track) s = .next (v.axEnd q used 0) ∧
        tget (fun _ => 0) v.mgmt.tracks key = used + 1 ∧ (∀ a, v.rd a = s.rd a) ∧ (∀ a, v.rb a = s.rb a))) ∧
    (s.mgmt.axPend.find? (fun p => p.kind = 29 && p.scope = rTile r.val) = some q →
      s.holds kSUBST (rTile r.val) = true → s.live (rTile r.val) = true →
      let act := s.rf (Reg.RADIO.RX_LANES r.val) 12 0
      let failed := s.rf (Reg.RADIO.RX_LANES r.val) 28 16
      (laneFrom (2 ^ 13 - 1 - act - failed) 0 = none → exec (.axLaneSubst r) s = .next (s.axEnd q 0 1)) ∧
      (∀ n, laneFrom (2 ^ 13 - 1 - act - failed) 0 = some n →
        exec (.axLaneSubst r) s = .next ((s.setLanes r.val (act + 2 ^ n) failed).axEnd q n 0))) ∧
    (s.axReady 28 (engTile c.val) (s.rf (Reg.ENG.ENG_MAP c.val) (4 * e.val + 3) (4 * e.val)) = some q →
      s.live (engTile c.val) = true → s.pathFree (Reg.ENG.SUBST_RESULT c.val) = true →
      let v := (s.setAxPend (s.mgmt.axPend.map fun p => if p = q then { p with started := true } else p)).took
      let w := v.substCmd c.val e.val (BitVec.ofNat 8 (s.free 8))
      exec (.axEngineSubst c e) s = .next (if w.rbit (Reg.ENG.SUBST_RESULT c.val) 31 then
        w.axEngEnd (engTile c.val) (v.spareEng c.val) (w.rf (Reg.ENG.SUBST_RESULT c.val) 29 27) else w))

/-- The device resets (R464, R480, R481): POR_N and a stopped reference clock put every register back to its reset value but the
fused ones, and every tile's header too, and stop every thread; they keep the boot ROM and the OTP of all the memory. SYS_RST_N and
DEV_RST keep the
event log with its indices and TRIAL besides; another key than DEV_RST's does nothing. The queue and the model's clock go on; that
the memory not kept reads 0 is the
model's (log entry 1). The end of a device reset (R42, R481, R482): once the last input is released, and at once after DEV_RST,
MGMT's two threads run from address 0 with the reset values and MGMT is about to run its ROM
with BOOT_MODE as sampled; the count of the AON clock starts at POR_N's release. -/
def Obligations.DeviceResetsKeepWhatR481Names : Prop :=
  let runs := fun (u : State) =>
    u.thread (threadKey 0 0 0) = { run := .running } ∧ u.thread (threadKey 0 0 1) = { run := .running }
  (∀ (by_ : Req) (s : State),
    let still := fun (u : State) => ∀ k, u.thread k = {}
    let after := fun (por : Bool) (u : State) =>
      (∀ a, u.rd a = if resetRegs por a then s.rd a else regReset a) ∧ (∀ a, u.rb a = if resetKeeps por a then s.rb a else 0) ∧
      (∀ t, u.tile t = {}) ∧ (∀ k, k ≠ threadKey 0 0 0 → k ≠ threadKey 0 0 1 → u.thread k = {}) ∧ u.tokens = [] ∧
      u.pending = s.pending ∧ u.clock = s.clock
    (s.mgmt.porLow = false → ∃ u, exec .porNAssert s = .next u ∧ after true u ∧ u.inReset = true ∧ u.mgmt.cause = 0 ∧ still u) ∧
    (s.mgmt.refOff = false → ∃ u, exec .refclkStop s = .next u ∧ after true u ∧ u.inReset = true ∧ still u) ∧
    (s.mgmt.sysLow = false → s.mgmt.porLow = false → s.mgmt.refOff = false →
      ∃ u, exec .sysRstNAssert s = .next u ∧ after false u ∧ u.inReset = true ∧ u.mgmt.cause = 1 ∧ still u) ∧
    (s.accepts by_ 0 = true → reqMgmt by_ = true → s.inReset = false →
      ∃ u, exec (.devRst by_ 0xA5C3) s = .next u ∧ after false u ∧ u.mgmt.phase = .rom ∧ u.mgmt.cause = 1 ∧ runs u) ∧
    (∀ key, key ≠ 0xA5C3 → s.accepts by_ 0 = true → exec (.devRst by_ key) s = .next s)) ∧
  (∀ (mode : BitVec 2) (s : State), s.mgmt.phase = .held →
    (s.mgmt.porLow = true → s.mgmt.refOff = false → s.mgmt.sysLow = false → ∃ u, exec (.porNRelease mode) s = .next u ∧
      u.inReset = false ∧ u.mgmt.phase = .rom ∧ u.mgmt.mode = mode.toNat ∧ u.porClock = s.clock ∧ u.aon = 0 ∧ runs u ∧
      (∀ a, u.rd a = s.rd a) ∧ (∀ a, u.rb a = s.rb a) ∧ (∀ t, u.tile t = s.tile t)) ∧
    (s.mgmt.refOff = true → s.mgmt.porLow = false → s.mgmt.sysLow = false → ∃ u, exec (.refclkResume mode) s = .next u ∧
      u.inReset = false ∧ u.mgmt.phase = .rom ∧ u.mgmt.mode = mode.toNat ∧ u.porClock = s.clock ∧ runs u) ∧
    (s.mgmt.sysLow = true → s.mgmt.porLow = false → s.mgmt.refOff = false → ∃ u, exec (.sysRstNRelease mode) s = .next u ∧
      u.inReset = false ∧ u.mgmt.phase = .rom ∧ u.mgmt.mode = mode.toNat ∧ u.porClock = s.porClock ∧ runs u ∧
      u.mgmt.cause = (if s.porClock + 12 < s.clock then 1 else s.mgmt.cause)) ∧
    (s.mgmt.porLow = true → s.mgmt.sysLow = true → ∃ u, exec (.sysRstNRelease mode) s = .next u ∧
      u.mgmt.phase = .held ∧ u.mgmt.sysLow = false))

/-- The code of an image's checks (R463), made in order: header, key and signature where SECURE_EN is 1, digest of the body,
security version. The boot ROM (R42, R460 to R463): it runs in RESET after a reset or a restart, loads the trap vectors and boots
as BOOT_MODE says, from flash on a restart; an image that comes over UART0 or from the host is checked, answered with its code and
started where the code is 0, and a host image's ROM retires the results of STORE's and HOST's requests that it made itself. A verified image that the ROM starts (R42, R463): its body stands at LOAD of MGMT's SRAM, MGMT is
READY and both its threads run at ENTRY; SOURCE, RES_A and RES_B show in BOOT_STATUS. The end of a CR command (R473, R474): VERIFY
posts OK where the signature verifies and leaves CR_DIGEST alone; HASH reads the range line by line, leaves its SHA-384 digest and
posts OK. -/
def Obligations.RomBootsAsModeSays : Prop :=
  (∀ (l : List Byte) (s : State),
    (s.imgCode l = 0 ↔ imgHdrOk l = true ∧ (s.secure = true → s.imgKeyOk l = true ∧ imgSigOk l = true) ∧
      sha384 (nats (imgBody l)) = nats ((l.drop 24).take 48) ∧ s.rollback ≤ imgSvn l) ∧
    (s.imgCode l = 1 ↔ imgHdrOk l = false) ∧
    (s.imgCode l = 2 ↔ imgHdrOk l = true ∧ s.secure = true ∧ s.imgKeyOk l = false) ∧
    (s.imgCode l = 3 ↔ imgHdrOk l = true ∧ s.secure = true ∧ s.imgKeyOk l = true ∧ imgSigOk l = false) ∧
    s.imgCode l ≤ 5) ∧
  (∀ (image : List Byte) (resA resB : Nat) (s : State),
    (s.inReset = false → s.mgmt.phase = .rom → s.life 0 = .reset →
      let s1 := s.sramPut 0 (s.rbytes 0x3000000000 256)
      (2 ≤ s.mgmt.cause ∨ s.mgmt.mode = 0 ∨ s.mgmt.mode = 3 → exec .romBoot s = .next s1.flashBoot) ∧
      (s.mgmt.cause < 2 → s.mgmt.mode = 1 → exec .romBoot s = .next (s1.hostBoot 6 6)) ∧
      (s.mgmt.cause < 2 → s.mgmt.mode = 2 → exec .romBoot s = .next (s1.uartBoot 6 6))) ∧
    (s.mgmt.phase = .uart resA resB →
      let s1 := s.modMgmt fun x => { x with uartOut := x.uartOut ++ [BitVec.ofNat 8 (s.imgCode image)] }
      exec (.uartBootImage image) s = .next (if s.imgCode image = 0 then s1.startImage image 3 resA resB else s1)) ∧
    (s.mgmt.phase = .host resA resB → s.live 16 = true → s.live 8 = true → s.rbit (Reg.HOST.MBX_W5 0) 30 = true →
      s.rf (Reg.HOST.MBX_W4 0) 31 16 = 1 →
      let s0 := if 2 ≤ s.mgmt.cause then s else (s.ctlAck 8 0).ctlAck 16 0
      let a := s.rf (Reg.HOST.MBX_W1 0) 7 0 * 2 ^ 32 + (s.rd (Reg.HOST.MBX_W0 0)).toNat
      let r := s0.readLines (.tile 0) a (s.rd (Reg.HOST.MBX_W2 0)).toNat
      let s1 := r.1.mbxPost (.tile 0) 0 (r.1.imgCode r.2) (s.rf (Reg.HOST.MBX_W5 0) 7 0)
      exec .hostBootImage s = .next (if r.1.imgCode r.2 = 0 then s1.startImage r.2 2 resA resB else s1))) ∧
  (∀ (l : List Byte) (source resA resB : Nat) (s : State), imgHdrOk l = true → s.life 0 = .reset →
    source < 4 → resA < 8 → resB < 8 →
    let u := s.startImage l source resA resB
    (∀ k b, (imgBody l)[k]? = some b → u.rb (0x2000000000 + imgLoad l + k) = b) ∧ u.life 0 = .ready ∧
    (∀ thr, thr < 2 → (u.thread (threadKey 0 0 thr)).run = .running ∧ (u.thread (threadKey 0 0 thr)).pc = imgEntry l) ∧
    u.rf Reg.MGMT.BOOT_STATUS 25 24 = source ∧ u.rf Reg.MGMT.BOOT_STATUS 23 21 = resA ∧
    u.rf Reg.MGMT.BOOT_STATUS 20 18 = resB ∧ u.rbit Reg.MGMT.BOOT_STATUS 31 = s.secure) ∧
  (∀ s : State,
    (s.mgmt.cr = some true → ∃ u, exec .crDone s = .next u ∧ u.mgmt.cr = none ∧ u.rbit Reg.PRIV.CR_RES 31 = true ∧
      u.rbit Reg.PRIV.CR_RES 29 = ecdsaVerify (nats s.crDigest) (nats (s.sramBytes (s.rd Reg.PRIV.CR_KEY).toNat 96))
        (nats (s.sramBytes (s.rd Reg.PRIV.CR_SIG).toNat 96)) ∧
      (∀ i, i < 12 → u.rd (Reg.PRIV.CR_DIGEST i) = s.rd (Reg.PRIV.CR_DIGEST i)) ∧ (∀ a, u.rb a = s.rb a)) ∧
    (s.mgmt.cr = some false →
      let r := (s.modMgmt fun x => { x with cr := none }).readLines (.tile 0)
        ((s.rd Reg.PRIV.CR_SRC_HI).toNat * 2 ^ 32 + (s.rd Reg.PRIV.CR_SRC_LO).toNat) (s.rd Reg.PRIV.CR_LEN).toNat
      exec .crDone s = .next (((r.1.putDigest (sha384 (nats r.2))).pathPost Reg.PRIV.CR_RES 8
        (s.pathTag Reg.PRIV.CR_RES 8) (2 ^ 29)).evt 0 21)))

/-- REGISTER_WRITE and an access of a tile's hardware by their address (R23 to R26, R309, R516): a range of the store is written
while STORE serves; a word of a control window is written to its register; the boot ROM and an unmapped address take nothing and
make a decode error of the issuer. A write of a local memory (R24, R29): bytes of a range that the memory holds and that no rule
of its own guards are stored, and all other memory keeps its value; the host never reaches it. A word that a plain register takes
(R7, R26, R30): under the mask of its row, without the bits that LOCK guards while the tile is locked; the bits outside keep their
values. A write that reaches a tile which does not accept it has no effect but the count of early writes, which saturates, and
none at all in OFF (R29); the same holds of every command register of the tiles named here. -/
def Obligations.WritesGoWhereTheMapSays : Prop :=
  (∀ (by_ : Req) (addr : BitVec 40) (size : Nat) (val : Word) (s : State), size ≤ 4 →
    (addr.toNat + size ≤ storeEnd → addr.toNat < storeEnd → s.storeUp = true →
      exec (.registerWrite by_ addr size val) s = .next (s.storeWrite (reqPort by_) addr.toNat (le size val.toNat))) ∧
    (∀ t off, regionOf addr.toNat = .control t off → addr.toNat % 4 = 0 →
      exec (.registerWrite by_ addr 4 val) s = .next (s.controlWrite by_ t off val)) ∧
    (∀ t off, regionOf addr.toNat = .control t off → addr.toNat % 4 ≠ 0 →
      exec (.registerWrite by_ addr size val) s = .next (s.recordErr (reqTile by_) 8 noUnit 0 addr.toNat false)) ∧
    ((∃ off, regionOf addr.toNat = .rom off) ∨ regionOf addr.toNat = .unmapped →
      exec (.registerWrite by_ addr size val) s = .next (s.recordErr (reqTile by_) 8 noUnit 0 addr.toNat false))) ∧
  (∀ (t : Fin 18) (issuer : Fin 18) (addr : BitVec 40) (size : Nat) (val : Word) (off : Nat) (s : State), size ≤ 4 →
    regionOf addr.toNat = .loc t.val off → localHolds t.val off size = true →
    t.val ≠ 2 → t.val ≠ 3 → t.val ≠ 4 → t.val ≠ 5 → s.accepts (.tile issuer) t.val = true →
    let acc : Access := { addr := addr, size := size, wdata := some val }
    (∃ u, exec (.deviceAccessResponse issuer acc) s = .next u ∧
      (∀ k, k < size → u.rb (addr.toNat + k) = BitVec.ofNat 8 (val.toNat / 256 ^ k)) ∧
      (∀ a, a < addr.toNat ∨ addr.toNat + size ≤ a → u.rb a = s.rb a) ∧ (∀ a, u.rd a = s.rd a) ∧
      (∀ k, u.tile k = s.tile k)) ∧
    exec (.registerWrite .host addr size val) s = .next (s.recordErr 16 8 noUnit 0 addr.toNat false)) ∧
  (∀ (by_ : Req) (a : RegId) (v : Word) (row : RegRow) (i : Nat) (s : State), regAt a = some (row, i) →
    s.accepts by_ (RegId.tile a) = true → row.acc ≠ .ro →
    let u := s.plainWrite by_ a v
    (∀ n, n < 32 → bit (u.rd a) n =
      if row.mask.testBit n && !((s.tile (RegId.tile a)).lock && row.lmask.testBit n) then bit v n else bit (s.rd a) n) ∧
    (∀ b, b ≠ a → u.rd b = s.rd b) ∧ (∀ b, u.rb b = s.rb b) ∧ (∀ t, u.tile t = s.tile t)) ∧
  (∀ (by_ : Req) (tag : Tag) (val : Word) (r : Fin 3) (k : Fin 16) (s : State),
    let turned := fun (t : Nat) (c : Instr) => s.accepts by_ t = false → ∃ u, exec c s = .next u ∧
      (s.life t = .off → u = s) ∧ (s.life t ≠ .off → u.tile t = { s.tile t with earlyWr := min 4095 ((s.tile t).earlyWr + 1) }) ∧
      (∀ a, u.rd a = s.rd a) ∧ (∀ a, u.rb a = s.rb a) ∧ ∀ j, j ≠ t → u.tile j = s.tile j
    turned 0 (.mtAck by_ k tag) ∧ turned 1 (.msSet by_ tag) ∧ turned (rTile r.val) (.rfTune by_ r tag) ∧ turned 5 (.ctxAlloc by_ tag) ∧
    turned 6 (.senseCtlWrite by_ val) ∧ turned 7 (.newtCtlWrite by_ val) ∧ turned 8 (.freeDesc by_ val) ∧
    turned 9 (.fwdAck by_ tag) ∧ turned 15 (.sessAck by_ tag) ∧ turned 16 (.mbxAck by_ 0 tag) ∧ turned 17 (.mdioAck by_ tag))

/-- Requests of the host (R436 to R438): BAR 0 reaches the control windows dword by dword, BAR 2 the store at BASE; a read is
answered in full, with zeros after an error: the bytes of a clean range of the store, zeros past its end; nothing is served without a link, in D3hot or outside HOST's live states. -/
def Obligations.HostRequestsAreServed : Prop :=
  ∀ (off : BitVec 34) (b0 b1 b2 b3 : Byte) (s : State),
    let up := s.rbit Reg.HOST.HOST_STATUS 31 = true ∧ s.rbit Reg.HOST.HOST_STATUS 28 = false ∧ s.active 16 = true
    let all := [true, true, true, true]
    let v := wd (b0.toNat + 256 * b1.toNat + 65536 * b2.toNat + 16777216 * b3.toNat)
    (up → off.toNat % 4 = 0 → off.toNat < 0x12000000 →
      exec (.hostBarRequest false off all (some [b0, b1, b2, b3])) s =
        .next (s.controlWrite .host (off.toNat / 0x1000000) (off.toNat % 0x1000000) v) ∧
      (let r := s.controlRead .host (off.toNat / 0x1000000) (off.toNat % 0x1000000)
       exec (.hostBarRequest false off all none) s = .next (r.1.modHost fun x => { x with
         replies := x.replies ++ [{ data := le 4 r.2.toNat, poisoned := false }] }))) ∧
    (up → off.toNat % 4 = 0 → off.toNat < 0x12000000 →
      exec (.hostBarRequest false off [true, false, true, true] (some [b0, b1, b2, b3])) s =
        .next (s.recordErr 16 8 noUnit 0 (0x1000000000 + off.toNat) false)) ∧
    (up → s.storeUp = true → s.bar2Addr off.toNat + 4 ≤ storeEnd →
      exec (.hostBarRequest true off all (some [b0, b1, b2, b3])) s =
        .next (s.storeWrite 13 (s.bar2Addr off.toNat) [b0, b1, b2, b3])) ∧
    (up → ∀ be : List Bool, be ≠ [] → let a := s.bar2Addr off.toNat
      let said := fun (u : State) (l : List Byte) =>
        u.modHost fun x => { x with replies := x.replies ++ [{ data := l, poisoned := false }] }
      (s.storeUp = true → a < storeEnd → a + be.length ≤ storeEnd → s.readFault a be.length = none →
        exec (.hostBarRequest true off be none) s = .next (said s (s.rbytes a be.length))) ∧
      (storeEnd < a + be.length → exec (.hostBarRequest true off be none) s =
        .next (said (s.recordErr 16 8 noUnit 0 a false) (zeros be.length)))) ∧
    (¬ up → ∀ bar2 be d, exec (.hostBarRequest bar2 off be d) s = .next s)

/-- Pool commands (R311): INIT is refused with IN_USE, INVALID or OVERLAP by the rule's order, or is in progress until the pool's
blocks read FREE and generation 0 with EN set; DISABLE is refused while a unit is out; another op posts its own code; a busy path
drops. The end of INIT (R311): every block of the pool reads generation 0 and not WRITTEN, the pool's list
is of its blocks, or the descriptors in them, but those of retired pages, FREE counts it, EN sets and SUCCESS is posted under the command's tag. -/
def Obligations.PoolCommandsPostResults : Prop :=
  (∀ (by_ : Req) (pool : Fin 64) (tag : Tag) (s : State), s.accepts by_ 8 = true →
    let res := Reg.STORE.POOL_RESULT
    (s.pathFree res = true →
      (∀ c, s.initRefusal pool.val = some c → exec (.poolInit by_ pool tag) s = .next (s.poolPost pool.val tag c)) ∧
      (s.initRefusal pool.val = none → ∃ u, exec (.poolInit by_ pool tag) s = .next u ∧ u.store.initPool = some pool.val ∧
        u.rd res = wd (2 ^ 30 + tag.toNat) ∧ (∀ a, a ≠ res → u.rd a = s.rd a) ∧ (∀ a, u.rb a = s.rb a)) ∧
      ((s.pool pool.val).out ≠ 0 → exec (.poolDisable by_ pool tag) s = .next (s.poolPost pool.val tag 3)) ∧
      ((s.pool pool.val).out = 0 → ∃ u, exec (.poolDisable by_ pool tag) s = .next u ∧ u.poolEn pool.val = false ∧
        u.poolFree pool.val = 0 ∧ u.pool pool.val = {} ∧ u.rbit res 31 = true ∧ u.rf res 29 27 = 0 ∧ u.rf res 13 8 = pool.val ∧
        bit (u.tile 8).evtPend 16 = true ∧ (∀ a, u.rb a = s.rb a)) ∧
      exec (.poolIllegalOp by_ pool tag) s = .next (s.poolPost pool.val tag 4)) ∧
    (s.pathFree res = false → exec (.poolInit by_ pool tag) s = .next (s.reqDrop 8) ∧
      exec (.poolDisable by_ pool tag) s = .next (s.reqDrop 8) ∧ exec (.poolIllegalOp by_ pool tag) s = .next (s.reqDrop 8)) ∧
    (s.rbit res 31 = true → s.pathTag res 0 = tag → exec (.poolAck by_ tag) s = .next (s.wr res 0)) ∧
    (s.pathTag res 0 ≠ tag → exec (.poolAck by_ tag) s = .next s)) ∧
  (∀ (p : Nat) (s : State), p < 64 → s.store.initPool = some p → s.storeUp = true →
    let b := s.poolBase p
    let n := s.poolSize p
    let runs := initRuns s.store.retired b n
    let list := if s.poolDesc p then runs.map (fun r => (4 * r.1, 4 * r.2)) else runs
    (∀ k, segMem runs k = true ↔ b ≤ k ∧ k < b + n ∧ ∀ e ∈ s.store.retired, e.1 ≠ k / 8) ∧
    ∃ u, exec .poolInitDone s = .next u ∧ u.store.initPool = none ∧ u.poolEn p = true ∧ u.poolDesc p = s.poolDesc p ∧
      (∀ k, b ≤ k → k < b + n → tget (fun _ => 0) u.store.gen k = 0 ∧ tflag u.store.written k = false) ∧
      (∀ k, k < b ∨ b + n ≤ k → tget (fun _ => 0) u.store.gen k = tget (fun _ => 0) s.store.gen k) ∧
      (u.pool p).list = list ∧ u.rd (Reg.STORE.POOL_W3 p) = wd ((list.map (·.2)).sum) ∧
      u.rbit Reg.STORE.POOL_RESULT 31 = true ∧ u.rf Reg.STORE.POOL_RESULT 29 27 = 0 ∧ (∀ a, u.rb a = s.rb a))

/-- Allocation and freeing meet (R311 to R316): a unit taken from an enabled pool, while no page is retired, is the head of
its free list and counts as out; freeing an allocated block puts it at the list's end; a block of no pool, of another pool or
already free is a free error and no list changes. The commands of the allocator and the mailboxes (R313 to R316): FREE_DESC and
FREE_BLK release what the written word names, on the writer's port; a port keeps the unit it takes, or gives everything back and
counts the failure; a mailbox request is answered under its tag with a unit or with EMPTY, dropped and counted while one is
pending, and its answer retires by its tag. -/
def Obligations.AllocatorCommandsComplete : Prop :=
  (∀ (p u : Nat) (rest : List (Nat × Nat)) (s : State), p < 64 → s.poolEn p = true → s.store.retired = [] →
    (popRun (s.pool p).list = some (u, rest) → s.poolFree p ≠ 0 →
      let r := s.allocUnit p
      r.2 = some u ∧ (r.1.pool p).list = rest ∧ (r.1.pool p).out = (s.pool p).out + 1 ∧ r.1.poolFree p = s.poolFree p - 1 ∧
      (∀ q, q ≠ p → r.1.pool q = s.pool q) ∧ (∀ a, r.1.rb a = s.rb a)) ∧
    ((s.pool p).list = [] → s.allocUnit p = (s, none)) ∧
    (∀ port b, s.poolAt b = some p → s.poolDesc p = false → segMem s.store.free (4 * b) = false → s.poolFree p + 1 < 2 ^ 26 →
      let v := s.freeBlock port (some p) b
      (v.pool p).list = (s.pool p).list ++ [(b, 1)] ∧ (v.pool p).out = (s.pool p).out - 1 ∧ v.poolFree p = s.poolFree p + 1 ∧
      (∀ a, v.rb a = s.rb a)) ∧
    (∀ port b, s.poolAt b = none ∨ segMem s.store.free (4 * b) = true →
      s.freeBlock port none b = s.freeErr port (256 * b) ∧ (s.freeErr port (256 * b)).store = s.store) ∧
    (∀ port b q, s.poolAt b = some p → q ≠ p → s.freeBlock port (some q) b = s.freeErr port (256 * b))) ∧
  (∀ (by_ : Req) (val : Word) (port : Fin 18) (desc : Bool) (m : Fin 192) (pool : Fin 64) (tag : BitVec 4) (s : State),
    s.accepts by_ 8 = true → s.storeUp = true →
    let pp := s.rd (Reg.STORE.PORT_POOL port.val)
    let r := s.allocUnit (if desc then fld pp 13 8 else fld pp 5 0)
    let res := Reg.STORE.MB_RES m.val
    exec (.freeDesc by_ val) s = .next (s.freeDesc (reqPort by_) (64 * fld val 26 0)) ∧
    exec (.freeBlk by_ val) s = .next (s.freeBlock (reqPort by_) none (fld val 24 0)) ∧
    (port.val = 0 ∨ port.val = 1 ∨ port.val = 2 ∨ port.val = 12 ∨ port.val = 13 ∨ port.val = 14 →
      (∀ u, r.2 = some u → ∃ v, exec (.hwAlloc port desc) s = .next v ∧
        tget (fun _ => []) v.store.inHand port.val = tget (fun _ => []) s.store.inHand port.val ++ [2 * u + b2n desc] ∧
        (∀ q, v.pool q = r.1.pool q) ∧ (∀ a, v.rd a = r.1.rd a)) ∧
      (r.2 = none → exec (.hwAlloc port desc) s = .next
        (((tget (fun _ => []) s.store.inHand port.val).foldl
          (fun v h => v.pushUnit (if h % 2 = 1 then fld pp 13 8 else fld pp 5 0) (h / 2))
          (r.1.sat Reg.STORE.STORE_CNT1 31 16 1)).modStore fun x => { x with inHand := terase x.inHand port.val }))) ∧
    (s.rbit res 31 = false → tget (fun _ => none) s.store.mbReq m.val = none →
      ∃ v, exec (.mbRequest by_ m pool tag) s = .next v ∧
        tget (fun _ => none) v.store.mbReq m.val = some (pool.val, tag.toNat) ∧ (∀ a, v.rd a = s.rd a)) ∧
    (s.rbit res 31 = true ∨ tget (fun _ => none) s.store.mbReq m.val ≠ none →
      exec (.mbRequest by_ m pool tag) s = .next (s.sat Reg.STORE.STORE_CNT1 7 0 1)) ∧
    (∀ p g, tget (fun _ => none) s.store.mbReq m.val = some (p, g) →
      let reserve := s.rf (Reg.STORE.POOL_W2 p) 23 12 * 256
      (s.poolFree p ≤ reserve → ∃ v, exec (.mbAnswer m) s = .next v ∧ v.rd res = wd (2 ^ 31 + g * 2 ^ 27) ∧
        tget (fun _ => none) v.store.mbReq m.val = none ∧ (∀ q, v.pool q = s.pool q)) ∧
      (reserve < s.poolFree p → (s.allocUnit p).2 = none → ∃ v, exec (.mbAnswer m) s = .next v ∧
        v.rd res = wd (2 ^ 31 + g * 2 ^ 27) ∧ tget (fun _ => none) v.store.mbReq m.val = none) ∧
      (∀ u, reserve < s.poolFree p → (s.allocUnit p).2 = some u → ∃ v, exec (.mbAnswer m) s = .next v ∧
        v.rd res = wd (2 ^ 31 + g * 2 ^ 27 + (if s.poolDesc p then u else 4 * u)) ∧
        tget (fun _ => none) v.store.mbReq m.val = none ∧ (∀ q, v.pool q = (s.allocUnit p).1.pool q))) ∧
    (s.rbit res 31 = true → s.rf res 30 27 = tag.toNat → exec (.mbAck by_ m tag) s = .next (s.wr res 0)))

/-- A write to the store and the read of it (R309, R320): while STORE serves and the range lies in the store, the bytes stand
there afterwards and every other byte keeps its value; past the end nothing is written and the issuer records a decode error. The
scrubber (R324): while it runs and a pass is due, a chunk asks for the SCRUB token; with the token in hand its corrected errors are counted,
what it found uncorrectable is met as on a read, CHUNK moves on, and the token is given back; the last of the 8192 chunks starts the next pass with the event. -/
def Obligations.StoreWritesAndScrubbing : Prop :=
  (∀ (port a : Nat) (bs : List Byte) (s : State), s.storeUp = true →
    (a + bs.length ≤ storeEnd →
      (∀ k b, bs[k]? = some b → (s.storeWrite port a bs).rb (a + k) = b) ∧
      (∀ x, (x < a ∨ a + bs.length ≤ x) → x < storeEnd → (s.storeWrite port a bs).rb x = s.rb x)) ∧
    (storeEnd < a + bs.length → s.storeWrite port a bs = s.recordErr (portTile port) 8 noUnit 0 a false)) ∧
  (∀ (corrected : Nat) (found : List ScrubFound) (s : State), s.rbit Reg.STORE.SCRUB_CTL 31 = true → s.storeUp = true →
    let asked := s.askToken kSCRUB 8
    (s.scrubDue = false → exec (.scrubChunk corrected found) s = .next s) ∧
    (s.scrubDue = true →
    let counted := found.foldl State.scrubFound (asked.scrubBegin.modTile 8 fun x => { x with corr := min 65535 (x.corr + corrected) })
    let chunk := counted.rf Reg.STORE.SCRUB_STATUS 15 0 + 1
    (asked.holds kSCRUB 8 = false → exec (.scrubChunk corrected found) s = .next asked) ∧
    (asked.holds kSCRUB 8 = true → chunk ≠ 8192 → exec (.scrubChunk corrected found) s =
      .next ((counted.wf Reg.STORE.SCRUB_STATUS 15 0 chunk).releaseToken kSCRUB 8)) ∧
    (asked.holds kSCRUB 8 = true → chunk = 8192 → exec (.scrubChunk corrected found) s =
      .next ((((counted.wf Reg.STORE.SCRUB_STATUS 15 0 0).sat Reg.STORE.SCRUB_STATUS 31 16 1).evt 8 21).releaseToken kSCRUB 8))))

/-- A request of a hardware port to the store (R309, R330, R335): while STORE serves, it waits at its channel under the next
sequence number and admission runs; past the software range or while STORE does not serve, the port's tile records a decode error.
No request is admitted past the room of a channel's queue or past its port's INFLIGHT_MAX (R330, R335). A command slot of a
channel and the end of a read (R322, R330, R332): a slot of a paused channel does nothing; with one request in the queue whose row
is open, its column command goes out, a read then waiting for its data, which leaves STORE in order. -/
def Obligations.StoreRequestsAreServed : Prop :=
  (∀ (port : Fin 18) (addr : BitVec 33) (len : BitVec 9) (s : State),
    let a := addr.toNat
    let c := s.chOf a
    let x := s.chan c
    (s.storeUp = true → len ≠ 0 → a + len.toNat ≤ storeEnd → (x.queue ++ x.waiting).all (fun r => r.data.isNone) = true →
      let q : StReq := { port := port.val, addr := a, len := len.toNat, data := none, arrived := s.clock, seq := s.store.seq }
      exec (.storeRequestArrive port addr len none) s = .next
        (((s.modStore fun st => { st with seq := st.seq + 1 }).setChan c { x with waiting := x.waiting ++ [q] }).letIn c 32)) ∧
    (s.storeUp = true → port.val < 16 → len ≠ 0 → storeEnd < a + len.toNat →
      exec (.storeRequestArrive port addr len none) s = .next (s.recordErr (portTile port.val) 8 noUnit 0 a false)) ∧
    (s.storeUp = false → ∀ bs,
      exec (.storeRequestArrive port addr len none) s =
        .next ((s.earlyRead 8).recordErr (portTile port.val) 8 noUnit 0 a false) ∧
      exec (.storeRequestArrive port addr len (some bs)) s =
        .next ((s.earlyWrite 8).recordErr (portTile port.val) 8 noUnit 0 a false))) ∧
  (∀ (c n : Nat) (s : State), c < 8 → (s.chan c).queue.length ≤ 32 →
    (∀ q ∈ (s.chan c).waiting, q.port < 18) →
    ((s.letIn c n).chan c).queue.length ≤ 32 ∧
    (∀ d, d ≠ c → (s.letIn c n).chan d = s.chan d) ∧
    (∀ p, p < 18 → s.inflight p ≤ clampN 1 64 (s.rf (Reg.STORE.PORT_LAT p) 23 16) →
      (s.letIn c n).inflight p ≤ clampN 1 64 (s.rf (Reg.STORE.PORT_LAT p) 23 16))) ∧
  (∀ (ch : Fin 8) (s : State), s.storeUp = true →
    let x := s.chan ch.val
    (x.paused = true → exec (.dramCommandIssue ch) s = .next s) ∧
    (x.paused = false → x.queue = [] → exec (.dramCommandIssue ch) s = .next (s.closeRows ch.val)) ∧
    (∀ q, x.paused = false → x.queue = [q] → s.issuable ch.val x q = true →
      exec (.dramCommandIssue ch) s = .next (((s.issueCmd ch.val q).closeRows ch.val).letIn ch.val 32)) ∧
    (∀ q h, x.row (s.bankOf q.addr) = some (rowOf q.addr, h) →
      s.issueCmd ch.val q = s.setChan ch.val { (x.setRow (s.bankOf q.addr) (some (rowOf q.addr, h + 1))) with
        queue := x.queue.filter (· != q)
        issued := if q.data.isNone then x.issued ++ [q] else x.issued }) ∧
    (∀ q rest found, x.issued = q :: rest → exec (.storeReadComplete ch found) s = .next
      ((List.range 8).foldl (fun u c => u.letIn c 32)
        (((s.setChan ch.val { x with issued := rest }).readEnds q found).reqDone q))) ∧
    (x.issued = [] → ∀ found, exec (.storeReadComplete ch found) s = .next s))

/-- Refresh, the row counts and neighbour refresh (R336 to R338): a due refresh is issued and closes its row, or postponed while
an urgent request waits and JEDEC's limit allows; an MR4 reading, every 16 ms, shows, and out of range it is an error and an event; the
activate tables clear together every 32 ms; a pending neighbour refresh starts under its token and its end gives the row free. -/
def Obligations.RefreshKeepsRows : Prop :=
  ∀ (ch : Fin 8) (bank : Fin 16) (rate : BitVec 3) (s : State), s.storeUp = true →
    let x := s.chan ch.val
    let p := tget (fun _ => 0) x.postponed bank.val
    (s.rbit Reg.STORE.DRAM_CTL 30 = false ∨ s.urgentBank x bank.val = false ∨ Config.refPostponeMax ≤ p →
      exec (.refreshDue ch bank) s = .next (s.setChan ch.val
        { x.setRow bank.val none with postponed := tput (fun _ => 0) x.postponed bank.val 0 })) ∧
    (s.rbit Reg.STORE.DRAM_CTL 30 = true → s.urgentBank x bank.val = true →
      ∃ u, exec (.refreshDue ch bank) s = .next u ∧ (p < Config.refPostponeMax →
        tget (fun _ => 0) (u.chan ch.val).postponed bank.val = p + 1 ∧ (u.chan ch.val).rows = x.rows ∧
        u.rf Reg.STORE.DRAM_CNT2 31 16 = min 65535 (s.rf Reg.STORE.DRAM_CNT2 31 16 + 1))) ∧
    (∀ above, s.mr4Due ch.val = false → exec (.mr4Poll ch rate above) s = .next s) ∧
    let polled := s.setChan ch.val { x with mr4At := s.clock }
    (s.mr4Due ch.val = true →
      exec (.mr4Poll ch rate false) s = .next (polled.wf (Reg.STORE.CH_STAT ch.val) 23 21 rate.toNat)) ∧
    (s.mr4Due ch.val = true → exec (.mr4Poll ch rate true) s = .next (((polled.wf (Reg.STORE.CH_STAT ch.val) 23 21 rate.toNat).recordErr 8 0x86
      (0x20 + ch.val) 0xFFFF 0 false).evt 8 24)) ∧
    (s.actDue = false → exec .actTableClear s = .next s) ∧
    (s.actDue = true → ∃ u, exec .actTableClear s = .next u ∧ u.store.actAt = s.clock ∧ (∀ c, c < 8 → u.chan c = { s.chan c with acts := [] }) ∧ (∀ a, u.rb a = s.rb a)) ∧
    (∀ q, x.nrPend.find? (fun r => r.1 = bank.val) = some q → x.paused = false → s.rtAged ch.val = false →
      s.holds kNR (18 + ch.val) = true → x.nrNow.any (fun r => r.1 = bank.val) = false →
      exec (.nrStart ch bank) s = .next (s.setChan ch.val
        { x.setRow bank.val none with nrPend := x.nrPend.erase q, nrNow := x.nrNow ++ [q] })) ∧
    (∀ q, x.nrNow.find? (fun r => r.1 = bank.val) = some q → exec (.nrComplete ch bank) s = .next
      (((s.setChan ch.val { x with nrNow := x.nrNow.erase q }).sat Reg.STORE.DRAM_CNT0 31 16 1).nrSettle ch.val))

/-- Retraining (R340, R341): the period and the drift ask for the channel's pause; an aged request has it wait only for refreshes
in progress; the pause closes every row; its end is counted as trained or as a failure with cause 0x84, the eighth in succession
with cause 0x85 and FAULT; a failed one is asked for again after 1 ms, and neither it nor the period asks early. -/
def Obligations.RetrainingPausesOneChannel : Prop :=
  ∀ (ch : Fin 8) (drift : BitVec 16) (s : State), s.storeUp = true →
    let x := s.chan ch.val
    let c := ch.val
    let next := s.chan s.store.rtNext
    let ms := s.rf Reg.STORE.RETRAIN_CTL 23 16
    (s.rbit Reg.STORE.RETRAIN_CTL 31 = true → ms ≠ 0 → next.rtAt + ms * 500000 ≤ s.clock → exec .retrainPeriod s =
      .next (((s.setChan s.store.rtNext { next with rtAt := s.clock }).modStore fun y =>
        { y with rtNext := (y.rtNext + 1) % 8 }).askToken kRETRAIN (18 + s.store.rtNext))) ∧
    (s.rbit Reg.STORE.RETRAIN_CTL 31 = false ∨ ms = 0 ∨ s.clock < next.rtAt + ms * 500000 →
      exec .retrainPeriod s = .next s) ∧
    (s.rbit Reg.STORE.RETRAIN_CTL 31 = true → max 1 (s.rf Reg.STORE.RETRAIN_CTL 15 8) ≤ drift.toInt.natAbs →
      exec (.retrainDrift ch drift) s = .next ((s.wf (Reg.STORE.CH_STAT c) 15 0 drift.toNat).askToken kRETRAIN (18 + c))) ∧
    (s.rbit Reg.STORE.RETRAIN_CTL 31 = false ∨ drift.toInt.natAbs < max 1 (s.rf Reg.STORE.RETRAIN_CTL 15 8) →
      exec (.retrainDrift ch drift) s = .next (s.wf (Reg.STORE.CH_STAT c) 15 0 drift.toNat)) ∧
    (∃ l, exec (.retrainAged ch) s = .next ((State.arbitrate { s with tokenReqs := l }).nrSettle c) ∧
      (∀ q ∈ s.tokenReqs, s.tokenOld q = true → q.kind = kRETRAIN → q.scope = 18 + c → q.holder = .unit →
        { q with aged := true } ∈ l)) ∧
    (x.paused = false → s.holds kRETRAIN (18 + c) = true → x.nrNow = [] → (∀ d, d < 8 → (s.chan d).paused = false) →
      ∃ u, exec (.retrainPauseStart ch) s = .next u ∧ u.chan c = { x with rows := [], paused := true } ∧
        (∀ d, d ≠ c → u.chan d = s.chan d)) ∧
    (x.paused = true → ∃ u, exec (.retrainPauseEnd ch true) s = .next u ∧ (u.chan c).paused = false ∧ (u.chan c).rtFails = 0 ∧
      u.rf (Reg.STORE.CH_STAT c) 15 0 = 0) ∧
    (x.paused = true → x.rtFails < 7 → ∃ u, exec (.retrainPauseEnd ch false) s = .next u ∧ (u.chan c).paused = false ∧
      (u.chan c).rtFails = x.rtFails + 1 ∧ (u.chan c).rtRetry = true ∧ bit (u.tile 8).evtPend 23 = true ∧
      u.life 8 = s.life 8) ∧
    (x.paused = true → 7 ≤ x.rtFails → ∃ u, exec (.retrainPauseEnd ch false) s = .next u ∧ u.life 8 = .fault) ∧
    (x.rtRetry = false ∨ s.clock < x.failAt + 500000 → exec (.retrainRetry ch) s = .next s) ∧
    (x.rtRetry = true → x.failAt + 500000 ≤ s.clock →
      exec (.retrainRetry ch) s = .next ((s.setChan c { x with rtRetry := false }).askToken kRETRAIN (18 + c)))

/-- Repair and the masks (R328, R342, R343): RETIRE retires a page of the store and QUERY reports it; another op or page is
refused; PPR asks for its token in the state its mode names, and its end is verified or cause 0x87; a mask written from MGMT while
STORE is HELD waits for the way to READY. -/
def Obligations.RepairCommandsPostResults : Prop :=
  ∀ (by_ : Req) (tag : Tag) (i : Fin 7) (val : Word) (p : Ppr) (s : State),
    let res := Reg.STORE.REPAIR_RESULT
    let page := s.repairPage
    let c := s.chOf (2048 * page)
    (s.accepts by_ 8 = true → s.pathFree res = true →
      (page < 3866624 → ∃ u, exec (.repairRetire by_ tag) s = .next u ∧ tflag u.store.retired page = true ∧
        u.rbit res 31 = true ∧ u.rf res 29 27 = 0 ∧ u.rbit res 26 = true ∧ u.rf res 7 0 = tag.toNat ∧ (∀ a, u.rb a = s.rb a)) ∧
      (3866624 ≤ page → exec (.repairRetire by_ tag) s = .next (s.repairPost page tag 1)) ∧
      exec (.repairQuery by_ tag) s = .next (s.repairPost page tag 0) ∧
      exec (.repairIllegalOp by_ tag) s = .next (s.repairPost page tag 4) ∧
      (∀ spare, (s.life 8 ≠ if s.rbit Reg.STORE.REPAIR_ARG 31 then Life.held else Life.ready) →
        exec (.repairPpr by_ tag spare) s = .next (s.repairPost page tag 3)) ∧
      ((s.life 8 = if s.rbit Reg.STORE.REPAIR_ARG 31 then Life.held else Life.ready) →
        exec (.repairPpr by_ tag false) s = .next (s.repairPost page tag 2) ∧
        (s.store.soft.contains (16 * c + s.bankOf (2048 * page)) = false → exec (.repairPpr by_ tag true) s =
          .next (((s.pathBusy res 0 tag).modStore fun x => { x with
            ppr := some { page := page, hard := s.rbit Reg.STORE.REPAIR_ARG 31, tag := tag } }).askToken kSUBST (18 + c))))) ∧
    (s.accepts by_ 8 = true → s.rbit res 31 = true → s.pathTag res 0 = tag →
      exec (.repairAck by_ tag) s = .next (s.wr res 0)) ∧
    (s.store.ppr = some p → s.holds kSUBST (18 + s.chOf (2048 * p.page)) = true → ∀ ok, ∃ u, exec (.pprDone ok) s = .next u ∧
      u.store.ppr = none ∧ u.rbit res 31 = true ∧ u.rf res 29 27 = (if ok then 0 else 5) ∧ u.rf res 7 0 = p.tag.toNat ∧
      bit (u.tile 8).evtPend 22 = true) ∧
    (reqMgmt by_ = true → s.life 8 = .held → ∃ u, exec (.mapMaskWrite by_ i val) s = .next u ∧
      u.rd (Reg.STORE.MAP_MASK0 + 4 * i.val) = val &&& 0x01FFFFFF ∧ u.rbit Reg.STORE.MAP_STATUS 31 = true ∧
      u.store = s.store ∧ (∀ a, u.rb a = s.rb a))

/-- RF commands (R116, R120, R128, R131, R132): refused by the tile's state, the channel, the chains or a band change outside
HELD, each with its code; else taken: TUNE aborts the reception and the calibration slice and starts once no transmission is in
progress, CAL_ALL, FEM_SCAN and CHAIN_OFF are in progress until their event, CHAIN_ON completes at once; one that
finds a command in progress or a result posted is dropped and counted; the result's tag retires it. The order of TUNE's refusals is
the model's (log entry 56). -/
def Obligations.RfCommandsStartOrRefuse : Prop :=
  ∀ (by_ : Req) (r : Fin 3) (tag : Tag) (chain : BitVec 8) (op : BitVec 8) (s : State), s.accepts by_ (rTile r.val) = true →
    let n := r.val
    let res := Reg.RADIO.RF_RESULT n
    let c := s.rd (Reg.RADIO.RF_CHAN n)
    let tuned := s.rd (Reg.RADIO.RF_TUNED n)
    let taken := s.pathBusy res 16 tag
    (s.pathFree res = true →
      (s.life (rTile n) ≠ .ready → s.life (rTile n) ≠ .held → exec (.rfTune by_ r tag) s = .next (s.rfPost n tag 2 0)) ∧
      (s.life (rTile n) = .ready ∨ s.life (rTile n) = .held →
        (chanOk c = false → exec (.rfTune by_ r tag) s = .next (s.rfPost n tag 1 0)) ∧
        (chanOk c = true → s.activeMask n = 0 → exec (.rfTune by_ r tag) s = .next (s.rfPost n tag 5 0)) ∧
        (chanOk c = true → s.activeMask n ≠ 0 → s.life (rTile n) = .ready → fld tuned 28 0 ≠ 0 →
          fld tuned 25 24 ≠ fld c 25 24 → exec (.rfTune by_ r tag) s = .next (s.rfPost n tag 2 0)) ∧
        (chanOk c = true → s.activeMask n ≠ 0 →
          s.life (rTile n) = .held ∨ fld tuned 28 0 = 0 ∨ fld tuned 25 24 = fld c 25 24 →
          let s1 := taken.modRadio n fun x => { x with
            rfStart := s.clock, rfChan := c, bandChange := fld tuned 28 0 = 0 || fld tuned 25 24 != fld c 25 24, rf := .tuneWait }
          let s2 := ((s1.rxAbort n 9).sliceYield n).modRadio n fun x => { x with calProg := [] }
          let s3 := if fld tuned 28 0 = 0 ∨ fld tuned 28 8 = fld c 28 8 then s2 else s2.tpRetuned n
          exec (.rfTune by_ r tag) s = .next (if s3.sending n then s3 else s3.tuneStart n))) ∧
      (s.life (rTile n) = .held → exec (.rfCalAll by_ r tag) s =
        .next (taken.modRadio n fun x => { x with rf := .calAll, rfStart := s.clock })) ∧
      (s.life (rTile n) ≠ .held → exec (.rfCalAll by_ r tag) s = .next (s.rfPost n tag 2 0)) ∧
      (exec (.rfFemScan by_ r tag) s =
        .next (taken.modRadio n fun x => { x with rf := .femScan, rfStart := s.clock })) ∧
      (chain.toNat ≤ 7 → exec (.rfChainOff by_ r tag chain) s = .next
        ((taken.modRadio n fun x => { x with rf := .chainOff, offPend := 2 ^ chain.toNat, rfStart := s.clock }).chainsAtEnd n)) ∧
      (chain.toNat ≤ 7 →
        (s.chain n chain.toNat = 1 → (s.rf (Reg.RADIO.RF_BOARD n) 15 8).testBit chain.toNat = true →
          let s1 := s.setChains n (2 ^ chain.toNat) 0
          exec (.rfChainOn by_ r tag chain) s = .next (s1.rfPost n tag 0 (s1.activeMask n))) ∧
        (s.chain n chain.toNat ≠ 1 ∨ (s.rf (Reg.RADIO.RF_BOARD n) 15 8).testBit chain.toNat = false →
          exec (.rfChainOn by_ r tag chain) s = .next (s.rfPost n tag 5 (s.activeMask n)))) ∧
      (7 < chain.toNat → exec (.rfChainOff by_ r tag chain) s = .next (s.rfPost n tag 2 0) ∧
        exec (.rfChainOn by_ r tag chain) s = .next (s.rfPost n tag 2 0)) ∧
      (op.toNat = 0 ∨ 5 < op.toNat → exec (.rfCmdIllegalOp by_ r tag op) s = .next (s.rfPost n tag 2 0))) ∧
    (s.pathFree res = false → ∀ i ∈ [Instr.rfTune by_ r tag, .rfCalAll by_ r tag, .rfFemScan by_ r tag, .rfChainOff by_ r tag chain,
      .rfChainOn by_ r tag chain], exec i s = .next (s.sat (Reg.RADIO.RF_ERR_CNT n) 31 24 1)) ∧
    (s.rbit res 31 = true → s.pathTag res 16 = tag → exec (.rfResultAck by_ r tag) s = .next (s.wr res 0))

/-- The ends of RF commands (R115, R116, R117, R120, R128): a lock shows the channel tuned in RF_TUNED and ends a TUNE with
code 0, or a band calibration follows, which ends it with code 0 or 4; an attempt that has run for 80 µs without lock is repeated
once, and then a TUNE ends with code 3, and a TUNE or a relock records cause 0x81 with unit 8 and puts a live tile into FAULT; before
80 µs nothing ends. CAL_ALL ends with 0, each enabled calibration's failures forgotten, or with 4. A scan makes ACTIVE the
populated chains out of service whose module answers with the IDs of FEM_DESC, ABSENT those that name none, and ends with the
chains ACTIVE, or with code 5 where none is. A lost lock aborts the transmission and the reception, records cause 0x80 and starts a
relock, which ends as RF_TUNED shows LOCKED again. -/
def Obligations.RfCommandsEnd : Prop :=
  ∀ (r : Fin 3) (ok again : Bool) (ids : List (Option (BitVec 8 × BitVec 10))) (s : State),
    let n := r.val
    let x := s.radio n
    let v := s.rd (Reg.RADIO.RF_TUNED n)
    let s1 := s.wr (Reg.RADIO.RF_TUNED n) (wd (2 ^ 31 + fld x.rfChan 28 0))
    let locked := fun (u : State) => ((u.seqEvent n evLOCK).agcArm n).dpdSync n
    let fatal := fun (u : State) => s.faultHook (u.recordErr (rTile n) 0x81 8 0 0 true) (rTile n)
    let late := x.tryAt + 40000 ≤ s.clock
    (x.rf = .tuning again → x.bandChange = false →
      let u := locked (s1.lockChanged n)
      exec (.tuneLock r) s = .next (u.rfEnd n 0 (u.rfElapsed n))) ∧
    (x.rf = .tuning again → x.bandChange = true →
      exec (.tuneLock r) s = .next ((locked s1.syncLinks).modRadio n fun y => { y with rf := .bandCal })) ∧
    ((∀ b, x.rf ≠ .tuning b) → x.relock ≠ 0 → exec (.tuneLock r) s = .next
      ((((s.modRadio n fun y => { y with relock := 0 }).wr (Reg.RADIO.RF_TUNED n) (putBit (putBit v 31 true) 30 false)).lockChanged
        n).seqEvent n evLOCK)) ∧
    (x.rf = .tuning false → late →
      exec (.tuneLockTimeout r) s = .next (s.modRadio n fun y => { y with rf := .tuning true, tryAt := s.clock })) ∧
    (x.rf = .tuning true → late →
      exec (.tuneLockTimeout r) s =
        .next (fatal ((s.wr (Reg.RADIO.RF_TUNED n) (putBit v 30 false)).rfEnd n 3 (s.rfElapsed n))) ∧
      (s.live (rTile n) = true → ∃ u, exec (.tuneLockTimeout r) s = .next u ∧ u.life (rTile n) = .fault ∧
        u.rbit (Reg.RADIO.RF_RESULT n) 31 = true ∧ u.rf (Reg.RADIO.RF_RESULT n) 26 24 = 3)) ∧
    ((∀ b, x.rf ≠ .tuning b) → x.relock = 1 → late →
      exec (.tuneLockTimeout r) s = .next (s.modRadio n fun y => { y with relock := 2, tryAt := s.clock })) ∧
    ((∀ b, x.rf ≠ .tuning b) → x.relock = 2 → late →
      exec (.tuneLockTimeout r) s = .next (fatal (s.modRadio n fun y => { y with relock := 0 }))) ∧
    (s.clock < x.tryAt + 40000 → exec (.tuneLockTimeout r) s = .next s) ∧
    (x.rf = .bandCal → exec (.bandCalDone r ok) s =
      .next (((if ok then s.trainAll n else s).placeOf n).rfEnd n (if ok then 0 else 4) (s.rfElapsed n))) ∧
    (x.rf = .calAll → exec (.calAllDone r false) s = .next (s.rfEnd n 4 (s.rfElapsed n)) ∧
      ∃ u : State, exec (.calAllDone r true) s = .next (u.rfEnd n 0 (s.rfElapsed n)) ∧
        (∀ k, k < 5 → s.rbit (Reg.RADIO.RF_CAL_CTL n) (26 + k) = true →
          tget (fun _ => 0) (u.radio n).calFails k = 0 ∧ u.rbit (Reg.RADIO.RF_CAL_STATUS n) k = false) ∧
        (∀ a, u.rb a = s.rb a)) ∧
    (x.rf = .femScan → x.rffe = none ∨ x.rfStart ≤ x.rffeAt → s.pollBefore n x.rfStart = false →
      ∃ u, exec (.femScanDone r ids) s = .next u ∧ (u.radio n).rf = .idle ∧
        u.rd (Reg.RADIO.RF_RESULT n) = wd (2 ^ 31 + ((if u.activeMask n = 0 then 5 else 0) * 2 ^ 24 + u.activeMask n) +
          (s.pathTag (Reg.RADIO.RF_RESULT n) 16).toNat * 2 ^ 16) ∧
        ∀ k, k < 8 →
          let d := s.femDesc n k
          let out := (s.rf (Reg.RADIO.RF_BOARD n) 15 8).testBit k = true ∧ s.chain n k ≠ 0
          let match_ := (ids.getD d.1 none).map (fun i => (i.1.toNat, i.2.toNat)) = some d.2
          (out → d.1 = 0 → u.chain n k = 3) ∧ (out → d.1 ≠ 0 → match_ → u.chain n k = 0) ∧
          (¬ out ∨ (d.1 ≠ 0 ∧ ¬ match_) → u.chain n k = s.chain n k)) ∧
    (s.locked n = true → s.active (rTile n) = true →
      let u1 := (s.wr (Reg.RADIO.RF_TUNED n) (putBit v 31 false)).modRadio n fun y => { y with relock := 1, tryAt := s.clock }
      let u2 := ((u1.txAbort n).rxAbort n 11).recordErr (rTile n) 0x80 8 0 0 false
      exec (.synthLockLoss r) s = .next (((u2.macBusy n).markLate n).lockChanged n))

/-- The RFFE bus (R118, R121, R132): a command of each kind queues its transaction, a reserved kind completes ILLEGAL; with
no older scan or poll on the bus it ends: a read posts its data, or NO_ACK where it is not answered, which counts a miss; a write
posts 0. A health poll of a live radio, 100 ms after the last, clears the misses of each USID that an ACTIVE chain names and whose
product ID is that of FEM_DESC, and counts one for each of the others; the third miss in succession takes the ACTIVE chains of the
USID out of service once no PPDU is in progress. The result's tag retires it. -/
def Obligations.RffeTransactionsComplete : Prop :=
  (∀ (by_ : Req) (r : Fin 3) (usid kind : BitVec 4) (addr : BitVec 8) (data : Byte) (tag : Tag) (ids : List (Option (BitVec 8)))
    (s : State),
    let n := r.val
    let x := s.radio n
    let res := Reg.RADIO.RFFE_RESULT n
    let queued := fun (t : RffeTxn) => (s.pathBusy res 8 tag).modRadio n fun x => { x with rffe := some t, rffeAt := s.clock }
    (s.accepts by_ (rTile n) = true → s.pathFree res = true →
      exec (.rffeRegWrite by_ r usid addr data tag) s = .next (queued ⟨0, usid.toNat, addr.toNat % 32, data.toNat⟩) ∧
      exec (.rffeRegRead by_ r usid addr tag) s = .next (queued ⟨1, usid.toNat, addr.toNat % 32, 0⟩) ∧
      exec (.rffeExtRegWrite by_ r usid addr data tag) s = .next (queued ⟨2, usid.toNat, addr.toNat, data.toNat⟩) ∧
      exec (.rffeExtRegRead by_ r usid addr tag) s = .next (queued ⟨3, usid.toNat, addr.toNat, 0⟩) ∧
      exec (.rffeReg0Write by_ r usid data tag) s = .next (queued ⟨4, usid.toNat, 0, data.toNat⟩) ∧
      (5 ≤ kind.toNat → exec (.rffeIllegalKind by_ r kind tag) s =
        .next ((s.pathPost res 8 tag (2 * 2 ^ 28)).evt (rTile n) 21))) ∧
    (∀ t, x.rffe = some t → ¬ (x.rf = .femScan ∧ x.rfStart < x.rffeAt) → s.pollBefore n x.rffeAt = false →
      let ended := fun (rest : Nat) =>
        ((s.modRadio n fun x => { x with rffe := none }).pathPost res 8 (s.pathTag res 8) rest).evt (rTile n) 21
      (t.kind = 1 ∨ t.kind = 3 → exec (.rffeTransactionDone r true data) s = .next (ended data.toNat) ∧
        exec (.rffeTransactionDone r false data) s = .next ((ended (2 ^ 28)).femMiss n t.usid)) ∧
      (t.kind ≠ 1 → t.kind ≠ 3 → ∀ ok, exec (.rffeTransactionDone r ok data) s = .next (ended 0))) ∧
    (s.accepts by_ (rTile n) = true → s.rbit res 31 = true → s.pathTag res 8 = tag →
      exec (.rffeAck by_ r tag) s = .next (s.wr res 0)) ∧
    (s.active (rTile n) = true → x.pollAt + 50000000 ≤ s.clock → (x.rffe = none ∨ x.pollAt + 50000000 ≤ x.rffeAt) →
      (x.rf = .femScan → x.pollAt + 50000000 ≤ x.rfStart) → (∀ k, k < 16 → tget (fun _ => 0) x.misses k < 2) →
      ∃ u, exec (.femHealthPoll r ids) s = .next u ∧ (u.radio n).pollAt = s.clock ∧ (∀ t, u.tile t = s.tile t) ∧
        (∀ a, a ≠ Reg.RADIO.RF_ERR_CNT n → u.rd a = s.rd a) ∧ ∀ k, k < 16 →
          let uses := (List.range 8).filter fun c => s.chain n c = 0 && (s.femDesc n c).1 = k
          let good := ∀ c ∈ uses, (ids.getD k none).map (·.toNat) = some (s.femDesc n c).2.1
          let m := tget (fun _ => 0) x.misses k
          (uses = [] → tget (fun _ => 0) (u.radio n).misses k = m) ∧ (uses ≠ [] → good → tget (fun _ => 0) (u.radio n).misses k = 0) ∧
          (uses ≠ [] → ¬ good → tget (fun _ => 0) (u.radio n).misses k = m + 1))) ∧
  (∀ (n k : Nat) (s : State), n < 3 → k < 16 → 2 ≤ tget (fun _ => 0) (s.radio n).misses k → s.ppduInProgress n = false →
    (s.radio n).lostPend = 0 → (s.radio n).offPend = 0 → (s.radio n).tpRst = 0 →
    ∀ c, c < 8 → (s.femMiss n k).chain n c = (if s.chain n c = 0 ∧ (s.femDesc n c).1 = k then 2 else s.chain n c))

/-- Background calibration and gain control (R124, R126, R127, R129): a round that is due is noted with its time and
temperature and asks for its token; a slice starts where every condition of the rule holds and shows in CHAIN_STATUS; a slice that
yields keeps its round, one that ends is counted, and a solve of pre-distortion leaves a new set; a round that converges clears its
failure bit and count, the third that does not in succession raises the bit and the event; a change of DPD_K or DPD_M discards every
set; a gain step stays inside the loop's limits, between the gain before it and the gain that meets the target, and changes no
other register. How far one step goes is free (log entry 5). -/
def Obligations.CalibrationAndGainSteps : Prop :=
  ∀ (by_ : Req) (r : Fin 3) (kind : Fin 5) (chain : Fin 8) (val : Word) (level : BitVec 8) (s : State),
    let n := r.val
    let t := rTile n
    let st := Reg.RADIO.CHAIN_STATUS n chain.val
    (s.life t = .ready → s.calEnabled n kind.val = true → s.calDue n kind.val = true → (s.radio n).rounds.testBit kind.val = false →
      exec (.calRoundStart r kind) s = .next ((s.modRadio n fun x => { x with
        rounds := x.rounds ||| 2 ^ kind.val
        calAt := tput (fun _ => 0) x.calAt kind.val s.clock
        calTemp := tput (fun _ => 0) x.calTemp kind.val (s.chainTemp n) }).askToken (calToken kind.val) t)) ∧
    (s.life t = .ready → s.calEnabled n kind.val = true → (s.radio n).rounds.testBit kind.val = true →
      (s.radio n).slice = none → s.radioIdle n = true → (s.act n).testBit 20 = true → s.chain n chain.val = 0 →
      s.tuning n = false → s.holds (calToken kind.val) t = true → (kind.val = 0 → (s.radio n).captured.testBit chain.val = true) →
      ∃ u, exec (.calSliceStart r kind chain) s = .next u ∧
        (u.radio n).slice = some (kind.val, chain.val) ∧ u.rbit st 28 = true ∧
        (kind.val = 0 → (s.dpdOf n chain.val).reverted = false → u.rf st 27 26 = 2) ∧
        (∀ a, (∀ k, k < 8 → a ≠ Reg.RADIO.CHAIN_STATUS n k) → u.rd a = s.rd a) ∧ (∀ a, u.rb a = s.rb a)) ∧
    (∀ k m, (s.radio n).slice = some (k, m) →
      let ended := (((s.modRadio n fun x => { x with slice := none, calProg := tput (fun _ => 0) x.calProg (8 * k + m) 0 }).wf
        (Reg.RADIO.CHAIN_STATUS n m) 28 28 0).sat (Reg.RADIO.RF_CAL_STATUS n) 31 16 1).dpdSync n
      exec (.calSliceEnd r .yields) s = .next (s.sliceYield n) ∧
      exec (.calSliceEnd r .more) s = .next (if k = 0 then ended.dpdTrain n m else ended) ∧
      ∀ conv, exec (.calSliceEnd r (.round conv)) s =
        .next ((if k = 0 ∧ conv = true then ended.dpdTrain n m else ended).calRound n k conv)) ∧
    (let u := fun (conv : Bool) => s.calRound n kind.val conv
     let fails := fun (v : State) => tget (fun _ => 0) (v.radio n).calFails kind.val
     let failed := fun (v : State) => v.rbit (Reg.RADIO.RF_CAL_STATUS n) kind.val
     failed (u true) = false ∧ fails (u true) = 0 ∧ fails (u false) = fails s + 1 ∧
     (2 ≤ fails s → failed (u false) = true ∧ bit ((u false).tile t).evtPend 20 = true) ∧
     (fails s < 2 → failed (u false) = failed s)) ∧
    (s.accepts by_ t = true → ∃ u, exec (.rfCalCtlWrite by_ r val) s = .next u ∧ u.rd (Reg.RADIO.RF_CAL_CTL n) = val ∧
      (fld (s.rd (Reg.RADIO.RF_CAL_CTL n)) 25 21 ≠ fld val 25 21 → (u.radio n).dpd = [] ∧
        ∀ k, k < 8 → (s.radio n).slice ≠ some (0, k) → u.rf (Reg.RADIO.CHAIN_STATUS n k) 27 26 = 0)) ∧
    (s.live t = true → (s.radio n).agc = 0 → (s.act n).testBit 19 = false → (s.rxen n).testBit chain.val = true →
      let lim := s.gainLimits n
      let g := s.rf st 15 8
      let ideal := clampN lim.1 lim.2 ((g : Int) + sval 8 (s.rf (Reg.RADIO.RF_AGC_CTL n) 23 16) - level.toInt).toNat
      ∃ u, exec (.agcStep r chain level) s = .next u ∧ lim.1 ≤ u.rf st 15 8 ∧ u.rf st 15 8 ≤ lim.2 ∧
        (∀ a, a ≠ st → u.rd a = s.rd a) ∧
        (lim.1 ≤ g → g ≤ lim.2 → (g ≤ ideal → g ≤ u.rf st 15 8 ∧ u.rf st 15 8 ≤ ideal) ∧
          (ideal ≤ g → ideal ≤ u.rf st 15 8 ∧ u.rf st 15 8 ≤ g)))

/-- The sequencer's registers (R41, R145, R149, R150): RUN starts a stopped sequencer of a live tile at ENTRY in BANK and its fall
stops one; a swap waits for a SAFE boundary under its token, or happens at once while stopped, or is dropped and counted while a
result stands; a poke sets CTRL; CTRL_RUN starts the threads that are stopped. -/
def Obligations.SequencerRegistersAct : Prop :=
  ∀ (by_ : Req) (r : Fin 3) (val : Word) (entry : BitVec 10) (tag : Tag) (s : State), s.accepts by_ (rTile r.val) = true →
    let n := r.val
    let res := Reg.RADIO.SEQ_RESULT n
    (s.seqRunning n = false → s.live (rTile n) = true → bit val 31 = true → ∃ u, exec (.seqCtlWrite by_ r val) s = .next u ∧
      u.seqRunning n = true ∧ u.bank n = fld val 30 30 ∧ (u.radio n).next = some (fld val 9 0, s.tick) ∧
      u.rf (Reg.RADIO.SEQ_CTL n) 9 0 = fld val 9 0 ∧ (∀ a, u.rb a = s.rb a)) ∧
    (s.seqRunning n = true → bit val 31 = true →
      exec (.seqCtlWrite by_ r val) s = .next (s.wf (Reg.RADIO.SEQ_CTL n) 9 0 (fld val 9 0))) ∧
    (s.seqRunning n = true → bit val 31 = false →
      exec (.seqCtlWrite by_ r val) s = .next ((s.wf (Reg.RADIO.SEQ_CTL n) 9 0 (fld val 9 0)).seqStop n)) ∧
    (s.pathFree res = true → s.seqRunning n = true → exec (.seqSwapRequest by_ r entry tag) s = .next
      ((((s.pathBusy res 16 tag).modRadio n fun x => { x with swap := some entry.toNat }).wf (Reg.RADIO.SEQ_STATUS n)
        29 29 1).askToken kSEQSW (rTile n))) ∧
    (s.pathFree res = true → s.seqRunning n = false →
      exec (.seqSwapRequest by_ r entry tag) s = .next ((s.pathBusy res 16 tag).swapStopped n entry.toNat)) ∧
    (s.pathFree res = false →
      exec (.seqSwapRequest by_ r entry tag) s = .next (s.sat (Reg.RADIO.SEQ_ERR_CNT n) 7 0 1)) ∧
    (s.rbit res 31 = true → s.pathTag res 16 = tag → exec (.seqAck by_ r tag) s = .next (s.wr res 0)) ∧
    exec (.seqPoke by_ r true) s = .next (s.seqEvent n evCTRL) ∧ exec (.seqPoke by_ r false) s = .next s ∧
    (reqMgmt by_ = true → ∃ u, exec (.ctrlRunWrite by_ r val) s = .next u ∧
      ∀ k, k < 4 → bit val k = true → (s.thread (threadKey (rTile n) 0 k)).run = .stopped →
        (u.thread (threadKey (rTile n) 0 k)).run = .running ∧ (u.thread (threadKey (rTile n) 0 k)).pc = 0)

/-- The sequencer's steps (R142, R143, R145, R148, R149): a step that is due begins with the words of its table entry and its
parameter record as they stand then; the occurrences of its event before its first tick are cleared unless EV_KEEP, or those of every
event under CLR_LATCH; a STOP step stops the sequencer; the pulses of another act, and a chain asked to send and receive is counted.
A timed step ends at its time; a wait ends on the tick after its event is first latched, where that comes before its time-out, else
at its time-out; a test takes NEXT_EV where its event is latched on its tick; ANCHOR_AT occurs on the tick before the anchor and its
offset, where that is after the step began; a swap that is due takes the other bank at its entry and posts its result. -/
def Obligations.SequencerStepsFollowTheirWords : Prop :=
  ∀ (r : Fin 3) (s : State), s.seqRunning r.val = true →
    let n := r.val
    let st := (s.radio n).step
    (∀ k t, (s.radio n).next = some (k, t) → t ≤ s.tick → s.swapDue n = false →
      let a := stepAddr n (s.bank n) k
      let b : SeqStep := { w0 := s.rm a 4, w1 := s.rm (a + 4) 4, w2 := s.rm (a + 8) 4, w3 := s.rm (a + 12) 4, began := t }
      let p := lm (rTile n) (0x200000 + 16 * b.paramIdx)
      let st' : SeqStep := { b with rec_ := (List.range 4).map fun j => s.rm (p + 4 * j) 4 }
      let s0 := (s.wf (Reg.RADIO.SEQ_STATUS n) 25 16 k).modRadio n fun x => { x with
        latchAt := if st'.w0.testBit 27 && st'.kind != 3 then x.latchAt.filterMap fun e => keepFrom t e
          else if st'.keep then x.latchAt
          else x.latchAt.filterMap fun e => if e.1 = st'.event then keepFrom t e else some e }
      (st'.kind = 3 → exec (.seqStepBegin r) s = .next (s0.seqStop n)) ∧
      (st'.kind ≠ 3 →
        let s2 := (s0.modRadio n fun x => { x with step := st', next := none }).pulses n
        let clash := s2.txAsk n % 256 &&& (s2.act n / 256 % 256) != 0
        exec (.seqStepBegin r) s = .next ((if clash then s2.sat (Reg.RADIO.RF_ERR_CNT n) 23 16 1 else s2).rxenChanged n))) ∧
    (∀ e k t, (s.radio n).swap = some e → (s.radio n).next = some (k, t) → s.swapDue n = true →
      ∃ u, exec (.seqSwapApply r) s = .next u ∧ u.bank n = 1 - s.bank n ∧ (u.radio n).swap = none ∧
        (u.radio n).next = some (e, t) ∧ u.rbit (Reg.RADIO.SEQ_RESULT n) 31 = true) ∧
    (st.event = 0 ∨ 14 ≤ st.event ∨ tget (fun _ => []) (s.radio n).latchAt st.event = [] → s.latchTick n = none) ∧
    (st.event ≠ 0 → st.event < 14 → ∀ t ∈ tget (fun _ => []) (s.radio n).latchAt st.event,
      ∃ e, s.latchTick n = some e ∧ st.began ≤ e ∧ e ≤ max st.began t) ∧
    ((s.radio n).next = none →
      (st.kind = 0 → st.began + max 1 st.duration ≤ s.tick →
        exec (.seqTimedEnd r) s = .next (s.stepEnds n st.nextEv (st.began + max 1 st.duration))) ∧
      (∀ e, st.kind = 1 → s.latchTick n = some e → st.duration = 0 ∨ e < st.began + st.duration → exec (.seqWaitEvent r) s =
        .next ((s.wf (Reg.RADIO.SEQ_STATUS n) 5 0 st.event).stepEnds n st.nextEv (e + 1))) ∧
      (st.kind = 1 → (∀ e, s.latchTick n = some e → st.began + st.duration ≤ e) → st.duration ≠ 0 →
        st.began + st.duration ≤ s.tick →
        exec (.seqWaitTimeout r) s = .next (s.stepEnds n st.nextTo (st.began + st.duration))) ∧
      (st.kind = 2 → exec (.seqTestEnd r) s = .next (s.stepEnds n
        (if s.latchTick n = some st.began then st.nextEv else st.nextTo) (st.began + 1))) ∧
      (st.kind = 1 → st.event = evANCHOR → st.began < s.anchorTick n → s.anchorTick n ≤ s.tick + 1 →
        exec (.anchorAt r) s = .next (s.seqEventAt n evANCHOR (s.anchorTick n - 1))))

/-- Transmit commands (R151, R152, R154, R157): a push with a malformed command or into a queue of eight, those sent back to it by an
RTS counted (log entry 14), is dropped, counted and an event; another stands last in its queue and a calibration slice yields. The
command at the head of queue 4 with a time becomes due 513 ticks before it, its TIM element built. A due command whose first bytes
are in the transmit buffer is selected once nothing holds it back, and with the completion ring full it stalls, counted once. A
command not started by its due time plus LATEST leaves with status 2. A completion retires by its tag, and a write of TXC_CTL starts
the ring over; records that waited for a slot follow (log entry 47). -/
def Obligations.TransmitCommandsQueue : Prop :=
  ∀ (by_ : Req) (r : Fin 3) (q : Fin 5) (tag : Tag) (val : Word) (c : TxCmd) (cs : List TxCmd) (s : State),
    let n := r.val
    let x := s.radio n
    let w := (List.range 8).map fun k => (s.rd (Reg.RADIO.TXQ_CMD n k)).toNat
    let full := (s.sat (Reg.RADIO.TX_ERR_CNT n) 15 8 1).evt (rTile n) 26
    (s.accepts by_ (rTile n) = true →
      exec (.txqPush by_ r false) s = .next s ∧
      (pushBad w = true → exec (.txqPush by_ r true) s = .next full) ∧
      (pushBad w = false →
        let k := if w.getD 0 0 / 2 ^ 30 = 0 then nbits (w.getD 0 0) 29 28 else 4
        (8 ≤ (s.txq n k).length + s.txqOut n k → exec (.txqPush by_ r true) s = .next full) ∧
        ((s.txq n k).length + s.txqOut n k < 8 → exec (.txqPush by_ r true) s =
          .next ((s.setTxq n k (s.txq n k ++ [{ words := w }])).sliceYield n))) ∧
      (let k := s.rf (Reg.RADIO.TXC_RD n) 9 0
       let a := s.txcAddr n k
       k ≠ s.rf (Reg.RADIO.TXC_WR n) 9 0 → (s.rm a 4).testBit 31 = true → nbits (s.rm a 4) 15 8 = tag.toNat →
        exec (.txcAck by_ r tag) s = .next
          (((s.wm a 4 (s.rm a 4 % 2 ^ 31)).wf (Reg.RADIO.TXC_RD n) 9 0 ((k + 1) % s.txcSlots n)).txcFlush n x.txcWait)) ∧
      (let s1 := ((s.wr (Reg.RADIO.TXC_CTL n) (val &&& 0x0003FFFF)).wr (Reg.RADIO.TXC_WR n) 0).wr (Reg.RADIO.TXC_RD n) 0
       exec (.txcCtlWrite by_ r val) s = .next (s1.txcFlush n x.txcWait))) ∧
    (s.txq n 4 = c :: cs → c.word 0 / 2 ^ 30 = 1 → c.due = none → s.dozing n = false → s.dutyFull n = false →
      c.word 4 + 2 ^ 32 * c.word 5 ≤ s.ns + 1604 → exec (.cmdDueAtTime r) s = .next (s.setTxq n 4
        (s.timPatch n { c with due := some s.tick, late := !s.locked n || s.tuning n || (s.radio n).slice.isSome } :: cs))) ∧
    (∀ k, s.dueQueue n = some k → s.txq n k = c :: cs → x.tx = none → x.resp.phase = .none ∨ x.resp.phase = .announced →
      x.selected = none → s.locked n = true → s.tuning n = false → x.slice = none → s.life (rTile n) = .ready →
      s.dozing n = false → s.heldBack n k c = false → s.storeUp = true ∨ c.lead ≤ c.fetched →
      (s.txcFull n = false → exec (.txqReady r) s =
        .next ((s.modRadio n fun y => { y with selected := some k }).seqEvent n evTXQ)) ∧
      (s.txcFull n = true → c.stalled = false → exec (.txqReady r) s =
        .next ((s.setTxq n k ({ c with stalled := true } :: cs)).sat (Reg.RADIO.TX_ERR_CNT n) 7 0 1))) ∧
    (∀ d, s.txq n q.val = c :: cs → c.due = some d → c.word 6 ≠ 0 → d * 25 + c.word 6 * 8 ≤ s.tick * 25 →
      let free := s.modRadio n fun x => { x with
        selected := if x.selected = some q.val then none else x.selected
        granted := if x.granted = some q.val then none else x.granted }
      exec (.cmdExpire r q) s = .next ((free.setTxq n q.val cs).txUnsent n q.val c 2))

/-- Transmissions and responses (R155, R157, R158, R190, R232): an underrun marks the PPDU on the air; the end of a PPDU sets the
anchor and TX_END, adds its airtime and, by its stage, goes on to the data after a CTS to self, opens the window of a trigger-based
response, waits for the next PPDU of several, waits for the response due, or completes; the end of a response leaves none in progress.
A response that is prepared becomes ready; it launches armed inside its window as RESP_CNT counts, a reception in progress aborted;
it is abandoned, counted and TX_END, where it is not ready or not armed by its last launch tick, cannot launch in its window, or finds
no lock at its launch tick. -/
def Obligations.TransmissionsAndResponsesEnd : Prop :=
  ∀ (r : Fin 3) (airtime : BitVec 32) (unsent : BitVec 8) (errs : List Int) (s : State),
    let n := r.val
    let x := s.radio n
    let ended := (s.modRadio n fun y => { y with anchor := s.tick }).seqEvent n evTXEND
    let close := fun (u : State) => (((u.syncTxBusy n).chainsAtEnd n).rfSettle n).nstrFree n
    (∀ t, x.tx = some t → t.onAir = true → exec (.txUnderrun r unsent) s = .next (s.modRadio n fun y =>
      { y with tx := some { t with underrun := true, unsent := min 255 (t.unsent + unsent.toNat) } })) ∧
    (∀ t, x.tx = some t → t.onAir = true →
      let t1 : TxNow := { t with airtime := t.airtime + airtime.toNat, onAir := false }
      let s1 := (ended.modRadio n fun y => { y with
        tx := some t1
        duty := if s.ns / 10000000 ≤ (s.ns - airtime.toNat) / 10000000 then y.duty + airtime.toNat else y.duty }).dpdCaptures
          n t.chains airtime.toNat (s.cmdPower n t.cmd) errs
      (t.stage = .rts → exec (.txPpduEnd r airtime errs) s = .next (close (s1.awaitFrom n t1))) ∧
      (t.stage = .ctsSelf →
        let t2 : TxNow := { t1 with stage := .ppdu 0, onAir := true }
        exec (.txPpduEnd r airtime errs) s = .next (close (s1.modRadio n fun y => { y with
          tx := some { t2 with till := s1.endTick n t2 (s.tick + s.sifs n * 16 / 25) } }))) ∧
      (∀ m, t.stage = .ppdu m →
        (∀ us, s.opensTb n t = some us → exec (.txPpduEnd r airtime errs) s = .next (close (s1.modMac n fun y => { y with
          tb := some (s.clock + s.sifs n + nbits (s.tv n t.cmd 2) 31 16 * 500 + 1000, us, false) }))) ∧
        (s.opensTb n t = none →
          (m + 1 < s.ppdusOf n t.cmd → exec (.txPpduEnd r airtime errs) s = .next (close s1)) ∧
          (s.ppdusOf n t.cmd ≤ m + 1 → s.ackOf n t ≠ 0 →
            exec (.txPpduEnd r airtime errs) s = .next (close (s1.awaitFrom n t1))) ∧
          (s.ppdusOf n t.cmd ≤ m + 1 → s.ackOf n t = 0 →
            let s2 := t.cmd.mpdus.foldl (fun u m => u.stqAcked n m)
              ((s1.modRadio n fun y => { y with tx := none }).exchangeOk n t1)
            exec (.txPpduEnd r airtime errs) s = .next (close
              (if nbits (s.tv n t.cmd 0) 31 28 = 7 ∧ t.cmd.from_ = .firmware then s2.tpStatus n t.cmd false true
               else s2.fwStatus n t.cmd (fun _ => false) false)))))) ∧
    (x.tx = none → x.resp.phase = .sending →
      let s1 := ((ended.modRadio n fun y => { y with resp := {} }).syncTxBusy n).dpdCaptures n x.resp.chains airtime.toNat
        (s.limitPower n x.resp.power) errs
      let done := fun (u : State) => ((u.chainsAtEnd n).rfSettle n).nstrFree n
      (x.resp.kind ≠ .tb → exec (.txPpduEnd r airtime errs) s = .next (done s1)) ∧
      (x.resp.kind = .tb → exec (.txPpduEnd r airtime errs) s = .next (done (s1.modMac n fun m => { m with
        muUntil := (List.range 4).foldl (fun t ac => tput (fun _ => 0) t ac
          (s.clock + s.rf (Reg.RADIO.MU_EDCA_AC n ac) 31 16 * 8 * 1024 * 500)) m.muUntil })))) ∧
    (x.resp.phase = .prepared → exec (.respReady r) s =
      .next ((s.modRadio n fun y => { y with resp := { y.resp with phase := .ready, readyAt := s.tick } }).seqEvent n evRESPREADY)) ∧
    (x.resp.phase = .ready → x.resp.armed = true → s.locked n = true → s.tuning n = false → s.launchAt n ≤ s.tick →
      s.launchAt n ≤ s.lastLaunch n → s.tick ≤ s.lastLaunch n → s.live (rTile n) = true →
      let stamp := s.ns + 1600 + s.femDelay n x.resp.chains 31 16
      let sent := fun (u : State) (ns : Nat) => (((((u.modRadio n fun y => { y with resp := { y.resp with
        phase := .sending, armed := false, stamp := stamp, till := s.tick + 512 + ns * 8 / 25 } }).sat
          (Reg.RADIO.RESP_CNT n) 31 16 1).macBusy n).syncTxBusy n).ftmOnTx n stamp)
      ((∀ p b, x.resp.kind ≠ .towpath p b) → exec (.respLaunch r) s =
        .next (sent (s.rxAbort n 10) (Config.ppduNs [3, x.resp.rate] (x.resp.bas.map (·.size)).sum))) ∧
      (∀ p b, x.resp.kind = .towpath p b → s.tpOn n = true → exec (.respLaunch r) s =
        .next (sent ((s.rxAbort n 10).tpTake n p false).1
          (100 * tpDuration 28 0 (2 * s.tpTones n) 1 (s.rf (Reg.RADIO.TP_CTL n) 23 23))))) ∧
    ((x.resp.phase = .prepared ∧ s.lastLaunch n < s.tick) ∨ (x.resp.phase = .ready ∧ (s.lastLaunch n < s.tick ∨
        s.lastLaunch n < s.launchAt n ∨ (s.launchAt n ≤ s.tick ∧ (s.locked n = false ∨ s.tuning n = true)))) →
      exec (.respAbandon r) s =
        .next ((((s.modRadio n fun y => { y with resp := {} }).seqEvent n evTXEND).sat (Reg.RADIO.RESP_CNT n) 15 0 1).syncTxBusy n))

/-- Reception begins (R114, R165 to R168): power at the threshold on a participating chain, in the primary channel or in a TB window
in the whole, opens a reception, or is counted where the radio is blanked; the first and second stages qualify it inside their windows,
and a window that passes aborts it with its own reason; a DSSS lock, an L-SIG and a SIG field open the next stage or abort the
reception. An abort (R172, R180) leaves the receiver idle and latches RX_ABORT; where no reception is in progress, and none was aborted
on this tick, it changes nothing. -/
def Obligations.ReceptionQualifiesInStages : Prop :=
  (∀ (r : Fin 3) (prim whole : List Byte) (short : Bool) (ago : BitVec 16) (lsig : BitVec 24) (rssi : BitVec 16)
      (chainRssi : List Byte) (s : State),
    let n := r.val
    let x := (s.radio n).rx
    ((s.act n).testBit 17 = true → x.phase = .idle →
      (∃ k, k < 8 ∧ (s.participating n).testBit k = true ∧ min (-40) (sval 8 (s.rf (Reg.RADIO.RX_DET_CTL n) 31 24)) ≤
        sval 8 ((if s.tbOpen n then whole else prim).getD k 0x80).toNat) →
      (s.blanked n = true → exec (.edDetect r prim whole) s = .next (s.sat (Reg.RADIO.RF_BLANK_CNT n) 31 0 1)) ∧
      (s.blanked n = false → exec (.edDetect r prim whole) s = .next (s.edBegin n s.tick))) ∧
    (∀ (corr : BitVec 9) (sub : BitVec 4) (level : Int),
      x.phase = .stage1 → s.tick ≤ x.edAt + qualTicks → (s.radio n).gainAt + 512 ≤ s.tick →
      max 1 (s.rf (Reg.RADIO.RX_DET_CTL n) 23 16) ≤ corr.toNat →
      sub.toNat = s.primaryIdx n ∨ (s.tbOpen n = true ∧ sub.toNat ∈ s.tbSubs n) →
      exec (.qualStage1Ok r corr sub level) s = .next (s.modRadio n fun y => { y with
        agc := max 1 y.agc, rx := { x with phase := .stage2, s1At := s.tick, ref := some level } })) ∧
    (x.phase = .stage1 → x.edAt + qualTicks ≤ s.tick → exec (.acFailTimeout r) s = .next (s.rxAbort n 2)) ∧
    (x.phase = .stage2 → x.s1At + qualTicks ≤ s.tick → exec (.xcFailTimeout r) s = .next (s.rxAbort n 3)) ∧
    (∀ (peak : BitVec 9) (cfo : BitVec 16) (levels : List Byte) (ref : Int) (frac : BitVec 16),
      x.phase = .stage2 → s.tick ≤ x.s1At + qualTicks → max 1 (s.rf (Reg.RADIO.RX_DET_CTL n) 15 8) ≤ peak.toNat →
      cfo.toInt ≤ 3000 → -3000 ≤ cfo.toInt →
      let stamp := s.ns - 8200 - s.femDelay n x.chains 15 0
      let s1 := (s.freezeLevels n x.chains levels).modRadio n fun y => { y with agc := 2, rx := { x with
        phase := .lsig, stamp := stamp, startAt := s.tick - 2624, ref := some ref, qualChains := x.chains } }
      let s2 := (s1.seqEvent n evQUAL).macQual n
      exec (.qualOk r peak cfo levels ref frac) s =
        .next (((s2.nstr n).foldl (fun u q => u.macBusy q) s2).ftmOnRx n stamp frac.toNat)) ∧
    (x.phase = .stage1 ∨ x.phase = .stage2 → s.band n = 0 → s.rbit (Reg.RADIO.RX_FORMAT_EN n) 0 = true →
      exec (.dsssLock r ago) s = .next (s.modRadio n fun y => { y with rx := { x with
        phase := .dsss, stamp := s.ns - ago.toNat - s.femDelay n x.chains 15 0,
        startAt := s.tick - ago.toNat * 8 / 25, qualChains := x.chains } })) ∧
    (x.phase = .dsss → x.edAt + (if short then 23040 else 46080) ≤ s.tick →
      exec (.dsssSfdTimeout r short) s = .next (s.rxAbort n 3)) ∧
    (x.phase = .lsig →
      let x1 : Rx := { x with rssi := some (rssi.toNat, chainRssi) }
      (lsigUs lsig.toNat = none →
        exec (.lsigCheck r lsig rssi chainRssi) s = .next ((s.modRadio n fun y => { y with rx := x1 }).rxAbort n 4)) ∧
      (∀ us, lsigUs lsig.toNat = some us → exec (.lsigCheck r lsig rssi chainRssi) s = .next (s.modRadio n fun y => { y with
        rx := { x1 with phase := .sig, durNs := us * 1000, endAt := x.startAt + us * 320 } }))) ∧
    (x.phase = .sig ∨ (x.phase = .dsss ∧ x.sig = none) → ∀ (stf : Option StfLevels) (g : RxSig),
      exec (.sigFieldCheck r (.more none) stf) s = .next s ∧
      exec (.sigFieldCheck r .fails stf) s = .next (s.rxAbort n (if x.phase = .dsss then 4 else 5)) ∧
      exec (.sigFieldCheck r (.last g) stf) s = .next (s.sigPassed n g stf)) ∧
    (x.phase = .sig → ∀ (stf : Option StfLevels) (i : SigId) (h : BitVec 96),
      (s.rxFormatOn n i.format.toNat = false ∨ i.excluded = true →
        exec (.sigFieldCheck r (.more (some i)) stf) s = .next (s.rxAbort n 6)) ∧
      (s.rxFormatOn n i.format.toNat = true → i.excluded = false → exec (.sigFieldCheck r (.more (some i)) stf) s = .next s) ∧
      exec (.sigFieldCheck r (.towpath h) stf) s = .next (s.tpHeader n h))) ∧
  (∀ (n reason : Nat) (s : State), n < 3 →
    ((s.radio n).rx.phase = .idle → (∀ c, (s.radio n).cutRx = some c → c.tick ≠ s.tick) → s.rxAbort n reason = s) ∧
    ((s.radio n).rx.phase ≠ .idle → (s.radio n).rx.edAt ≤ s.tick →
      ((s.rxAbort n reason).radio n).rx.phase = .idle ∧
      s.tick ∈ tget (fun _ => []) ((s.rxAbort n reason).radio n).latchAt evABORT))

/-- Reception ends (R114, R145, R162, R170, R176, R177, R179, R181): a stronger signal restarts the receiver with ED on the next tick,
or while the detector is blanked is counted; a PPDU that is no Towpath frame and whose SIG fields name no TXOP leaves its results to be
decided and sets the anchor to its end; RX_END is latched 160 ticks after that end; the decision of a PPDU that is no TB PPDU, needs no
response and answers none writes its record and latches RX_DECIDED; codewords arrive and stop in their lanes and those not decoded are
counted; the deadline cuts those still in the decoder; the audit, AUDIT_MS after the lane's last, passes its turn to the next lane and at
the second failure in a row takes the lane out of service; firmware moves the record ring's read index. -/
def Obligations.ReceptionEndsAndIsDecided : Prop :=
  ∀ (by_ : Req) (r : Fin 3) (level ref : Int) (periodic : Bool) (val : Word) (s : State),
    let n := r.val
    let x := (s.radio n).rx
    (x.phase ≠ .idle → x.edAt ≤ s.tick → x.ref = some ref → s.rbit (Reg.RADIO.RX_RESTART_CTL n) 31 = true →
      ref + (clampN 4 20 (s.rf (Reg.RADIO.RX_RESTART_CTL n) 4 0) : Nat) ≤ level →
      let s1 := s.rxAbort n 8
      (s1.blanked n = true → exec (.rxRestart r level periodic) s = .next (s1.sat (Reg.RADIO.RF_BLANK_CNT n) 31 0 1)) ∧
      (s1.blanked n = false → exec (.rxRestart r level periodic) s = .next (s1.edBegin n (s.tick + 1)))) ∧
    (x.phase = .data ∨ x.phase = .hold → x.endAt ≤ s.tick → x.tp = none → (∀ g, x.sig = some g → g.txop = none) →
      exec (.rxPpduEnd r none) s = .next
        ((((s.modRadio n fun y => { y with anchor := x.endAt, rx := {}, done := some y.rx }).sat (Reg.RADIO.RX_PPDU_CNT n)
          31 0 1).agcArm n).chainsAtEnd n)) ∧
    (∀ d, (s.radio n).done = some d → d.ended = false → d.endAt + 160 ≤ s.tick → exec (.rxEnd r) s =
      .next ((s.modRadio n fun y => { y with done := some { d with ended := true } }).seqEventAt n evRXEND (d.endAt + 160))) ∧
    (∀ d, (s.radio n).done = some d → d.ended = true → d.resp = none → (s.mac n).await = none → d.isTb = false →
      let s1 := (s.rxsWrite n (recordBody d { s.freeMeas with user := 255 } d.endKind)).1.took
      exec (.rxDecided r []) s = .next ((s1.seqEvent n evDECIDED).modRadio n fun y => { y with
        done := none, mac := { y.mac with eifs := y.mac.eifs || (d.fcsFail && d.tp.isNone) } })) ∧
    (∀ y (arrived : List (BitVec 8)) (lane : Fin 13) (need : Option (BitVec 8)), s.cwRx n = some y →
      let y1 := y.arrive (s.rf (Reg.RADIO.RX_LANES n) 12 0) arrived
      let y2 := s.laneEnds n y1 lane.val need
      exec (.codewordDecoded r arrived lane need) s =
        .next (((s.setCwRx n y2).sat (Reg.RADIO.RX_DEC_CNT n) 7 0 (y1.bad.length - y.bad.length)).sat
          (Reg.RADIO.RX_DEC_CNT n) 31 16 (y2.bad.length - y1.bad.length))) ∧
    (∀ d, (s.radio n).done = some d → d.closed = false → d.endAt + 1280 ≤ s.tick → exec (.decodeDeadline r) s =
      .next ((s.modRadio n fun y => { y with done := some { d with
        closed := true, cut := !d.buf.isEmpty, bad := d.bad ++ d.buf.map (·.1), buf := [], lanes := [] } }).sat
          (Reg.RADIO.RX_DEC_CNT n) 15 8 d.buf.length)) ∧
    (∀ k passed, laneFrom (s.rf (Reg.RADIO.RX_LANES n) 12 0) (s.radio n).laneTurn = some k →
      s.rf (Reg.RADIO.RX_DEC_CTL n) 23 16 ≠ 0 → s.live (rTile n) = true →
      (∀ y, s.cwRx n = some y → ∀ e ∈ y.lanes, e.1 ≠ k) →
      tget (fun _ => 0) (s.radio n).laneAt k + s.rf (Reg.RADIO.RX_DEC_CTL n) 23 16 * 500000 ≤ s.clock →
      let fails := if passed then 0 else tget (fun _ => 0) (s.radio n).laneFails k + 1
      let s1 := s.modRadio n fun y => { y with
        laneTurn := (k + 1) % 13, laneAt := tput (fun _ => 0) y.laneAt k s.clock,
        laneFails := tput (fun _ => 0) y.laneFails k (if 2 ≤ fails then 0 else fails) }
      let act := s.rf (Reg.RADIO.RX_LANES n) 12 0
      let failed := s.rf (Reg.RADIO.RX_LANES n) 28 16
      (fails < 2 → exec (.laneAudit r passed) s = .next s1) ∧
      (2 ≤ fails → act + failed = 2 ^ 13 - 1 →
        exec (.laneAudit r passed) s = .next (s1.setLanes n (act - 2 ^ k) (failed + 2 ^ k))) ∧
      (2 ≤ fails → act + failed ≠ 2 ^ 13 - 1 →
        exec (.laneAudit r passed) s = .next ((s1.setLanes n (act - 2 ^ k) (failed + 2 ^ k)).axAsk 29 (rTile n) k))) ∧
    (s.accepts by_ (rTile n) = true →
      exec (.rxsRdWrite by_ r val) s = .next (s.wr (Reg.RADIO.RXS_RD n) (val &&& 0x7FFF)))

/-- The medium of a radio (R185, R186, R188, R189, R192, R193): NAVs end at their time, energy from the CCA threshold on makes the
medium busy, a medium idle to both carrier senses latches MEDIUM_IDLE and starts its slots, an expired slot moves every access
category's counter and, where a grant may be made, grants the highest that is due, the others due failing inside; a grant whose medium
or secondary channels turn busy, or that goes stale for a slot though its command need not wait for a partner's end, is withdrawn. -/
def Obligations.MediumAccessFollowsItsTimers : Prop :=
  ∀ (r : Fin 3) (level : BitVec 8) (intra : Bool) (busy : BitVec 16) (s : State),
    let n := r.val
    let m := s.mac n
    (m.navIntra ≤ s.clock → exec (.navExpire r true) s = .next (s.modMac n fun x => { x with navIntra := 0 })) ∧
    (m.navBasic ≤ s.clock → exec (.navExpire r false) s = .next (s.modMac n fun x => { x with navBasic := 0 })) ∧
    (∀ t, m.navRts = some (intra, t) → t ≤ s.clock → exec (.navRtsTimeout r) s = .next (s.modMac n fun x => { x with
      navRts := none, navIntra := if intra then 0 else x.navIntra, navBasic := if intra then x.navBasic else 0 })) ∧
    (sval 8 (s.rf (Reg.RADIO.MAC_CTL n) 15 8) ≤ sval 8 level.toNat →
      exec (.ccaEnergyBusy r level) s = .next ((s.modMac n fun x => { x with ccaBusy := true }).macBusy n)) ∧
    (sval 8 level.toNat < sval 8 (s.rf (Reg.RADIO.MAC_CTL n) 15 8) →
      exec (.ccaEnergyBusy r level) s = .next (s.modMac n fun x => { x with ccaBusy := false })) ∧
    (s.physBusy n = false → s.navBusy n = false → m.idleAt = none → s.live (rTile n) = true →
      exec (.mediumIdle r) s = .next ((s.modMac n fun x => { x with idleAt := some s.clock, slotJ := 0 }).seqEvent n evIDLE)) ∧
    (∀ t, m.idleAt = some t → s.physBusy n = false → s.navBusy n = false →
      t + s.eifsExtra n + s.sifs n + m.slotJ * s.slot n ≤ s.clock →
      let s1 := [0, 1, 2, 3].foldl (fun u ac => u.slotStep n m.slotJ ac) (s.modMac n fun x => { x with slotJ := m.slotJ + 1 })
      let won := [3, 2, 1, 0].filter fun ac => s1.slotCand n m.slotJ ac
      let can := s.mayGrant n = true ∧ (s.radio n).granted = none ∧ (s.radio n).tx = none ∧ m.await = none
      (¬ can ∨ won = [] → exec (.backoffSlot r busy) s = .next s1) ∧
      (∀ ac l, can → won = ac :: l → exec (.backoffSlot r busy) s = .next
        ((l.reverse.foldl (fun u b => (u.acFailure n b).sat (Reg.RADIO.ACC_CNT n) 15 8 1)
          (s1.modMac n fun x => { x with subBusy := busy.toNat })).grant n ac))) ∧
    (∀ ac, (s.radio n).granted = some ac →
      s.physBusy n = true ∨ s.navBusy n = true ∨ (∃ c l, s.txq n ac = c :: l ∧ s.secBusy n c busy.toNat = true) ∨
        ((s.radio n).selected ≠ some ac ∧ m.grantAt + s.slot n ≤ s.clock ∧
          ∀ c l, s.txq n ac = c :: l → s.aligned n c (s.tick + 1) = true) →
      exec (.grantWithdraw r busy) s = .next (s.withdraw n)) ∧
    exec (.muEdcaTimerExpire r) s =
      .next (s.modMac n fun x => { x with muUntil := x.muUntil.filter fun e => s.clock < e.2 })

/-- Frames and exchanges of a radio (R188, R190, R191, R195, R202): an MPDU that fails its FCS marks the reception; one that
passes updates a NAV and, with the MAC enabled, is dropped or taken as the filter says; a response that does not come in its window
fails the exchange and is counted; a TXOP's next exchange is granted where it fits the limit, and else the TXOP ends; a write of MAC_CTL
that sets EN resets EDCA, one that clears it withdraws the grant, and MAC_SEED is held; a reorder window that has waited for TIMEOUT
moves to its first held MPDU. -/
def Obligations.ExchangesSucceedOrFail : Prop :=
  ∀ (by_ : Req) (r : Fin 3) (f : RxMpdu) (val : Word) (q : Fin 8192) (s : State),
    let n := r.val
    let x := s.radio n
    let u0 := f.user.toNat
    let s0 := s.modCur n fun y => { y with mpdus := tput (fun _ => 0) y.mpdus u0 (tget (fun _ => 0) y.mpdus u0 + 1) }
    (s.decoding n = true → (s.rxCur n).tp = none → s.live (rTile n) = true →
      (f.fcsOk = false → exec (.mpduReceive r f) s = .next (s0.modCur n fun y => { y with fcsFail := true })) ∧
      (f.fcsOk = true → (s0.navUpdate n f).rbit (Reg.RADIO.MAC_CTL n) 31 = false →
        exec (.mpduReceive r f) s = .next (s0.navUpdate n f)) ∧
      (f.fcsOk = true → (s0.navUpdate n f).rbit (Reg.RADIO.MAC_CTL n) 31 = true →
        let g := (s0.navUpdate n f).rxFilter n f
        exec (.mpduReceive r f) s = .next (match g.2 with
          | .dropped => g.1
          | .taken slot scid other => g.1.rxTaken n f slot scid other))) ∧
    (∀ a, x.mac.await = some a → a.endAt + s.sifs n + s.slot n + 1000 ≤ s.clock → (a.qual = true → x.rx.phase = .idle) →
      (a.qual = true → x.done = none) →
      exec (.respTimeout r) s = .next ((s.exchangeFail n a.tx true).sat (Reg.RADIO.ACC_CNT n) 31 16 1)) ∧
    (∀ ac t0, x.mac.txop = some (ac, t0) → x.tx = none → x.mac.await = none → x.granted = none →
      x.mac.exchangeEnd + s.sifs n ≤ s.clock →
      (s.txq n ac = [] → exec (.txopNextDue r) s = .next (s.endTxop n)) ∧
      (∀ c l, s.txq n ac = c :: l →
        let need := (s.cmdNs n c + s.answerNs n c + 1) / 2 + 2 * s.sifs n
        (s.clock + need ≤ t0 + s.txopLimit n ac → s.mayGrant n = true → exec (.txopNextDue r) s = .next (s.grant n ac)) ∧
        (t0 + s.txopLimit n ac < s.clock + need ∨ s.mayGrant n = false →
          exec (.txopNextDue r) s = .next (s.endTxop n)))) ∧
    (s.accepts by_ (rTile n) = true →
      let s1 := s.wr (Reg.RADIO.MAC_CTL n) (val &&& 0xFFC0FFFF)
      let on := s.rbit (Reg.RADIO.MAC_CTL n) 31
      (bit val 31 = true → on = false → exec (.macCtlWrite by_ r val) s = .next (s1.edcaReset n)) ∧
      (bit val 31 = false → on = true → exec (.macCtlWrite by_ r val) s = .next (s1.withdraw n)) ∧
      (bit val 31 = on → exec (.macCtlWrite by_ r val) s = .next s1) ∧
      exec (.macSeedWrite by_ r val) s = .next (s.modMac n fun m => { m with seed := val.toNat })) ∧
    (∀ h l, (s.board q.val).held = h :: l → s.rf Reg.MLINK.REORDER_CTL 15 0 ≠ 0 →
      (s.board q.val).since + s.rf Reg.MLINK.REORDER_CTL 15 0 * 50000 ≤ s.clock → s.live 5 = true →
      exec (.reorderTimeout q) s = .next (s.rxMove q.val h.seq))

/-- MLINK's AID and key tables, and three of its registers (R41, R196, R197, R204, R209, R214): a command on a free path posts its
result with the event: a binding is held under its AID, cleared and looked up, and a bad AID, a bound AID or context, or an unbound AID
is refused; a key is held as its words say, selected and deleted, and a bad argument or an absent key is refused; a reserved op is
ILLEGAL; on a busy path a command is dropped; an ack retires its result. A write of MRX_RD or LINK_CTL stores its field, and MLINK_RUN
written by MGMT starts the threads named that are stopped. -/
def Obligations.AidAndKeyCommandsComplete : Prop :=
  ∀ (by_ : Req) (tag : Tag) (val : Word) (s : State), s.accepts by_ 5 = true →
    let a := s.rf Reg.MLINK.AID_ARG 10 0
    let scid := s.rf Reg.MLINK.AID_ARG 25 16
    let g := s.rf Reg.MLINK.AID_ARG 31 28
    let aid := fun (u : State) (code g scid : Nat) => (u.aidPost tag code g scid).evt 5 16
    let key := fun (u : State) (code : Nat) => (u.keyPost tag code).evt 5 17
    let bound := s.mlink.aids.any fun e => match e.2 with
      | some (k, _) => k = scid
      | none => false
    (s.pathFree Reg.MLINK.AID_RESULT = true →
      (aidOk a = false → exec (.aidSet by_ tag) s = .next (aid s 1 0 0) ∧ exec (.aidClr by_ tag) s = .next (aid s 1 0 0)) ∧
      (aidOk a = true → s.aid a = none → bound = false → ∃ u, exec (.aidSet by_ tag) s = .next u ∧ u.aid a = some (scid, g) ∧
        (∀ b, b ≠ a → u.aid b = s.aid b) ∧ u.rd Reg.MLINK.AID_RESULT = wd (2 ^ 31 + tag.toNat) ∧
        bit (u.tile 5).evtPend 16 = true ∧ (∀ b, u.rb b = s.rb b)) ∧
      (aidOk a = true → s.aid a ≠ none ∨ bound = true → exec (.aidSet by_ tag) s = .next (aid s 2 0 0)) ∧
      (aidOk a = true → s.aid a ≠ none → ∃ u, exec (.aidClr by_ tag) s = .next u ∧ u.aid a = none ∧
        (∀ b, b ≠ a → u.aid b = s.aid b) ∧ u.rd Reg.MLINK.AID_RESULT = wd (2 ^ 31 + tag.toNat)) ∧
      (aidOk a = true → s.aid a = none → exec (.aidClr by_ tag) s = .next (aid s 3 0 0)) ∧
      (∀ k h, s.aid a = some (k, h) → exec (.aidLookup by_ tag) s = .next (aid s 0 h k)) ∧
      (s.aid a = none → exec (.aidLookup by_ tag) s = .next (aid s 3 0 0)) ∧
      exec (.aidIllegalOp by_ tag) s = .next (aid s 4 0 0)) ∧
    (s.pathFree Reg.MLINK.AID_RESULT = false → exec (.aidSet by_ tag) s = .next (s.reqDrop 5) ∧
      exec (.aidClr by_ tag) s = .next (s.reqDrop 5) ∧ exec (.aidLookup by_ tag) s = .next (s.reqDrop 5) ∧
      exec (.aidIllegalOp by_ tag) s = .next (s.reqDrop 5)) ∧
    (s.pathFree Reg.MLINK.KEY_RESULT = false → exec (.keyInstall by_ tag) s = .next (s.reqDrop 5) ∧
      exec (.keyDelete by_ tag) s = .next (s.reqDrop 5) ∧ exec (.keySetTx by_ tag) s = .next (s.reqDrop 5) ∧
      exec (.keyIllegalOp by_ tag) s = .next (s.reqDrop 5)) ∧
    exec (.aidAck by_ tag) s = .next (s.pathAck Reg.MLINK.AID_RESULT 0 tag) ∧
    (s.pathFree Reg.MLINK.KEY_RESULT = true →
      (s.keyArg = none → exec (.keyInstall by_ tag) s = .next (key s 1) ∧ exec (.keyDelete by_ tag) s = .next (key s 1) ∧
        exec (.keySetTx by_ tag) s = .next (key s 1)) ∧
      (s.suiteOk = false → s.keyArg = none) ∧
      (∀ k, s.keyArg = some k →
        (∃ u, exec (.keyInstall by_ tag) s = .next u ∧
          u.key k = some { suite := s.rf Reg.MLINK.KEY_ARG 26 24
                           data := (List.range 8).map fun j => (s.rd (Reg.MLINK.KEY_DATA j)).toNat } ∧
          u.rd Reg.MLINK.KEY_RESULT = wd (2 ^ 31 + tag.toNat) ∧ bit (u.tile 5).evtPend 17 = true ∧ (∀ b, u.rb b = s.rb b)) ∧
        (s.key k ≠ none → ∃ u, exec (.keyDelete by_ tag) s = .next u ∧ u.key k = none ∧
          u.rd Reg.MLINK.KEY_RESULT = wd (2 ^ 31 + tag.toNat)) ∧
        (s.key k ≠ none → ∃ u, exec (.keySetTx by_ tag) s = .next u ∧ u.txKeyId s.keySel.1 = some s.keySel.2 ∧
          u.key k = s.key k ∧ u.rd Reg.MLINK.KEY_RESULT = wd (2 ^ 31 + tag.toNat)) ∧
        (s.key k = none → exec (.keyDelete by_ tag) s = .next (key s 3) ∧ exec (.keySetTx by_ tag) s = .next (key s 3))) ∧
      exec (.keyIllegalOp by_ tag) s = .next (key s 4)) ∧
    exec (.keyAck by_ tag) s = .next (s.pathAck Reg.MLINK.KEY_RESULT 0 tag) ∧
    exec (.mrxRdWrite by_ val) s = .next (s.wr Reg.MLINK.MRX_RD (val &&& 0xFFF)) ∧
    exec (.linkCtlWrite by_ val) s = .next ((s.wf Reg.MLINK.LINK_CTL 2 0 (fld val 2 0)).syncLinks) ∧
    (reqMgmt by_ = true → ∃ u, exec (.mlinkRunWrite by_ val) s = .next u ∧ ∀ k, k < 4 → bit val k = true →
      (s.thread (threadKey 5 0 k)).run = .stopped → (u.thread (threadKey 5 0 k)).run = .running)

/-- Context commands of MLINK (R216, R217, R218), taken outside DRAINING on a free path: ALLOC opens the lowest free context cleared
and posts it, or posts code 1 where none is free; ACTIVATE and REFRESH post a refusal or let the fields take effect, and a context in
another state is code 4; FREE closes an open or active context, whose queues empty leave it CLOSING with the path busy; a reserved op is
code 5. The ends of context commands and the queues of a station (R206, R216, R218, R220): a context being freed is FREE once its queues
are empty; an enqueued descriptor stands last in its queue, or is freed, counted and an event where its station is not ACTIVE or its
queue is full, and one outside the store is counted and an event; the end of an EMLSR transition clears the link flags. -/
def Obligations.ContextsAndStationQueues : Prop :=
  (∀ (by_ : Req) (tag : Tag) (s : State), s.accepts by_ 5 = true → s.life 5 ≠ .draining → s.pathFree Reg.MLINK.CTX_RESULT = true →
    let k := s.rf Reg.MLINK.CTX_ARG 9 0
    let fields := s.rbytes (ctxAddr k 0) 1024
    (∀ j, (List.range 1024).find? (fun j => s.ctxState j = 0) = some j → ∃ u, exec (.ctxAlloc by_ tag) s = .next u ∧
      u.ctxState j = 1 ∧ (∀ o, 1 ≤ o → o < 1024 → u.rb (ctxAddr j o) = 0) ∧
      u.rd Reg.MLINK.CTX_RESULT = wd (2 ^ 31 + j * 2 ^ 8 + tag.toNat) ∧ bit (u.tile 5).evtPend 22 = true) ∧
    ((∀ j, j < 1024 → s.ctxState j ≠ 0) → exec (.ctxAlloc by_ tag) s = .next (s.ctxPost tag 1 0)) ∧
    (s.ctxState k ≠ 1 → exec (.ctxActivate by_ tag) s = .next (s.ctxPost tag 4 k)) ∧
    (s.ctxState k = 1 → (∀ c, s.ctxRefusal k fields = some c → exec (.ctxActivate by_ tag) s = .next (s.ctxPost tag c k)) ∧
      (s.ctxRefusal k fields = none → exec (.ctxActivate by_ tag) s =
        .next ((((s.ctxApply k).ctxPut k 0 1 2).ctxCount 0 1).ctxPost tag 0 k))) ∧
    (s.ctxState k ≠ 2 → exec (.ctxRefresh by_ tag) s = .next (s.ctxPost tag 4 k)) ∧
    (s.ctxState k = 2 → (∀ c, s.ctxRefusal k fields = some c → exec (.ctxRefresh by_ tag) s = .next (s.ctxPost tag c k)) ∧
      (s.ctxRefusal k fields = none → exec (.ctxRefresh by_ tag) s = .next ((s.ctxApply k).ctxPost tag 0 k))) ∧
    (s.ctxState k ≠ 1 → s.ctxState k ≠ 2 → exec (.ctxFree by_ tag) s = .next (s.ctxPost tag 4 k)) ∧
    (s.ctxState k = 1 ∨ s.ctxState k = 2 → ∃ u, exec (.ctxFree by_ tag) s = .next u ∧ u.mlink.freeing = some k ∧
      ((∀ t, t < 8 → (s.stq (8 * k + t)).isEmpty = true ∧ (s.board (8 * k + t)).held = []) →
        u.ctxState k = 3 ∧ u.rbit Reg.MLINK.CTX_RESULT 30 = true)) ∧
    exec (.ctxIllegalOp by_ tag) s = .next (s.ctxPost tag 5 0)) ∧
  (∀ (by_ : Req) (tag : Tag) (q : Fin 8192) (val : Word) (scid : Fin 1024) (s : State),
    let k := scid.val
    let d := 64 * fld val 26 0
    (s.mlink.freeing = some k → (∀ t, t < 8 → (s.stq (8 * k + t)).isEmpty = true) → ∃ u, exec .ctxFreeDone s = .next u ∧
      u.mlink.freeing = none ∧ u.ctxState k = 0 ∧
      u.rd Reg.MLINK.CTX_RESULT = wd (2 ^ 31 + k * 2 ^ 8 + (s.pathTag Reg.MLINK.CTX_RESULT 0).toNat) ∧
      bit (u.tile 5).evtPend 22 = true) ∧
    (s.accepts by_ 5 = true → exec (.ctxAck by_ tag) s = .next (s.pathAck Reg.MLINK.CTX_RESULT 0 tag)) ∧
    (s.accepts by_ 5 = true → d < storeEnd → s.ctxState (q.val / 8) = 2 → (s.stq q.val).length < s.qLimit (q.val / 8) →
      ∃ u, exec (.stqEnq by_ q val) s = .next u ∧
        u.stq q.val = s.stq q.val ++ [{ desc := d, arrived := s.clock }]) ∧
    (s.accepts by_ 5 = true → d < storeEnd → s.ctxState (q.val / 8) ≠ 2 ∨ s.qLimit (q.val / 8) ≤ (s.stq q.val).length →
      exec (.stqEnq by_ q val) s = .next (((s.freeDesc 3 d).sat Reg.MLINK.STQ_DROP 31 0 1).evt 5 23)) ∧
    (s.accepts by_ 5 = true → storeEnd ≤ d →
      exec (.stqEnq by_ q val) s = .next ((s.sat Reg.MLINK.STQ_DROP 31 0 1).evt 5 23)) ∧
    (let t := tget (fun _ => 0) s.mlink.emlUntil k
     tget (fun _ => 0) s.mlink.emlLink k ≠ 0 → t ≠ 0 → t ≤ s.clock → ∃ u, exec (.emlTransitionDelayEnd scid) s = .next u ∧
      tget (fun _ => 0) u.mlink.emlLink k = 0 ∧ tget (fun _ => 0) u.mlink.emlUntil k = 0 ∧
      (∀ l, l < 3 → (u.ctx k (linkOff l) 1).testBit 4 = false)))

/-- Scheduling of stations (R224, R225, R237, R239), MLINK being READY: a service period that has come starts once and marks the awake
link of its members, with its event where it asks for one; it ends once its time has passed, and members that no other period keeps awake
sleep; a downlink selection with room ahead builds for the first candidate alone, or an OFDMA or MU-MIMO PPDU as the shape and the
grouping give; an uplink selection whose period has elapsed, or a service period's, builds a trigger frame for its candidates. -/
def Obligations.SelectionsBuildForCandidates : Prop :=
  ∀ (r : Fin 3) (ac : Fin 4) (n : Fin 32) (s : State), s.life 5 = .ready →
    (∀ t, s.twtUsed n.val = true → s.twtNow n.val = some t → (∀ p, s.twtRun n.val = some p → p.start ≠ t) →
      let w := s.rd (Reg.MLINK.TWT_W0 n.val)
      let l := fld w 26 25
      let s1 := s.modMlink fun x => { x with
        twtOn := tput (fun _ => none) x.twtOn n.val (some { start := t, w0 := w, w3 := s.rd (Reg.MLINK.TWT_W3 n.val) })
        twtSel := if bit w 30 then x.twtSel.filter (· != n.val) ++ [n.val] else x.twtSel }
      let s2 := (List.range 1024).foldl (fun u k =>
        if u.twtMember w k && u.linkFlag k l 2 then u.setLinkFlag k l 3 true else u) s1
      exec (.twtPeriodStart n) s = .next (if bit w 29 then s2.evt 5 25 else s2)) ∧
    (∀ p, s.twtRun n.val = some p →
      let l := fld p.w0 26 25
      s.tsf l < p.start ∨ p.start + fld p.w3 15 0 * 256 ≤ s.tsf l →
      let s1 := s.modMlink fun x => { x with
        twtOn := tput (fun _ => none) x.twtOn n.val none, twtSel := x.twtSel.filter (· != n.val) }
      exec (.twtPeriodEnd n) s = .next ((List.range 1024).foldl (fun u k =>
        if u.twtMember p.w0 k && !u.twtAwake k l then u.setLinkFlag k l 3 false else u) s1)) ∧
    (s.rbit Reg.MLINK.SCHED_CTL 31 = true →
      s.ahead r.val ac.val < clampN 1 4 (s.rf Reg.MLINK.SCHED_CTL 27 24) →
      (∃ k, k < 1024 ∧ s.reachable r.val k = true ∧ s.tidsReady r.val k ac.val ≠ []) →
      let c := s.dlCandidates r.val ac.val
      (c.2 = [] → exec (.dlSelection r ac) s = .next c.1) ∧
      (∀ k ks, c.2 = k :: ks →
        let s1 := c.1.buildSounding r.val ac.val (k :: ks)
        let alone := (s1.capOf r.val k 0 = false ∧ s1.capOf r.val k 1 = false) ∨ s1.rbit Reg.MLINK.SCHED_CTL 30 = false ∨ ks = []
        let sh := s1.muShape r.val (k :: ks)
        let group := if s1.rbit Reg.MLINK.SCHED_CTL 29 then s1.muGroup r.val sh.1 else []
        (alone ∨ sh.1 = [] → exec (.dlSelection r ac) s = .next (s1.buildSu r.val ac.val k)) ∧
        (¬ alone → ∀ j, sh.1 = [j] → exec (.dlSelection r ac) s = .next (s1.buildSu r.val ac.val j)) ∧
        (¬ alone → 2 ≤ sh.1.length → group.length < clampN 2 8 (s1.rf Reg.MLINK.SCHED_CTL 7 4) →
          exec (.dlSelection r ac) s =
            .next (s1.buildMu r.val ac.val 0 sh.2.1 sh.2.2 (s1.assignRus r.val sh.2.1 5 sh.1))) ∧
        (¬ alone → 2 ≤ sh.1.length → clampN 2 8 (s1.rf Reg.MLINK.SCHED_CTL 7 4) ≤ group.length →
          exec (.dlSelection r ac) s = .next (s1.buildMu r.val ac.val 1 sh.2.1 sh.2.2
            (group.map fun j => (j, 3 + sh.2.1, 0, (s1.rateOf r.val j 5).1, s1.muStreams r.val j)))))) ∧
    (s.rbit Reg.MLINK.SCHED_CTL 31 = true → s.rbit Reg.MLINK.SCHED_CTL 28 = true →
      (s.rf Reg.MLINK.UL_CTL 31 16 ≠ 0 →
        tget (fun _ => 0) s.mlink.ulAt r.val + s.rf Reg.MLINK.UL_CTL 31 16 * 500 ≤ s.clock →
        let c := (s.modMlink fun x => { x with ulAt := tput (fun _ => 0) x.ulAt r.val s.clock }).ulCandidates r.val none
        (c.2 = [] → exec (.ulSelection r none) s = .next c.1) ∧
        (∀ k ks, c.2 = k :: ks → exec (.ulSelection r none) s = .next (c.1.buildTrigger r.val k ks))) ∧
      (∀ p, n.val ∈ s.mlink.twtSel → s.twtRun n.val = some p → fld p.w0 26 25 = r.val →
        let c := (s.modMlink fun x => { x with twtSel := x.twtSel.filter (· != n.val) }).ulCandidates r.val (some n)
        (c.2 = [] → exec (.ulSelection r (some n)) s = .next c.1) ∧
        (∀ k ks, c.2 = k :: ks → exec (.ulSelection r (some n)) s = .next (c.1.buildTrigger r.val k ks))))

/-- Ends of multi-user exchanges (R232, R235, R238): feedback of an active station while a sounding is in progress takes it out of
those missing and installs its matrix, waits where its entry is in use by a queued command, and without an entry free for it is
discarded; the next PPDU of a command of several becomes due a SIFS after the last; the end of the window of triggered responses misses
each user that did not answer, counts a window that no PPDU answered, and with no further PPDU ends the command, as a success where one
was answered and else as a failure. Towpath's peers (R274, R276, R284): a load period goes over all sixteen peers of a radio whose Towpath
runs; a reset is noted, and taken at once where no chains are in use; a change of a peer's enable or address empties its slots and forgets
its state, but for the generation from which its tables go on. -/
def Obligations.MultiUserAndTowpathEnds : Prop :=
  (∀ (r : Fin 3) (scid : Fin 1024) (nc : Fin 8) (mat : List (List (Int × Int))) (s : State),
    let n := r.val
    let k := scid.val
    let x := s.radio n
    (∀ t, x.tx = some t → s.isSounding n t.cmd = true → s.ctxState k = 2 →
      let named := (s.muUsers n t.cmd).map (· % 1024)
      let m : SteerMat := { nc := nc.val, ng := t.ng, v := mat }
      let s1 := (s.modMac n fun y => { y with tb := y.tb.map fun w => (w.1, w.2.1.filter (· != k), w.2.2) }).modRadio n fun y =>
        { y with tx := some { t with cmd := { t.cmd with heard := t.cmd.heard ++ [k] } } }
      ((∀ e, s.steerOf n k = some e → s.steerInUse n e = false) →
        (∀ u, s1.steerInstall n k m named = some u → exec (.soundFeedback r scid nc mat) s = .next u) ∧
        (s1.steerInstall n k m named = none → exec (.soundFeedback r scid nc mat) s = .next s)) ∧
      (∀ e, s.steerOf n k = some e → s.steerInUse n e = true → exec (.soundFeedback r scid nc mat) s =
        .next (s1.modMlink fun y => { y with
          steerPend := (y.steerPend.filter fun p => p.radio != n || p.scid != k) ++ [{ radio := n, scid := k, mat := m }] }))) ∧
    (∀ t m, x.tx = some t → t.stage = .ppdu m → t.onAir = false → x.muDue = none → x.mac.await = none → x.mac.tb = none →
      m + 1 < s.ppdusOf n t.cmd →
      let due := x.anchor + s.sifs n * 16 / 25 - 513
      due ≤ s.tick → exec (.muNextPpduDue r) s = .next ((s.modRadio n fun y => { y with muDue := some due }).seqEvent n evTXQ)) ∧
    (∀ t users qual tx m, x.mac.tb = some (t, users, qual) → t ≤ s.clock → (qual = true → x.rx.phase = .idle ∧ x.done = none) →
      x.tx = some tx → tx.stage = .ppdu m →
      let s1 := s.modMac n fun y => { y with tb := none }
      let s2 := if s.soundingNow n then s1 else users.foldl (fun u j => u.tbMiss n j) s1
      let s3 := if qual then s2 else s2.sat Reg.MLINK.TRIG_CNT 15 8 1
      (m + 1 < s3.ppdusOf n tx.cmd → exec (.tbWindowEnd r) s = .next s3) ∧
      (s3.ppdusOf n tx.cmd ≤ m + 1 →
        exec (.tbWindowEnd r) s = .next (s3.seriesEnd n tx (qual || !tx.cmd.heard.isEmpty))))) ∧
  (∀ (by_ : Req) (r : Fin 3) (p : Fin 16) (bits : Word) (s : State),
    let n := r.val
    let cfg := Reg.RADIO.TP_PEER_CFG n p.val
    (s.rf (Reg.RADIO.TP_LOAD_CTL2 n) 31 16 ≠ 0 → s.tpOn n = true → s.life (rTile n) = .ready →
      (s.radio n).loadAt + s.rf (Reg.RADIO.TP_LOAD_CTL2 n) 31 16 * 500000 ≤ s.clock →
      exec (.tpLoadPeriod r) s = .next ((List.range 16).foldl (fun u k => u.tpPeerPeriod n k)
        (s.modRadio n fun x => { x with loadAt := s.clock }))) ∧
    (s.clock < (s.radio n).loadAt + s.rf (Reg.RADIO.TP_LOAD_CTL2 n) 31 16 * 500000 →
      exec (.tpLoadPeriod r) s = .next s) ∧
    (s.accepts by_ (rTile n) = true →
      exec (.tpPeerRst by_ r bits) s =
        .next ((s.modRadio n fun x => { x with tpRst := x.tpRst ||| fld bits 15 0 }).chainsAtEnd n)) ∧
    (s.accepts by_ (rTile n) = true → fld (s.rd cfg) 15 0 = fld bits 15 0 → bit (s.rd cfg) 31 = bit bits 31 →
      exec (.tpPeerCfgWrite by_ r p bits) s = .next (s.wr cfg (bits &&& 0xC007FFFF))) ∧
    (s.accepts by_ (rTile n) = true → fld (s.rd cfg) 15 0 ≠ fld bits 15 0 ∨ bit (s.rd cfg) 31 ≠ bit bits 31 →
      exec (.tpPeerCfgWrite by_ r p bits) s =
        .next (((([0, 1, 2, 3].foldl (fun u i => u.tpEmpty n (4 * p.val + i)) (s.wr cfg (bits &&& 0xC007FFFF))).wr
          (Reg.RADIO.TP_PEER_STAT n p.val) 0).wr (Reg.RADIO.TP_PEER_SEQ n p.val) 0).setTp n p.val
            { gen := (s.tpPeer n p.val).gen })))

/-- Commands on the Milestone count (R415): SET and STEP move the count to where they say, count a step and keep each radio's TSF
by its offset; ADJ, clamped, takes effect unless the servo runs, which refuses it; a reserved op is ILLEGAL; each posts its result with
the event; a busy path drops; an ack retires a result by its tag. -/
def Obligations.MilestoneCommandsMoveTheCount : Prop :=
  ∀ (by_ : Req) (tag : Tag) (s : State), s.accepts by_ 1 = true →
    let res := Reg.TIME.MS_RESULT
    let posted := fun (u : State) (code : Nat) => u.rd res = wd (2 ^ 31 + code * 2 ^ 27 + tag.toNat) ∧
      bit (u.tile 1).evtPend 16 = true ∧ (∀ a, u.rb a = s.rb a)
    (s.pathFree res = true →
      (∃ u, exec (.msSet by_ tag) s = .next u ∧ posted u 0 ∧ u.ms.ns = s.msArg ∧ u.ms.frac = 0 ∧
        u.time.steps = (s.time.steps + 1) % 256 ∧ bit (u.tile 1).evtPend 17 = true ∧
        ∀ r, r < 3 → u.tsfOfs r = ofInt 64 ((s.tsfOfs r : Int) + ((s.msArg : Int) - s.ms.ns))) ∧
      (s.ms.frac < 2 ^ 48 → ∃ u, exec (.msStep by_ tag) s = .next u ∧ posted u 0 ∧
        u.ms.ns = ofInt 64 ((s.ms.ns : Int) + sval 64 s.msArg) ∧ u.ms.frac = s.ms.frac ∧
        u.time.steps = (s.time.steps + 1) % 256) ∧
      (s.rbit Reg.TIME.SERVO_CTL 31 = false → ∃ u, exec (.msAdj by_ tag) s = .next u ∧ posted u 0 ∧
        u.time.adj = clampAdj (s.rd Reg.TIME.MS_ARG_LO).toInt ∧ u.ms = s.ms) ∧
      (s.rbit Reg.TIME.SERVO_CTL 31 = true → ∃ u, exec (.msAdj by_ tag) s = .next u ∧ posted u 1 ∧ u.time = s.time ∧ u.ms = s.ms) ∧
      (∃ u, exec (.msIllegalOp by_ tag) s = .next u ∧ posted u 2 ∧ u.time = s.time ∧ u.ms = s.ms)) ∧
    (s.pathFree res = false → exec (.msSet by_ tag) s = .next (s.reqDrop 1) ∧ exec (.msStep by_ tag) s = .next (s.reqDrop 1) ∧
      exec (.msAdj by_ tag) s = .next (s.reqDrop 1) ∧ exec (.msIllegalOp by_ tag) s = .next (s.reqDrop 1)) ∧
    exec (.msAck by_ tag) s = .next (s.pathAck res 0 tag)

/-- Stamps and the servo (R414, R418, R424, R425, R429, R430): a capture holds the count, its seconds and its steps until its tag
retires it, and drops another; a firmware sample is applied where the servo accepts it; clearing the servo's EN frees it; holdover begins
at its time-out; the TSF offset takes effect with its high word; PPS_IN counts each edge, holds the first one's stamp until it is
retired and offers it to the servo; PPS_OUT rises as the count reaches its offset without a step and falls after its width; FTM is armed
where it is idle and retired, and else the arming drops. -/
def Obligations.StampsAndServoFollowTheCount : Prop :=
  ∀ (by_ : Req) (k : Fin 4) (r : Fin 3) (tag4 : BitVec 4) (tag : Tag) (val : Word) (s : State),
    let w1 := Reg.TIME.SNAP_W1 k.val
    let ftm := Reg.TIME.FTM_W0 r.val
    (s.accepts by_ 1 = true →
      (s.rbit w1 31 = false → ∃ u, exec (.snapCapture by_ k tag4) s = .next u ∧
        u.rd w1 = wd (2 ^ 31 + tag4.toNat * 2 ^ 24 + s.time.steps * 2 ^ 16 + s.ms.frac / 2 ^ 32) ∧
        u.rd (Reg.TIME.SNAP_W2 k.val) = wd s.ms.ns ∧ u.rd (Reg.TIME.SNAP_W3 k.val) = wd (s.ms.ns / 2 ^ 32) ∧
        u.rd (Reg.TIME.SNAP_W4 k.val) = wd (s.ms.ns / 1000000000) ∧
        u.rd (Reg.TIME.SNAP_W5 k.val) = wd (s.ms.ns / 1000000000 / 2 ^ 32 % 65536) ∧
        u.rd (Reg.TIME.SNAP_W6 k.val) = wd (s.ms.ns % 1000000000) ∧ (∀ a, u.rb a = s.rb a) ∧ (∀ t, u.tile t = s.tile t)) ∧
      (s.rbit w1 31 = true → exec (.snapCapture by_ k tag4) s = .next (s.reqDrop 1)) ∧
      (s.rbit w1 31 = true → s.rf w1 27 24 = tag4.toNat → exec (.snapAck by_ k tag4) s = .next (s.wr w1 0)) ∧
      exec (.servoInWrite by_ val) s = .next (if s.sampleOk 0 then s.applySample val.toInt else s) ∧
      (let s1 := s.wr Reg.TIME.SERVO_CTL (val &&& 0xEFFFFFFF)
       exec (.servoCtlWrite by_ val) s = .next (if bit val 31 then s1 else s1.setServo 0)) ∧
      exec (.ppsInAck by_ tag) s = .next (s.pathAck Reg.TIME.PPS_IN_STAT 16 tag) ∧
      (∀ lo, lo < 2 ^ 32 → (tget (fun _ => none) s.time.tsfHeld r.val).getD (s.rd (Reg.TIME.TSF_OFS_LO r.val)).toNat = lo →
        ∃ u, exec (.tsfOfsHiWrite by_ r val) s = .next u ∧ u.tsfOfs r.val = lo + 2 ^ 32 * val.toNat ∧
          tget (fun _ => none) u.time.tsfHeld r.val = none) ∧
      (s.rd ftm = 0 → s.rbit (Reg.TIME.FTM_W1 r.val) 31 = false → fld val 9 8 ≠ 0 → exec (.ftmArm by_ r val) s =
        .next ((s.wr ftm (val &&& 0x3FF)).modRadio r.val fun x => { x with ftmRx := false, ftmTx := false })) ∧
      (s.rd ftm ≠ 0 ∨ s.rbit (Reg.TIME.FTM_W1 r.val) 31 = true → exec (.ftmArm by_ r val) s = .next (s.reqDrop 1)) ∧
      exec (.ftmAck by_ r tag) s = .next (s.pathAck (Reg.TIME.FTM_W1 r.val) 16 tag)) ∧
    (s.servo = 2 → s.life 1 = .ready → max 1 (s.rf Reg.TIME.SERVO_HOLD 15 0) * 500000 ≤ s.time.wait →
      exec .holdoverTimeout s = .next ((s.setServo 3).setAdj s.time.integ)) ∧
    (s.live 1 = true → s.rbit Reg.TIME.PPS_CTL 30 = true →
      (s.rbit Reg.TIME.PPS_IN_STAT 31 = true →
        exec .ppsInEdge s = .next { s with time := { s.time with edges := (s.time.edges + 1) % 256 } }) ∧
      (s.rbit Reg.TIME.PPS_IN_STAT 31 = false →
        let n := (s.time.edges + 1) % 256
        let s1 : State := { s with time := { s.time with edges := n } }
        let s2 := (((s1.wr Reg.TIME.PPS_IN_LO (wd s.ms.ns)).wr Reg.TIME.PPS_IN_HI (wd (s.ms.ns / 2 ^ 32))).wr
          Reg.TIME.PPS_IN_STAT (wd (2 ^ 31 + n * 2 ^ 16 + s.ms.frac / 2 ^ 32))).evt 1 19
        let d : Int := (s.ms.ns : Int) - (s.rd Reg.TIME.PPS_IN_DELAY).toInt
        let theta : Int := 256 * ((d + 500000000) % 1000000000 - 500000000)
        exec .ppsInEdge s = .next (if s2.sampleOk 2 then s2.applySample theta else s2))) ∧
    (s.ppsOn = true → s.time.stepAt ≠ some s.clock →
      ((s.ms.total : Int) - (s.rd Reg.TIME.PPS_OUT_OFS).toInt * 2 ^ 48) % (1000000000 * 2 ^ 48) < (s.time.inc : Int) →
      exec .ppsOutRise s = .next { s with time := { s.time with pps := some s.time.run } }) ∧
    (∀ t, s.time.pps = some t → t + max 1 (s.rf Reg.TIME.PPS_CTL 15 0) * 1000 * 2 ^ 48 ≤ s.time.run →
      exec .ppsOutFall s = .next { s with time := { s.time with pps := none } })

/-- The forwarding table (R293, R298, R305): a command on a free path with a node and, where it gives them, next hops that exist posts
its result and index; INSTALL takes the lowest free entry, REMOVE clears, SET changes and LOOKUP names the entry of the node; a node that
is there cannot be installed, a full table is an event, one that is not there is NOT_FOUND and a bad argument INVALID, the index then a
free value (log entry 5); a busy path drops, and an ack retires a result. FAB_RING_RD stores its field, and a descriptor enqueued while
the forwarder is in service joins the frames that wait. -/
def Obligations.ForwardingTableCommands : Prop :=
  ∀ (by_ : Req) (tag : Tag) (val : Word) (s : State), s.accepts by_ 9 = true →
    let res := Reg.CLASS.FWD_RESULT
    let node := s.rf Reg.CLASS.FWD_ARG0 15 0
    let a := s.rd Reg.CLASS.FWD_ARG1
    let hops := s.nhOk (fld a 5 0) && (!bit a 14 || s.nhOk (fld a 13 8))
    let named := node ≠ 0 ∧ node ≠ 0xFFFF
    let refused := fun (code : Nat) => (s.fwdPost tag code (s.free 10)).took
    (s.pathFree res = true → named →
      (∀ d, s.fwdFind node = some d →
        (hops = true → exec (.fwdSet by_ tag) s = .next ((s.wr (Reg.CLASS.FWD_W1 d) a).fwdPost tag 0 d)) ∧
        (hops = true → exec (.fwdInstall by_ tag) s = .next (refused 2)) ∧
        exec (.fwdLookup by_ tag) s = .next (s.fwdPost tag 0 d) ∧
        exec (.fwdRemove by_ tag) s = .next ((((s.wr (Reg.CLASS.FWD_W0 d) 0).wr (Reg.CLASS.FWD_W1 d) 0).wf Reg.CLASS.FWD_COUNT 10 0
          (s.rf Reg.CLASS.FWD_COUNT 10 0 - 1)).fwdPost tag 0 d)) ∧
      (s.fwdFind node = none →
        exec (.fwdLookup by_ tag) s = .next (refused 3) ∧
        exec (.fwdRemove by_ tag) s = .next (refused 3) ∧
        (hops = true → exec (.fwdSet by_ tag) s = .next (refused 3)) ∧
        (hops = true → (List.range 1024).find? (fun d => !s.rbit (Reg.CLASS.FWD_W0 d) 31) = none →
          exec (.fwdInstall by_ tag) s = .next ((s.evt 9 28).fwdPost tag 1 0)) ∧
        (hops = true → ∀ d, (List.range 1024).find? (fun d => !s.rbit (Reg.CLASS.FWD_W0 d) 31) = some d →
          exec (.fwdInstall by_ tag) s = .next ((((s.wr (Reg.CLASS.FWD_W0 d) (wd (2 ^ 31 + node))).wr (Reg.CLASS.FWD_W1 d) a).wf
            Reg.CLASS.FWD_COUNT 10 0 (s.rf Reg.CLASS.FWD_COUNT 10 0 + 1)).fwdPost tag 0 d)))) ∧
    (s.pathFree res = true → ¬ named →
      exec (.fwdLookup by_ tag) s = .next (refused 4) ∧ exec (.fwdRemove by_ tag) s = .next (refused 4)) ∧
    (s.pathFree res = true → ¬ named ∨ hops = false →
      exec (.fwdInstall by_ tag) s = .next (refused 4) ∧ exec (.fwdSet by_ tag) s = .next (refused 4)) ∧
    (s.pathFree res = false → exec (.fwdInstall by_ tag) s = .next (s.reqDrop 9) ∧
      exec (.fwdRemove by_ tag) s = .next (s.reqDrop 9) ∧ exec (.fwdSet by_ tag) s = .next (s.reqDrop 9) ∧
      exec (.fwdLookup by_ tag) s = .next (s.reqDrop 9)) ∧
    exec (.fwdAck by_ tag) s = .next (s.pathAck res 0 tag) ∧
    exec (.fabRingRdWrite by_ val) s = .next (s.wr Reg.CLASS.FAB_RING_RD (val &&& 0xFFF)) ∧
    (s.fabOn = true → exec (.fabEnq by_ val) s =
      .next (s.modFab fun x => { x with inQ := x.inQ ++ [⟨.enq, 64 * fld val 26 0⟩] }))

/-- The fabric's events (R292, R293, R296, R297, R300, R303, R304), CLASS being READY: a frame that waits is taken in and forwarding
goes on; a status frees the frames that were acknowledged and sends the others again; beacons go out on the radios and lanes named where
their interval has one due that was not sent; a monitored next hop that was not heard in its time counts a miss; a radio dozes and wakes
as it must be awake or not; an epoch begins by the count, with the armed schedule where its epoch has come, and windows begin and
end by it. -/
def Obligations.FabricEventsForward : Prop :=
  ∀ (r : Fin 3) (nh : Fin 64) (s : State), s.life 9 = .ready →
    let n := r.val
    let w3 := Reg.CLASS.DOZE_W3 n
    (∀ f l, s.fabric.inQ = f :: l →
      exec .fabFrameArrive s = .next (((s.modFab fun x => { x with inQ := l }).fabTakeIn f).fabKick)) ∧
    (s.fabric.inQ = [] → exec .fabFrameArrive s = .next s.fabKick) ∧
    (∀ m frames l, s.fabric.done = (m, frames, true) :: l →
      let s1 := s.modFab fun x => { x with done := l, unfin := tput (fun _ => 0) x.unfin m (tget (fun _ => 0) x.unfin m - 1) }
      exec .fabTxStatus s = .next ((frames.foldl (fun u f => u.freeDesc 6 f.1) s1).fabKick)) ∧
    (∀ m frames l, s.fabric.done = (m, frames, false) :: l →
      let s1 := s.modFab fun x => { x with done := l, unfin := tput (fun _ => 0) x.unfin m (tget (fun _ => 0) x.unfin m - 1) }
      exec .fabTxStatus s = .next ((frames.reverse.foldl (fun u f => u.fabResend f) s1).fabKick)) ∧
    (s.fabOn = true → s.rbit Reg.CLASS.FAB_BCN_DESC 31 = true →
      let c := s.rd Reg.CLASS.FAB_BCN
      let i := fld c 31 16
      let ph := fld c 15 8 % max 1 i
      let ms := s.ns / 1000000
      let due := ms - (ms + i - ph) % max 1 i
      let lo := match s.fabric.passed with
        | some p => p + 1
        | none => ms
      let s1 := [0, 1, 2].foldl (fun u k => u.rdvBeacon k) s
      let sent := [0, 1, 2, 3].foldl (fun u l => if bit c (4 + l) then u.beacon (4 + l) else u)
        ([0, 1, 2].foldl (fun u k => if bit c k && !u.dozes k then u.beacon k else u) s1)
      let goes := i ≠ 0 ∧ ph ≤ ms ∧ lo ≤ due ∧ s.fabric.bcnMs ≤ due
      let ends := fun (u : State) => (u.modFab fun x => { x with bcnMs := ms + 1, passed := none }).fabKick
      (goes → exec .fabBeaconTimer s = .next (ends sent)) ∧ (¬ goes → exec .fabBeaconTimer s = .next (ends s1))) ∧
    (∀ h, tget (fun _ => none) s.fabric.heardAt nh.val = some h → s.nhMon nh.val = true →
      s.rbit (Reg.CLASS.NH_W3 nh.val) 31 = true → s.rf (Reg.CLASS.NH_W3 nh.val) 29 28 ≠ 3 →
      (s.nhWire nh.val = true ∨ s.dozes (s.nhRadio nh.val) = false →
        let k := s.rf Reg.CLASS.FAB_BCN 31 16
        k ≠ 0 → h + (2 * s.rf (Reg.CLASS.NH_W3 nh.val) 29 28 + 3) * k * 500000 ≤ s.ns →
        exec (.fabBeaconMiss nh) s = .next ((s.nhMiss nh.val false).fabKick)) ∧
      (s.nhWire nh.val = false → s.dozes (s.nhRadio nh.val) = true →
        let d := s.rdv (s.nhRadio nh.val)
        let past := d.2.1 + d.2.2.1 + d.2.2.2
        let k := (s.ns - past) / max 1 d.1
        past ≤ s.ns → tget (fun _ => 0) s.fabric.judged nh.val ≤ k → h + d.2.2.2 < k * d.1 + d.2.1 →
        exec (.fabBeaconMiss nh) s = .next
          (((s.modFab fun x => { x with judged := tput (fun _ => 0) x.judged nh.val (k + 1) }).nhMiss nh.val true).fabKick))) ∧
    (s.dozing n = true → s.mustWake n = true →
      let s1 := s.wf w3 31 31 0
      exec (.dozeWake r) s = .next ((s1.setTxq n 4 (s1.txq n 4)).rdvBeacon n)) ∧
    (s.dozing n = false → s.mustWake n = false → (s.radio n).tx = none → (s.radio n).resp.phase = .none →
      (s.radio n).selected = none → (s.radio n).mac.await = none → exec (.dozeSleep r) s = .next ((s.wf w3 31 31 1).rxenChanged n)) ∧
    (s.fabric.epoch ≠ s.ns / 1024000 + 1 →
      let e := s.ns / 1024000
      let s1 := (s.wr Reg.CLASS.FAB_EPOCH (wd e)).modFab fun x => { x with epoch := e + 1, win := none }
      let ahead := (s.rd Reg.CLASS.FAB_SW_EPOCH - wd e).toNat
      let due := s.fabric.armed = true ∧ (ahead = 0 ∨ 2 ^ 31 ≤ ahead)
      (¬ due → exec .fabEpochStart s = .next s1.fabKick) ∧
      (due → exec .fabEpochStart s = .next (((((List.range 16).foldl (fun (u : State) i =>
        u.wr (Reg.CLASS.SLOT_CUR i) (s.rd (Reg.CLASS.SLOT_NEXT i))) s1).modFab fun x => { x with armed := false }).evt 9 29).fabKick))) ∧
    (∀ w, s.windowNow = some w → s.fabric.win ≠ some w →
      exec .fabWindowStart s = .next ((s.modFab fun x => { x with win := some w }).fabKick)) ∧
    (∀ w, s.fabric.win = some w → s.windowNow ≠ some w →
      exec .fabWindowEnd s = .next ((s.modFab fun x => { x with win := s.windowNow }).fabKick))

/-- Table commands of the classifier (R362, R364, R367): on a free slot of a live tile each joins the queue under its op with its
arguments and the slot shows BUSY; a busy slot drops it and counts; the oldest completes as its op does, unless a table it waits
for is being cleared; a result retires by its tag; the end of a clear frees its table. What the table commands do (R361, R364,
R367): a route added below the limit is found under its prefix and length with its action and counted once, one deleted is gone, a
prefix with bits beyond its length is INVALID, a route that is not stored NOT_FOUND, and a route table that is off INVALID; a lookup of an
exact-match key whose image and buckets read well answers its place, and NOT_FOUND where it has none. -/
def Obligations.ClassifierTableCommands : Prop :=
  (∀ (by_ : Req) (k : Fin 16) (table : BitVec 4) (len : BitVec 8) (tag : BitVec 4) (op : Fin 8) (t : Fin 19) (s : State),
    let res := Reg.CLASS.TCMD_RES k.val
    let args := (List.range 5).map fun j => (s.rd (Reg.CLASS.TCMD_ARG k.val j)).toNat
    let queued := fun (op table len : Nat) => (s.wr res (wd (2 ^ 30 + tag.toNat))).modCls fun x => { x with
      cmds := x.cmds ++ [{ slot := k.val, op := op, table := table, len := len, tag := tag.toNat, args := args }] }
    (s.accepts by_ 9 = true → s.live 9 = true → s.pathFree res = true →
      exec (.emInsert by_ k table tag) s = .next (queued 0 table.toNat 0) ∧
      exec (.emDelete by_ k table tag) s = .next (queued 1 table.toNat 0) ∧
      exec (.emSet by_ k table tag) s = .next (queued 2 table.toNat 0) ∧
      exec (.emLookup by_ k table tag) s = .next (queued 3 table.toNat 0) ∧
      exec (.routeAdd by_ k table len tag) s = .next (queued 4 table.toNat len.toNat) ∧
      exec (.routeDel by_ k table len tag) s = .next (queued 5 table.toNat len.toNat) ∧
      exec (.ctCreate by_ k tag) s = .next (queued 6 0 0) ∧ exec (.ctDelete by_ k tag) s = .next (queued 7 0 0) ∧
      exec (.tcmdIllegalOp by_ k op tag) s = .next (queued (8 + op.val) 0 0)) ∧
    (s.accepts by_ 9 = true → s.pathFree res = false → ∀ c, c ∈ [Instr.emInsert by_ k table tag, .emDelete by_ k table tag,
        .emSet by_ k table tag, .emLookup by_ k table tag, .routeAdd by_ k table len tag, .routeDel by_ k table len tag,
        .ctCreate by_ k tag, .ctDelete by_ k tag, .tcmdIllegalOp by_ k op tag] →
      exec c s = .next (s.sat Reg.CLASS.CLS_CNT3 23 16 1)) ∧
    (∀ c rest full, s.cls.cmds = c :: rest → s.active 9 = true → (c.waitsFor.any fun t => s.cls.clearing.contains t) = false →
      let r := (s.modCls fun x => { x with cmds := rest }).tcmdDo c full
      exec (.tableCommandDone full) s = .next ((r.1.wr (Reg.CLASS.TCMD_RES c.slot)
        (wd (2 ^ 31 + r.2.1 * 2 ^ 27 + r.2.2 % 2 ^ 20 * 16 + c.tag))).evt 9 16)) ∧
    (s.accepts by_ 9 = true → s.rbit res 31 = true → s.rf res 3 0 = tag.toNat →
      exec (.tcmdAck by_ k tag) s = .next (s.wr res 0)) ∧
    (∃ u, exec (.tableClearDone t) s = .next u ∧ u.cls.clearing.contains t.val = false ∧ (∀ a, u.rd a = s.rd a) ∧
      (∀ a, u.rb a = s.rb a))) ∧
  (∀ (c : ClsCmd) (full v6 : Bool) (s : State), c.table = (if v6 then 1 else 0) → s.rbit (lpmReg v6) 0 = true →
    let a := fun j => c.args.getD j 0
    let pfx := if v6 then a 1 * 2 ^ 96 + a 2 * 2 ^ 64 + a 3 * 2 ^ 32 + a 4 else a 1
    let key := pfx * 256 + c.len
    let w := if v6 then 128 else 32
    let route := tget (fun _ => none) (s.routes v6) key
    let n := s.rf (lpmCountReg v6) 20 0
    (c.op = 4 → c.len ≤ w → prefixOf w c.len pfx = pfx → n < (if v6 then 262144 else 1048576) →
      let r := s.tcmdDo c full
      r.2.1 = tDONE ∧ tget (fun _ => none) (r.1.routes v6) key = some (a 0) ∧
      r.1.rf (lpmCountReg v6) 20 0 = (if route = none then n + 1 else n) ∧
      (∀ j, j ≠ key → tget (fun _ => none) (r.1.routes v6) j = tget (fun _ => none) (s.routes v6) j) ∧
      r.1.routes (!v6) = s.routes (!v6) ∧ (∀ b, r.1.rb b = s.rb b)) ∧
    (c.op = 4 → c.len ≤ w → prefixOf w c.len pfx ≠ pfx → s.tcmdDo c full = (s, tINVALID, 0)) ∧
    (c.op = 5 → c.len ≤ w → route ≠ none →
      let r := s.tcmdDo c full
      r.2.1 = tDONE ∧ tget (fun _ => none) (r.1.routes v6) key = none ∧ r.1.rf (lpmCountReg v6) 20 0 = n - 1) ∧
    (c.op = 5 → route = none → s.tcmdDo c full = (s, tNOT_FOUND, 0))) ∧
  (∀ (c : ClsCmd) (full : Bool) (s : State),
    (∀ v6 : Bool, c.op = 4 ∨ c.op = 5 → c.table = (if v6 then 1 else 0) → s.rbit (lpmReg v6) 0 = false →
      s.tcmdDo c full = (s, tINVALID, 0)) ∧
    (let key := s.rbytes c.image (s.emKeyw c.table)
     let r := s.storeRead 6 c.image (s.emKeyw c.table)
     let e := r.1.emRead c.table key
     c.op = 3 → s.emOn c.table = true → c.image + s.emKeyw c.table ≤ storeEnd → r.2 = true → e.2 = none →
      (∀ i, s.emFind c.table key = some i → s.tcmdDo c full = (e.1, tDONE, i)) ∧
      (s.emFind c.table key = none → s.tcmdDo c full = (e.1, tNOT_FOUND, 0))))

/-- The classifier's frames (R347, R349, R357, R362): an injected frame waits for ingress 10 and is taken where it has room; the first
frame not yet read is parsed, or dropped and counted where the store does not give its data; each of the eight stages looks the frame
up in turn, and after the last, or a STOP, it is disposed of; a write of the word that enables an exact-match table in use changes EN
alone, one of a table out of use stores KEYW and, with EN, enables it; the same word of the connection or a route table in use changes its
low bits alone. -/
def Obligations.ClassifierStagesRunInOrder : Prop :=
  ∀ (by_ : Req) (k : Fin 11) (m : Fin 64) (t : Fin 19) (val : Word) (s : State),
    (s.accepts by_ 9 = true → exec (.clsInj by_ val) s =
      .next (({ s with clsIn := s.clsIn ++ [{ ingress := 10, desc := fld val 26 0 * 64 }] } : State).clsAccept 10)) ∧
    (∀ n f, (s.clsQueue k.val).findIdx? (fun f => f.m = [] && f.out = .open_) = some n → (s.clsQueue k.val)[n]? = some f →
      s.live 9 = true →
      ((s.clsRead f.src.desc).2 = true →
        exec (.clsParse k) s = .next ((s.clsRead f.src.desc).1.clsParsed k.val n f)) ∧
      ((s.clsRead f.src.desc).2 = false →
        let s1 := (s.clsRead f.src.desc).1
        let s2 := if s.storeUp then s1.recordErr 9 0x80 0xFF 0 f.src.desc false else s1
        exec (.clsParse k) s = .next ((s2.sat Reg.CLASS.CLS_CNT3 31 24 1).clsDrop k.val n f))) ∧
    (∀ f, (s.clsQueue k.val)[m.val]? = some f → s.live 9 = true → f.m ≠ [] → f.out = .open_ → f.stage < 8 →
      let r := s.clsStage f.stage f
      let g := { r.2.1 with stage := f.stage + 1 }
      exec (.clsStageLookup k m) s =
        .next (if r.2.2 = true ∨ f.stage = 7 then r.1.clsDispose k.val m.val g else r.1.setClsFrame k.val m.val g)) ∧
    (s.accepts by_ 9 = true → t.val < 16 → s.rbit (tableReg t.val) 31 = true → ∃ u, exec (.tableEnable by_ t val) s = .next u ∧
      u.rbit (tableReg t.val) 31 = bit val 31 ∧ (∀ n, n < 31 → u.rbit (tableReg t.val) n = s.rbit (tableReg t.val) n) ∧
      (∀ a, a ≠ tableReg t.val → u.rd a = s.rd a)) ∧
    (s.accepts by_ 9 = true → t.val < 16 → s.rbit (tableReg t.val) 31 = false →
      let s1 := s.wr (tableReg t.val) (val &&& 0x30)
      (bit val 31 = false → exec (.tableEnable by_ t val) s = .next s1) ∧
      (bit val 31 = true → exec (.tableEnable by_ t val) s = .next (s1.tableOn t.val (tableReg t.val) 31 (s1.emBase t.val)
        ((s1.emKeyw t.val + 16) * (4 * 2 ^ s1.emLog t.val)) (Reg.CLASS.EM_TBL_W3 t.val)))) ∧
    (s.accepts by_ 9 = true → 16 ≤ t.val → s.rbit (tableReg t.val) 0 = true → exec (.tableEnable by_ t val) s =
      .next (s.wr (tableReg t.val)
        ((s.rd (tableReg t.val) &&& 0xFFFFF000) ||| (val &&& ((if t.val = 16 then 2 else 0) ||| 1)))))

/-- Work items of SCHED (R378, R381, R382, R383, R384, R387): an item that arrives where there is room is accepted and leaves its sender; one
of CLASS that meets a full scheduler counts and is an event; a delay that ends makes its item READY; dispatch serves the first list
with an engine free; a GETW takes the head of its engine's queue; a DONE completes the HELD item it names; the oldest ticket that can be
released is; a cancel takes back an item that is PENDING or READY and answers it, and is refused for any other. Tickets keep
their order (R383, R385): the item that is released next is the first of its domain's tickets, it is COMPLETE, and none of its
thread's stores posted before the DONE is still outstanding. -/
def Obligations.SchedulerMovesItems : Prop :=
  (∀ (slot : Fin 4096) (g : Fin 32) (s : State), s.live 10 = true →
    (∀ (k : Fin 11) f rest words, s.live 9 = true → s.clsQueue k.val = f :: rest → f.out = .item words →
      (s.room words = .ok → exec (.schedItemArrive (.cls k)) s =
        .next (((s.accept words).1.setClsQueue k.val rest).clsSettle k.val)) ∧
      (s.room words = .full → exec (.schedItemArrive (.cls k)) s = .next s.schedFull)) ∧
    (∀ words rest, s.cipher.items = words :: rest → s.room words = .ok → exec (.schedItemArrive .cipher) s =
      .next { (s.accept words).1 with cipher := { (s.accept words).1.cipher with items := rest } }) ∧
    (∀ n key words, s.sched.enqs[n]? = some (key, words) → s.room words = .ok →
      let r := s.accept words
      exec (.schedItemArrive (.enq n)) s =
        .next ((r.1.modSched fun u => { u with enqs := u.enqs.eraseIdx n }).enqAnswer key true r.2)) ∧
    (∀ x due, s.item slot.val = some x → x.st = .pending due → due ≤ s.clock →
      exec (.delayExpire slot) s = .next ((s.makeReady slot.val x).trace slot.val x 1 0xFF 0 false 0)) ∧
    (∀ l, ([3, 2, 1, 0].flatMap s.listOrder).find? (fun l => !(s.listEngines l).isEmpty) = some l →
      exec .schedDispatch s = .next (s.dispatch l)) ∧
    (∀ k rest since key ea x, s.dispatchQ g.val = k :: rest → earliest (s.getwWaits g.val) = some (since, key, ea) →
      s.item k = some x → k < 1024 → s.live (engTile (g.val / 8)) = true → s.engSubst g.val = false →
      ∃ u, exec (.getwTake g) s = .next u ∧ u.item k = some { x with st := .held, eng := g.val } ∧
        (u.thread key).run = .running ∧ (u.thread key).a = wd (x.handle k) ∧ (u.thread key).item = some (x.handle k) ∧
        u.dispatchQ g.val = rest) ∧
    (∀ m rest k x, s.sched.dones = m :: rest → s.known m.handle = some k → s.item k = some x → x.st = .held →
      exec .schedDoneArrive s =
        .next ((s.modSched fun u => { u with dones := rest }).complete k x m.disp m.key m.waits)) ∧
    (∀ d k x disp, s.nextRelease = some (d, k, x, disp) →
      exec .ticketRelease s = .next ((s.modSched fun u => { u with relRr := d + 1 }).release k x disp)) ∧
    (∀ key h rest, s.sched.cancels = (key, h) :: rest →
      let s1 := s.modSched fun u => { u with cancels := rest }
      (s.known h = none → exec .schedCancelArrive s = .next (s1.cancelAnswer key false)) ∧
      (∀ k x, s.known h = some k → s.item k = some x →
        (x.st = .ready ∨ (∃ due, x.st = .pending due) → exec .schedCancelArrive s = .next
          ((((((s1.unqueue k x).freeItem k x).trace k x 6 0xFF 0 (!x.unord) 0).itemDrop x).sat Reg.SCHED.SCHED_CNT2 31 16 1).cancelAnswer
            key true)) ∧
        (x.st ≠ .ready → (∀ due, x.st ≠ .pending due) → exec .schedCancelArrive s = .next (s1.cancelAnswer key false))))) ∧
  (∀ (d k : Nat) (x : WorkItem) (disp : Word) (s : State), s.nextRelease = some (d, k, x, disp) →
    d < 256 ∧ (∃ l, tget (fun _ => []) s.sched.doms d = k :: l) ∧ s.item k = some x ∧ ∃ key, x.st = .complete disp key 0)

/-- Engine clusters (R373, R375, R394): ENG_RUN starts stopped threads from MGMT only; a write of ENG_CLK stores its field and lets the
clock follow its target, and a change of clock ends at the target with the event; a substitution is refused by its preconditions in
order or waits, and then either its engine is idle and it maps the spare in, or its wait has run out and it posts TIMEOUT; an ack retires
a result. -/
def Obligations.EngineClustersChange : Prop :=
  ∀ (by_ : Req) (c : Fin 4) (e : Fin 8) (tag : Tag) (val : Word) (s : State),
    let t := engTile c.val
    let res := Reg.ENG.SUBST_RESULT c.val
    let clk := Reg.ENG.ENG_CLK c.val
    (s.accepts by_ t = true →
      (reqMgmt by_ = true → ∃ u, exec (.engRunWrite by_ c val) s = .next u ∧ ∀ b, b < 32 → bit val b = true →
        (s.thread (threadKey t (b / 4) (b % 4))).run = .stopped → (u.thread (threadKey t (b / 4) (b % 4))).run = .running) ∧
      (reqMgmt by_ = false → exec (.engRunWrite by_ c val) s = .next s) ∧
      exec (.engClkWrite by_ c val) s = .next ((s.wf clk 11 0 (fld val 11 0)).engClkCheck c.val) ∧
      (s.pathFree res = true → s.life t ≠ .ready → exec (.substCmd by_ c e tag) s = .next (s.substPost c.val tag 4 e.val)) ∧
      (s.pathFree res = true → s.life t = .ready → s.hasToken t = false →
        exec (.substCmd by_ c e tag) s = .next (s.substPost c.val tag 2 e.val)) ∧
      (s.pathFree res = true → s.life t = .ready → s.hasToken t = true → s.spareUsed c.val = true →
        exec (.substCmd by_ c e tag) s = .next (s.substPost c.val tag 1 e.val)) ∧
      (s.pathFree res = true → s.life t = .ready → s.hasToken t = true → s.spareUsed c.val = false →
        ∃ u, exec (.substCmd by_ c e tag) s = .next u ∧ u.substOf c.val = some { eng := e.val, since := s.clock } ∧
          u.rbit res 30 = true) ∧
      (s.rbit res 31 = true → s.pathTag res 0 = tag → exec (.substAck by_ c tag) s = .next (s.wr res 0))) ∧
    (s.rbit clk 31 = true → exec (.engClkChangeDone c) s =
      .next ((((s.wf clk 27 16 (s.engTarget c.val)).wf clk 31 31 0).evt t 18).engClkCheck c.val)) ∧
    (∀ x, s.substOf c.val = some x → s.engIdle (8 * c.val + x.eng) = true → ∃ v : State, exec (.substDone c) s =
      .next (((v.substPost c.val (s.pathTag res 0) 0 x.eng).spareEnd t true).axEngEnd t (s.spareEng c.val) 0) ∧
      v.substOf c.val = none ∧
      v.rd (Reg.ENG.ENG_MAP c.val) = putFld (s.rd (Reg.ENG.ENG_MAP c.val)) (4 * x.eng + 3) (4 * x.eng) (s.spareEng c.val)) ∧
    (∀ x, s.substOf c.val = some x → s.engIdle (8 * c.val + x.eng) = false →
      x.since + 500 * max 1 (s.rf (Reg.ENG.ENG_CTL c.val) 31 16) ≤ s.clock → ∃ v : State, exec (.substTimeout c) s =
      .next (((v.substPost c.val (s.pathTag res 0) 3 x.eng).spareEnd t false).axEngEnd t (s.spareEng c.val) 3) ∧
      v.substOf c.val = none ∧ (∀ a, v.rd a = s.rd a))

/-- CIPHER (R403, R404, R406, R407): a session is held as its words say, or INVALID, until it is deleted, and one that is not held
cannot be; a reserved op is ILLEGAL; a busy path drops; an ack retires a result; a job is taken in where the unit has room and its queue is
on, or freed and counted; a job whose reads succeed ends as its record and its session say, one whose reads fail is counted and freed,
and the next starts. -/
def Obligations.CipherSessionsAndJobs : Prop :=
  ∀ (by_ : Req) (tag : Tag) (q : BitVec 8) (s : State),
    let res := Reg.CIPHER.SESS_RESULT
    let n := s.rf Reg.CIPHER.SESS_ARG 10 0
    let posted := fun (u : State) (code : Nat) => u.rd res = wd (2 ^ 31 + (code * 2 ^ 27 + n * 2 ^ 8) + tag.toNat) ∧
      bit (u.tile 15).evtPend 16 = true ∧ (∀ k, k ≠ n → u.session k = s.session k) ∧ (∀ a, u.rb a = s.rb a)
    (s.accepts by_ 15 = true → s.pathFree res = true →
      (∀ x, s.sessArg = some x → ∃ u, exec (.sessInstall by_ tag) s = .next u ∧ posted u 0 ∧ u.session n = some x) ∧
      (s.sessArg = none → ∃ u, exec (.sessInstall by_ tag) s = .next u ∧ posted u 1 ∧ u.session n = s.session n) ∧
      (s.session n ≠ none → ∃ u, exec (.sessDelete by_ tag) s = .next u ∧ posted u 0 ∧ u.session n = none) ∧
      (s.session n = none → ∃ u, exec (.sessDelete by_ tag) s = .next u ∧ posted u 2 ∧ u.session n = none) ∧
      (∃ u, exec (.sessIllegalOp by_ tag) s = .next u ∧ posted u 3 ∧ u.session n = s.session n)) ∧
    (s.accepts by_ 15 = true → s.pathFree res = false → exec (.sessInstall by_ tag) s = .next (s.reqDrop 15) ∧
      exec (.sessDelete by_ tag) s = .next (s.reqDrop 15) ∧ exec (.sessIllegalOp by_ tag) s = .next (s.reqDrop 15)) ∧
    (s.accepts by_ 15 = true → exec (.sessAck by_ tag) s = .next (s.pathAck res 0 tag)) ∧
    (∀ k d rest, s.cipher.inQ = (k, d) :: rest → s.life 15 = .ready → s.cipher.jobs.length + s.cipher.items.length < 512 →
      let s1 := s.modCipher fun u => { u with inQ := rest }
      (s.rbit Reg.CIPHER.CIPHER_CTL 31 = true → s.rbit (Reg.CIPHER.QUEUE_CFG k) 31 = true → 64 ≤ s.dOfs d →
        let known := (s.session (s.jobWord d 0 % 2048)).isSome
        exec .cipherJobArrive s = .next (((s1.modCipher fun u => { u with
          jobs := u.jobs ++ [{ queue := k, desc := d, known := known }] }).startJobs).syncCipher)) ∧
      (s.rbit Reg.CIPHER.CIPHER_CTL 31 = false ∨ s.rbit (Reg.CIPHER.QUEUE_CFG k) 31 = false ∨ s.dOfs d < 64 →
        exec .cipherJobArrive s = .next (((s1.sat Reg.CIPHER.CIPHER_CNT1 15 8 1).evt 15 18).freeDesc 12 d))) ∧
    (∀ j e, s.cipher.jobs.find? (fun j => j.queue = q.toNat) = some j → j.engine = some e → s.live 15 = true →
      let r := (s.modCipher fun u => { u with jobs := u.jobs.erase j }).jobRead j.desc j.sess
      (r.2 = true → j.sess = none →
        exec (.cipherJobDone q) s = .next ((r.1.jobEnd q.toNat j.desc (if j.known then 3 else 2)).startJobs.syncCipher)) ∧
      (∀ x, r.2 = true → j.sess = some x →
        (jobMalformed (s.jobWord j.desc) (s.dLen j.desc) x.icv = true →
          exec (.cipherJobDone q) s = .next ((r.1.jobEnd q.toNat j.desc 2).startJobs.syncCipher)) ∧
        (jobMalformed (s.jobWord j.desc) (s.dLen j.desc) x.icv = false →
          let p := r.1.runJob j.desc x
          exec (.cipherJobDone q) s = .next ((p.1.jobEnd q.toNat j.desc p.2).startJobs.syncCipher))) ∧
      (r.2 = false →
        let s0 := if s.storeUp then r.1.recordErr 15 0x80 e q.toNat j.desc false else r.1
        exec (.cipherJobDone q) s =
          .next (((s0.sat Reg.CIPHER.CIPHER_CNT1 7 0 1).freeDesc 12 j.desc).startJobs.syncCipher)))

/-- Newt transmission commands (R255, R256, R257): dropped and counted while the path is busy, INVALID while EN is 0, LEN is out of 5 to
127 or the tile is not READY (log entry 62), COUNTER_ERROR once the frame counter is spent, else taken, by CSMA or at once, the secured one
with the counter; a backoff ends in a CCA outside a retune; a CCA that is clear and granted sends, any other backs off again up to its limit
and then posts CHANNEL_ACCESS, a refused grant counted; a sent frame that asks for an Ack awaits it for 864 µs, one that does not is done;
without an Ack it is tried again up to MAX_RETRIES outside DRAINING, else completes NO_ACK. -/
def Obligations.NewtTransmissionsComplete : Prop :=
  ∀ (by_ : Req) (tag : Tag) (energy : Int) (signal : Bool) (s : State),
    let res := Reg.NEWT.TX_RESULT
    let a := s.rd Reg.NEWT.TX_ARG0
    let len := fld a 25 16
    let on := s.rbit Reg.NEWT.NEWT_CTL 31 = true ∧ 5 ≤ len ∧ len ≤ 127 ∧ s.life 7 = .ready
    let taken := fun (sec : Bool) => ((s.pathBusy res 8 tag).modNewt fun x => { x with tx := some {
      psdu := s.newtPsdu ((List.range len).map fun k => s.rb (lm 7 ((fld a 15 0 + k) % 65536))) sec, tag := tag, pri := fld a 29 28,
      ant := fld a 31 30, power := max (-20) (min 10 (sval 8 (s.rf Reg.NEWT.TX_ARG1 7 0))) } } : State)
    (s.accepts by_ 7 = true →
      (s.pathFree res = false → exec (.newtTxCmd by_ tag) s = .next (s.sat Reg.NEWT.NEWT_CNT2 7 0 1)) ∧
      (s.pathFree res = true → ¬ on → exec (.newtTxCmd by_ tag) s = .next (s.newtPost tag 4 0 false)) ∧
      (s.pathFree res = true → on → bit a 27 = true → s.rd Reg.NEWT.NEWT_FC = 0xFFFFFFFF →
        exec (.newtTxCmd by_ tag) s = .next (s.newtPost tag 3 0 false)) ∧
      (s.pathFree res = true → on → bit a 27 = false →
        exec (.newtTxCmd by_ tag) s = .next (if bit a 26 then (taken false).newtCsma else (taken false).newtGo)) ∧
      (s.pathFree res = true → on → bit a 27 = true → s.rd Reg.NEWT.NEWT_FC ≠ 0xFFFFFFFF →
        let u := (taken true).wr Reg.NEWT.NEWT_FC (s.rd Reg.NEWT.NEWT_FC + 1)
        exec (.newtTxCmd by_ tag) s = .next (if bit a 26 then u.newtCsma else u.newtGo)) ∧
      exec (.newtTxAck by_ tag) s = .next (s.pathAck res 8 tag)) ∧
    (∀ t u, s.newt.tx = some t →
      (t.phase = .backoff u → u ≤ s.clock → s.newtRetuning = false →
        exec .newtBackoffExpire s = .next (s.modNewtTx fun t => { t with phase := .cca (s.clock + 64000) })) ∧
      (t.phase = .cca u → u ≤ s.clock → s.newtRetuning = false → s.live 7 = true →
        let s0 := s.wf Reg.NEWT.NEWT_STATUS 7 0 (ofInt 8 energy)
        let s1 := if s.newtGrant t.pri then s0 else s0.sat Reg.NEWT.NEWT_CNT1 15 8 1
        let clear := s.newtCca energy signal = false ∧ s.newt.rx = none ∧ s.newt.ack = none ∧ s.newt.ackEnd ≤ s.clock ∧
          s.newtGrant t.pri = true
        (clear → exec (.newtCcaEnd energy signal) s = .next (s0.newtSend t 96000)) ∧
        (¬ clear → exec (.newtCcaEnd energy signal) s = .next (
          if min 5 (s.rf Reg.NEWT.NEWT_CSMA 15 12) < t.nb + 1 then (s1.newtPost t.tag 1 t.attempts false).newtRetune
          else s1.newtBackoff (t.nb + 1) (min (t.be + 1) s.newtBe.1)))) ∧
      (t.phase = .sending u → u ≤ s.clock →
        let s1 := (s.wr Reg.NEWT.COEX_STATUS 0).wr Reg.NEWT.TX_TIME (wd (s.ns - (t.psdu.length + 1) * 32000))
        ((t.psdu.headD 0).toNat / 32 % 2 = 1 → exec .newtTxEnd s =
          .next (s1.modNewtTx fun t => { t with attempts := t.attempts + 1, phase := .await (s.clock + 432000) }).newtListen) ∧
        ((t.psdu.headD 0).toNat / 32 % 2 = 0 →
          exec .newtTxEnd s = .next (s1.newtPost t.tag 0 (t.attempts + 1) false).newtListen.newtRetune)) ∧
      (t.phase = .await u → u ≤ s.clock → (∀ v b, s.newt.rx = some (v, b) → u < v) → exec .newtAckTimeout s = .next (
        if t.attempts ≤ s.rf Reg.NEWT.NEWT_CSMA 18 16 ∧ s.life 7 ≠ .draining then s.newtCsma.newtRetune
        else (s.newtPost t.tag 2 t.attempts false).newtRetune)))

/-- Newt's receiver (R41, R244, R246, R247, R248, R252, R261, R262): NEWT_CTL changes the channel once idle and loads the seed when EN
rises; a lock ends a retune, a first failure is tried again and a second is fatal; the gain steps by 8 dB; a preamble is acquired; after
symbol 2 the stronger antenna is taken, or the one in use where an SFD came first; outside promiscuous mode a frame with a bad FCS is
counted and not delivered, and a good one is delivered where the filter and the tables admit it and else counted unless it is an Ack, an
Ack to it being set down first where it asks one of NEWT; an Ack goes out when due, if granted and its counter is not spent, and then
the frame is delivered; software frees ring slots and starts the processor. -/
def Obligations.NewtReceivesAndAnswers : Prop :=
  ∀ (by_ : Req) (val : Word) (peak : Int) (mine other : Nat) (psdu : List Byte) (rssi lqi : Byte) (s : State),
    let st := Reg.NEWT.NEWT_STATUS
    let ctl := Reg.NEWT.NEWT_CTL
    let g := s.rf st 13 8
    let finish := fun (u : State) => u.newtListen.newtGo.newtRetune
    (s.accepts by_ 7 = true → fld val 4 0 = s.rf ctl 4 0 → s.newt.chanPend = none → (bit val 31 = true → s.rbit ctl 31 = true) →
      exec (.newtCtlWrite by_ val) s = .next (s.wr ctl (val &&& 0xFC03FFDF)).newtListen) ∧
    (s.accepts by_ 7 = true → s.newtIdle = true → s.newtRetuning = false → 11 ≤ fld val 4 0 → fld val 4 0 ≤ 26 →
      fld val 4 0 ≠ s.rf ctl 4 0 → ∃ u, exec (.newtCtlWrite by_ val) s = .next u ∧ u.rf ctl 4 0 = fld val 4 0 ∧ u.newtRetuning = true ∧
        (bit val 31 = true → s.rbit ctl 31 = false →
          u.newt.g = if s.rd Reg.NEWT.NEWT_SEED = 0 then 0x2545F491 else s.rd Reg.NEWT.NEWT_SEED)) ∧
    (s.newtRetuning = true → s.life 7 ≠ .fault →
      (s.newt.chanPend = none → s.newt.tx = none →
        exec (.newtRetuneDone true) s = .next ((s.wf st 31 31 0).modNewt fun x => { x with retries := 0 })) ∧
      (s.newt.retries = 0 → exec (.newtRetuneDone false) s = .next (s.modNewt fun x => { x with retries := 1 })) ∧
      (s.newt.retries ≠ 0 → exec (.newtRetuneDone false) s =
        .next (s.faultHook ((s.modNewt fun x => { x with retries := 0 }).recordErr 7 0x80 noUnit 0 0 true) 7))) ∧
    (s.newtOn = true → exec (.newtAgcStep peak) s = .next (
      if -8 ≤ peak ∧ 8 ≤ g then s.wf st 13 8 (g - 8) else if peak ≤ -24 ∧ g ≤ 40 then s.wf st 13 8 (g + 8) else s)) ∧
    (s.newtOn = true → s.newt.rx = none → s.newt.ackEnd ≤ s.clock → exec .newtPreambleAcquire s =
      .next ((s.modNewt fun x => { x with rx := some (s.clock, false) }).wf st 30 30 1)) ∧
    (∀ t, s.newt.rx = some (t, false) →
      let s1 := s.modNewt fun x => { x with rx := some (t, true) }
      exec (.newtAntSelect mine other true) s = .next s1 ∧
      (t + 16000 ≤ s.clock → exec (.newtAntSelect mine other false) s = .next
        (if 2 ≤ s.rf ctl 17 16 ∧ other ≤ mine then s1.newtAnt (1 - s.rf st 29 29) else s1))) ∧
    (∀ t b, s.newt.rx = some (t, b) → s.rbit ctl 30 = false → 5 ≤ psdu.length → psdu.length ≤ 127 →
      let body := psdu.take (psdu.length - 2)
      let s0 := (s.modNewt fun x => { x with rx := none }).wf st 30 30 0
      (crc16 body ≠ frameField psdu (psdu.length - 2) 2 →
        exec (.newtFrameReceive psdu rssi lqi) s = .next (finish (s0.sat Reg.NEWT.NEWT_CNT0 15 8 1))) ∧
      (∀ h, crc16 body = frameField psdu (psdu.length - 2) 2 → newtParse body = some h →
        let ant := s.rf st 29 29
        let s1 := s0.modNewt fun x => { x with lastAnt := ant }
        let s2 := match s.newtMatch h (s.clock - (psdu.length + 1) * 16000) with
          | some t => s1.newtPost t.tag 0 t.attempts ((psdu.headD 0).toNat / 16 % 2 = 1)
          | none => s1
        let src := s.newtSource h
        let deliver := s.newtAccept h && !(s.rbit ctl 28 && h.type = 1 && src.isNone)
        let s3 := if deliver || (h.type = 2 && h.ver < 3) then s2 else s2.sat Reg.NEWT.NEWT_CNT0 7 0 1
        let got : NewtGot := { psdu := psdu, ant := ant, rssi := rssi.toNat, lqi := lqi.toNat, chan := s.rf ctl 4 0, index := src,
                               time := s.ns - (psdu.length + 1) * 32000 }
        ((s.newtAccept h && h.ar && s.newtMine h) = false →
          exec (.newtFrameReceive psdu rssi lqi) s = .next (finish (if deliver then s3.newtHand got 0 else s3))) ∧
        ((s.newtAccept h && h.ar && s.newtMine h) = true → ∃ x : NewtAck,
          exec (.newtFrameReceive psdu rssi lqi) s = .next (s3.modNewt fun y => { y with ack := some x }) ∧
          x.at_ = s.clock + 95000 ∧ x.deliver = deliver ∧ x.got = got))) ∧
    (∀ a, s.newt.ack = some a → a.at_ ≤ s.clock →
      let hand := fun (u : State) (flags : Nat) => if a.deliver then u.newtHand a.got flags else u
      let quiet := s.modNewt fun x => { x with ack := none }
      let spent := a.secured = true ∧ s.rd Reg.NEWT.NEWT_FC = 0xFFFFFFFF
      (s.newtGrant (s.rf Reg.NEWT.COEX_CTL 9 8) = true → ¬ spent →
        let s0 := s.modNewt fun x => { x with ack := none, ackEnd := s.clock + 1000 + (6 + a.octets) * 16000 }
        let s1 := if a.secured then s0.wr Reg.NEWT.NEWT_FC (s.rd Reg.NEWT.NEWT_FC + 1) else s0
        exec .newtAckSend s = .next (finish (hand s1 (2 + 4 * b2n a.fp)))) ∧
      (s.newtGrant (s.rf Reg.NEWT.COEX_CTL 9 8) = true → spent → exec .newtAckSend s = .next (finish (hand quiet 0))) ∧
      (s.newtGrant (s.rf Reg.NEWT.COEX_CTL 9 8) = false →
        exec .newtAckSend s = .next (finish (hand (quiet.sat Reg.NEWT.NEWT_CNT1 7 0 1) 0)))) ∧
    (s.accepts by_ 7 = true → exec (.rxrRdWrite by_ val) s = .next (s.wr Reg.NEWT.RXR_RD (val &&& 0x3F)) ∧
      (reqMgmt by_ = true → exec (.newtRunWrite by_ val) s = .next
        ((s.wr Reg.NEWT.NEWT_RUN (s.rd Reg.NEWT.NEWT_RUN ||| (val &&& 1))).startThreads 7 0 val 1)))

/-- Child commands and pending bits (R250, R254, R262): on a free path an ADD takes the lowest free entry with its pending bit at 0, a
DEL frees the entry that holds the address, each answering its INDEX, or FULL, IN_USE, INVALID, NOT_FOUND or ILLEGAL with the
tables unchanged, and INVALID while the tile drains; a busy path drops the command; an ack retires a result; PEND_SET and
PEND_CLR change one bit, and an index beyond the extended table none. -/
def Obligations.ChildTablesAndPendingBits : Prop :=
  ∀ (by_ : Req) (tag : Tag) (val : Word) (s : State), s.accepts by_ 7 = true →
    let res := Reg.NEWT.CHILD_RESULT
    let a := s.rf Reg.NEWT.CHILD_ARG 15 0
    let posted := fun (u : State) (code index : Nat) =>
      u.rd res = wd (2 ^ 31 + (code * 2 ^ 27 + index * 2 ^ 16) + tag.toNat * 2 ^ 8) ∧ bit (u.tile 7).evtPend 19 = true
    (s.pathFree res = true → s.life 7 ≠ .draining →
      (0xFFFE ≤ a → ∃ u, exec (.childAddShort by_ tag) s = .next u ∧ posted u 4 0 ∧ u.newt = s.newt) ∧
      (∀ k, a < 0xFFFE → s.newtFindShort a = some k →
        (∃ u, exec (.childAddShort by_ tag) s = .next u ∧ posted u 2 0 ∧ u.newt = s.newt) ∧
        ∃ u, exec (.childDelShort by_ tag) s = .next u ∧ posted u 0 k ∧ u.newtShort k = none ∧ u.newtPend k = false) ∧
      (∀ k, a < 0xFFFE → s.newtFindShort a = none → ((List.range 512).find? fun n => s.newtShort n = none) = some k →
        ∃ u, exec (.childAddShort by_ tag) s = .next u ∧ posted u 0 k ∧ u.newtShort k = some (a, s.childExt) ∧ u.newtPend k = false ∧
          ∀ j, j ≠ k → u.newtShort j = s.newtShort j) ∧
      (a < 0xFFFE → s.newtFindShort a = none → (∀ n, n < 512 → s.newtShort n ≠ none) →
        ∃ u, exec (.childAddShort by_ tag) s = .next u ∧ posted u 1 0 ∧ u.newt = s.newt) ∧
      (s.newtFindShort a = none → ∃ u, exec (.childDelShort by_ tag) s = .next u ∧ posted u 3 0 ∧ u.newt = s.newt) ∧
      (∀ k, s.newtFindExt s.childExt = some k →
        (∃ u, exec (.childAddExt by_ tag) s = .next u ∧ posted u 2 0 ∧ u.newt = s.newt) ∧
        ∃ u, exec (.childDelExt by_ tag) s = .next u ∧ posted u 0 k ∧ u.newtExtEntry k = none ∧ u.newtPend (0x8000 + k) = false) ∧
      (∀ k, s.newtFindExt s.childExt = none → ((List.range 64).find? fun n => s.newtExtEntry n = none) = some k →
        ∃ u, exec (.childAddExt by_ tag) s = .next u ∧ posted u 0 k ∧ u.newtExtEntry k = some s.childExt ∧
          u.newtPend (0x8000 + k) = false) ∧
      (s.newtFindExt s.childExt = none → (∀ n, n < 64 → s.newtExtEntry n ≠ none) →
        ∃ u, exec (.childAddExt by_ tag) s = .next u ∧ posted u 1 0 ∧ u.newt = s.newt) ∧
      (s.newtFindExt s.childExt = none → ∃ u, exec (.childDelExt by_ tag) s = .next u ∧ posted u 3 0 ∧ u.newt = s.newt) ∧
      (∃ u, exec (.childIllegalOp by_ tag) s = .next u ∧ posted u 5 0 ∧ u.newt = s.newt)) ∧
    (s.pathFree res = true → s.life 7 = .draining → ∀ c, c ∈ [Instr.childAddShort by_ tag, .childDelShort by_ tag,
        .childAddExt by_ tag, .childDelExt by_ tag, .childIllegalOp by_ tag] →
      exec c s = .next ((s.pathPost res 8 tag (4 * 2 ^ 27)).evt 7 19)) ∧
    (bit val 15 = true → 64 ≤ fld val 8 0 → exec (.pendSet by_ val) s = .next s ∧ exec (.pendClr by_ val) s = .next s) ∧
    (s.pathFree res = false → exec (.childAddShort by_ tag) s = .next (s.reqDrop 7) ∧
      exec (.childDelShort by_ tag) s = .next (s.reqDrop 7) ∧ exec (.childAddExt by_ tag) s = .next (s.reqDrop 7) ∧
      exec (.childDelExt by_ tag) s = .next (s.reqDrop 7) ∧ exec (.childIllegalOp by_ tag) s = .next (s.reqDrop 7)) ∧
    exec (.childAck by_ tag) s = .next (s.pathAck res 8 tag) ∧
    (∀ n, (if bit val 15 then 0x8000 + fld val 8 0 else fld val 8 0) = n → (bit val 15 = true → fld val 8 0 < 64) →
      (∃ u, exec (.pendSet by_ val) s = .next u ∧ u.newtPend n = true ∧ u.newt = s.newt) ∧
      ∃ u, exec (.pendClr by_ val) s = .next u ∧ u.newtPend n = false ∧ u.newt = s.newt)

/-- The sense receiver (R41, R134 to R140): RUN rising starts a scan at the first entry in use with the sequence at 0, or stops with its
event where none is; RUN falling stops it at once while it retunes, and else after the frame in progress; a frame ends 5 µs after it began,
is accumulated and its pulses recorded unless it is self-transmit, the gain stepping by 6 dB in automatic mode, and where a stop is asked
for the entry reports as partial and the scan stops; a dwell that has its frames reports and goes on, or stops so; the end of a retune starts
the frames; a full ring drops a report, counts it and is an event; software frees slots and starts the controller's threads. -/
def Obligations.SenseScansAndReports : Prop :=
  ∀ (by_ : Req) (val : Word) (peak : Int) (bins : List Int) (ps : List SensePulse) (s : State),
    let ctl := Reg.SENSE.SENSE_CTL
    let st := Reg.SENSE.SENSE_STATUS
    let g := s.rf st 15 8
    let x := s.sense
    let dwell := max 1 (fld x.curB 31 16)
    let s1 := s.wr ctl (val &&& 0xC0FFFFFF)
    let s2 : State := { s1 with sense := { x with seq := 0, stopReq := false } }
    (s.accepts by_ 6 = true →
      (bit val 31 = true → s.rbit ctl 31 = false →
        (∀ e, s.scanFrom 32 0 = some e → ∃ u, exec (.senseCtlWrite by_ val) s = .next u ∧ u = s2.scanEnter e ∧
          u.rbit st 31 = true ∧ u.rbit st 30 = true ∧ u.rf st 20 16 = e ∧ u.sense.curA = s.rd (Reg.SENSE.SCAN_A e) ∧
          u.sense.seq = 0 ∧ u.sense.frames = []) ∧
        (s.scanFrom 32 0 = none → ∃ u, exec (.senseCtlWrite by_ val) s = .next u ∧ u.rbit st 31 = false ∧
          bit (u.tile 6).evtPend 18 = true)) ∧
      (bit val 31 = false → s.rbit st 31 = true → s.rbit st 30 = true →
        exec (.senseCtlWrite by_ val) s = .next s1.scanStop) ∧
      (bit val 31 = false → s.rbit st 31 = true → s.rbit st 30 = false →
        exec (.senseCtlWrite by_ val) s = .next { s1 with sense := { x with stopReq := true } }) ∧
      exec (.senseRptRdWrite by_ val) s = .next (s.wr Reg.SENSE.RPT_RD (val &&& 0xFFF)) ∧
      (reqMgmt by_ = true → exec (.senseRunWrite by_ val) s = .next
        ((s.wr Reg.SENSE.SENSE_RUN (s.rd Reg.SENSE.SENSE_RUN ||| (val &&& 3))).startThreads 6 0 val 2))) ∧
    (s.rbit st 31 = true → s.rbit st 30 = false → x.total < dwell → x.frameAt + 2500 ≤ s.clock →
      let self := s.selfTransmit
      let g1 := if bit x.curB 7 then senseGain peak g else g
      let x1 : Sense := { x with
        frames := if self then x.frames else x.frames ++ [(bins.take 1600).mapIdx fun b p => s.powerCode g b p]
        selfTx := if self then x.selfTx + 1 else x.selfTx
        total := x.total + 1
        gainChanged := x.gainChanged || g1 != g
        frameAt := s.clock
        pulses := if s.rbit ctl 30 && bit x.curA 27 && !self then x.pulses ++ ps.filterMap (s.pulseOf g) else x.pulses }
      let u := { s.wr st (putFld (s.rd st) 15 8 g1) with sense := x1 }
      let v := (List.range (x1.pulses.length / 254)).foldl (fun (w : State) _ => w.pulseReport false) u
      (x.stopReq = false → exec (.senseFrameEnd peak bins ps) s = .next v) ∧
      (x.stopReq = true → exec (.senseFrameEnd peak bins ps) s = .next (v.entryReports true).scanStop)) ∧
    (s.rbit st 31 = true → s.rbit st 30 = false → dwell ≤ x.total →
      (x.stopReq = false → exec .senseDwellEnd s = .next ((s.entryReports false).scanNext (some (s.rf st 20 16)))) ∧
      (x.stopReq = true → exec .senseDwellEnd s = .next (s.entryReports true).scanStop)) ∧
    (s.rbit st 31 = true → s.rbit st 30 = true → ∃ u, exec .senseRetuneDone s = .next u ∧ u.rbit st 30 = false ∧
      u.sense.startNs = s.ns ∧ u.sense.gain0 = g ∧ u.sense.frameAt = s.clock ∧ (∀ a, a ≠ st → u.rd a = s.rd a)) ∧
    ((s.rf Reg.SENSE.RPT_WR 11 0 % s.rptSlots + 1) % s.rptSlots = s.rf Reg.SENSE.RPT_RD 11 0 % s.rptSlots →
      ∀ type flags count body, ∃ u, s.report type flags count body = u ∧ bit (u.tile 6).evtPend 17 = true ∧ (∀ a, u.rb a = s.rb a) ∧
        u.rf Reg.SENSE.RPT_WR 11 0 = s.rf Reg.SENSE.RPT_WR 11 0 ∧
        u.rd Reg.SENSE.RPT_DROP = if (s.rd Reg.SENSE.RPT_DROP).toNat = 2 ^ 32 - 1 then s.rd Reg.SENSE.RPT_DROP
          else s.rd Reg.SENSE.RPT_DROP + 1)

/-- The lanes' link state (R450, R451, R454): LANE_CTL keeps its mode while enabled; a lock and an auto-negotiation set what the
lane's rules then follow; a link comes up after 10 ms of its conditions with its speed and its event, and goes down where they fail; a
pause in force ends by the clock, and XOFF is sent again while the buffer stays at half the threshold. Frames on the lanes (R347, R422,
R452 to R454, R457): a lane without a link takes nothing, and WIRE out of READY counts a drop; a frame of a bad length or with a failed
FCS is counted, a MAC control frame acts on the lane's pause, one beyond the buffer is dropped and counted, and any other waits in the
buffer and drains into the classifier; a frame for the wire, from a release or a next hop's queue, joins its priority's queue; a pause frame
goes out before all and the highest queue's first frame once no pause holds; its end frees its descriptor and counts it. -/
def Obligations.LanesAndWireFrames : Prop :=
  (∀ (by_ : Req) (n : Fin 4) (val lp : Word) (fec : BitVec 2) (lost fault : Bool) (s : State),
    let i := n.val
    let ctl := Reg.WIRE.LANE_CTL i
    let st := Reg.WIRE.LANE_STATUS i
    let v := val &&& 0xFFC03FFF
    (s.accepts by_ 17 = true → exec (.laneCtlWrite by_ n val) s =
      .next ((s.wr ctl (if bit (s.rd ctl) 31 then putFld v 30 28 (fld (s.rd ctl) 30 28) else v)).laneOff i)) ∧
    (s.laneOn i = true →
      (bit (s.rd ctl) 27 = true →
        exec (.laneRxLock n) s = .next ((s.setLane i { s.lane i with lock := true, fault := false }).laneSync i)) ∧
      (bit (s.rd ctl) 27 = false →
        exec (.laneRxLock n) s = .next (((s.wf st 27 26 (s.laneFec i (fld (s.rd ctl) 26 25))).setLane i
          { s.lane i with lock := true, fault := false }).laneSync i))) ∧
    (s.laneOn i = true → s.rbit ctl 27 = true ∨ s.laneWord i = true →
      let s1 := ((s.wr (Reg.WIRE.LANE_LP i) (if s.laneMode i < 2 then lp else lp &&& 0xFFFF)).wf st 30 30 1).wf st 27 26
        (s.laneFec i fec.toNat)
      exec (.anDone n lp fec) s = .next ((if s.rbit st 30 then s1 else s1.evt 17 (20 + i)).laneSync i)) ∧
    (∀ t, (s.lane i).okSince = some t → s.link i = false → s.laneOk i = true → t + 5000000 ≤ s.clock →
      exec (.laneLinkUp n) s = .next (((s.wf st 31 31 1).wf st 19 16 (s.laneSpeed i)).evt 17 (16 + i))) ∧
    (let x := s.lane i
     let s1 := (s.setLane i { x with lock := x.lock && !lost, fault := x.fault || fault }).laneSync i
     exec (.laneLinkDown n lost fault) s = .next (if s1.laneOk i then s1 else s1.laneDown i)) ∧
    (∀ t, (s.lane i).xoff = some t →
      let quanta := s.rf (Reg.WIRE.LANE_PAUSE i) 31 16
      t + s.bitCycles i (quanta * 256) ≤ s.clock → s.xoffBytes i ≤ 2 * s.laneFill i → s.rbit ctl 24 = true →
      exec (.pauseResendTimer n) s = .next (s.setLane i { s.lane i with
        pauseOut := (s.lane i).pauseOut ++ [quanta], xoff := some s.clock })) ∧
    ((s.lane i).pauseUntil ≤ s.clock → exec (.pauseExpire n) s = .next (s.wf st 25 25 0))) ∧
  (∀ (n : Fin 4) (k : Fin 11) (nh : Fin 64) (data : List Byte) (s : State),
    let i := n.val
    let x := s.lane i
    let body := data.take (data.length - 4)
    let fcs := decide (le 4 (crc32 body) = data.drop (data.length - 4))
    let s1 := if fcs then s else s.sat (Reg.WIRE.LANE_ERR_CNT i) 31 16 1
    (s.link i = false → exec (.wireRxFrame n data) s = .next s) ∧
    (s.link i = true → s.life 17 ≠ .ready → exec (.wireRxFrame n data) s = .next (s.rxDrop i 31 16)) ∧
    (s.link i = true → s.life 17 = .ready → data.length < 64 ∨ s.maxFrame i < data.length →
      exec (.wireRxFrame n data) s = .next (s.sat (Reg.WIRE.LANE_ERR_CNT i) 15 8 1)) ∧
    (s.link i = true → s.life 17 = .ready → 64 ≤ data.length → data.length ≤ s.maxFrame i →
      (fcs = false → s.rbit (Reg.WIRE.LANE_CTL i) 22 = false → exec (.wireRxFrame n data) s = .next s1) ∧
      (fcs = true ∨ s.rbit (Reg.WIRE.LANE_CTL i) 22 = true →
        (fabField data 12 2 = 0x8808 → exec (.wireRxFrame n data) s = .next (if fcs then s1.pauseIn i data else s1)) ∧
        (fabField data 12 2 ≠ 0x8808 → 262144 < s1.laneFill i + data.length →
          exec (.wireRxFrame n data) s = .next (s1.rxDrop i 31 16)) ∧
        (fabField data 12 2 ≠ 0x8808 → s1.laneFill i + data.length ≤ 262144 →
          let ps := s.ns * 1000 - 10 * s.rf (Reg.TIME.WIRE_DELAY i) 15 0
          let f : WireRx := {
            data := body, wireLen := data.length, stamp := if s.ns = 0 then 0 else ps / 1000 % 2 ^ 32
            fabric := fabField data 12 2 = 0x88B5
            status := 2 ^ 31 + b2n fcs * 2 ^ 30 + i * 2 ^ 28 + s.rf (Reg.WIRE.LANE_STATUS i) 19 16 * 2 ^ 16 + data.length }
          exec (.wireRxFrame n data) s = .next ((s1.setLane i { x with rx := x.rx ++ [f] }).wireDrain i)))) ∧
    (exec (.clsIngressArrive k) s = .next (if k.val < 4 then (s.clsAccept k.val).wireDrain k.val else s.clsAccept k.val)) ∧
    (∀ w rest, s.wireIn = w :: rest → exec (.wireTxEnqueue none) s =
      .next (({ s with wireIn := rest } : State).txEnqueue w.lane w.pri { desc := w.desc, dst := w.dst, beacon := w.beacon })) ∧
    (∀ d m rest, s.nhQueue nh.val = (d, m) :: rest → s.nhOk nh.val = true → s.nhWire nh.val = true → s.live 9 = true →
      let mac := beVal (le 4 (s.rd (Reg.CLASS.NH_W1 nh.val)).toNat ++ le 2 (s.rd (Reg.CLASS.NH_W2 nh.val)).toNat)
      exec (.wireTxEnqueue (some nh)) s = .next ((s.setNhQueue nh.val rest).txEnqueue (s.nhIndex nh.val)
        (fabField (s.dData d) 6 1 % 8) { desc := d, dst := some mac })) ∧
    (x.cur = none → s.link i = true → s.live 17 = true →
      (∀ q rest, x.pauseOut = q :: rest → exec (.wireTxStart n) s = .next ((s.setLane i { x with pauseOut := rest }).laneSend i none
        (be 6 0x0180C2000001 ++ s.laneMac i ++ be 2 0x8808 ++ be 2 1 ++ be 2 q))) ∧
      (∀ p f rest, x.pauseOut = [] → x.pauseUntil ≤ s.clock →
        ([7, 6, 5, 4, 3, 2, 1, 0].find? fun p => !(tget (fun _ => []) x.q p).isEmpty) = some p →
        tget (fun _ => []) x.q p = f :: rest → exec (.wireTxStart n) s =
          .next ((s.setLane i { x with q := tput (fun _ => []) x.q p rest }).txFrame i f))) ∧
    (∀ t, x.cur = some t → t.endAt ≤ s.clock →
      (t.desc = none → exec (.wireTxEnd n) s = .next (s.setLane i { x with cur := none })) ∧
      (∀ d, t.desc = some d → exec (.wireTxEnd n) s =
        .next (((s.setLane i { x with cur := none }).freeDesc 14 d).sat (Reg.WIRE.LANE_TX_CNT i) 31 0 1))))

/-- MDIO (R28, R455, R456): a command on a free path joins the bus with its arguments, or is ILLEGAL while the unit is off; on a busy
path it drops; a poll is due by its period and reads the link status; the transaction at the head ends with its result, a read that no PHY
answers with NO_RESPONSE, or shows a poll's link, an event where it changed; an ack retires a result. -/
def Obligations.MdioCommandsAndPolls : Prop :=
  ∀ (by_ : Req) (phyad reg : BitVec 5) (tag : Tag) (n : Fin 4) (resp : Option (BitVec 16)) (s : State),
    let res := Reg.WIRE.MDIO_RESULT
    let arg := s.rd Reg.WIRE.MDIO_ARG
    let queued := fun (c45 read : Bool) => ({ s.pathBusy res 16 tag with wire := { s.wire with mdio := s.wire.mdio ++ [{
      c45 := c45, read := read, phyad := phyad.toNat, reg := reg.toNat, addr := fld arg 31 16, data := fld arg 15 0
      tag := tag }] } } : State)
    let off := (s.pathPost res 16 tag (2 * 2 ^ 28)).evt 17 24
    let last := tget (fun _ => 0) s.wire.polled n.val
    let w := s.rd (Reg.WIRE.PHY_POLL n.val)
    let all := [Instr.mdioC22Write by_ phyad reg tag, .mdioC22Read by_ phyad reg tag, .mdioC45Write by_ phyad reg tag,
      .mdioC45Read by_ phyad reg tag]
    (s.accepts by_ 17 = true → s.pathFree res = true →
      (s.rbit Reg.WIRE.MDIO_CTL 31 = true →
        exec (.mdioC22Write by_ phyad reg tag) s = .next (queued false false) ∧
        exec (.mdioC22Read by_ phyad reg tag) s = .next (queued false true) ∧
        exec (.mdioC45Write by_ phyad reg tag) s = .next (queued true false) ∧
        exec (.mdioC45Read by_ phyad reg tag) s = .next (queued true true)) ∧
      (s.rbit Reg.WIRE.MDIO_CTL 31 = false → ∀ c, c ∈ all → exec c s = .next off)) ∧
    (s.accepts by_ 17 = true → s.pathFree res = false → ∀ c, c ∈ all → exec c s = .next (s.reqDrop 17)) ∧
    (bit w 31 = true → s.rbit Reg.WIRE.MDIO_CTL 31 = true → s.live 17 = true →
      (s.wire.mdio.any fun t => t.poll = some n.val) = false → last = 0 ∨ last + 500000 * max 1 (fld w 23 16) ≤ s.clock + 1 →
      exec (.phyPoll n) s = .next { s with wire := { s.wire with
        polled := tput (fun _ => 0) s.wire.polled n.val (s.clock + 1)
        mdio := s.wire.mdio ++ [{
          poll := some n.val, c45 := bit w 30, read := true, phyad := fld w 29 25, reg := 1, addr := 1, data := 0 }] } }) ∧
    (∀ t rest, s.wire.mdio = t :: rest →
      let s1 : State := { s with wire := { s.wire with mdio := rest } }
      let data := (resp.map (·.toNat)).getD 0xFFFF
      (∀ k, t.poll = some k →
        let r := Reg.WIRE.PHY_POLL k
        let up := data / 4 % 2
        (s.rf r 24 24 = up → exec (.mdioTransactionDone resp) s = .next s1) ∧
        (s.rf r 24 24 ≠ up → exec (.mdioTransactionDone resp) s = .next ((s1.wf r 24 24 up).evt 17 (25 + k)))) ∧
      (t.poll = none → ∃ u, exec (.mdioTransactionDone resp) s = .next u ∧
        u.wire.mdio = rest ∧ bit (u.tile 17).evtPend 24 = true ∧
        u.rd res = wd (2 ^ 31 + ((if t.read && resp.isNone then 1 else 0) * 2 ^ 28 + if t.read then data else 0)
          + t.tag.toNat * 2 ^ 16))) ∧
    (s.accepts by_ 17 = true → exec (.mdioAck by_ tag) s = .next (s.pathAck res 16 tag))

/-- HOST's rings (R440 to R445, R447, R448): a configuration that enables a ring sets its indices to 0 and clears STOPPED; one that
disables it changes its first word alone; a write of TAIL stores it; a frame of the host enters the classifier's seventh ingress, or
completes its entry with the code of what was wrong: its length, no store for it, or its check; a released frame outside DRAINING waits
for its ring's entry, or is freed and counted where the ring is full or not served; it is written into the entry's buffer, or its entry
completes with the code of a buffer too small, a read that failed or a frame too long, and it is freed; an error of the DMA stops the
ring and frees a frame in progress; coalesced messages go by their timer. -/
def Obligations.RingsMoveFrames : Prop :=
  ∀ (by_ : Req) (r : BitVec 8) (val : Word) (len : BitVec 16) (buf : List Byte) (addr : BitVec 64) (s : State),
    let i := r.toNat
    let w0 := Reg.HOST.RING_W0 i
    (s.accepts by_ 16 = true →
      (bit val 31 = true → ∃ u, exec (.ringConfigWrite by_ r val) s = .next u ∧ u.rbit w0 31 = true ∧ u.rbit w0 28 = false ∧
        u.rd (Reg.HOST.RING_W3 i) = 0 ∧ u.rd (Reg.HOST.RING_W4 i) = 0) ∧
      (bit val 31 = false → ∃ u, exec (.ringConfigWrite by_ r val) s = .next u ∧ u.rbit w0 31 = false ∧
        (∀ a, a ≠ w0 → u.rd a = s.rd a)) ∧
      exec (.ringTailWrite by_ r val) s = .next (s.wr (Reg.HOST.RING_W3 i) (val &&& 0x7FFF))) ∧
    (s.rf (Reg.HOST.RING_W5 i) 31 16 ≠ 0 → tget (fun _ => 0) s.hostU.coalAt i ≠ 0 →
      tget (fun _ => 0) s.hostU.coalAt i + 500 * s.rf (Reg.HOST.RING_W5 i) 31 16 ≤ s.clock + 1 →
      exec (.coalTimer r) s = .next (s.ringMsg i)) ∧
    (s.ringServed i = true → s.life 16 = .ready → s.ringD2h i = false → s.ringEmpty i = false →
      (s.clsIn.any fun f => f.ingress = 7) = false → (s.clsQueue 7).length < 64 →
      let crc := s.ringCrc i
      let raw := (List.range len.toNat).map fun j => buf.getD j 0
      let data := if crc then raw.take (len.toNat - 4) else raw
      let w := s.rxStore 13 data 0 s.ns
      let done := fun (u : State) (code : Nat) => u.entryDone i 12 [2 ^ 31 + code * 2 ^ 28, u.ns % 2 ^ 32, 0, 0, 0] (code = 0)
      let good := crc = false ∨ raw.drop (len.toNat - 4) = ringSum (s.ringHead i) i data
      (len = 0 ∨ (crc = true ∧ len.toNat ≤ 4) → exec (.hostH2dFrame r len buf) s = .next (done s 5)) ∧
      (len ≠ 0 → (crc = true → 4 < len.toNat) →
        (w.2 = none → exec (.hostH2dFrame r len buf) s = .next (done (w.1.sat Reg.HOST.HOST_CNT0 15 8 1) 1)) ∧
        (∀ d, w.2 = some d → ¬ good →
          exec (.hostH2dFrame r len buf) s = .next (done ((w.1.freeDesc 13 d).sat Reg.HOST.HOST_CNT0 7 0 1) 2)) ∧
        (∀ d, w.2 = some d → good → exec (.hostH2dFrame r len buf) s = .next
          (done (({ w.1 with clsIn := w.1.clsIn ++ [{ ingress := 7, desc := d, srcid := i }] } : State).clsAccept 7) 0)))) ∧
    (∀ q d rest, s.hostIn = (q, d) :: rest → s.life 16 ≠ .draining →
      let s1 : State := { s with hostIn := rest }
      (s.ringServed q = true → s.ringD2h q = true → (s.d2hQueue q).length < 64 →
        exec .hostD2hRelease s = .next (s1.setD2h q (s.d2hQueue q ++ [d]))) ∧
      (s.ringServed q = true → s.ringD2h q = true → 64 ≤ (s.d2hQueue q).length →
        exec .hostD2hRelease s = .next ((s1.sat Reg.HOST.HOST_CNT1 31 16 1).freeDesc 13 d)) ∧
      (s.ringServed q = false ∨ s.ringD2h q = false → exec .hostD2hRelease s = .next (s1.goneDrop d))) ∧
    (∀ d rest, s.d2hQueue i = d :: rest → s.ringServed i = true → s.ringD2h i = true → s.ringEmpty i = false →
      let s1 := s.setD2h i rest
      let rd := s1.hostRead d
      let out := if s.ringCrc i then s.dData d ++ ringSum (s.ringHead i) i (s.dData d) else s.dData d
      let done := fun (u : State) (n code length : Nat) => (u.entryDone i 8 [n * 2 ^ 16 + length, 2 ^ 31 + code * 2 ^ 28,
        u.dw d 4, u.dw d 3, nbits (u.dw d 1) 19 15, 0] (code = 0)).freeDesc 13 d
      ∀ n : BitVec 16,
        (n.toNat < 64 → exec (.hostD2hWriteback r addr n) s = .next (done s1 n.toNat 5 0)) ∧
        (64 ≤ n.toNat → rd.2 = false → exec (.hostD2hWriteback r addr n) s =
          .next (done (if s.storeUp then rd.1.recordErr 16 0x80 noUnit 0 d false else rd.1) n.toNat 4 0)) ∧
        (64 ≤ n.toNat → rd.2 = true → n.toNat < out.length → exec (.hostD2hWriteback r addr n) s =
          .next (done (rd.1.sat Reg.HOST.HOST_CNT1 15 8 1) n.toNat 3 0)) ∧
        (64 ≤ n.toNat → rd.2 = true → out.length ≤ n.toNat →
          exec (.hostD2hWriteback r addr n) s = .next (done (rd.1.hostWrite addr.toNat out) n.toNat 0 out.length))) ∧
    (s.ringServed i = true →
      let s2 := (((s.wf w0 31 31 0).wf w0 28 28 1).recordErr 16 0x81 i 0 0 false).evt 16 20
      (s.ringD2h i = false ∨ s.d2hQueue i = [] → exec (.hostDmaError r) s = .next s2) ∧
      (∀ d rest, s.ringD2h i = true → s.d2hQueue i = d :: rest →
        exec (.hostDmaError r) s = .next ((s2.setD2h i rest).freeDesc 13 d)))

/-- The host link, the function and the mailboxes (R435, R437, R446, R447, R449): the link comes up with its speed and width and its
event, and goes down with the rings quiesced and the configuration at reset; an FLR resets the configuration too, any other change of the
function is shown; a configuration request of a BAR size in range or of the function mask is performed; a mailbox command raises BUSY with its tag,
MGMT's answer with that tag posts its code and an answer from elsewhere is ignored, an ack retires it, and a busy mailbox drops and
counts. -/
def Obligations.HostLinkAndMailboxes : Prop :=
  ∀ (by_ : Req) (k : Fin 8) (op : BitVec 16) (code : BitVec 8) (tag : Tag) (speed : Fin 4) (width : BitVec 4) (s : State),
    let st := Reg.HOST.HOST_STATUS
    let box := Reg.HOST.MBX_W5 k.val
    let up := s.rbit st 31 = true ∧ s.active 16 = true
    (s.rbit st 31 = false → s.hostU.perst = true → s.life 16 ≠ .off → s.life 16 ≠ .reset → s.life 16 ≠ .selftest →
      width.toNat = 1 ∨ width.toNat = 2 ∨ width.toNat = 4 →
      ∃ u, exec (.pcieLinkUp speed width) s = .next u ∧ u.rbit st 31 = true ∧
        u.rf st 23 16 = (speed.val + 1) * 16 + width.toNat ∧
        bit (u.tile 16).evtPend 16 = true ∧ (∀ a, a ≠ st → u.rd a = s.rd a)) ∧
    (s.rbit st 31 = true → exec .pcieLinkDown s =
      .next (((((s.wf st 31 31 0).wf st 23 16 0).evt 16 17).quiesce).configReset)) ∧
    (s.rbit st 31 = false → exec .pcieLinkDown s = .next s) ∧
    (up → ∀ bme en d3, exec (.hostFunctionChange bme en d3 true) s = .next (s.quiesce.configReset) ∧
      exec (.hostFunctionChange bme en d3 false) s = .next (s.setFunction bme en d3)) ∧
    (up → (∀ n : Fin 64, 28 ≤ n.val → n.val ≤ 33 →
      exec (.pcieConfigRequest (.barSize n)) s = .next (s.modHost fun x => { x with barLog := n.val })) ∧
      (∀ on, exec (.pcieConfigRequest (.functionMask on)) s = .next (({ s with msixFuncMask := on } : State).msixFlush)) ∧
      exec (.pcieConfigRequest .other) s = .next s) ∧
    (s.accepts by_ 16 = true → s.pathFree box = true → ∃ u, exec (.mbxCmd by_ k op tag) s = .next u ∧
      u.rd box = wd (2 ^ 30 + tag.toNat) ∧ u.rd (Reg.HOST.MBX_W4 k.val) = wd (op.toNat * 2 ^ 16 + tag.toNat) ∧
      bit (u.tile 16).evtPend 18 = true) ∧
    (s.accepts by_ 16 = true → s.pathFree box = false →
      exec (.mbxCmd by_ k op tag) s = .next (s.sat Reg.HOST.HOST_CNT1 7 0 1)) ∧
    (s.accepts by_ 16 = true → reqMgmt by_ = true → s.rbit box 30 = true → s.rf box 7 0 = tag.toNat →
      exec (.mbxPost by_ k code tag) s = .next ((s.pathPost box 0 tag (code.toNat * 2 ^ 16)).evt 16 19)) ∧
    (s.accepts by_ 16 = true → reqMgmt by_ = false → exec (.mbxPost by_ k code tag) s = .next s) ∧
    (s.accepts by_ 16 = true → exec (.mbxAck by_ k tag) s = .next (s.pathAck box 0 tag))

/-- Issue of Uzoath's instructions (R40, R46, R48, R65 to R68, R70): a thread issues what stands at its PC and no other row; a false
guard only advances PC past it; a body that ends is the next state; a device access parks the thread, and a posted store beyond eight
waits; a cause before completion, and one after it, are taken as traps. An illegal word, and a held imprecise trap where the thread could
issue and is in no trap, are taken whatever the guard. A trap writes its frame below S, in a repetition with the iterations that remain,
and goes to its vector in SYSTEM mode with IN_TRAP set; a frame of which an ordered window holds back a word parks the thread (log entry
55); a trap within a trap, and one whose frame cannot be written, are double traps. -/
def Obligations.UzoathRowsIssue : Prop :=
  (∀ (th : ThreadRef) (s : State) (c : Uz), s.nextInsn th = some c → ∀ r ∈ uzRows th, r.2 c.i →
    (c.guard s = false → exec r.1 s = .next (s.modUz c fun x => x.advance c.next)) ∧
    (c.guard s = true →
      (∀ u, c.body s = .ok (u, 0) → exec r.1 s = .next u) ∧
      (c.body s = .error .park → exec r.1 s = .next (s.modUz c fun x => { x with run := .resp c.word c.ext })) ∧
      (c.body s = .error .hold → exec r.1 s = .next s) ∧
      (c.body s = .error .full → exec r.1 s = .next (s.modUz c fun x => { x with postHold := true })) ∧
      (∀ u cause, cause ≠ 0 → c.body s = .ok (u, cause) → exec r.1 s = .next (u.trapAfter c.th cause c.pc)) ∧
      ∀ u cause addr, c.body s = .error (.trap u cause addr) → exec r.1 s = .next (u.trapBefore c.th cause addr false))) ∧
  (∀ (th : ThreadRef) (s : State), s.nextInsn th = none → ∀ r ∈ uzRows th, exec r.1 s = .next s) ∧
  (∀ (th : ThreadRef) (cause addr : Nat) (s : State),
    let x := s.thread th.key
    (s.canIssue th = true → s.fetched th = .trap cause addr →
      exec (.illegalInstruction th) s = .next (s.trapBefore th cause addr false)) ∧
    (∀ h rest, x.traps = h :: rest → x.inTrap = false → (s.setThread th.key { x with traps := [] }).canIssue th = true →
      exec (.impreciseTrap th) s =
        .next ((s.setThread th.key { x with traps := rest }).trapBefore th h.cause h.addr h.posted))) ∧
  (∀ (th : ThreadRef) (cause addr : Nat) (late : Bool) (s : State),
    let x := s.thread th.key
    let frame := (x.sp - 16).toNat
    let base := th.data.1 + frame
    let saved := match x.rep with
      | some r => r.pc
      | none => x.pc
    let info := (match x.rep with
      | some r => repInfo r.left
      | none => 0) + (cause + if late then 256 else 0)
    let t := s.trapBefore th cause addr late
    let words := s.frameStores th frame [saved % 2 ^ 32, x.stWord th.thr.val, info, addr % 2 ^ 32]
    (x.inTrap = true → t = s.doubleTrap th cause) ∧
    (x.inTrap = false → s.frameWaits th frame = true → t = s.setThread th.key { x with run := .frame cause addr saved info }) ∧
    (x.inTrap = false → s.frameWaits th frame = false → words.2 = false → t = words.1.doubleTrap th cause) ∧
    (x.inTrap = false → cause < 256 → addr < 2 ^ 32 → saved < 2 ^ 32 → frame % 4 = 0 → frame + 16 ≤ th.data.2 →
      t.thread th.key = { x with sp := wd frame, st := x.st ||| 0x30000, pc := cause * 16, rep := none, run := .running } ∧
      t.rm base 4 = saved ∧ t.rm (base + 4) 4 = x.stWord th.thr.val ∧ t.rm (base + 8) 4 = info ∧ t.rm (base + 12) 4 = addr ∧
      (∀ a, a < base ∨ base + 16 ≤ a → t.rb a = s.rb a) ∧ (∀ a, t.rd a = s.rd a) ∧
      ∀ k, k ≠ th.key → t.thread k = s.thread k))

/-- What Uzoath's operations compute (R71, R75, R78 to R87, R95, R96): with operand value `v`, of which `b` is the low `w` bits,
and `a` the low bits of A, each operation writes the registers and flags shown and nothing else, where the traps on V and DZ are
off; each compare form writes its condition to its predicate, or ANDs it in where GN is 1, whatever the guard. -/
def Obligations.UzoathOperationsCompute : Prop :=
  ∀ (th : ThreadRef) (s s1 : State) (c : Uz) (v : Nat), s.nextInsn th = some c →
    c.value s c.i.width (c.opnd s).1 = .ok (s1, v) →
    let x := s1.uz c
    let w := c.i.width
    let a := x.a.toNat % 2 ^ w
    let b := v % 2 ^ w
    let e := x.e.toNat
    let n := c.i.op
    let p := sval w a * sval w b
    let out := fun (r : Alu) =>
      (.next (s1.modUz c fun x => (((c.opnd s).2 x).apply r).advance c.next) : Host.Outcome State Fault Refusal)
    let cmp := fun (t : Bool) => (.next (s1.modUz c fun x =>
      (((c.opnd s).2 x).setPred c.i.gp (if c.i.gn then t && (s1.uz c).pred c.i.gp else t)).advance c.next) :
      Host.Outcome State Fault Refusal)
    (c.guard s = true → bit x.st 9 = false → bit x.st 8 = false →
      (n = 0x01 → exec (.ld th) s = out { a := some b }) ∧
      (n = 0x03 → exec (.ldx th) s = out { x := some b }) ∧
      (n = 0x05 → exec (.ldy th) s = out { y := some b }) ∧
      (n = 0x09 → exec (.add th) s = out { a := some ((a + b) % 2 ^ w), v := !fitsS w (sval w a + sval w b) }) ∧
      (n = 0x0A → exec (.adc th) s = out {
        a := some ((a + b + e % 2) % 2 ^ w), e := some ((a + b + e % 2) / 2 ^ w)
        v := !fitsS w (sval w a + sval w b + (e % 2 : Nat)) }) ∧
      (n = 0x0B → exec (.sub th) s = out { a := some ((a + 2 ^ w - b) % 2 ^ w), v := !fitsS w (sval w a - sval w b) }) ∧
      (n = 0x0C → exec (.sbc th) s = out {
        a := some ((a + 2 ^ (w + 1) - b - e % 2) % 2 ^ w), e := some (if a < b + e % 2 then 1 else 0)
        v := !fitsS w (sval w a - sval w b - (e % 2 : Nat)) }) ∧
      (n = 0x0D → exec (.neg th) s = out { a := some ((2 ^ w - b) % 2 ^ w), v := b = 2 ^ (w - 1) }) ∧
      (n = 0x0E → exec (.abs th) s = out { a := some (if b < 2 ^ (w - 1) then b else 2 ^ w - b), v := b = 2 ^ (w - 1) }) ∧
      (n = 0x0F → exec (.mul th) s = out { a := some (ofInt w p), e := some (ofInt (2 * w) p / 2 ^ w), v := !fitsS w p }) ∧
      (n = 0x10 → exec (.mulu th) s = out { a := some (a * b % 2 ^ w), e := some (a * b / 2 ^ w) }) ∧
      (n = 0x11 → exec (.div th) s = out (
        if b = 0 then { a := some (2 ^ w - 1), e := some a, dz := true }
        else if a = 2 ^ (w - 1) ∧ b = 2 ^ w - 1 then { a := some a, e := some 0, v := true }
        else { a := some (ofInt w ((sval w a).tdiv (sval w b))), e := some (ofInt w ((sval w a).tmod (sval w b))) })) ∧
      (n = 0x12 → exec (.divu th) s = out (
        if b = 0 then { a := some (2 ^ w - 1), e := some a, dz := true } else { a := some (a / b), e := some (a % b) })) ∧
      (n = 0x13 → exec (.and th) s = out { a := some (a &&& b) }) ∧
      (n = 0x14 → exec (.or th) s = out { a := some (a ||| b) }) ∧
      (n = 0x15 → exec (.xor th) s = out { a := some (a ^^^ b) }) ∧
      (n = 0x16 → exec (.shl th) s = out { a := some (if v < w then a * 2 ^ v % 2 ^ w else 0) }) ∧
      (n = 0x17 → exec (.shr th) s = out { a := some (if v < w then a / 2 ^ v else 0) }) ∧
      (n = 0x18 → exec (.sar th) s = out { a := some (if v < w then ofInt w (sval w a / (2 ^ v : Nat))
        else if a < 2 ^ (w - 1) then 0 else 2 ^ w - 1) }) ∧
      (n = 0x19 → exec (.rol th) s = out { a := some ((a * 2 ^ (v % w) + a / 2 ^ (w - v % w)) % 2 ^ w) }) ∧
      (n = 0x1A → exec (.ror th) s = out { a := some ((a / 2 ^ (v % w) + a * 2 ^ (w - v % w)) % 2 ^ w) }) ∧
      (n = 0x1B → exec (.bfx th) s = out { a := some (aluBfx x.a.toNat v) }) ∧
      (n = 0x1C → exec (.bfi th) s = out { a := some (aluBfi x.a.toNat e v) }) ∧
      (n = 0x1D → c.i.sz = 1 → exec (.bswap th) s = out { a := some (b % 256 * 256 + b / 256) }) ∧
      (n = 0x1D → c.i.sz = 2 → exec (.bswap th) s = out { a := some (
        b % 256 * 2 ^ 24 + b / 256 % 256 * 2 ^ 16 + b / 2 ^ 16 % 256 * 256 + b / 2 ^ 24) }) ∧
      (n = 0x33 → exec (.crc th) s = out { e := some (aluCrc (nbits c.i.opd 5 4) w e b) }) ∧
      (n = 0x34 → exec (.hash th) s = out { a := some (aluHash x.a.toNat v) })) ∧
    (n = 0x21 → exec (.cmpEq th) s = cmp (a = b)) ∧ (n = 0x22 → exec (.cmpNe th) s = cmp (a ≠ b)) ∧
    (n = 0x23 → exec (.cmpLt th) s = cmp (sval w a < sval w b)) ∧ (n = 0x24 → exec (.cmpGe th) s = cmp (sval w b ≤ sval w a)) ∧
    (n = 0x25 → exec (.cmpLe th) s = cmp (sval w a ≤ sval w b)) ∧ (n = 0x26 → exec (.cmpGt th) s = cmp (sval w b < sval w a)) ∧
    (n = 0x27 → exec (.cmpLo th) s = cmp (a < b)) ∧ (n = 0x28 → exec (.cmpHs th) s = cmp (b ≤ a)) ∧
    (n = 0x29 → exec (.cmpLs th) s = cmp (a ≤ b)) ∧ (n = 0x2A → exec (.cmpHi th) s = cmp (b < a)) ∧
    (n = 0x2B → exec (.cmpVa th) s = cmp (!fitsS w (sval w a + sval w b))) ∧
    (n = 0x2C → exec (.cmpVs th) s = cmp (!fitsS w (sval w a - sval w b))) ∧ (n = 0x2D → exec (.tst th) s = cmp (a &&& b ≠ 0))

/-- Stores, address forms, predicates and transfers of Uzoath (R36, R55, R58, R69, R75 to R77, R88 to R93), under a true guard: a store
writes its register's low bits to local memory or to the named register, or posts them through an unordered window while fewer than eight are
posted; XCH swaps A with a local word or a register; LEA loads the effective address; the predicate forms write theirs; BR, CALL and RET go
to their targets, and the trap return from a frame in local memory restores PC, ST and S; TRAP raises cause 11 after completion; REP repeats
the next instruction K times, or with K = 0 passes it, one outside instruction memory as one word (log entry 55). -/
def Obligations.UzoathMovesAndTransfers : Prop :=
  ∀ (th : ThreadRef) (s : State) (c : Uz), s.nextInsn th = some c → c.guard s = true →
    let x := s.uz c
    let w := c.i.width
    let n := c.i.op
    let m := (c.opnd s).2
    let upd := fun (u : State) (f : Thread → Thread) => (.next (u.modUz c f) : Host.Outcome State Fault Refusal)
    let pr := fun (k neg : Nat) => x.pred k != c.i.opd.testBit neg
    let pp := fun (t : Bool) => upd s fun x => (x.setPred (nbits c.i.opd 14 12) t).advance c.next
    (∀ ea a, (c.opnd s).1 = .ea ea → place c.th x ea (w / 8) true = .ok (.here a) →
      (n = 0x02 → exec (.st th) s = upd (s.wm a (w / 8) (x.a.toNat % 2 ^ w)) fun x => (m x).advance c.next) ∧
      (n = 0x04 → exec (.stx th) s = upd (s.wm a (w / 8) (x.x.toNat % 2 ^ w)) fun x => (m x).advance c.next) ∧
      (n = 0x06 → exec (.sty th) s = upd (s.wm a (w / 8) (x.y.toNat % 2 ^ w)) fun x => (m x).advance c.next) ∧
      (n = 0x08 → exec (.xch th) s = upd (s.wm a (w / 8) (x.a.toNat % 2 ^ w)) fun x =>
        ({ (m x) with a := wd (s.rm a (w / 8)) }).advance c.next)) ∧
    (∀ ea d, (c.opnd s).1 = .ea ea → place c.th x ea (w / 8) true = .ok (.dev d false) → x.posted.length < 8 → x.postHold = false →
      let post := fun (v : Nat) => upd (s.modUz c fun y => { y with
        posted := y.posted ++ [{ core := ea, dev := d, size := w / 8, val := v }] }) fun x => (m x).advance c.next
      (n = 0x02 → exec (.st th) s = post (x.a.toNat % 2 ^ w)) ∧ (n = 0x04 → exec (.stx th) s = post (x.x.toNat % 2 ^ w)) ∧
      (n = 0x06 → exec (.sty th) s = post (x.y.toNat % 2 ^ w))) ∧
    (∀ r, (c.opnd s).1 = .reg r →
      (n = 0x02 → x.privileged r (x.a.toNat % 2 ^ w) = false → exec (.st th) s = upd s fun y =>
        (y.setReg r (x.a.toNat % 2 ^ w)).advance c.next) ∧
      (n = 0x04 → x.privileged r (x.x.toNat % 2 ^ w) = false → exec (.stx th) s = upd s fun y =>
        (y.setReg r (x.x.toNat % 2 ^ w)).advance c.next) ∧
      (n = 0x06 → x.privileged r (x.y.toNat % 2 ^ w) = false → exec (.sty th) s = upd s fun y =>
        (y.setReg r (x.y.toNat % 2 ^ w)).advance c.next) ∧
      (n = 0x08 → x.privileged r (x.a.toNat % 2 ^ w) = false → exec (.xch th) s = upd s fun y =>
        ({ (y.setReg r (x.a.toNat % 2 ^ w)) with a := wd (x.reg c.th.thr.val c.next r % 2 ^ w) }).advance c.next)) ∧
    (∀ ea, (c.opnd s).1 = .ea ea → n = 0x07 → exec (.lea th) s = upd s fun x => ({ (m x) with a := wd ea }).advance c.next) ∧
    (n = 0x1E → exec (.pand th) s = pp (pr (nbits c.i.opd 10 8) 11 && pr (nbits c.i.opd 6 4) 7)) ∧
    (n = 0x1F → exec (.pior th) s = pp (pr (nbits c.i.opd 10 8) 11 || pr (nbits c.i.opd 6 4) 7)) ∧
    (n = 0x20 → exec (.pxor th) s = pp (pr (nbits c.i.opd 10 8) 11 != pr (nbits c.i.opd 6 4) 7)) ∧
    (∀ t, c.target s = t → c.badTarget t = false →
      (n = 0x2E → exec (.br th) s = upd s fun x => { x with pc := t }) ∧
      (∀ u, n = 0x2F → c.store s (x.sp - 4).toNat 4 c.next = .ok u →
        exec (.call th) s = upd u fun x => { x with sp := wd ((s.uz c).sp - 4).toNat, pc := t })) ∧
    (∀ u t, n = 0x30 → c.i.opd = 0 → c.load s x.sp.toNat 4 = .ok (u, t) → c.badTarget t = false →
      exec (.ret th) s = upd u fun x => { x with sp := wd ((s.uz c).sp.toNat + 4), pc := t }) ∧
    (∀ a, n = 0x30 → c.i.opd = 1 → x.system = true → x.sp.toNat % 16 = 0 → x.sp.toNat + 16 ≤ c.th.data.2 →
      c.th.data.1 + x.sp.toNat = a → c.badTarget (s.rm a 4) = false →
      let left := nbits (s.rm (a + 8) 4) 31 16
      let again := (s.rm (a + 8) 4).testBit 9 && left != 0
      exec (.retTrap th) s = upd s fun x => { x with
        sp := wd (x.sp.toNat + 16), st := wd (s.rm (a + 4) 4) &&& stMask
        pc := if again then (s.rm a 4 + 4) % 2 ^ 32 else s.rm a 4
        rep := if again then some { left := left, pc := s.rm a 4 } else none }) ∧
    (n = 0x31 → exec (.trap th) s = .next ((s.modUz c fun x => x.advance c.next).trapAfter c.th 11 c.pc)) ∧
    (n = 0x32 → x.k ≠ 0 → exec (.rep th) s = upd s fun y => { y with rep := some { left := x.k.toNat, pc := c.pc }, pc := c.next }) ∧
    (n = 0x32 → x.k = 0 →
      (∀ word, s.fetchWord c.th c.next = some word →
        exec (.rep th) s = upd s fun x => { x with pc := (c.next + if (Insn.ofWord word).hasExt then 8 else 4) % 2 ^ 32 }) ∧
      (s.fetchWord c.th c.next = none → exec (.rep th) s = upd s fun x => { x with pc := (c.next + 4) % 2 ^ 32 }))

/-- Uzoath's copies, atomics, waits and work items (R61, R97 to R106, R108, R148), under a true guard: FETCH of nothing writes its
completion word, any other takes one of four copy slots and goes on; FADD and CAS on local memory are one read and write; FENCE waits
for what is outstanding; GETW, ENQ and CANCEL park for SCHED and DONE hands its disposition over; WAITEV with a timeout of 0 and no event
returns at once, any other waits for what may be delivered at once; SEQW writes one step of a bank. What Uzoath's threads have
outstanding ends later (R57 to R60, R66, R68, R97, R98, R106): the response of a parked access completes or traps the instruction, and a frame
that an ordered window held back is stored once nothing is outstanding; a posted store with none before it to its word reaches its
target, one that meets no target leaves an imprecise trap with cause 7; a copy that its window's order does not hold moves its bytes and then
writes its completion word, or leaves an imprecise trap and the error; a WAITEV times out with A and E at 0. -/
def Obligations.UzoathSystemOperations : Prop :=
  (∀ (th : ThreadRef) (s : State) (c : Uz), s.nextInsn th = some c → c.guard s = true →
    let x := s.uz c
    let n := c.i.op
    let m := (c.opnd s).2
    let len := fld x.e 8 0
    let tile := c.th.tile.val
    let upd := fun (u : State) (f : Thread → Thread) => (.next (u.modUz c f) : Host.Outcome State Fault Refusal)
    (∀ ea, n = 0x35 → (c.opnd s).1 = .ea ea → c.fetchFault s ea = none →
      (len = 0 → exec (.fetch th) s = upd (s.wm (c.th.data.1 + 4 * fld x.e 31 16) 4 (2 ^ 31)) fun x => (m x).advance c.next) ∧
      (len ≠ 0 → x.copies.length < 4 → ea < 2 ^ 31 → exec (.fetch th) s = upd s fun y => { ((m y).advance c.next) with
        copies := y.copies ++ [⟨ea, c.localAddr ea, false, true, x.a.toNat, len, 4 * fld x.e 31 16, 0⟩] }) ∧
      (len ≠ 0 → x.copies.length < 4 → 2 ^ 31 ≤ ea →
        let ord := bit (x.w (ea / 2 ^ 29 % 4)) 2
        exec (.fetch th) s = upd s fun y => { ((m y).advance c.next) with copies := y.copies ++
          [⟨ea, window x ea, ord, false, x.a.toNat, len, 4 * fld x.e 31 16, if ord then x.posted.length else 0⟩] })) ∧
    (∀ ea a, (c.opnd s).1 = .ea ea → place c.th x ea 4 true = .ok (.here a) →
      (n = 0x36 → exec (.fadd th) s = upd (s.wm a 4 ((s.rm a 4 + x.a.toNat) % 2 ^ 32)) fun x =>
        ({ (m x) with a := wd (s.rm a 4) }).advance c.next) ∧
      (n = 0x37 → exec (.cas th) s = upd (if s.rm a 4 = x.e.toNat then s.wm a 4 x.a.toNat else s) fun x =>
        ({ (m x) with a := wd (s.rm a 4) }).advance c.next)) ∧
    (n = 0x38 → (x.posted = [] → x.copies = [] → exec (.fence th) s = upd s fun x => x.advance c.next) ∧
      (x.posted ≠ [] ∨ x.copies ≠ [] → exec (.fence th) s = upd s fun x => { x with run := .fence })) ∧
    (∀ ea, n = 0x39 → (c.opnd s).1 = .ea ea → ea % 4 = 0 → ea + 32 ≤ c.th.data.2 → c.th.data.2 ≤ 2 ^ 31 →
      exec (.getw th) s = .next { (s.modUz c fun x => { ((m x).advance c.next) with run := .getw ea s.order }) with
        order := s.order + 1 }) ∧
    (∀ u v, c.value s 32 (c.opnd s).1 = .ok (u, v) →
      (n = 0x3A → ∀ h, (u.uz c).item = some h → ∃ t, exec (.done th) s = .next t ∧ (t.uz c).item = none ∧
        t.sched.dones = u.sched.dones ++ [{ handle := h, disp := wd v, key := c.th.key, waits := (u.uz c).posted.length }] ∧
        (∀ a, t.rd a = u.rd a) ∧ ∀ a, t.rb a = u.rb a) ∧
      (n = 0x3C → ∃ t, exec (.cancel th) s = .next t ∧ (t.uz c).run = .cancel ∧
        t.sched.cancels = u.sched.cancels ++ [(c.th.key, v)] ∧ (∀ a, t.rd a = u.rd a) ∧ ∀ a, t.rb a = u.rb a) ∧
      (n = 0x3D →
        (v = 0 → tget (fun _ => []) u.evtIn tile = [] →
          exec (.waitev th) s = upd u fun x => { (x.advance c.next) with a := 0, e := 0 }) ∧
        (v ≠ 0 ∨ tget (fun _ => []) u.evtIn tile ≠ [] →
          let due := if v = 0xFFFFFFFF then none else some (u.clock + (v * 500 + uzMhz tile - 1) / uzMhz tile)
          let t : State := { (u.modUz c fun x => { (x.advance c.next) with run := .waitev u.order due }) with order := u.order + 1 }
          exec (.waitev th) s = .next (t.evtDeliver tile)))) ∧
    (∀ ea u words, n = 0x3B → (c.opnd s).1 = .ea ea → c.loads ea 8 s = .ok (u, words) → ∃ t, exec (.enq th) s = .next t ∧
      (t.uz c).run = .enq (c.i.opd % 8) ∧ t.sched.enqs = u.sched.enqs ++ [(c.th.key, words)] ∧ (∀ a, t.rd a = u.rd a) ∧
      ∀ a, t.rb a = u.rb a) ∧
    (∀ ea u words, n = 0x3E → (c.opnd s).1 = .ea ea → c.loads ea 4 s = .ok (u, words) → exec (.seqw th) s =
      upd (u.bankWrite (tile - 2) (fld (u.uz c).a 10 10) (16 * fld (u.uz c).a 9 0) (words.flatMap (le 4))) fun x => (m x).advance c.next)) ∧
  (∀ (th : ThreadRef) (k : Fin 8) (j : Fin 4) (err : Bool) (s : State),
    let x := s.thread th.key
    (∀ word ext, x.run = .resp word ext →
      let c : Uz := { th := th, i := Insn.ofWord word, ext := ext, pc := x.pc, arrived := true, dataErr := err }
      let s1 := s.setThread th.key { x with run := .running }
      (∀ u, c.body s1 = .ok (u, 0) → exec (.threadResponseArrive th err) s = .next u) ∧
      (∀ u cause, cause ≠ 0 → c.body s1 = .ok (u, cause) →
        exec (.threadResponseArrive th err) s = .next (u.trapAfter th cause x.pc)) ∧
      (∀ u cause addr, c.body s1 = .error (.trap u cause addr) →
        exec (.threadResponseArrive th err) s = .next (u.trapBefore th cause addr false))) ∧
    (∀ cause addr saved info, x.run = .frame cause addr saved info → x.devBusy = false →
      exec (.threadResponseArrive th err) s =
        .next ((s.setThread th.key { x with run := .running }).trapEnter th cause addr saved info)) ∧
    (∀ p, x.posted[k.val]? = some p → (∀ q ∈ x.posted.take k.val, q.dev / 4 ≠ p.dev / 4) →
      let r := s.busWrite (.tile th.tile) p.dev (le p.size p.val)
      let y := r.1.thread th.key
      exec (.postedStoreComplete th k) s = .next (((r.1.setThread th.key { y with
        posted := dropNth k.val y.posted
        postHold := y.postHold && k.val != 0
        copies := y.copies.map fun (q : CopySlot) => if k.val < q.waits then { q with waits := q.waits - 1 } else q
        traps := if r.2 = .decode then y.traps ++ [{ cause := 7, addr := p.core, posted := true }] else y.traps }).postedDone
        th.key k.val).fenceCheck th)) ∧
    (∀ q, x.copies[j.val]? = some q → q.isLocal = true → q.ordSrc = false →
      exec (.fetchCopyComplete th j err) s = .next ((((s.setThread th.key { x with copies := dropNth j.val x.copies }).wbytes
        (th.data.1 + q.dst) (s.rbytes q.devSrc q.len)).wm (th.data.1 + q.compl) 4 (2 ^ 31 + q.len)).fenceCheck th)) ∧
    (∀ q, x.copies[j.val]? = some q → q.isLocal = false →
      (q.ordSrc = true → q.waits = 0 ∧ ∀ p ∈ x.copies.take j.val, p.isLocal = true) →
      let r := s.busRead (.tile th.tile) q.devSrc q.len
      let y := r.1.thread th.key
      (r.2.1 = .ok → err = false →
        exec (.fetchCopyComplete th j err) s = .next ((((r.1.setThread th.key { y with copies := dropNth j.val y.copies }).wbytes
          (th.data.1 + q.dst) r.2.2).wm (th.data.1 + q.compl) 4 (2 ^ 31 + q.len)).fenceCheck th)) ∧
      (r.2.1 ≠ .ok →
        exec (.fetchCopyComplete th j err) s = .next (((r.1.setThread th.key { y with
          copies := dropNth j.val y.copies
          traps := y.traps ++ [{ cause := if r.2.1 = .decode then 7 else 8, addr := q.coreSrc, posted := false }] }).wm
            (th.data.1 + q.compl) 4 (2 ^ 31 + 2 ^ 30)).fenceCheck th))) ∧
    (∀ since due, x.run = .waitev since (some due) → due ≤ s.clock →
      exec (.waitevTimeout th) s = .next (s.setThread th.key { x with a := 0, e := 0, run := .running })))
end

