-- ==== Sys2Proof/Laws/Tbl.lean ====
section
/-! SUPPORT. Laws of the sparse tables: a read after a write, and that every operation keeps the canonical form. -/

namespace Sys2Proof.Machine

variable {α : Type}

theorem tget_terase_ne (d : Nat → α) (m : Tbl α) {k j : Nat} (h : j ≠ k) : tget d (terase m k) j = tget d m j := by
  induction m with
  | nil => rfl
  | cons p m ih =>
    obtain ⟨i, v⟩ := p
    by_cases hi : i = k
    · subst hi; simp only [terase, List.filter, bne_self_eq_false] at ih ⊢; rw [ih]; simp [tget, h]
    · have : (i != k) = true := by simp [hi]
      simp only [terase, List.filter, this, tget] at ih ⊢; rw [ih]

theorem tget_terase_self (d : Nat → α) (m : Tbl α) (k : Nat) : tget d (terase m k) k = d k := by
  induction m with
  | nil => rfl
  | cons p m ih =>
    obtain ⟨i, v⟩ := p
    by_cases hi : i = k
    · subst hi; simpa [terase, List.filter] using ih
    · have : (i != k) = true := by simp [hi]
      simp only [terase, List.filter, this, tget] at ih ⊢; rw [ih]; simp [Ne.symm hi]

theorem tget_tinsert_self (d : Nat → α) (m : Tbl α) (k : Nat) (v : α)
    (hk : ∀ p ∈ m, p.1 ≠ k) : tget d (tinsert m k v) k = v := by
  induction m with
  | nil => simp [tinsert, tget]
  | cons p m ih =>
    obtain ⟨i, w⟩ := p
    have hi : i ≠ k := hk (i, w) (by simp)
    by_cases hlt : k < i
    · simp [tinsert, hlt, tget]
    · simp only [tinsert, hlt, if_false, tget, if_neg (Ne.symm hi)]
      exact ih fun q hq => hk q (by simp [hq])

theorem tget_tinsert_ne (d : Nat → α) (m : Tbl α) {k j : Nat} (v : α) (h : j ≠ k) :
    tget d (tinsert m k v) j = tget d m j := by
  induction m with
  | nil => simp [tinsert, tget, h]
  | cons p m ih =>
    obtain ⟨i, w⟩ := p
    by_cases hlt : k < i
    · simp [tinsert, hlt, tget, h]
    · simp only [tinsert, hlt, if_false, tget]; rw [ih]

theorem terase_ne (m : Tbl α) (k : Nat) : ∀ p ∈ terase m k, p.1 ≠ k := by
  intro p hp; simp [terase] at hp; exact hp.2

/-- A read of the key written gives the value written. -/
@[simp] theorem tget_tput_self [DecidableEq α] (d : Nat → α) (m : Tbl α) (k : Nat) (v : α) :
    tget d (tput d m k v) k = v := by
  unfold tput; split
  · rename_i h; rw [tget_terase_self, h]
  · exact tget_tinsert_self d _ k v (terase_ne m k)

/-- A write leaves every other key alone. -/
theorem tget_tput_ne [DecidableEq α] (d : Nat → α) (m : Tbl α) {k j : Nat} (v : α) (h : j ≠ k) :
    tget d (tput d m k v) j = tget d m j := by
  unfold tput; split
  · exact tget_terase_ne d m h
  · rw [tget_tinsert_ne d _ v h, tget_terase_ne d m h]

theorem tget_tput [DecidableEq α] (d : Nat → α) (m : Tbl α) (k j : Nat) (v : α) :
    tget d (tput d m k v) j = if j = k then v else tget d m j := by
  by_cases h : j = k
  · subst h; simp
  · simp [h, tget_tput_ne d m v h]

theorem twf_mono [DecidableEq α] (d : Nat → α) {lo lo' : Nat} (m : Tbl α) (h : lo' ≤ lo) (hw : twf d lo m = true) :
    twf d lo' m = true := by
  cases m with
  | nil => rfl
  | cons p m =>
    obtain ⟨k, v⟩ := p
    simp [twf] at hw ⊢; exact ⟨⟨by omega, hw.1.2⟩, hw.2⟩

/-- Leaving entries out keeps the canonical form. -/
theorem twf_filter [DecidableEq α] (d : Nat → α) (f : Nat × α → Bool) (lo : Nat) (m : Tbl α) (hw : twf d lo m = true) :
    twf d lo (m.filter f) = true := by
  induction m generalizing lo with
  | nil => rfl
  | cons p m ih =>
    obtain ⟨k, v⟩ := p
    simp [twf] at hw
    by_cases hf : f (k, v) = true
    · simp [List.filter, hf, twf]; exact ⟨hw.1, ih _ hw.2⟩
    · simp only [Bool.not_eq_true] at hf; simp only [List.filter, hf]
      exact twf_mono d _ (by omega : lo ≤ k + 1) (ih _ hw.2)

theorem twf_terase [DecidableEq α] (d : Nat → α) (lo : Nat) (m : Tbl α) (k : Nat) (hw : twf d lo m = true) :
    twf d lo (terase m k) = true := twf_filter d _ lo m hw

theorem twf_tclear [DecidableEq α] (d : Nat → α) (lo : Nat) (m : Tbl α) (a n : Nat) (hw : twf d lo m = true) :
    twf d lo (tclear m a n) = true := twf_filter d _ lo m hw

theorem twf_tinsert [DecidableEq α] (d : Nat → α) (m : Tbl α) (k : Nat) (v : α) (hv : v ≠ d k)
    (hne : ∀ p ∈ m, p.1 ≠ k) (lo : Nat) (hlo : lo ≤ k) (hw : twf d lo m = true) : twf d lo (tinsert m k v) = true := by
  induction m generalizing lo with
  | nil => simp [tinsert, twf, hv, hlo]
  | cons p m ih =>
    obtain ⟨i, w⟩ := p
    have hi : i ≠ k := hne (i, w) (by simp)
    simp [twf] at hw
    by_cases hlt : k < i
    · simp [tinsert, hlt, twf, hv, hlo, hw, Nat.succ_le_of_lt hlt]
    · simp only [tinsert, hlt, if_false, twf, Bool.and_eq_true, decide_eq_true_eq]
      exact ⟨hw.1, ih (fun q hq => hne q (by simp [hq])) (i + 1) (by omega) hw.2⟩

/-- A write keeps the canonical form. -/
theorem twf_tput [DecidableEq α] (d : Nat → α) (m : Tbl α) (k : Nat) (v : α) (hw : twf d 0 m = true) :
    twf d 0 (tput d m k v) = true := by
  unfold tput; split
  · exact twf_terase d 0 m k hw
  · rename_i h; exact twf_tinsert d _ k v h (terase_ne m k) 0 (Nat.zero_le _) (twf_terase d 0 m k hw)

/-- A cleared range reads as unwritten. -/
theorem tget_tclear (d : Nat → α) (m : Tbl α) (lo n k : Nat) :
    tget d (tclear m lo n) k = if lo ≤ k ∧ k < lo + n then d k else tget d m k := by
  induction m with
  | nil => simp [tclear, tget]
  | cons p m ih =>
    obtain ⟨i, v⟩ := p
    simp only [tclear] at ih ⊢
    by_cases hi : lo ≤ i ∧ i < lo + n
    · have : (!(decide (lo ≤ i) && decide (i < lo + n))) = false := by simp [hi.1, hi.2]
      simp only [List.filter, this, ih, tget]
      by_cases hk : k = i
      · subst hk; simp [hi]
      · simp [hk]
    · have : (!(decide (lo ≤ i) && decide (i < lo + n))) = true := by
        simp only [Bool.not_eq_true', Bool.and_eq_false_iff, decide_eq_false_iff_not]; omega
      simp only [List.filter, this, tget, ih]
      by_cases hk : k = i
      · subst hk; simp [hi]
      · simp [hk]

end Sys2Proof.Machine
end

