-- ==== Sys2Proof/Laws/Keeps.lean ====
section
/-! SUPPORT. What every command leaves alone: the queue of waiting commands and the clock stay, and memory and the register file keep
their canonical form. One lemma per operation of the model. -/

namespace Sys2Proof.Machine

/-- From `s` to `t` the queue and the clock stay, and memory and registers stay canonical. -/
structure Keeps (s t : State) : Prop where
  pending : t.pending = s.pending
  clock : t.clock = s.clock
  canon : s.Canonical → t.Canonical

@[simp] theorem Keeps.refl (s : State) : Keeps s s := ⟨rfl, rfl, id⟩
theorem Keeps.trans {a s t : State} (h : Keeps a s) (k : Keeps s t) : Keeps a t :=
  ⟨k.pending.trans h.pending, k.clock.trans h.clock, fun c => k.canon (h.canon c)⟩
/-- A record update of other fields. -/
@[simp] theorem Keeps.mk_ {a s : State} (h : Keeps a s) (f ti ms th e o tk tr mi lu p mx mf mp mst se ra st ml fa tm ci wi ne cl sc su cy hi wr hu mg) :
    Keeps a (State.mk s.clock f s.regs s.mem ti ms th e o tk tr mi lu p mx mf mp mst se ra st ml fa tm ci wi ne cl sc su cy hi wr
      hu mg s.pending) := h.trans ⟨rfl, rfl, id⟩
@[simp] theorem Keeps.ite {a s t : State} (c : Prop) [Decidable c] :
    Keeps a (if c then s else t) ↔ if c then Keeps a s else Keeps a t := by split <;> rfl
@[simp] theorem Keeps.ite_fst {β : Type} {a : State} {s t : State × β} (c : Prop) [Decidable c] :
    Keeps a (if c then s else t).1 ↔ if c then Keeps a s.1 else Keeps a t.1 := by split <;> rfl
theorem Keeps.ite_of {a s t : State} {c : Prop} [Decidable c] (hs : Keeps a s) (ht : Keeps a t) : Keeps a (if c then s else t) := by
  split <;> assumption
@[simp] theorem Keeps.foldl {α : Type} {f : State → α → State} {a s : State} (h : Keeps a s) {l : List α}
    (hf : ∀ t x, Keeps a t → Keeps a (f t x)) : Keeps a (l.foldl f s) := by
  induction l generalizing s with
  | nil => exact h
  | cons x l ih => exact ih (hf s x h)
@[simp] theorem Keeps.foldl_fst {α β : Type} {f : State × β → α → State × β} {a : State} {s : State × β} (h : Keeps a s.1)
    {l : List α} (hf : ∀ t x, Keeps a t.1 → Keeps a (f t x).1) : Keeps a (l.foldl f s).1 := by
  induction l generalizing s with
  | nil => exact h
  | cons x l ih => exact ih (hf s x h)
theorem Keeps.getD {a s : State} {o : Option State} (h : Keeps a s) (ho : ∀ t, o = some t → Keeps a t) : Keeps a (o.getD s) := by
  cases o with
  | none => exact h
  | some t => exact ho t rfl
@[simp] theorem State.wr_keeps {z0 s : State} (hz : Keeps z0 s) (a : RegId) (v : Word) : Keeps z0 (s.wr a v) :=
  hz.trans ⟨rfl, rfl, fun c => ⟨c.1, twf_tput _ _ _ _ c.2⟩⟩
@[simp] theorem State.wb_keeps {z0 s : State} (hz : Keeps z0 s) (a : Nat) (v : Byte) : Keeps z0 (s.wb a v) :=
  hz.trans ⟨rfl, rfl, fun c => ⟨twf_tput _ _ _ _ c.1, c.2⟩⟩
@[simp] theorem State.clearMem_keeps {z0 s : State} (hz : Keeps z0 s) (a n : Nat) : Keeps z0 (s.clearMem a n) :=
  hz.trans ⟨rfl, rfl, fun c => ⟨twf_tclear _ _ _ _ _ c.1, c.2⟩⟩

open Reg

/-! Ops. -/

@[simp] theorem State.wf_keeps {z0 s : State} (hz : Keeps z0 s) (a : RegId) (hi lo v : Nat) :
    Keeps z0 (State.wf s a hi lo v) := by simp +contextual (maxDischargeDepth := 99) [State.wf, hz]
@[simp] theorem State.sat_keeps {z0 s : State} (hz : Keeps z0 s) (a : RegId) (hi lo n : Nat) :
    Keeps z0 (State.sat s a hi lo n) := by simp +contextual (maxDischargeDepth := 99) [State.sat, hz]

@[simp] theorem State.wm_keeps {z0 s : State} (hz : Keeps z0 s) (a n v : Nat) : Keeps z0 (s.wm a n v) := by
  induction n generalizing s a v with
  | zero => assumption
  | succ n ih => exact ih (State.wb_keeps hz ..) ..
@[simp] theorem State.wbytes_keeps {z0 s : State} (hz : Keeps z0 s) (a : Nat) (l : List Byte) : Keeps z0 (s.wbytes a l) := by
  induction l generalizing s a with
  | nil => assumption
  | cons b l ih => exact ih (State.wb_keeps hz ..) ..
@[simp] theorem State.wwords_keeps {z0 s : State} (hz : Keeps z0 s) (a : Nat) (l : List Nat) : Keeps z0 (s.wwords a l) := by
  induction l generalizing s a with
  | nil => assumption
  | cons b l ih => exact ih (State.wm_keeps hz ..) ..

@[simp] theorem State.took_keeps {z0 s : State} (hz : Keeps z0 s) :
    Keeps z0 (State.took s) := by simp +contextual (maxDischargeDepth := 99) [State.took, hz]
@[simp] theorem State.setTile_keeps {z0 s : State} (hz : Keeps z0 s) (t : Nat) (x : Tile) :
    Keeps z0 (State.setTile s t x) := by simp +contextual (maxDischargeDepth := 99) [State.setTile, hz]
@[simp] theorem State.modTile_keeps {z0 s : State} (hz : Keeps z0 s) (t : Nat) (f : Tile → Tile) :
    Keeps z0 (State.modTile s t f) := by simp +contextual (maxDischargeDepth := 99) [State.modTile, hz]
@[simp] theorem State.sendMsix_keeps {z0 s : State} (hz : Keeps z0 s) (v : Nat) :
    Keeps z0 (State.sendMsix s v) := by simp +contextual (maxDischargeDepth := 99) [State.sendMsix, hz]
@[simp] theorem State.sendEvt_keeps {z0 s : State} (hz : Keeps z0 s) (t : Nat) :
    Keeps z0 (State.sendEvt s t) := by simp +contextual (maxDischargeDepth := 99) [State.sendEvt, hz]
@[simp] theorem State.setEvtWords_keeps {z0 s : State} (hz : Keeps z0 s) (t : Nat) (pend mask : Word) :
    Keeps z0 (State.setEvtWords s t pend mask) := by simp +contextual (maxDischargeDepth := 99) [State.setEvtWords, hz]
@[simp] theorem State.evtBits_keeps {z0 s : State} (hz : Keeps z0 s) (t : Nat) (bits : Word) :
    Keeps z0 (State.evtBits s t bits) := by simp +contextual (maxDischargeDepth := 99) [State.evtBits, hz]
@[simp] theorem State.evt_keeps {z0 s : State} (hz : Keeps z0 s) (t n : Nat) :
    Keeps z0 (State.evt s t n) := by simp +contextual (maxDischargeDepth := 99) [State.evt, hz]
@[simp] theorem State.logRec_keeps {z0 s : State} (hz : Keeps z0 s) (tile kind code d0 d1 d2 d3 : Nat) :
    Keeps z0 (State.logRec s tile kind code d0 d1 d2 d3) := by simp +contextual (maxDischargeDepth := 99) [State.logRec, hz]
@[simp] theorem State.wdLoad_keeps {z0 s : State} (hz : Keeps z0 s) (k : Nat) :
    Keeps z0 (State.wdLoad s k) := by simp +contextual (maxDischargeDepth := 99) [State.wdLoad, hz]
@[simp] theorem State.wdStop_keeps {z0 s : State} (hz : Keeps z0 s) (k : Nat) :
    Keeps z0 (State.wdStop s k) := by unfold State.wdStop; split <;> simp +contextual (maxDischargeDepth := 99) [hz]
@[simp] theorem State.wdSync_keeps {z0 s : State} (hz : Keeps z0 s) (t : Nat) :
    Keeps z0 (State.wdSync s t) := by unfold State.wdSync; split <;> simp +contextual (maxDischargeDepth := 99) [hz]
@[simp] theorem State.setLife_keeps {z0 s : State} (hz : Keeps z0 s) (t : Nat) (l : Life) :
    Keeps z0 (State.setLife s t l) := by simp +contextual (maxDischargeDepth := 99) [State.setLife, hz]
@[simp] theorem State.postReq_keeps {z0 s : State} (hz : Keeps z0 s) (t code : Nat) (tag : Tag) :
    Keeps z0 (State.postReq s t code tag) := by simp +contextual (maxDischargeDepth := 99) [State.postReq, hz]
@[simp] theorem State.enterFault_keeps {z0 s : State} (hz : Keeps z0 s) (t : Nat) :
    Keeps z0 (State.enterFault s t) := by simp +contextual (maxDischargeDepth := 99) [State.enterFault, hz]
@[simp] theorem State.recordErr_keeps {z0 s : State} (hz : Keeps z0 s) (t cause unit detail addr : Nat) (fatal : Bool) :
    Keeps z0 (State.recordErr s t cause unit detail addr fatal) := by simp +contextual (maxDischargeDepth := 99) [State.recordErr, hz]
@[simp] theorem State.earlyWrite_keeps {z0 s : State} (hz : Keeps z0 s) (t : Nat) :
    Keeps z0 (State.earlyWrite s t) := by simp +contextual (maxDischargeDepth := 99) [State.earlyWrite, hz]
@[simp] theorem State.earlyRead_keeps {z0 s : State} (hz : Keeps z0 s) (t : Nat) :
    Keeps z0 (State.earlyRead s t) := by simp +contextual (maxDischargeDepth := 99) [State.earlyRead, hz]
@[simp] theorem State.onWrite_keeps {z0 s : State} (hz : Keeps z0 s) (by_ : Req) (t : Nat) (f : State → State) (hf : ∀ z t, Keeps z t → Keeps z (f t)) :
    Keeps z0 (State.onWrite s by_ t f) := by unfold State.onWrite; (repeat' split) <;> simp +contextual (maxDischargeDepth := 99) [*]
@[simp] theorem State.reqDrop_keeps {z0 s : State} (hz : Keeps z0 s) (t : Nat) :
    Keeps z0 (State.reqDrop s t) := by simp +contextual (maxDischargeDepth := 99) [State.reqDrop, hz]
@[simp] theorem State.corrInc_keeps {z0 s : State} (hz : Keeps z0 s) (t : Nat) :
    Keeps z0 (State.corrInc s t) := by simp +contextual (maxDischargeDepth := 99) [State.corrInc, hz]
@[simp] theorem State.uncorrInc_keeps {z0 s : State} (hz : Keeps z0 s) (t : Nat) :
    Keeps z0 (State.uncorrInc s t) := by simp +contextual (maxDischargeDepth := 99) [State.uncorrInc, hz]
@[simp] theorem State.setThread_keeps {z0 s : State} (hz : Keeps z0 s) (k : Nat) (x : Thread) :
    Keeps z0 (State.setThread s k x) := by simp +contextual (maxDischargeDepth := 99) [State.setThread, hz]
@[simp] theorem State.mgmtThreads_keeps {z0 s : State} (hz : Keeps z0 s) :
    Keeps z0 (State.mgmtThreads s) := by simp +contextual (maxDischargeDepth := 99) [State.mgmtThreads, hz]
@[simp] theorem State.startThreads_keeps {z0 s : State} (hz : Keeps z0 s) (t e : Nat) (b : Word) (n : Nat) :
    Keeps z0 (s.startThreads t e b n) := by
  induction n with
  | zero => assumption
  | succ n ih => simp only [State.startThreads]; split <;> simp +contextual (maxDischargeDepth := 99) [*, ih]
@[simp] theorem State.runWrite_keeps {z0 s : State} (hz : Keeps z0 s) (by_ : Req) (tile n : Nat) (reg : RegId) (bits : Word) :
    Keeps z0 (State.runWrite s by_ tile n reg bits) := by simp +contextual (maxDischargeDepth := 99) [State.runWrite, hz]
@[simp] theorem State.pathBusy_keeps {z0 s : State} (hz : Keeps z0 s) (res : RegId) (tagLo : Nat) (tag : Tag) :
    Keeps z0 (State.pathBusy s res tagLo tag) := by simp +contextual (maxDischargeDepth := 99) [State.pathBusy, hz]
@[simp] theorem State.pathPost_keeps {z0 s : State} (hz : Keeps z0 s) (res : RegId) (tagLo : Nat) (tag : Tag) (rest : Nat) :
    Keeps z0 (State.pathPost s res tagLo tag rest) := by simp +contextual (maxDischargeDepth := 99) [State.pathPost, hz]
@[simp] theorem State.pathAck_keeps {z0 s : State} (hz : Keeps z0 s) (res : RegId) (tagLo : Nat) (tag : Tag) :
    Keeps z0 (State.pathAck s res tagLo tag) := by simp +contextual (maxDischargeDepth := 99) [State.pathAck, hz]

/-! Maint. -/

@[simp] theorem State.showGrant_keeps {z0 s : State} (hz : Keeps z0 s) (q : Token) :
    Keeps z0 (State.showGrant s q) := by unfold State.showGrant; split <;> simp +contextual (maxDischargeDepth := 99) [hz]
@[simp] theorem State.arbitrate_keeps {z0 s : State} (hz : Keeps z0 s) :
    Keeps z0 (State.arbitrate s) := by simp +contextual (maxDischargeDepth := 99) [State.arbitrate, hz]
@[simp] theorem State.askToken_keeps {z0 s : State} (hz : Keeps z0 s) (kind scope : Nat) :
    Keeps z0 (State.askToken s kind scope) := by simp +contextual (maxDischargeDepth := 99) [State.askToken, hz]
@[simp] theorem State.releaseToken_keeps {z0 s : State} (hz : Keeps z0 s) (kind scope : Nat) :
    Keeps z0 (State.releaseToken s kind scope) := by simp +contextual (maxDischargeDepth := 99) [State.releaseToken, hz]
@[simp] theorem State.spareAsk_keeps {z0 s : State} (hz : Keeps z0 s) (t : Nat) :
    Keeps z0 (State.spareAsk s t) := by simp +contextual (maxDischargeDepth := 99) [State.spareAsk, hz]
@[simp] theorem State.spareEnd_keeps {z0 s : State} (hz : Keeps z0 s) (t : Nat) (done : Bool) :
    Keeps z0 (State.spareEnd s t done) := by simp +contextual (maxDischargeDepth := 99) [State.spareEnd, hz]
@[simp] theorem State.setAxPend_keeps {z0 s : State} (hz : Keeps z0 s) (l : List AxReq) :
    Keeps z0 (State.setAxPend s l) := by simp +contextual (maxDischargeDepth := 99) [State.setAxPend, hz]
@[simp] theorem State.axAsk_keeps {z0 s : State} (hz : Keeps z0 s) (kind scope unit : Nat) :
    Keeps z0 (State.axAsk s kind scope unit) := by simp +contextual (maxDischargeDepth := 99) [State.axAsk, hz]
@[simp] theorem State.axEvidence_keeps {z0 s : State} (hz : Keeps z0 s) (kind scope unit window thr : Nat) :
    Keeps z0 (State.axEvidence s kind scope unit window thr) := by simp +contextual (maxDischargeDepth := 99) [State.axEvidence, hz]
@[simp] theorem State.axEnd_keeps {z0 s : State} (hz : Keeps z0 s) (q : AxReq) (spare code : Nat) :
    Keeps z0 (State.axEnd s q spare code) := by simp +contextual (maxDischargeDepth := 99) [State.axEnd, hz]
@[simp] theorem State.axEngEnd_keeps {z0 s : State} (hz : Keeps z0 s) (t spare code : Nat) :
    Keeps z0 (State.axEngEnd s t spare code) := by unfold State.axEngEnd; split <;> simp +contextual (maxDischargeDepth := 99) [hz]
@[simp] theorem State.ageToken_keeps {z0 s : State} (hz : Keeps z0 s) (n : Nat) :
    Keeps z0 (State.ageToken s n) := by simp +contextual (maxDischargeDepth := 99) [State.ageToken, hz]

/-! Store. -/

@[simp] theorem State.modStore_keeps {z0 s : State} (hz : Keeps z0 s) (f : Store → Store) :
    Keeps z0 (State.modStore s f) := by simp +contextual (maxDischargeDepth := 99) [State.modStore, hz]
@[simp] theorem State.errLog_keeps {z0 s : State} (hz : Keeps z0 s) (kind port addr : Nat) :
    Keeps z0 (State.errLog s kind port addr) := by simp +contextual (maxDischargeDepth := 99) [State.errLog, hz]
@[simp] theorem State.freeErr_keeps {z0 s : State} (hz : Keeps z0 s) (port addr : Nat) :
    Keeps z0 (State.freeErr s port addr) := by simp +contextual (maxDischargeDepth := 99) [State.freeErr, hz]
@[simp] theorem State.retirePage_keeps {z0 s : State} (hz : Keeps z0 s) (page : Nat) :
    Keeps z0 (State.retirePage s page) := by simp +contextual (maxDischargeDepth := 99) [State.retirePage, hz]
@[simp] theorem State.eccFail_keeps {z0 s : State} (hz : Keeps z0 s) (port addr : Nat) (isRead : Bool) :
    Keeps z0 (State.eccFail s port addr isRead) := by simp +contextual (maxDischargeDepth := 99) [State.eccFail, hz]
@[simp] theorem State.metaFail_keeps {z0 s : State} (hz : Keeps z0 s) (port addr : Nat) :
    Keeps z0 (State.metaFail s port addr) := by simp +contextual (maxDischargeDepth := 99) [State.metaFail, hz]
@[simp] theorem State.checkFail_keeps {z0 s : State} (hz : Keeps z0 s) (port addr : Nat) :
    Keeps z0 (State.checkFail s port addr) := by simp +contextual (maxDischargeDepth := 99) [State.checkFail, hz]
@[simp] theorem State.readFailed_keeps {z0 s : State} (hz : Keeps z0 s) (port : Nat) (q : Nat × Nat) :
    Keeps z0 (s.readFailed port q) := by
  unfold State.readFailed; split <;> simp +contextual (maxDischargeDepth := 99) [*]
@[simp] theorem State.storeRead_keeps {z0 s : State} (hz : Keeps z0 s) (port a n : Nat) :
    Keeps z0 (State.storeRead s port a n).1 := by unfold State.storeRead; (repeat' split) <;> simp +contextual (maxDischargeDepth := 99) [hz]
@[simp] theorem State.touchBlock_keeps {z0 s : State} (hz : Keeps z0 s) (port a n b : Nat) :
    Keeps z0 (State.touchBlock s port a n b) := by simp +contextual (maxDischargeDepth := 99) [State.touchBlock, hz]
@[simp] theorem State.touchSector_keeps {z0 s : State} (hz : Keeps z0 s) (port a n q : Nat) :
    Keeps z0 (State.touchSector s port a n q) := by simp +contextual (maxDischargeDepth := 99) [State.touchSector, hz]
@[simp] theorem State.touch_keeps {z0 s : State} (hz : Keeps z0 s) (port a n : Nat) :
    Keeps z0 (State.touch s port a n) := by simp +contextual (maxDischargeDepth := 99) [State.touch, hz]
@[simp] theorem State.storeWrite_keeps {z0 s : State} (hz : Keeps z0 s) (port a : Nat) (bs : List Byte) :
    Keeps z0 (State.storeWrite s port a bs) := by simp +contextual (maxDischargeDepth := 99) [State.storeWrite, hz]
@[simp] theorem State.setPool_keeps {z0 s : State} (hz : Keeps z0 s) (p : Nat) (x : Pool) :
    Keeps z0 (State.setPool s p x) := by simp +contextual (maxDischargeDepth := 99) [State.setPool, hz]
@[simp] theorem State.popUnit_keeps {z0 s : State} (hz : Keeps z0 s) (p n : Nat) :
    Keeps z0 ((s.popUnit p n).1) := by
  induction n generalizing s with
  | zero => assumption
  | succ n ih => simp only [State.popUnit]; (repeat' split) <;> simp +contextual (maxDischargeDepth := 99) [*, ih]
@[simp] theorem State.allocUnit_keeps {z0 s : State} (hz : Keeps z0 s) (p : Nat) :
    Keeps z0 (State.allocUnit s p).1 := by simp +contextual (maxDischargeDepth := 99) [State.allocUnit, hz]
@[simp] theorem State.pushUnit_keeps {z0 s : State} (hz : Keeps z0 s) (p u : Nat) :
    Keeps z0 (State.pushUnit s p u) := by simp +contextual (maxDischargeDepth := 99) [State.pushUnit, hz]
@[simp] theorem State.freeBlock_keeps {z0 s : State} (hz : Keeps z0 s) (port : Nat) (pool : Option Nat) (b : Nat) :
    Keeps z0 (State.freeBlock s port pool b) := by unfold State.freeBlock; split <;> simp +contextual (maxDischargeDepth := 99) [hz]
@[simp] theorem State.descRead_keeps {z0 s : State} (hz : Keeps z0 s) (port d n : Nat) :
    Keeps z0 (State.descRead s port d n).1 := by simp +contextual (maxDischargeDepth := 99) [State.descRead, hz]
@[simp] theorem State.dataRead_keeps {z0 : State} (s : State) (port d : Nat) {r : State × Bool} (hz : Keeps z0 r.1) :
    Keeps z0 (s.dataRead port d r).1 := by
  unfold State.dataRead
  refine Keeps.foldl_fst hz fun p i hp => ?_
  dsimp only
  split <;> simp [hp]
@[simp] theorem State.frameRead_keeps {z0 s : State} (hz : Keeps z0 s) (port d : Nat) : Keeps z0 (s.frameRead port d).1 := by
  unfold State.frameRead
  dsimp only
  split <;> simp [hz]
@[simp] theorem State.freeDesc_keeps {z0 s : State} (hz : Keeps z0 s) (port d : Nat) :
    Keeps z0 (State.freeDesc s port d) := by simp only [State.freeDesc]; (repeat' split) <;> simp +contextual (maxDischargeDepth := 99) [hz]
@[simp] theorem State.allocN_keeps {z0 s : State} (hz : Keeps z0 s) (p n : Nat) (l : List Nat) :
    Keeps z0 ((s.allocN p n l).1) := by
  induction n generalizing s l with
  | zero => assumption
  | succ n ih => simp only [State.allocN]; split <;> simp +contextual (maxDischargeDepth := 99) [*, ih]
@[simp] theorem State.rxStore_keeps {z0 s : State} (hz : Keeps z0 s) (port : Nat) (data : List Byte) (status stamp : Nat) :
    Keeps z0 (State.rxStore s port data status stamp).1 := by simp only [State.rxStore]; (repeat' split) <;> simp +contextual (maxDischargeDepth := 99) [hz]
@[simp] theorem State.poolPost_keeps {z0 s : State} (hz : Keeps z0 s) (pool : Nat) (tag : Tag) (code : Nat) :
    Keeps z0 (State.poolPost s pool tag code) := by simp +contextual (maxDischargeDepth := 99) [State.poolPost, hz]
@[simp] theorem State.poolCmd_keeps {z0 s : State} (hz : Keeps z0 s) (by_ : Req) (f : State → State) (hf : ∀ z t, Keeps z t → Keeps z (f t)) :
    Keeps z0 (State.poolCmd s by_ f) := by unfold State.poolCmd; (repeat' split) <;> simp +contextual (maxDischargeDepth := 99) [*]
@[simp] theorem State.scrubFound_keeps {z0 s : State} (hz : Keeps z0 s) (f : ScrubFound) :
    Keeps z0 (s.scrubFound f) := by
  unfold State.scrubFound; split
  · simp +contextual (maxDischargeDepth := 99) [*]
  · dsimp only; split <;> simp +contextual (maxDischargeDepth := 99) [*]

@[simp] theorem State.scrubBegin_keeps {z0 s : State} (hz : Keeps z0 s) : Keeps z0 s.scrubBegin := by
  simp +contextual (maxDischargeDepth := 99) [State.scrubBegin, hz]

/-! RadioBase. -/

@[simp] theorem State.setRadio_keeps {z0 s : State} (hz : Keeps z0 s) (r : Nat) (x : Radio) :
    Keeps z0 (State.setRadio s r x) := by simp +contextual (maxDischargeDepth := 99) [State.setRadio, hz]
@[simp] theorem State.modRadio_keeps {z0 s : State} (hz : Keeps z0 s) (r : Nat) (f : Radio → Radio) :
    Keeps z0 (State.modRadio s r f) := by simp +contextual (maxDischargeDepth := 99) [State.modRadio, hz]
@[simp] theorem State.syncStreams_keeps {z0 s : State} (hz : Keeps z0 s) (r : Nat) :
    Keeps z0 (State.syncStreams s r) := by simp +contextual (maxDischargeDepth := 99) [State.syncStreams, hz]
@[simp] theorem State.syncChains_keeps {z0 s : State} (hz : Keeps z0 s) (r : Nat) :
    Keeps z0 (State.syncChains s r) := by simp +contextual (maxDischargeDepth := 99) [State.syncChains, hz]
@[simp] theorem State.setChains_keeps {z0 s : State} (hz : Keeps z0 s) (r mask st : Nat) :
    Keeps z0 (State.setChains s r mask st) := by simp +contextual (maxDischargeDepth := 99) [State.setChains, hz]
@[simp] theorem State.chainsAtReady_keeps {z0 s : State} (hz : Keeps z0 s) (r : Nat) :
    Keeps z0 (State.chainsAtReady s r) := by simp +contextual (maxDischargeDepth := 99) [State.chainsAtReady, hz]
@[simp] theorem State.boardChanged_keeps {z0 s : State} (hz : Keeps z0 s) (r : Nat) (old new : Word) :
    Keeps z0 (State.boardChanged s r old new) := by simp +contextual (maxDischargeDepth := 99) [State.boardChanged, hz]
@[simp] theorem State.seqEventAt_keeps {z0 s : State} (hz : Keeps z0 s) (r e tick : Nat) :
    Keeps z0 (State.seqEventAt s r e tick) := by simp +contextual (maxDischargeDepth := 99) [State.seqEventAt, hz]
@[simp] theorem State.seqEvent_keeps {z0 s : State} (hz : Keeps z0 s) (r e : Nat) :
    Keeps z0 (State.seqEvent s r e) := by simp +contextual (maxDischargeDepth := 99) [State.seqEvent, hz]
@[simp] theorem State.placeOf_keeps {z0 s : State} (hz : Keeps z0 s) (r : Nat) :
    Keeps z0 (State.placeOf s r) := by simp +contextual (maxDischargeDepth := 99) [State.placeOf, hz]
@[simp] theorem State.modMlink_keeps {z0 s : State} (hz : Keeps z0 s) (f : Mlink → Mlink) :
    Keeps z0 (State.modMlink s f) := by simp +contextual (maxDischargeDepth := 99) [State.modMlink, hz]
@[simp] theorem State.setStq_keeps {z0 s : State} (hz : Keeps z0 s) (q : Nat) (l : List QMpdu) :
    Keeps z0 (State.setStq s q l) := by simp +contextual (maxDischargeDepth := 99) [State.setStq, hz]
@[simp] theorem State.landed_keeps {z0 s : State} (hz : Keeps z0 s) (m : FlightMpdu) :
    Keeps z0 (State.landed s m) := by simp +contextual (maxDischargeDepth := 99) [State.landed, hz]
@[simp] theorem State.linkLost_keeps {z0 s : State} (hz : Keeps z0 s) (l : Nat) :
    Keeps z0 (State.linkLost s l) := by simp +contextual (maxDischargeDepth := 99) [State.linkLost, hz]
@[simp] theorem State.syncLinks_keeps {z0 s : State} (hz : Keeps z0 s) :
    Keeps z0 (State.syncLinks s) := by simp +contextual (maxDischargeDepth := 99) [State.syncLinks, hz]
@[simp] theorem State.lockChanged_keeps {z0 s : State} (hz : Keeps z0 s) (r : Nat) :
    Keeps z0 (State.lockChanged s r) := by simp +contextual (maxDischargeDepth := 99) [State.lockChanged, hz]
@[simp] theorem State.dpdSync_keeps {z0 s : State} (hz : Keeps z0 s) (r : Nat) :
    Keeps z0 (State.dpdSync s r) := by simp +contextual (maxDischargeDepth := 99) [State.dpdSync, hz]
@[simp] theorem State.dpdTrain_keeps {z0 s : State} (hz : Keeps z0 s) (r n : Nat) :
    Keeps z0 (State.dpdTrain s r n) := by simp +contextual (maxDischargeDepth := 99) [State.dpdTrain, hz]
@[simp] theorem State.rxsWrite_keeps {z0 s : State} (hz : Keeps z0 s) (r : Nat) (body : List Byte) :
    Keeps z0 (State.rxsWrite s r body).1 := by simp +contextual (maxDischargeDepth := 99) [State.rxsWrite, hz]
@[simp] theorem State.setTp_keeps {z0 s : State} (hz : Keeps z0 s) (r p : Nat) (x : TpPeer) :
    Keeps z0 (State.setTp s r p x) := by simp +contextual (maxDischargeDepth := 99) [State.setTp, hz]
@[simp] theorem State.tpEmpty_keeps {z0 s : State} (hz : Keeps z0 s) (r slot : Nat) :
    Keeps z0 (State.tpEmpty s r slot) := by simp +contextual (maxDischargeDepth := 99) [State.tpEmpty, hz]
@[simp] theorem State.tpRecord_keeps {z0 s : State} (hz : Keeps z0 s) (r kind peer seqTid : Nat) :
    Keeps z0 (State.tpRecord s r kind peer seqTid) := by simp +contextual (maxDischargeDepth := 99) [State.tpRecord, hz]
@[simp] theorem State.tpFall_keeps {z0 s : State} (hz : Keeps z0 s) (r p : Nat) (tx : Bool) :
    Keeps z0 (State.tpFall s r p tx) := by simp +contextual (maxDischargeDepth := 99) [State.tpFall, hz]
@[simp] theorem State.tpRetuned_keeps {z0 s : State} (hz : Keeps z0 s) (r : Nat) :
    Keeps z0 (State.tpRetuned s r) := by simp +contextual (maxDischargeDepth := 99) [State.tpRetuned, hz]
@[simp] theorem State.txcPut_keeps {z0 s : State} (hz : Keeps z0 s) (r : Nat) (rec_ : List Nat) :
    Keeps z0 (State.txcPut s r rec_) := by simp +contextual (maxDischargeDepth := 99) [State.txcPut, hz]
@[simp] theorem State.txcFlush_keeps {z0 s : State} (hz : Keeps z0 s) (r : Nat) (l : List (List Nat)) : Keeps z0 (s.txcFlush r l) := by
  induction l generalizing s with
  | nil => simp [State.txcFlush, hz]
  | cons w l ih =>
    unfold State.txcFlush
    split
    · simp [hz]
    · exact ih (State.txcPut_keeps hz ..)
@[simp] theorem State.txComplete_keeps {z0 s : State} (hz : Keeps z0 s) (r : Nat) (c : TxCmd)
    (queue status unsent time delay airtime : Nat) : Keeps z0 (s.txComplete r c queue status unsent time delay airtime) := by
  unfold State.txComplete
  extract_lets _ s1 s2 s3
  have h1 : Keeps z0 s1 := Keeps.ite_of (by simp [hz]) hz
  have h2 : Keeps z0 s2 := Keeps.ite_of (by simp [h1]) (Keeps.ite_of (by simp [h1]) h1)
  have h3 : Keeps z0 s3 := Keeps.ite_of (by simp [h2]) (Keeps.ite_of (by simp [h2]) h2)
  simp [h3]
@[simp] theorem State.ctxPut_keeps {z0 s : State} (hz : Keeps z0 s) (scid off n v : Nat) :
    Keeps z0 (State.ctxPut s scid off n v) := by simp +contextual (maxDischargeDepth := 99) [State.ctxPut, hz]
@[simp] theorem State.setTxq_keeps {z0 s : State} (hz : Keeps z0 s) (r q : Nat) (l : List TxCmd) :
    Keeps z0 (State.setTxq s r q l) := by simp +contextual (maxDischargeDepth := 99) [State.setTxq, hz]
theorem State.txqPush_keeps {z0 s : State} (hz : Keeps z0 s) (r q : Nat) (c : TxCmd) (t : State) (h : s.txqPush r q c = some t) :
    Keeps z0 t := by
  unfold State.txqPush at h; split at h
  · cases h
  · cases h; simp +contextual (maxDischargeDepth := 99) [*]
@[simp] theorem State.txqPush_getD_keeps {z0 s : State} (hz : Keeps z0 s) (r q : Nat) (c : TxCmd) :
    Keeps z0 ((s.txqPush r q c).getD s) := Keeps.getD hz fun t h => State.txqPush_keeps hz r q c t h
@[simp] theorem State.markLate_keeps {z0 s : State} (hz : Keeps z0 s) (r : Nat) :
    Keeps z0 (State.markLate s r) := by
  unfold State.markLate
  refine Keeps.foldl hz fun s q hz => ?_
  (repeat' split) <;> simp +contextual (maxDischargeDepth := 99) [hz]
@[simp] theorem State.syncTxBusy_keeps {z0 s : State} (hz : Keeps z0 s) (r : Nat) :
    Keeps z0 (State.syncTxBusy s r) := by simp +contextual (maxDischargeDepth := 99) [State.syncTxBusy, hz]
@[simp] theorem State.ftmPost_keeps {z0 s : State} (hz : Keeps z0 s) (r : Nat) :
    Keeps z0 (State.ftmPost s r) := by simp +contextual (maxDischargeDepth := 99) [State.ftmPost, hz]
@[simp] theorem State.ftmOnRx_keeps {z0 s : State} (hz : Keeps z0 s) (r stamp frac : Nat) :
    Keeps z0 (State.ftmOnRx s r stamp frac) := by simp +contextual (maxDischargeDepth := 99) [State.ftmOnRx, hz]
@[simp] theorem State.ftmOnTx_keeps {z0 s : State} (hz : Keeps z0 s) (r stamp : Nat) :
    Keeps z0 (State.ftmOnTx s r stamp) := by simp +contextual (maxDischargeDepth := 99) [State.ftmOnTx, hz]

/-! Stq. -/

@[simp] theorem State.setLinkFlag_keeps {z0 s : State} (hz : Keeps z0 s) (scid l b : Nat) (v : Bool) :
    Keeps z0 (State.setLinkFlag s scid l b v) := by simp +contextual (maxDischargeDepth := 99) [State.setLinkFlag, hz]
@[simp] theorem State.syncWindow_keeps {z0 s : State} (hz : Keeps z0 s) (q : Nat) :
    Keeps z0 (State.syncWindow s q) := by simp +contextual (maxDischargeDepth := 99) [State.syncWindow, hz]
@[simp] theorem State.txStatusWord_keeps {z0 s : State} (hz : Keeps z0 s) (r desc : Nat) (acked noResp : Bool) :
    Keeps z0 (State.txStatusWord s r desc acked noResp) := by simp +contextual (maxDischargeDepth := 99) [State.txStatusWord, hz]
@[simp] theorem State.addDeficit_keeps {z0 s : State} (hz : Keeps z0 s) (scid off : Nat) (v : Int) :
    Keeps z0 (State.addDeficit s scid off v) := by simp +contextual (maxDischargeDepth := 99) [State.addDeficit, hz]
@[simp] theorem State.stqDrop_keeps {z0 s : State} (hz : Keeps z0 s) (r : Nat) (m : FlightMpdu) :
    Keeps z0 (State.stqDrop s r m) := by simp +contextual (maxDischargeDepth := 99) [State.stqDrop, hz]
@[simp] theorem State.stqAcked_keeps {z0 s : State} (hz : Keeps z0 s) (r : Nat) (m : FlightMpdu) :
    Keeps z0 (State.stqAcked s r m) := by simp +contextual (maxDischargeDepth := 99) [State.stqAcked, hz]
@[simp] theorem State.stqBack_keeps {z0 s : State} (hz : Keeps z0 s) (r : Nat) (m : FlightMpdu) :
    Keeps z0 (State.stqBack s r m) := by simp +contextual (maxDischargeDepth := 99) [State.stqBack, hz]
@[simp] theorem State.stqMissed_keeps {z0 s : State} (hz : Keeps z0 s) (r : Nat) (noResp : Bool) (m : FlightMpdu) :
    Keeps z0 (State.stqMissed s r noResp m) := by simp +contextual (maxDischargeDepth := 99) [State.stqMissed, hz]
@[simp] theorem State.returnMpdus_keeps {z0 s : State} (hz : Keeps z0 s) (r : Nat) (c : TxCmd) :
    Keeps z0 (State.returnMpdus s r c) := by unfold State.returnMpdus; split <;> simp +contextual (maxDischargeDepth := 99) [hz]
@[simp] theorem State.fabStatus_keeps {z0 s : State} (hz : Keeps z0 s) (c : TxCmd) (acked : Bool) :
    Keeps z0 (State.fabStatus s c acked) := by unfold State.fabStatus; split <;> simp +contextual (maxDischargeDepth := 99) [hz]
@[simp] theorem State.tpStatus_keeps {z0 s : State} (hz : Keeps z0 s) (r : Nat) (c : TxCmd) (acked noResp : Bool) :
    Keeps z0 (State.tpStatus s r c acked noResp) := by simp +contextual (maxDischargeDepth := 99) [State.tpStatus, hz]
@[simp] theorem State.txUnsent_keeps {z0 s : State} (hz : Keeps z0 s) (r q : Nat) (c : TxCmd) (status : Nat) :
    Keeps z0 (State.txUnsent s r q c status) := by simp +contextual (maxDischargeDepth := 99) [State.txUnsent, hz]
@[simp] theorem State.setRxStart_keeps {z0 s : State} (hz : Keeps z0 s) (q v : Nat) :
    Keeps z0 (State.setRxStart s q v) := by simp +contextual (maxDischargeDepth := 99) [State.setRxStart, hz]
@[simp] theorem State.setBoard_keeps {z0 s : State} (hz : Keeps z0 s) (q : Nat) (b : RxBoard) :
    Keeps z0 (State.setBoard s q b) := by simp +contextual (maxDischargeDepth := 99) [State.setBoard, hz]
@[simp] theorem State.twtWritten_keeps {z0 s : State} (hz : Keeps z0 s) (n w : Nat) :
    Keeps z0 (State.twtWritten s n w) := by simp +contextual (maxDischargeDepth := 99) [State.twtWritten, hz]
@[simp] theorem State.chainsAtEnd_keeps {z0 s : State} (hz : Keeps z0 s) (r : Nat) :
    Keeps z0 (State.chainsAtEnd s r) := by simp +contextual (maxDischargeDepth := 99) [State.chainsAtEnd, hz]
@[simp] theorem State.agcArm_keeps {z0 s : State} (hz : Keeps z0 s) (r : Nat) :
    Keeps z0 (State.agcArm s r) := by simp +contextual (maxDischargeDepth := 99) [State.agcArm, hz]
@[simp] theorem State.unsat_keeps {z0 s : State} (hz : Keeps z0 s) (reg : RegId) (hi lo : Nat) :
    Keeps z0 (State.unsat s reg hi lo) := by simp +contextual (maxDischargeDepth := 99) [State.unsat, hz]
@[simp] theorem State.countAbort_keeps {z0 s : State} (hz : Keeps z0 s) (r reason : Nat) (onset : Bool) :
    Keeps z0 (State.countAbort s r reason onset) := by unfold State.countAbort; split <;> simp +contextual (maxDischargeDepth := 99) [hz]
@[simp] theorem State.uncountAbort_keeps {z0 s : State} (hz : Keeps z0 s) (r reason : Nat) (onset : Bool) :
    Keeps z0 (State.uncountAbort s r reason onset) := by simp +contextual (maxDischargeDepth := 99) [State.uncountAbort, hz]
@[simp] theorem State.abortRecord_keeps {z0 s : State} (hz : Keeps z0 s) (r reason : Nat) (x : Rx) :
    Keeps z0 (State.abortRecord s r reason x).1 := by simp +contextual (maxDischargeDepth := 99) [State.abortRecord, hz]
@[simp] theorem State.reAbort_keeps {z0 s : State} (hz : Keeps z0 s) (r reason : Nat) (c : CutRx) :
    Keeps z0 (State.reAbort s r reason c) := by unfold State.reAbort; split <;> simp +contextual (maxDischargeDepth := 99) [hz]
@[simp] theorem State.rxAbort_keeps {z0 s : State} (hz : Keeps z0 s) (r reason : Nat) :
    Keeps z0 (State.rxAbort s r reason) := by unfold State.rxAbort; split <;> simp +contextual (maxDischargeDepth := 99) [hz]
@[simp] theorem State.macBusy_keeps {z0 s : State} (hz : Keeps z0 s) (r : Nat) :
    Keeps z0 (State.macBusy s r) := by simp +contextual (maxDischargeDepth := 99) [State.macBusy, hz]
@[simp] theorem State.sliceYield_keeps {z0 s : State} (hz : Keeps z0 s) (r : Nat) :
    Keeps z0 (State.sliceYield s r) := by unfold State.sliceYield; split <;> simp +contextual (maxDischargeDepth := 99) [hz]
@[simp] theorem State.txFinish_keeps {z0 s : State} (hz : Keeps z0 s) (r : Nat) (t : TxNow) (status : Nat) :
    Keeps z0 (State.txFinish s r t status) := by simp +contextual (maxDischargeDepth := 99) [State.txFinish, hz]
@[simp] theorem State.txAbort_keeps {z0 s : State} (hz : Keeps z0 s) (r : Nat) :
    Keeps z0 (State.txAbort s r) := by simp only [State.txAbort]; (repeat' split) <;> simp +contextual (maxDischargeDepth := 99) [hz]

/-! Rf. -/

@[simp] theorem State.rfCmd_keeps {z0 s : State} (hz : Keeps z0 s) (by_ : Req) (r : Nat) (f : State → State) (hf : ∀ z t, Keeps z t → Keeps z (f t)) :
    Keeps z0 (State.rfCmd s by_ r f) := by unfold State.rfCmd; (repeat' split) <;> simp +contextual (maxDischargeDepth := 99) [*]
@[simp] theorem State.rfPost_keeps {z0 s : State} (hz : Keeps z0 s) (r : Nat) (tag : Tag) (code detail : Nat) :
    Keeps z0 (State.rfPost s r tag code detail) := by simp +contextual (maxDischargeDepth := 99) [State.rfPost, hz]
@[simp] theorem State.rfEnd_keeps {z0 s : State} (hz : Keeps z0 s) (r code detail : Nat) :
    Keeps z0 (State.rfEnd s r code detail) := by simp +contextual (maxDischargeDepth := 99) [State.rfEnd, hz]
@[simp] theorem State.tuneStart_keeps {z0 s : State} (hz : Keeps z0 s) (r : Nat) :
    Keeps z0 (State.tuneStart s r) := by simp +contextual (maxDischargeDepth := 99) [State.tuneStart, hz]
@[simp] theorem State.rfSettle_keeps {z0 s : State} (hz : Keeps z0 s) (r : Nat) :
    Keeps z0 (State.rfSettle s r) := by simp +contextual (maxDischargeDepth := 99) [State.rfSettle, hz]
@[simp] theorem State.tuneTimeout_keeps {z0 s : State} (hz : Keeps z0 s) (r : Nat) :
    Keeps z0 (State.tuneTimeout s r) := by simp only [State.tuneTimeout]; (repeat' split) <;> simp +contextual (maxDischargeDepth := 99) [hz]
@[simp] theorem State.trainAll_keeps {z0 s : State} (hz : Keeps z0 s) (r : Nat) :
    Keeps z0 (State.trainAll s r) := by simp +contextual (maxDischargeDepth := 99) [State.trainAll, hz]
@[simp] theorem State.rffeCmd_keeps {z0 s : State} (hz : Keeps z0 s) (by_ : Req) (r : Nat) (f : State → State) (hf : ∀ z t, Keeps z t → Keeps z (f t)) :
    Keeps z0 (State.rffeCmd s by_ r f) := by unfold State.rffeCmd; (repeat' split) <;> simp +contextual (maxDischargeDepth := 99) [*]
@[simp] theorem State.rffeQueue_keeps {z0 s : State} (hz : Keeps z0 s) (by_ : Req) (r : Nat) (tag : Tag) (t : RffeTxn) :
    Keeps z0 (State.rffeQueue s by_ r tag t) := by simp +contextual (maxDischargeDepth := 99) [State.rffeQueue, hz]
@[simp] theorem State.femMiss_keeps {z0 s : State} (hz : Keeps z0 s) (r usid : Nat) :
    Keeps z0 (State.femMiss s r usid) := by simp +contextual (maxDischargeDepth := 99) [State.femMiss, hz]
@[simp] theorem State.calBegin_keeps {z0 s : State} (hz : Keeps z0 s) (r kind : Nat) :
    Keeps z0 (State.calBegin s r kind) := by simp +contextual (maxDischargeDepth := 99) [State.calBegin, hz]
@[simp] theorem State.calRound_keeps {z0 s : State} (hz : Keeps z0 s) (r kind : Nat) (converged : Bool) :
    Keeps z0 (State.calRound s r kind converged) := by simp +contextual (maxDischargeDepth := 99) [State.calRound, hz]
@[simp] theorem State.dpdCapture_keeps {z0 s : State} (hz : Keeps z0 s) (r n : Nat) (e : Int) :
    Keeps z0 (State.dpdCapture s r n e) := by simp +contextual (maxDischargeDepth := 99) [State.dpdCapture, hz]
@[simp] theorem State.dpdCaptures_keeps {z0 s : State} (hz : Keeps z0 s) (r mask ns : Nat) (power : Int) (errs : List Int) :
    Keeps z0 (State.dpdCaptures s r mask ns power errs) := by
  unfold State.dpdCaptures
  split
  · simp [hz]
  · refine Keeps.foldl hz fun s q hz => ?_
    (repeat' split) <;> simp +contextual (maxDischargeDepth := 99) [hz]

/-! MacCore. -/

@[simp] theorem State.modMac_keeps {z0 s : State} (hz : Keeps z0 s) (r : Nat) (f : Mac → Mac) :
    Keeps z0 (State.modMac s r f) := by simp +contextual (maxDischargeDepth := 99) [State.modMac, hz]
@[simp] theorem State.drawBo_keeps {z0 s : State} (hz : Keeps z0 s) (r ac : Nat) :
    Keeps z0 (State.drawBo s r ac) := by simp +contextual (maxDischargeDepth := 99) [State.drawBo, hz]
@[simp] theorem State.acSuccess_keeps {z0 s : State} (hz : Keeps z0 s) (r ac : Nat) :
    Keeps z0 (State.acSuccess s r ac) := by simp +contextual (maxDischargeDepth := 99) [State.acSuccess, hz]
@[simp] theorem State.acFailure_keeps {z0 s : State} (hz : Keeps z0 s) (r ac : Nat) :
    Keeps z0 (State.acFailure s r ac) := by simp +contextual (maxDischargeDepth := 99) [State.acFailure, hz]
@[simp] theorem State.edcaReset_keeps {z0 s : State} (hz : Keeps z0 s) (r : Nat) :
    Keeps z0 (State.edcaReset s r) := by simp +contextual (maxDischargeDepth := 99) [State.edcaReset, hz]
@[simp] theorem State.grant_keeps {z0 s : State} (hz : Keeps z0 s) (r ac : Nat) :
    Keeps z0 (State.grant s r ac) := by unfold State.grant; split <;> simp +contextual (maxDischargeDepth := 99) [hz]
@[simp] theorem State.emlRelease_keeps {z0 s : State} (hz : Keeps z0 s) (r : Nat) :
    Keeps z0 (State.emlRelease s r) := by simp +contextual (maxDischargeDepth := 99) [State.emlRelease, hz]
@[simp] theorem State.endTxop_keeps {z0 s : State} (hz : Keeps z0 s) (r : Nat) :
    Keeps z0 (State.endTxop s r) := by simp +contextual (maxDischargeDepth := 99) [State.endTxop, hz]
@[simp] theorem State.emlHold_keeps {z0 s : State} (hz : Keeps z0 s) (r scid : Nat) :
    Keeps z0 (State.emlHold s r scid) := by simp +contextual (maxDischargeDepth := 99) [State.emlHold, hz, -List.foldl_cons]
@[simp] theorem State.withdraw_keeps {z0 s : State} (hz : Keeps z0 s) (r : Nat) :
    Keeps z0 (State.withdraw s r) := by unfold State.withdraw; (repeat' split) <;> simp +contextual (maxDischargeDepth := 99) [hz]
@[simp] theorem State.tpTake_keeps {z0 s : State} (hz : Keeps z0 s) (r p : Nat) (data : Bool) :
    Keeps z0 (State.tpTake s r p data).1 := by simp only [State.tpTake]; (repeat' split) <;> simp +contextual (maxDischargeDepth := 99) [hz]
@[simp] theorem State.tpTxFail_keeps {z0 s : State} (hz : Keeps z0 s) (r p : Nat) :
    Keeps z0 (State.tpTxFail s r p) := by simp +contextual (maxDischargeDepth := 99) [State.tpTxFail, hz]
@[simp] theorem State.txqTable_keeps {z0 s : State} (hz : Keeps z0 s) (r p : Nat) : Keeps z0 (s.txqTable r p) := by
  unfold State.txqTable
  split
  · rename_i h
    simp [State.txqPush_keeps hz _ _ _ _ h]
  · exact hz
@[simp] theorem State.tpTableDone_keeps {z0 s : State} (hz : Keeps z0 s) (r p : Nat) (ok : Bool) :
    Keeps z0 (State.tpTableDone s r p ok) := by unfold State.tpTableDone; split <;> simp +contextual (maxDischargeDepth := 99) [hz]
@[simp] theorem State.setKey_keeps {z0 s : State} (hz : Keeps z0 s) (k : Nat) (v : Option Key) :
    Keeps z0 (State.setKey s k v) := by simp +contextual (maxDischargeDepth := 99) [State.setKey, hz]
@[simp] theorem State.sendMpdu_keeps {z0 s : State} (hz : Keeps z0 s) (r : Nat) (c : TxCmd) (d : Nat) :
    Keeps z0 (State.sendMpdu s r c d).1 := by unfold State.sendMpdu; (repeat' split) <;> simp +contextual (maxDischargeDepth := 99) [hz]
@[simp] theorem State.sendMpdus_keeps {z0 s : State} (hz : Keeps z0 s) (r : Nat) (c : TxCmd) :
    Keeps z0 (State.sendMpdus s r c).1 := by simp +contextual (maxDischargeDepth := 99) [State.sendMpdus, hz]
@[simp] theorem State.fwStatus_keeps {z0 s : State} (hz : Keeps z0 s) (r : Nat) (c : TxCmd) (acked : Nat → Bool) (noResp : Bool) :
    Keeps z0 (State.fwStatus s r c acked noResp) := by simp +contextual (maxDischargeDepth := 99) [State.fwStatus, hz]
theorem State.steerInstall_keeps {z0 s : State} (hz : Keeps z0 s) (r scid : Nat) (m : SteerMat) (l : List Nat) (t : State)
    (h : s.steerInstall r scid m l = some t) : Keeps z0 t := by
  simp only [State.steerInstall] at h
  split at h
  · cases h
  · cases h; (repeat' split) <;> simp +contextual (maxDischargeDepth := 99) [*]
@[simp] theorem State.steerInstall_getD_keeps {z0 s : State} (hz : Keeps z0 s) (r scid : Nat) (m : SteerMat) (l : List Nat) :
    Keeps z0 ((s.steerInstall r scid m l).getD s) := Keeps.getD hz fun t h => State.steerInstall_keeps hz r scid m l t h
@[simp] theorem State.steerSettle_keeps {z0 s : State} (hz : Keeps z0 s) (r : Nat) : Keeps z0 (s.steerSettle r) := by
  unfold State.steerSettle
  refine Keeps.foldl hz fun t p ht => ?_
  dsimp only
  (repeat' split) <;> simp [ht]
@[simp] theorem State.pollDone_keeps {z0 s : State} (hz : Keeps z0 s) (r : Nat) (c : TxCmd) (ends : List Nat) :
    Keeps z0 (State.pollDone s r c ends) := by simp +contextual (maxDischargeDepth := 99) [State.pollDone, hz]
@[simp] theorem State.exchangeOk_keeps {z0 s : State} (hz : Keeps z0 s) (r : Nat) (t : TxNow) :
    Keeps z0 (State.exchangeOk s r t) := by unfold State.exchangeOk; (repeat' split) <;> simp +contextual (maxDischargeDepth := 99) [hz]
@[simp] theorem State.exchangeFail_keeps {z0 s : State} (hz : Keeps z0 s) (r : Nat) (t : TxNow) (noResp : Bool) :
    Keeps z0 (State.exchangeFail s r t noResp) := by unfold State.exchangeFail; (repeat' split) <;> simp +contextual (maxDischargeDepth := 99) [hz]

/-! Seq. -/

@[simp] theorem State.bankWrite_keeps {z0 s : State} (hz : Keeps z0 s) (r bank off : Nat) (bs : List Byte) :
    Keeps z0 (State.bankWrite s r bank off bs) := by simp +contextual (maxDischargeDepth := 99) [State.bankWrite, hz]
@[simp] theorem State.seqPost_keeps {z0 s : State} (hz : Keeps z0 s) (r bank step : Nat) :
    Keeps z0 (State.seqPost s r bank step) := by simp +contextual (maxDischargeDepth := 99) [State.seqPost, hz]
@[simp] theorem State.swapStopped_keeps {z0 s : State} (hz : Keeps z0 s) (r entry : Nat) :
    Keeps z0 (State.swapStopped s r entry) := by simp +contextual (maxDischargeDepth := 99) [State.swapStopped, hz]
@[simp] theorem State.rxenChanged_keeps {z0 s : State} (hz : Keeps z0 s) (r : Nat) :
    Keeps z0 (State.rxenChanged s r) := by simp +contextual (maxDischargeDepth := 99) [State.rxenChanged, hz]
@[simp] theorem State.seqStop_keeps {z0 s : State} (hz : Keeps z0 s) (r : Nat) :
    Keeps z0 (State.seqStop s r) := by unfold State.seqStop; (repeat' split) <;> simp +contextual (maxDischargeDepth := 99) [hz]
@[simp] theorem State.tpStart_keeps {z0 s : State} (hz : Keeps z0 s) (r : Nat) (c : TxCmd) :
    Keeps z0 (State.tpStart s r c).1 := by unfold State.tpStart; split <;> simp +contextual (maxDischargeDepth := 99) [hz]
@[simp] theorem State.seriesEnd_keeps {z0 s : State} (hz : Keeps z0 s) (r : Nat) (t : TxNow) (ok : Bool) :
    Keeps z0 (State.seriesEnd s r t ok) := by simp +contextual (maxDischargeDepth := 99) [State.seriesEnd, hz]
@[simp] theorem State.txStart_keeps {z0 s : State} (hz : Keeps z0 s) (r at_ : Nat) :
    Keeps z0 (State.txStart s r at_) := by simp only [State.txStart]; (repeat' split) <;> simp +contextual (maxDischargeDepth := 99) [hz]
@[simp] theorem State.pulses_keeps {z0 s : State} (hz : Keeps z0 s) (r : Nat) :
    Keeps z0 (State.pulses s r) := by
  unfold State.pulses
  extract_lets a s1 s2 s3 s4 w0 w1 m s5 p s6
  have h0 : Keeps z0 s1 := by
    simp only [s1]
    (repeat' split) <;> simp +contextual (maxDischargeDepth := 99) [*]
  clear_value s1
  have h1 : Keeps z0 s2 := by
    simp only [s2]
    (repeat' split) <;> simp +contextual (maxDischargeDepth := 99) [*]
  clear_value s2
  have h2 : Keeps z0 s3 := by
    simp only [s3]
    (repeat' split) <;> simp +contextual (maxDischargeDepth := 99) [*]
  clear_value s3
  have h3 : Keeps z0 s4 := by
    simp only [s4]
    (repeat' split) <;> simp +contextual (maxDischargeDepth := 99) [*]
  clear_value s4
  have h4 : Keeps z0 s5 := by
    simp only [s5]
    (repeat' split) <;> simp +contextual (maxDischargeDepth := 99) [*]
  clear_value s5
  have h5 : Keeps z0 s6 := by
    simp only [s6]
    (repeat' split) <;> simp +contextual (maxDischargeDepth := 99) [*]
  clear_value s6
  (repeat' split) <;> simp +contextual (maxDischargeDepth := 99) [*]
@[simp] theorem State.stepEnds_keeps {z0 s : State} (hz : Keeps z0 s) (r next at_ : Nat) :
    Keeps z0 (State.stepEnds s r next at_) := by simp +contextual (maxDischargeDepth := 99) [State.stepEnds, hz]
@[simp] theorem State.awaitFrom_keeps {z0 s : State} (hz : Keeps z0 s) (r : Nat) (t : TxNow) :
    Keeps z0 (State.awaitFrom s r t) := by unfold State.awaitFrom; split <;> simp +contextual (maxDischargeDepth := 99) [hz]
@[simp] theorem State.nstrFree_keeps {z0 s : State} (hz : Keeps z0 s) (r : Nat) : Keeps z0 (s.nstrFree r) := by
  unfold State.nstrFree
  refine Keeps.foldl hz fun t q ht => ?_
  dsimp only
  (repeat' split) <;> simp [ht]

/-! Towpath. -/

@[simp] theorem State.tpHeader_keeps {z0 s : State} (hz : Keeps z0 s) (r : Nat) (hdr : BitVec 96) :
    Keeps z0 (State.tpHeader s r hdr) := by simp only [State.tpHeader]; (repeat' split) <;> simp +contextual (maxDischargeDepth := 99) [hz]
@[simp] theorem State.tpWrite_keeps {z0 s : State} (hz : Keeps z0 s) (r slot st tid nss width tones epoch ncbps punct : Nat) (e : Nat → Nat → Nat) :
    Keeps z0 (State.tpWrite s r slot st tid nss width tones epoch ncbps punct e) := by simp +contextual (maxDischargeDepth := 99) [State.tpWrite, hz]
@[simp] theorem State.tpInstall_keeps {z0 s : State} (hz : Keeps z0 s) (r p punct : Nat) (c : List Byte) :
    Keeps z0 (State.tpInstall s r p punct c).1 := by unfold State.tpInstall; split <;> simp +contextual (maxDischargeDepth := 99) [hz]
@[simp] theorem State.tpMeasure_keeps {z0 s : State} (hz : Keeps z0 s) (r p nss punct : Nat) (snr : List (Nat × Int)) :
    Keeps z0 (State.tpMeasure s r p nss punct snr) := by simp +contextual (maxDischargeDepth := 99) [State.tpMeasure, hz]
@[simp] theorem State.tpDelay_keeps {z0 s : State} (hz : Keeps z0 s) (r p : Nat) (t : TxNow) (ackStamp : Nat) :
    Keeps z0 (State.tpDelay s r p t ackStamp) := by simp +contextual (maxDischargeDepth := 99) [State.tpDelay, hz]
@[simp] theorem State.tpAck_keeps {z0 s : State} (hz : Keeps z0 s) (r p st : Nat) (c : List Byte) :
    Keeps z0 (s.tpAck r p st c) := by
  unfold State.tpAck
  split
  · assumption
  · extract_lets seq
    split
    · assumption
    · (repeat' split) <;> simp +contextual +zetaDelta (maxDischargeDepth := 99) [*]
@[simp] theorem State.tpDeliver_keeps {z0 s : State} (hz : Keeps z0 s) (r : Nat) (t : TpRx) (x : Rx) (d : List Byte) :
    Keeps z0 ((s.tpDeliver r t x d).1) := by
  unfold State.tpDeliver
  extract_lets full status w
  have hw : Keeps z0 w.1 := by simp +contextual (maxDischargeDepth := 99) [*, w]
  clear_value w
  split
  all_goals exact Keeps.mk_ hw ..
@[simp] theorem State.tpRxFail_keeps {z0 s : State} (hz : Keeps z0 s) (r p : Nat) :
    Keeps z0 (State.tpRxFail s r p) := by simp +contextual (maxDischargeDepth := 99) [State.tpRxFail, hz]
@[simp] theorem State.tpRxSwitch_keeps {z0 s : State} (hz : Keeps z0 s) (r p : Nat) (t : TpRx) :
    Keeps z0 (State.tpRxSwitch s r p t) := by unfold State.tpRxSwitch; (repeat' split) <;> simp +contextual (maxDischargeDepth := 99) [hz]
@[simp] theorem State.tpFrameEnd_keeps {z0 s : State} (hz : Keeps z0 s) (r : Nat) (t : TpRx) (pl : Option TpPayload) :
    Keeps z0 (s.tpFrameEnd r t pl) := by
  unfold State.tpFrameEnd
  split
  · exact hz
  · extract_lets x ok run snr s0 toMe s1 answer s2 s3 del s4
    have h0 : Keeps z0 s0 := State.sat_keeps hz ..
    clear_value s0
    have h1 : Keeps z0 s1 := by
      simp only [s1]
      (repeat' split) <;> simp +contextual (maxDischargeDepth := 99) [h0]
    clear_value s1
    have hn : ∀ u b, Keeps z0 u → Keeps z0 (answer u b) := by
      intro u b hu
      simp only [answer]
      (repeat' split) <;> simp +contextual (maxDischargeDepth := 99) [hu]
    clear_value answer
    have h2 : Keeps z0 s2 := by simp only [s2]; split <;> simp +contextual (maxDischargeDepth := 99) [h1]
    clear_value s2
    have h3 : Keeps z0 s3 := by simp only [s3]; (repeat' split) <;> simp +contextual (maxDischargeDepth := 99) [h2]
    clear_value s3
    have h4 : Keeps z0 s4 := by simp only [s4, del]; split <;> simp +contextual (maxDischargeDepth := 99) [h3]
    clear_value s4
    (repeat' split) <;> simp +contextual (maxDischargeDepth := 99) [h1, h4, hn]
theorem State.tpPeerPeriod_keeps {z0 s : State} (hz : Keeps z0 s) (r p : Nat) :
    Keeps z0 (s.tpPeerPeriod r p) := by
  unfold State.tpPeerPeriod
  extract_lets x st next waiting s0 raw tsym c cand nss ncbps cur curEntry curBits tones entry lower gain g
  have hs0 : Keeps z0 s0 := Keeps.ite_of (by simp [hz]) hz
  clear_value s0
  (repeat' split) <;> simp +contextual (maxDischargeDepth := 99) [hs0]

/-! Rx. -/

@[simp] theorem State.navSet_keeps {z0 s : State} (hz : Keeps z0 s) (r : Nat) (intra : Bool) (us : Nat) :
    Keeps z0 (State.navSet s r intra us) := by simp +contextual (maxDischargeDepth := 99) [State.navSet, hz]
@[simp] theorem State.edBegin_keeps {z0 s : State} (hz : Keeps z0 s) (r at_ : Nat) :
    Keeps z0 (State.edBegin s r at_) := by simp +contextual (maxDischargeDepth := 99) [State.edBegin, hz]
@[simp] theorem State.macQual_keeps {z0 s : State} (hz : Keeps z0 s) (r : Nat) :
    Keeps z0 (State.macQual s r) := by simp +contextual (maxDischargeDepth := 99) [State.macQual, hz]
@[simp] theorem State.freezeLevels_keeps {z0 s : State} (hz : Keeps z0 s) (r mask : Nat) (levels : List Byte) :
    Keeps z0 (State.freezeLevels s r mask levels) := by simp +contextual (maxDischargeDepth := 99) [State.freezeLevels, hz]
@[simp] theorem State.reGain_keeps {z0 s : State} (hz : Keeps z0 s) (r mask : Nat) (l : StfLevels) :
    Keeps z0 (State.reGain s r mask l) := by simp +contextual (maxDischargeDepth := 99) [State.reGain, hz]
@[simp] theorem State.sigPassed_keeps {z0 s : State} (hz : Keeps z0 s) (r : Nat) (g : RxSig) (stf : Option StfLevels) :
    Keeps z0 (State.sigPassed s r g stf) := by simp only [State.sigPassed]; (repeat' split) <;> simp +contextual (maxDischargeDepth := 99) [hz]
@[simp] theorem State.modCur_keeps {z0 s : State} (hz : Keeps z0 s) (r : Nat) (f : Rx → Rx) :
    Keeps z0 (State.modCur s r f) := by simp +contextual (maxDischargeDepth := 99) [State.modCur, hz]
@[simp] theorem State.setCwRx_keeps {z0 s : State} (hz : Keeps z0 s) (r : Nat) (v : Rx) :
    Keeps z0 (State.setCwRx s r v) := by simp +contextual (maxDischargeDepth := 99) [State.setCwRx, hz]
@[simp] theorem State.setLanes_keeps {z0 s : State} (hz : Keeps z0 s) (r active failed : Nat) :
    Keeps z0 (State.setLanes s r active failed) := by simp +contextual (maxDischargeDepth := 99) [State.setLanes, hz]

/-! Mac. -/

@[simp] theorem State.latchTa_keeps {z0 s : State} (hz : Keeps z0 s) (r a : Nat) :
    Keeps z0 (State.latchTa s r a) := by simp +contextual (maxDischargeDepth := 99) [State.latchTa, hz]
@[simp] theorem State.rxFilter_keeps {z0 s : State} (hz : Keeps z0 s) (r : Nat) (m : RxMpdu) :
    Keeps z0 (State.rxFilter s r m).1 := by simp only [State.rxFilter]; (repeat' split) <;> simp +contextual (maxDischargeDepth := 99) [hz]
@[simp] theorem State.navUpdate_keeps {z0 s : State} (hz : Keeps z0 s) (r : Nat) (m : RxMpdu) :
    Keeps z0 (State.navUpdate s r m) := by simp +contextual (maxDischargeDepth := 99) [State.navUpdate, hz]
@[simp] theorem State.replayOk_keeps {z0 s : State} (hz : Keeps z0 s) (k : Option (Nat × Nat)) (cls : Nat) :
    Keeps z0 (State.replayOk s k cls).1 := by unfold State.replayOk; (repeat' split) <;> simp +contextual (maxDischargeDepth := 99) [hz]
@[simp] theorem State.rxRelease_keeps {z0 s : State} (hz : Keeps z0 s) (scid tid : Nat) (h : HeldMpdu) :
    Keeps z0 (State.rxRelease s scid tid h) := by simp +contextual (maxDischargeDepth := 99) [State.rxRelease, hz]
@[simp] theorem State.rxRun_keeps {z0 s : State} (hz : Keeps z0 s) (q : Nat) (l : List HeldMpdu) :
    Keeps z0 (s.rxRun q l) := by
  induction l generalizing s with
  | nil => simp +contextual (maxDischargeDepth := 99) [*, State.rxRun]
  | cons h l ih => simp only [State.rxRun]; split <;> simp +contextual (maxDischargeDepth := 99) [*, ih]
@[simp] theorem State.rxMove_keeps {z0 s : State} (hz : Keeps z0 s) (q a : Nat) :
    Keeps z0 (s.rxMove q a) := by
  unfold State.rxMove
  extract_lets b old dist before after go holes
  have h : Keeps z0 go.1 := by
    simp only [go]
    apply Keeps.foldl_fst hz
    intro a d h; simp +contextual (maxDischargeDepth := 99) [h]
  simp +contextual (maxDischargeDepth := 99) [*, h]
@[simp] theorem State.rxReorder_keeps {z0 s : State} (hz : Keeps z0 s) (q : Nat) (h : HeldMpdu) :
    Keeps z0 (State.rxReorder s q h) := by simp only [State.rxReorder]; (repeat' split) <;> simp +contextual (maxDischargeDepth := 99) [hz]
@[simp] theorem State.mrxPush_keeps {z0 s : State} (hz : Keeps z0 s) (r slot : Nat) (scid : Option Nat) (other : Bool) (desc seq : Nat) :
    Keeps z0 (State.mrxPush s r slot scid other desc seq) := by simp +contextual (maxDischargeDepth := 99) [State.mrxPush, hz]
@[simp] theorem State.decrypt_keeps {z0 s : State} (hz : Keeps z0 s) (r : Nat) (m : RxMpdu) (slot : Nat) (scid : Option Nat) :
    Keeps z0 (State.decrypt s r m slot scid).1 := by unfold State.decrypt; (repeat' split) <;> simp +contextual (maxDischargeDepth := 99) [hz]
@[simp] theorem State.respond_keeps {z0 s : State} (hz : Keeps z0 s) (r : Nat) (k : RespKind) :
    Keeps z0 (State.respond s r k) := by simp +contextual (maxDischargeDepth := 99) [State.respond, hz]
@[simp] theorem State.mpduOutcomes_keeps {z0 s : State} (hz : Keeps z0 s) (r : Nat) (c : TxCmd) (mine : FlightMpdu → Bool) (good : Nat → Bool) :
    Keeps z0 ((s.mpduOutcomes r c mine good).1) := by
  unfold State.mpduOutcomes
  apply Keeps.foldl_fst hz
  intro a m h
  dsimp only
  (repeat' split) <;> simp +contextual (maxDischargeDepth := 99) [*]
@[simp] theorem State.ctsArrived_keeps {z0 s : State} (hz : Keeps z0 s) (r : Nat) :
    Keeps z0 (State.ctsArrived s r) := by unfold State.ctsArrived; (repeat' split) <;> simp +contextual (maxDischargeDepth := 99) [hz]
@[simp] theorem State.ackArrived_keeps {z0 s : State} (hz : Keeps z0 s) (r : Nat) :
    Keeps z0 (State.ackArrived s r) := by unfold State.ackArrived; split <;> simp +contextual (maxDischargeDepth := 99) [hz]
@[simp] theorem State.baArrived_keeps {z0 s : State} (hz : Keeps z0 s) (r scid tid ssn : Nat) (bits : List Bool) :
    Keeps z0 (State.baArrived s r scid tid ssn bits) := by unfold State.baArrived; (repeat' split) <;> simp +contextual (maxDischargeDepth := 99) [hz]
@[simp] theorem State.fromStation_keeps {z0 s : State} (hz : Keeps z0 s) (r scid : Nat) (m : RxMpdu) :
    Keeps z0 (State.fromStation s r scid m) := by unfold State.fromStation; (repeat' split) <;> simp +contextual (maxDischargeDepth := 99) [hz]
@[simp] theorem State.psPoll_keeps {z0 s : State} (hz : Keeps z0 s) (r slot aid : Nat) :
    Keeps z0 (State.psPoll s r slot aid) := by unfold State.psPoll; split <;> simp +contextual (maxDischargeDepth := 99) [hz]
@[simp] theorem State.mpduStore_keeps {z0 s : State} (hz : Keeps z0 s) (r : Nat) (m : RxMpdu) :
    Keeps z0 (State.mpduStore s r m).1 := by simp +contextual (maxDischargeDepth := 99) [State.mpduStore, hz]
@[simp] theorem State.toRing_keeps {z0 s : State} (hz : Keeps z0 s) (r : Nat) (m : RxMpdu) (slot : Nat) (scid : Option Nat) (other : Bool) :
    Keeps z0 (State.toRing s r m slot scid other) := by simp only [State.toRing]; (repeat' split) <;> simp +contextual (maxDischargeDepth := 99) [hz]
@[simp] theorem State.rxData_keeps {z0 s : State} (hz : Keeps z0 s) (r : Nat) (m : RxMpdu) (slot : Nat) (scid : Option Nat) (tid seq policy : Nat) :
    Keeps z0 (State.rxData s r m slot scid tid seq policy) := by simp only [State.rxData]; (repeat' split) <;> simp +contextual (maxDischargeDepth := 99) [hz]
@[simp] theorem State.rxTaken_keeps {z0 s : State} (hz : Keeps z0 s) (r : Nat) (m : RxMpdu) (slot : Nat) (scid : Option Nat) (other : Bool) :
    Keeps z0 (State.rxTaken s r m slot scid other) := by unfold State.rxTaken; (repeat' split) <;> simp +contextual (maxDischargeDepth := 99) [hz]
@[simp] theorem State.slotStep_keeps {z0 s : State} (hz : Keeps z0 s) (r j ac : Nat) :
    Keeps z0 (State.slotStep s r j ac) := by simp +contextual (maxDischargeDepth := 99) [State.slotStep, hz]
@[simp] theorem State.aidCmd_keeps {z0 s : State} (hz : Keeps z0 s) (by_ : Req) (f : State → State) (hf : ∀ z t, Keeps z t → Keeps z (f t)) :
    Keeps z0 (State.aidCmd s by_ f) := by unfold State.aidCmd; (repeat' split) <;> simp +contextual (maxDischargeDepth := 99) [*]
@[simp] theorem State.aidPost_keeps {z0 s : State} (hz : Keeps z0 s) (tag : Tag) (code g scid : Nat) :
    Keeps z0 (State.aidPost s tag code g scid) := by simp +contextual (maxDischargeDepth := 99) [State.aidPost, hz]
@[simp] theorem State.keyCmd_keeps {z0 s : State} (hz : Keeps z0 s) (by_ : Req) (f : State → State) (hf : ∀ z t, Keeps z t → Keeps z (f t)) :
    Keeps z0 (State.keyCmd s by_ f) := by unfold State.keyCmd; (repeat' split) <;> simp +contextual (maxDischargeDepth := 99) [*]
@[simp] theorem State.keyPost_keeps {z0 s : State} (hz : Keeps z0 s) (tag : Tag) (code : Nat) :
    Keeps z0 (State.keyPost s tag code) := by simp +contextual (maxDischargeDepth := 99) [State.keyPost, hz]

end Sys2Proof.Machine
end

