-- ==== Sys2Proof/Laws/KeepsUnits.lean ====
section
/-! SUPPORT. `Keeps` for the operations of the tiles from MLINK on, of their lives and of bus reads. -/

namespace Sys2Proof.Machine

open Reg

/-! Mlink. -/

@[simp] theorem State.ctxCount_keeps {z0 s : State} (hz : Keeps z0 s) (used active : Int) :
    Keeps z0 (State.ctxCount s used active) := by simp +contextual (maxDischargeDepth := 99) [State.ctxCount, hz]
@[simp] theorem State.ctxPost_keeps {z0 s : State} (hz : Keeps z0 s) (tag : Tag) (code scid : Nat) :
    Keeps z0 (State.ctxPost s tag code scid) := by simp +contextual (maxDischargeDepth := 99) [State.ctxPost, hz]
@[simp] theorem State.ctxCmd_keeps {z0 s : State} (hz : Keeps z0 s) (by_ : Req) (tag : Tag) (free : Bool) (f : State → State) (hf : ∀ z t, Keeps z t → Keeps z (f t)) :
    Keeps z0 (State.ctxCmd s by_ tag free f) := by unfold State.ctxCmd; (repeat' split) <;> simp +contextual (maxDischargeDepth := 99) [*]
@[simp] theorem State.ctxInstall_keeps {z0 s : State} (hz : Keeps z0 s) (k : Nat) (b : List Byte) (l : Nat) :
    Keeps z0 (State.ctxInstall s k b l) := by simp +contextual (maxDischargeDepth := 99) [State.ctxInstall, hz]
@[simp] theorem State.ctxAgree_keeps {z0 s : State} (hz : Keeps z0 s) (k : Nat) (was : Bool) (t : Nat) :
    Keeps z0 (State.ctxAgree s k was t) := by simp +contextual (maxDischargeDepth := 99) [State.ctxAgree, hz]
@[simp] theorem State.ctxApply_keeps {z0 s : State} (hz : Keeps z0 s) (k : Nat) :
    Keeps z0 (State.ctxApply s k) := by simp +contextual (maxDischargeDepth := 99) [State.ctxApply, hz]
@[simp] theorem State.stqFlush_keeps {z0 s : State} (hz : Keeps z0 s) (q : Nat) :
    Keeps z0 (State.stqFlush s q) := by simp +contextual (maxDischargeDepth := 99) [State.stqFlush, hz]
@[simp] theorem State.linkDesc_keeps {z0 s : State} (hz : Keeps z0 s) (d : Nat) (next : Option Nat) :
    Keeps z0 (State.linkDesc s d next) := by simp +contextual (maxDischargeDepth := 99) [State.linkDesc, hz]
@[simp] theorem State.stqEnq_keeps {z0 s : State} (hz : Keeps z0 s) (q : Nat) (val : Word) :
    Keeps z0 (State.stqEnq s q val) := by simp only [State.stqEnq]; (repeat' split) <;> simp +contextual (maxDischargeDepth := 99) [hz]
@[simp] theorem State.idleDeficit_keeps {z0 s : State} (hz : Keeps z0 s) (k off : Nat) :
    Keeps z0 (State.idleDeficit s k off) := by simp +contextual (maxDischargeDepth := 99) [State.idleDeficit, hz]
@[simp] theorem State.dlCandidates_keeps {z0 s : State} (hz : Keeps z0 s) (r ac : Nat) :
    Keeps z0 (State.dlCandidates s r ac).1 := by simp +contextual (maxDischargeDepth := 99) [State.dlCandidates, hz]
@[simp] theorem State.claim_keeps {z0 s : State} (hz : Keeps z0 s) (l : List (Nat × QMpdu × Nat × Nat)) :
    Keeps z0 (State.claim s l) := by simp +contextual (maxDischargeDepth := 99) [State.claim, hz]
@[simp] theorem State.chain__keeps {z0 s : State} (hz : Keeps z0 s) (l : List Nat) :
    Keeps z0 (s.chain_ l) := by
  induction l generalizing s with
  | nil => assumption
  | cons d l ih =>
    cases l with
    | nil => simp +contextual (maxDischargeDepth := 99) [*, State.chain_]
    | cons e l => simp only [State.chain_]; apply ih; simp +contextual (maxDischargeDepth := 99) [hz]
@[simp] theorem State.mlinkPush_keeps {z0 s : State} (hz : Keeps z0 s) (r ac : Nat) (f : CmdFrom) (tv : List Nat) (l : List (Nat × QMpdu × Nat × Nat)) :
    Keeps z0 (s.mlinkPush r ac f tv l).1 := by
  unfold State.mlinkPush
  extract_lets w0 p d len c
  split
  · rename_i s1 h
    have hp : Keeps z0 (s.took.wwords (lm (rTile r) (0x200000 + p)) tv) := by simp [hz]
    have h1 := State.txqPush_keeps hp _ _ _ _ h
    simp +contextual (maxDischargeDepth := 99) [h1]
  · simp [hz]
@[simp] theorem State.charge_keeps {z0 s : State} (hz : Keeps z0 s) (ac : Nat) (l : List (Nat × QMpdu × Nat × Nat)) :
    Keeps z0 (State.charge s ac l) := by simp +contextual (maxDischargeDepth := 99) [State.charge, hz]
@[simp] theorem State.buildSu_keeps {z0 s : State} (hz : Keeps z0 s) (r ac k : Nat) :
    Keeps z0 (State.buildSu s r ac k) := by simp +contextual (maxDischargeDepth := 99) [State.buildSu, hz]
@[simp] theorem State.buildMu_keeps {z0 s : State} (hz : Keeps z0 s) (r ac kind bw : Nat) (eht : Bool) (us : List (Nat × Nat × Nat × Nat × Nat)) :
    Keeps z0 (State.buildMu s r ac kind bw eht us) := by simp only [State.buildMu]; (repeat' split) <;> simp +contextual (maxDischargeDepth := 99) [hz]
@[simp] theorem State.buildSounding_keeps {z0 s : State} (hz : Keeps z0 s) (r ac : Nat) (cand : List Nat) :
    Keeps z0 (State.buildSounding s r ac cand) := by simp only [State.buildSounding]; (repeat' split) <;> simp +contextual (maxDischargeDepth := 99) [hz]
@[simp] theorem State.ulCandidates_keeps {z0 s : State} (hz : Keeps z0 s) (r : Nat) (members : Option (Fin 32)) :
    Keeps z0 (State.ulCandidates s r members).1 := by simp +contextual (maxDischargeDepth := 99) [State.ulCandidates, hz]
@[simp] theorem State.buildTrigger_keeps {z0 s : State} (hz : Keeps z0 s) (r k : Nat) (ks : List Nat) :
    Keeps z0 (State.buildTrigger s r k ks) := by simp +contextual (maxDischargeDepth := 99) [State.buildTrigger, hz]
@[simp] theorem State.tbMiss_keeps {z0 s : State} (hz : Keeps z0 s) (r k : Nat) :
    Keeps z0 (State.tbMiss s r k) := by simp +contextual (maxDischargeDepth := 99) [State.tbMiss, hz]

/-! Time. -/

@[simp] theorem State.setAdj_keeps {z0 s : State} (hz : Keeps z0 s) (x : Int) :
    Keeps z0 (State.setAdj s x) := by simp +contextual (maxDischargeDepth := 99) [State.setAdj, hz]
@[simp] theorem State.setTsfOfs_keeps {z0 s : State} (hz : Keeps z0 s) (r v : Nat) :
    Keeps z0 (State.setTsfOfs s r v) := by simp +contextual (maxDischargeDepth := 99) [State.setTsfOfs, hz]
@[simp] theorem State.stepCount_keeps {z0 s : State} (hz : Keeps z0 s) (d : Int) :
    Keeps z0 (State.stepCount s d) := by simp +contextual (maxDischargeDepth := 99) [State.stepCount, hz]
@[simp] theorem State.msCmd_keeps {z0 s : State} (hz : Keeps z0 s) (by_ : Req) (tag : Tag) (f : State → State) (code : State → Nat) (hf : ∀ z t, Keeps z t → Keeps z (f t)) :
    Keeps z0 (State.msCmd s by_ tag f code) := by unfold State.msCmd; (repeat' split) <;> simp +contextual (maxDischargeDepth := 99) [*]
@[simp] theorem State.setServo_keeps {z0 s : State} (hz : Keeps z0 s) (st : Nat) :
    Keeps z0 (State.setServo s st) := by simp +contextual (maxDischargeDepth := 99) [State.setServo, hz]
@[simp] theorem State.applySample_keeps {z0 s : State} (hz : Keeps z0 s) (theta : Int) :
    Keeps z0 (State.applySample s theta) := by simp only [State.applySample]; (repeat' split) <;> simp +contextual (maxDischargeDepth := 99) [hz]
@[simp] theorem State.sample_keeps {z0 s : State} (hz : Keeps z0 s) (src : Nat) (theta : Int) :
    Keeps z0 (State.sample s src theta) := by simp +contextual (maxDischargeDepth := 99) [State.sample, hz]
@[simp] theorem State.ppsSync_keeps {z0 s : State} (hz : Keeps z0 s) :
    Keeps z0 (State.ppsSync s) := by simp +contextual (maxDischargeDepth := 99) [State.ppsSync, hz]

/-! Fabric. -/

@[simp] theorem State.modFab_keeps {z0 s : State} (hz : Keeps z0 s) (f : Fabric → Fabric) :
    Keeps z0 (State.modFab s f) := by simp +contextual (maxDischargeDepth := 99) [State.modFab, hz]
@[simp] theorem State.setNhQueue_keeps {z0 s : State} (hz : Keeps z0 s) (n : Nat) (l : List (Nat × Nat)) :
    Keeps z0 (State.setNhQueue s n l) := by simp +contextual (maxDischargeDepth := 99) [State.setNhQueue, hz]
@[simp] theorem State.dPoke_keeps {z0 s : State} (hz : Keeps z0 s) (d k v : Nat) :
    Keeps z0 (State.dPoke s d k v) := by simp +contextual (maxDischargeDepth := 99) [State.dPoke, hz]
@[simp] theorem State.fabDrop_keeps {z0 s : State} (hz : Keeps z0 s) (d : Nat) (cnt : RegId) (hi lo : Nat) :
    Keeps z0 (State.fabDrop s d cnt hi lo) := by simp +contextual (maxDischargeDepth := 99) [State.fabDrop, hz]
@[simp] theorem State.fabResolve_keeps {z0 s : State} (hz : Keeps z0 s) (e hash : Nat) :
    Keeps z0 (State.fabResolve s e hash).1 := by simp +contextual (maxDischargeDepth := 99) [State.fabResolve, hz]
@[simp] theorem State.fabQueue_keeps {z0 s : State} (hz : Keeps z0 s) (n d resends : Nat) (front : Bool) :
    Keeps z0 (State.fabQueue s n d resends front) := by simp +contextual (maxDischargeDepth := 99) [State.fabQueue, hz]
@[simp] theorem State.fabForward_keeps {z0 s : State} (hz : Keeps z0 s) (d n : Nat) (t : Option Nat) (f : Bool) :
    Keeps z0 (s.fabForward d n t f) := by
  unfold State.fabForward
  extract_lets h
  split
  · simp +contextual (maxDischargeDepth := 99) [*]
  · extract_lets r
    have hr : Keeps z0 r.1 := by simp +contextual (maxDischargeDepth := 99) [*, r]
    clear_value r
    split
    · simp +contextual (maxDischargeDepth := 99) [*, hr]
    · cases t <;> simp +contextual +zetaDelta (maxDischargeDepth := 99) [hr]
@[simp] theorem State.fabFrame_keeps {z0 s : State} (hz : Keeps z0 s) (d : Nat) :
    Keeps z0 (State.fabFrame s d) := by simp +contextual (maxDischargeDepth := 99) [State.fabFrame, hz]
@[simp] theorem State.fabChain_keeps {z0 s : State} (hz : Keeps z0 s) (l : List Nat) :
    Keeps z0 (s.fabChain l) := by
  induction l generalizing s with
  | nil => assumption
  | cons d l ih => simp +contextual (maxDischargeDepth := 99) [*, State.fabChain, ih]
@[simp] theorem State.fabBuild_keeps {z0 s : State} (hz : Keeps z0 s) (n : Nat) :
    Keeps z0 (s.fabBuild n) := by
  simp only [State.fabBuild]
  split
  · assumption
  · split
    · assumption
    · split
      · assumption
      · split
        · assumption
        · rename_i h
          have hp : Keeps z0 _ := State.txqPush_keeps (by simp +contextual (maxDischargeDepth := 99) [hz]) _ _ _ _ h
          simp +contextual (maxDischargeDepth := 99) [hp]
@[simp] theorem State.fabKick_keeps {z0 s : State} (hz : Keeps z0 s) :
    Keeps z0 (State.fabKick s) := by simp +contextual (maxDischargeDepth := 99) [State.fabKick, hz]
@[simp] theorem State.fabRing_keeps {z0 s : State} (hz : Keeps z0 s) (f : FabIn) (kind src : Nat) (isNew : Bool) :
    Keeps z0 (State.fabRing s f kind src isNew) := by simp +contextual (maxDischargeDepth := 99) [State.fabRing, hz]
@[simp] theorem State.syncWide_keeps {z0 s : State} (hz : Keeps z0 s) :
    Keeps z0 (State.syncWide s) := by simp +contextual (maxDischargeDepth := 99) [State.syncWide, hz]
@[simp] theorem State.beaconTime_keeps {z0 s : State} (hz : Keeps z0 s) (n seq hash stamp : Nat) :
    Keeps z0 (s.beaconTime n seq hash stamp) := by
  unfold State.beaconTime
  extract_lets b keep
  have hk : ∀ s m mAt, Keeps z0 s → Keeps z0 (keep s m mAt) := by intro s m mAt h; simp +contextual (maxDischargeDepth := 99) [*, keep]
  clear_value keep
  split
  · exact hk _ _ _ hz
  · rename_i m den old s1 s2 par d hc
    have h1 : Keeps z0 s1 := by
      simp only [s1]
      split
      · assumption
      · split <;> simp +contextual (maxDischargeDepth := 99) [*]
    have h2 : Keeps z0 s2 := by simp only [s2]; exact hk _ _ _ h1
    clear_value d par s2
    (repeat' split) <;> first | exact h2 | exact State.sample_keeps h2 ..
@[simp] theorem State.nhHeard_keeps {z0 s : State} (hz : Keeps z0 s) (n seq hash stamp : Nat) :
    Keeps z0 (State.nhHeard s n seq hash stamp) := by simp +contextual (maxDischargeDepth := 99) [State.nhHeard, hz]
@[simp] theorem State.fabTakeIn_keeps {z0 s0 : State} (hz : Keeps z0 s0) (f : FabIn) :
    Keeps z0 (State.fabTakeIn s0 f) := by simp +contextual (maxDischargeDepth := 99) [State.fabTakeIn, hz]
@[simp] theorem State.fabEnq_keeps {z0 s : State} (hz : Keeps z0 s) (val : Word) :
    Keeps z0 (State.fabEnq s val) := by simp +contextual (maxDischargeDepth := 99) [State.fabEnq, hz]
@[simp] theorem State.beacon_keeps {z0 s : State} (hz : Keeps z0 s) (p : Nat) :
    Keeps z0 (s.beacon p) := by
  simp only [State.beacon]
  split
  · simp +contextual (maxDischargeDepth := 99) [*]
  · split
    · split
      · rename_i h
        have hp : Keeps z0 _ := State.txqPush_keeps (by simp +contextual (maxDischargeDepth := 99) [hz]) _ _ _ _ h
        simp +contextual (maxDischargeDepth := 99) [hp]
      · simp +contextual (maxDischargeDepth := 99) [*]
    · simp +contextual (maxDischargeDepth := 99) [*]
@[simp] theorem State.rdvBeacon_keeps {z0 s : State} (hz : Keeps z0 s) (r : Nat) :
    Keeps z0 (State.rdvBeacon s r) := by simp +contextual (maxDischargeDepth := 99) [State.rdvBeacon, hz]
@[simp] theorem State.nhRequeue_keeps {z0 s : State} (hz : Keeps z0 s) (n : Nat) :
    Keeps z0 (State.nhRequeue s n) := by simp +contextual (maxDischargeDepth := 99) [State.nhRequeue, hz]
@[simp] theorem State.nhMiss_keeps {z0 s : State} (hz : Keeps z0 s) (n : Nat) (dozing : Bool) :
    Keeps z0 (State.nhMiss s n dozing) := by simp +contextual (maxDischargeDepth := 99) [State.nhMiss, hz]
@[simp] theorem State.fabResend_keeps {z0 s : State} (hz : Keeps z0 s) (f : Nat × Nat) :
    Keeps z0 (State.fabResend s f) := by simp +contextual (maxDischargeDepth := 99) [State.fabResend, hz]
@[simp] theorem State.fwdPost_keeps {z0 s : State} (hz : Keeps z0 s) (tag : Tag) (code index : Nat) :
    Keeps z0 (State.fwdPost s tag code index) := by simp +contextual (maxDischargeDepth := 99) [State.fwdPost, hz]
@[simp] theorem State.fwdCmd_keeps {z0 s : State} (hz : Keeps z0 s) (by_ : Req) (tag : Tag) (hops : Bool)
    (f : State → Nat → Option Nat → Word → State × Nat × Option Nat) (hf : ∀ z s n o a, Keeps z s → Keeps z (f s n o a).1) :
    Keeps z0 (s.fwdCmd by_ tag hops f) := by
  unfold State.fwdCmd
  apply State.onWrite_keeps hz
  intro z0 s hz
  split
  · simp +contextual (maxDischargeDepth := 99) [*]
  · extract_lets node a bad r
    have h : Keeps z0 r.1 := by simp only [r]; split <;> simp +contextual (maxDischargeDepth := 99) [*, hf]
    split <;> simp +contextual (maxDischargeDepth := 99) [*, h]

/-! Class. -/

@[simp] theorem State.modCls_keeps {z0 s : State} (hz : Keeps z0 s) (f : ClassUnit → ClassUnit) :
    Keeps z0 (State.modCls s f) := by simp +contextual (maxDischargeDepth := 99) [State.modCls, hz]
@[simp] theorem State.setClsQueue_keeps {z0 s : State} (hz : Keeps z0 s) (i : Nat) (l : List ClsFrame) :
    Keeps z0 (State.setClsQueue s i l) := by simp +contextual (maxDischargeDepth := 99) [State.setClsQueue, hz]
@[simp] theorem State.syncCls_keeps {z0 s : State} (hz : Keeps z0 s) :
    Keeps z0 (State.syncCls s) := by simp +contextual (maxDischargeDepth := 99) [State.syncCls, hz]
@[simp] theorem State.clsSettle_keeps {z0 s : State} (hz : Keeps z0 s) (i : Nat) :
    Keeps z0 (State.clsSettle s i) := by simp +contextual (maxDischargeDepth := 99) [State.clsSettle, hz]
@[simp] theorem State.clsAccept_keeps {z0 s : State} (hz : Keeps z0 s) (i : Nat) :
    Keeps z0 (State.clsAccept s i) := by unfold State.clsAccept; split <;> simp +contextual (maxDischargeDepth := 99) [hz]
@[simp] theorem State.clsInject_keeps {z0 s : State} (hz : Keeps z0 s) (val : Word) :
    Keeps z0 (State.clsInject s val) := by simp +contextual (maxDischargeDepth := 99) [State.clsInject, hz]
@[simp] theorem State.setClsFrame_keeps {z0 s : State} (hz : Keeps z0 s) (i n : Nat) (f : ClsFrame) :
    Keeps z0 (State.setClsFrame s i n f) := by simp +contextual (maxDischargeDepth := 99) [State.setClsFrame, hz]
@[simp] theorem State.clsDrop_keeps {z0 s : State} (hz : Keeps z0 s) (i n : Nat) (f : ClsFrame) :
    Keeps z0 (State.clsDrop s i n f) := by simp +contextual (maxDischargeDepth := 99) [State.clsDrop, hz]
@[simp] theorem State.clsItem_keeps {z0 s : State} (hz : Keeps z0 s) (i n : Nat) (f : ClsFrame) (list domain : Nat) :
    Keeps z0 (State.clsItem s i n f list domain) := by simp +contextual (maxDischargeDepth := 99) [State.clsItem, hz]
@[simp] theorem State.clsException_keeps {z0 s : State} (hz : Keeps z0 s) (i n : Nat) (f : ClsFrame) :
    Keeps z0 (State.clsException s i n f) := by simp +contextual (maxDischargeDepth := 99) [State.clsException, hz]
@[simp] theorem State.clsDispose_keeps {z0 s : State} (hz : Keeps z0 s) (i n : Nat) (f : ClsFrame) :
    Keeps z0 (State.clsDispose s i n f) := by simp +contextual (maxDischargeDepth := 99) [State.clsDispose, hz]
@[simp] theorem State.clsRead_keeps {z0 s : State} (hz : Keeps z0 s) (d : Nat) :
    Keeps z0 (State.clsRead s d).1 := by simp +contextual (maxDischargeDepth := 99) [State.clsRead, hz]
@[simp] theorem State.clsParsed_keeps {z0 s : State} (hz : Keeps z0 s) (i n : Nat) (f : ClsFrame) :
    Keeps z0 (State.clsParsed s i n f) := by simp +contextual (maxDischargeDepth := 99) [State.clsParsed, hz]
@[simp] theorem State.emRead_keeps {z0 s : State} (hz : Keeps z0 s) (t : Nat) (k : List Byte) :
    Keeps z0 ((s.emRead t k).1) := by
  simp +contextual (maxDischargeDepth := 99) [hz, State.emRead]
@[simp] theorem State.setRoutes_keeps {z0 s : State} (hz : Keeps z0 s) (v6 : Bool) (t : Tbl (Option Nat)) :
    Keeps z0 (State.setRoutes s v6 t) := by simp +contextual (maxDischargeDepth := 99) [State.setRoutes, hz]
@[simp] theorem State.ctTouch_keeps {z0 s : State} (hz : Keeps z0 s) (i : Nat) (reply : Bool) (flags : Nat) :
    Keeps z0 (State.ctTouch s i reply flags) := by simp +contextual (maxDischargeDepth := 99) [State.ctTouch, hz]
@[simp] theorem State.clsRdErr_keeps {z0 s : State} (hz : Keeps z0 s) (st addr : Nat) :
    Keeps z0 (State.clsRdErr s st addr) := by simp +contextual (maxDischargeDepth := 99) [State.clsRdErr, hz]
@[simp] theorem State.ctLookup_keeps {z0 s : State} (hz : Keeps z0 s) (st : Nat) (f : ClsFrame) :
    Keeps z0 ((s.ctLookup st f).1) := by
  simp only [State.ctLookup]
  (repeat' split) <;> simp +contextual (maxDischargeDepth := 99) [hz]
@[simp] theorem State.clsLookup_keeps {z0 s : State} (hz : Keeps z0 s) (st : Nat) (f : ClsFrame) :
    Keeps z0 ((s.clsLookup st f).1) := by
  simp only [State.clsLookup]
  (repeat' split) <;> simp +contextual (maxDischargeDepth := 99) [hz]
@[simp] theorem State.clsStage_keeps {z0 s : State} (hz : Keeps z0 s) (st : Nat) (f : ClsFrame) :
    Keeps z0 ((s.clsStage st f).1) := by
  simp only [State.clsStage]
  (repeat' split) <;> simp +contextual (maxDischargeDepth := 99) [hz]
@[simp] theorem State.clsFlush_keeps {z0 s : State} (hz : Keeps z0 s) :
    Keeps z0 (State.clsFlush s) := by simp +contextual (maxDischargeDepth := 99) [State.clsFlush, hz]
@[simp] theorem State.storeZero_keeps {z0 s : State} (hz : Keeps z0 s) (port a n : Nat) :
    Keeps z0 (State.storeZero s port a n) := by simp +contextual (maxDischargeDepth := 99) [State.storeZero, hz]
@[simp] theorem State.tableOn_keeps {z0 s : State} (hz : Keeps z0 s) (t : Nat) (reg : RegId) (enBit base size : Nat) (count : RegId) :
    Keeps z0 (State.tableOn s t reg enBit base size count) := by simp +contextual (maxDischargeDepth := 99) [State.tableOn, hz]
@[simp] theorem State.tableWrite_keeps {z0 s : State} (hz : Keeps z0 s) (t : Nat) (val : Word) :
    Keeps z0 (State.tableWrite s t val) := by simp +contextual (maxDischargeDepth := 99) [State.tableWrite, hz]
@[simp] theorem State.tcmd_keeps {z0 s : State} (hz : Keeps z0 s) (by_ : Req) (k op table len : Nat) (tag : BitVec 4) :
    Keeps z0 (State.tcmd s by_ k op table len tag) := by simp +contextual (maxDischargeDepth := 99) [State.tcmd, hz]
@[simp] theorem State.tcmdAck_keeps {z0 s : State} (hz : Keeps z0 s) (k : Nat) (tag : Nat) :
    Keeps z0 (State.tcmdAck s k tag) := by simp +contextual (maxDischargeDepth := 99) [State.tcmdAck, hz]
@[simp] theorem State.emDo_keeps {z0 s : State} (hz : Keeps z0 s) (c : ClsCmd) :
    Keeps z0 ((s.emDo c).1) := by
  simp only [State.emDo]
  (repeat' split) <;> simp +contextual (maxDischargeDepth := 99) [hz]
@[simp] theorem State.routeDo_keeps {z0 s : State} (hz : Keeps z0 s) (c : ClsCmd) :
    Keeps z0 (State.routeDo s c).1 := by simp +contextual (maxDischargeDepth := 99) [State.routeDo, hz]
@[simp] theorem State.ctDo_keeps {z0 s : State} (hz : Keeps z0 s) (c : ClsCmd) (b : Bool) :
    Keeps z0 ((s.ctDo c b).1) := by
  simp only [State.ctDo]
  (repeat' split) <;> simp +contextual (maxDischargeDepth := 99) [hz]
@[simp] theorem State.tcmdDo_keeps {z0 s : State} (hz : Keeps z0 s) (c : ClsCmd) (indexFull : Bool) :
    Keeps z0 (State.tcmdDo s c indexFull).1 := by simp +contextual (maxDischargeDepth := 99) [State.tcmdDo, hz]

/-! Sched. -/

@[simp] theorem State.modSched_keeps {z0 s : State} (hz : Keeps z0 s) (f : SchedUnit → SchedUnit) :
    Keeps z0 (State.modSched s f) := by simp +contextual (maxDischargeDepth := 99) [State.modSched, hz]
@[simp] theorem State.syncItems_keeps {z0 s : State} (hz : Keeps z0 s) :
    Keeps z0 (State.syncItems s) := by simp +contextual (maxDischargeDepth := 99) [State.syncItems, hz]
@[simp] theorem State.setItem_keeps {z0 s : State} (hz : Keeps z0 s) (k : Nat) (x : Option WorkItem) :
    Keeps z0 (State.setItem s k x) := by simp +contextual (maxDischargeDepth := 99) [State.setItem, hz]
@[simp] theorem State.ovfWrite_keeps {z0 s : State} (hz : Keeps z0 s) (val : Word) :
    Keeps z0 (State.ovfWrite s val) := by simp +contextual (maxDischargeDepth := 99) [State.ovfWrite, hz]
@[simp] theorem State.trcWrite_keeps {z0 s : State} (hz : Keeps z0 s) (val : Word) :
    Keeps z0 (State.trcWrite s val) := by simp +contextual (maxDischargeDepth := 99) [State.trcWrite, hz]
@[simp] theorem State.trace_keeps {z0 s : State} (hz : Keeps z0 s) (k : Nat) (x : WorkItem) (event eng marks : Nat) (voided : Bool) (ns : Nat) :
    Keeps z0 (State.trace s k x event eng marks voided ns) := by simp +contextual (maxDischargeDepth := 99) [State.trace, hz]
@[simp] theorem State.setReadyList_keeps {z0 s : State} (hz : Keeps z0 s) (l : Nat) (x : List Nat) :
    Keeps z0 (State.setReadyList s l x) := by simp +contextual (maxDischargeDepth := 99) [State.setReadyList, hz]
@[simp] theorem State.makeReady_keeps {z0 s : State} (hz : Keeps z0 s) (k : Nat) (x : WorkItem) :
    Keeps z0 (State.makeReady s k x) := by simp +contextual (maxDischargeDepth := 99) [State.makeReady, hz]
@[simp] theorem State.setDispatchQ_keeps {z0 s : State} (hz : Keeps z0 s) (g : Nat) (l : List Nat) :
    Keeps z0 (State.setDispatchQ s g l) := by simp +contextual (maxDischargeDepth := 99) [State.setDispatchQ, hz]
@[simp] theorem State.accept_keeps {z0 s : State} (hz : Keeps z0 s) (words0 : List Nat) :
    Keeps z0 (State.accept s words0).1 := by simp +contextual (maxDischargeDepth := 99) [State.accept, hz]
@[simp] theorem State.schedFull_keeps {z0 s : State} (hz : Keeps z0 s) :
    Keeps z0 (State.schedFull s) := by simp +contextual (maxDischargeDepth := 99) [State.schedFull, hz]
@[simp] theorem State.enqAnswer_keeps {z0 s : State} (hz : Keeps z0 s) (key : Nat) (ok : Bool) (h : Nat) :
    Keeps z0 (State.enqAnswer s key ok h) := by simp only [State.enqAnswer]; (repeat' split) <;> simp +contextual (maxDischargeDepth := 99) [hz]
@[simp] theorem State.cancelAnswer_keeps {z0 s : State} (hz : Keeps z0 s) (key : Nat) (ok : Bool) :
    Keeps z0 (State.cancelAnswer s key ok) := by simp +contextual (maxDischargeDepth := 99) [State.cancelAnswer, hz]
@[simp] theorem State.dispatch_keeps {z0 s : State} (hz : Keeps z0 s) (l : Nat) :
    Keeps z0 (State.dispatch s l) := by simp only [State.dispatch]; (repeat' split) <;> simp +contextual (maxDischargeDepth := 99) [hz]
@[simp] theorem State.freeItem_keeps {z0 s : State} (hz : Keeps z0 s) (k : Nat) (x : WorkItem) :
    Keeps z0 (State.freeItem s k x) := by simp +contextual (maxDischargeDepth := 99) [State.freeItem, hz]
@[simp] theorem State.itemDrop_keeps {z0 s : State} (hz : Keeps z0 s) (x : WorkItem) :
    Keeps z0 (State.itemDrop s x) := by simp +contextual (maxDischargeDepth := 99) [State.itemDrop, hz]
@[simp] theorem State.unqueue_keeps {z0 s : State} (hz : Keeps z0 s) (k : Nat) (x : WorkItem) :
    Keeps z0 (State.unqueue s k x) := by unfold State.unqueue; split <;> simp +contextual (maxDischargeDepth := 99) [hz]
@[simp] theorem State.discard_keeps {z0 s : State} (hz : Keeps z0 s) (k : Nat) (x : WorkItem) (release : Bool) :
    Keeps z0 (State.discard s k x release) := by simp +contextual (maxDischargeDepth := 99) [State.discard, hz]
@[simp] theorem State.dispose_keeps {z0 s : State} (hz : Keeps z0 s) (x : WorkItem) (disp : Word) :
    Keeps z0 (State.dispose s x disp) := by simp only [State.dispose]; (repeat' split) <;> simp +contextual (maxDischargeDepth := 99) [hz]
@[simp] theorem State.release_keeps {z0 s : State} (hz : Keeps z0 s) (k : Nat) (x : WorkItem) (disp : Word) :
    Keeps z0 (State.release s k x disp) := by simp +contextual (maxDischargeDepth := 99) [State.release, hz]
@[simp] theorem State.releaseUnord_keeps {z0 s : State} (hz : Keeps z0 s) (k : Nat) :
    Keeps z0 (State.releaseUnord s k) := by unfold State.releaseUnord; (repeat' split) <;> simp +contextual (maxDischargeDepth := 99) [hz]
@[simp] theorem State.complete_keeps {z0 s : State} (hz : Keeps z0 s) (k : Nat) (x : WorkItem) (disp : Word) (key waits : Nat) :
    Keeps z0 (State.complete s k x disp key waits) := by simp +contextual (maxDischargeDepth := 99) [State.complete, hz]
@[simp] theorem State.postedDone_keeps {z0 s : State} (hz : Keeps z0 s) (key n : Nat) :
    Keeps z0 (State.postedDone s key n) := by simp +contextual (maxDischargeDepth := 99) [State.postedDone, hz]
@[simp] theorem State.abandon_keeps {z0 s : State} (hz : Keeps z0 s) (key : Nat) :
    Keeps z0 (State.abandon s key) := by simp only [State.abandon]; (repeat' split) <;> simp +contextual (maxDischargeDepth := 99) [hz]
@[simp] theorem State.engThreadStop_keeps {z0 s : State} (hz : Keeps z0 s) (c e t cause : Nat) :
    Keeps z0 (State.engThreadStop s c e t cause) := by simp +contextual (maxDischargeDepth := 99) [State.engThreadStop, hz]
@[simp] theorem State.engineLeaves_keeps {z0 s : State} (hz : Keeps z0 s) (g : Nat) :
    Keeps z0 (s.engineLeaves g) := by
  unfold State.engineLeaves
  extract_lets s1 s2
  have h1 : Keeps z0 s1 := by
    simp only [s1]
    refine Keeps.foldl hz ?_
    intro s k hz
    split <;> simp +contextual (maxDischargeDepth := 99) [*]
  have h2 : Keeps z0 s2 := by simp +contextual (maxDischargeDepth := 99) [*, s2, h1]
  refine Keeps.foldl h2 ?_
  intro s b hz
  split <;> simp +contextual (maxDischargeDepth := 99) [*]
@[simp] theorem State.clusterLeaves_keeps {z0 s : State} (hz : Keeps z0 s) (c : Nat) :
    Keeps z0 (State.clusterLeaves s c) := by simp +contextual (maxDischargeDepth := 99) [State.clusterLeaves, hz]
@[simp] theorem State.clusterAbandon_keeps {z0 s : State} (hz : Keeps z0 s) (c : Nat) :
    Keeps z0 (State.clusterAbandon s c) := by simp +contextual (maxDischargeDepth := 99) [State.clusterAbandon, hz]
@[simp] theorem State.clusterStop_keeps {z0 s : State} (hz : Keeps z0 s) (c : Nat) :
    Keeps z0 (State.clusterStop s c) := by simp +contextual (maxDischargeDepth := 99) [State.clusterStop, hz]
@[simp] theorem State.schedFlush_keeps {z0 s : State} (hz : Keeps z0 s) :
    Keeps z0 (State.schedFlush s) := by
  unfold State.schedFlush
  refine Keeps.foldl hz fun s q hz => ?_
  (repeat' split) <;> simp +contextual (maxDischargeDepth := 99) [hz]
@[simp] theorem State.schedReset_keeps {z0 s : State} (hz : Keeps z0 s) :
    Keeps z0 (State.schedReset s) := by simp +contextual (maxDischargeDepth := 99) [State.schedReset, hz]
@[simp] theorem State.engRunWrite_keeps {z0 s : State} (hz : Keeps z0 s) (by_ : Req) (c : Nat) (val : Word) :
    Keeps z0 (State.engRunWrite s by_ c val) := by simp +contextual (maxDischargeDepth := 99) [State.engRunWrite, hz]
@[simp] theorem State.engClkCheck_keeps {z0 s : State} (hz : Keeps z0 s) (c : Nat) :
    Keeps z0 (State.engClkCheck s c) := by simp +contextual (maxDischargeDepth := 99) [State.engClkCheck, hz]
@[simp] theorem State.engClkWrite_keeps {z0 s : State} (hz : Keeps z0 s) (c : Nat) (val : Word) :
    Keeps z0 (State.engClkWrite s c val) := by simp +contextual (maxDischargeDepth := 99) [State.engClkWrite, hz]
@[simp] theorem State.substPost_keeps {z0 s : State} (hz : Keeps z0 s) (c : Nat) (tag : Tag) (code e : Nat) :
    Keeps z0 (State.substPost s c tag code e) := by simp +contextual (maxDischargeDepth := 99) [State.substPost, hz]
@[simp] theorem State.substCmd_keeps {z0 s : State} (hz : Keeps z0 s) (c e : Nat) (tag : Tag) :
    Keeps z0 (State.substCmd s c e tag) := by simp +contextual (maxDischargeDepth := 99) [State.substCmd, hz]

/-! Cipher. -/

@[simp] theorem State.modCipher_keeps {z0 s : State} (hz : Keeps z0 s) (f : CipherUnit → CipherUnit) :
    Keeps z0 (State.modCipher s f) := by simp +contextual (maxDischargeDepth := 99) [State.modCipher, hz]
@[simp] theorem State.setSession_keeps {z0 s : State} (hz : Keeps z0 s) (n : Nat) (x : Option Session) :
    Keeps z0 (State.setSession s n x) := by simp +contextual (maxDischargeDepth := 99) [State.setSession, hz]
@[simp] theorem State.sessCmd_keeps {z0 s : State} (hz : Keeps z0 s) (by_ : Req) (tag : Tag) (f : State → State × Nat)
    (hf : ∀ z s, Keeps z s → Keeps z (f s).1) :
    Keeps z0 (s.sessCmd by_ tag f) := by
  unfold State.sessCmd
  apply State.onWrite_keeps hz
  intro z0 s hz
  split <;> simp +contextual (maxDischargeDepth := 99) [*, hf]
@[simp] theorem State.syncCipher_keeps {z0 s : State} (hz : Keeps z0 s) :
    Keeps z0 (State.syncCipher s) := by simp +contextual (maxDischargeDepth := 99) [State.syncCipher, hz]
@[simp] theorem State.badJob_keeps {z0 s : State} (hz : Keeps z0 s) (d : Nat) :
    Keeps z0 (State.badJob s d) := by simp +contextual (maxDischargeDepth := 99) [State.badJob, hz]
@[simp] theorem State.startJobs_keeps {z0 s : State} (hz : Keeps z0 s) :
    Keeps z0 (State.startJobs s) := by unfold State.startJobs; split <;> simp +contextual (maxDischargeDepth := 99) [hz]
@[simp] theorem State.framePut_keeps {z0 s : State} (hz : Keeps z0 s) (d o : Nat) (l : List Byte) :
    Keeps z0 (State.framePut s d o l) := by simp +contextual (maxDischargeDepth := 99) [State.framePut, hz]
@[simp] theorem State.runJob_keeps {z0 s : State} (hz : Keeps z0 s) (d : Nat) (x : Session) :
    Keeps z0 (State.runJob s d x).1 := by simp +contextual (maxDischargeDepth := 99) [State.runJob, hz]
@[simp] theorem State.jobRead_keeps {z0 s : State} (hz : Keeps z0 s) (d : Nat) (x : Option Session) :
    Keeps z0 ((s.jobRead d x).1) := by
  simp only [State.jobRead]
  split
  · simp +contextual (maxDischargeDepth := 99) [*]
  · split <;> simp +contextual (maxDischargeDepth := 99) [*]
@[simp] theorem State.handOn_keeps {z0 s : State} (hz : Keeps z0 s) (q d code result : Nat) :
    Keeps z0 (State.handOn s q d code result) := by simp +contextual (maxDischargeDepth := 99) [State.handOn, hz]
@[simp] theorem State.jobEnd_keeps {z0 s : State} (hz : Keeps z0 s) (q d code : Nat) :
    Keeps z0 (State.jobEnd s q d code) := by unfold State.jobEnd; split <;> simp +contextual (maxDischargeDepth := 99) [hz]
@[simp] theorem State.cipherFlush_keeps {z0 s : State} (hz : Keeps z0 s) :
    Keeps z0 (State.cipherFlush s) := by simp +contextual (maxDischargeDepth := 99) [State.cipherFlush, hz]

/-! Dram. -/

@[simp] theorem State.setMasks_keeps {z0 s : State} (hz : Keeps z0 s) (new : List Nat) : Keeps z0 (s.setMasks new) := by
  refine hz.trans ?_
  unfold State.setMasks
  dsimp only
  split
  · exact Keeps.refl s
  · refine ⟨rfl, rfl, fun c => ⟨?_, c.2⟩⟩
    have aux : ∀ (l m : Tbl Byte), twf memDefault 0 m = true → twf memDefault 0
        (l.foldl (fun m c => if c.1 < storeEnd then tput memDefault m (remapAddr s.store.masks new c.1) c.2 else m) m) = true := by
      intro l
      induction l with
      | nil => exact fun _ h => h
      | cons p l ih =>
        intro m h
        refine ih _ ?_
        dsimp only
        split
        · exact twf_tput _ _ _ _ h
        · exact h
    exact aux _ _ (twf_filter _ _ _ _ c.1)
@[simp] theorem State.applyMasks_keeps {z0 s : State} (hz : Keeps z0 s) :
    Keeps z0 (State.applyMasks s) := by simp +contextual (maxDischargeDepth := 99) [State.applyMasks, hz]
@[simp] theorem State.setChan_keeps {z0 s : State} (hz : Keeps z0 s) (c : Nat) (x : Chan) :
    Keeps z0 (State.setChan s c x) := by simp +contextual (maxDischargeDepth := 99) [State.setChan, hz]
@[simp] theorem State.trainChannels_keeps {z0 s : State} (hz : Keeps z0 s) : Keeps z0 s.trainChannels := by
  simp +contextual (maxDischargeDepth := 99) [State.trainChannels, hz]
@[simp] theorem State.reqDone_keeps {z0 s : State} (hz : Keeps z0 s) (q : StReq) :
    Keeps z0 (State.reqDone s q) := by simp +contextual (maxDischargeDepth := 99) [State.reqDone, hz]
@[simp] theorem State.admit_keeps {z0 s : State} (hz : Keeps z0 s) (c n : Nat) :
    Keeps z0 (s.letIn c n) := by
  induction n generalizing s with
  | zero => assumption
  | succ n ih =>
    simp only [State.letIn]
    split
    · assumption
    · split
      · assumption
      · apply ih
        split
        · simp +contextual (maxDischargeDepth := 99) [*]
        · split <;> simp +contextual (maxDischargeDepth := 99) [*]
@[simp] theorem State.closeRows_keeps {z0 s : State} (hz : Keeps z0 s) (c : Nat) :
    Keeps z0 (State.closeRows s c) := by simp +contextual (maxDischargeDepth := 99) [State.closeRows, hz]
@[simp] theorem State.nrRequest_keeps {z0 s : State} (hz : Keeps z0 s) (c b row : Nat) :
    Keeps z0 (State.nrRequest s c b row) := by simp +contextual (maxDischargeDepth := 99) [State.nrRequest, hz]
@[simp] theorem State.issueCmd_keeps {z0 s : State} (hz : Keeps z0 s) (c : Nat) (q : StReq) :
    Keeps z0 (State.issueCmd s c q) := by simp only [State.issueCmd]; (repeat' split) <;> simp +contextual (maxDischargeDepth := 99) [hz]
@[simp] theorem State.readEnds_keeps {z0 s : State} (hz : Keeps z0 s) (q : StReq) (f : ReadFound) :
    Keeps z0 (s.readEnds q f) := by
  cases f <;> simp only [State.readEnds] <;> (repeat' split) <;> simp +contextual (maxDischargeDepth := 99) [*]
@[simp] theorem State.nrSettle_keeps {z0 s : State} (hz : Keeps z0 s) (c : Nat) :
    Keeps z0 (State.nrSettle s c) := by simp +contextual (maxDischargeDepth := 99) [State.nrSettle, hz]
@[simp] theorem State.retrainEnd_keeps {z0 s : State} (hz : Keeps z0 s) (c : Nat) (converged : Bool) :
    Keeps z0 (State.retrainEnd s c converged) := by simp +contextual (maxDischargeDepth := 99) [State.retrainEnd, hz]
@[simp] theorem State.repairPost_keeps {z0 s : State} (hz : Keeps z0 s) (page : Nat) (tag : Tag) (code : Nat) :
    Keeps z0 (State.repairPost s page tag code) := by simp +contextual (maxDischargeDepth := 99) [State.repairPost, hz]
@[simp] theorem State.repairCmd_keeps {z0 s : State} (hz : Keeps z0 s) (by_ : Req) (f : State → State) (hf : ∀ z t, Keeps z t → Keeps z (f t)) :
    Keeps z0 (State.repairCmd s by_ f) := by unfold State.repairCmd; (repeat' split) <;> simp +contextual (maxDischargeDepth := 99) [*]

/-! Wire. -/

@[simp] theorem State.setLane_keeps {z0 s : State} (hz : Keeps z0 s) (n : Nat) (x : Lane) :
    Keeps z0 (State.setLane s n x) := by simp +contextual (maxDischargeDepth := 99) [State.setLane, hz]
@[simp] theorem State.laneSync_keeps {z0 s : State} (hz : Keeps z0 s) (n : Nat) :
    Keeps z0 (State.laneSync s n) := by simp +contextual (maxDischargeDepth := 99) [State.laneSync, hz]
@[simp] theorem State.laneOff_keeps {z0 s : State} (hz : Keeps z0 s) (n : Nat) :
    Keeps z0 (State.laneOff s n) := by simp +contextual (maxDischargeDepth := 99) [State.laneOff, hz]
@[simp] theorem State.laneCtlWrite_keeps {z0 s : State} (hz : Keeps z0 s) (n : Nat) (val : Word) :
    Keeps z0 (State.laneCtlWrite s n val) := by simp +contextual (maxDischargeDepth := 99) [State.laneCtlWrite, hz]
@[simp] theorem State.txqDrop_keeps {z0 s : State} (hz : Keeps z0 s) (n d : Nat) :
    Keeps z0 (State.txqDrop s n d) := by simp +contextual (maxDischargeDepth := 99) [State.txqDrop, hz]
@[simp] theorem State.laneFlush_keeps {z0 s : State} (hz : Keeps z0 s) (n : Nat) :
    Keeps z0 (State.laneFlush s n) := by simp +contextual (maxDischargeDepth := 99) [State.laneFlush, hz]
@[simp] theorem State.laneDown_keeps {z0 s : State} (hz : Keeps z0 s) (n : Nat) :
    Keeps z0 (State.laneDown s n) := by simp +contextual (maxDischargeDepth := 99) [State.laneDown, hz]
@[simp] theorem State.pauseSync_keeps {z0 s : State} (hz : Keeps z0 s) (n : Nat) :
    Keeps z0 (State.pauseSync s n) := by simp only [State.pauseSync]; (repeat' split) <;> simp +contextual (maxDischargeDepth := 99) [hz]
@[simp] theorem State.rxDrop_keeps {z0 s : State} (hz : Keeps z0 s) (n hi lo : Nat) :
    Keeps z0 (State.rxDrop s n hi lo) := by simp +contextual (maxDischargeDepth := 99) [State.rxDrop, hz]
@[simp] theorem State.wirePump_keeps {z0 s : State} (hz : Keeps z0 s) (n k : Nat) :
    Keeps z0 (s.wirePump n k) := by
  induction k generalizing s with
  | zero => assumption
  | succ k ih =>
    simp only [State.wirePump]
    split
    · assumption
    · split
      · assumption
      · apply ih
        (repeat' split) <;> simp +contextual (maxDischargeDepth := 99) [*]
@[simp] theorem State.wireDrain_keeps {z0 s : State} (hz : Keeps z0 s) (n : Nat) :
    Keeps z0 (State.wireDrain s n) := by simp +contextual (maxDischargeDepth := 99) [State.wireDrain, hz]
@[simp] theorem State.pauseIn_keeps {z0 s : State} (hz : Keeps z0 s) (n : Nat) (data : List Byte) :
    Keeps z0 (State.pauseIn s n data) := by simp +contextual (maxDischargeDepth := 99) [State.pauseIn, hz]
@[simp] theorem State.txEnqueue_keeps {z0 s : State} (hz : Keeps z0 s) (n pri : Nat) (f : WireFrame) :
    Keeps z0 (State.txEnqueue s n pri f) := by simp +contextual (maxDischargeDepth := 99) [State.txEnqueue, hz]
@[simp] theorem State.wireRead_keeps {z0 s : State} (hz : Keeps z0 s) (d : Nat) :
    Keeps z0 (State.wireRead s d).1 := by simp +contextual (maxDischargeDepth := 99) [State.wireRead, hz]
@[simp] theorem State.transparent_keeps {z0 s : State} (hz : Keeps z0 s) (n stamp : Nat) (f : List Byte) :
    Keeps z0 (State.transparent s n stamp f).1 := by unfold State.transparent; (repeat' split) <;> simp +contextual (maxDischargeDepth := 99) [hz]
@[simp] theorem State.laneSend_keeps {z0 s : State} (hz : Keeps z0 s) (n : Nat) (d : Option Nat) (bytes : List Byte) :
    Keeps z0 (State.laneSend s n d bytes) := by simp +contextual (maxDischargeDepth := 99) [State.laneSend, hz]
@[simp] theorem State.txErr_keeps {z0 s : State} (hz : Keeps z0 s) (n d : Nat) :
    Keeps z0 (State.txErr s n d) := by simp +contextual (maxDischargeDepth := 99) [State.txErr, hz]
@[simp] theorem State.txFrame_keeps {z0 s : State} (hz : Keeps z0 s) (n : Nat) (f : WireFrame) :
    Keeps z0 (State.txFrame s n f) := by simp +contextual (maxDischargeDepth := 99) [State.txFrame, hz]
@[simp] theorem State.wireDiscard_keeps {z0 s : State} (hz : Keeps z0 s) :
    Keeps z0 (State.wireDiscard s) := by simp +contextual (maxDischargeDepth := 99) [State.wireDiscard, hz]
@[simp] theorem State.mdioCmd_keeps {z0 s : State} (hz : Keeps z0 s) (by_ : Req) (c45 read : Bool) (phyad reg : Nat) (tag : Tag) :
    Keeps z0 (State.mdioCmd s by_ c45 read phyad reg tag) := by simp +contextual (maxDischargeDepth := 99) [State.mdioCmd, hz]

/-! HostIf. -/

@[simp] theorem State.modHost_keeps {z0 s : State} (hz : Keeps z0 s) (f : HostUnit → HostUnit) :
    Keeps z0 (State.modHost s f) := by simp +contextual (maxDischargeDepth := 99) [State.modHost, hz]
@[simp] theorem State.setD2h_keeps {z0 s : State} (hz : Keeps z0 s) (r : Nat) (l : List Nat) :
    Keeps z0 (State.setD2h s r l) := by simp +contextual (maxDischargeDepth := 99) [State.setD2h, hz]
@[simp] theorem State.ringConfig_keeps {z0 s : State} (hz : Keeps z0 s) (r : Nat) (val : Word) :
    Keeps z0 (State.ringConfig s r val) := by simp +contextual (maxDischargeDepth := 99) [State.ringConfig, hz]
@[simp] theorem State.hostWrite_keeps {z0 s : State} (hz : Keeps z0 s) (a : Nat) (l : List Byte) :
    Keeps z0 (State.hostWrite s a l) := by simp +contextual (maxDischargeDepth := 99) [State.hostWrite, hz]
@[simp] theorem State.ringMsg_keeps {z0 s : State} (hz : Keeps z0 s) (r : Nat) :
    Keeps z0 (State.ringMsg s r) := by simp +contextual (maxDischargeDepth := 99) [State.ringMsg, hz]
@[simp] theorem State.entryDone_keeps {z0 s : State} (hz : Keeps z0 s) (r o : Nat) (words : List Nat) (ok : Bool) :
    Keeps z0 (State.entryDone s r o words ok) := by simp +contextual (maxDischargeDepth := 99) [State.entryDone, hz]
@[simp] theorem State.goneDrop_keeps {z0 s : State} (hz : Keeps z0 s) (d : Nat) :
    Keeps z0 (State.goneDrop s d) := by simp +contextual (maxDischargeDepth := 99) [State.goneDrop, hz]
@[simp] theorem State.hostRead_keeps {z0 s : State} (hz : Keeps z0 s) (d : Nat) :
    Keeps z0 (State.hostRead s d).1 := by simp +contextual (maxDischargeDepth := 99) [State.hostRead, hz]
@[simp] theorem State.quiesce_keeps {z0 s : State} (hz : Keeps z0 s) :
    Keeps z0 (State.quiesce s) := by simp +contextual (maxDischargeDepth := 99) [State.quiesce, hz]
@[simp] theorem State.hostSync_keeps {z0 s : State} (hz : Keeps z0 s) :
    Keeps z0 (State.hostSync s) := by simp +contextual (maxDischargeDepth := 99) [State.hostSync, hz]
@[simp] theorem State.msixFlush_keeps {z0 s : State} (hz : Keeps z0 s) :
    Keeps z0 (State.msixFlush s) := by simp +contextual (maxDischargeDepth := 99) [State.msixFlush, hz]
@[simp] theorem State.setFunction_keeps {z0 s : State} (hz : Keeps z0 s) (bme msixEn d3 : Bool) :
    Keeps z0 (State.setFunction s bme msixEn d3) := by simp +contextual (maxDischargeDepth := 99) [State.setFunction, hz]
@[simp] theorem State.configReset_keeps {z0 s : State} (hz : Keeps z0 s) :
    Keeps z0 (State.configReset s) := by simp +contextual (maxDischargeDepth := 99) [State.configReset, hz]
@[simp] theorem State.linkDown_keeps {z0 s : State} (hz : Keeps z0 s) :
    Keeps z0 (State.linkDown s) := by simp +contextual (maxDischargeDepth := 99) [State.linkDown, hz]
@[simp] theorem State.mbxCmd_keeps {z0 s : State} (hz : Keeps z0 s) (k : Nat) (val : Word) :
    Keeps z0 (State.mbxCmd s k val) := by simp +contextual (maxDischargeDepth := 99) [State.mbxCmd, hz]
@[simp] theorem State.mbxPost_keeps {z0 s : State} (hz : Keeps z0 s) (by_ : Req) (k code tag : Nat) :
    Keeps z0 (State.mbxPost s by_ k code tag) := by simp +contextual (maxDischargeDepth := 99) [State.mbxPost, hz]

/-! Mgmt. -/

@[simp] theorem State.modMgmt_keeps {z0 s : State} (hz : Keeps z0 s) (f : MgmtUnit → MgmtUnit) :
    Keeps z0 (State.modMgmt s f) := by simp +contextual (maxDischargeDepth := 99) [State.modMgmt, hz]
@[simp] theorem State.decodeErr_keeps {z0 s : State} (hz : Keeps z0 s) (by_ : Req) (addr : Nat) :
    Keeps z0 (State.decodeErr s by_ addr) := by simp +contextual (maxDischargeDepth := 99) [State.decodeErr, hz]
@[simp] theorem State.onPriv_keeps {z0 s : State} (hz : Keeps z0 s) (by_ : Req) (off : Nat) (f : State → State) (hf : ∀ z t, Keeps z t → Keeps z (f t)) :
    Keeps z0 (State.onPriv s by_ off f) := by unfold State.onPriv; (repeat' split) <;> simp +contextual (maxDischargeDepth := 99) [*]
@[simp] theorem State.otpProg_keeps {z0 s : State} (hz : Keeps z0 s) (val : Word) :
    Keeps z0 (State.otpProg s val) := by simp +contextual (maxDischargeDepth := 99) [State.otpProg, hz]
@[simp] theorem State.logPut_keeps {z0 s : State} (hz : Keeps z0 s) (by_ : Req) (val : Word) :
    Keeps z0 (State.logPut s by_ val) := by simp +contextual (maxDischargeDepth := 99) [State.logPut, hz]
@[simp] theorem State.logPers_keeps {z0 s : State} (hz : Keeps z0 s) (val : Word) :
    Keeps z0 (State.logPers s val) := by simp +contextual (maxDischargeDepth := 99) [State.logPers, hz]
@[simp] theorem State.setStage_keeps {z0 s : State} (hz : Keeps z0 s) (st : Nat) (tj : Int) (hot : Nat) :
    Keeps z0 (State.setStage s st tj hot) := by simp +contextual (maxDischargeDepth := 99) [State.setStage, hz]
@[simp] theorem State.dutyFree_keeps {z0 s : State} (hz : Keeps z0 s) :
    Keeps z0 (State.dutyFree s) := by simp +contextual (maxDischargeDepth := 99) [State.dutyFree, hz]
@[simp] theorem State.readVolt_keeps {z0 s : State} (hz : Keeps z0 s) (n : Nat) (mv : BitVec 16) :
    Keeps z0 (State.readVolt s n mv) := by simp +contextual (maxDischargeDepth := 99) [State.readVolt, hz]
@[simp] theorem State.dropMgmtSlots_keeps {z0 s : State} (hz : Keeps z0 s) :
    Keeps z0 (s.dropMgmtSlots) := by
  unfold State.dropMgmtSlots
  extract_lets mine slots s1
  have h1 : Keeps z0 s1 := by
    simp only [s1]
    refine Keeps.foldl hz ?_
    intro s q hz
    split <;> simp +contextual (maxDischargeDepth := 99) [*]
  simp +contextual (maxDischargeDepth := 99) [*, h1]
@[simp] theorem State.mgmtRestart_keeps {z0 s : State} (hz : Keeps z0 s) (cause : Nat) :
    Keeps z0 (State.mgmtRestart s cause) := by simp +contextual (maxDischargeDepth := 99) [State.mgmtRestart, hz]
@[simp] theorem State.wdCtlWrite_keeps {z0 s : State} (hz : Keeps z0 s) (k : Nat) (val : Word) :
    Keeps z0 (State.wdCtlWrite s k val) := by simp +contextual (maxDischargeDepth := 99) [State.wdCtlWrite, hz]
@[simp] theorem State.wdKick_keeps {z0 s : State} (hz : Keeps z0 s) (k : Nat) (key : Nat) :
    Keeps z0 (State.wdKick s k key) := by simp +contextual (maxDischargeDepth := 99) [State.wdKick, hz]
@[simp] theorem State.wdExpire_keeps {z0 s : State} (hz : Keeps z0 s) (k : Nat) :
    Keeps z0 (State.wdExpire s k) := by unfold State.wdExpire; split <;> simp +contextual (maxDischargeDepth := 99) [hz]
@[simp] theorem State.crCmd_keeps {z0 s : State} (hz : Keeps z0 s) (verify : Bool) (tag : Tag) :
    Keeps z0 (State.crCmd s verify tag) := by simp +contextual (maxDischargeDepth := 99) [State.crCmd, hz]
@[simp] theorem State.sramPut_keeps {z0 s : State} (hz : Keeps z0 s) (o : Nat) (l : List Byte) :
    Keeps z0 (State.sramPut s o l) := by simp +contextual (maxDischargeDepth := 99) [State.sramPut, hz]
@[simp] theorem State.flCmd_keeps {z0 s : State} (hz : Keeps z0 s) (c : FlCmd) (tag : Tag) :
    Keeps z0 (State.flCmd s c tag) := by simp +contextual (maxDischargeDepth := 99) [State.flCmd, hz]
@[simp] theorem State.avsTarget_keeps {z0 s : State} (hz : Keeps z0 s) (mv : Nat) (tag : Tag) :
    Keeps z0 (State.avsTarget s mv tag) := by simp +contextual (maxDischargeDepth := 99) [State.avsTarget, hz]
@[simp] theorem State.deviceReset_keeps {z0 s : State} (hz : Keeps z0 s) (por : Bool) : Keeps z0 (s.deviceReset por) :=
  hz.trans ⟨rfl, rfl, fun c => ⟨twf_filter _ _ _ _ c.1, twf_filter _ _ _ _ c.2⟩⟩
@[simp] theorem State.resetEnd_keeps {z0 s : State} (hz : Keeps z0 s) :
    Keeps z0 (State.resetEnd s) := by simp +contextual (maxDischargeDepth := 99) [State.resetEnd, hz]

/-! Newt. -/

@[simp] theorem State.modNewt_keeps {z0 s : State} (hz : Keeps z0 s) (f : Newt → Newt) :
    Keeps z0 (State.modNewt s f) := by simp +contextual (maxDischargeDepth := 99) [State.modNewt, hz]
@[simp] theorem State.setNewtPend_keeps {z0 s : State} (hz : Keeps z0 s) (i : Nat) (v : Bool) :
    Keeps z0 (State.setNewtPend s i v) := by simp +contextual (maxDischargeDepth := 99) [State.setNewtPend, hz]
@[simp] theorem State.newtAnt_keeps {z0 s : State} (hz : Keeps z0 s) (a : Nat) :
    Keeps z0 (State.newtAnt s a) := by simp +contextual (maxDischargeDepth := 99) [State.newtAnt, hz]
@[simp] theorem State.newtListen_keeps {z0 s : State} (hz : Keeps z0 s) :
    Keeps z0 (State.newtListen s) := by simp +contextual (maxDischargeDepth := 99) [State.newtListen, hz]
@[simp] theorem State.newtRetune_keeps {z0 s : State} (hz : Keeps z0 s) :
    Keeps z0 (State.newtRetune s) := by unfold State.newtRetune; split <;> simp +contextual (maxDischargeDepth := 99) [hz]
@[simp] theorem State.modNewtTx_keeps {z0 s : State} (hz : Keeps z0 s) (f : NewtTx → NewtTx) :
    Keeps z0 (State.modNewtTx s f) := by simp +contextual (maxDischargeDepth := 99) [State.modNewtTx, hz]
@[simp] theorem State.newtPost_keeps {z0 s : State} (hz : Keeps z0 s) (tag : Tag) (code attempts : Nat) (fp : Bool) :
    Keeps z0 (State.newtPost s tag code attempts fp) := by simp +contextual (maxDischargeDepth := 99) [State.newtPost, hz]
@[simp] theorem State.newtBackoff_keeps {z0 s : State} (hz : Keeps z0 s) (nb be : Nat) :
    Keeps z0 (State.newtBackoff s nb be) := by simp +contextual (maxDischargeDepth := 99) [State.newtBackoff, hz]
@[simp] theorem State.newtCsma_keeps {z0 s : State} (hz : Keeps z0 s) :
    Keeps z0 (State.newtCsma s) := by simp +contextual (maxDischargeDepth := 99) [State.newtCsma, hz]
@[simp] theorem State.newtSend_keeps {z0 s : State} (hz : Keeps z0 s) (t : NewtTx) (lead : Nat) :
    Keeps z0 (State.newtSend s t lead) := by simp +contextual (maxDischargeDepth := 99) [State.newtSend, hz]
@[simp] theorem State.newtGo_keeps {z0 s : State} (hz : Keeps z0 s) :
    Keeps z0 (State.newtGo s) := by unfold State.newtGo; split <;> simp +contextual (maxDischargeDepth := 99) [hz]
@[simp] theorem State.newtAckEnd_keeps {z0 s : State} (hz : Keeps z0 s) :
    Keeps z0 (State.newtAckEnd s) := by simp +contextual (maxDischargeDepth := 99) [State.newtAckEnd, hz]
@[simp] theorem State.newtTick_keeps {z0 s : State} (hz : Keeps z0 s) :
    Keeps z0 (State.newtTick s) := by unfold State.newtTick; split <;> simp +contextual (maxDischargeDepth := 99) [hz]

@[simp] theorem State.newtRetuned_keeps {z0 s : State} (hz : Keeps z0 s) (locked : Bool) :
    Keeps z0 (State.newtRetuned s locked) := by simp +contextual (maxDischargeDepth := 99) [State.newtRetuned, hz]
@[simp] theorem State.newtDeliver_keeps {z0 s : State} (hz : Keeps z0 s) (record psdu : List Byte) :
    Keeps z0 (State.newtDeliver s record psdu) := by simp +contextual (maxDischargeDepth := 99) [State.newtDeliver, hz]
@[simp] theorem State.newtHand_keeps {z0 s : State} (hz : Keeps z0 s) (g : NewtGot) (flags : Nat) :
    Keeps z0 (State.newtHand s g flags) := by simp only [State.newtHand]; (repeat' split) <;> simp +contextual (maxDischargeDepth := 99) [hz]
@[simp] theorem State.childCmd_keeps {z0 s : State} (hz : Keeps z0 s) (by_ : Req) (tag : Tag) (f : State → State × Nat × Nat)
    (hf : ∀ z s, Keeps z s → Keeps z (f s).1) :
    Keeps z0 (s.childCmd by_ tag f) := by
  unfold State.childCmd
  apply State.onWrite_keeps hz
  intro z0 s hz
  split
  · exact State.reqDrop_keeps hz ..
  · refine State.evt_keeps (State.pathPost_keeps ?_ ..) ..
    split
    · exact hz
    · exact hf _ _ hz
@[simp] theorem State.pendWrite_keeps {z0 s : State} (hz : Keeps z0 s) (by_ : Req) (val : Word) (v : Bool) :
    Keeps z0 (State.pendWrite s by_ val v) := by simp +contextual (maxDischargeDepth := 99) [State.pendWrite, hz]
@[simp] theorem State.newtDrain_keeps {z0 s : State} (hz : Keeps z0 s) :
    Keeps z0 (State.newtDrain s) := by unfold State.newtDrain; split <;> simp +contextual (maxDischargeDepth := 99) [hz]
@[simp] theorem State.newtHeld_keeps {z0 s : State} (hz : Keeps z0 s) :
    Keeps z0 (State.newtHeld s) := by simp +contextual (maxDischargeDepth := 99) [State.newtHeld, hz]
@[simp] theorem State.newtReady_keeps {z0 s : State} (hz : Keeps z0 s) :
    Keeps z0 (State.newtReady s) := by simp +contextual (maxDischargeDepth := 99) [State.newtReady, hz]

/-! Sense. -/

@[simp] theorem State.scanStop_keeps {z0 s : State} (hz : Keeps z0 s) :
    Keeps z0 (State.scanStop s) := by simp +contextual (maxDischargeDepth := 99) [State.scanStop, hz]
@[simp] theorem State.scanEnter_keeps {z0 s : State} (hz : Keeps z0 s) (e : Nat) :
    Keeps z0 (State.scanEnter s e) := by simp +contextual (maxDischargeDepth := 99) [State.scanEnter, hz]
@[simp] theorem State.scanNext_keeps {z0 s : State} (hz : Keeps z0 s) (from_ : Option Nat) :
    Keeps z0 (State.scanNext s from_) := by simp only [State.scanNext]; (repeat' split) <;> simp +contextual (maxDischargeDepth := 99) [hz]
@[simp] theorem State.report_keeps {z0 s : State} (hz : Keeps z0 s) (type : Nat) (flags count : Nat) (body : List Byte) :
    Keeps z0 (State.report s type flags count body) := by simp +contextual (maxDischargeDepth := 99) [State.report, hz]
@[simp] theorem State.pulseReport_keeps {z0 s : State} (hz : Keeps z0 s) (partialFlag : Bool) :
    Keeps z0 (State.pulseReport s partialFlag) := by simp +contextual (maxDischargeDepth := 99) [State.pulseReport, hz]
@[simp] theorem State.entryReports_keeps {z0 s : State} (hz : Keeps z0 s) (partialFlag : Bool) :
    Keeps z0 (State.entryReports s partialFlag) := by simp +contextual (maxDischargeDepth := 99) [State.entryReports, hz]

/-! Life. -/

theorem twf_resetRegs (t lo : Nat) (m : Tbl Word) (h : twf regReset lo m = true) :
    twf regReset lo (m.filterMap fun e => if RegId.tile e.1 = t then
      (let v := resetVal e.1 e.2
       if v = regReset e.1 then none else some (e.1, v)) else some e) = true := by
  induction m generalizing lo with
  | nil => rfl
  | cons p m ih =>
    obtain ⟨k, v⟩ := p
    simp only [twf, Bool.and_eq_true, decide_eq_true_eq] at h
    have hm := ih (k + 1) h.2
    simp only [List.filterMap_cons]
    by_cases ht : RegId.tile k = t
    · by_cases hv : resetVal k v = regReset k
      · simp only [ht, hv, if_true]
        exact twf_mono _ _ (by omega) hm
      · simp only [ht, hv, if_true, if_false, twf, Bool.and_eq_true, decide_eq_true_eq]
        exact ⟨⟨h.1.1, hv⟩, hm⟩
    · simp only [ht, if_false, twf, Bool.and_eq_true, decide_eq_true_eq]
      exact ⟨h.1, hm⟩
@[simp] theorem State.resetRegsOf_keeps {z0 s : State} (hz : Keeps z0 s) (t : Nat) : Keeps z0 (s.resetRegsOf t) :=
  hz.trans ⟨rfl, rfl, fun c => ⟨c.1, twf_resetRegs t 0 _ c.2⟩⟩
@[simp] theorem State.zeroLocal_keeps {z0 s : State} (hz : Keeps z0 s) (t : Nat) :
    Keeps z0 (State.zeroLocal s t) := by simp +contextual (maxDischargeDepth := 99) [State.zeroLocal, hz]
@[simp] theorem State.ctrlStop_keeps {z0 s : State} (hz : Keeps z0 s) (t : Nat) :
    Keeps z0 (State.ctrlStop s t) := by simp +contextual (maxDischargeDepth := 99) [State.ctrlStop, hz]
@[simp] theorem State.dropTileTokens_keeps {z0 s : State} (hz : Keeps z0 s) (t : Nat) :
    Keeps z0 (State.dropTileTokens s t) := by simp +contextual (maxDischargeDepth := 99) [State.dropTileTokens, hz]
@[simp] theorem State.radioReset_keeps {z0 s : State} (hz : Keeps z0 s) (r : Nat) :
    Keeps z0 (State.radioReset s r) := by simp +contextual (maxDischargeDepth := 99) [State.radioReset, hz]
@[simp] theorem State.calStop_keeps {z0 s : State} (hz : Keeps z0 s) (r : Nat) :
    Keeps z0 (State.calStop s r) := by simp +contextual (maxDischargeDepth := 99) [State.calStop, hz]
@[simp] theorem State.radioHeld_keeps {z0 s : State} (hz : Keeps z0 s) (r : Nat) :
    Keeps z0 (State.radioHeld s r) := by simp +contextual (maxDischargeDepth := 99) [State.radioHeld, hz]
@[simp] theorem State.radioReady_keeps {z0 s : State} (hz : Keeps z0 s) (r : Nat) :
    Keeps z0 (State.radioReady s r) := by simp +contextual (maxDischargeDepth := 99) [State.radioReady, hz]
@[simp] theorem State.timeLost_keeps {z0 s : State} (hz : Keeps z0 s) :
    Keeps z0 (State.timeLost s) := by simp +contextual (maxDischargeDepth := 99) [State.timeLost, hz]
@[simp] theorem State.lifeHook_keeps {z0 s : State} (hz : Keeps z0 s) (t : Nat) (old : Life) :
    Keeps z0 (State.lifeHook s t old) := by simp +contextual (maxDischargeDepth := 99) [State.lifeHook, hz]
@[simp] theorem State.enter_keeps {z0 s : State} (hz : Keeps z0 s) (t : Nat) (l : Life) :
    Keeps z0 (State.enter s t l) := by simp +contextual (maxDischargeDepth := 99) [State.enter, hz]
@[simp] theorem State.faultHook_keeps {z0 s1 : State} (hz : Keeps z0 s1) (s0 : State) (t : Nat) :
    Keeps z0 (State.faultHook s0 s1 t) := by simp +contextual (maxDischargeDepth := 99) [State.faultHook, hz]
@[simp] theorem State.discardWork_keeps {z0 s : State} (hz : Keeps z0 s) (t : Nat) : Keeps z0 (s.discardWork t) := by
  unfold State.discardWork
  generalize hs : (s.ctrlStop t).dropTileTokens t = s0
  have h : Keeps z0 s0 := by rw [← hs]; exact State.dropTileTokens_keeps (State.ctrlStop_keeps hz ..) ..
  clear hs hz
  dsimp only
  repeat' with_reducible refine Keeps.ite_of ?_ ?_
  all_goals simp +contextual (maxDischargeDepth := 99) [h, -List.foldl_cons]
@[simp] theorem State.tileReset_keeps {z0 s : State} (hz : Keeps z0 s) (t : Nat) :
    Keeps z0 (State.tileReset s t) := by simp +contextual (maxDischargeDepth := 99) [State.tileReset, hz]
@[simp] theorem State.startReq_keeps {z0 s : State} (hz : Keeps z0 s) (t target : Nat) (tag : Tag) :
    Keeps z0 (State.startReq s t target tag) := by simp +contextual (maxDischargeDepth := 99) [State.startReq, hz]
@[simp] theorem State.endReq_keeps {z0 s : State} (hz : Keeps z0 s) (t code : Nat) :
    Keeps z0 (State.endReq s t code) := by simp +contextual (maxDischargeDepth := 99) [State.endReq, hz]
@[simp] theorem State.readyPath_keeps {z0 s : State} (hz : Keeps z0 s) (t : Nat) :
    Keeps z0 (State.readyPath s t) := by simp +contextual (maxDischargeDepth := 99) [State.readyPath, hz]
@[simp] theorem State.refuse_keeps {z0 s : State} (hz : Keeps z0 s) (t code : Nat) (tag : Tag) :
    Keeps z0 (State.refuse s t code tag) := by simp +contextual (maxDischargeDepth := 99) [State.refuse, hz]
@[simp] theorem State.tokenReq_keeps {z0 s : State} (hz : Keeps z0 s) (t target : Nat) (tag : Tag) (dest : Life) :
    Keeps z0 (State.tokenReq s t target tag dest) := by simp +contextual (maxDischargeDepth := 99) [State.tokenReq, hz]
@[simp] theorem State.request_keeps {z0 s : State} (hz : Keeps z0 s) (t code : Nat) (tag : Tag) :
    Keeps z0 (State.request s t code tag) := by simp only [State.request]; (repeat' split) <;> simp +contextual (maxDischargeDepth := 99) [hz]
@[simp] theorem State.mgmtRequest_keeps {z0 s : State} (hz : Keeps z0 s) (code : Nat) (tag : Tag) :
    Keeps z0 (State.mgmtRequest s code tag) := by simp +contextual (maxDischargeDepth := 99) [State.mgmtRequest, hz]
@[simp] theorem State.ctlWrite_keeps {z0 s : State} (hz : Keeps z0 s) (t code : Nat) (tag : Tag) (lock : Bool) :
    Keeps z0 (State.ctlWrite s t code tag lock) := by simp +contextual (maxDischargeDepth := 99) [State.ctlWrite, hz]
@[simp] theorem State.ctlAck_keeps {z0 s : State} (hz : Keeps z0 s) (t : Nat) (tag : Tag) :
    Keeps z0 (State.ctlAck s t tag) := by simp +contextual (maxDischargeDepth := 99) [State.ctlAck, hz]
@[simp] theorem State.mlinkTested_keeps {z0 s : State} (hz : Keeps z0 s) : Keeps z0 s.mlinkTested :=
  hz.trans ⟨rfl, rfl, fun c => ⟨c.1, twf_filter _ _ _ _ c.2⟩⟩
@[simp] theorem State.tested_keeps {z0 s : State} (hz : Keeps z0 s) (t used : Nat) (replaced : List Nat) :
    Keeps z0 (State.tested s t used replaced) := by simp +contextual (maxDischargeDepth := 99) [State.tested, hz]
@[simp] theorem State.calibrated_keeps {z0 s : State} (hz : Keeps z0 s) (t : Nat) :
    Keeps z0 (State.calibrated s t) := by simp +contextual (maxDischargeDepth := 99) [State.calibrated, hz]
@[simp] theorem State.calibEnd_keeps {z0 s : State} (hz : Keeps z0 s) (t : Nat) :
    Keeps z0 (State.calibEnd s t) := by simp +contextual (maxDischargeDepth := 99) [State.calibEnd, hz]
@[simp] theorem State.drainExpired_keeps {z0 s : State} (hz : Keeps z0 s) (t : Nat) :
    Keeps z0 (State.drainExpired s t) := by simp only [State.drainExpired]; (repeat' split) <;> simp +contextual (maxDischargeDepth := 99) [hz]
@[simp] theorem State.errWrite_keeps {z0 s : State} (hz : Keeps z0 s) (t : Nat) (first multi early drop : Bool) :
    Keeps z0 (State.errWrite s t first multi early drop) := by simp +contextual (maxDischargeDepth := 99) [State.errWrite, hz]
@[simp] theorem State.cntClr_keeps {z0 s : State} (hz : Keeps z0 s) (t : Nat) :
    Keeps z0 (State.cntClr s t) := by simp +contextual (maxDischargeDepth := 99) [State.cntClr, hz]
@[simp] theorem State.evtClear_keeps {z0 s : State} (hz : Keeps z0 s) (t : Nat) (bits : Word) :
    Keeps z0 (State.evtClear s t bits) := by simp +contextual (maxDischargeDepth := 99) [State.evtClear, hz]
@[simp] theorem State.maskWrite_keeps {z0 s : State} (hz : Keeps z0 s) (t : Nat) (mask : Word) :
    Keeps z0 (State.maskWrite s t mask) := by simp +contextual (maxDischargeDepth := 99) [State.maskWrite, hz]
@[simp] theorem State.evtDeliver_keeps {z0 s : State} (hz : Keeps z0 s) (t : Nat) :
    Keeps z0 (State.evtDeliver s t) := by unfold State.evtDeliver; split <;> simp +contextual (maxDischargeDepth := 99) [hz]

/-! BusRead. -/

@[simp] theorem State.controlRead_keeps {z0 s : State} (hz : Keeps z0 s) (by_ : Req) (t off : Nat) :
    Keeps z0 (State.controlRead s by_ t off).1 := by simp +contextual (maxDischargeDepth := 99) [State.controlRead, hz]
@[simp] theorem State.noRead_keeps {z0 s : State} (hz : Keeps z0 s) (by_ : Req) (a n : Nat) :
    Keeps z0 (State.noRead s by_ a n).1 := by simp +contextual (maxDischargeDepth := 99) [State.noRead, hz]
@[simp] theorem State.controlReads_keeps {z0 s : State} (hz : Keeps z0 s) (by_ : Req) (a n : Nat) :
    Keeps z0 ((s.controlReads by_ a n).1) := by
  induction n generalizing s a with
  | zero => assumption
  | succ n ih => simp +contextual (maxDischargeDepth := 99) [*, State.controlReads, ih]
@[simp] theorem State.busRead_keeps {z0 s : State} (hz : Keeps z0 s) (by_ : Req) (a n : Nat) :
    Keeps z0 ((s.busRead by_ a n).1) := by
  simp only [State.busRead]
  split <;> (repeat' split) <;> simp +contextual (maxDischargeDepth := 99) [*]

end Sys2Proof.Machine
end

