-- ==== Sys2Proof/Laws/KeepsExec.lean ====
section
/-! SUPPORT. `Keeps` for the meanings of the commands, a lemma each. -/

namespace Sys2Proof.Machine

open Reg

/-! Maint. -/

@[simp] theorem execMtRequest_keeps {z0 s : State} (hz : Keeps z0 s) (by_ : Req) (k : Fin 16) (scope : BitVec 5) (kind : BitVec 4) (tag : Tag) :
    Keeps z0 (s.cmd (execMtRequest by_ k scope kind tag)) := by simp +contextual (maxDischargeDepth := 99) [State.cmd, execMtRequest, hz]
@[simp] theorem execMtAck_keeps {z0 s : State} (hz : Keeps z0 s) (by_ : Req) (k : Fin 16) (tag : Tag) :
    Keeps z0 (s.cmd (execMtAck by_ k tag)) := by simp +contextual (maxDischargeDepth := 99) [State.cmd, execMtAck, hz]
@[simp] theorem execHwTokenRequest_keeps {z0 s : State} (hz : Keeps z0 s) (kind : BitVec 4) (scope : BitVec 5) (release : Bool) :
    Keeps z0 (s.cmd (execHwTokenRequest kind scope release)) := by simp +contextual (maxDischargeDepth := 99) [State.cmd, execHwTokenRequest, hz]
@[simp] theorem execTokenAged_keeps {z0 s : State} (hz : Keeps z0 s) (n : Nat) :
    Keeps z0 (s.cmd (execTokenAged n)) := by simp +contextual (maxDischargeDepth := 99) [State.cmd, execTokenAged, hz]

/-! Store. -/

@[simp] theorem execPoolInit_keeps {z0 s : State} (hz : Keeps z0 s) (by_ : Req) (pool : Fin 64) (tag : Tag) :
    Keeps z0 (s.cmd (execPoolInit by_ pool tag)) := by
  simp only [State.cmd, execPoolInit]
  apply State.poolCmd_keeps hz
  intro z0 s hz
  (repeat' split) <;> simp +contextual (maxDischargeDepth := 99) [*]
@[simp] theorem execPoolInitDone_keeps {z0 s : State} (hz : Keeps z0 s) :
    Keeps z0 (s.cmd (execPoolInitDone)) := by
  simp only [State.cmd, execPoolInitDone]
  (repeat' split) <;> simp +contextual (maxDischargeDepth := 99) [hz]
@[simp] theorem execPoolDisable_keeps {z0 s : State} (hz : Keeps z0 s) (by_ : Req) (pool : Fin 64) (tag : Tag) :
    Keeps z0 (s.cmd (execPoolDisable by_ pool tag)) := by simp +contextual (maxDischargeDepth := 99) [State.cmd, execPoolDisable, hz]
@[simp] theorem execPoolIllegalOp_keeps {z0 s : State} (hz : Keeps z0 s) (by_ : Req) (pool : Fin 64) (tag : Tag) :
    Keeps z0 (s.cmd (execPoolIllegalOp by_ pool tag)) := by simp +contextual (maxDischargeDepth := 99) [State.cmd, execPoolIllegalOp, hz]
@[simp] theorem execPoolAck_keeps {z0 s : State} (hz : Keeps z0 s) (by_ : Req) (tag : Tag) :
    Keeps z0 (s.cmd (execPoolAck by_ tag)) := by simp +contextual (maxDischargeDepth := 99) [State.cmd, execPoolAck, hz]
@[simp] theorem execFreeDesc_keeps {z0 s : State} (hz : Keeps z0 s) (by_ : Req) (val : Word) :
    Keeps z0 (s.cmd (execFreeDesc by_ val)) := by simp +contextual (maxDischargeDepth := 99) [State.cmd, execFreeDesc, hz]
@[simp] theorem execFreeBlk_keeps {z0 s : State} (hz : Keeps z0 s) (by_ : Req) (val : Word) :
    Keeps z0 (s.cmd (execFreeBlk by_ val)) := by simp +contextual (maxDischargeDepth := 99) [State.cmd, execFreeBlk, hz]
@[simp] theorem execHwAlloc_keeps {z0 s : State} (hz : Keeps z0 s) (port : Fin 18) (desc : Bool) :
    Keeps z0 (s.cmd (execHwAlloc port desc)) := by
  simp only [State.cmd, execHwAlloc]
  (repeat' split) <;> simp +contextual (maxDischargeDepth := 99) [hz]
@[simp] theorem execMbRequest_keeps {z0 s : State} (hz : Keeps z0 s) (by_ : Req) (m : Fin 192) (pool : Fin 64) (tag : BitVec 4) :
    Keeps z0 (s.cmd (execMbRequest by_ m pool tag)) := by simp +contextual (maxDischargeDepth := 99) [State.cmd, execMbRequest, hz]
@[simp] theorem execMbAnswer_keeps {z0 s : State} (hz : Keeps z0 s) (m : Fin 192) :
    Keeps z0 (s.cmd (execMbAnswer m)) := by
  simp only [State.cmd, execMbAnswer]
  split
  · assumption
  · split
    · assumption
    · refine State.wr_keeps (State.modStore_keeps ?_ ..) ..
      split <;> simp +contextual (maxDischargeDepth := 99) [*]
@[simp] theorem execMbAck_keeps {z0 s : State} (hz : Keeps z0 s) (by_ : Req) (m : Fin 192) (tag : BitVec 4) :
    Keeps z0 (s.cmd (execMbAck by_ m tag)) := by simp +contextual (maxDischargeDepth := 99) [State.cmd, execMbAck, hz]
@[simp] theorem execScrubChunk_keeps {z0 s : State} (hz : Keeps z0 s) (corrected : Nat) (found : List ScrubFound) :
    Keeps z0 (s.cmd (execScrubChunk corrected found)) := by simp +contextual (maxDischargeDepth := 99) [State.cmd, execScrubChunk, hz]

/-! Rf. -/

@[simp] theorem execRfTune_keeps {z0 s : State} (hz : Keeps z0 s) (by_ : Req) (r : Fin 3) (tag : Tag) :
    Keeps z0 (s.cmd (execRfTune by_ r tag)) := by
  simp only [State.cmd, execRfTune]
  apply State.rfCmd_keeps hz
  intro z0 s hz
  iterate 4 with_reducible refine Keeps.ite_of ?_ ?_; simp +contextual (maxDischargeDepth := 99) [hz]
  generalize hs : (((s.pathBusy (RADIO.RF_RESULT r) 16 tag).modRadio r fun x => _).rxAbort r 9).sliceYield r = s2
  have h2 : Keeps z0 s2 := by rw [← hs]; simp +contextual (maxDischargeDepth := 99) [hz]
  clear hs
  (repeat' split) <;> simp +contextual (maxDischargeDepth := 99) [h2]
@[simp] theorem execTuneLock_keeps {z0 s : State} (hz : Keeps z0 s) (r : Fin 3) :
    Keeps z0 (s.cmd (execTuneLock r)) := by
  simp only [State.cmd, execTuneLock]
  (repeat' split) <;> simp +contextual (maxDischargeDepth := 99) [hz]
@[simp] theorem execBandCalDone_keeps {z0 s : State} (hz : Keeps z0 s) (r : Fin 3) (converged : Bool) :
    Keeps z0 (s.cmd (execBandCalDone r converged)) := by simp +contextual (maxDischargeDepth := 99) [State.cmd, execBandCalDone, hz]
@[simp] theorem execRfCalAll_keeps {z0 s : State} (hz : Keeps z0 s) (by_ : Req) (r : Fin 3) (tag : Tag) :
    Keeps z0 (s.cmd (execRfCalAll by_ r tag)) := by simp +contextual (maxDischargeDepth := 99) [State.cmd, execRfCalAll, hz]
@[simp] theorem execCalAllDone_keeps {z0 s : State} (hz : Keeps z0 s) (r : Fin 3) (converged : Bool) :
    Keeps z0 (s.cmd (execCalAllDone r converged)) := by simp +contextual (maxDischargeDepth := 99) [State.cmd, execCalAllDone, hz]
@[simp] theorem execRfFemScan_keeps {z0 s : State} (hz : Keeps z0 s) (by_ : Req) (r : Fin 3) (tag : Tag) :
    Keeps z0 (s.cmd (execRfFemScan by_ r tag)) := by simp +contextual (maxDischargeDepth := 99) [State.cmd, execRfFemScan, hz]
@[simp] theorem execFemScanDone_keeps {z0 s : State} (hz : Keeps z0 s) (r : Fin 3) (ids : List (Option (BitVec 8 × BitVec 10))) :
    Keeps z0 (s.cmd (execFemScanDone r ids)) := by simp +contextual (maxDischargeDepth := 99) [State.cmd, execFemScanDone, hz]
@[simp] theorem execRfChainOff_keeps {z0 s : State} (hz : Keeps z0 s) (by_ : Req) (r : Fin 3) (tag : Tag) (chain : BitVec 8) :
    Keeps z0 (s.cmd (execRfChainOff by_ r tag chain)) := by simp +contextual (maxDischargeDepth := 99) [State.cmd, execRfChainOff, hz]
@[simp] theorem execRfChainOn_keeps {z0 s : State} (hz : Keeps z0 s) (by_ : Req) (r : Fin 3) (tag : Tag) (chain : BitVec 8) :
    Keeps z0 (s.cmd (execRfChainOn by_ r tag chain)) := by simp +contextual (maxDischargeDepth := 99) [State.cmd, execRfChainOn, hz]
@[simp] theorem execRfCmdIllegalOp_keeps {z0 s : State} (hz : Keeps z0 s) (by_ : Req) (r : Fin 3) (tag : Tag) (op : BitVec 8) :
    Keeps z0 (s.cmd (execRfCmdIllegalOp by_ r tag op)) := by simp +contextual (maxDischargeDepth := 99) [State.cmd, execRfCmdIllegalOp, hz]
@[simp] theorem execRfResultAck_keeps {z0 s : State} (hz : Keeps z0 s) (by_ : Req) (r : Fin 3) (tag : Tag) :
    Keeps z0 (s.cmd (execRfResultAck by_ r tag)) := by simp +contextual (maxDischargeDepth := 99) [State.cmd, execRfResultAck, hz]
@[simp] theorem execSynthLockLoss_keeps {z0 s : State} (hz : Keeps z0 s) (r : Fin 3) :
    Keeps z0 (s.cmd (execSynthLockLoss r)) := by simp +contextual (maxDischargeDepth := 99) [State.cmd, execSynthLockLoss, hz]
@[simp] theorem execRffeRegWrite_keeps {z0 s : State} (hz : Keeps z0 s) (by_ : Req) (r : Fin 3) (usid : BitVec 4) (addr : BitVec 8) (data : Byte) (tag : Tag) :
    Keeps z0 (s.cmd (execRffeRegWrite by_ r usid addr data tag)) := by simp +contextual (maxDischargeDepth := 99) [State.cmd, execRffeRegWrite, hz]
@[simp] theorem execRffeRegRead_keeps {z0 s : State} (hz : Keeps z0 s) (by_ : Req) (r : Fin 3) (usid : BitVec 4) (addr : BitVec 8) (tag : Tag) :
    Keeps z0 (s.cmd (execRffeRegRead by_ r usid addr tag)) := by simp +contextual (maxDischargeDepth := 99) [State.cmd, execRffeRegRead, hz]
@[simp] theorem execRffeExtRegWrite_keeps {z0 s : State} (hz : Keeps z0 s) (by_ : Req) (r : Fin 3) (usid : BitVec 4) (addr : BitVec 8) (data : Byte) (tag : Tag) :
    Keeps z0 (s.cmd (execRffeExtRegWrite by_ r usid addr data tag)) := by simp +contextual (maxDischargeDepth := 99) [State.cmd, execRffeExtRegWrite, hz]
@[simp] theorem execRffeExtRegRead_keeps {z0 s : State} (hz : Keeps z0 s) (by_ : Req) (r : Fin 3) (usid : BitVec 4) (addr : BitVec 8) (tag : Tag) :
    Keeps z0 (s.cmd (execRffeExtRegRead by_ r usid addr tag)) := by simp +contextual (maxDischargeDepth := 99) [State.cmd, execRffeExtRegRead, hz]
@[simp] theorem execRffeReg0Write_keeps {z0 s : State} (hz : Keeps z0 s) (by_ : Req) (r : Fin 3) (usid : BitVec 4) (data : Byte) (tag : Tag) :
    Keeps z0 (s.cmd (execRffeReg0Write by_ r usid data tag)) := by simp +contextual (maxDischargeDepth := 99) [State.cmd, execRffeReg0Write, hz]
@[simp] theorem execRffeIllegalKind_keeps {z0 s : State} (hz : Keeps z0 s) (by_ : Req) (r : Fin 3) (kind : BitVec 4) (tag : Tag) :
    Keeps z0 (s.cmd (execRffeIllegalKind by_ r kind tag)) := by simp +contextual (maxDischargeDepth := 99) [State.cmd, execRffeIllegalKind, hz]
@[simp] theorem execRffeTransactionDone_keeps {z0 s : State} (hz : Keeps z0 s) (r : Fin 3) (ok : Bool) (data : Byte) :
    Keeps z0 (s.cmd (execRffeTransactionDone r ok data)) := by
  simp only [State.cmd, execRffeTransactionDone]
  (repeat' split) <;> simp +contextual (maxDischargeDepth := 99) [hz]
@[simp] theorem execRffeAck_keeps {z0 s : State} (hz : Keeps z0 s) (by_ : Req) (r : Fin 3) (tag : Tag) :
    Keeps z0 (s.cmd (execRffeAck by_ r tag)) := by simp +contextual (maxDischargeDepth := 99) [State.cmd, execRffeAck, hz]
@[simp] theorem execFemHealthPoll_keeps {z0 s : State} (hz : Keeps z0 s) (r : Fin 3) (ids : List (Option (BitVec 8))) :
    Keeps z0 (s.cmd (execFemHealthPoll r ids)) := by simp +contextual (maxDischargeDepth := 99) [State.cmd, execFemHealthPoll, hz]
@[simp] theorem execCalRoundStart_keeps {z0 s : State} (hz : Keeps z0 s) (r : Fin 3) (kind : Fin 5) :
    Keeps z0 (s.cmd (execCalRoundStart r kind)) := by simp +contextual (maxDischargeDepth := 99) [State.cmd, execCalRoundStart, hz]
@[simp] theorem execCalSliceStart_keeps {z0 s : State} (hz : Keeps z0 s) (r : Fin 3) (kind : Fin 5) (chain : Fin 8) :
    Keeps z0 (s.cmd (execCalSliceStart r kind chain)) := by simp +contextual (maxDischargeDepth := 99) [State.cmd, execCalSliceStart, hz]
@[simp] theorem execCalSliceEnd_keeps {z0 s : State} (hz : Keeps z0 s) (r : Fin 3) (how : SliceEnd) :
    Keeps z0 (s.cmd (execCalSliceEnd r how)) := by
  simp only [State.cmd, execCalSliceEnd]
  (repeat' split) <;> simp +contextual (maxDischargeDepth := 99) [hz]
@[simp] theorem execRfCalCtlWrite_keeps {z0 s : State} (hz : Keeps z0 s) (by_ : Req) (r : Fin 3) (val : Word) :
    Keeps z0 (s.cmd (execRfCalCtlWrite by_ r val)) := by simp +contextual (maxDischargeDepth := 99) [State.cmd, execRfCalCtlWrite, hz]
@[simp] theorem execAgcStep_keeps {z0 s : State} (hz : Keeps z0 s) (r : Fin 3) (chain : Fin 8) (level : BitVec 8) :
    Keeps z0 (s.cmd (execAgcStep r chain level)) := by simp +contextual (maxDischargeDepth := 99) [State.cmd, execAgcStep, hz]

/-! Seq. -/

@[simp] theorem execSeqCtlWrite_keeps {z0 s : State} (hz : Keeps z0 s) (by_ : Req) (r : Fin 3) (val : Word) :
    Keeps z0 (s.cmd (execSeqCtlWrite by_ r val)) := by simp +contextual (maxDischargeDepth := 99) [State.cmd, execSeqCtlWrite, hz]
@[simp] theorem execSeqSwapRequest_keeps {z0 s : State} (hz : Keeps z0 s) (by_ : Req) (r : Fin 3) (entry : BitVec 10) (tag : Tag) :
    Keeps z0 (s.cmd (execSeqSwapRequest by_ r entry tag)) := by simp +contextual (maxDischargeDepth := 99) [State.cmd, execSeqSwapRequest, hz]
@[simp] theorem execSeqSwapApply_keeps {z0 s : State} (hz : Keeps z0 s) (r : Fin 3) :
    Keeps z0 (s.cmd (execSeqSwapApply r)) := by
  simp only [State.cmd, execSeqSwapApply]
  (repeat' split) <;> simp +contextual (maxDischargeDepth := 99) [hz]
@[simp] theorem execSeqAck_keeps {z0 s : State} (hz : Keeps z0 s) (by_ : Req) (r : Fin 3) (tag : Tag) :
    Keeps z0 (s.cmd (execSeqAck by_ r tag)) := by simp +contextual (maxDischargeDepth := 99) [State.cmd, execSeqAck, hz]
@[simp] theorem execSeqPoke_keeps {z0 s : State} (hz : Keeps z0 s) (by_ : Req) (r : Fin 3) (poke : Bool) :
    Keeps z0 (s.cmd (execSeqPoke by_ r poke)) := by simp +contextual (maxDischargeDepth := 99) [State.cmd, execSeqPoke, hz]
@[simp] theorem execCtrlRunWrite_keeps {z0 s : State} (hz : Keeps z0 s) (by_ : Req) (r : Fin 3) (val : Word) :
    Keeps z0 (s.cmd (execCtrlRunWrite by_ r val)) := by simp +contextual (maxDischargeDepth := 99) [State.cmd, execCtrlRunWrite, hz]
@[simp] theorem execSeqStepBegin_keeps {z0 s : State} (hz : Keeps z0 s) (r : Fin 3) :
    Keeps z0 (s.cmd (execSeqStepBegin r)) := by
  simp only [State.cmd, execSeqStepBegin]
  (repeat' split) <;> simp +contextual (maxDischargeDepth := 99) [hz]
@[simp] theorem execSeqTimedEnd_keeps {z0 s : State} (hz : Keeps z0 s) (r : Fin 3) :
    Keeps z0 (s.cmd (execSeqTimedEnd r)) := by simp +contextual (maxDischargeDepth := 99) [State.cmd, execSeqTimedEnd, hz]
@[simp] theorem execSeqWaitEvent_keeps {z0 s : State} (hz : Keeps z0 s) (r : Fin 3) :
    Keeps z0 (s.cmd (execSeqWaitEvent r)) := by
  simp only [State.cmd, execSeqWaitEvent]
  (repeat' split) <;> simp +contextual (maxDischargeDepth := 99) [hz]
@[simp] theorem execSeqWaitTimeout_keeps {z0 s : State} (hz : Keeps z0 s) (r : Fin 3) :
    Keeps z0 (s.cmd (execSeqWaitTimeout r)) := by simp +contextual (maxDischargeDepth := 99) [State.cmd, execSeqWaitTimeout, hz]
@[simp] theorem execSeqTestEnd_keeps {z0 s : State} (hz : Keeps z0 s) (r : Fin 3) :
    Keeps z0 (s.cmd (execSeqTestEnd r)) := by simp +contextual (maxDischargeDepth := 99) [State.cmd, execSeqTestEnd, hz]
@[simp] theorem execAnchorAt_keeps {z0 s : State} (hz : Keeps z0 s) (r : Fin 3) :
    Keeps z0 (s.cmd (execAnchorAt r)) := by simp +contextual (maxDischargeDepth := 99) [State.cmd, execAnchorAt, hz]
@[simp] theorem execTxqPush_keeps {z0 s : State} (hz : Keeps z0 s) (by_ : Req) (r : Fin 3) (push : Bool) :
    Keeps z0 (s.cmd (execTxqPush by_ r push)) := by
  simp only [State.cmd, execTxqPush]
  apply State.onWrite_keeps hz
  intro z0 s hz
  split
  · assumption
  · split
    · simp +contextual (maxDischargeDepth := 99) [*]
    · split
      · rename_i h
        simp +contextual (maxDischargeDepth := 99) [State.txqPush_keeps hz _ _ _ _ h]
      · simp +contextual (maxDischargeDepth := 99) [*]
@[simp] theorem execTxcAck_keeps {z0 s : State} (hz : Keeps z0 s) (by_ : Req) (r : Fin 3) (tag : Tag) :
    Keeps z0 (s.cmd (execTxcAck by_ r tag)) := by simp +contextual (maxDischargeDepth := 99) [State.cmd, execTxcAck, hz]
@[simp] theorem execTxcCtlWrite_keeps {z0 s : State} (hz : Keeps z0 s) (by_ : Req) (r : Fin 3) (val : Word) :
    Keeps z0 (s.cmd (execTxcCtlWrite by_ r val)) := by simp +contextual (maxDischargeDepth := 99) [State.cmd, execTxcCtlWrite, hz]
@[simp] theorem execCmdDueAtTime_keeps {z0 s : State} (hz : Keeps z0 s) (r : Fin 3) :
    Keeps z0 (s.cmd (execCmdDueAtTime r)) := by
  simp only [State.cmd, execCmdDueAtTime]
  (repeat' split) <;> simp +contextual (maxDischargeDepth := 99) [hz]
@[simp] theorem execTxqReady_keeps {z0 s : State} (hz : Keeps z0 s) (r : Fin 3) :
    Keeps z0 (s.cmd (execTxqReady r)) := by
  simp only [State.cmd, execTxqReady]
  (repeat' split) <;> simp +contextual (maxDischargeDepth := 99) [hz]
@[simp] theorem execCmdExpire_keeps {z0 s : State} (hz : Keeps z0 s) (r : Fin 3) (q : Fin 5) :
    Keeps z0 (s.cmd (execCmdExpire r q)) := by
  simp only [State.cmd, execCmdExpire]
  (repeat' split) <;> simp +contextual (maxDischargeDepth := 99) [hz]
@[simp] theorem execTxUnderrun_keeps {z0 s : State} (hz : Keeps z0 s) (r : Fin 3) (unsent : BitVec 8) :
    Keeps z0 (s.cmd (execTxUnderrun r unsent)) := by
  simp only [State.cmd, execTxUnderrun]
  (repeat' split) <;> simp +contextual (maxDischargeDepth := 99) [hz]
theorem State.cmd_keeps_of {z0 s : State} (hz : Keeps z0 s) {f : State → Host.Outcome State Fault Refusal}
    (h : ∀ x, f s = .next x → Keeps z0 x) : Keeps z0 (s.cmd f) := by
  unfold State.cmd
  split
  · exact h _ ‹_›
  · exact hz
@[simp] theorem execTxPpduEnd_keeps {z0 s : State} (hz : Keeps z0 s) (r : Fin 3) (airtime : BitVec 32) (errs : List Int) :
    Keeps z0 (s.cmd (execTxPpduEnd r airtime errs)) := by
  apply State.cmd_keeps_of hz
  intro z h
  unfold execTxPpduEnd at h
  injection h with h
  subst h
  extract_lets r x ended v1 v2
  split
  · split
    · assumption
    · rename_i t _ _
      extract_lets t1 s0 s1 t2 s3 s2
      have h1 : Keeps z0 s1 := by simp +contextual (maxDischargeDepth := 99) [hz, s1, s0, ended]
      clear_value s1
      have h2 : Keeps z0 s2 := by
        simp only [s2, s3]
        (repeat' split) <;> simp +contextual (maxDischargeDepth := 99) [h1]
      clear_value s2
      simp +contextual (maxDischargeDepth := 99) [h2]
  · split
    · assumption
    · have h2 : Keeps z0 v2 := by
        simp only [v2, v1, ended]
        split <;> simp +contextual (maxDischargeDepth := 99) [hz]
      clear_value v2
      simp +contextual (maxDischargeDepth := 99) [h2]
@[simp] theorem execRespReady_keeps {z0 s : State} (hz : Keeps z0 s) (r : Fin 3) :
    Keeps z0 (s.cmd (execRespReady r)) := by simp +contextual (maxDischargeDepth := 99) [State.cmd, execRespReady, hz]
@[simp] theorem execRespLaunch_keeps {z0 s : State} (hz : Keeps z0 s) (r : Fin 3) :
    Keeps z0 (s.cmd (execRespLaunch r)) := by
  simp only [State.cmd, execRespLaunch]
  (repeat' split) <;> simp +contextual (maxDischargeDepth := 99) [hz]
@[simp] theorem execRespAbandon_keeps {z0 s : State} (hz : Keeps z0 s) (r : Fin 3) :
    Keeps z0 (s.cmd (execRespAbandon r)) := by simp +contextual (maxDischargeDepth := 99) [State.cmd, execRespAbandon, hz]

/-! Towpath. -/

@[simp] theorem execTpLoadPeriod_keeps {z0 s : State} (hz : Keeps z0 s) (r : Fin 3) :
    Keeps z0 (s.cmd (execTpLoadPeriod r)) := by
  simp only [State.cmd, execTpLoadPeriod]
  split
  · assumption
  · refine Keeps.foldl (State.modRadio_keeps hz _ _) ?_
    intro s q hz
    exact State.tpPeerPeriod_keeps hz ..
@[simp] theorem execTpPeerRst_keeps {z0 s : State} (hz : Keeps z0 s) (by_ : Req) (r : Fin 3) (bits : Word) :
    Keeps z0 (s.cmd (execTpPeerRst by_ r bits)) := by simp +contextual (maxDischargeDepth := 99) [State.cmd, execTpPeerRst, hz]
@[simp] theorem execTpPeerCfgWrite_keeps {z0 s : State} (hz : Keeps z0 s) (by_ : Req) (r : Fin 3) (p : Fin 16) (val : Word) :
    Keeps z0 (s.cmd (execTpPeerCfgWrite by_ r p val)) := by simp +contextual (maxDischargeDepth := 99) [State.cmd, execTpPeerCfgWrite, hz]

/-! Rx. -/

@[simp] theorem execEdDetect_keeps {z0 s : State} (hz : Keeps z0 s) (r : Fin 3) (prim whole : List Byte) :
    Keeps z0 (s.cmd (execEdDetect r prim whole)) := by simp +contextual (maxDischargeDepth := 99) [State.cmd, execEdDetect, hz]
@[simp] theorem execQualStage1Ok_keeps {z0 s : State} (hz : Keeps z0 s) (r : Fin 3) (corr : BitVec 9) (sub : BitVec 4) (level : Int) :
    Keeps z0 (s.cmd (execQualStage1Ok r corr sub level)) := by simp +contextual (maxDischargeDepth := 99) [State.cmd, execQualStage1Ok, hz]
@[simp] theorem execQualOk_keeps {z0 s : State} (hz : Keeps z0 s) (r : Fin 3) (peak : BitVec 9) (cfo : BitVec 16) (levels : List Byte) (ref : Int) (frac : BitVec 16) :
    Keeps z0 (s.cmd (execQualOk r peak cfo levels ref frac)) := by simp +contextual (maxDischargeDepth := 99) [State.cmd, execQualOk, hz]
@[simp] theorem execAcFailTimeout_keeps {z0 s : State} (hz : Keeps z0 s) (r : Fin 3) :
    Keeps z0 (s.cmd (execAcFailTimeout r)) := by simp +contextual (maxDischargeDepth := 99) [State.cmd, execAcFailTimeout, hz]
@[simp] theorem execXcFailTimeout_keeps {z0 s : State} (hz : Keeps z0 s) (r : Fin 3) :
    Keeps z0 (s.cmd (execXcFailTimeout r)) := by simp +contextual (maxDischargeDepth := 99) [State.cmd, execXcFailTimeout, hz]
@[simp] theorem execDsssLock_keeps {z0 s : State} (hz : Keeps z0 s) (r : Fin 3) (ago : BitVec 16) :
    Keeps z0 (s.cmd (execDsssLock r ago)) := by simp +contextual (maxDischargeDepth := 99) [State.cmd, execDsssLock, hz]
@[simp] theorem execDsssSfdTimeout_keeps {z0 s : State} (hz : Keeps z0 s) (r : Fin 3) (short : Bool) :
    Keeps z0 (s.cmd (execDsssSfdTimeout r short)) := by simp +contextual (maxDischargeDepth := 99) [State.cmd, execDsssSfdTimeout, hz]
@[simp] theorem execLsigCheck_keeps {z0 s : State} (hz : Keeps z0 s) (r : Fin 3) (lsig : BitVec 24) (rssi : BitVec 16) (chainRssi : List Byte) :
    Keeps z0 (s.cmd (execLsigCheck r lsig rssi chainRssi)) := by
  simp only [State.cmd, execLsigCheck]
  (repeat' split) <;> simp +contextual (maxDischargeDepth := 99) [hz]
@[simp] theorem execSigFieldCheck_keeps {z0 s : State} (hz : Keeps z0 s) (r : Fin 3) (found : SigCheck) (stf : Option StfLevels) :
    Keeps z0 (s.cmd (execSigFieldCheck r found stf)) := by
  simp only [State.cmd, execSigFieldCheck]
  (repeat' split) <;> simp +contextual (maxDischargeDepth := 99) [hz]
@[simp] theorem execRxRestart_keeps {z0 s : State} (hz : Keeps z0 s) (r : Fin 3) (level : Int) (periodic : Bool) :
    Keeps z0 (s.cmd (execRxRestart r level periodic)) := by
  simp only [State.cmd, execRxRestart]
  (repeat' split) <;> simp +contextual (maxDischargeDepth := 99) [hz]
@[simp] theorem execRxPpduEnd_keeps {z0 s : State} (hz : Keeps z0 s) (r : Fin 3) (tp : Option TpPayload) :
    Keeps z0 (s.cmd (execRxPpduEnd r tp)) := by
  simp only [State.cmd, execRxPpduEnd]
  (repeat' split) <;> simp +contextual (maxDischargeDepth := 99) [hz]
@[simp] theorem execRxEnd_keeps {z0 s : State} (hz : Keeps z0 s) (r : Fin 3) :
    Keeps z0 (s.cmd (execRxEnd r)) := by
  simp only [State.cmd, execRxEnd]
  (repeat' split) <;> simp +contextual (maxDischargeDepth := 99) [hz]
@[simp] theorem execRxDecided_keeps {z0 s : State} (hz : Keeps z0 s) (r : Fin 3) (recs : List RxMeas) :
    Keeps z0 (s.cmd (execRxDecided r recs)) := by
  simp only [State.cmd, execRxDecided]
  (repeat' split) <;> simp +contextual (maxDischargeDepth := 99) [hz]
@[simp] theorem execCodewordDecoded_keeps {z0 s : State} (hz : Keeps z0 s) (r : Fin 3) (arrived : List (BitVec 8)) (lane : Fin 13) (need : Option (BitVec 8)) :
    Keeps z0 (s.cmd (execCodewordDecoded r arrived lane need)) := by
  simp only [State.cmd, execCodewordDecoded]
  (repeat' split) <;> simp +contextual (maxDischargeDepth := 99) [hz]
@[simp] theorem execDecodeDeadline_keeps {z0 s : State} (hz : Keeps z0 s) (r : Fin 3) :
    Keeps z0 (s.cmd (execDecodeDeadline r)) := by
  simp only [State.cmd, execDecodeDeadline]
  (repeat' split) <;> simp +contextual (maxDischargeDepth := 99) [hz]
@[simp] theorem execLaneAudit_keeps {z0 s : State} (hz : Keeps z0 s) (r : Fin 3) (passed : Bool) :
    Keeps z0 (s.cmd (execLaneAudit r passed)) := by
  simp only [State.cmd, execLaneAudit]
  (repeat' split) <;> simp +contextual (maxDischargeDepth := 99) [hz]
@[simp] theorem execRxsRdWrite_keeps {z0 s : State} (hz : Keeps z0 s) (by_ : Req) (r : Fin 3) (val : Word) :
    Keeps z0 (s.cmd (execRxsRdWrite by_ r val)) := by simp +contextual (maxDischargeDepth := 99) [State.cmd, execRxsRdWrite, hz]

/-! Mac. -/

@[simp] theorem execMpduReceive_keeps {z0 s : State} (hz : Keeps z0 s) (r : Fin 3) (m : RxMpdu) :
    Keeps z0 (s.cmd (execMpduReceive r m)) := by
  simp only [State.cmd, execMpduReceive]
  (repeat' split) <;> simp +contextual (maxDischargeDepth := 99) [hz]
@[simp] theorem execNavExpire_keeps {z0 s : State} (hz : Keeps z0 s) (r : Fin 3) (intra : Bool) :
    Keeps z0 (s.cmd (execNavExpire r intra)) := by simp +contextual (maxDischargeDepth := 99) [State.cmd, execNavExpire, hz]
@[simp] theorem execNavRtsTimeout_keeps {z0 s : State} (hz : Keeps z0 s) (r : Fin 3) :
    Keeps z0 (s.cmd (execNavRtsTimeout r)) := by simp +contextual (maxDischargeDepth := 99) [State.cmd, execNavRtsTimeout, hz]
@[simp] theorem execCcaEnergyBusy_keeps {z0 s : State} (hz : Keeps z0 s) (r : Fin 3) (level : BitVec 8) :
    Keeps z0 (s.cmd (execCcaEnergyBusy r level)) := by simp +contextual (maxDischargeDepth := 99) [State.cmd, execCcaEnergyBusy, hz]
@[simp] theorem execMediumIdle_keeps {z0 s : State} (hz : Keeps z0 s) (r : Fin 3) :
    Keeps z0 (s.cmd (execMediumIdle r)) := by simp +contextual (maxDischargeDepth := 99) [State.cmd, execMediumIdle, hz]
@[simp] theorem execBackoffSlot_keeps {z0 s : State} (hz : Keeps z0 s) (r : Fin 3) (busy : BitVec 16) :
    Keeps z0 (s.cmd (execBackoffSlot r busy)) := by
  apply State.cmd_keeps_of hz
  intro z h
  injection h with h
  subst h
  extract_lets r x j s1
  split
  · exact hz
  · have h1 : Keeps z0 s1 := Keeps.foldl (by simp [hz]) fun s q hz => by simp [hz]
    clear_value s1
    (repeat' split)
    · exact hz
    · exact h1
    · exact h1
    · refine State.grant_keeps (Keeps.foldl ?_ fun s q hz => ?_) ..
      · simp [h1]
      · simp [hz]
@[simp] theorem execGrantWithdraw_keeps {z0 s : State} (hz : Keeps z0 s) (r : Fin 3) (busy : BitVec 16) :
    Keeps z0 (s.cmd (execGrantWithdraw r busy)) := by
  simp only [State.cmd, execGrantWithdraw]
  (repeat' split) <;> simp +contextual (maxDischargeDepth := 99) [hz]
@[simp] theorem execRespTimeout_keeps {z0 s : State} (hz : Keeps z0 s) (r : Fin 3) :
    Keeps z0 (s.cmd (execRespTimeout r)) := by
  simp only [State.cmd, execRespTimeout]
  (repeat' split) <;> simp +contextual (maxDischargeDepth := 99) [hz]
@[simp] theorem execTxopNextDue_keeps {z0 s : State} (hz : Keeps z0 s) (r : Fin 3) :
    Keeps z0 (s.cmd (execTxopNextDue r)) := by
  simp only [State.cmd, execTxopNextDue]
  (repeat' split) <;> simp +contextual (maxDischargeDepth := 99) [hz]
@[simp] theorem execMuEdcaTimerExpire_keeps {z0 s : State} (hz : Keeps z0 s) (r : Fin 3) :
    Keeps z0 (s.cmd (execMuEdcaTimerExpire r)) := by simp +contextual (maxDischargeDepth := 99) [State.cmd, execMuEdcaTimerExpire, hz]
@[simp] theorem execMacCtlWrite_keeps {z0 s : State} (hz : Keeps z0 s) (by_ : Req) (r : Fin 3) (val : Word) :
    Keeps z0 (s.cmd (execMacCtlWrite by_ r val)) := by simp +contextual (maxDischargeDepth := 99) [State.cmd, execMacCtlWrite, hz]
@[simp] theorem execMacSeedWrite_keeps {z0 s : State} (hz : Keeps z0 s) (by_ : Req) (r : Fin 3) (val : Word) :
    Keeps z0 (s.cmd (execMacSeedWrite by_ r val)) := by simp +contextual (maxDischargeDepth := 99) [State.cmd, execMacSeedWrite, hz]
@[simp] theorem execReorderTimeout_keeps {z0 s : State} (hz : Keeps z0 s) (q : Fin 8192) :
    Keeps z0 (s.cmd (execReorderTimeout q)) := by
  simp only [State.cmd, execReorderTimeout]
  (repeat' split) <;> simp +contextual (maxDischargeDepth := 99) [hz]
@[simp] theorem execAidSet_keeps {z0 s : State} (hz : Keeps z0 s) (by_ : Req) (tag : Tag) :
    Keeps z0 (s.cmd (execAidSet by_ tag)) := by simp +contextual (maxDischargeDepth := 99) [State.cmd, execAidSet, hz]
@[simp] theorem execAidClr_keeps {z0 s : State} (hz : Keeps z0 s) (by_ : Req) (tag : Tag) :
    Keeps z0 (s.cmd (execAidClr by_ tag)) := by simp +contextual (maxDischargeDepth := 99) [State.cmd, execAidClr, hz]
@[simp] theorem execAidLookup_keeps {z0 s : State} (hz : Keeps z0 s) (by_ : Req) (tag : Tag) :
    Keeps z0 (s.cmd (execAidLookup by_ tag)) := by
  simp only [State.cmd, execAidLookup]
  apply State.aidCmd_keeps hz
  intro z0 s hz
  (repeat' split) <;> simp +contextual (maxDischargeDepth := 99) [*]
@[simp] theorem execAidIllegalOp_keeps {z0 s : State} (hz : Keeps z0 s) (by_ : Req) (tag : Tag) :
    Keeps z0 (s.cmd (execAidIllegalOp by_ tag)) := by simp +contextual (maxDischargeDepth := 99) [State.cmd, execAidIllegalOp, hz]
@[simp] theorem execAidAck_keeps {z0 s : State} (hz : Keeps z0 s) (by_ : Req) (tag : Tag) :
    Keeps z0 (s.cmd (execAidAck by_ tag)) := by simp +contextual (maxDischargeDepth := 99) [State.cmd, execAidAck, hz]
@[simp] theorem execKeyInstall_keeps {z0 s : State} (hz : Keeps z0 s) (by_ : Req) (tag : Tag) :
    Keeps z0 (s.cmd (execKeyInstall by_ tag)) := by
  simp only [State.cmd, execKeyInstall]
  apply State.keyCmd_keeps hz
  intro z0 s hz
  (repeat' split) <;> simp +contextual (maxDischargeDepth := 99) [*]
@[simp] theorem execKeyDelete_keeps {z0 s : State} (hz : Keeps z0 s) (by_ : Req) (tag : Tag) :
    Keeps z0 (s.cmd (execKeyDelete by_ tag)) := by
  simp only [State.cmd, execKeyDelete]
  apply State.keyCmd_keeps hz
  intro z0 s hz
  (repeat' split) <;> simp +contextual (maxDischargeDepth := 99) [*]
@[simp] theorem execKeySetTx_keeps {z0 s : State} (hz : Keeps z0 s) (by_ : Req) (tag : Tag) :
    Keeps z0 (s.cmd (execKeySetTx by_ tag)) := by
  simp only [State.cmd, execKeySetTx]
  apply State.keyCmd_keeps hz
  intro z0 s hz
  (repeat' split) <;> simp +contextual (maxDischargeDepth := 99) [*]
@[simp] theorem execKeyIllegalOp_keeps {z0 s : State} (hz : Keeps z0 s) (by_ : Req) (tag : Tag) :
    Keeps z0 (s.cmd (execKeyIllegalOp by_ tag)) := by simp +contextual (maxDischargeDepth := 99) [State.cmd, execKeyIllegalOp, hz]
@[simp] theorem execKeyAck_keeps {z0 s : State} (hz : Keeps z0 s) (by_ : Req) (tag : Tag) :
    Keeps z0 (s.cmd (execKeyAck by_ tag)) := by simp +contextual (maxDischargeDepth := 99) [State.cmd, execKeyAck, hz]
@[simp] theorem execMrxRdWrite_keeps {z0 s : State} (hz : Keeps z0 s) (by_ : Req) (val : Word) :
    Keeps z0 (s.cmd (execMrxRdWrite by_ val)) := by simp +contextual (maxDischargeDepth := 99) [State.cmd, execMrxRdWrite, hz]
@[simp] theorem execLinkCtlWrite_keeps {z0 s : State} (hz : Keeps z0 s) (by_ : Req) (val : Word) :
    Keeps z0 (s.cmd (execLinkCtlWrite by_ val)) := by simp +contextual (maxDischargeDepth := 99) [State.cmd, execLinkCtlWrite, hz]
@[simp] theorem execMlinkRunWrite_keeps {z0 s : State} (hz : Keeps z0 s) (by_ : Req) (val : Word) :
    Keeps z0 (s.cmd (execMlinkRunWrite by_ val)) := by simp +contextual (maxDischargeDepth := 99) [State.cmd, execMlinkRunWrite, hz]

/-! Mlink. -/

@[simp] theorem execCtxAlloc_keeps {z0 s : State} (hz : Keeps z0 s) (by_ : Req) (tag : Tag) :
    Keeps z0 (s.cmd (execCtxAlloc by_ tag)) := by
  simp only [State.cmd, execCtxAlloc]
  apply State.ctxCmd_keeps hz
  intro z0 s hz
  (repeat' split) <;> simp +contextual (maxDischargeDepth := 99) [*]
@[simp] theorem execCtxActivate_keeps {z0 s : State} (hz : Keeps z0 s) (by_ : Req) (tag : Tag) :
    Keeps z0 (s.cmd (execCtxActivate by_ tag)) := by
  simp only [State.cmd, execCtxActivate]
  apply State.ctxCmd_keeps hz
  intro z0 s hz
  (repeat' split) <;> simp +contextual (maxDischargeDepth := 99) [*]
@[simp] theorem execCtxRefresh_keeps {z0 s : State} (hz : Keeps z0 s) (by_ : Req) (tag : Tag) :
    Keeps z0 (s.cmd (execCtxRefresh by_ tag)) := by
  simp only [State.cmd, execCtxRefresh]
  apply State.ctxCmd_keeps hz
  intro z0 s hz
  (repeat' split) <;> simp +contextual (maxDischargeDepth := 99) [*]
@[simp] theorem execCtxFree_keeps {z0 s : State} (hz : Keeps z0 s) (by_ : Req) (tag : Tag) :
    Keeps z0 (s.cmd (execCtxFree by_ tag)) := by
  simp only [State.cmd, execCtxFree]
  apply State.ctxCmd_keeps hz
  intro z0 s hz
  split
  · simp +contextual (maxDischargeDepth := 99) [*]
  · apply Keeps.foldl
    · apply Keeps.foldl
      · simp +contextual (maxDischargeDepth := 99) [*]
      · intro s q hz
        refine State.stqFlush_keeps (State.setBoard_keeps (Keeps.foldl hz ?_) ..) ..
        intro s q hz; simp +contextual (maxDischargeDepth := 99) [*]
    · intro s q hz; split <;> simp +contextual (maxDischargeDepth := 99) [*]
@[simp] theorem execCtxIllegalOp_keeps {z0 s : State} (hz : Keeps z0 s) (by_ : Req) (tag : Tag) :
    Keeps z0 (s.cmd (execCtxIllegalOp by_ tag)) := by simp +contextual (maxDischargeDepth := 99) [State.cmd, execCtxIllegalOp, hz]
@[simp] theorem execCtxFreeDone_keeps {z0 s : State} (hz : Keeps z0 s) :
    Keeps z0 (s.cmd (execCtxFreeDone)) := by
  simp only [State.cmd, execCtxFreeDone]
  (repeat' split) <;> simp +contextual (maxDischargeDepth := 99) [hz]
@[simp] theorem execCtxAck_keeps {z0 s : State} (hz : Keeps z0 s) (by_ : Req) (tag : Tag) :
    Keeps z0 (s.cmd (execCtxAck by_ tag)) := by simp +contextual (maxDischargeDepth := 99) [State.cmd, execCtxAck, hz]
@[simp] theorem execStqEnq_keeps {z0 s : State} (hz : Keeps z0 s) (by_ : Req) (q : Fin 8192) (val : Word) :
    Keeps z0 (s.cmd (execStqEnq by_ q val)) := by simp +contextual (maxDischargeDepth := 99) [State.cmd, execStqEnq, hz]
@[simp] theorem execTwtPeriodStart_keeps {z0 s : State} (hz : Keeps z0 s) (n : Fin 32) :
    Keeps z0 (s.cmd (execTwtPeriodStart n)) := by
  simp only [State.cmd, execTwtPeriodStart]
  (repeat' split) <;> simp +contextual (maxDischargeDepth := 99) [hz]
@[simp] theorem execTwtPeriodEnd_keeps {z0 s : State} (hz : Keeps z0 s) (n : Fin 32) :
    Keeps z0 (s.cmd (execTwtPeriodEnd n)) := by
  simp only [State.cmd, execTwtPeriodEnd]
  (repeat' split) <;> simp +contextual (maxDischargeDepth := 99) [hz]
@[simp] theorem execDlSelection_keeps {z0 s : State} (hz : Keeps z0 s) (r : Fin 3) (ac : Fin 4) :
    Keeps z0 (s.cmd (execDlSelection r ac)) := by
  simp only [State.cmd, execDlSelection]
  (repeat' split) <;> simp +contextual (maxDischargeDepth := 99) [hz]
@[simp] theorem execUlSelection_keeps {z0 s : State} (hz : Keeps z0 s) (r : Fin 3) (members : Option (Fin 32)) :
    Keeps z0 (s.cmd (execUlSelection r members)) := by
  simp only [State.cmd, execUlSelection]
  (repeat' split) <;> simp +contextual (maxDischargeDepth := 99) [hz]
@[simp] theorem execSoundFeedback_keeps {z0 s : State} (hz : Keeps z0 s) (r : Fin 3) (scid : Fin 1024) (nc : Fin 8)
    (mat : List (List (Int × Int))) : Keeps z0 (s.cmd (execSoundFeedback r scid nc mat)) := by
  apply State.cmd_keeps_of hz
  intro z h
  injection h with h
  subst h
  extract_lets r k busy
  split
  · exact hz
  · split
    · exact hz
    · extract_lets named m _ s1
      have h1 : Keeps z0 s1 := by simp +contextual (maxDischargeDepth := 99) [s1, hz]
      clear_value s1
      refine Keeps.ite_of (by simp [h1]) (Keeps.getD hz fun t h => State.steerInstall_keeps h1 _ _ _ _ _ h)
@[simp] theorem execMuNextPpduDue_keeps {z0 s : State} (hz : Keeps z0 s) (r : Fin 3) :
    Keeps z0 (s.cmd (execMuNextPpduDue r)) := by
  simp only [State.cmd, execMuNextPpduDue]
  (repeat' split) <;> simp +contextual (maxDischargeDepth := 99) [hz]
@[simp] theorem execTbWindowEnd_keeps {z0 s : State} (hz : Keeps z0 s) (r : Fin 3) :
    Keeps z0 (s.cmd (execTbWindowEnd r)) := by
  simp only [State.cmd, execTbWindowEnd]
  (repeat' split) <;> simp +contextual (maxDischargeDepth := 99) [hz]
@[simp] theorem execEmlTransitionDelayEnd_keeps {z0 s : State} (hz : Keeps z0 s) (scid : Fin 1024) :
    Keeps z0 (s.cmd (execEmlTransitionDelayEnd scid)) := by simp +contextual (maxDischargeDepth := 99) [State.cmd, execEmlTransitionDelayEnd, hz]

/-! Time. -/

@[simp] theorem execMsSet_keeps {z0 s : State} (hz : Keeps z0 s) (by_ : Req) (tag : Tag) :
    Keeps z0 (s.cmd (execMsSet by_ tag)) := by simp +contextual (maxDischargeDepth := 99) [State.cmd, execMsSet, hz]
@[simp] theorem execMsStep_keeps {z0 s : State} (hz : Keeps z0 s) (by_ : Req) (tag : Tag) :
    Keeps z0 (s.cmd (execMsStep by_ tag)) := by simp +contextual (maxDischargeDepth := 99) [State.cmd, execMsStep, hz]
@[simp] theorem execMsAdj_keeps {z0 s : State} (hz : Keeps z0 s) (by_ : Req) (tag : Tag) :
    Keeps z0 (s.cmd (execMsAdj by_ tag)) := by simp +contextual (maxDischargeDepth := 99) [State.cmd, execMsAdj, hz]
@[simp] theorem execMsIllegalOp_keeps {z0 s : State} (hz : Keeps z0 s) (by_ : Req) (tag : Tag) :
    Keeps z0 (s.cmd (execMsIllegalOp by_ tag)) := by simp +contextual (maxDischargeDepth := 99) [State.cmd, execMsIllegalOp, hz]
@[simp] theorem execMsAck_keeps {z0 s : State} (hz : Keeps z0 s) (by_ : Req) (tag : Tag) :
    Keeps z0 (s.cmd (execMsAck by_ tag)) := by simp +contextual (maxDischargeDepth := 99) [State.cmd, execMsAck, hz]
@[simp] theorem execSnapCapture_keeps {z0 s : State} (hz : Keeps z0 s) (by_ : Req) (k : Fin 4) (tag : BitVec 4) :
    Keeps z0 (s.cmd (execSnapCapture by_ k tag)) := by simp +contextual (maxDischargeDepth := 99) [State.cmd, execSnapCapture, hz]
@[simp] theorem execSnapAck_keeps {z0 s : State} (hz : Keeps z0 s) (by_ : Req) (k : Fin 4) (tag : BitVec 4) :
    Keeps z0 (s.cmd (execSnapAck by_ k tag)) := by simp +contextual (maxDischargeDepth := 99) [State.cmd, execSnapAck, hz]
@[simp] theorem execServoInWrite_keeps {z0 s : State} (hz : Keeps z0 s) (by_ : Req) (val : Word) :
    Keeps z0 (s.cmd (execServoInWrite by_ val)) := by simp +contextual (maxDischargeDepth := 99) [State.cmd, execServoInWrite, hz]
@[simp] theorem execHoldoverTimeout_keeps {z0 s : State} (hz : Keeps z0 s) :
    Keeps z0 (s.cmd (execHoldoverTimeout)) := by simp +contextual (maxDischargeDepth := 99) [State.cmd, execHoldoverTimeout, hz]
@[simp] theorem execServoCtlWrite_keeps {z0 s : State} (hz : Keeps z0 s) (by_ : Req) (val : Word) :
    Keeps z0 (s.cmd (execServoCtlWrite by_ val)) := by simp +contextual (maxDischargeDepth := 99) [State.cmd, execServoCtlWrite, hz]
@[simp] theorem execPpsInEdge_keeps {z0 s : State} (hz : Keeps z0 s) :
    Keeps z0 (s.cmd (execPpsInEdge)) := by simp +contextual (maxDischargeDepth := 99) [State.cmd, execPpsInEdge, hz]
@[simp] theorem execPpsInAck_keeps {z0 s : State} (hz : Keeps z0 s) (by_ : Req) (tag : Tag) :
    Keeps z0 (s.cmd (execPpsInAck by_ tag)) := by simp +contextual (maxDischargeDepth := 99) [State.cmd, execPpsInAck, hz]
@[simp] theorem execPpsOutRise_keeps {z0 s : State} (hz : Keeps z0 s) :
    Keeps z0 (s.cmd (execPpsOutRise)) := by simp +contextual (maxDischargeDepth := 99) [State.cmd, execPpsOutRise, hz]
@[simp] theorem execPpsOutFall_keeps {z0 s : State} (hz : Keeps z0 s) :
    Keeps z0 (s.cmd (execPpsOutFall)) := by
  simp only [State.cmd, execPpsOutFall]
  (repeat' split) <;> simp +contextual (maxDischargeDepth := 99) [hz]
@[simp] theorem execTsfOfsHiWrite_keeps {z0 s : State} (hz : Keeps z0 s) (by_ : Req) (r : Fin 3) (val : Word) :
    Keeps z0 (s.cmd (execTsfOfsHiWrite by_ r val)) := by simp +contextual (maxDischargeDepth := 99) [State.cmd, execTsfOfsHiWrite, hz]
@[simp] theorem execFtmArm_keeps {z0 s : State} (hz : Keeps z0 s) (by_ : Req) (r : Fin 3) (val : Word) :
    Keeps z0 (s.cmd (execFtmArm by_ r val)) := by simp +contextual (maxDischargeDepth := 99) [State.cmd, execFtmArm, hz]
@[simp] theorem execFtmAck_keeps {z0 s : State} (hz : Keeps z0 s) (by_ : Req) (r : Fin 3) (tag : Tag) :
    Keeps z0 (s.cmd (execFtmAck by_ r tag)) := by simp +contextual (maxDischargeDepth := 99) [State.cmd, execFtmAck, hz]

/-! Fabric. -/

@[simp] theorem execFabFrameArrive_keeps {z0 s : State} (hz : Keeps z0 s) :
    Keeps z0 (s.cmd (execFabFrameArrive)) := by
  simp only [State.cmd, execFabFrameArrive]
  (repeat' split) <;> simp +contextual (maxDischargeDepth := 99) [hz]
@[simp] theorem execFabEnq_keeps {z0 s : State} (hz : Keeps z0 s) (by_ : Req) (val : Word) :
    Keeps z0 (s.cmd (execFabEnq by_ val)) := by simp +contextual (maxDischargeDepth := 99) [State.cmd, execFabEnq, hz]
@[simp] theorem execFabBeaconTimer_keeps {z0 s : State} (hz : Keeps z0 s) :
    Keeps z0 (s.cmd (execFabBeaconTimer)) := by simp +contextual (maxDischargeDepth := 99) [State.cmd, execFabBeaconTimer, hz, -List.foldl_cons]
@[simp] theorem execFabBeaconMiss_keeps {z0 s : State} (hz : Keeps z0 s) (n : Fin 64) :
    Keeps z0 (s.cmd (execFabBeaconMiss n)) := by
  simp only [State.cmd, execFabBeaconMiss]
  (repeat' split) <;> simp +contextual (maxDischargeDepth := 99) [hz]
@[simp] theorem execFabTxStatus_keeps {z0 s : State} (hz : Keeps z0 s) :
    Keeps z0 (s.cmd (execFabTxStatus )) := by
  simp only [State.cmd, execFabTxStatus]
  split
  · assumption
  · split
    · assumption
    · refine State.fabKick_keeps ?_ ..
      split
      · apply Keeps.foldl
        · simp +contextual (maxDischargeDepth := 99) [*]
        · intro s q hz; simp +contextual (maxDischargeDepth := 99) [*]
      · apply Keeps.foldl
        · simp +contextual (maxDischargeDepth := 99) [*]
        · intro s q hz; simp +contextual (maxDischargeDepth := 99) [*]
@[simp] theorem execFwdInstall_keeps {z0 s : State} (hz : Keeps z0 s) (by_ : Req) (tag : Tag) :
    Keeps z0 (s.cmd (execFwdInstall by_ tag)) := by
  simp only [State.cmd, execFwdInstall]
  apply State.fwdCmd_keeps hz
  intro z0 s node e a hz
  (repeat' split) <;> simp +contextual (maxDischargeDepth := 99) [*]
@[simp] theorem execFwdRemove_keeps {z0 s : State} (hz : Keeps z0 s) (by_ : Req) (tag : Tag) :
    Keeps z0 (s.cmd (execFwdRemove by_ tag)) := by
  simp only [State.cmd, execFwdRemove]
  apply State.fwdCmd_keeps hz
  intro z0 s node e a hz
  (repeat' split) <;> simp +contextual (maxDischargeDepth := 99) [*]
@[simp] theorem execFwdSet_keeps {z0 s : State} (hz : Keeps z0 s) (by_ : Req) (tag : Tag) :
    Keeps z0 (s.cmd (execFwdSet by_ tag)) := by
  simp only [State.cmd, execFwdSet]
  apply State.fwdCmd_keeps hz
  intro z0 s node e a hz
  (repeat' split) <;> simp +contextual (maxDischargeDepth := 99) [*]
@[simp] theorem execFwdLookup_keeps {z0 s : State} (hz : Keeps z0 s) (by_ : Req) (tag : Tag) :
    Keeps z0 (s.cmd (execFwdLookup by_ tag)) := by
  simp only [State.cmd, execFwdLookup]
  apply State.fwdCmd_keeps hz
  intro z0 s node e a hz
  (repeat' split) <;> simp +contextual (maxDischargeDepth := 99) [*]
@[simp] theorem execFwdAck_keeps {z0 s : State} (hz : Keeps z0 s) (by_ : Req) (tag : Tag) :
    Keeps z0 (s.cmd (execFwdAck by_ tag)) := by simp +contextual (maxDischargeDepth := 99) [State.cmd, execFwdAck, hz]
@[simp] theorem execFabRingRdWrite_keeps {z0 s : State} (hz : Keeps z0 s) (by_ : Req) (val : Word) :
    Keeps z0 (s.cmd (execFabRingRdWrite by_ val)) := by simp +contextual (maxDischargeDepth := 99) [State.cmd, execFabRingRdWrite, hz]
@[simp] theorem execDozeWake_keeps {z0 s : State} (hz : Keeps z0 s) (r : Fin 3) :
    Keeps z0 (s.cmd (execDozeWake r)) := by simp +contextual (maxDischargeDepth := 99) [State.cmd, execDozeWake, hz]
@[simp] theorem execDozeSleep_keeps {z0 s : State} (hz : Keeps z0 s) (r : Fin 3) :
    Keeps z0 (s.cmd (execDozeSleep r)) := by simp +contextual (maxDischargeDepth := 99) [State.cmd, execDozeSleep, hz]
@[simp] theorem execFabEpochStart_keeps {z0 s : State} (hz : Keeps z0 s) :
    Keeps z0 (s.cmd (execFabEpochStart)) := by simp +contextual (maxDischargeDepth := 99) [State.cmd, execFabEpochStart, hz]
@[simp] theorem execFabWindowStart_keeps {z0 s : State} (hz : Keeps z0 s) :
    Keeps z0 (s.cmd (execFabWindowStart)) := by
  simp only [State.cmd, execFabWindowStart]
  (repeat' split) <;> simp +contextual (maxDischargeDepth := 99) [hz]
@[simp] theorem execFabWindowEnd_keeps {z0 s : State} (hz : Keeps z0 s) :
    Keeps z0 (s.cmd (execFabWindowEnd)) := by simp +contextual (maxDischargeDepth := 99) [State.cmd, execFabWindowEnd, hz]

/-! Class. -/

@[simp] theorem execClsInj_keeps {z0 s : State} (hz : Keeps z0 s) (by_ : Req) (val : Word) :
    Keeps z0 (s.cmd (execClsInj by_ val)) := by simp +contextual (maxDischargeDepth := 99) [State.cmd, execClsInj, hz]
@[simp] theorem execClsParse_keeps {z0 s : State} (hz : Keeps z0 s) (i : Fin 11) :
    Keeps z0 (s.cmd (execClsParse i)) := by
  simp only [State.cmd, execClsParse]
  (repeat' split) <;> simp +contextual (maxDischargeDepth := 99) [hz]
@[simp] theorem execClsStageLookup_keeps {z0 s : State} (hz : Keeps z0 s) (i : Fin 11) (n : Fin 64) :
    Keeps z0 (s.cmd (execClsStageLookup i n)) := by
  simp only [State.cmd, execClsStageLookup]
  (repeat' split) <;> simp +contextual (maxDischargeDepth := 99) [hz]
@[simp] theorem execTableEnable_keeps {z0 s : State} (hz : Keeps z0 s) (by_ : Req) (t : Fin 19) (val : Word) :
    Keeps z0 (s.cmd (execTableEnable by_ t val)) := by simp +contextual (maxDischargeDepth := 99) [State.cmd, execTableEnable, hz]
@[simp] theorem execTableClearDone_keeps {z0 s : State} (hz : Keeps z0 s) (t : Fin 19) :
    Keeps z0 (s.cmd (execTableClearDone t)) := by simp +contextual (maxDischargeDepth := 99) [State.cmd, execTableClearDone, hz]
@[simp] theorem execEmInsert_keeps {z0 s : State} (hz : Keeps z0 s) (by_ : Req) (k : Fin 16) (table : BitVec 4) (tag : BitVec 4) :
    Keeps z0 (s.cmd (execEmInsert by_ k table tag)) := by simp +contextual (maxDischargeDepth := 99) [State.cmd, execEmInsert, hz]
@[simp] theorem execEmDelete_keeps {z0 s : State} (hz : Keeps z0 s) (by_ : Req) (k : Fin 16) (table : BitVec 4) (tag : BitVec 4) :
    Keeps z0 (s.cmd (execEmDelete by_ k table tag)) := by simp +contextual (maxDischargeDepth := 99) [State.cmd, execEmDelete, hz]
@[simp] theorem execEmSet_keeps {z0 s : State} (hz : Keeps z0 s) (by_ : Req) (k : Fin 16) (table : BitVec 4) (tag : BitVec 4) :
    Keeps z0 (s.cmd (execEmSet by_ k table tag)) := by simp +contextual (maxDischargeDepth := 99) [State.cmd, execEmSet, hz]
@[simp] theorem execEmLookup_keeps {z0 s : State} (hz : Keeps z0 s) (by_ : Req) (k : Fin 16) (table : BitVec 4) (tag : BitVec 4) :
    Keeps z0 (s.cmd (execEmLookup by_ k table tag)) := by simp +contextual (maxDischargeDepth := 99) [State.cmd, execEmLookup, hz]
@[simp] theorem execRouteAdd_keeps {z0 s : State} (hz : Keeps z0 s) (by_ : Req) (k : Fin 16) (table : BitVec 4) (len : BitVec 8) (tag : BitVec 4) :
    Keeps z0 (s.cmd (execRouteAdd by_ k table len tag)) := by simp +contextual (maxDischargeDepth := 99) [State.cmd, execRouteAdd, hz]
@[simp] theorem execRouteDel_keeps {z0 s : State} (hz : Keeps z0 s) (by_ : Req) (k : Fin 16) (table : BitVec 4) (len : BitVec 8) (tag : BitVec 4) :
    Keeps z0 (s.cmd (execRouteDel by_ k table len tag)) := by simp +contextual (maxDischargeDepth := 99) [State.cmd, execRouteDel, hz]
@[simp] theorem execCtCreate_keeps {z0 s : State} (hz : Keeps z0 s) (by_ : Req) (k : Fin 16) (tag : BitVec 4) :
    Keeps z0 (s.cmd (execCtCreate by_ k tag)) := by simp +contextual (maxDischargeDepth := 99) [State.cmd, execCtCreate, hz]
@[simp] theorem execCtDelete_keeps {z0 s : State} (hz : Keeps z0 s) (by_ : Req) (k : Fin 16) (tag : BitVec 4) :
    Keeps z0 (s.cmd (execCtDelete by_ k tag)) := by simp +contextual (maxDischargeDepth := 99) [State.cmd, execCtDelete, hz]
@[simp] theorem execTcmdIllegalOp_keeps {z0 s : State} (hz : Keeps z0 s) (by_ : Req) (k : Fin 16) (op : Fin 8) (tag : BitVec 4) :
    Keeps z0 (s.cmd (execTcmdIllegalOp by_ k op tag)) := by simp +contextual (maxDischargeDepth := 99) [State.cmd, execTcmdIllegalOp, hz]
@[simp] theorem execTcmdAck_keeps {z0 s : State} (hz : Keeps z0 s) (by_ : Req) (k : Fin 16) (tag : BitVec 4) :
    Keeps z0 (s.cmd (execTcmdAck by_ k tag)) := by simp +contextual (maxDischargeDepth := 99) [State.cmd, execTcmdAck, hz]
@[simp] theorem execTableCommandDone_keeps {z0 s : State} (hz : Keeps z0 s) (indexFull : Bool) :
    Keeps z0 (s.cmd (execTableCommandDone indexFull)) := by
  simp only [State.cmd, execTableCommandDone]
  (repeat' split) <;> simp +contextual (maxDischargeDepth := 99) [hz]

/-! Sched. -/

@[simp] theorem execSchedItemArrive_keeps {z0 s : State} (hz : Keeps z0 s) (src : ItemSrc) :
    Keeps z0 (s.cmd (execSchedItemArrive src)) := by
  simp only [State.cmd, execSchedItemArrive]
  (repeat' split) <;> simp +contextual (maxDischargeDepth := 99) [hz]
@[simp] theorem execDelayExpire_keeps {z0 s : State} (hz : Keeps z0 s) (slot : Fin 4096) :
    Keeps z0 (s.cmd (execDelayExpire slot)) := by
  simp only [State.cmd, execDelayExpire]
  (repeat' split) <;> simp +contextual (maxDischargeDepth := 99) [hz]
@[simp] theorem execSchedDispatch_keeps {z0 s : State} (hz : Keeps z0 s) :
    Keeps z0 (s.cmd (execSchedDispatch)) := by
  simp only [State.cmd, execSchedDispatch]
  (repeat' split) <;> simp +contextual (maxDischargeDepth := 99) [hz]
@[simp] theorem execGetwTake_keeps {z0 s : State} (hz : Keeps z0 s) (g : Fin 32) :
    Keeps z0 (s.cmd (execGetwTake g)) := by
  simp only [State.cmd, execGetwTake]
  (repeat' split) <;> simp +contextual (maxDischargeDepth := 99) [hz]
@[simp] theorem execSchedDoneArrive_keeps {z0 s : State} (hz : Keeps z0 s) :
    Keeps z0 (s.cmd (execSchedDoneArrive)) := by
  simp only [State.cmd, execSchedDoneArrive]
  (repeat' split) <;> simp +contextual (maxDischargeDepth := 99) [hz]
@[simp] theorem execTicketRelease_keeps {z0 s : State} (hz : Keeps z0 s) :
    Keeps z0 (s.cmd (execTicketRelease)) := by
  simp only [State.cmd, execTicketRelease]
  (repeat' split) <;> simp +contextual (maxDischargeDepth := 99) [hz]
@[simp] theorem execSchedCancelArrive_keeps {z0 s : State} (hz : Keeps z0 s) :
    Keeps z0 (s.cmd (execSchedCancelArrive)) := by
  simp only [State.cmd, execSchedCancelArrive]
  (repeat' split) <;> simp +contextual (maxDischargeDepth := 99) [hz]
@[simp] theorem execEngRunWrite_keeps {z0 s : State} (hz : Keeps z0 s) (by_ : Req) (c : Fin 4) (val : Word) :
    Keeps z0 (s.cmd (execEngRunWrite by_ c val)) := by simp +contextual (maxDischargeDepth := 99) [State.cmd, execEngRunWrite, hz]
@[simp] theorem execEngClkWrite_keeps {z0 s : State} (hz : Keeps z0 s) (by_ : Req) (c : Fin 4) (val : Word) :
    Keeps z0 (s.cmd (execEngClkWrite by_ c val)) := by simp +contextual (maxDischargeDepth := 99) [State.cmd, execEngClkWrite, hz]
@[simp] theorem execEngClkChangeDone_keeps {z0 s : State} (hz : Keeps z0 s) (c : Fin 4) :
    Keeps z0 (s.cmd (execEngClkChangeDone c)) := by simp +contextual (maxDischargeDepth := 99) [State.cmd, execEngClkChangeDone, hz]
@[simp] theorem execSubstCmd_keeps {z0 s : State} (hz : Keeps z0 s) (by_ : Req) (c : Fin 4) (e : Fin 8) (tag : Tag) :
    Keeps z0 (s.cmd (execSubstCmd by_ c e tag)) := by simp +contextual (maxDischargeDepth := 99) [State.cmd, execSubstCmd, hz]
@[simp] theorem execSubstDone_keeps {z0 s : State} (hz : Keeps z0 s) (c : Fin 4) :
    Keeps z0 (s.cmd (execSubstDone c)) := by
  simp only [State.cmd, execSubstDone]
  (repeat' split) <;> simp +contextual (maxDischargeDepth := 99) [hz]
@[simp] theorem execSubstTimeout_keeps {z0 s : State} (hz : Keeps z0 s) (c : Fin 4) :
    Keeps z0 (s.cmd (execSubstTimeout c)) := by
  simp only [State.cmd, execSubstTimeout]
  (repeat' split) <;> simp +contextual (maxDischargeDepth := 99) [hz]
@[simp] theorem execSubstAck_keeps {z0 s : State} (hz : Keeps z0 s) (by_ : Req) (c : Fin 4) (tag : Tag) :
    Keeps z0 (s.cmd (execSubstAck by_ c tag)) := by simp +contextual (maxDischargeDepth := 99) [State.cmd, execSubstAck, hz]

/-! Cipher. -/

@[simp] theorem execSessInstall_keeps {z0 s : State} (hz : Keeps z0 s) (by_ : Req) (tag : Tag) :
    Keeps z0 (s.cmd (execSessInstall by_ tag)) := by
  simp only [State.cmd, execSessInstall]
  apply State.sessCmd_keeps hz
  intro z0 s hz
  (repeat' split) <;> simp +contextual (maxDischargeDepth := 99) [*]
@[simp] theorem execSessDelete_keeps {z0 s : State} (hz : Keeps z0 s) (by_ : Req) (tag : Tag) :
    Keeps z0 (s.cmd (execSessDelete by_ tag)) := by simp +contextual (maxDischargeDepth := 99) [State.cmd, execSessDelete, hz]
@[simp] theorem execSessIllegalOp_keeps {z0 s : State} (hz : Keeps z0 s) (by_ : Req) (tag : Tag) :
    Keeps z0 (s.cmd (execSessIllegalOp by_ tag)) := by simp +contextual (maxDischargeDepth := 99) [State.cmd, execSessIllegalOp, hz]
@[simp] theorem execSessAck_keeps {z0 s : State} (hz : Keeps z0 s) (by_ : Req) (tag : Tag) :
    Keeps z0 (s.cmd (execSessAck by_ tag)) := by simp +contextual (maxDischargeDepth := 99) [State.cmd, execSessAck, hz]
@[simp] theorem execCipherJobArrive_keeps {z0 s : State} (hz : Keeps z0 s) :
    Keeps z0 (s.cmd (execCipherJobArrive)) := by
  simp only [State.cmd, execCipherJobArrive]
  (repeat' split) <;> simp +contextual (maxDischargeDepth := 99) [hz]
@[simp] theorem execCipherJobDone_keeps {z0 s : State} (hz : Keeps z0 s) (q : BitVec 8) :
    Keeps z0 (s.cmd (execCipherJobDone q)) := by
  simp only [State.cmd, execCipherJobDone]
  (repeat' split) <;> simp +contextual (maxDischargeDepth := 99) [hz]

/-! Dram. -/

@[simp] theorem execMapMaskWrite_keeps {z0 s : State} (hz : Keeps z0 s) (by_ : Req) (i : Fin 7) (val : Word) :
    Keeps z0 (s.cmd (execMapMaskWrite by_ i val)) := by simp +contextual (maxDischargeDepth := 99) [State.cmd, execMapMaskWrite, hz]
@[simp] theorem execStoreRequestArrive_keeps {z0 s : State} (hz : Keeps z0 s) (port : Fin 18) (addr : BitVec 33) (len : BitVec 9) (wdata : Option (List Byte)) :
    Keeps z0 (s.cmd (execStoreRequestArrive port addr len wdata)) := by
  simp only [State.cmd, execStoreRequestArrive]
  (repeat' split) <;> simp +contextual (maxDischargeDepth := 99) [hz]
@[simp] theorem execDramCommandIssue_keeps {z0 s : State} (hz : Keeps z0 s) (ch : Fin 8) :
    Keeps z0 (s.cmd (execDramCommandIssue ch)) := by
  simp only [State.cmd, execDramCommandIssue]
  (repeat' split) <;> simp +contextual (maxDischargeDepth := 99) [hz]
@[simp] theorem execStoreReadComplete_keeps {z0 s : State} (hz : Keeps z0 s) (ch : Fin 8) (found : ReadFound) :
    Keeps z0 (s.cmd (execStoreReadComplete ch found)) := by
  simp only [State.cmd, execStoreReadComplete]
  (repeat' split) <;> simp +contextual (maxDischargeDepth := 99) [hz]
@[simp] theorem execRefreshDue_keeps {z0 s : State} (hz : Keeps z0 s) (ch : Fin 8) (bank : Fin 16) :
    Keeps z0 (s.cmd (execRefreshDue ch bank)) := by simp +contextual (maxDischargeDepth := 99) [State.cmd, execRefreshDue, hz]
@[simp] theorem execMr4Poll_keeps {z0 s : State} (hz : Keeps z0 s) (ch : Fin 8) (rate : BitVec 3) (above : Bool) :
    Keeps z0 (s.cmd (execMr4Poll ch rate above)) := by
  simp only [State.cmd, execMr4Poll]
  (repeat' split) <;> simp +contextual (maxDischargeDepth := 99) [hz]
@[simp] theorem execActTableClear_keeps {z0 s : State} (hz : Keeps z0 s) :
    Keeps z0 (s.cmd (execActTableClear)) := by
  simp only [State.cmd, execActTableClear]
  split
  · exact hz
  · refine Keeps.foldl ?_ fun _ _ h => State.setChan_keeps h ..
    simp +contextual (maxDischargeDepth := 99) [hz]
@[simp] theorem execNrStart_keeps {z0 s : State} (hz : Keeps z0 s) (ch : Fin 8) (bank : Fin 16) :
    Keeps z0 (s.cmd (execNrStart ch bank)) := by
  simp only [State.cmd, execNrStart]
  (repeat' split) <;> simp +contextual (maxDischargeDepth := 99) [hz]
@[simp] theorem execNrComplete_keeps {z0 s : State} (hz : Keeps z0 s) (ch : Fin 8) (bank : Fin 16) :
    Keeps z0 (s.cmd (execNrComplete ch bank)) := by
  simp only [State.cmd, execNrComplete]
  (repeat' split) <;> simp +contextual (maxDischargeDepth := 99) [hz]
@[simp] theorem execRetrainPeriod_keeps {z0 s : State} (hz : Keeps z0 s) :
    Keeps z0 (s.cmd (execRetrainPeriod)) := by simp +contextual (maxDischargeDepth := 99) [State.cmd, execRetrainPeriod, hz]
@[simp] theorem execRetrainDrift_keeps {z0 s : State} (hz : Keeps z0 s) (ch : Fin 8) (drift : BitVec 16) :
    Keeps z0 (s.cmd (execRetrainDrift ch drift)) := by simp +contextual (maxDischargeDepth := 99) [State.cmd, execRetrainDrift, hz]
@[simp] theorem execRetrainAged_keeps {z0 s : State} (hz : Keeps z0 s) (ch : Fin 8) :
    Keeps z0 (s.cmd (execRetrainAged ch)) := by simp +contextual (maxDischargeDepth := 99) [State.cmd, execRetrainAged, hz]
@[simp] theorem execRetrainPauseStart_keeps {z0 s : State} (hz : Keeps z0 s) (ch : Fin 8) :
    Keeps z0 (s.cmd (execRetrainPauseStart ch)) := by simp +contextual (maxDischargeDepth := 99) [State.cmd, execRetrainPauseStart, hz]
@[simp] theorem execRetrainRetry_keeps {z0 s : State} (hz : Keeps z0 s) (ch : Fin 8) :
    Keeps z0 (s.cmd (execRetrainRetry ch)) := by simp +contextual (maxDischargeDepth := 99) [State.cmd, execRetrainRetry, hz]
@[simp] theorem execRepairRetire_keeps {z0 s : State} (hz : Keeps z0 s) (by_ : Req) (tag : Tag) :
    Keeps z0 (s.cmd (execRepairRetire by_ tag)) := by simp +contextual (maxDischargeDepth := 99) [State.cmd, execRepairRetire, hz]
@[simp] theorem execRepairQuery_keeps {z0 s : State} (hz : Keeps z0 s) (by_ : Req) (tag : Tag) :
    Keeps z0 (s.cmd (execRepairQuery by_ tag)) := by simp +contextual (maxDischargeDepth := 99) [State.cmd, execRepairQuery, hz]
@[simp] theorem execRepairIllegalOp_keeps {z0 s : State} (hz : Keeps z0 s) (by_ : Req) (tag : Tag) :
    Keeps z0 (s.cmd (execRepairIllegalOp by_ tag)) := by simp +contextual (maxDischargeDepth := 99) [State.cmd, execRepairIllegalOp, hz]
@[simp] theorem execRepairPpr_keeps {z0 s : State} (hz : Keeps z0 s) (by_ : Req) (tag : Tag) (spare : Bool) :
    Keeps z0 (s.cmd (execRepairPpr by_ tag spare)) := by simp +contextual (maxDischargeDepth := 99) [State.cmd, execRepairPpr, hz]
@[simp] theorem execPprDone_keeps {z0 s : State} (hz : Keeps z0 s) (verified : Bool) :
    Keeps z0 (s.cmd (execPprDone verified)) := by
  simp only [State.cmd, execPprDone]
  (repeat' split) <;> simp +contextual (maxDischargeDepth := 99) [hz]
@[simp] theorem execRepairAck_keeps {z0 s : State} (hz : Keeps z0 s) (by_ : Req) (tag : Tag) :
    Keeps z0 (s.cmd (execRepairAck by_ tag)) := by simp +contextual (maxDischargeDepth := 99) [State.cmd, execRepairAck, hz]

/-! Wire. -/

@[simp] theorem execLaneCtlWrite_keeps {z0 s : State} (hz : Keeps z0 s) (by_ : Req) (n : Fin 4) (val : Word) :
    Keeps z0 (s.cmd (execLaneCtlWrite by_ n val)) := by simp +contextual (maxDischargeDepth := 99) [State.cmd, execLaneCtlWrite, hz]
@[simp] theorem execLaneRxLock_keeps {z0 s : State} (hz : Keeps z0 s) (n : Fin 4) :
    Keeps z0 (s.cmd (execLaneRxLock n)) := by simp +contextual (maxDischargeDepth := 99) [State.cmd, execLaneRxLock, hz]
@[simp] theorem execAnDone_keeps {z0 s : State} (hz : Keeps z0 s) (n : Fin 4) (lp : Word) (fec : BitVec 2) :
    Keeps z0 (s.cmd (execAnDone n lp fec)) := by simp +contextual (maxDischargeDepth := 99) [State.cmd, execAnDone, hz]
@[simp] theorem execLaneLinkUp_keeps {z0 s : State} (hz : Keeps z0 s) (n : Fin 4) :
    Keeps z0 (s.cmd (execLaneLinkUp n)) := by
  simp only [State.cmd, execLaneLinkUp]
  (repeat' split) <;> simp +contextual (maxDischargeDepth := 99) [hz]
@[simp] theorem execLaneLinkDown_keeps {z0 s : State} (hz : Keeps z0 s) (n : Fin 4) (lockLost fault : Bool) :
    Keeps z0 (s.cmd (execLaneLinkDown n lockLost fault)) := by simp +contextual (maxDischargeDepth := 99) [State.cmd, execLaneLinkDown, hz]
@[simp] theorem execPauseResendTimer_keeps {z0 s : State} (hz : Keeps z0 s) (n : Fin 4) :
    Keeps z0 (s.cmd (execPauseResendTimer n)) := by
  simp only [State.cmd, execPauseResendTimer]
  (repeat' split) <;> simp +contextual (maxDischargeDepth := 99) [hz]
@[simp] theorem execClsIngressArrive_keeps {z0 s : State} (hz : Keeps z0 s) (i : Fin 11) :
    Keeps z0 (s.cmd (execClsIngressArrive i)) := by simp +contextual (maxDischargeDepth := 99) [State.cmd, execClsIngressArrive, hz]
@[simp] theorem execWireRxFrame_keeps {z0 s : State} (hz : Keeps z0 s) (n : Fin 4) (data : List Byte) :
    Keeps z0 (s.cmd (execWireRxFrame n data)) := by
  simp only [State.cmd, execWireRxFrame]
  (repeat' split) <;> simp +contextual (maxDischargeDepth := 99) [hz]
@[simp] theorem execWireTxEnqueue_keeps {z0 s : State} (hz : Keeps z0 s) (src : Option (Fin 64)) :
    Keeps z0 (s.cmd (execWireTxEnqueue src)) := by
  simp only [State.cmd, execWireTxEnqueue]
  (repeat' split) <;> simp +contextual (maxDischargeDepth := 99) [hz]
@[simp] theorem execWireTxStart_keeps {z0 s : State} (hz : Keeps z0 s) (n : Fin 4) :
    Keeps z0 (s.cmd (execWireTxStart n)) := by
  simp only [State.cmd, execWireTxStart]
  (repeat' split) <;> simp +contextual (maxDischargeDepth := 99) [hz]
@[simp] theorem execWireTxEnd_keeps {z0 s : State} (hz : Keeps z0 s) (n : Fin 4) :
    Keeps z0 (s.cmd (execWireTxEnd n)) := by
  simp only [State.cmd, execWireTxEnd]
  (repeat' split) <;> simp +contextual (maxDischargeDepth := 99) [hz]
@[simp] theorem execPauseExpire_keeps {z0 s : State} (hz : Keeps z0 s) (n : Fin 4) :
    Keeps z0 (s.cmd (execPauseExpire n)) := by simp +contextual (maxDischargeDepth := 99) [State.cmd, execPauseExpire, hz]
@[simp] theorem execMdioC22Write_keeps {z0 s : State} (hz : Keeps z0 s) (by_ : Req) (phyad reg : BitVec 5) (tag : Tag) :
    Keeps z0 (s.cmd (execMdioC22Write by_ phyad reg tag)) := by simp +contextual (maxDischargeDepth := 99) [State.cmd, execMdioC22Write, hz]
@[simp] theorem execMdioC22Read_keeps {z0 s : State} (hz : Keeps z0 s) (by_ : Req) (phyad reg : BitVec 5) (tag : Tag) :
    Keeps z0 (s.cmd (execMdioC22Read by_ phyad reg tag)) := by simp +contextual (maxDischargeDepth := 99) [State.cmd, execMdioC22Read, hz]
@[simp] theorem execMdioC45Write_keeps {z0 s : State} (hz : Keeps z0 s) (by_ : Req) (phyad mmd : BitVec 5) (tag : Tag) :
    Keeps z0 (s.cmd (execMdioC45Write by_ phyad mmd tag)) := by simp +contextual (maxDischargeDepth := 99) [State.cmd, execMdioC45Write, hz]
@[simp] theorem execMdioC45Read_keeps {z0 s : State} (hz : Keeps z0 s) (by_ : Req) (phyad mmd : BitVec 5) (tag : Tag) :
    Keeps z0 (s.cmd (execMdioC45Read by_ phyad mmd tag)) := by simp +contextual (maxDischargeDepth := 99) [State.cmd, execMdioC45Read, hz]
@[simp] theorem execPhyPoll_keeps {z0 s : State} (hz : Keeps z0 s) (n : Fin 4) :
    Keeps z0 (s.cmd (execPhyPoll n)) := by simp +contextual (maxDischargeDepth := 99) [State.cmd, execPhyPoll, hz]
@[simp] theorem execMdioTransactionDone_keeps {z0 s : State} (hz : Keeps z0 s) (resp : Option (BitVec 16)) :
    Keeps z0 (s.cmd (execMdioTransactionDone resp)) := by
  simp only [State.cmd, execMdioTransactionDone]
  (repeat' split) <;> simp +contextual (maxDischargeDepth := 99) [hz]
@[simp] theorem execMdioAck_keeps {z0 s : State} (hz : Keeps z0 s) (by_ : Req) (tag : Tag) :
    Keeps z0 (s.cmd (execMdioAck by_ tag)) := by simp +contextual (maxDischargeDepth := 99) [State.cmd, execMdioAck, hz]

/-! HostIf. -/

@[simp] theorem execRingConfigWrite_keeps {z0 s : State} (hz : Keeps z0 s) (by_ : Req) (r : BitVec 8) (val : Word) :
    Keeps z0 (s.cmd (execRingConfigWrite by_ r val)) := by simp +contextual (maxDischargeDepth := 99) [State.cmd, execRingConfigWrite, hz]
@[simp] theorem execRingTailWrite_keeps {z0 s : State} (hz : Keeps z0 s) (by_ : Req) (r : BitVec 8) (val : Word) :
    Keeps z0 (s.cmd (execRingTailWrite by_ r val)) := by simp +contextual (maxDischargeDepth := 99) [State.cmd, execRingTailWrite, hz]
@[simp] theorem execCoalTimer_keeps {z0 s : State} (hz : Keeps z0 s) (r : BitVec 8) :
    Keeps z0 (s.cmd (execCoalTimer r)) := by simp +contextual (maxDischargeDepth := 99) [State.cmd, execCoalTimer, hz]
@[simp] theorem execHostH2dFrame_keeps {z0 s : State} (hz : Keeps z0 s) (r : BitVec 8) (len : BitVec 16) (buf : List Byte) :
    Keeps z0 (s.cmd (execHostH2dFrame r len buf)) := by
  simp only [State.cmd, execHostH2dFrame]
  (repeat' split) <;> simp +contextual (maxDischargeDepth := 99) [hz]
@[simp] theorem execHostD2hRelease_keeps {z0 s : State} (hz : Keeps z0 s) :
    Keeps z0 (s.cmd (execHostD2hRelease)) := by
  simp only [State.cmd, execHostD2hRelease]
  (repeat' split) <;> simp +contextual (maxDischargeDepth := 99) [hz]
@[simp] theorem execHostD2hWriteback_keeps {z0 s : State} (hz : Keeps z0 s) (r : BitVec 8) (addr : BitVec 64) (bufLen : BitVec 16) :
    Keeps z0 (s.cmd (execHostD2hWriteback r addr bufLen)) := by
  simp only [State.cmd, execHostD2hWriteback]
  (repeat' split) <;> simp +contextual (maxDischargeDepth := 99) [hz]
@[simp] theorem execHostDmaError_keeps {z0 s : State} (hz : Keeps z0 s) (r : BitVec 8) :
    Keeps z0 (s.cmd (execHostDmaError r)) := by
  simp only [State.cmd, execHostDmaError]
  (repeat' split) <;> simp +contextual (maxDischargeDepth := 99) [hz]
@[simp] theorem execPcieLinkUp_keeps {z0 s : State} (hz : Keeps z0 s) (speed : Fin 4) (width : BitVec 4) :
    Keeps z0 (s.cmd (execPcieLinkUp speed width)) := by simp +contextual (maxDischargeDepth := 99) [State.cmd, execPcieLinkUp, hz]
@[simp] theorem execPcieLinkDown_keeps {z0 s : State} (hz : Keeps z0 s) :
    Keeps z0 (s.cmd (execPcieLinkDown)) := by simp +contextual (maxDischargeDepth := 99) [State.cmd, execPcieLinkDown, hz]
@[simp] theorem execHostFunctionChange_keeps {z0 s : State} (hz : Keeps z0 s) (bme msixEn d3 flr : Bool) :
    Keeps z0 (s.cmd (execHostFunctionChange bme msixEn d3 flr)) := by simp +contextual (maxDischargeDepth := 99) [State.cmd, execHostFunctionChange, hz]
@[simp] theorem execPcieConfigRequest_keeps {z0 s : State} (hz : Keeps z0 s) (cfg : HostCfg) :
    Keeps z0 (s.cmd (execPcieConfigRequest cfg)) := by
  simp only [State.cmd, execPcieConfigRequest]
  (repeat' split) <;> simp +contextual (maxDischargeDepth := 99) [hz]
@[simp] theorem execMbxCmd_keeps {z0 s : State} (hz : Keeps z0 s) (by_ : Req) (k : Fin 8) (op : BitVec 16) (tag : Tag) :
    Keeps z0 (s.cmd (execMbxCmd by_ k op tag)) := by simp +contextual (maxDischargeDepth := 99) [State.cmd, execMbxCmd, hz]
@[simp] theorem execMbxPost_keeps {z0 s : State} (hz : Keeps z0 s) (by_ : Req) (k : Fin 8) (code : BitVec 8) (tag : Tag) :
    Keeps z0 (s.cmd (execMbxPost by_ k code tag)) := by simp +contextual (maxDischargeDepth := 99) [State.cmd, execMbxPost, hz]
@[simp] theorem execMbxAck_keeps {z0 s : State} (hz : Keeps z0 s) (by_ : Req) (k : Fin 8) (tag : Tag) :
    Keeps z0 (s.cmd (execMbxAck by_ k tag)) := by simp +contextual (maxDischargeDepth := 99) [State.cmd, execMbxAck, hz]

/-! Mgmt. -/

@[simp] theorem execOtpProg_keeps {z0 s : State} (hz : Keeps z0 s) (by_ : Req) (val : Word) :
    Keeps z0 (s.cmd (execOtpProg by_ val)) := by simp +contextual (maxDischargeDepth := 99) [State.cmd, execOtpProg, hz]
@[simp] theorem execLogPut_keeps {z0 s : State} (hz : Keeps z0 s) (by_ : Req) (val : Word) :
    Keeps z0 (s.cmd (execLogPut by_ val)) := by simp +contextual (maxDischargeDepth := 99) [State.cmd, execLogPut, hz]
@[simp] theorem execSensorRead_keeps {z0 s : State} (hz : Keeps z0 s) (temps : List (BitVec 16)) (mv : List (BitVec 16)) :
    Keeps z0 (s.cmd (execSensorRead temps mv)) := by simp +contextual (maxDischargeDepth := 99) [State.cmd, execSensorRead, hz]
@[simp] theorem execRoMonUpdate_keeps {z0 s : State} (hz : Keeps z0 s) (now : List (BitVec 16)) :
    Keeps z0 (s.cmd (execRoMonUpdate now)) := by simp +contextual (maxDischargeDepth := 99) [State.cmd, execRoMonUpdate, hz]
@[simp] theorem execDutyWindow_keeps {z0 s : State} (hz : Keeps z0 s) :
    Keeps z0 (s.cmd (execDutyWindow)) := by simp +contextual (maxDischargeDepth := 99) [State.cmd, execDutyWindow, hz]
@[simp] theorem execWdtKick_keeps {z0 s : State} (hz : Keeps z0 s) (by_ : Req) (k : Fin 7) (key : Byte) :
    Keeps z0 (s.cmd (execWdtKick by_ k key)) := by simp +contextual (maxDischargeDepth := 99) [State.cmd, execWdtKick, hz]
@[simp] theorem execSramCorrectedError_keeps {z0 s : State} (hz : Keeps z0 s) (t : Fin 18) (row : BitVec 16) :
    Keeps z0 (s.cmd (execSramCorrectedError t row)) := by simp +contextual (maxDischargeDepth := 99) [State.cmd, execSramCorrectedError, hz]
@[simp] theorem execAxSramRowSubst_keeps {z0 s : State} (hz : Keeps z0 s) (t : Fin 18) (row : BitVec 16) (spare : Option (BitVec 8)) :
    Keeps z0 (s.cmd (execAxSramRowSubst t row spare)) := by
  simp only [State.cmd, execAxSramRowSubst]
  (repeat' split) <;> simp +contextual (maxDischargeDepth := 99) [hz]
@[simp] theorem execAxTrackSubst_keeps {z0 s : State} (hz : Keeps z0 s) (t : Fin 18) (link : Fin 4) (track : BitVec 9) :
    Keeps z0 (s.cmd (execAxTrackSubst t link track)) := by
  simp only [State.cmd, execAxTrackSubst]
  (repeat' split) <;> simp +contextual (maxDischargeDepth := 99) [hz]
@[simp] theorem execAxLaneSubst_keeps {z0 s : State} (hz : Keeps z0 s) (r : Fin 3) :
    Keeps z0 (s.cmd (execAxLaneSubst r)) := by
  simp only [State.cmd, execAxLaneSubst]
  (repeat' split) <;> simp +contextual (maxDischargeDepth := 99) [hz]
@[simp] theorem execAxEngineSubst_keeps {z0 s : State} (hz : Keeps z0 s) (c : Fin 4) (e : Fin 8) :
    Keeps z0 (s.cmd (execAxEngineSubst c e)) := by
  simp only [State.cmd, execAxEngineSubst]
  (repeat' split) <;> simp +contextual (maxDischargeDepth := 99) [hz]
@[simp] theorem execCrHash_keeps {z0 s : State} (hz : Keeps z0 s) (by_ : Req) (tag : Tag) :
    Keeps z0 (s.cmd (execCrHash by_ tag)) := by simp +contextual (maxDischargeDepth := 99) [State.cmd, execCrHash, hz]
@[simp] theorem execCrVerify_keeps {z0 s : State} (hz : Keeps z0 s) (by_ : Req) (tag : Tag) :
    Keeps z0 (s.cmd (execCrVerify by_ tag)) := by simp +contextual (maxDischargeDepth := 99) [State.cmd, execCrVerify, hz]
@[simp] theorem execCrAck_keeps {z0 s : State} (hz : Keeps z0 s) (by_ : Req) (tag : Tag) :
    Keeps z0 (s.cmd (execCrAck by_ tag)) := by simp +contextual (maxDischargeDepth := 99) [State.cmd, execCrAck, hz]
@[simp] theorem execFlRead_keeps {z0 s : State} (hz : Keeps z0 s) (by_ : Req) (op : Byte) (dtr : Bool) (tag : Tag) :
    Keeps z0 (s.cmd (execFlRead by_ op dtr tag)) := by simp +contextual (maxDischargeDepth := 99) [State.cmd, execFlRead, hz]
@[simp] theorem execFlWrite_keeps {z0 s : State} (hz : Keeps z0 s) (by_ : Req) (op : Byte) (dtr : Bool) (tag : Tag) :
    Keeps z0 (s.cmd (execFlWrite by_ op dtr tag)) := by simp +contextual (maxDischargeDepth := 99) [State.cmd, execFlWrite, hz]
@[simp] theorem execFlAck_keeps {z0 s : State} (hz : Keeps z0 s) (by_ : Req) (tag : Tag) :
    Keeps z0 (s.cmd (execFlAck by_ tag)) := by simp +contextual (maxDischargeDepth := 99) [State.cmd, execFlAck, hz]
@[simp] theorem execFlDone_keeps {z0 s : State} (hz : Keeps z0 s) :
    Keeps z0 (s.cmd (execFlDone)) := by
  simp only [State.cmd, execFlDone]
  (repeat' split) <;> simp +contextual (maxDischargeDepth := 99) [hz]
@[simp] theorem execAvsTarget_keeps {z0 s : State} (hz : Keeps z0 s) (by_ : Req) (mv : BitVec 16) (tag : Tag) :
    Keeps z0 (s.cmd (execAvsTarget by_ mv tag)) := by simp +contextual (maxDischargeDepth := 99) [State.cmd, execAvsTarget, hz]
@[simp] theorem execAvsDone_keeps {z0 s : State} (hz : Keeps z0 s) (acked : Bool) :
    Keeps z0 (s.cmd (execAvsDone acked)) := by
  simp only [State.cmd, execAvsDone]
  (repeat' split) <;> simp +contextual (maxDischargeDepth := 99) [hz]
@[simp] theorem execAvsAck_keeps {z0 s : State} (hz : Keeps z0 s) (by_ : Req) (tag : Tag) :
    Keeps z0 (s.cmd (execAvsAck by_ tag)) := by simp +contextual (maxDischargeDepth := 99) [State.cmd, execAvsAck, hz]
@[simp] theorem execPorNAssert_keeps {z0 s : State} (hz : Keeps z0 s) :
    Keeps z0 (s.cmd (execPorNAssert)) := by simp +contextual (maxDischargeDepth := 99) [State.cmd, execPorNAssert, hz]
@[simp] theorem execPorNRelease_keeps {z0 s : State} (hz : Keeps z0 s) (mode : BitVec 2) :
    Keeps z0 (s.cmd (execPorNRelease mode)) := by simp +contextual (maxDischargeDepth := 99) [State.cmd, execPorNRelease, hz]
@[simp] theorem execSysRstNAssert_keeps {z0 s : State} (hz : Keeps z0 s) :
    Keeps z0 (s.cmd (execSysRstNAssert)) := by simp +contextual (maxDischargeDepth := 99) [State.cmd, execSysRstNAssert, hz]
@[simp] theorem execSysRstNRelease_keeps {z0 s : State} (hz : Keeps z0 s) (mode : BitVec 2) :
    Keeps z0 (s.cmd (execSysRstNRelease mode)) := by simp +contextual (maxDischargeDepth := 99) [State.cmd, execSysRstNRelease, hz]
@[simp] theorem execDevRst_keeps {z0 s : State} (hz : Keeps z0 s) (by_ : Req) (key : BitVec 16) :
    Keeps z0 (s.cmd (execDevRst by_ key)) := by simp +contextual (maxDischargeDepth := 99) [State.cmd, execDevRst, hz]
@[simp] theorem execRefclkStop_keeps {z0 s : State} (hz : Keeps z0 s) :
    Keeps z0 (s.cmd (execRefclkStop)) := by simp +contextual (maxDischargeDepth := 99) [State.cmd, execRefclkStop, hz]
@[simp] theorem execRefclkResume_keeps {z0 s : State} (hz : Keeps z0 s) (mode : BitVec 2) :
    Keeps z0 (s.cmd (execRefclkResume mode)) := by simp +contextual (maxDischargeDepth := 99) [State.cmd, execRefclkResume, hz]

/-! Newt. -/

@[simp] theorem execNewtTxCmd_keeps {z0 s : State} (hz : Keeps z0 s) (by_ : Req) (tag : Tag) :
    Keeps z0 (s.cmd (execNewtTxCmd by_ tag)) := by
  simp only [State.cmd, execNewtTxCmd]
  refine State.onWrite_keeps hz _ _ _ fun _ _ hu => ?_
  (repeat' split) <;> simp +contextual (maxDischargeDepth := 99) [hu]
@[simp] theorem execNewtBackoffExpire_keeps {z0 s : State} (hz : Keeps z0 s) :
    Keeps z0 (s.cmd (execNewtBackoffExpire)) := by
  simp only [State.cmd, execNewtBackoffExpire]
  (repeat' split) <;> simp +contextual (maxDischargeDepth := 99) [hz]
@[simp] theorem execNewtCcaEnd_keeps {z0 s : State} (hz : Keeps z0 s) (energy : Int) (signal : Bool) :
    Keeps z0 (s.cmd (execNewtCcaEnd energy signal)) := by
  simp only [State.cmd, execNewtCcaEnd]
  (repeat' split) <;> simp +contextual (maxDischargeDepth := 99) [hz]
@[simp] theorem execNewtTxEnd_keeps {z0 s : State} (hz : Keeps z0 s) :
    Keeps z0 (s.cmd (execNewtTxEnd)) := by
  simp only [State.cmd, execNewtTxEnd]
  (repeat' split) <;> simp +contextual (maxDischargeDepth := 99) [hz]
@[simp] theorem execNewtAckTimeout_keeps {z0 s : State} (hz : Keeps z0 s) :
    Keeps z0 (s.cmd (execNewtAckTimeout)) := by
  simp only [State.cmd, execNewtAckTimeout]
  (repeat' split) <;> simp +contextual (maxDischargeDepth := 99) [hz]
@[simp] theorem execNewtTxAck_keeps {z0 s : State} (hz : Keeps z0 s) (by_ : Req) (tag : Tag) :
    Keeps z0 (s.cmd (execNewtTxAck by_ tag)) := by simp +contextual (maxDischargeDepth := 99) [State.cmd, execNewtTxAck, hz]
@[simp] theorem execNewtCtlWrite_keeps {z0 s : State} (hz : Keeps z0 s) (by_ : Req) (val : Word) :
    Keeps z0 (s.cmd (execNewtCtlWrite by_ val)) := by simp +contextual (maxDischargeDepth := 99) [State.cmd, execNewtCtlWrite, hz]
@[simp] theorem execNewtAgcStep_keeps {z0 s : State} (hz : Keeps z0 s) (peak : Int) :
    Keeps z0 (s.cmd (execNewtAgcStep peak)) := by simp +contextual (maxDischargeDepth := 99) [State.cmd, execNewtAgcStep, hz]
@[simp] theorem execNewtPreambleAcquire_keeps {z0 s : State} (hz : Keeps z0 s) :
    Keeps z0 (s.cmd (execNewtPreambleAcquire)) := by simp +contextual (maxDischargeDepth := 99) [State.cmd, execNewtPreambleAcquire, hz]
@[simp] theorem execNewtAntSelect_keeps {z0 s : State} (hz : Keeps z0 s) (mine other : Nat) (sfd : Bool) :
    Keeps z0 (s.cmd (execNewtAntSelect mine other sfd)) := by
  simp only [State.cmd, execNewtAntSelect]
  (repeat' split) <;> simp +contextual (maxDischargeDepth := 99) [hz]
@[simp] theorem execNewtFrameReceive_keeps {z0 s : State} (hz : Keeps z0 s) (psdu : List (BitVec 8)) (rssi lqi : BitVec 8) :
    Keeps z0 (s.cmd (execNewtFrameReceive psdu rssi lqi)) := by
  apply State.cmd_keeps_of hz
  intro z h
  unfold execNewtFrameReceive at h
  injection h with h
  subst h
  cases s.newt.rx with
  | none => exact hz
  | some p =>
    obtain ⟨started, _⟩ := p
    extract_lets len ant s0 body fcsOk s1 finish promisc chan time raw
    have h0 : Keeps z0 s0 := State.wf_keeps (State.modNewt_keeps hz ..) ..
    clear_value s0
    have h1 : Keeps z0 s1 := Keeps.ite_of (State.modNewt_keeps h0 ..) h0
    clear_value s1
    have hf : ∀ t, Keeps z0 t → Keeps z0 (finish t) := fun t ht =>
      State.newtRetune_keeps (State.newtGo_keeps (State.newtListen_keeps ht))
    clear_value finish
    have hr : Keeps z0 (raw s1) := State.newtDeliver_keeps h1 ..
    clear_value raw
    refine Keeps.ite_of (hf _ h1) (Keeps.ite_of (hf _ (Keeps.ite_of hr (State.sat_keeps h1 ..))) ?_)
    cases newtParse body with
    | none => exact hf _ (Keeps.ite_of hr (State.sat_keeps h1 ..))
    | some h =>
      dsimp -zeta only
      extract_lets src s2 known accepted answer fpAsked fp deliver s3 got octets
      have h2 : Keeps z0 s2 := by
        simp only [s2]
        cases s.newtMatch h (s.clock - (len + 1) * 16000) with
        | none => exact h1
        | some t => exact State.newtPost_keeps h1 ..
      clear_value s2
      have h3 : Keeps z0 s3 := Keeps.ite_of h2 (State.sat_keeps h2 ..)
      clear_value s3
      exact Keeps.ite_of (State.modNewt_keeps h3 ..) (hf _ (Keeps.ite_of (State.newtHand_keeps h3 ..) h3))
@[simp] theorem execNewtAckSend_keeps {z0 s : State} (hz : Keeps z0 s) :
    Keeps z0 (s.cmd (execNewtAckSend)) := by
  simp only [State.cmd, execNewtAckSend]
  (repeat' split) <;> simp +contextual (maxDischargeDepth := 99) [hz]
@[simp] theorem execChildAddShort_keeps {z0 s : State} (hz : Keeps z0 s) (by_ : Req) (tag : Tag) :
    Keeps z0 (s.cmd (execChildAddShort by_ tag)) := by
  simp only [State.cmd, execChildAddShort]
  apply State.childCmd_keeps hz
  intro z0 s hz
  (repeat' split) <;> simp +contextual (maxDischargeDepth := 99) [*]
@[simp] theorem execChildDelShort_keeps {z0 s : State} (hz : Keeps z0 s) (by_ : Req) (tag : Tag) :
    Keeps z0 (s.cmd (execChildDelShort by_ tag)) := by
  simp only [State.cmd, execChildDelShort]
  apply State.childCmd_keeps hz
  intro z0 s hz
  (repeat' split) <;> simp +contextual (maxDischargeDepth := 99) [*]
@[simp] theorem execChildAddExt_keeps {z0 s : State} (hz : Keeps z0 s) (by_ : Req) (tag : Tag) :
    Keeps z0 (s.cmd (execChildAddExt by_ tag)) := by
  simp only [State.cmd, execChildAddExt]
  apply State.childCmd_keeps hz
  intro z0 s hz
  (repeat' split) <;> simp +contextual (maxDischargeDepth := 99) [*]
@[simp] theorem execChildDelExt_keeps {z0 s : State} (hz : Keeps z0 s) (by_ : Req) (tag : Tag) :
    Keeps z0 (s.cmd (execChildDelExt by_ tag)) := by
  simp only [State.cmd, execChildDelExt]
  apply State.childCmd_keeps hz
  intro z0 s hz
  (repeat' split) <;> simp +contextual (maxDischargeDepth := 99) [*]
@[simp] theorem execChildIllegalOp_keeps {z0 s : State} (hz : Keeps z0 s) (by_ : Req) (tag : Tag) :
    Keeps z0 (s.cmd (execChildIllegalOp by_ tag)) := by simp +contextual (maxDischargeDepth := 99) [State.cmd, execChildIllegalOp, hz]
@[simp] theorem execChildAck_keeps {z0 s : State} (hz : Keeps z0 s) (by_ : Req) (tag : Tag) :
    Keeps z0 (s.cmd (execChildAck by_ tag)) := by simp +contextual (maxDischargeDepth := 99) [State.cmd, execChildAck, hz]
@[simp] theorem execPendSet_keeps {z0 s : State} (hz : Keeps z0 s) (by_ : Req) (val : Word) :
    Keeps z0 (s.cmd (execPendSet by_ val)) := by simp +contextual (maxDischargeDepth := 99) [State.cmd, execPendSet, hz]
@[simp] theorem execPendClr_keeps {z0 s : State} (hz : Keeps z0 s) (by_ : Req) (val : Word) :
    Keeps z0 (s.cmd (execPendClr by_ val)) := by simp +contextual (maxDischargeDepth := 99) [State.cmd, execPendClr, hz]
@[simp] theorem execRxrRdWrite_keeps {z0 s : State} (hz : Keeps z0 s) (by_ : Req) (val : Word) :
    Keeps z0 (s.cmd (execRxrRdWrite by_ val)) := by simp +contextual (maxDischargeDepth := 99) [State.cmd, execRxrRdWrite, hz]
@[simp] theorem execNewtRunWrite_keeps {z0 s : State} (hz : Keeps z0 s) (by_ : Req) (val : Word) :
    Keeps z0 (s.cmd (execNewtRunWrite by_ val)) := by simp +contextual (maxDischargeDepth := 99) [State.cmd, execNewtRunWrite, hz]

/-! Sense. -/

@[simp] theorem execSenseCtlWrite_keeps {z0 s : State} (hz : Keeps z0 s) (by_ : Req) (val : Word) :
    Keeps z0 (s.cmd (execSenseCtlWrite by_ val)) := by simp +contextual (maxDischargeDepth := 99) [State.cmd, execSenseCtlWrite, hz]
@[simp] theorem execSenseFrameEnd_keeps {z0 s : State} (hz : Keeps z0 s) (peak : Int) (bins : List Int) (pulses : List SensePulse) :
    Keeps z0 (s.cmd (execSenseFrameEnd peak bins pulses)) := by simp +contextual (maxDischargeDepth := 99) [State.cmd, execSenseFrameEnd, hz]
@[simp] theorem execSenseDwellEnd_keeps {z0 s : State} (hz : Keeps z0 s) :
    Keeps z0 (s.cmd (execSenseDwellEnd)) := by simp +contextual (maxDischargeDepth := 99) [State.cmd, execSenseDwellEnd, hz]
@[simp] theorem execSenseRetuneDone_keeps {z0 s : State} (hz : Keeps z0 s) :
    Keeps z0 (s.cmd (execSenseRetuneDone)) := by simp +contextual (maxDischargeDepth := 99) [State.cmd, execSenseRetuneDone, hz]
@[simp] theorem execSenseRptRdWrite_keeps {z0 s : State} (hz : Keeps z0 s) (by_ : Req) (val : Word) :
    Keeps z0 (s.cmd (execSenseRptRdWrite by_ val)) := by simp +contextual (maxDischargeDepth := 99) [State.cmd, execSenseRptRdWrite, hz]
@[simp] theorem execSenseRunWrite_keeps {z0 s : State} (hz : Keeps z0 s) (by_ : Req) (val : Word) :
    Keeps z0 (s.cmd (execSenseRunWrite by_ val)) := by simp +contextual (maxDischargeDepth := 99) [State.cmd, execSenseRunWrite, hz]

/-! Life. -/

@[simp] theorem execReqStateOff_keeps {z0 s : State} (hz : Keeps z0 s) (t : Fin 18) (tag : Tag) (lock : Bool) :
    Keeps z0 (s.cmd (execReqStateOff t tag lock)) := by simp +contextual (maxDischargeDepth := 99) [State.cmd, execReqStateOff, hz]
@[simp] theorem execReqStateReset_keeps {z0 s : State} (hz : Keeps z0 s) (t : Fin 18) (tag : Tag) (lock : Bool) :
    Keeps z0 (s.cmd (execReqStateReset t tag lock)) := by simp +contextual (maxDischargeDepth := 99) [State.cmd, execReqStateReset, hz]
@[simp] theorem execReqStateSelftest_keeps {z0 s : State} (hz : Keeps z0 s) (t : Fin 18) (tag : Tag) (lock : Bool) :
    Keeps z0 (s.cmd (execReqStateSelftest t tag lock)) := by simp +contextual (maxDischargeDepth := 99) [State.cmd, execReqStateSelftest, hz]
@[simp] theorem execReqStateCalibrate_keeps {z0 s : State} (hz : Keeps z0 s) (t : Fin 18) (tag : Tag) (lock : Bool) :
    Keeps z0 (s.cmd (execReqStateCalibrate t tag lock)) := by simp +contextual (maxDischargeDepth := 99) [State.cmd, execReqStateCalibrate, hz]
@[simp] theorem execReqStateReady_keeps {z0 s : State} (hz : Keeps z0 s) (t : Fin 18) (tag : Tag) (lock : Bool) :
    Keeps z0 (s.cmd (execReqStateReady t tag lock)) := by simp +contextual (maxDischargeDepth := 99) [State.cmd, execReqStateReady, hz]
@[simp] theorem execReqStateHeld_keeps {z0 s : State} (hz : Keeps z0 s) (t : Fin 18) (tag : Tag) (lock : Bool) :
    Keeps z0 (s.cmd (execReqStateHeld t tag lock)) := by simp +contextual (maxDischargeDepth := 99) [State.cmd, execReqStateHeld, hz]
@[simp] theorem execReqStateRefusedCode_keeps {z0 s : State} (hz : Keeps z0 s) (t : Fin 18) (tag : Tag) (lock : Bool) (code : BitVec 4) :
    Keeps z0 (s.cmd (execReqStateRefusedCode t tag lock code)) := by simp +contextual (maxDischargeDepth := 99) [State.cmd, execReqStateRefusedCode, hz]
@[simp] theorem execTileCtlLockTag_keeps {z0 s : State} (hz : Keeps z0 s) (t : Fin 18) (tag : Tag) (lock : Bool) :
    Keeps z0 (s.cmd (execTileCtlLockTag t tag lock)) := by simp +contextual (maxDischargeDepth := 99) [State.cmd, execTileCtlLockTag, hz]
@[simp] theorem execTileCtlAck_keeps {z0 s : State} (hz : Keeps z0 s) (t : Fin 18) (tag : Tag) :
    Keeps z0 (s.cmd (execTileCtlAck t tag)) := by simp +contextual (maxDischargeDepth := 99) [State.cmd, execTileCtlAck, hz]
@[simp] theorem execTileResetReached_keeps {z0 s : State} (hz : Keeps z0 s) (t : Fin 18) :
    Keeps z0 (s.cmd (execTileResetReached t)) := by simp +contextual (maxDischargeDepth := 99) [State.cmd, execTileResetReached, hz]
@[simp] theorem execTileOffReached_keeps {z0 s : State} (hz : Keeps z0 s) (t : Fin 18) :
    Keeps z0 (s.cmd (execTileOffReached t)) := by simp +contextual (maxDischargeDepth := 99) [State.cmd, execTileOffReached, hz]
@[simp] theorem execOffToResetDone_keeps {z0 s : State} (hz : Keeps z0 s) (t : Fin 18) :
    Keeps z0 (s.cmd (execOffToResetDone t)) := by simp +contextual (maxDischargeDepth := 99) [State.cmd, execOffToResetDone, hz]
@[simp] theorem execSelftestDone_keeps {z0 s : State} (hz : Keeps z0 s) (t : Fin 18) (found : TestOutcome) :
    Keeps z0 (s.cmd (execSelftestDone t found)) := by
  simp only [State.cmd, execSelftestDone]
  (repeat' split) <;> simp +contextual (maxDischargeDepth := 99) [hz]
@[simp] theorem execCalibrateDone_keeps {z0 s : State} (hz : Keeps z0 s) (t : Fin 18) (failed : Option (BitVec 8)) :
    Keeps z0 (s.cmd (execCalibrateDone t failed)) := by
  simp only [State.cmd, execCalibrateDone]
  (repeat' split) <;> simp +contextual (maxDischargeDepth := 99) [hz]
@[simp] theorem execResumeReadyDone_keeps {z0 s : State} (hz : Keeps z0 s) (t : Fin 18) :
    Keeps z0 (s.cmd (execResumeReadyDone t)) := by simp +contextual (maxDischargeDepth := 99) [State.cmd, execResumeReadyDone, hz]
@[simp] theorem execDrainComplete_keeps {z0 s : State} (hz : Keeps z0 s) (t : Fin 18) :
    Keeps z0 (s.cmd (execDrainComplete t)) := by simp +contextual (maxDischargeDepth := 99) [State.cmd, execDrainComplete, hz]
@[simp] theorem execDrainTimeout_keeps {z0 s : State} (hz : Keeps z0 s) (t : Fin 18) :
    Keeps z0 (s.cmd (execDrainTimeout t)) := by simp +contextual (maxDischargeDepth := 99) [State.cmd, execDrainTimeout, hz]
@[simp] theorem execTileErrWrite_keeps {z0 s : State} (hz : Keeps z0 s) (t : Fin 18) (firstValid multi early reqDrop : Bool) :
    Keeps z0 (s.cmd (execTileErrWrite t firstValid multi early reqDrop)) := by simp +contextual (maxDischargeDepth := 99) [State.cmd, execTileErrWrite, hz]
@[simp] theorem execCntClr_keeps {z0 s : State} (hz : Keeps z0 s) (t : Fin 18) :
    Keeps z0 (s.cmd (execCntClr t)) := by simp +contextual (maxDischargeDepth := 99) [State.cmd, execCntClr, hz]
@[simp] theorem execEvtPendClear_keeps {z0 s : State} (hz : Keeps z0 s) (t : Fin 18) (bits : Word) :
    Keeps z0 (s.cmd (execEvtPendClear t bits)) := by simp +contextual (maxDischargeDepth := 99) [State.cmd, execEvtPendClear, hz]
@[simp] theorem execEvtMaskWrite_keeps {z0 s : State} (hz : Keeps z0 s) (t : Fin 18) (mask : Word) :
    Keeps z0 (s.cmd (execEvtMaskWrite t mask)) := by simp +contextual (maxDischargeDepth := 99) [State.cmd, execEvtMaskWrite, hz]
@[simp] theorem execEventMessageArrive_keeps {z0 s : State} (hz : Keeps z0 s) (n : Nat) :
    Keeps z0 (s.cmd (execEventMessageArrive n)) := by
  simp only [State.cmd, execEventMessageArrive]
  (repeat' split) <;> simp +contextual (maxDischargeDepth := 99) [hz]
@[simp] theorem execFlitReceive_keeps {z0 s : State} (hz : Keeps z0 s) (t : Fin 18) (link : Fin 4) (data : BitVec 256) (check : Byte) :
    Keeps z0 (s.cmd (execFlitReceive t link data check)) := by
  simp only [State.cmd, execFlitReceive]
  (repeat' split) <;> simp +contextual (maxDischargeDepth := 99) [hz]
@[simp] theorem execIslandLockLoss_keeps {z0 s : State} (hz : Keeps z0 s) (t : Fin 18) (island : Fin 5) :
    Keeps z0 (s.cmd (execIslandLockLoss t island)) := by simp +contextual (maxDischargeDepth := 99) [State.cmd, execIslandLockLoss, hz]
@[simp] theorem execIslandRelock_keeps {z0 s : State} (hz : Keeps z0 s) (t : Fin 18) (island : Fin 5) :
    Keeps z0 (s.cmd (execIslandRelock t island)) := by simp +contextual (maxDischargeDepth := 99) [State.cmd, execIslandRelock, hz]
@[simp] theorem execSramUncorrectable_keeps {z0 s : State} (hz : Keeps z0 s) (t : Fin 18) (unit : BitVec 8) (addr : BitVec 40) :
    Keeps z0 (s.cmd (execSramUncorrectable t unit addr)) := by simp +contextual (maxDischargeDepth := 99) [State.cmd, execSramUncorrectable, hz]
@[simp] theorem execWdtExpire_keeps {z0 s : State} (hz : Keeps z0 s) (k : Fin 7) :
    Keeps z0 (s.cmd (execWdtExpire k)) := by simp +contextual (maxDischargeDepth := 99) [State.cmd, execWdtExpire, hz]
@[simp] theorem execTuneLockTimeout_keeps {z0 s : State} (hz : Keeps z0 s) (r : Fin 3) :
    Keeps z0 (s.cmd (execTuneLockTimeout r)) := by simp +contextual (maxDischargeDepth := 99) [State.cmd, execTuneLockTimeout, hz]
@[simp] theorem execNewtRetuneDone_keeps {z0 s : State} (hz : Keeps z0 s) (locked : Bool) :
    Keeps z0 (s.cmd (execNewtRetuneDone locked)) := by simp +contextual (maxDischargeDepth := 99) [State.cmd, execNewtRetuneDone, hz]
@[simp] theorem execRetrainPauseEnd_keeps {z0 s : State} (hz : Keeps z0 s) (ch : Fin 8) (converged : Bool) :
    Keeps z0 (s.cmd (execRetrainPauseEnd ch converged)) := by simp +contextual (maxDischargeDepth := 99) [State.cmd, execRetrainPauseEnd, hz]
@[simp] theorem execPerstNAssert_keeps {z0 s : State} (hz : Keeps z0 s) :
    Keeps z0 (s.cmd (execPerstNAssert)) := by simp +contextual (maxDischargeDepth := 99) [State.cmd, execPerstNAssert, hz]
@[simp] theorem execPerstNRelease_keeps {z0 s : State} (hz : Keeps z0 s) :
    Keeps z0 (s.cmd (execPerstNRelease)) := by simp +contextual (maxDischargeDepth := 99) [State.cmd, execPerstNRelease, hz]

end Sys2Proof.Machine
end

