-- ==== Sys2Proof/Laws/KeepsBus.lean ====
section
/-! SUPPORT. `Keeps` for bus writes, the instructions of Uzoath, the boot ROM, and the meanings that use them. -/

namespace Sys2Proof.Machine

open Reg

/-! BusWrite. -/

@[simp] theorem State.regStore_keeps {z0 s : State} (hz : Keeps z0 s) (a : RegId) (val : Word) :
    Keeps z0 (State.regStore s a val) := by unfold State.regStore; split <;> simp +contextual (maxDischargeDepth := 99) [hz]
@[simp] theorem State.plainWrite_keeps {z0 s : State} (hz : Keeps z0 s) (by_ : Req) (a : RegId) (val : Word) :
    Keeps z0 (State.plainWrite s by_ a val) := by simp +contextual (maxDischargeDepth := 99) [State.plainWrite, hz]
@[simp] theorem State.rfCmdWrite_keeps {z0 s : State} (hz : Keeps z0 s) (by_ : Req) (r : Fin 3) (v : Word) :
    Keeps z0 (State.rfCmdWrite s by_ r v) := by unfold State.rfCmdWrite; split <;> simp +contextual (maxDischargeDepth := 99) [hz]
@[simp] theorem State.rffeCmdWrite_keeps {z0 s : State} (hz : Keeps z0 s) (by_ : Req) (r : Fin 3) (v : Word) :
    Keeps z0 (State.rffeCmdWrite s by_ r v) := by unfold State.rffeCmdWrite; split <;> simp +contextual (maxDischargeDepth := 99) [hz]
@[simp] theorem State.bssWrite_keeps {z0 s : State} (hz : Keeps z0 s) (r n : Nat) (hi : Bool) (v : Word) :
    Keeps z0 (State.bssWrite s r n hi v) := by simp +contextual (maxDischargeDepth := 99) [State.bssWrite, hz]
@[simp] theorem State.radioWrite_keeps {z0 s : State} (hz : Keeps z0 s) (by_ : Req) (r : Fin 3) (b i : Nat) (a : RegId) (v : Word) :
    Keeps z0 (State.radioWrite s by_ r b i a v) := by
  simp only [State.radioWrite]
  repeat' with_reducible apply Keeps.ite_of
  all_goals first | simp +contextual (maxDischargeDepth := 99) [*]; done | (split <;> simp +contextual (maxDischargeDepth := 99) [*]; done) | ((repeat' split) <;> simp +contextual (maxDischargeDepth := 99) [*])
@[simp] theorem State.mlinkWrite_keeps {z0 s : State} (hz : Keeps z0 s) (by_ : Req) (b i : Nat) (a : RegId) (v : Word) :
    Keeps z0 (State.mlinkWrite s by_ b i a v) := by
  simp only [State.mlinkWrite]
  repeat' with_reducible apply Keeps.ite_of
  all_goals first | simp +contextual (maxDischargeDepth := 99) [*]; done | (split <;> simp +contextual (maxDischargeDepth := 99) [*]; done) | ((repeat' split) <;> simp +contextual (maxDischargeDepth := 99) [*])
@[simp] theorem State.senseWrite_keeps {z0 s : State} (hz : Keeps z0 s) (by_ : Req) (b : Nat) (a : RegId) (v : Word) :
    Keeps z0 (State.senseWrite s by_ b a v) := by
  simp only [State.senseWrite]
  repeat' with_reducible apply Keeps.ite_of
  all_goals first | simp +contextual (maxDischargeDepth := 99) [*]; done | (split <;> simp +contextual (maxDischargeDepth := 99) [*]; done) | ((repeat' split) <;> simp +contextual (maxDischargeDepth := 99) [*])
@[simp] theorem State.newtWrite_keeps {z0 s : State} (hz : Keeps z0 s) (by_ : Req) (b : Nat) (a : RegId) (v : Word) :
    Keeps z0 (State.newtWrite s by_ b a v) := by
  simp only [State.newtWrite]
  repeat' with_reducible apply Keeps.ite_of
  all_goals first | simp +contextual (maxDischargeDepth := 99) [*]; done | (split <;> simp +contextual (maxDischargeDepth := 99) [*]; done) | ((repeat' split) <;> simp +contextual (maxDischargeDepth := 99) [*])
@[simp] theorem State.storeTileWrite_keeps {z0 s : State} (hz : Keeps z0 s) (by_ : Req) (b i : Nat) (a : RegId) (v : Word) :
    Keeps z0 (State.storeTileWrite s by_ b i a v) := by
  simp only [State.storeTileWrite]
  repeat' with_reducible apply Keeps.ite_of
  all_goals first | simp +contextual (maxDischargeDepth := 99) [*]; done | (split <;> simp +contextual (maxDischargeDepth := 99) [*]; done) | ((repeat' split) <;> simp +contextual (maxDischargeDepth := 99) [*])
@[simp] theorem State.tcmdWrite_keeps {z0 s : State} (hz : Keeps z0 s) (by_ : Req) (k : Fin 16) (v : Word) :
    Keeps z0 (State.tcmdWrite s by_ k v) := by
  simp only [State.tcmdWrite]
  repeat' with_reducible apply Keeps.ite_of
  all_goals first | simp +contextual (maxDischargeDepth := 99) [*]; done | (split <;> simp +contextual (maxDischargeDepth := 99) [*]; done) | ((repeat' split) <;> simp +contextual (maxDischargeDepth := 99) [*])
@[simp] theorem State.classWrite_keeps {z0 s : State} (hz : Keeps z0 s) (by_ : Req) (b i : Nat) (a : RegId) (v : Word) :
    Keeps z0 (State.classWrite s by_ b i a v) := by
  simp only [State.classWrite]
  repeat' with_reducible apply Keeps.ite_of
  all_goals first | simp +contextual (maxDischargeDepth := 99) [*]; done | (split <;> simp +contextual (maxDischargeDepth := 99) [*]; done) | ((repeat' split) <;> simp +contextual (maxDischargeDepth := 99) [*])
@[simp] theorem State.schedWrite_keeps {z0 s : State} (hz : Keeps z0 s) (by_ : Req) (b : Nat) (a : RegId) (v : Word) :
    Keeps z0 (State.schedWrite s by_ b a v) := by
  simp only [State.schedWrite]
  repeat' with_reducible apply Keeps.ite_of
  all_goals first | simp +contextual (maxDischargeDepth := 99) [*]; done | (split <;> simp +contextual (maxDischargeDepth := 99) [*]; done) | ((repeat' split) <;> simp +contextual (maxDischargeDepth := 99) [*])
@[simp] theorem State.engWrite_keeps {z0 s : State} (hz : Keeps z0 s) (by_ : Req) (c : Fin 4) (b : Nat) (a : RegId) (v : Word) :
    Keeps z0 (State.engWrite s by_ c b a v) := by
  simp only [State.engWrite]
  repeat' with_reducible apply Keeps.ite_of
  all_goals first | simp +contextual (maxDischargeDepth := 99) [*]; done | (split <;> simp +contextual (maxDischargeDepth := 99) [*]; done) | ((repeat' split) <;> simp +contextual (maxDischargeDepth := 99) [*])
@[simp] theorem State.cipherWrite_keeps {z0 s : State} (hz : Keeps z0 s) (by_ : Req) (b : Nat) (a : RegId) (v : Word) :
    Keeps z0 (State.cipherWrite s by_ b a v) := by
  simp only [State.cipherWrite]
  repeat' with_reducible apply Keeps.ite_of
  all_goals first | simp +contextual (maxDischargeDepth := 99) [*]; done | (split <;> simp +contextual (maxDischargeDepth := 99) [*]; done) | ((repeat' split) <;> simp +contextual (maxDischargeDepth := 99) [*])
@[simp] theorem State.timeWrite_keeps {z0 s : State} (hz : Keeps z0 s) (by_ : Req) (b i : Nat) (a : RegId) (v : Word) :
    Keeps z0 (State.timeWrite s by_ b i a v) := by
  simp only [State.timeWrite]
  repeat' with_reducible apply Keeps.ite_of
  all_goals first | simp +contextual (maxDischargeDepth := 99) [*]; done | (split <;> simp +contextual (maxDischargeDepth := 99) [*]; done) | ((repeat' split) <;> simp +contextual (maxDischargeDepth := 99) [*])
@[simp] theorem State.hostTileWrite_keeps {z0 s : State} (hz : Keeps z0 s) (by_ : Req) (b i : Nat) (a : RegId) (v : Word) :
    Keeps z0 (State.hostTileWrite s by_ b i a v) := by
  simp only [State.hostTileWrite]
  repeat' with_reducible apply Keeps.ite_of
  all_goals first | simp +contextual (maxDischargeDepth := 99) [*]; done | (split <;> simp +contextual (maxDischargeDepth := 99) [*]; done) | ((repeat' split) <;> simp +contextual (maxDischargeDepth := 99) [*])
@[simp] theorem State.wireWrite_keeps {z0 s : State} (hz : Keeps z0 s) (by_ : Req) (b i : Nat) (a : RegId) (v : Word) :
    Keeps z0 (State.wireWrite s by_ b i a v) := by
  simp only [State.wireWrite]
  repeat' with_reducible apply Keeps.ite_of
  all_goals first | simp +contextual (maxDischargeDepth := 99) [*]; done | (split <;> simp +contextual (maxDischargeDepth := 99) [*]; done) | ((repeat' split) <;> simp +contextual (maxDischargeDepth := 99) [*])
@[simp] theorem State.mgmtWrite_keeps {z0 s : State} (hz : Keeps z0 s) (by_ : Req) (b i : Nat) (a : RegId) (v : Word) :
    Keeps z0 (State.mgmtWrite s by_ b i a v) := by
  simp only [State.mgmtWrite]
  repeat' with_reducible apply Keeps.ite_of
  all_goals first | simp +contextual (maxDischargeDepth := 99) [*]; done | (split <;> simp +contextual (maxDischargeDepth := 99) [*]; done) | ((repeat' split) <;> simp +contextual (maxDischargeDepth := 99) [*])
@[simp] theorem State.privWrite_keeps {z0 s : State} (hz : Keeps z0 s) (by_ : Req) (off : Nat) (v : Word) :
    Keeps z0 (State.privWrite s by_ off v) := by
  simp only [State.privWrite]
  repeat' with_reducible apply Keeps.ite_of
  all_goals first | simp +contextual (maxDischargeDepth := 99) [*]; done | (split <;> simp +contextual (maxDischargeDepth := 99) [*]; done) | ((repeat' split) <;> simp +contextual (maxDischargeDepth := 99) [*])
@[simp] theorem State.headerWrite_keeps {z0 s : State} (hz : Keeps z0 s) (t off : Nat) (v : Word) :
    Keeps z0 (State.headerWrite s t off v) := by
  simp only [State.headerWrite]
  repeat' with_reducible apply Keeps.ite_of
  all_goals first | simp +contextual (maxDischargeDepth := 99) [*]; done | (split <;> simp +contextual (maxDischargeDepth := 99) [*]; done) | ((repeat' split) <;> simp +contextual (maxDischargeDepth := 99) [*])
@[simp] theorem State.unitWrite_keeps {z0 s : State} (hz : Keeps z0 s) (by_ : Req) (t kind b i : Nat) (a : RegId) (v : Word) :
    Keeps z0 (State.unitWrite s by_ t kind b i a v) := by
  simp only [State.unitWrite]
  repeat' with_reducible apply Keeps.ite_of
  all_goals first | simp +contextual (maxDischargeDepth := 99) [*]; done | (split <;> simp +contextual (maxDischargeDepth := 99) [*]; done) | ((repeat' split) <;> simp +contextual (maxDischargeDepth := 99) [*])
@[simp] theorem State.regWrite_keeps {z0 s : State} (hz : Keeps z0 s) (by_ : Req) (t : Nat) (a : RegId) (v : Word) :
    Keeps z0 (State.regWrite s by_ t a v) := by
  unfold State.regWrite
  split
  · exact State.onWrite_keeps hz _ _ _ fun _ _ h => h
  · exact State.unitWrite_keeps hz ..
@[simp] theorem State.controlWrite_keeps {z0 s : State} (hz : Keeps z0 s) (by_ : Req) (t off : Nat) (v : Word) :
    Keeps z0 (State.controlWrite s by_ t off v) := by
  unfold State.controlWrite
  apply Keeps.ite_of
  · exact State.headerWrite_keeps hz ..
  · exact State.regWrite_keeps hz ..
@[simp] theorem State.ctxWrite_keeps {z0 s : State} (hz : Keeps z0 s) (o : Nat) (v : Byte) :
    Keeps z0 (State.ctxWrite s o v) := by
  simp only [State.ctxWrite]
  repeat' with_reducible apply Keeps.ite_of
  all_goals first | simp +contextual (maxDischargeDepth := 99) [*]; done | (split <;> simp +contextual (maxDischargeDepth := 99) [*]; done) | ((repeat' split) <;> simp +contextual (maxDischargeDepth := 99) [*])
@[simp] theorem State.localWrite_keeps {z0 s : State} (hz : Keeps z0 s) (t off : Nat) (bs : List Byte) :
    Keeps z0 (State.localWrite s t off bs) := by
  simp only [State.localWrite]
  repeat' with_reducible apply Keeps.ite_of
  · simp +contextual (maxDischargeDepth := 99) [*]
  · assumption
  · exact Keeps.foldl hz (fun s q hz => State.ctxWrite_keeps hz ..)
  · simp +contextual (maxDischargeDepth := 99) [*]
@[simp] theorem State.noWrite_keeps {z0 s : State} (hz : Keeps z0 s) (by_ : Req) (a : Nat) :
    Keeps z0 ((State.noWrite s by_ a).1) := by
  simp only [State.noWrite]
  repeat' with_reducible apply Keeps.ite_of
  all_goals first | simp +contextual (maxDischargeDepth := 99) [*]; done | (split <;> simp +contextual (maxDischargeDepth := 99) [*]; done) | ((repeat' split) <;> simp +contextual (maxDischargeDepth := 99) [*])
@[simp] theorem State.wordWrite_keeps {z0 s : State} (hz : Keeps z0 s) (by_ : Req) (a : Nat) (v : Word) :
    Keeps z0 ((s.wordWrite by_ a v)) := by unfold State.wordWrite; exact State.controlWrite_keeps hz ..
theorem State.controlWrites_keeps0 {z0 : State} (by_ : Req) : ∀ (l : List Byte) {s : State} (_ : Keeps z0 s) (a : Nat),
    Keeps z0 (s.controlWrites by_ a l)
  | [], _, hz, _ => hz
  | [_], _, hz, _ => hz
  | [_, _], _, hz, _ => hz
  | [_, _, _], _, hz, _ => hz
  | _ :: _ :: _ :: _ :: l, _, hz, _ => State.controlWrites_keeps0 by_ l (State.wordWrite_keeps hz ..) _
@[simp] theorem State.controlWrites_keeps {z0 s : State} (hz : Keeps z0 s) (by_ : Req) (a : Nat) (l : List Byte) :
    Keeps z0 (s.controlWrites by_ a l) := State.controlWrites_keeps0 by_ l hz a
theorem State.privWrites_keeps0 {z0 : State} (by_ : Req) : ∀ (l : List Byte) {s : State} (_ : Keeps z0 s) (a : Nat),
    Keeps z0 (s.privWrites by_ a l)
  | [], _, hz, _ => hz
  | [_], _, hz, _ => hz
  | [_, _], _, hz, _ => hz
  | [_, _, _], _, hz, _ => hz
  | _ :: _ :: _ :: _ :: l, _, hz, _ => State.privWrites_keeps0 by_ l (State.privWrite_keeps hz ..) _
@[simp] theorem State.privWrites_keeps {z0 s : State} (hz : Keeps z0 s) (by_ : Req) (a : Nat) (l : List Byte) :
    Keeps z0 (s.privWrites by_ a l) := State.privWrites_keeps0 by_ l hz a
@[simp] theorem State.busWrite_keeps {z0 s : State} (hz : Keeps z0 s) (by_ : Req) (a : Nat) (l : List Byte) :
    Keeps z0 ((s.busWrite by_ a l).1) := by
  unfold State.busWrite
  split <;> (repeat' split) <;> simp +contextual (maxDischargeDepth := 99) [*]
@[simp] theorem State.msixWrite_keeps {z0 s : State} (hz : Keeps z0 s) (off : Nat) (v : Word) :
    Keeps z0 (s.msixWrite off v) := by
  unfold State.msixWrite
  exact State.msixFlush_keeps (Keeps.mk_ hz ..)
@[simp] theorem State.bar0Read_keeps {z0 s : State} (hz : Keeps z0 s) (off : Nat) :
    Keeps z0 ((State.bar0Read s off).1) := by
  unfold State.bar0Read
  (repeat' split) <;> simp +contextual (maxDischargeDepth := 99) [*]
@[simp] theorem State.bar0Write_keeps {z0 s : State} (hz : Keeps z0 s) (off : Nat) (v : Word) :
    Keeps z0 (State.bar0Write s off v) := by
  unfold State.bar0Write
  (repeat' split) <;> simp +contextual (maxDischargeDepth := 99) [*]
@[simp] theorem State.bar0Reads_keeps {z0 s : State} (hz : Keeps z0 s) (a n : Nat) :
    Keeps z0 ((s.bar0Reads a n).1) := by
  induction n generalizing s a with
  | zero => assumption
  | succ n ih => simp +contextual (maxDischargeDepth := 99) [*, State.bar0Reads, ih]
@[simp] theorem State.bar0Writes_keeps {z0 s : State} (hz : Keeps z0 s) (a : Nat) (be : Nat → Bool) (l : List Byte) (n : Nat) :
    Keeps z0 (s.bar0Writes a be l n) := by
  induction n generalizing s a be l with
  | zero => assumption
  | succ n ih =>
    simp only [State.bar0Writes]
    apply ih
    (repeat' split) <;> simp +contextual (maxDischargeDepth := 99) [*]
@[simp] theorem State.hostReply_keeps {z0 s : State} (hz : Keeps z0 s) (a : Nat) (res : BusRes) (data : List Byte) :
    Keeps z0 ((State.hostReply s a res data)) := by simp +contextual (maxDischargeDepth := 99) [*, State.hostReply]

/-! UzBase. -/

@[simp] theorem State.modUz_keeps {z0 s : State} (hz : Keeps z0 s) (c : Uz) (f : Thread → Thread) :
    Keeps z0 (State.modUz s c f) := by simp +contextual (maxDischargeDepth := 99) [State.modUz, hz]
@[simp] theorem State.uzDone_keeps {z0 s : State} (hz : Keeps z0 s) (c : Uz) :
    Keeps z0 (State.uzDone s c) := by simp +contextual (maxDischargeDepth := 99) [State.uzDone, hz]
/-- What an instruction's body gives keeps what `Keeps` says of `z`, whether it completes or traps. -/
def KeepsBody {α : Type} (g : α → State) (z : State) : Except Stop α → Prop
  | .ok a => Keeps z (g a)
  | .error (.trap t _ _) => Keeps z t
  | .error .park => True
  | .error .hold => True
  | .error .full => True
theorem KeepsBody_bind {α β : Type} {g : α → State} {h : β → State} {z : State} {x : Except Stop α}
    {f : α → Except Stop β} (hx : KeepsBody g z x) (hf : ∀ a, Keeps z (g a) → KeepsBody h z (f a)) :
    KeepsBody h z (x >>= f) := by
  cases x with
  | ok a => exact hf a hx
  | error e => cases e <;> exact hx
theorem KeepsBody_unit {β : Type} {h : β → State} {z : State} {s : State} {x : Except Stop Unit}
    {f : Unit → Except Stop β} (_hs : Keeps z s) (hx : KeepsBody (fun _ => s) z x) (hf : KeepsBody h z (f ())) :
    KeepsBody h z (x >>= f) := KeepsBody_bind hx fun _ _ => hf
theorem KeepsBody_from {α : Type} {g : α → State} {z s : State} (h : Keeps z s) {x : Except Stop α} (hx : KeepsBody g s x) :
    KeepsBody g z x := by
  match x, hx with
  | .ok _, hx => exact h.trans hx
  | .error (.trap _ _ _), hx => exact h.trans hx
  | .error .park, _ => trivial
  | .error .hold, _ => trivial
  | .error .full, _ => trivial
theorem Uz.answer_keeps (c : Uz) (r : State × BusRes × List Byte) (ea dev : Nat) {z : State} (h : Keeps z r.1) :
    KeepsBody (·.1) z (c.answer r ea dev) := by
  unfold Uz.answer
  split
  · exact h
  · exact h
  · split
    · exact State.eccFail_keeps h ..
    · exact h
theorem Uz.place_keeps (c : Uz) (s : State) (ea size : Nat) (write : Bool) {z : State} (h : Keeps z s) :
    KeepsBody (fun _ => s) z (c.place s ea size write) := by
  unfold Uz.place
  split
  · exact h
  · exact h
theorem Uz.ready_keeps (c : Uz) (s : State) (dev : Nat) (ord isLoad : Bool) {z : State} (h : Keeps z s) :
    KeepsBody (fun _ => s) z (c.ready s dev ord isLoad) := by
  unfold Uz.ready
  split
  · trivial
  · split
    · trivial
    · exact h
theorem Uz.load_keeps (c : Uz) (s : State) (ea size : Nat) {z : State} (h : Keeps z s) :
    KeepsBody (·.1) z (c.load s ea size) := by
  unfold Uz.load
  refine KeepsBody_bind (Uz.place_keeps c s ea size false h) fun p _ => ?_
  cases p with
  | here a => exact h
  | dev d ord =>
    refine KeepsBody_bind (Uz.ready_keeps c s d ord true h) fun _ _ => ?_
    exact Uz.answer_keeps _ _ _ _ (State.busRead_keeps h ..)
theorem Uz.store_keeps (c : Uz) (s : State) (ea size v : Nat) {z : State} (h : Keeps z s) :
    KeepsBody id z (c.store s ea size v) := by
  unfold Uz.store
  refine KeepsBody_bind (Uz.place_keeps c s ea size true h) fun p _ => ?_
  cases p with
  | here a => exact State.wm_keeps h ..
  | dev d ord =>
    dsimp only
    split
    · refine KeepsBody_bind (Uz.ready_keeps c s d ord false h) fun _ _ => ?_
      split <;> exact State.busWrite_keeps h ..
    · split
      · trivial
      · exact State.modUz_keeps h ..
@[simp] theorem State.busAtomic_keeps {z0 s : State} (hz : Keeps z0 s) (by_ : Req) (a size : Nat) (f : Nat → Option Nat) :
    Keeps z0 (State.busAtomic s by_ a size f).1 := by simp only [State.busAtomic]; (repeat' split) <;> simp +contextual (maxDischargeDepth := 99) [hz]
theorem Uz.atomic_keeps (c : Uz) (s : State) (ea size : Nat) (f : Nat → Option Nat) {z : State} (h : Keeps z s) :
    KeepsBody (·.1) z (c.atomic s ea size f) := by
  unfold Uz.atomic
  refine KeepsBody_bind (Uz.place_keeps c s ea size true h) fun p _ => ?_
  cases p with
  | here a =>
    dsimp only
    split
    · exact State.wm_keeps h ..
    · exact h
  | dev d ord =>
    refine KeepsBody_bind (Uz.ready_keeps c s d ord true h) fun _ _ => ?_
    split
    · exact Uz.answer_keeps _ _ _ _ (State.busRead_keeps h ..)
    · exact Uz.answer_keeps _ _ _ _ (State.busAtomic_keeps h ..)
theorem Uz.value_keeps (c : Uz) (s : State) (w : Nat) (a : Opnd) {z : State} (h : Keeps z s) :
    KeepsBody (·.1) z (c.value s w a) := by
  cases a with
  | imm v => exact h
  | reg n => exact h
  | ea a => exact Uz.load_keeps c s a _ h
@[simp] theorem State.doubleTrap_keeps {z0 s : State} (hz : Keeps z0 s) (th : ThreadRef) (cause : Nat) :
    Keeps z0 (State.doubleTrap s th cause) := by simp +contextual (maxDischargeDepth := 99) [State.doubleTrap, hz]
@[simp] theorem State.frameStore_keeps {z0 s : State} (hz : Keeps z0 s) (th : ThreadRef) (ea v : Nat) :
    Keeps z0 (State.frameStore s th ea v).1 := by unfold State.frameStore; split <;> simp +contextual (maxDischargeDepth := 99) [hz]
@[simp] theorem State.frameStores_keeps {z0 s : State} (hz : Keeps z0 s) (th : ThreadRef) (ea : Nat) (l : List Nat) :
    Keeps z0 (s.frameStores th ea l).1 := by
  induction l generalizing s ea with
  | nil => exact hz
  | cons v l ih =>
    unfold State.frameStores
    dsimp only
    split
    · exact ih (State.frameStore_keeps hz ..) _
    · exact State.frameStore_keeps hz ..
@[simp] theorem State.trapEnter_keeps {z0 s : State} (hz : Keeps z0 s) (th : ThreadRef) (cause addr saved info : Nat) :
    Keeps z0 (s.trapEnter th cause addr saved info) := by
  unfold State.trapEnter
  dsimp only
  split
  · simp +contextual (maxDischargeDepth := 99) [*]
  · split <;> simp +contextual (maxDischargeDepth := 99) [*]
@[simp] theorem State.trapBefore_keeps {z0 s : State} (hz : Keeps z0 s) (th : ThreadRef) (cause addr : Nat) (imprecise : Bool) :
    Keeps z0 (s.trapBefore th cause addr imprecise) := by
  simp only [State.trapBefore]
  cases (s.thread th.key).rep <;> simp +contextual (maxDischargeDepth := 99) [*]
@[simp] theorem State.trapAfter_keeps {z0 s : State} (hz : Keeps z0 s) (th : ThreadRef) (cause addr : Nat) :
    Keeps z0 (s.trapAfter th cause addr) := by
  simp only [State.trapAfter]
  cases (s.thread th.key).rep <;> simp +contextual (maxDischargeDepth := 99) [*]
theorem State.conclude_keeps {z0 s : State} (hz : Keeps z0 s) (c : Uz) (r : Except Stop (State × Nat)) (h : KeepsBody (·.1) z0 r) :
    Keeps z0 (s.conclude c r) := by
  unfold State.conclude
  split
  · exact h
  · exact State.trapAfter_keeps h ..
  · exact State.trapBefore_keeps h ..
  · assumption
  · assumption
  · exact State.modUz_keeps hz ..

/-! Uzoath. -/

theorem KeepsBody_ok {β : Type} {z t : State} {n : β} (h : Keeps z t) : KeepsBody (fun x : State × β => x.1) z (.ok (t, n)) := h
theorem Uz.data__keeps (c : Uz) (s : State) : KeepsBody (·.1) s (c.data_ s) := by
  unfold Uz.data_
  refine KeepsBody_bind (Uz.value_keeps c s _ _ (Keeps.refl s)) fun a h => ?_
  exact KeepsBody_ok (State.modUz_keeps h ..)
theorem Uz.compare_keeps (c : Uz) (s : State) : KeepsBody (·.1) s (c.compare s) := by
  unfold Uz.compare
  refine KeepsBody_bind (Uz.value_keeps c s _ _ (Keeps.refl s)) fun a h => ?_
  exact KeepsBody_ok (State.modUz_keeps h ..)
theorem Uz.store__keeps (c : Uz) (s : State) : KeepsBody (·.1) s (c.store_ s) := by
  unfold Uz.store_
  dsimp only
  cases (c.opnd s).1 with
  | imm v => exact Keeps.refl s
  | reg n =>
    dsimp only
    by_cases hp : (s.uz c).privileged n (((if c.i.op = 2 then (s.uz c).a else if c.i.op = 4 then (s.uz c).x else (s.uz c).y)).toNat % 2 ^ c.i.width) = true
    · rw [if_pos hp]; exact Keeps.refl s
    · rw [if_neg hp]; exact KeepsBody_ok (State.modUz_keeps (Keeps.refl s) ..)
  | ea a =>
    refine KeepsBody_bind (Uz.store_keeps c s _ _ _ (Keeps.refl s)) fun a h => ?_
    exact KeepsBody_ok (State.modUz_keeps h ..)
theorem Uz.lea_keeps (c : Uz) (s : State) : KeepsBody (·.1) s (c.lea s) := by
  unfold Uz.lea
  dsimp only
  cases (c.opnd s).1 with
  | ea a => exact KeepsBody_ok (State.modUz_keeps (Keeps.refl s) ..)
  | imm v => exact Keeps.refl s
  | reg n => exact Keeps.refl s
theorem Uz.xch_keeps (c : Uz) (s : State) : KeepsBody (·.1) s (c.xch s) := by
  unfold Uz.xch
  dsimp only
  cases (c.opnd s).1 with
  | imm v => exact Keeps.refl s
  | reg n =>
    dsimp only
    by_cases hp : (s.uz c).privileged n ((s.uz c).a.toNat % 2 ^ c.i.width) = true
    · rw [if_pos hp]; exact Keeps.refl s
    · rw [if_neg hp]; exact KeepsBody_ok (State.modUz_keeps (Keeps.refl s) ..)
  | ea a =>
    refine KeepsBody_bind (Uz.atomic_keeps c s _ _ _ (Keeps.refl s)) fun a h => ?_
    exact KeepsBody_ok (State.modUz_keeps h ..)
theorem Uz.predOp_keeps (c : Uz) (s : State) : KeepsBody (·.1) s (c.predOp s) := by
  unfold Uz.predOp
  exact KeepsBody_ok (State.modUz_keeps (Keeps.refl s) ..)
theorem Uz.br_keeps (c : Uz) (s : State) : KeepsBody (·.1) s (c.br s) := by
  unfold Uz.br
  dsimp only
  split
  · exact Keeps.refl s
  · exact KeepsBody_ok (State.modUz_keeps (Keeps.refl s) ..)
theorem Uz.call_keeps (c : Uz) (s : State) : KeepsBody (·.1) s (c.call s) := by
  unfold Uz.call
  dsimp only
  split
  · exact Keeps.refl s
  · refine KeepsBody_bind (Uz.store_keeps c s _ _ _ (Keeps.refl s)) fun a h => ?_
    exact KeepsBody_ok (State.modUz_keeps h ..)
theorem Uz.ret_keeps (c : Uz) (s : State) : KeepsBody (·.1) s (c.ret s) := by
  unfold Uz.ret
  refine KeepsBody_bind (Uz.load_keeps c s _ _ (Keeps.refl s)) fun a h => ?_
  dsimp only
  split
  · exact h
  · exact KeepsBody_ok (State.modUz_keeps h ..)
theorem Uz.retTrap_keeps (c : Uz) (s : State) : KeepsBody (·.1) s (c.retTrap s) := by
  unfold Uz.retTrap
  split
  · exact Keeps.refl s
  · refine KeepsBody_bind (Uz.load_keeps c s _ _ (Keeps.refl s)) fun a h => ?_
    refine KeepsBody_bind (Uz.load_keeps c _ _ _ h) fun a h => ?_
    refine KeepsBody_bind (Uz.load_keeps c _ _ _ h) fun a h => ?_
    refine KeepsBody_bind (Uz.load_keeps c _ _ _ h) fun a h => ?_
    dsimp only
    split
    · exact h
    · exact KeepsBody_ok (State.modUz_keeps h ..)
theorem Uz.retOp_keeps (c : Uz) (s : State) : KeepsBody (·.1) s (c.retOp s) := by
  unfold Uz.retOp
  split
  · exact Uz.retTrap_keeps ..
  · exact Uz.ret_keeps ..
theorem Uz.trap_keeps (c : Uz) (s : State) : KeepsBody (·.1) s (c.trap s) := by
  unfold Uz.trap
  exact KeepsBody_ok (State.uzDone_keeps (Keeps.refl s) ..)
theorem Uz.repOp_keeps (c : Uz) (s : State) : KeepsBody (·.1) s (c.repOp s) := by
  unfold Uz.repOp
  dsimp only
  split <;> exact KeepsBody_ok (State.modUz_keeps (Keeps.refl s) ..)
theorem Uz.fetch_keeps (c : Uz) (s : State) : KeepsBody (·.1) s (c.fetch s) := by
  unfold Uz.fetch
  dsimp only
  split
  · split
    · exact Keeps.refl s
    · split
      · exact KeepsBody_ok (State.modUz_keeps (State.wm_keeps (Keeps.refl s) ..) ..)
      · split
        · trivial
        · exact KeepsBody_ok (State.modUz_keeps (Keeps.refl s) ..)
  · exact Keeps.refl s
theorem Uz.atomicOp_keeps (c : Uz) (s : State) : KeepsBody (·.1) s (c.atomicOp s) := by
  unfold Uz.atomicOp
  dsimp only
  split
  · refine KeepsBody_bind (Uz.atomic_keeps c s _ _ _ (Keeps.refl s)) fun a h => ?_
    exact KeepsBody_ok (State.modUz_keeps h ..)
  · exact Keeps.refl s
theorem Uz.fence_keeps (c : Uz) (s : State) : KeepsBody (·.1) s (c.fence s) := by
  unfold Uz.fence
  dsimp only
  split
  · exact KeepsBody_ok (State.uzDone_keeps (Keeps.refl s) ..)
  · exact KeepsBody_ok (State.modUz_keeps (Keeps.refl s) ..)
theorem Uz.getw_keeps (c : Uz) (s : State) : KeepsBody (·.1) s (c.getw s) := by
  unfold Uz.getw
  dsimp only
  split
  · split
    · exact Keeps.refl s
    · split
      · exact Keeps.refl s
      · simp +contextual (maxDischargeDepth := 99) [*, KeepsBody]
  · exact Keeps.refl s
theorem Uz.done_keeps (c : Uz) (s : State) : KeepsBody (·.1) s (c.done s) := by
  unfold Uz.done
  refine KeepsBody_bind (Uz.value_keeps c s _ _ (Keeps.refl s)) fun a h => ?_
  simp +contextual (maxDischargeDepth := 99) [*, KeepsBody, h]
theorem Uz.loads_keeps (c : Uz) (n : Nat) (ea : Nat) (s : State) {z : State} (h : Keeps z s) :
    KeepsBody (·.1) z (c.loads ea n s) := by
  induction n generalizing ea s with
  | zero => exact h
  | succ n ih =>
    unfold Uz.loads
    refine KeepsBody_bind (Uz.load_keeps c s _ _ h) fun a h => ?_
    refine KeepsBody_bind (ih _ _ h) fun a h => ?_
    exact h
theorem Uz.enq_keeps (c : Uz) (s : State) : KeepsBody (·.1) s (c.enq s) := by
  unfold Uz.enq
  dsimp only
  split
  · refine KeepsBody_bind (Uz.loads_keeps c _ _ _ (Keeps.refl s)) fun a h => ?_
    simp +contextual (maxDischargeDepth := 99) [*, KeepsBody, h]
  · exact Keeps.refl s
theorem Uz.cancel_keeps (c : Uz) (s : State) : KeepsBody (·.1) s (c.cancel s) := by
  unfold Uz.cancel
  refine KeepsBody_bind (Uz.value_keeps c s _ _ (Keeps.refl s)) fun a h => ?_
  simp +contextual (maxDischargeDepth := 99) [*, KeepsBody, h]
theorem Uz.waitev_keeps (c : Uz) (s : State) : KeepsBody (·.1) s (c.waitev s) := by
  unfold Uz.waitev
  refine KeepsBody_bind (Uz.value_keeps c s _ _ (Keeps.refl s)) fun a h => ?_
  dsimp only
  split
  · simp +contextual (maxDischargeDepth := 99) [*, KeepsBody, h]
  · simp +contextual (maxDischargeDepth := 99) [*, KeepsBody, h]
theorem Uz.seqw_keeps (c : Uz) (s : State) : KeepsBody (·.1) s (c.seqw s) := by
  unfold Uz.seqw
  dsimp only
  split
  · refine KeepsBody_bind (Uz.loads_keeps c _ _ _ (Keeps.refl s)) fun a h => ?_
    simp +contextual (maxDischargeDepth := 99) [*, KeepsBody, h]
  · exact Keeps.refl s
theorem Uz.body_keeps (c : Uz) (s : State) : KeepsBody (·.1) s (c.body s) := by
  unfold Uz.body
  split
  all_goals first
    | with_reducible exact Uz.store__keeps .. | with_reducible exact Uz.lea_keeps .. | with_reducible exact Uz.xch_keeps .. | with_reducible exact Uz.predOp_keeps ..
    | with_reducible exact Uz.br_keeps .. | with_reducible exact Uz.call_keeps .. | with_reducible exact Uz.retOp_keeps .. | with_reducible exact Uz.trap_keeps ..
    | with_reducible exact Uz.repOp_keeps .. | with_reducible exact Uz.fetch_keeps .. | with_reducible exact Uz.atomicOp_keeps .. | with_reducible exact Uz.fence_keeps ..
    | with_reducible exact Uz.getw_keeps .. | with_reducible exact Uz.done_keeps .. | with_reducible exact Uz.enq_keeps .. | with_reducible exact Uz.cancel_keeps ..
    | with_reducible exact Uz.waitev_keeps .. | with_reducible exact Uz.seqw_keeps ..
    | (split
       · exact Uz.compare_keeps ..
       · exact Uz.data__keeps ..)
@[simp] theorem Uz.run_keeps {z0 s : State} (hz : Keeps z0 s) (c : Uz) :
    Keeps z0 (c.run s) := by
  unfold Uz.run
  split
  · simp +contextual (maxDischargeDepth := 99) [*]
  · dsimp only
    split
    · simp +contextual (maxDischargeDepth := 99) [*]
    · exact State.conclude_keeps hz _ _ (KeepsBody_from hz (Uz.body_keeps c s))
@[simp] theorem State.issue_keeps {z0 s : State} (hz : Keeps z0 s) (th : ThreadRef) (want : Insn → Bool) :
    Keeps z0 (s.issue th want) := by
  unfold State.issue
  split
  · split <;> simp +contextual (maxDischargeDepth := 99) [*]
  · assumption
@[simp] theorem State.fenceCheck_keeps {z0 s : State} (hz : Keeps z0 s) (th : ThreadRef) :
    Keeps z0 (State.fenceCheck s th) := by simp +contextual (maxDischargeDepth := 99) [State.fenceCheck, hz]

/-! Boot. -/

@[simp] theorem State.readLines_keeps {z0 s : State} (hz : Keeps z0 s) (by_ : Req) (a n : Nat) :
    Keeps z0 (State.readLines s by_ a n).1 := by simp +contextual (maxDischargeDepth := 99) [State.readLines, hz]
@[simp] theorem State.putDigest_keeps {z0 s : State} (hz : Keeps z0 s) (d : List Nat) :
    Keeps z0 (State.putDigest s d) := by simp +contextual (maxDischargeDepth := 99) [State.putDigest, hz]
@[simp] theorem State.bootStatus_keeps {z0 s : State} (hz : Keeps z0 s) (source resA resB svn : Nat) :
    Keeps z0 (State.bootStatus s source resA resB svn) := by simp +contextual (maxDischargeDepth := 99) [State.bootStatus, hz]
@[simp] theorem State.bootRecord_keeps {z0 s : State} (hz : Keeps z0 s) :
    Keeps z0 (State.bootRecord s) := by simp +contextual (maxDischargeDepth := 99) [State.bootRecord, hz]
@[simp] theorem State.romOwn_keeps {z0 s : State} (hz : Keeps z0 s) :
    Keeps z0 (State.romOwn s) := by simp +contextual (maxDischargeDepth := 99) [State.romOwn, hz]
@[simp] theorem State.startImage_keeps {z0 s : State} (hz : Keeps z0 s) (l : List Byte) (source resA resB : Nat) :
    Keeps z0 (State.startImage s l source resA resB) := by simp +contextual (maxDischargeDepth := 99) [State.startImage, hz]
@[simp] theorem State.hostBoot_keeps {z0 s : State} (hz : Keeps z0 s) (resA resB : Nat) :
    Keeps z0 (State.hostBoot s resA resB) := by simp +contextual (maxDischargeDepth := 99) [State.hostBoot, hz]
@[simp] theorem State.uartBoot_keeps {z0 s : State} (hz : Keeps z0 s) (resA resB : Nat) :
    Keeps z0 (State.uartBoot s resA resB) := by simp +contextual (maxDischargeDepth := 99) [State.uartBoot, hz]
@[simp] theorem State.bootFallback_keeps {z0 s : State} (hz : Keeps z0 s) (resA resB : Nat) :
    Keeps z0 (State.bootFallback s resA resB) := by simp +contextual (maxDischargeDepth := 99) [State.bootFallback, hz]
@[simp] theorem State.flashBoot_keeps {z0 s : State} (hz : Keeps z0 s) :
    Keeps z0 (State.flashBoot s) := by simp only [State.flashBoot]; (repeat' split) <;> simp +contextual (maxDischargeDepth := 99) [hz]

/-! BusWrite. -/

@[simp] theorem execRegisterWrite_keeps {z0 s : State} (hz : Keeps z0 s) (by_ : Req) (addr : BitVec 40) (size : Nat) (val : Word) :
    Keeps z0 (s.cmd (execRegisterWrite by_ addr size val)) := by simp +contextual (maxDischargeDepth := 99) [State.cmd, execRegisterWrite, hz]
@[simp] theorem execDeviceAccessResponse_keeps {z0 s : State} (hz : Keeps z0 s) (issuer : Fin 18) (acc : Access) :
    Keeps z0 (s.cmd (execDeviceAccessResponse issuer acc)) := by
  simp only [State.cmd, execDeviceAccessResponse]
  (repeat' split) <;> simp +contextual (maxDischargeDepth := 99) [hz]
@[simp] theorem execHostBarRequest_keeps {z0 s : State} (hz : Keeps z0 s) (bar2 : Bool) (off : BitVec 34) (be : List Bool) (wdata : Option (List Byte)) :
    Keeps z0 (s.cmd (execHostBarRequest bar2 off be wdata)) := by
  simp only [State.cmd, execHostBarRequest]
  (repeat' split) <;> simp +contextual (maxDischargeDepth := 99) [hz]

/-! Uzoath. -/

@[simp] theorem execIllegalInstruction_keeps {z0 s : State} (hz : Keeps z0 s) (th : ThreadRef) :
    Keeps z0 (s.cmd (execIllegalInstruction th)) := by
  simp only [State.cmd, execIllegalInstruction]
  split
  · assumption
  · split
    · simp +contextual (maxDischargeDepth := 99) [*]
    · assumption
@[simp] theorem execLd_keeps {z0 s : State} (hz : Keeps z0 s) (th : ThreadRef) :
    Keeps z0 (s.cmd (execLd th)) := by simp +contextual (maxDischargeDepth := 99) [State.cmd, execLd, hz]
@[simp] theorem execSt_keeps {z0 s : State} (hz : Keeps z0 s) (th : ThreadRef) :
    Keeps z0 (s.cmd (execSt th)) := by simp +contextual (maxDischargeDepth := 99) [State.cmd, execSt, hz]
@[simp] theorem execLdx_keeps {z0 s : State} (hz : Keeps z0 s) (th : ThreadRef) :
    Keeps z0 (s.cmd (execLdx th)) := by simp +contextual (maxDischargeDepth := 99) [State.cmd, execLdx, hz]
@[simp] theorem execStx_keeps {z0 s : State} (hz : Keeps z0 s) (th : ThreadRef) :
    Keeps z0 (s.cmd (execStx th)) := by simp +contextual (maxDischargeDepth := 99) [State.cmd, execStx, hz]
@[simp] theorem execLdy_keeps {z0 s : State} (hz : Keeps z0 s) (th : ThreadRef) :
    Keeps z0 (s.cmd (execLdy th)) := by simp +contextual (maxDischargeDepth := 99) [State.cmd, execLdy, hz]
@[simp] theorem execSty_keeps {z0 s : State} (hz : Keeps z0 s) (th : ThreadRef) :
    Keeps z0 (s.cmd (execSty th)) := by simp +contextual (maxDischargeDepth := 99) [State.cmd, execSty, hz]
@[simp] theorem execLea_keeps {z0 s : State} (hz : Keeps z0 s) (th : ThreadRef) :
    Keeps z0 (s.cmd (execLea th)) := by simp +contextual (maxDischargeDepth := 99) [State.cmd, execLea, hz]
@[simp] theorem execXch_keeps {z0 s : State} (hz : Keeps z0 s) (th : ThreadRef) :
    Keeps z0 (s.cmd (execXch th)) := by simp +contextual (maxDischargeDepth := 99) [State.cmd, execXch, hz]
@[simp] theorem execAdd_keeps {z0 s : State} (hz : Keeps z0 s) (th : ThreadRef) :
    Keeps z0 (s.cmd (execAdd th)) := by simp +contextual (maxDischargeDepth := 99) [State.cmd, execAdd, hz]
@[simp] theorem execAdc_keeps {z0 s : State} (hz : Keeps z0 s) (th : ThreadRef) :
    Keeps z0 (s.cmd (execAdc th)) := by simp +contextual (maxDischargeDepth := 99) [State.cmd, execAdc, hz]
@[simp] theorem execSub_keeps {z0 s : State} (hz : Keeps z0 s) (th : ThreadRef) :
    Keeps z0 (s.cmd (execSub th)) := by simp +contextual (maxDischargeDepth := 99) [State.cmd, execSub, hz]
@[simp] theorem execSbc_keeps {z0 s : State} (hz : Keeps z0 s) (th : ThreadRef) :
    Keeps z0 (s.cmd (execSbc th)) := by simp +contextual (maxDischargeDepth := 99) [State.cmd, execSbc, hz]
@[simp] theorem execNeg_keeps {z0 s : State} (hz : Keeps z0 s) (th : ThreadRef) :
    Keeps z0 (s.cmd (execNeg th)) := by simp +contextual (maxDischargeDepth := 99) [State.cmd, execNeg, hz]
@[simp] theorem execAbs_keeps {z0 s : State} (hz : Keeps z0 s) (th : ThreadRef) :
    Keeps z0 (s.cmd (execAbs th)) := by simp +contextual (maxDischargeDepth := 99) [State.cmd, execAbs, hz]
@[simp] theorem execMul_keeps {z0 s : State} (hz : Keeps z0 s) (th : ThreadRef) :
    Keeps z0 (s.cmd (execMul th)) := by simp +contextual (maxDischargeDepth := 99) [State.cmd, execMul, hz]
@[simp] theorem execMulu_keeps {z0 s : State} (hz : Keeps z0 s) (th : ThreadRef) :
    Keeps z0 (s.cmd (execMulu th)) := by simp +contextual (maxDischargeDepth := 99) [State.cmd, execMulu, hz]
@[simp] theorem execDiv_keeps {z0 s : State} (hz : Keeps z0 s) (th : ThreadRef) :
    Keeps z0 (s.cmd (execDiv th)) := by simp +contextual (maxDischargeDepth := 99) [State.cmd, execDiv, hz]
@[simp] theorem execDivu_keeps {z0 s : State} (hz : Keeps z0 s) (th : ThreadRef) :
    Keeps z0 (s.cmd (execDivu th)) := by simp +contextual (maxDischargeDepth := 99) [State.cmd, execDivu, hz]
@[simp] theorem execAnd_keeps {z0 s : State} (hz : Keeps z0 s) (th : ThreadRef) :
    Keeps z0 (s.cmd (execAnd th)) := by simp +contextual (maxDischargeDepth := 99) [State.cmd, execAnd, hz]
@[simp] theorem execOr_keeps {z0 s : State} (hz : Keeps z0 s) (th : ThreadRef) :
    Keeps z0 (s.cmd (execOr th)) := by simp +contextual (maxDischargeDepth := 99) [State.cmd, execOr, hz]
@[simp] theorem execXor_keeps {z0 s : State} (hz : Keeps z0 s) (th : ThreadRef) :
    Keeps z0 (s.cmd (execXor th)) := by simp +contextual (maxDischargeDepth := 99) [State.cmd, execXor, hz]
@[simp] theorem execShl_keeps {z0 s : State} (hz : Keeps z0 s) (th : ThreadRef) :
    Keeps z0 (s.cmd (execShl th)) := by simp +contextual (maxDischargeDepth := 99) [State.cmd, execShl, hz]
@[simp] theorem execShr_keeps {z0 s : State} (hz : Keeps z0 s) (th : ThreadRef) :
    Keeps z0 (s.cmd (execShr th)) := by simp +contextual (maxDischargeDepth := 99) [State.cmd, execShr, hz]
@[simp] theorem execSar_keeps {z0 s : State} (hz : Keeps z0 s) (th : ThreadRef) :
    Keeps z0 (s.cmd (execSar th)) := by simp +contextual (maxDischargeDepth := 99) [State.cmd, execSar, hz]
@[simp] theorem execRol_keeps {z0 s : State} (hz : Keeps z0 s) (th : ThreadRef) :
    Keeps z0 (s.cmd (execRol th)) := by simp +contextual (maxDischargeDepth := 99) [State.cmd, execRol, hz]
@[simp] theorem execRor_keeps {z0 s : State} (hz : Keeps z0 s) (th : ThreadRef) :
    Keeps z0 (s.cmd (execRor th)) := by simp +contextual (maxDischargeDepth := 99) [State.cmd, execRor, hz]
@[simp] theorem execBfx_keeps {z0 s : State} (hz : Keeps z0 s) (th : ThreadRef) :
    Keeps z0 (s.cmd (execBfx th)) := by simp +contextual (maxDischargeDepth := 99) [State.cmd, execBfx, hz]
@[simp] theorem execBfi_keeps {z0 s : State} (hz : Keeps z0 s) (th : ThreadRef) :
    Keeps z0 (s.cmd (execBfi th)) := by simp +contextual (maxDischargeDepth := 99) [State.cmd, execBfi, hz]
@[simp] theorem execBswap_keeps {z0 s : State} (hz : Keeps z0 s) (th : ThreadRef) :
    Keeps z0 (s.cmd (execBswap th)) := by simp +contextual (maxDischargeDepth := 99) [State.cmd, execBswap, hz]
@[simp] theorem execPand_keeps {z0 s : State} (hz : Keeps z0 s) (th : ThreadRef) :
    Keeps z0 (s.cmd (execPand th)) := by simp +contextual (maxDischargeDepth := 99) [State.cmd, execPand, hz]
@[simp] theorem execPior_keeps {z0 s : State} (hz : Keeps z0 s) (th : ThreadRef) :
    Keeps z0 (s.cmd (execPior th)) := by simp +contextual (maxDischargeDepth := 99) [State.cmd, execPior, hz]
@[simp] theorem execPxor_keeps {z0 s : State} (hz : Keeps z0 s) (th : ThreadRef) :
    Keeps z0 (s.cmd (execPxor th)) := by simp +contextual (maxDischargeDepth := 99) [State.cmd, execPxor, hz]
@[simp] theorem execCmpEq_keeps {z0 s : State} (hz : Keeps z0 s) (th : ThreadRef) :
    Keeps z0 (s.cmd (execCmpEq th)) := by simp +contextual (maxDischargeDepth := 99) [State.cmd, execCmpEq, hz]
@[simp] theorem execCmpNe_keeps {z0 s : State} (hz : Keeps z0 s) (th : ThreadRef) :
    Keeps z0 (s.cmd (execCmpNe th)) := by simp +contextual (maxDischargeDepth := 99) [State.cmd, execCmpNe, hz]
@[simp] theorem execCmpLt_keeps {z0 s : State} (hz : Keeps z0 s) (th : ThreadRef) :
    Keeps z0 (s.cmd (execCmpLt th)) := by simp +contextual (maxDischargeDepth := 99) [State.cmd, execCmpLt, hz]
@[simp] theorem execCmpGe_keeps {z0 s : State} (hz : Keeps z0 s) (th : ThreadRef) :
    Keeps z0 (s.cmd (execCmpGe th)) := by simp +contextual (maxDischargeDepth := 99) [State.cmd, execCmpGe, hz]
@[simp] theorem execCmpLe_keeps {z0 s : State} (hz : Keeps z0 s) (th : ThreadRef) :
    Keeps z0 (s.cmd (execCmpLe th)) := by simp +contextual (maxDischargeDepth := 99) [State.cmd, execCmpLe, hz]
@[simp] theorem execCmpGt_keeps {z0 s : State} (hz : Keeps z0 s) (th : ThreadRef) :
    Keeps z0 (s.cmd (execCmpGt th)) := by simp +contextual (maxDischargeDepth := 99) [State.cmd, execCmpGt, hz]
@[simp] theorem execCmpLo_keeps {z0 s : State} (hz : Keeps z0 s) (th : ThreadRef) :
    Keeps z0 (s.cmd (execCmpLo th)) := by simp +contextual (maxDischargeDepth := 99) [State.cmd, execCmpLo, hz]
@[simp] theorem execCmpHs_keeps {z0 s : State} (hz : Keeps z0 s) (th : ThreadRef) :
    Keeps z0 (s.cmd (execCmpHs th)) := by simp +contextual (maxDischargeDepth := 99) [State.cmd, execCmpHs, hz]
@[simp] theorem execCmpLs_keeps {z0 s : State} (hz : Keeps z0 s) (th : ThreadRef) :
    Keeps z0 (s.cmd (execCmpLs th)) := by simp +contextual (maxDischargeDepth := 99) [State.cmd, execCmpLs, hz]
@[simp] theorem execCmpHi_keeps {z0 s : State} (hz : Keeps z0 s) (th : ThreadRef) :
    Keeps z0 (s.cmd (execCmpHi th)) := by simp +contextual (maxDischargeDepth := 99) [State.cmd, execCmpHi, hz]
@[simp] theorem execCmpVa_keeps {z0 s : State} (hz : Keeps z0 s) (th : ThreadRef) :
    Keeps z0 (s.cmd (execCmpVa th)) := by simp +contextual (maxDischargeDepth := 99) [State.cmd, execCmpVa, hz]
@[simp] theorem execCmpVs_keeps {z0 s : State} (hz : Keeps z0 s) (th : ThreadRef) :
    Keeps z0 (s.cmd (execCmpVs th)) := by simp +contextual (maxDischargeDepth := 99) [State.cmd, execCmpVs, hz]
@[simp] theorem execTst_keeps {z0 s : State} (hz : Keeps z0 s) (th : ThreadRef) :
    Keeps z0 (s.cmd (execTst th)) := by simp +contextual (maxDischargeDepth := 99) [State.cmd, execTst, hz]
@[simp] theorem execBr_keeps {z0 s : State} (hz : Keeps z0 s) (th : ThreadRef) :
    Keeps z0 (s.cmd (execBr th)) := by simp +contextual (maxDischargeDepth := 99) [State.cmd, execBr, hz]
@[simp] theorem execCall_keeps {z0 s : State} (hz : Keeps z0 s) (th : ThreadRef) :
    Keeps z0 (s.cmd (execCall th)) := by simp +contextual (maxDischargeDepth := 99) [State.cmd, execCall, hz]
@[simp] theorem execRet_keeps {z0 s : State} (hz : Keeps z0 s) (th : ThreadRef) :
    Keeps z0 (s.cmd (execRet th)) := by simp +contextual (maxDischargeDepth := 99) [State.cmd, execRet, hz]
@[simp] theorem execRetTrap_keeps {z0 s : State} (hz : Keeps z0 s) (th : ThreadRef) :
    Keeps z0 (s.cmd (execRetTrap th)) := by simp +contextual (maxDischargeDepth := 99) [State.cmd, execRetTrap, hz]
@[simp] theorem execTrap_keeps {z0 s : State} (hz : Keeps z0 s) (th : ThreadRef) :
    Keeps z0 (s.cmd (execTrap th)) := by simp +contextual (maxDischargeDepth := 99) [State.cmd, execTrap, hz]
@[simp] theorem execRep_keeps {z0 s : State} (hz : Keeps z0 s) (th : ThreadRef) :
    Keeps z0 (s.cmd (execRep th)) := by simp +contextual (maxDischargeDepth := 99) [State.cmd, execRep, hz]
@[simp] theorem execCrc_keeps {z0 s : State} (hz : Keeps z0 s) (th : ThreadRef) :
    Keeps z0 (s.cmd (execCrc th)) := by simp +contextual (maxDischargeDepth := 99) [State.cmd, execCrc, hz]
@[simp] theorem execHash_keeps {z0 s : State} (hz : Keeps z0 s) (th : ThreadRef) :
    Keeps z0 (s.cmd (execHash th)) := by simp +contextual (maxDischargeDepth := 99) [State.cmd, execHash, hz]
@[simp] theorem execFetch_keeps {z0 s : State} (hz : Keeps z0 s) (th : ThreadRef) :
    Keeps z0 (s.cmd (execFetch th)) := by simp +contextual (maxDischargeDepth := 99) [State.cmd, execFetch, hz]
@[simp] theorem execFadd_keeps {z0 s : State} (hz : Keeps z0 s) (th : ThreadRef) :
    Keeps z0 (s.cmd (execFadd th)) := by simp +contextual (maxDischargeDepth := 99) [State.cmd, execFadd, hz]
@[simp] theorem execCas_keeps {z0 s : State} (hz : Keeps z0 s) (th : ThreadRef) :
    Keeps z0 (s.cmd (execCas th)) := by simp +contextual (maxDischargeDepth := 99) [State.cmd, execCas, hz]
@[simp] theorem execFence_keeps {z0 s : State} (hz : Keeps z0 s) (th : ThreadRef) :
    Keeps z0 (s.cmd (execFence th)) := by simp +contextual (maxDischargeDepth := 99) [State.cmd, execFence, hz]
@[simp] theorem execGetw_keeps {z0 s : State} (hz : Keeps z0 s) (th : ThreadRef) :
    Keeps z0 (s.cmd (execGetw th)) := by simp +contextual (maxDischargeDepth := 99) [State.cmd, execGetw, hz]
@[simp] theorem execDone_keeps {z0 s : State} (hz : Keeps z0 s) (th : ThreadRef) :
    Keeps z0 (s.cmd (execDone th)) := by simp +contextual (maxDischargeDepth := 99) [State.cmd, execDone, hz]
@[simp] theorem execEnq_keeps {z0 s : State} (hz : Keeps z0 s) (th : ThreadRef) :
    Keeps z0 (s.cmd (execEnq th)) := by simp +contextual (maxDischargeDepth := 99) [State.cmd, execEnq, hz]
@[simp] theorem execCancel_keeps {z0 s : State} (hz : Keeps z0 s) (th : ThreadRef) :
    Keeps z0 (s.cmd (execCancel th)) := by simp +contextual (maxDischargeDepth := 99) [State.cmd, execCancel, hz]
@[simp] theorem execWaitev_keeps {z0 s : State} (hz : Keeps z0 s) (th : ThreadRef) :
    Keeps z0 (s.cmd (execWaitev th)) := by simp +contextual (maxDischargeDepth := 99) [State.cmd, execWaitev, hz]
@[simp] theorem execSeqw_keeps {z0 s : State} (hz : Keeps z0 s) (th : ThreadRef) :
    Keeps z0 (s.cmd (execSeqw th)) := by simp +contextual (maxDischargeDepth := 99) [State.cmd, execSeqw, hz]
@[simp] theorem execThreadResponseArrive_keeps {z0 s : State} (hz : Keeps z0 s) (th : ThreadRef) (dataErr : Bool) :
    Keeps z0 (s.cmd (execThreadResponseArrive th dataErr)) := by
  simp only [State.cmd, execThreadResponseArrive]
  split
  · rename_i word ext _
    generalize hs : s.setThread th.key _ = s1
    have h1 : Keeps z0 s1 := by rw [← hs]; exact State.setThread_keeps hz ..
    generalize hc : ({ th := th, i := Insn.ofWord word, ext := ext, pc := (s.thread th.key).pc, arrived := true, dataErr := dataErr } : Uz) = c
    have hb := Uz.body_keeps c s1
    split
    · assumption
    · assumption
    · exact State.conclude_keeps h1 _ _ (KeepsBody_from h1 hb)
  · have h1 := State.setThread_keeps hz th.key { s.thread th.key with run := .running }
    exact Keeps.ite_of hz (State.trapEnter_keeps h1 ..)
  · exact hz
@[simp] theorem execPostedStoreComplete_keeps {z0 s : State} (hz : Keeps z0 s) (th : ThreadRef) (n : Fin 8) :
    Keeps z0 (s.cmd (execPostedStoreComplete th n)) := by
  simp only [State.cmd, execPostedStoreComplete]
  (repeat' split) <;> simp +contextual (maxDischargeDepth := 99) [hz]
@[simp] theorem execFetchCopyComplete_keeps {z0 s : State} (hz : Keeps z0 s) (th : ThreadRef) (n : Fin 4) (dataErr : Bool) :
    Keeps z0 (s.cmd (execFetchCopyComplete th n dataErr)) := by
  simp only [State.cmd, execFetchCopyComplete]
  (repeat' split) <;> simp +contextual (maxDischargeDepth := 99) [hz]
@[simp] theorem execImpreciseTrap_keeps {z0 s : State} (hz : Keeps z0 s) (th : ThreadRef) :
    Keeps z0 (s.cmd (execImpreciseTrap th)) := by
  simp only [State.cmd, execImpreciseTrap]
  split
  · assumption
  · split
    · assumption
    · simp +contextual (maxDischargeDepth := 99) [*]
@[simp] theorem execWaitevTimeout_keeps {z0 s : State} (hz : Keeps z0 s) (th : ThreadRef) :
    Keeps z0 (s.cmd (execWaitevTimeout th)) := by
  simp only [State.cmd, execWaitevTimeout]
  (repeat' split) <;> simp +contextual (maxDischargeDepth := 99) [hz]

/-! Boot. -/

@[simp] theorem execCrDone_keeps {z0 s : State} (hz : Keeps z0 s) :
    Keeps z0 (s.cmd (execCrDone)) := by
  simp only [State.cmd, execCrDone]
  (repeat' split) <;> simp +contextual (maxDischargeDepth := 99) [hz]
@[simp] theorem execRomBoot_keeps {z0 s : State} (hz : Keeps z0 s) :
    Keeps z0 (s.cmd (execRomBoot)) := by simp +contextual (maxDischargeDepth := 99) [State.cmd, execRomBoot, hz]
@[simp] theorem execHostBootImage_keeps {z0 s : State} (hz : Keeps z0 s) :
    Keeps z0 (s.cmd (execHostBootImage)) := by
  simp only [State.cmd, execHostBootImage]
  (repeat' split) <;> simp +contextual (maxDischargeDepth := 99) [hz]
@[simp] theorem execUartBootImage_keeps {z0 s : State} (hz : Keeps z0 s) (image : List Byte) :
    Keeps z0 (s.cmd (execUartBootImage image)) := by
  simp only [State.cmd, execUartBootImage]
  (repeat' split) <;> simp +contextual (maxDischargeDepth := 99) [hz]

end Sys2Proof.Machine
end

