-- ==== Sys2Proof/Laws/State.lean ====
section
/-! SUPPORT. What each primitive update of the state does to each of its fields, true by definition; and reads of a register, a byte, a
tile, a thread or a radio after them. -/

namespace Sys2Proof.Machine

variable (s : State)

/-! `State.wr` changes `regs` only. -/

@[simp] theorem State.wr_clock (a : RegId) (v : Word) : (s.wr a v).clock = s.clock := rfl
@[simp] theorem State.wr_freeTick (a : RegId) (v : Word) : (s.wr a v).freeTick = s.freeTick := rfl
@[simp] theorem State.wr_regs (a : RegId) (v : Word) : (s.wr a v).regs = tput regReset s.regs a v := rfl
@[simp] theorem State.wr_mem (a : RegId) (v : Word) : (s.wr a v).mem = s.mem := rfl
@[simp] theorem State.wr_tiles (a : RegId) (v : Word) : (s.wr a v).tiles = s.tiles := rfl
@[simp] theorem State.wr_msgs (a : RegId) (v : Word) : (s.wr a v).msgs = s.msgs := rfl
@[simp] theorem State.wr_threads (a : RegId) (v : Word) : (s.wr a v).threads = s.threads := rfl
@[simp] theorem State.wr_evtIn (a : RegId) (v : Word) : (s.wr a v).evtIn = s.evtIn := rfl
@[simp] theorem State.wr_order (a : RegId) (v : Word) : (s.wr a v).order = s.order := rfl
@[simp] theorem State.wr_tokens (a : RegId) (v : Word) : (s.wr a v).tokens = s.tokens := rfl
@[simp] theorem State.wr_tokenReqs (a : RegId) (v : Word) : (s.wr a v).tokenReqs = s.tokenReqs := rfl
@[simp] theorem State.wr_ms (a : RegId) (v : Word) : (s.wr a v).ms = s.ms := rfl
@[simp] theorem State.wr_logUnpers (a : RegId) (v : Word) : (s.wr a v).logUnpers = s.logUnpers := rfl
@[simp] theorem State.wr_porClock (a : RegId) (v : Word) : (s.wr a v).porClock = s.porClock := rfl
@[simp] theorem State.wr_msix (a : RegId) (v : Word) : (s.wr a v).msix = s.msix := rfl
@[simp] theorem State.wr_msixFuncMask (a : RegId) (v : Word) : (s.wr a v).msixFuncMask = s.msixFuncMask := rfl
@[simp] theorem State.wr_msixPend (a : RegId) (v : Word) : (s.wr a v).msixPend = s.msixPend := rfl
@[simp] theorem State.wr_msixSent (a : RegId) (v : Word) : (s.wr a v).msixSent = s.msixSent := rfl
@[simp] theorem State.wr_sense (a : RegId) (v : Word) : (s.wr a v).sense = s.sense := rfl
@[simp] theorem State.wr_radios (a : RegId) (v : Word) : (s.wr a v).radios = s.radios := rfl
@[simp] theorem State.wr_store (a : RegId) (v : Word) : (s.wr a v).store = s.store := rfl
@[simp] theorem State.wr_mlink (a : RegId) (v : Word) : (s.wr a v).mlink = s.mlink := rfl
@[simp] theorem State.wr_fabric (a : RegId) (v : Word) : (s.wr a v).fabric = s.fabric := rfl
@[simp] theorem State.wr_time (a : RegId) (v : Word) : (s.wr a v).time = s.time := rfl
@[simp] theorem State.wr_clsIn (a : RegId) (v : Word) : (s.wr a v).clsIn = s.clsIn := rfl
@[simp] theorem State.wr_wireIn (a : RegId) (v : Word) : (s.wr a v).wireIn = s.wireIn := rfl
@[simp] theorem State.wr_newt (a : RegId) (v : Word) : (s.wr a v).newt = s.newt := rfl
@[simp] theorem State.wr_cls (a : RegId) (v : Word) : (s.wr a v).cls = s.cls := rfl
@[simp] theorem State.wr_sched (a : RegId) (v : Word) : (s.wr a v).sched = s.sched := rfl
@[simp] theorem State.wr_subst (a : RegId) (v : Word) : (s.wr a v).subst = s.subst := rfl
@[simp] theorem State.wr_cipher (a : RegId) (v : Word) : (s.wr a v).cipher = s.cipher := rfl
@[simp] theorem State.wr_hostIn (a : RegId) (v : Word) : (s.wr a v).hostIn = s.hostIn := rfl
@[simp] theorem State.wr_wire (a : RegId) (v : Word) : (s.wr a v).wire = s.wire := rfl
@[simp] theorem State.wr_hostU (a : RegId) (v : Word) : (s.wr a v).hostU = s.hostU := rfl
@[simp] theorem State.wr_mgmt (a : RegId) (v : Word) : (s.wr a v).mgmt = s.mgmt := rfl
@[simp] theorem State.wr_pending (a : RegId) (v : Word) : (s.wr a v).pending = s.pending := rfl

/-! `State.wb` changes `mem` only. -/

@[simp] theorem State.wb_clock (a : Nat) (v : Byte) : (s.wb a v).clock = s.clock := rfl
@[simp] theorem State.wb_freeTick (a : Nat) (v : Byte) : (s.wb a v).freeTick = s.freeTick := rfl
@[simp] theorem State.wb_regs (a : Nat) (v : Byte) : (s.wb a v).regs = s.regs := rfl
@[simp] theorem State.wb_mem (a : Nat) (v : Byte) : (s.wb a v).mem = tput memDefault s.mem a v := rfl
@[simp] theorem State.wb_tiles (a : Nat) (v : Byte) : (s.wb a v).tiles = s.tiles := rfl
@[simp] theorem State.wb_msgs (a : Nat) (v : Byte) : (s.wb a v).msgs = s.msgs := rfl
@[simp] theorem State.wb_threads (a : Nat) (v : Byte) : (s.wb a v).threads = s.threads := rfl
@[simp] theorem State.wb_evtIn (a : Nat) (v : Byte) : (s.wb a v).evtIn = s.evtIn := rfl
@[simp] theorem State.wb_order (a : Nat) (v : Byte) : (s.wb a v).order = s.order := rfl
@[simp] theorem State.wb_tokens (a : Nat) (v : Byte) : (s.wb a v).tokens = s.tokens := rfl
@[simp] theorem State.wb_tokenReqs (a : Nat) (v : Byte) : (s.wb a v).tokenReqs = s.tokenReqs := rfl
@[simp] theorem State.wb_ms (a : Nat) (v : Byte) : (s.wb a v).ms = s.ms := rfl
@[simp] theorem State.wb_logUnpers (a : Nat) (v : Byte) : (s.wb a v).logUnpers = s.logUnpers := rfl
@[simp] theorem State.wb_porClock (a : Nat) (v : Byte) : (s.wb a v).porClock = s.porClock := rfl
@[simp] theorem State.wb_msix (a : Nat) (v : Byte) : (s.wb a v).msix = s.msix := rfl
@[simp] theorem State.wb_msixFuncMask (a : Nat) (v : Byte) : (s.wb a v).msixFuncMask = s.msixFuncMask := rfl
@[simp] theorem State.wb_msixPend (a : Nat) (v : Byte) : (s.wb a v).msixPend = s.msixPend := rfl
@[simp] theorem State.wb_msixSent (a : Nat) (v : Byte) : (s.wb a v).msixSent = s.msixSent := rfl
@[simp] theorem State.wb_sense (a : Nat) (v : Byte) : (s.wb a v).sense = s.sense := rfl
@[simp] theorem State.wb_radios (a : Nat) (v : Byte) : (s.wb a v).radios = s.radios := rfl
@[simp] theorem State.wb_store (a : Nat) (v : Byte) : (s.wb a v).store = s.store := rfl
@[simp] theorem State.wb_mlink (a : Nat) (v : Byte) : (s.wb a v).mlink = s.mlink := rfl
@[simp] theorem State.wb_fabric (a : Nat) (v : Byte) : (s.wb a v).fabric = s.fabric := rfl
@[simp] theorem State.wb_time (a : Nat) (v : Byte) : (s.wb a v).time = s.time := rfl
@[simp] theorem State.wb_clsIn (a : Nat) (v : Byte) : (s.wb a v).clsIn = s.clsIn := rfl
@[simp] theorem State.wb_wireIn (a : Nat) (v : Byte) : (s.wb a v).wireIn = s.wireIn := rfl
@[simp] theorem State.wb_newt (a : Nat) (v : Byte) : (s.wb a v).newt = s.newt := rfl
@[simp] theorem State.wb_cls (a : Nat) (v : Byte) : (s.wb a v).cls = s.cls := rfl
@[simp] theorem State.wb_sched (a : Nat) (v : Byte) : (s.wb a v).sched = s.sched := rfl
@[simp] theorem State.wb_subst (a : Nat) (v : Byte) : (s.wb a v).subst = s.subst := rfl
@[simp] theorem State.wb_cipher (a : Nat) (v : Byte) : (s.wb a v).cipher = s.cipher := rfl
@[simp] theorem State.wb_hostIn (a : Nat) (v : Byte) : (s.wb a v).hostIn = s.hostIn := rfl
@[simp] theorem State.wb_wire (a : Nat) (v : Byte) : (s.wb a v).wire = s.wire := rfl
@[simp] theorem State.wb_hostU (a : Nat) (v : Byte) : (s.wb a v).hostU = s.hostU := rfl
@[simp] theorem State.wb_mgmt (a : Nat) (v : Byte) : (s.wb a v).mgmt = s.mgmt := rfl
@[simp] theorem State.wb_pending (a : Nat) (v : Byte) : (s.wb a v).pending = s.pending := rfl

/-! `State.clearMem` changes `mem` only. -/

@[simp] theorem State.clearMem_clock (a n : Nat) : (s.clearMem a n).clock = s.clock := rfl
@[simp] theorem State.clearMem_freeTick (a n : Nat) : (s.clearMem a n).freeTick = s.freeTick := rfl
@[simp] theorem State.clearMem_regs (a n : Nat) : (s.clearMem a n).regs = s.regs := rfl
@[simp] theorem State.clearMem_mem (a n : Nat) : (s.clearMem a n).mem = tclear s.mem a n := rfl
@[simp] theorem State.clearMem_tiles (a n : Nat) : (s.clearMem a n).tiles = s.tiles := rfl
@[simp] theorem State.clearMem_msgs (a n : Nat) : (s.clearMem a n).msgs = s.msgs := rfl
@[simp] theorem State.clearMem_threads (a n : Nat) : (s.clearMem a n).threads = s.threads := rfl
@[simp] theorem State.clearMem_evtIn (a n : Nat) : (s.clearMem a n).evtIn = s.evtIn := rfl
@[simp] theorem State.clearMem_order (a n : Nat) : (s.clearMem a n).order = s.order := rfl
@[simp] theorem State.clearMem_tokens (a n : Nat) : (s.clearMem a n).tokens = s.tokens := rfl
@[simp] theorem State.clearMem_tokenReqs (a n : Nat) : (s.clearMem a n).tokenReqs = s.tokenReqs := rfl
@[simp] theorem State.clearMem_ms (a n : Nat) : (s.clearMem a n).ms = s.ms := rfl
@[simp] theorem State.clearMem_logUnpers (a n : Nat) : (s.clearMem a n).logUnpers = s.logUnpers := rfl
@[simp] theorem State.clearMem_porClock (a n : Nat) : (s.clearMem a n).porClock = s.porClock := rfl
@[simp] theorem State.clearMem_msix (a n : Nat) : (s.clearMem a n).msix = s.msix := rfl
@[simp] theorem State.clearMem_msixFuncMask (a n : Nat) : (s.clearMem a n).msixFuncMask = s.msixFuncMask := rfl
@[simp] theorem State.clearMem_msixPend (a n : Nat) : (s.clearMem a n).msixPend = s.msixPend := rfl
@[simp] theorem State.clearMem_msixSent (a n : Nat) : (s.clearMem a n).msixSent = s.msixSent := rfl
@[simp] theorem State.clearMem_sense (a n : Nat) : (s.clearMem a n).sense = s.sense := rfl
@[simp] theorem State.clearMem_radios (a n : Nat) : (s.clearMem a n).radios = s.radios := rfl
@[simp] theorem State.clearMem_store (a n : Nat) : (s.clearMem a n).store = s.store := rfl
@[simp] theorem State.clearMem_mlink (a n : Nat) : (s.clearMem a n).mlink = s.mlink := rfl
@[simp] theorem State.clearMem_fabric (a n : Nat) : (s.clearMem a n).fabric = s.fabric := rfl
@[simp] theorem State.clearMem_time (a n : Nat) : (s.clearMem a n).time = s.time := rfl
@[simp] theorem State.clearMem_clsIn (a n : Nat) : (s.clearMem a n).clsIn = s.clsIn := rfl
@[simp] theorem State.clearMem_wireIn (a n : Nat) : (s.clearMem a n).wireIn = s.wireIn := rfl
@[simp] theorem State.clearMem_newt (a n : Nat) : (s.clearMem a n).newt = s.newt := rfl
@[simp] theorem State.clearMem_cls (a n : Nat) : (s.clearMem a n).cls = s.cls := rfl
@[simp] theorem State.clearMem_sched (a n : Nat) : (s.clearMem a n).sched = s.sched := rfl
@[simp] theorem State.clearMem_subst (a n : Nat) : (s.clearMem a n).subst = s.subst := rfl
@[simp] theorem State.clearMem_cipher (a n : Nat) : (s.clearMem a n).cipher = s.cipher := rfl
@[simp] theorem State.clearMem_hostIn (a n : Nat) : (s.clearMem a n).hostIn = s.hostIn := rfl
@[simp] theorem State.clearMem_wire (a n : Nat) : (s.clearMem a n).wire = s.wire := rfl
@[simp] theorem State.clearMem_hostU (a n : Nat) : (s.clearMem a n).hostU = s.hostU := rfl
@[simp] theorem State.clearMem_mgmt (a n : Nat) : (s.clearMem a n).mgmt = s.mgmt := rfl
@[simp] theorem State.clearMem_pending (a n : Nat) : (s.clearMem a n).pending = s.pending := rfl

/-! `State.setTile` changes `tiles` only. -/

@[simp] theorem State.setTile_clock (t : Nat) (x : Tile) : (s.setTile t x).clock = s.clock := rfl
@[simp] theorem State.setTile_freeTick (t : Nat) (x : Tile) : (s.setTile t x).freeTick = s.freeTick := rfl
@[simp] theorem State.setTile_regs (t : Nat) (x : Tile) : (s.setTile t x).regs = s.regs := rfl
@[simp] theorem State.setTile_mem (t : Nat) (x : Tile) : (s.setTile t x).mem = s.mem := rfl
@[simp] theorem State.setTile_tiles (t : Nat) (x : Tile) : (s.setTile t x).tiles = tput (fun _ => {}) s.tiles t x := rfl
@[simp] theorem State.setTile_msgs (t : Nat) (x : Tile) : (s.setTile t x).msgs = s.msgs := rfl
@[simp] theorem State.setTile_threads (t : Nat) (x : Tile) : (s.setTile t x).threads = s.threads := rfl
@[simp] theorem State.setTile_evtIn (t : Nat) (x : Tile) : (s.setTile t x).evtIn = s.evtIn := rfl
@[simp] theorem State.setTile_order (t : Nat) (x : Tile) : (s.setTile t x).order = s.order := rfl
@[simp] theorem State.setTile_tokens (t : Nat) (x : Tile) : (s.setTile t x).tokens = s.tokens := rfl
@[simp] theorem State.setTile_tokenReqs (t : Nat) (x : Tile) : (s.setTile t x).tokenReqs = s.tokenReqs := rfl
@[simp] theorem State.setTile_ms (t : Nat) (x : Tile) : (s.setTile t x).ms = s.ms := rfl
@[simp] theorem State.setTile_logUnpers (t : Nat) (x : Tile) : (s.setTile t x).logUnpers = s.logUnpers := rfl
@[simp] theorem State.setTile_porClock (t : Nat) (x : Tile) : (s.setTile t x).porClock = s.porClock := rfl
@[simp] theorem State.setTile_msix (t : Nat) (x : Tile) : (s.setTile t x).msix = s.msix := rfl
@[simp] theorem State.setTile_msixFuncMask (t : Nat) (x : Tile) : (s.setTile t x).msixFuncMask = s.msixFuncMask := rfl
@[simp] theorem State.setTile_msixPend (t : Nat) (x : Tile) : (s.setTile t x).msixPend = s.msixPend := rfl
@[simp] theorem State.setTile_msixSent (t : Nat) (x : Tile) : (s.setTile t x).msixSent = s.msixSent := rfl
@[simp] theorem State.setTile_sense (t : Nat) (x : Tile) : (s.setTile t x).sense = s.sense := rfl
@[simp] theorem State.setTile_radios (t : Nat) (x : Tile) : (s.setTile t x).radios = s.radios := rfl
@[simp] theorem State.setTile_store (t : Nat) (x : Tile) : (s.setTile t x).store = s.store := rfl
@[simp] theorem State.setTile_mlink (t : Nat) (x : Tile) : (s.setTile t x).mlink = s.mlink := rfl
@[simp] theorem State.setTile_fabric (t : Nat) (x : Tile) : (s.setTile t x).fabric = s.fabric := rfl
@[simp] theorem State.setTile_time (t : Nat) (x : Tile) : (s.setTile t x).time = s.time := rfl
@[simp] theorem State.setTile_clsIn (t : Nat) (x : Tile) : (s.setTile t x).clsIn = s.clsIn := rfl
@[simp] theorem State.setTile_wireIn (t : Nat) (x : Tile) : (s.setTile t x).wireIn = s.wireIn := rfl
@[simp] theorem State.setTile_newt (t : Nat) (x : Tile) : (s.setTile t x).newt = s.newt := rfl
@[simp] theorem State.setTile_cls (t : Nat) (x : Tile) : (s.setTile t x).cls = s.cls := rfl
@[simp] theorem State.setTile_sched (t : Nat) (x : Tile) : (s.setTile t x).sched = s.sched := rfl
@[simp] theorem State.setTile_subst (t : Nat) (x : Tile) : (s.setTile t x).subst = s.subst := rfl
@[simp] theorem State.setTile_cipher (t : Nat) (x : Tile) : (s.setTile t x).cipher = s.cipher := rfl
@[simp] theorem State.setTile_hostIn (t : Nat) (x : Tile) : (s.setTile t x).hostIn = s.hostIn := rfl
@[simp] theorem State.setTile_wire (t : Nat) (x : Tile) : (s.setTile t x).wire = s.wire := rfl
@[simp] theorem State.setTile_hostU (t : Nat) (x : Tile) : (s.setTile t x).hostU = s.hostU := rfl
@[simp] theorem State.setTile_mgmt (t : Nat) (x : Tile) : (s.setTile t x).mgmt = s.mgmt := rfl
@[simp] theorem State.setTile_pending (t : Nat) (x : Tile) : (s.setTile t x).pending = s.pending := rfl

/-! `State.modTile` changes `tiles` only. -/

@[simp] theorem State.modTile_clock (t : Nat) (f : Tile → Tile) : (s.modTile t f).clock = s.clock := rfl
@[simp] theorem State.modTile_freeTick (t : Nat) (f : Tile → Tile) : (s.modTile t f).freeTick = s.freeTick := rfl
@[simp] theorem State.modTile_regs (t : Nat) (f : Tile → Tile) : (s.modTile t f).regs = s.regs := rfl
@[simp] theorem State.modTile_mem (t : Nat) (f : Tile → Tile) : (s.modTile t f).mem = s.mem := rfl
@[simp] theorem State.modTile_tiles (t : Nat) (f : Tile → Tile) : (s.modTile t f).tiles = tput (fun _ => {}) s.tiles t (f (s.tile t)) := rfl
@[simp] theorem State.modTile_msgs (t : Nat) (f : Tile → Tile) : (s.modTile t f).msgs = s.msgs := rfl
@[simp] theorem State.modTile_threads (t : Nat) (f : Tile → Tile) : (s.modTile t f).threads = s.threads := rfl
@[simp] theorem State.modTile_evtIn (t : Nat) (f : Tile → Tile) : (s.modTile t f).evtIn = s.evtIn := rfl
@[simp] theorem State.modTile_order (t : Nat) (f : Tile → Tile) : (s.modTile t f).order = s.order := rfl
@[simp] theorem State.modTile_tokens (t : Nat) (f : Tile → Tile) : (s.modTile t f).tokens = s.tokens := rfl
@[simp] theorem State.modTile_tokenReqs (t : Nat) (f : Tile → Tile) : (s.modTile t f).tokenReqs = s.tokenReqs := rfl
@[simp] theorem State.modTile_ms (t : Nat) (f : Tile → Tile) : (s.modTile t f).ms = s.ms := rfl
@[simp] theorem State.modTile_logUnpers (t : Nat) (f : Tile → Tile) : (s.modTile t f).logUnpers = s.logUnpers := rfl
@[simp] theorem State.modTile_porClock (t : Nat) (f : Tile → Tile) : (s.modTile t f).porClock = s.porClock := rfl
@[simp] theorem State.modTile_msix (t : Nat) (f : Tile → Tile) : (s.modTile t f).msix = s.msix := rfl
@[simp] theorem State.modTile_msixFuncMask (t : Nat) (f : Tile → Tile) : (s.modTile t f).msixFuncMask = s.msixFuncMask := rfl
@[simp] theorem State.modTile_msixPend (t : Nat) (f : Tile → Tile) : (s.modTile t f).msixPend = s.msixPend := rfl
@[simp] theorem State.modTile_msixSent (t : Nat) (f : Tile → Tile) : (s.modTile t f).msixSent = s.msixSent := rfl
@[simp] theorem State.modTile_sense (t : Nat) (f : Tile → Tile) : (s.modTile t f).sense = s.sense := rfl
@[simp] theorem State.modTile_radios (t : Nat) (f : Tile → Tile) : (s.modTile t f).radios = s.radios := rfl
@[simp] theorem State.modTile_store (t : Nat) (f : Tile → Tile) : (s.modTile t f).store = s.store := rfl
@[simp] theorem State.modTile_mlink (t : Nat) (f : Tile → Tile) : (s.modTile t f).mlink = s.mlink := rfl
@[simp] theorem State.modTile_fabric (t : Nat) (f : Tile → Tile) : (s.modTile t f).fabric = s.fabric := rfl
@[simp] theorem State.modTile_time (t : Nat) (f : Tile → Tile) : (s.modTile t f).time = s.time := rfl
@[simp] theorem State.modTile_clsIn (t : Nat) (f : Tile → Tile) : (s.modTile t f).clsIn = s.clsIn := rfl
@[simp] theorem State.modTile_wireIn (t : Nat) (f : Tile → Tile) : (s.modTile t f).wireIn = s.wireIn := rfl
@[simp] theorem State.modTile_newt (t : Nat) (f : Tile → Tile) : (s.modTile t f).newt = s.newt := rfl
@[simp] theorem State.modTile_cls (t : Nat) (f : Tile → Tile) : (s.modTile t f).cls = s.cls := rfl
@[simp] theorem State.modTile_sched (t : Nat) (f : Tile → Tile) : (s.modTile t f).sched = s.sched := rfl
@[simp] theorem State.modTile_subst (t : Nat) (f : Tile → Tile) : (s.modTile t f).subst = s.subst := rfl
@[simp] theorem State.modTile_cipher (t : Nat) (f : Tile → Tile) : (s.modTile t f).cipher = s.cipher := rfl
@[simp] theorem State.modTile_hostIn (t : Nat) (f : Tile → Tile) : (s.modTile t f).hostIn = s.hostIn := rfl
@[simp] theorem State.modTile_wire (t : Nat) (f : Tile → Tile) : (s.modTile t f).wire = s.wire := rfl
@[simp] theorem State.modTile_hostU (t : Nat) (f : Tile → Tile) : (s.modTile t f).hostU = s.hostU := rfl
@[simp] theorem State.modTile_mgmt (t : Nat) (f : Tile → Tile) : (s.modTile t f).mgmt = s.mgmt := rfl
@[simp] theorem State.modTile_pending (t : Nat) (f : Tile → Tile) : (s.modTile t f).pending = s.pending := rfl

/-! `State.setThread` changes `threads` only. -/

@[simp] theorem State.setThread_clock (k : Nat) (x : Thread) : (s.setThread k x).clock = s.clock := rfl
@[simp] theorem State.setThread_freeTick (k : Nat) (x : Thread) : (s.setThread k x).freeTick = s.freeTick := rfl
@[simp] theorem State.setThread_regs (k : Nat) (x : Thread) : (s.setThread k x).regs = s.regs := rfl
@[simp] theorem State.setThread_mem (k : Nat) (x : Thread) : (s.setThread k x).mem = s.mem := rfl
@[simp] theorem State.setThread_tiles (k : Nat) (x : Thread) : (s.setThread k x).tiles = s.tiles := rfl
@[simp] theorem State.setThread_msgs (k : Nat) (x : Thread) : (s.setThread k x).msgs = s.msgs := rfl
@[simp] theorem State.setThread_threads (k : Nat) (x : Thread) : (s.setThread k x).threads = tput (fun _ => {}) s.threads k x := rfl
@[simp] theorem State.setThread_evtIn (k : Nat) (x : Thread) : (s.setThread k x).evtIn = s.evtIn := rfl
@[simp] theorem State.setThread_order (k : Nat) (x : Thread) : (s.setThread k x).order = s.order := rfl
@[simp] theorem State.setThread_tokens (k : Nat) (x : Thread) : (s.setThread k x).tokens = s.tokens := rfl
@[simp] theorem State.setThread_tokenReqs (k : Nat) (x : Thread) : (s.setThread k x).tokenReqs = s.tokenReqs := rfl
@[simp] theorem State.setThread_ms (k : Nat) (x : Thread) : (s.setThread k x).ms = s.ms := rfl
@[simp] theorem State.setThread_logUnpers (k : Nat) (x : Thread) : (s.setThread k x).logUnpers = s.logUnpers := rfl
@[simp] theorem State.setThread_porClock (k : Nat) (x : Thread) : (s.setThread k x).porClock = s.porClock := rfl
@[simp] theorem State.setThread_msix (k : Nat) (x : Thread) : (s.setThread k x).msix = s.msix := rfl
@[simp] theorem State.setThread_msixFuncMask (k : Nat) (x : Thread) : (s.setThread k x).msixFuncMask = s.msixFuncMask := rfl
@[simp] theorem State.setThread_msixPend (k : Nat) (x : Thread) : (s.setThread k x).msixPend = s.msixPend := rfl
@[simp] theorem State.setThread_msixSent (k : Nat) (x : Thread) : (s.setThread k x).msixSent = s.msixSent := rfl
@[simp] theorem State.setThread_sense (k : Nat) (x : Thread) : (s.setThread k x).sense = s.sense := rfl
@[simp] theorem State.setThread_radios (k : Nat) (x : Thread) : (s.setThread k x).radios = s.radios := rfl
@[simp] theorem State.setThread_store (k : Nat) (x : Thread) : (s.setThread k x).store = s.store := rfl
@[simp] theorem State.setThread_mlink (k : Nat) (x : Thread) : (s.setThread k x).mlink = s.mlink := rfl
@[simp] theorem State.setThread_fabric (k : Nat) (x : Thread) : (s.setThread k x).fabric = s.fabric := rfl
@[simp] theorem State.setThread_time (k : Nat) (x : Thread) : (s.setThread k x).time = s.time := rfl
@[simp] theorem State.setThread_clsIn (k : Nat) (x : Thread) : (s.setThread k x).clsIn = s.clsIn := rfl
@[simp] theorem State.setThread_wireIn (k : Nat) (x : Thread) : (s.setThread k x).wireIn = s.wireIn := rfl
@[simp] theorem State.setThread_newt (k : Nat) (x : Thread) : (s.setThread k x).newt = s.newt := rfl
@[simp] theorem State.setThread_cls (k : Nat) (x : Thread) : (s.setThread k x).cls = s.cls := rfl
@[simp] theorem State.setThread_sched (k : Nat) (x : Thread) : (s.setThread k x).sched = s.sched := rfl
@[simp] theorem State.setThread_subst (k : Nat) (x : Thread) : (s.setThread k x).subst = s.subst := rfl
@[simp] theorem State.setThread_cipher (k : Nat) (x : Thread) : (s.setThread k x).cipher = s.cipher := rfl
@[simp] theorem State.setThread_hostIn (k : Nat) (x : Thread) : (s.setThread k x).hostIn = s.hostIn := rfl
@[simp] theorem State.setThread_wire (k : Nat) (x : Thread) : (s.setThread k x).wire = s.wire := rfl
@[simp] theorem State.setThread_hostU (k : Nat) (x : Thread) : (s.setThread k x).hostU = s.hostU := rfl
@[simp] theorem State.setThread_mgmt (k : Nat) (x : Thread) : (s.setThread k x).mgmt = s.mgmt := rfl
@[simp] theorem State.setThread_pending (k : Nat) (x : Thread) : (s.setThread k x).pending = s.pending := rfl

/-! `State.setRadio` changes `radios` only. -/

@[simp] theorem State.setRadio_clock (r : Nat) (x : Radio) : (s.setRadio r x).clock = s.clock := rfl
@[simp] theorem State.setRadio_freeTick (r : Nat) (x : Radio) : (s.setRadio r x).freeTick = s.freeTick := rfl
@[simp] theorem State.setRadio_regs (r : Nat) (x : Radio) : (s.setRadio r x).regs = s.regs := rfl
@[simp] theorem State.setRadio_mem (r : Nat) (x : Radio) : (s.setRadio r x).mem = s.mem := rfl
@[simp] theorem State.setRadio_tiles (r : Nat) (x : Radio) : (s.setRadio r x).tiles = s.tiles := rfl
@[simp] theorem State.setRadio_msgs (r : Nat) (x : Radio) : (s.setRadio r x).msgs = s.msgs := rfl
@[simp] theorem State.setRadio_threads (r : Nat) (x : Radio) : (s.setRadio r x).threads = s.threads := rfl
@[simp] theorem State.setRadio_evtIn (r : Nat) (x : Radio) : (s.setRadio r x).evtIn = s.evtIn := rfl
@[simp] theorem State.setRadio_order (r : Nat) (x : Radio) : (s.setRadio r x).order = s.order := rfl
@[simp] theorem State.setRadio_tokens (r : Nat) (x : Radio) : (s.setRadio r x).tokens = s.tokens := rfl
@[simp] theorem State.setRadio_tokenReqs (r : Nat) (x : Radio) : (s.setRadio r x).tokenReqs = s.tokenReqs := rfl
@[simp] theorem State.setRadio_ms (r : Nat) (x : Radio) : (s.setRadio r x).ms = s.ms := rfl
@[simp] theorem State.setRadio_logUnpers (r : Nat) (x : Radio) : (s.setRadio r x).logUnpers = s.logUnpers := rfl
@[simp] theorem State.setRadio_porClock (r : Nat) (x : Radio) : (s.setRadio r x).porClock = s.porClock := rfl
@[simp] theorem State.setRadio_msix (r : Nat) (x : Radio) : (s.setRadio r x).msix = s.msix := rfl
@[simp] theorem State.setRadio_msixFuncMask (r : Nat) (x : Radio) : (s.setRadio r x).msixFuncMask = s.msixFuncMask := rfl
@[simp] theorem State.setRadio_msixPend (r : Nat) (x : Radio) : (s.setRadio r x).msixPend = s.msixPend := rfl
@[simp] theorem State.setRadio_msixSent (r : Nat) (x : Radio) : (s.setRadio r x).msixSent = s.msixSent := rfl
@[simp] theorem State.setRadio_sense (r : Nat) (x : Radio) : (s.setRadio r x).sense = s.sense := rfl
@[simp] theorem State.setRadio_radios (r : Nat) (x : Radio) : (s.setRadio r x).radios = tput (fun _ => {}) s.radios r x := rfl
@[simp] theorem State.setRadio_store (r : Nat) (x : Radio) : (s.setRadio r x).store = s.store := rfl
@[simp] theorem State.setRadio_mlink (r : Nat) (x : Radio) : (s.setRadio r x).mlink = s.mlink := rfl
@[simp] theorem State.setRadio_fabric (r : Nat) (x : Radio) : (s.setRadio r x).fabric = s.fabric := rfl
@[simp] theorem State.setRadio_time (r : Nat) (x : Radio) : (s.setRadio r x).time = s.time := rfl
@[simp] theorem State.setRadio_clsIn (r : Nat) (x : Radio) : (s.setRadio r x).clsIn = s.clsIn := rfl
@[simp] theorem State.setRadio_wireIn (r : Nat) (x : Radio) : (s.setRadio r x).wireIn = s.wireIn := rfl
@[simp] theorem State.setRadio_newt (r : Nat) (x : Radio) : (s.setRadio r x).newt = s.newt := rfl
@[simp] theorem State.setRadio_cls (r : Nat) (x : Radio) : (s.setRadio r x).cls = s.cls := rfl
@[simp] theorem State.setRadio_sched (r : Nat) (x : Radio) : (s.setRadio r x).sched = s.sched := rfl
@[simp] theorem State.setRadio_subst (r : Nat) (x : Radio) : (s.setRadio r x).subst = s.subst := rfl
@[simp] theorem State.setRadio_cipher (r : Nat) (x : Radio) : (s.setRadio r x).cipher = s.cipher := rfl
@[simp] theorem State.setRadio_hostIn (r : Nat) (x : Radio) : (s.setRadio r x).hostIn = s.hostIn := rfl
@[simp] theorem State.setRadio_wire (r : Nat) (x : Radio) : (s.setRadio r x).wire = s.wire := rfl
@[simp] theorem State.setRadio_hostU (r : Nat) (x : Radio) : (s.setRadio r x).hostU = s.hostU := rfl
@[simp] theorem State.setRadio_mgmt (r : Nat) (x : Radio) : (s.setRadio r x).mgmt = s.mgmt := rfl
@[simp] theorem State.setRadio_pending (r : Nat) (x : Radio) : (s.setRadio r x).pending = s.pending := rfl

/-! `State.modRadio` changes `radios` only. -/

@[simp] theorem State.modRadio_clock (r : Nat) (f : Radio → Radio) : (s.modRadio r f).clock = s.clock := rfl
@[simp] theorem State.modRadio_freeTick (r : Nat) (f : Radio → Radio) : (s.modRadio r f).freeTick = s.freeTick := rfl
@[simp] theorem State.modRadio_regs (r : Nat) (f : Radio → Radio) : (s.modRadio r f).regs = s.regs := rfl
@[simp] theorem State.modRadio_mem (r : Nat) (f : Radio → Radio) : (s.modRadio r f).mem = s.mem := rfl
@[simp] theorem State.modRadio_tiles (r : Nat) (f : Radio → Radio) : (s.modRadio r f).tiles = s.tiles := rfl
@[simp] theorem State.modRadio_msgs (r : Nat) (f : Radio → Radio) : (s.modRadio r f).msgs = s.msgs := rfl
@[simp] theorem State.modRadio_threads (r : Nat) (f : Radio → Radio) : (s.modRadio r f).threads = s.threads := rfl
@[simp] theorem State.modRadio_evtIn (r : Nat) (f : Radio → Radio) : (s.modRadio r f).evtIn = s.evtIn := rfl
@[simp] theorem State.modRadio_order (r : Nat) (f : Radio → Radio) : (s.modRadio r f).order = s.order := rfl
@[simp] theorem State.modRadio_tokens (r : Nat) (f : Radio → Radio) : (s.modRadio r f).tokens = s.tokens := rfl
@[simp] theorem State.modRadio_tokenReqs (r : Nat) (f : Radio → Radio) : (s.modRadio r f).tokenReqs = s.tokenReqs := rfl
@[simp] theorem State.modRadio_ms (r : Nat) (f : Radio → Radio) : (s.modRadio r f).ms = s.ms := rfl
@[simp] theorem State.modRadio_logUnpers (r : Nat) (f : Radio → Radio) : (s.modRadio r f).logUnpers = s.logUnpers := rfl
@[simp] theorem State.modRadio_porClock (r : Nat) (f : Radio → Radio) : (s.modRadio r f).porClock = s.porClock := rfl
@[simp] theorem State.modRadio_msix (r : Nat) (f : Radio → Radio) : (s.modRadio r f).msix = s.msix := rfl
@[simp] theorem State.modRadio_msixFuncMask (r : Nat) (f : Radio → Radio) : (s.modRadio r f).msixFuncMask = s.msixFuncMask := rfl
@[simp] theorem State.modRadio_msixPend (r : Nat) (f : Radio → Radio) : (s.modRadio r f).msixPend = s.msixPend := rfl
@[simp] theorem State.modRadio_msixSent (r : Nat) (f : Radio → Radio) : (s.modRadio r f).msixSent = s.msixSent := rfl
@[simp] theorem State.modRadio_sense (r : Nat) (f : Radio → Radio) : (s.modRadio r f).sense = s.sense := rfl
@[simp] theorem State.modRadio_radios (r : Nat) (f : Radio → Radio) : (s.modRadio r f).radios = tput (fun _ => {}) s.radios r (f (s.radio r)) := rfl
@[simp] theorem State.modRadio_store (r : Nat) (f : Radio → Radio) : (s.modRadio r f).store = s.store := rfl
@[simp] theorem State.modRadio_mlink (r : Nat) (f : Radio → Radio) : (s.modRadio r f).mlink = s.mlink := rfl
@[simp] theorem State.modRadio_fabric (r : Nat) (f : Radio → Radio) : (s.modRadio r f).fabric = s.fabric := rfl
@[simp] theorem State.modRadio_time (r : Nat) (f : Radio → Radio) : (s.modRadio r f).time = s.time := rfl
@[simp] theorem State.modRadio_clsIn (r : Nat) (f : Radio → Radio) : (s.modRadio r f).clsIn = s.clsIn := rfl
@[simp] theorem State.modRadio_wireIn (r : Nat) (f : Radio → Radio) : (s.modRadio r f).wireIn = s.wireIn := rfl
@[simp] theorem State.modRadio_newt (r : Nat) (f : Radio → Radio) : (s.modRadio r f).newt = s.newt := rfl
@[simp] theorem State.modRadio_cls (r : Nat) (f : Radio → Radio) : (s.modRadio r f).cls = s.cls := rfl
@[simp] theorem State.modRadio_sched (r : Nat) (f : Radio → Radio) : (s.modRadio r f).sched = s.sched := rfl
@[simp] theorem State.modRadio_subst (r : Nat) (f : Radio → Radio) : (s.modRadio r f).subst = s.subst := rfl
@[simp] theorem State.modRadio_cipher (r : Nat) (f : Radio → Radio) : (s.modRadio r f).cipher = s.cipher := rfl
@[simp] theorem State.modRadio_hostIn (r : Nat) (f : Radio → Radio) : (s.modRadio r f).hostIn = s.hostIn := rfl
@[simp] theorem State.modRadio_wire (r : Nat) (f : Radio → Radio) : (s.modRadio r f).wire = s.wire := rfl
@[simp] theorem State.modRadio_hostU (r : Nat) (f : Radio → Radio) : (s.modRadio r f).hostU = s.hostU := rfl
@[simp] theorem State.modRadio_mgmt (r : Nat) (f : Radio → Radio) : (s.modRadio r f).mgmt = s.mgmt := rfl
@[simp] theorem State.modRadio_pending (r : Nat) (f : Radio → Radio) : (s.modRadio r f).pending = s.pending := rfl

/-! `State.modStore` changes `store` only. -/

@[simp] theorem State.modStore_clock (f : Store → Store) : (s.modStore f).clock = s.clock := rfl
@[simp] theorem State.modStore_freeTick (f : Store → Store) : (s.modStore f).freeTick = s.freeTick := rfl
@[simp] theorem State.modStore_regs (f : Store → Store) : (s.modStore f).regs = s.regs := rfl
@[simp] theorem State.modStore_mem (f : Store → Store) : (s.modStore f).mem = s.mem := rfl
@[simp] theorem State.modStore_tiles (f : Store → Store) : (s.modStore f).tiles = s.tiles := rfl
@[simp] theorem State.modStore_msgs (f : Store → Store) : (s.modStore f).msgs = s.msgs := rfl
@[simp] theorem State.modStore_threads (f : Store → Store) : (s.modStore f).threads = s.threads := rfl
@[simp] theorem State.modStore_evtIn (f : Store → Store) : (s.modStore f).evtIn = s.evtIn := rfl
@[simp] theorem State.modStore_order (f : Store → Store) : (s.modStore f).order = s.order := rfl
@[simp] theorem State.modStore_tokens (f : Store → Store) : (s.modStore f).tokens = s.tokens := rfl
@[simp] theorem State.modStore_tokenReqs (f : Store → Store) : (s.modStore f).tokenReqs = s.tokenReqs := rfl
@[simp] theorem State.modStore_ms (f : Store → Store) : (s.modStore f).ms = s.ms := rfl
@[simp] theorem State.modStore_logUnpers (f : Store → Store) : (s.modStore f).logUnpers = s.logUnpers := rfl
@[simp] theorem State.modStore_porClock (f : Store → Store) : (s.modStore f).porClock = s.porClock := rfl
@[simp] theorem State.modStore_msix (f : Store → Store) : (s.modStore f).msix = s.msix := rfl
@[simp] theorem State.modStore_msixFuncMask (f : Store → Store) : (s.modStore f).msixFuncMask = s.msixFuncMask := rfl
@[simp] theorem State.modStore_msixPend (f : Store → Store) : (s.modStore f).msixPend = s.msixPend := rfl
@[simp] theorem State.modStore_msixSent (f : Store → Store) : (s.modStore f).msixSent = s.msixSent := rfl
@[simp] theorem State.modStore_sense (f : Store → Store) : (s.modStore f).sense = s.sense := rfl
@[simp] theorem State.modStore_radios (f : Store → Store) : (s.modStore f).radios = s.radios := rfl
@[simp] theorem State.modStore_store (f : Store → Store) : (s.modStore f).store = f s.store := rfl
@[simp] theorem State.modStore_mlink (f : Store → Store) : (s.modStore f).mlink = s.mlink := rfl
@[simp] theorem State.modStore_fabric (f : Store → Store) : (s.modStore f).fabric = s.fabric := rfl
@[simp] theorem State.modStore_time (f : Store → Store) : (s.modStore f).time = s.time := rfl
@[simp] theorem State.modStore_clsIn (f : Store → Store) : (s.modStore f).clsIn = s.clsIn := rfl
@[simp] theorem State.modStore_wireIn (f : Store → Store) : (s.modStore f).wireIn = s.wireIn := rfl
@[simp] theorem State.modStore_newt (f : Store → Store) : (s.modStore f).newt = s.newt := rfl
@[simp] theorem State.modStore_cls (f : Store → Store) : (s.modStore f).cls = s.cls := rfl
@[simp] theorem State.modStore_sched (f : Store → Store) : (s.modStore f).sched = s.sched := rfl
@[simp] theorem State.modStore_subst (f : Store → Store) : (s.modStore f).subst = s.subst := rfl
@[simp] theorem State.modStore_cipher (f : Store → Store) : (s.modStore f).cipher = s.cipher := rfl
@[simp] theorem State.modStore_hostIn (f : Store → Store) : (s.modStore f).hostIn = s.hostIn := rfl
@[simp] theorem State.modStore_wire (f : Store → Store) : (s.modStore f).wire = s.wire := rfl
@[simp] theorem State.modStore_hostU (f : Store → Store) : (s.modStore f).hostU = s.hostU := rfl
@[simp] theorem State.modStore_mgmt (f : Store → Store) : (s.modStore f).mgmt = s.mgmt := rfl
@[simp] theorem State.modStore_pending (f : Store → Store) : (s.modStore f).pending = s.pending := rfl

/-! `State.modMlink` changes `mlink` only. -/

@[simp] theorem State.modMlink_clock (f : Mlink → Mlink) : (s.modMlink f).clock = s.clock := rfl
@[simp] theorem State.modMlink_freeTick (f : Mlink → Mlink) : (s.modMlink f).freeTick = s.freeTick := rfl
@[simp] theorem State.modMlink_regs (f : Mlink → Mlink) : (s.modMlink f).regs = s.regs := rfl
@[simp] theorem State.modMlink_mem (f : Mlink → Mlink) : (s.modMlink f).mem = s.mem := rfl
@[simp] theorem State.modMlink_tiles (f : Mlink → Mlink) : (s.modMlink f).tiles = s.tiles := rfl
@[simp] theorem State.modMlink_msgs (f : Mlink → Mlink) : (s.modMlink f).msgs = s.msgs := rfl
@[simp] theorem State.modMlink_threads (f : Mlink → Mlink) : (s.modMlink f).threads = s.threads := rfl
@[simp] theorem State.modMlink_evtIn (f : Mlink → Mlink) : (s.modMlink f).evtIn = s.evtIn := rfl
@[simp] theorem State.modMlink_order (f : Mlink → Mlink) : (s.modMlink f).order = s.order := rfl
@[simp] theorem State.modMlink_tokens (f : Mlink → Mlink) : (s.modMlink f).tokens = s.tokens := rfl
@[simp] theorem State.modMlink_tokenReqs (f : Mlink → Mlink) : (s.modMlink f).tokenReqs = s.tokenReqs := rfl
@[simp] theorem State.modMlink_ms (f : Mlink → Mlink) : (s.modMlink f).ms = s.ms := rfl
@[simp] theorem State.modMlink_logUnpers (f : Mlink → Mlink) : (s.modMlink f).logUnpers = s.logUnpers := rfl
@[simp] theorem State.modMlink_porClock (f : Mlink → Mlink) : (s.modMlink f).porClock = s.porClock := rfl
@[simp] theorem State.modMlink_msix (f : Mlink → Mlink) : (s.modMlink f).msix = s.msix := rfl
@[simp] theorem State.modMlink_msixFuncMask (f : Mlink → Mlink) : (s.modMlink f).msixFuncMask = s.msixFuncMask := rfl
@[simp] theorem State.modMlink_msixPend (f : Mlink → Mlink) : (s.modMlink f).msixPend = s.msixPend := rfl
@[simp] theorem State.modMlink_msixSent (f : Mlink → Mlink) : (s.modMlink f).msixSent = s.msixSent := rfl
@[simp] theorem State.modMlink_sense (f : Mlink → Mlink) : (s.modMlink f).sense = s.sense := rfl
@[simp] theorem State.modMlink_radios (f : Mlink → Mlink) : (s.modMlink f).radios = s.radios := rfl
@[simp] theorem State.modMlink_store (f : Mlink → Mlink) : (s.modMlink f).store = s.store := rfl
@[simp] theorem State.modMlink_mlink (f : Mlink → Mlink) : (s.modMlink f).mlink = f s.mlink := rfl
@[simp] theorem State.modMlink_fabric (f : Mlink → Mlink) : (s.modMlink f).fabric = s.fabric := rfl
@[simp] theorem State.modMlink_time (f : Mlink → Mlink) : (s.modMlink f).time = s.time := rfl
@[simp] theorem State.modMlink_clsIn (f : Mlink → Mlink) : (s.modMlink f).clsIn = s.clsIn := rfl
@[simp] theorem State.modMlink_wireIn (f : Mlink → Mlink) : (s.modMlink f).wireIn = s.wireIn := rfl
@[simp] theorem State.modMlink_newt (f : Mlink → Mlink) : (s.modMlink f).newt = s.newt := rfl
@[simp] theorem State.modMlink_cls (f : Mlink → Mlink) : (s.modMlink f).cls = s.cls := rfl
@[simp] theorem State.modMlink_sched (f : Mlink → Mlink) : (s.modMlink f).sched = s.sched := rfl
@[simp] theorem State.modMlink_subst (f : Mlink → Mlink) : (s.modMlink f).subst = s.subst := rfl
@[simp] theorem State.modMlink_cipher (f : Mlink → Mlink) : (s.modMlink f).cipher = s.cipher := rfl
@[simp] theorem State.modMlink_hostIn (f : Mlink → Mlink) : (s.modMlink f).hostIn = s.hostIn := rfl
@[simp] theorem State.modMlink_wire (f : Mlink → Mlink) : (s.modMlink f).wire = s.wire := rfl
@[simp] theorem State.modMlink_hostU (f : Mlink → Mlink) : (s.modMlink f).hostU = s.hostU := rfl
@[simp] theorem State.modMlink_mgmt (f : Mlink → Mlink) : (s.modMlink f).mgmt = s.mgmt := rfl
@[simp] theorem State.modMlink_pending (f : Mlink → Mlink) : (s.modMlink f).pending = s.pending := rfl

/-! `State.modFab` changes `fabric` only. -/

@[simp] theorem State.modFab_clock (f : Fabric → Fabric) : (s.modFab f).clock = s.clock := rfl
@[simp] theorem State.modFab_freeTick (f : Fabric → Fabric) : (s.modFab f).freeTick = s.freeTick := rfl
@[simp] theorem State.modFab_regs (f : Fabric → Fabric) : (s.modFab f).regs = s.regs := rfl
@[simp] theorem State.modFab_mem (f : Fabric → Fabric) : (s.modFab f).mem = s.mem := rfl
@[simp] theorem State.modFab_tiles (f : Fabric → Fabric) : (s.modFab f).tiles = s.tiles := rfl
@[simp] theorem State.modFab_msgs (f : Fabric → Fabric) : (s.modFab f).msgs = s.msgs := rfl
@[simp] theorem State.modFab_threads (f : Fabric → Fabric) : (s.modFab f).threads = s.threads := rfl
@[simp] theorem State.modFab_evtIn (f : Fabric → Fabric) : (s.modFab f).evtIn = s.evtIn := rfl
@[simp] theorem State.modFab_order (f : Fabric → Fabric) : (s.modFab f).order = s.order := rfl
@[simp] theorem State.modFab_tokens (f : Fabric → Fabric) : (s.modFab f).tokens = s.tokens := rfl
@[simp] theorem State.modFab_tokenReqs (f : Fabric → Fabric) : (s.modFab f).tokenReqs = s.tokenReqs := rfl
@[simp] theorem State.modFab_ms (f : Fabric → Fabric) : (s.modFab f).ms = s.ms := rfl
@[simp] theorem State.modFab_logUnpers (f : Fabric → Fabric) : (s.modFab f).logUnpers = s.logUnpers := rfl
@[simp] theorem State.modFab_porClock (f : Fabric → Fabric) : (s.modFab f).porClock = s.porClock := rfl
@[simp] theorem State.modFab_msix (f : Fabric → Fabric) : (s.modFab f).msix = s.msix := rfl
@[simp] theorem State.modFab_msixFuncMask (f : Fabric → Fabric) : (s.modFab f).msixFuncMask = s.msixFuncMask := rfl
@[simp] theorem State.modFab_msixPend (f : Fabric → Fabric) : (s.modFab f).msixPend = s.msixPend := rfl
@[simp] theorem State.modFab_msixSent (f : Fabric → Fabric) : (s.modFab f).msixSent = s.msixSent := rfl
@[simp] theorem State.modFab_sense (f : Fabric → Fabric) : (s.modFab f).sense = s.sense := rfl
@[simp] theorem State.modFab_radios (f : Fabric → Fabric) : (s.modFab f).radios = s.radios := rfl
@[simp] theorem State.modFab_store (f : Fabric → Fabric) : (s.modFab f).store = s.store := rfl
@[simp] theorem State.modFab_mlink (f : Fabric → Fabric) : (s.modFab f).mlink = s.mlink := rfl
@[simp] theorem State.modFab_fabric (f : Fabric → Fabric) : (s.modFab f).fabric = f s.fabric := rfl
@[simp] theorem State.modFab_time (f : Fabric → Fabric) : (s.modFab f).time = s.time := rfl
@[simp] theorem State.modFab_clsIn (f : Fabric → Fabric) : (s.modFab f).clsIn = s.clsIn := rfl
@[simp] theorem State.modFab_wireIn (f : Fabric → Fabric) : (s.modFab f).wireIn = s.wireIn := rfl
@[simp] theorem State.modFab_newt (f : Fabric → Fabric) : (s.modFab f).newt = s.newt := rfl
@[simp] theorem State.modFab_cls (f : Fabric → Fabric) : (s.modFab f).cls = s.cls := rfl
@[simp] theorem State.modFab_sched (f : Fabric → Fabric) : (s.modFab f).sched = s.sched := rfl
@[simp] theorem State.modFab_subst (f : Fabric → Fabric) : (s.modFab f).subst = s.subst := rfl
@[simp] theorem State.modFab_cipher (f : Fabric → Fabric) : (s.modFab f).cipher = s.cipher := rfl
@[simp] theorem State.modFab_hostIn (f : Fabric → Fabric) : (s.modFab f).hostIn = s.hostIn := rfl
@[simp] theorem State.modFab_wire (f : Fabric → Fabric) : (s.modFab f).wire = s.wire := rfl
@[simp] theorem State.modFab_hostU (f : Fabric → Fabric) : (s.modFab f).hostU = s.hostU := rfl
@[simp] theorem State.modFab_mgmt (f : Fabric → Fabric) : (s.modFab f).mgmt = s.mgmt := rfl
@[simp] theorem State.modFab_pending (f : Fabric → Fabric) : (s.modFab f).pending = s.pending := rfl

/-! `State.modCls` changes `cls` only. -/

@[simp] theorem State.modCls_clock (f : ClassUnit → ClassUnit) : (s.modCls f).clock = s.clock := rfl
@[simp] theorem State.modCls_freeTick (f : ClassUnit → ClassUnit) : (s.modCls f).freeTick = s.freeTick := rfl
@[simp] theorem State.modCls_regs (f : ClassUnit → ClassUnit) : (s.modCls f).regs = s.regs := rfl
@[simp] theorem State.modCls_mem (f : ClassUnit → ClassUnit) : (s.modCls f).mem = s.mem := rfl
@[simp] theorem State.modCls_tiles (f : ClassUnit → ClassUnit) : (s.modCls f).tiles = s.tiles := rfl
@[simp] theorem State.modCls_msgs (f : ClassUnit → ClassUnit) : (s.modCls f).msgs = s.msgs := rfl
@[simp] theorem State.modCls_threads (f : ClassUnit → ClassUnit) : (s.modCls f).threads = s.threads := rfl
@[simp] theorem State.modCls_evtIn (f : ClassUnit → ClassUnit) : (s.modCls f).evtIn = s.evtIn := rfl
@[simp] theorem State.modCls_order (f : ClassUnit → ClassUnit) : (s.modCls f).order = s.order := rfl
@[simp] theorem State.modCls_tokens (f : ClassUnit → ClassUnit) : (s.modCls f).tokens = s.tokens := rfl
@[simp] theorem State.modCls_tokenReqs (f : ClassUnit → ClassUnit) : (s.modCls f).tokenReqs = s.tokenReqs := rfl
@[simp] theorem State.modCls_ms (f : ClassUnit → ClassUnit) : (s.modCls f).ms = s.ms := rfl
@[simp] theorem State.modCls_logUnpers (f : ClassUnit → ClassUnit) : (s.modCls f).logUnpers = s.logUnpers := rfl
@[simp] theorem State.modCls_porClock (f : ClassUnit → ClassUnit) : (s.modCls f).porClock = s.porClock := rfl
@[simp] theorem State.modCls_msix (f : ClassUnit → ClassUnit) : (s.modCls f).msix = s.msix := rfl
@[simp] theorem State.modCls_msixFuncMask (f : ClassUnit → ClassUnit) : (s.modCls f).msixFuncMask = s.msixFuncMask := rfl
@[simp] theorem State.modCls_msixPend (f : ClassUnit → ClassUnit) : (s.modCls f).msixPend = s.msixPend := rfl
@[simp] theorem State.modCls_msixSent (f : ClassUnit → ClassUnit) : (s.modCls f).msixSent = s.msixSent := rfl
@[simp] theorem State.modCls_sense (f : ClassUnit → ClassUnit) : (s.modCls f).sense = s.sense := rfl
@[simp] theorem State.modCls_radios (f : ClassUnit → ClassUnit) : (s.modCls f).radios = s.radios := rfl
@[simp] theorem State.modCls_store (f : ClassUnit → ClassUnit) : (s.modCls f).store = s.store := rfl
@[simp] theorem State.modCls_mlink (f : ClassUnit → ClassUnit) : (s.modCls f).mlink = s.mlink := rfl
@[simp] theorem State.modCls_fabric (f : ClassUnit → ClassUnit) : (s.modCls f).fabric = s.fabric := rfl
@[simp] theorem State.modCls_time (f : ClassUnit → ClassUnit) : (s.modCls f).time = s.time := rfl
@[simp] theorem State.modCls_clsIn (f : ClassUnit → ClassUnit) : (s.modCls f).clsIn = s.clsIn := rfl
@[simp] theorem State.modCls_wireIn (f : ClassUnit → ClassUnit) : (s.modCls f).wireIn = s.wireIn := rfl
@[simp] theorem State.modCls_newt (f : ClassUnit → ClassUnit) : (s.modCls f).newt = s.newt := rfl
@[simp] theorem State.modCls_cls (f : ClassUnit → ClassUnit) : (s.modCls f).cls = f s.cls := rfl
@[simp] theorem State.modCls_sched (f : ClassUnit → ClassUnit) : (s.modCls f).sched = s.sched := rfl
@[simp] theorem State.modCls_subst (f : ClassUnit → ClassUnit) : (s.modCls f).subst = s.subst := rfl
@[simp] theorem State.modCls_cipher (f : ClassUnit → ClassUnit) : (s.modCls f).cipher = s.cipher := rfl
@[simp] theorem State.modCls_hostIn (f : ClassUnit → ClassUnit) : (s.modCls f).hostIn = s.hostIn := rfl
@[simp] theorem State.modCls_wire (f : ClassUnit → ClassUnit) : (s.modCls f).wire = s.wire := rfl
@[simp] theorem State.modCls_hostU (f : ClassUnit → ClassUnit) : (s.modCls f).hostU = s.hostU := rfl
@[simp] theorem State.modCls_mgmt (f : ClassUnit → ClassUnit) : (s.modCls f).mgmt = s.mgmt := rfl
@[simp] theorem State.modCls_pending (f : ClassUnit → ClassUnit) : (s.modCls f).pending = s.pending := rfl

/-! `State.modSched` changes `sched` only. -/

@[simp] theorem State.modSched_clock (f : SchedUnit → SchedUnit) : (s.modSched f).clock = s.clock := rfl
@[simp] theorem State.modSched_freeTick (f : SchedUnit → SchedUnit) : (s.modSched f).freeTick = s.freeTick := rfl
@[simp] theorem State.modSched_regs (f : SchedUnit → SchedUnit) : (s.modSched f).regs = s.regs := rfl
@[simp] theorem State.modSched_mem (f : SchedUnit → SchedUnit) : (s.modSched f).mem = s.mem := rfl
@[simp] theorem State.modSched_tiles (f : SchedUnit → SchedUnit) : (s.modSched f).tiles = s.tiles := rfl
@[simp] theorem State.modSched_msgs (f : SchedUnit → SchedUnit) : (s.modSched f).msgs = s.msgs := rfl
@[simp] theorem State.modSched_threads (f : SchedUnit → SchedUnit) : (s.modSched f).threads = s.threads := rfl
@[simp] theorem State.modSched_evtIn (f : SchedUnit → SchedUnit) : (s.modSched f).evtIn = s.evtIn := rfl
@[simp] theorem State.modSched_order (f : SchedUnit → SchedUnit) : (s.modSched f).order = s.order := rfl
@[simp] theorem State.modSched_tokens (f : SchedUnit → SchedUnit) : (s.modSched f).tokens = s.tokens := rfl
@[simp] theorem State.modSched_tokenReqs (f : SchedUnit → SchedUnit) : (s.modSched f).tokenReqs = s.tokenReqs := rfl
@[simp] theorem State.modSched_ms (f : SchedUnit → SchedUnit) : (s.modSched f).ms = s.ms := rfl
@[simp] theorem State.modSched_logUnpers (f : SchedUnit → SchedUnit) : (s.modSched f).logUnpers = s.logUnpers := rfl
@[simp] theorem State.modSched_porClock (f : SchedUnit → SchedUnit) : (s.modSched f).porClock = s.porClock := rfl
@[simp] theorem State.modSched_msix (f : SchedUnit → SchedUnit) : (s.modSched f).msix = s.msix := rfl
@[simp] theorem State.modSched_msixFuncMask (f : SchedUnit → SchedUnit) : (s.modSched f).msixFuncMask = s.msixFuncMask := rfl
@[simp] theorem State.modSched_msixPend (f : SchedUnit → SchedUnit) : (s.modSched f).msixPend = s.msixPend := rfl
@[simp] theorem State.modSched_msixSent (f : SchedUnit → SchedUnit) : (s.modSched f).msixSent = s.msixSent := rfl
@[simp] theorem State.modSched_sense (f : SchedUnit → SchedUnit) : (s.modSched f).sense = s.sense := rfl
@[simp] theorem State.modSched_radios (f : SchedUnit → SchedUnit) : (s.modSched f).radios = s.radios := rfl
@[simp] theorem State.modSched_store (f : SchedUnit → SchedUnit) : (s.modSched f).store = s.store := rfl
@[simp] theorem State.modSched_mlink (f : SchedUnit → SchedUnit) : (s.modSched f).mlink = s.mlink := rfl
@[simp] theorem State.modSched_fabric (f : SchedUnit → SchedUnit) : (s.modSched f).fabric = s.fabric := rfl
@[simp] theorem State.modSched_time (f : SchedUnit → SchedUnit) : (s.modSched f).time = s.time := rfl
@[simp] theorem State.modSched_clsIn (f : SchedUnit → SchedUnit) : (s.modSched f).clsIn = s.clsIn := rfl
@[simp] theorem State.modSched_wireIn (f : SchedUnit → SchedUnit) : (s.modSched f).wireIn = s.wireIn := rfl
@[simp] theorem State.modSched_newt (f : SchedUnit → SchedUnit) : (s.modSched f).newt = s.newt := rfl
@[simp] theorem State.modSched_cls (f : SchedUnit → SchedUnit) : (s.modSched f).cls = s.cls := rfl
@[simp] theorem State.modSched_sched (f : SchedUnit → SchedUnit) : (s.modSched f).sched = f s.sched := rfl
@[simp] theorem State.modSched_subst (f : SchedUnit → SchedUnit) : (s.modSched f).subst = s.subst := rfl
@[simp] theorem State.modSched_cipher (f : SchedUnit → SchedUnit) : (s.modSched f).cipher = s.cipher := rfl
@[simp] theorem State.modSched_hostIn (f : SchedUnit → SchedUnit) : (s.modSched f).hostIn = s.hostIn := rfl
@[simp] theorem State.modSched_wire (f : SchedUnit → SchedUnit) : (s.modSched f).wire = s.wire := rfl
@[simp] theorem State.modSched_hostU (f : SchedUnit → SchedUnit) : (s.modSched f).hostU = s.hostU := rfl
@[simp] theorem State.modSched_mgmt (f : SchedUnit → SchedUnit) : (s.modSched f).mgmt = s.mgmt := rfl
@[simp] theorem State.modSched_pending (f : SchedUnit → SchedUnit) : (s.modSched f).pending = s.pending := rfl

/-! `State.modCipher` changes `cipher` only. -/

@[simp] theorem State.modCipher_clock (f : CipherUnit → CipherUnit) : (s.modCipher f).clock = s.clock := rfl
@[simp] theorem State.modCipher_freeTick (f : CipherUnit → CipherUnit) : (s.modCipher f).freeTick = s.freeTick := rfl
@[simp] theorem State.modCipher_regs (f : CipherUnit → CipherUnit) : (s.modCipher f).regs = s.regs := rfl
@[simp] theorem State.modCipher_mem (f : CipherUnit → CipherUnit) : (s.modCipher f).mem = s.mem := rfl
@[simp] theorem State.modCipher_tiles (f : CipherUnit → CipherUnit) : (s.modCipher f).tiles = s.tiles := rfl
@[simp] theorem State.modCipher_msgs (f : CipherUnit → CipherUnit) : (s.modCipher f).msgs = s.msgs := rfl
@[simp] theorem State.modCipher_threads (f : CipherUnit → CipherUnit) : (s.modCipher f).threads = s.threads := rfl
@[simp] theorem State.modCipher_evtIn (f : CipherUnit → CipherUnit) : (s.modCipher f).evtIn = s.evtIn := rfl
@[simp] theorem State.modCipher_order (f : CipherUnit → CipherUnit) : (s.modCipher f).order = s.order := rfl
@[simp] theorem State.modCipher_tokens (f : CipherUnit → CipherUnit) : (s.modCipher f).tokens = s.tokens := rfl
@[simp] theorem State.modCipher_tokenReqs (f : CipherUnit → CipherUnit) : (s.modCipher f).tokenReqs = s.tokenReqs := rfl
@[simp] theorem State.modCipher_ms (f : CipherUnit → CipherUnit) : (s.modCipher f).ms = s.ms := rfl
@[simp] theorem State.modCipher_logUnpers (f : CipherUnit → CipherUnit) : (s.modCipher f).logUnpers = s.logUnpers := rfl
@[simp] theorem State.modCipher_porClock (f : CipherUnit → CipherUnit) : (s.modCipher f).porClock = s.porClock := rfl
@[simp] theorem State.modCipher_msix (f : CipherUnit → CipherUnit) : (s.modCipher f).msix = s.msix := rfl
@[simp] theorem State.modCipher_msixFuncMask (f : CipherUnit → CipherUnit) : (s.modCipher f).msixFuncMask = s.msixFuncMask := rfl
@[simp] theorem State.modCipher_msixPend (f : CipherUnit → CipherUnit) : (s.modCipher f).msixPend = s.msixPend := rfl
@[simp] theorem State.modCipher_msixSent (f : CipherUnit → CipherUnit) : (s.modCipher f).msixSent = s.msixSent := rfl
@[simp] theorem State.modCipher_sense (f : CipherUnit → CipherUnit) : (s.modCipher f).sense = s.sense := rfl
@[simp] theorem State.modCipher_radios (f : CipherUnit → CipherUnit) : (s.modCipher f).radios = s.radios := rfl
@[simp] theorem State.modCipher_store (f : CipherUnit → CipherUnit) : (s.modCipher f).store = s.store := rfl
@[simp] theorem State.modCipher_mlink (f : CipherUnit → CipherUnit) : (s.modCipher f).mlink = s.mlink := rfl
@[simp] theorem State.modCipher_fabric (f : CipherUnit → CipherUnit) : (s.modCipher f).fabric = s.fabric := rfl
@[simp] theorem State.modCipher_time (f : CipherUnit → CipherUnit) : (s.modCipher f).time = s.time := rfl
@[simp] theorem State.modCipher_clsIn (f : CipherUnit → CipherUnit) : (s.modCipher f).clsIn = s.clsIn := rfl
@[simp] theorem State.modCipher_wireIn (f : CipherUnit → CipherUnit) : (s.modCipher f).wireIn = s.wireIn := rfl
@[simp] theorem State.modCipher_newt (f : CipherUnit → CipherUnit) : (s.modCipher f).newt = s.newt := rfl
@[simp] theorem State.modCipher_cls (f : CipherUnit → CipherUnit) : (s.modCipher f).cls = s.cls := rfl
@[simp] theorem State.modCipher_sched (f : CipherUnit → CipherUnit) : (s.modCipher f).sched = s.sched := rfl
@[simp] theorem State.modCipher_subst (f : CipherUnit → CipherUnit) : (s.modCipher f).subst = s.subst := rfl
@[simp] theorem State.modCipher_cipher (f : CipherUnit → CipherUnit) : (s.modCipher f).cipher = f s.cipher := rfl
@[simp] theorem State.modCipher_hostIn (f : CipherUnit → CipherUnit) : (s.modCipher f).hostIn = s.hostIn := rfl
@[simp] theorem State.modCipher_wire (f : CipherUnit → CipherUnit) : (s.modCipher f).wire = s.wire := rfl
@[simp] theorem State.modCipher_hostU (f : CipherUnit → CipherUnit) : (s.modCipher f).hostU = s.hostU := rfl
@[simp] theorem State.modCipher_mgmt (f : CipherUnit → CipherUnit) : (s.modCipher f).mgmt = s.mgmt := rfl
@[simp] theorem State.modCipher_pending (f : CipherUnit → CipherUnit) : (s.modCipher f).pending = s.pending := rfl

/-! `State.modNewt` changes `newt` only. -/

@[simp] theorem State.modNewt_clock (f : Newt → Newt) : (s.modNewt f).clock = s.clock := rfl
@[simp] theorem State.modNewt_freeTick (f : Newt → Newt) : (s.modNewt f).freeTick = s.freeTick := rfl
@[simp] theorem State.modNewt_regs (f : Newt → Newt) : (s.modNewt f).regs = s.regs := rfl
@[simp] theorem State.modNewt_mem (f : Newt → Newt) : (s.modNewt f).mem = s.mem := rfl
@[simp] theorem State.modNewt_tiles (f : Newt → Newt) : (s.modNewt f).tiles = s.tiles := rfl
@[simp] theorem State.modNewt_msgs (f : Newt → Newt) : (s.modNewt f).msgs = s.msgs := rfl
@[simp] theorem State.modNewt_threads (f : Newt → Newt) : (s.modNewt f).threads = s.threads := rfl
@[simp] theorem State.modNewt_evtIn (f : Newt → Newt) : (s.modNewt f).evtIn = s.evtIn := rfl
@[simp] theorem State.modNewt_order (f : Newt → Newt) : (s.modNewt f).order = s.order := rfl
@[simp] theorem State.modNewt_tokens (f : Newt → Newt) : (s.modNewt f).tokens = s.tokens := rfl
@[simp] theorem State.modNewt_tokenReqs (f : Newt → Newt) : (s.modNewt f).tokenReqs = s.tokenReqs := rfl
@[simp] theorem State.modNewt_ms (f : Newt → Newt) : (s.modNewt f).ms = s.ms := rfl
@[simp] theorem State.modNewt_logUnpers (f : Newt → Newt) : (s.modNewt f).logUnpers = s.logUnpers := rfl
@[simp] theorem State.modNewt_porClock (f : Newt → Newt) : (s.modNewt f).porClock = s.porClock := rfl
@[simp] theorem State.modNewt_msix (f : Newt → Newt) : (s.modNewt f).msix = s.msix := rfl
@[simp] theorem State.modNewt_msixFuncMask (f : Newt → Newt) : (s.modNewt f).msixFuncMask = s.msixFuncMask := rfl
@[simp] theorem State.modNewt_msixPend (f : Newt → Newt) : (s.modNewt f).msixPend = s.msixPend := rfl
@[simp] theorem State.modNewt_msixSent (f : Newt → Newt) : (s.modNewt f).msixSent = s.msixSent := rfl
@[simp] theorem State.modNewt_sense (f : Newt → Newt) : (s.modNewt f).sense = s.sense := rfl
@[simp] theorem State.modNewt_radios (f : Newt → Newt) : (s.modNewt f).radios = s.radios := rfl
@[simp] theorem State.modNewt_store (f : Newt → Newt) : (s.modNewt f).store = s.store := rfl
@[simp] theorem State.modNewt_mlink (f : Newt → Newt) : (s.modNewt f).mlink = s.mlink := rfl
@[simp] theorem State.modNewt_fabric (f : Newt → Newt) : (s.modNewt f).fabric = s.fabric := rfl
@[simp] theorem State.modNewt_time (f : Newt → Newt) : (s.modNewt f).time = s.time := rfl
@[simp] theorem State.modNewt_clsIn (f : Newt → Newt) : (s.modNewt f).clsIn = s.clsIn := rfl
@[simp] theorem State.modNewt_wireIn (f : Newt → Newt) : (s.modNewt f).wireIn = s.wireIn := rfl
@[simp] theorem State.modNewt_newt (f : Newt → Newt) : (s.modNewt f).newt = f s.newt := rfl
@[simp] theorem State.modNewt_cls (f : Newt → Newt) : (s.modNewt f).cls = s.cls := rfl
@[simp] theorem State.modNewt_sched (f : Newt → Newt) : (s.modNewt f).sched = s.sched := rfl
@[simp] theorem State.modNewt_subst (f : Newt → Newt) : (s.modNewt f).subst = s.subst := rfl
@[simp] theorem State.modNewt_cipher (f : Newt → Newt) : (s.modNewt f).cipher = s.cipher := rfl
@[simp] theorem State.modNewt_hostIn (f : Newt → Newt) : (s.modNewt f).hostIn = s.hostIn := rfl
@[simp] theorem State.modNewt_wire (f : Newt → Newt) : (s.modNewt f).wire = s.wire := rfl
@[simp] theorem State.modNewt_hostU (f : Newt → Newt) : (s.modNewt f).hostU = s.hostU := rfl
@[simp] theorem State.modNewt_mgmt (f : Newt → Newt) : (s.modNewt f).mgmt = s.mgmt := rfl
@[simp] theorem State.modNewt_pending (f : Newt → Newt) : (s.modNewt f).pending = s.pending := rfl

/-! `State.modHost` changes `hostU` only. -/

@[simp] theorem State.modHost_clock (f : HostUnit → HostUnit) : (s.modHost f).clock = s.clock := rfl
@[simp] theorem State.modHost_freeTick (f : HostUnit → HostUnit) : (s.modHost f).freeTick = s.freeTick := rfl
@[simp] theorem State.modHost_regs (f : HostUnit → HostUnit) : (s.modHost f).regs = s.regs := rfl
@[simp] theorem State.modHost_mem (f : HostUnit → HostUnit) : (s.modHost f).mem = s.mem := rfl
@[simp] theorem State.modHost_tiles (f : HostUnit → HostUnit) : (s.modHost f).tiles = s.tiles := rfl
@[simp] theorem State.modHost_msgs (f : HostUnit → HostUnit) : (s.modHost f).msgs = s.msgs := rfl
@[simp] theorem State.modHost_threads (f : HostUnit → HostUnit) : (s.modHost f).threads = s.threads := rfl
@[simp] theorem State.modHost_evtIn (f : HostUnit → HostUnit) : (s.modHost f).evtIn = s.evtIn := rfl
@[simp] theorem State.modHost_order (f : HostUnit → HostUnit) : (s.modHost f).order = s.order := rfl
@[simp] theorem State.modHost_tokens (f : HostUnit → HostUnit) : (s.modHost f).tokens = s.tokens := rfl
@[simp] theorem State.modHost_tokenReqs (f : HostUnit → HostUnit) : (s.modHost f).tokenReqs = s.tokenReqs := rfl
@[simp] theorem State.modHost_ms (f : HostUnit → HostUnit) : (s.modHost f).ms = s.ms := rfl
@[simp] theorem State.modHost_logUnpers (f : HostUnit → HostUnit) : (s.modHost f).logUnpers = s.logUnpers := rfl
@[simp] theorem State.modHost_porClock (f : HostUnit → HostUnit) : (s.modHost f).porClock = s.porClock := rfl
@[simp] theorem State.modHost_msix (f : HostUnit → HostUnit) : (s.modHost f).msix = s.msix := rfl
@[simp] theorem State.modHost_msixFuncMask (f : HostUnit → HostUnit) : (s.modHost f).msixFuncMask = s.msixFuncMask := rfl
@[simp] theorem State.modHost_msixPend (f : HostUnit → HostUnit) : (s.modHost f).msixPend = s.msixPend := rfl
@[simp] theorem State.modHost_msixSent (f : HostUnit → HostUnit) : (s.modHost f).msixSent = s.msixSent := rfl
@[simp] theorem State.modHost_sense (f : HostUnit → HostUnit) : (s.modHost f).sense = s.sense := rfl
@[simp] theorem State.modHost_radios (f : HostUnit → HostUnit) : (s.modHost f).radios = s.radios := rfl
@[simp] theorem State.modHost_store (f : HostUnit → HostUnit) : (s.modHost f).store = s.store := rfl
@[simp] theorem State.modHost_mlink (f : HostUnit → HostUnit) : (s.modHost f).mlink = s.mlink := rfl
@[simp] theorem State.modHost_fabric (f : HostUnit → HostUnit) : (s.modHost f).fabric = s.fabric := rfl
@[simp] theorem State.modHost_time (f : HostUnit → HostUnit) : (s.modHost f).time = s.time := rfl
@[simp] theorem State.modHost_clsIn (f : HostUnit → HostUnit) : (s.modHost f).clsIn = s.clsIn := rfl
@[simp] theorem State.modHost_wireIn (f : HostUnit → HostUnit) : (s.modHost f).wireIn = s.wireIn := rfl
@[simp] theorem State.modHost_newt (f : HostUnit → HostUnit) : (s.modHost f).newt = s.newt := rfl
@[simp] theorem State.modHost_cls (f : HostUnit → HostUnit) : (s.modHost f).cls = s.cls := rfl
@[simp] theorem State.modHost_sched (f : HostUnit → HostUnit) : (s.modHost f).sched = s.sched := rfl
@[simp] theorem State.modHost_subst (f : HostUnit → HostUnit) : (s.modHost f).subst = s.subst := rfl
@[simp] theorem State.modHost_cipher (f : HostUnit → HostUnit) : (s.modHost f).cipher = s.cipher := rfl
@[simp] theorem State.modHost_hostIn (f : HostUnit → HostUnit) : (s.modHost f).hostIn = s.hostIn := rfl
@[simp] theorem State.modHost_wire (f : HostUnit → HostUnit) : (s.modHost f).wire = s.wire := rfl
@[simp] theorem State.modHost_hostU (f : HostUnit → HostUnit) : (s.modHost f).hostU = f s.hostU := rfl
@[simp] theorem State.modHost_mgmt (f : HostUnit → HostUnit) : (s.modHost f).mgmt = s.mgmt := rfl
@[simp] theorem State.modHost_pending (f : HostUnit → HostUnit) : (s.modHost f).pending = s.pending := rfl

/-! `State.modMgmt` changes `mgmt` only. -/

@[simp] theorem State.modMgmt_clock (f : MgmtUnit → MgmtUnit) : (s.modMgmt f).clock = s.clock := rfl
@[simp] theorem State.modMgmt_freeTick (f : MgmtUnit → MgmtUnit) : (s.modMgmt f).freeTick = s.freeTick := rfl
@[simp] theorem State.modMgmt_regs (f : MgmtUnit → MgmtUnit) : (s.modMgmt f).regs = s.regs := rfl
@[simp] theorem State.modMgmt_mem (f : MgmtUnit → MgmtUnit) : (s.modMgmt f).mem = s.mem := rfl
@[simp] theorem State.modMgmt_tiles (f : MgmtUnit → MgmtUnit) : (s.modMgmt f).tiles = s.tiles := rfl
@[simp] theorem State.modMgmt_msgs (f : MgmtUnit → MgmtUnit) : (s.modMgmt f).msgs = s.msgs := rfl
@[simp] theorem State.modMgmt_threads (f : MgmtUnit → MgmtUnit) : (s.modMgmt f).threads = s.threads := rfl
@[simp] theorem State.modMgmt_evtIn (f : MgmtUnit → MgmtUnit) : (s.modMgmt f).evtIn = s.evtIn := rfl
@[simp] theorem State.modMgmt_order (f : MgmtUnit → MgmtUnit) : (s.modMgmt f).order = s.order := rfl
@[simp] theorem State.modMgmt_tokens (f : MgmtUnit → MgmtUnit) : (s.modMgmt f).tokens = s.tokens := rfl
@[simp] theorem State.modMgmt_tokenReqs (f : MgmtUnit → MgmtUnit) : (s.modMgmt f).tokenReqs = s.tokenReqs := rfl
@[simp] theorem State.modMgmt_ms (f : MgmtUnit → MgmtUnit) : (s.modMgmt f).ms = s.ms := rfl
@[simp] theorem State.modMgmt_logUnpers (f : MgmtUnit → MgmtUnit) : (s.modMgmt f).logUnpers = s.logUnpers := rfl
@[simp] theorem State.modMgmt_porClock (f : MgmtUnit → MgmtUnit) : (s.modMgmt f).porClock = s.porClock := rfl
@[simp] theorem State.modMgmt_msix (f : MgmtUnit → MgmtUnit) : (s.modMgmt f).msix = s.msix := rfl
@[simp] theorem State.modMgmt_msixFuncMask (f : MgmtUnit → MgmtUnit) : (s.modMgmt f).msixFuncMask = s.msixFuncMask := rfl
@[simp] theorem State.modMgmt_msixPend (f : MgmtUnit → MgmtUnit) : (s.modMgmt f).msixPend = s.msixPend := rfl
@[simp] theorem State.modMgmt_msixSent (f : MgmtUnit → MgmtUnit) : (s.modMgmt f).msixSent = s.msixSent := rfl
@[simp] theorem State.modMgmt_sense (f : MgmtUnit → MgmtUnit) : (s.modMgmt f).sense = s.sense := rfl
@[simp] theorem State.modMgmt_radios (f : MgmtUnit → MgmtUnit) : (s.modMgmt f).radios = s.radios := rfl
@[simp] theorem State.modMgmt_store (f : MgmtUnit → MgmtUnit) : (s.modMgmt f).store = s.store := rfl
@[simp] theorem State.modMgmt_mlink (f : MgmtUnit → MgmtUnit) : (s.modMgmt f).mlink = s.mlink := rfl
@[simp] theorem State.modMgmt_fabric (f : MgmtUnit → MgmtUnit) : (s.modMgmt f).fabric = s.fabric := rfl
@[simp] theorem State.modMgmt_time (f : MgmtUnit → MgmtUnit) : (s.modMgmt f).time = s.time := rfl
@[simp] theorem State.modMgmt_clsIn (f : MgmtUnit → MgmtUnit) : (s.modMgmt f).clsIn = s.clsIn := rfl
@[simp] theorem State.modMgmt_wireIn (f : MgmtUnit → MgmtUnit) : (s.modMgmt f).wireIn = s.wireIn := rfl
@[simp] theorem State.modMgmt_newt (f : MgmtUnit → MgmtUnit) : (s.modMgmt f).newt = s.newt := rfl
@[simp] theorem State.modMgmt_cls (f : MgmtUnit → MgmtUnit) : (s.modMgmt f).cls = s.cls := rfl
@[simp] theorem State.modMgmt_sched (f : MgmtUnit → MgmtUnit) : (s.modMgmt f).sched = s.sched := rfl
@[simp] theorem State.modMgmt_subst (f : MgmtUnit → MgmtUnit) : (s.modMgmt f).subst = s.subst := rfl
@[simp] theorem State.modMgmt_cipher (f : MgmtUnit → MgmtUnit) : (s.modMgmt f).cipher = s.cipher := rfl
@[simp] theorem State.modMgmt_hostIn (f : MgmtUnit → MgmtUnit) : (s.modMgmt f).hostIn = s.hostIn := rfl
@[simp] theorem State.modMgmt_wire (f : MgmtUnit → MgmtUnit) : (s.modMgmt f).wire = s.wire := rfl
@[simp] theorem State.modMgmt_hostU (f : MgmtUnit → MgmtUnit) : (s.modMgmt f).hostU = s.hostU := rfl
@[simp] theorem State.modMgmt_mgmt (f : MgmtUnit → MgmtUnit) : (s.modMgmt f).mgmt = f s.mgmt := rfl
@[simp] theorem State.modMgmt_pending (f : MgmtUnit → MgmtUnit) : (s.modMgmt f).pending = s.pending := rfl

/-! `State.took` changes `freeTick` only. -/

@[simp] theorem State.took_clock : (s.took).clock = s.clock := rfl
@[simp] theorem State.took_freeTick : (s.took).freeTick = s.freeTick + 1 := rfl
@[simp] theorem State.took_regs : (s.took).regs = s.regs := rfl
@[simp] theorem State.took_mem : (s.took).mem = s.mem := rfl
@[simp] theorem State.took_tiles : (s.took).tiles = s.tiles := rfl
@[simp] theorem State.took_msgs : (s.took).msgs = s.msgs := rfl
@[simp] theorem State.took_threads : (s.took).threads = s.threads := rfl
@[simp] theorem State.took_evtIn : (s.took).evtIn = s.evtIn := rfl
@[simp] theorem State.took_order : (s.took).order = s.order := rfl
@[simp] theorem State.took_tokens : (s.took).tokens = s.tokens := rfl
@[simp] theorem State.took_tokenReqs : (s.took).tokenReqs = s.tokenReqs := rfl
@[simp] theorem State.took_ms : (s.took).ms = s.ms := rfl
@[simp] theorem State.took_logUnpers : (s.took).logUnpers = s.logUnpers := rfl
@[simp] theorem State.took_porClock : (s.took).porClock = s.porClock := rfl
@[simp] theorem State.took_msix : (s.took).msix = s.msix := rfl
@[simp] theorem State.took_msixFuncMask : (s.took).msixFuncMask = s.msixFuncMask := rfl
@[simp] theorem State.took_msixPend : (s.took).msixPend = s.msixPend := rfl
@[simp] theorem State.took_msixSent : (s.took).msixSent = s.msixSent := rfl
@[simp] theorem State.took_sense : (s.took).sense = s.sense := rfl
@[simp] theorem State.took_radios : (s.took).radios = s.radios := rfl
@[simp] theorem State.took_store : (s.took).store = s.store := rfl
@[simp] theorem State.took_mlink : (s.took).mlink = s.mlink := rfl
@[simp] theorem State.took_fabric : (s.took).fabric = s.fabric := rfl
@[simp] theorem State.took_time : (s.took).time = s.time := rfl
@[simp] theorem State.took_clsIn : (s.took).clsIn = s.clsIn := rfl
@[simp] theorem State.took_wireIn : (s.took).wireIn = s.wireIn := rfl
@[simp] theorem State.took_newt : (s.took).newt = s.newt := rfl
@[simp] theorem State.took_cls : (s.took).cls = s.cls := rfl
@[simp] theorem State.took_sched : (s.took).sched = s.sched := rfl
@[simp] theorem State.took_subst : (s.took).subst = s.subst := rfl
@[simp] theorem State.took_cipher : (s.took).cipher = s.cipher := rfl
@[simp] theorem State.took_hostIn : (s.took).hostIn = s.hostIn := rfl
@[simp] theorem State.took_wire : (s.took).wire = s.wire := rfl
@[simp] theorem State.took_hostU : (s.took).hostU = s.hostU := rfl
@[simp] theorem State.took_mgmt : (s.took).mgmt = s.mgmt := rfl
@[simp] theorem State.took_pending : (s.took).pending = s.pending := rfl

/-! Reads. -/

@[simp] theorem State.rd_wr_self (a : RegId) (v : Word) : (s.wr a v).rd a = v := by simp [State.rd]
theorem State.rd_wr_ne {a b : RegId} (v : Word) (h : b ≠ a) : (s.wr a v).rd b = s.rd b := by
  simp [State.rd, tget_tput_ne _ _ _ h]
@[simp] theorem State.rb_wb_self (a : Nat) (v : Byte) : (s.wb a v).rb a = v := by simp [State.rb]
theorem State.rb_wb_ne {a b : Nat} (v : Byte) (h : b ≠ a) : (s.wb a v).rb b = s.rb b := by
  simp [State.rb, tget_tput_ne _ _ _ h]
@[simp] theorem State.tile_setTile_self (t : Nat) (x : Tile) : (s.setTile t x).tile t = x := by simp [State.tile]
theorem State.tile_setTile_ne {t u : Nat} (x : Tile) (h : u ≠ t) : (s.setTile t x).tile u = s.tile u := by
  simp [State.tile, tget_tput_ne _ _ _ h]
@[simp] theorem State.thread_setThread_self (k : Nat) (x : Thread) : (s.setThread k x).thread k = x := by simp [State.thread]
theorem State.thread_setThread_ne {k j : Nat} (x : Thread) (h : j ≠ k) : (s.setThread k x).thread j = s.thread j := by
  simp [State.thread, tget_tput_ne _ _ _ h]
@[simp] theorem State.radio_setRadio_self (r : Nat) (x : Radio) : (s.setRadio r x).radio r = x := by simp [State.radio]
theorem State.radio_setRadio_ne {r q : Nat} (x : Radio) (h : q ≠ r) : (s.setRadio r x).radio q = s.radio q := by
  simp [State.radio, tget_tput_ne _ _ _ h]
@[simp] theorem State.tile_modTile_self (t : Nat) (f : Tile → Tile) : (s.modTile t f).tile t = f (s.tile t) := by
  simp [State.modTile]
@[simp] theorem State.radio_modRadio_self (r : Nat) (f : Radio → Radio) : (s.modRadio r f).radio r = f (s.radio r) := by
  simp [State.modRadio]

end Sys2Proof.Machine
end

