-- ==== Sys2Proof/Laws/Ops.lean ====
section
/-! SUPPORT. What the shared operations do to what a reader of the state sees: registers, bytes of memory, tile headers. -/

namespace Sys2Proof.Machine

variable (s : State)

/-! Reads that an update of another part leaves alone. -/

@[simp] theorem State.tile_wr (a : RegId) (v : Word) (k : Nat) : (s.wr a v).tile k = s.tile k := rfl
@[simp] theorem State.tile_wf (a : RegId) (hi lo v k : Nat) : (s.wf a hi lo v).tile k = s.tile k := rfl
@[simp] theorem State.tile_sat (a : RegId) (hi lo v k : Nat) : (s.sat a hi lo v).tile k = s.tile k := rfl
@[simp] theorem State.tile_wb (a : Nat) (v : Byte) (k : Nat) : (s.wb a v).tile k = s.tile k := rfl
@[simp] theorem State.tile_wm (a n v k : Nat) : (s.wm a n v).tile k = s.tile k := by
  induction n generalizing s a v with
  | zero => rfl
  | succ n ih => rw [State.wm, ih, State.tile_wb]
@[simp] theorem State.tile_wwords (a : Nat) (l : List Nat) (k : Nat) : (s.wwords a l).tile k = s.tile k := by
  induction l generalizing s a with
  | nil => rfl
  | cons w l ih => rw [State.wwords, ih, State.tile_wm]
@[simp] theorem State.tile_logRec (t kind code d0 d1 d2 d3 k : Nat) : (s.logRec t kind code d0 d1 d2 d3).tile k = s.tile k := by
  have h : ∀ u : State, u.tile k = s.tile k → (if s.logUnpers = 2048 then u.sat Reg.MGMT.LOG_CNT 15 0 1
      else { u with logUnpers := s.logUnpers + 1 }).tile k = s.tile k := by
    intro u hu
    split
    · rw [State.tile_sat, hu]
    · exact hu
  exact h _ (by rw [State.tile_wf, State.tile_wwords])
@[simp] theorem State.tile_sendMsix (v k : Nat) : (s.sendMsix v).tile k = s.tile k := by
  unfold State.sendMsix; (repeat' split) <;> rfl
@[simp] theorem State.tile_sendEvt (t k : Nat) : (s.sendEvt t).tile k = s.tile k := by
  simp only [State.sendEvt, State.sendMsix]; (repeat' split) <;> rfl
@[simp] theorem State.rd_setTile (t : Nat) (x : Tile) (a : RegId) : (s.setTile t x).rd a = s.rd a := rfl
@[simp] theorem State.rd_modTile (t : Nat) (f : Tile → Tile) (a : RegId) : (s.modTile t f).rd a = s.rd a := rfl
@[simp] theorem State.rd_wb (b : Nat) (v : Byte) (a : RegId) : (s.wb b v).rd a = s.rd a := rfl
@[simp] theorem State.rd_wm (b n v : Nat) (a : RegId) : (s.wm b n v).rd a = s.rd a := by
  induction n generalizing s b v with
  | zero => rfl
  | succ n ih => rw [State.wm, ih, State.rd_wb]
@[simp] theorem State.rd_wwords (b : Nat) (l : List Nat) (a : RegId) : (s.wwords b l).rd a = s.rd a := by
  induction l generalizing s b with
  | nil => rfl
  | cons w l ih => rw [State.wwords, ih, State.rd_wm]
@[simp] theorem State.rd_sendEvt (t : Nat) (a : RegId) : (s.sendEvt t).rd a = s.rd a := by
  simp only [State.sendEvt, State.sendMsix]; (repeat' split) <;> rfl
@[simp] theorem State.rb_wr (a : RegId) (v : Word) (b : Nat) : (s.wr a v).rb b = s.rb b := rfl
@[simp] theorem State.rb_wf (a : RegId) (hi lo v b : Nat) : (s.wf a hi lo v).rb b = s.rb b := rfl
@[simp] theorem State.rb_sat (a : RegId) (hi lo v b : Nat) : (s.sat a hi lo v).rb b = s.rb b := rfl
@[simp] theorem State.rb_setTile (t : Nat) (x : Tile) (b : Nat) : (s.setTile t x).rb b = s.rb b := rfl
@[simp] theorem State.rb_modTile (t : Nat) (f : Tile → Tile) (b : Nat) : (s.modTile t f).rb b = s.rb b := rfl
@[simp] theorem State.rb_sendEvt (t b : Nat) : (s.sendEvt t).rb b = s.rb b := by
  simp only [State.sendEvt, State.sendMsix]; (repeat' split) <;> rfl
theorem State.tile_modTile_ne {t k : Nat} (f : Tile → Tile) (h : k ≠ t) : (s.modTile t f).tile k = s.tile k :=
  State.tile_setTile_ne s _ h

/-! Events (R33, R34): the words of the tile, and nothing else but messages. -/

theorem State.tile_setEvtWords (t : Nat) (p m : Word) : (s.setEvtWords t p m).tile t = { s.tile t with evtPend := p, evtMask := m } := by
  unfold State.setEvtWords; dsimp only; split
  · simp
  · rw [State.tile_sendEvt]; simp
theorem State.tile_setEvtWords_ne {t k : Nat} (p m : Word) (h : k ≠ t) : (s.setEvtWords t p m).tile k = s.tile k := by
  unfold State.setEvtWords; dsimp only; split
  · exact State.tile_setTile_ne s _ h
  · rw [State.tile_sendEvt]; exact State.tile_setTile_ne s _ h
@[simp] theorem State.rd_setEvtWords (t : Nat) (p m : Word) (a : RegId) : (s.setEvtWords t p m).rd a = s.rd a := by
  unfold State.setEvtWords; dsimp only; split
  · rfl
  · rw [State.rd_sendEvt]; rfl
@[simp] theorem State.rb_setEvtWords (t : Nat) (p m : Word) (b : Nat) : (s.setEvtWords t p m).rb b = s.rb b := by
  unfold State.setEvtWords; dsimp only; split
  · rfl
  · rw [State.rb_sendEvt]; rfl
@[simp] theorem State.tile_evt (t n : Nat) :
    (s.evt t n).tile t = { s.tile t with evtPend := (s.tile t).evtPend ||| wd (2 ^ n) } := State.tile_setEvtWords s t _ _
theorem State.tile_evt_ne {t k : Nat} (n : Nat) (h : k ≠ t) : (s.evt t n).tile k = s.tile k := State.tile_setEvtWords_ne s _ _ h
@[simp] theorem State.rd_evt (t n : Nat) (a : RegId) : (s.evt t n).rd a = s.rd a := State.rd_setEvtWords s t _ _ a
@[simp] theorem State.rb_evt (t n b : Nat) : (s.evt t n).rb b = s.rb b := State.rb_setEvtWords s t _ _ b

/-! Counters, results and refusals. -/

theorem State.rd_wf_self (a : RegId) (hi lo v : Nat) : (s.wf a hi lo v).rd a = putFld (s.rd a) hi lo v := State.rd_wr_self s a _
theorem State.rd_wf_ne {a b : RegId} (hi lo v : Nat) (h : b ≠ a) : (s.wf a hi lo v).rd b = s.rd b := State.rd_wr_ne s _ h
theorem State.rd_pathPost (a : RegId) (lo : Nat) (tag : Tag) (v : Nat) :
    (s.pathPost a lo tag v).rd a = wd (2 ^ 31 + v + tag.toNat * 2 ^ lo) := State.rd_wr_self s a _
theorem State.rd_pathBusy (a : RegId) (lo : Nat) (tag : Tag) :
    (s.pathBusy a lo tag).rd a = wd (2 ^ 30 + tag.toNat * 2 ^ lo) := State.rd_wr_self s a _
theorem State.onWrite_accepts {s : State} {b : Req} {t : Nat} (f : State → State) (h : s.accepts b t = true) : s.onWrite b t f = f s := by
  simp [State.onWrite, h]
theorem State.onWrite_turned {s : State} {b : Req} {t : Nat} (f : State → State) (h : s.accepts b t = false) :
    s.onWrite b t f = s.earlyWrite t := by simp [State.onWrite, h]
theorem State.tile_postReq (t code : Nat) (tag : Tag) : (s.postReq t code tag).tile t = { s.tile t with
    busy := false, target := 15, resValid := true, resCode := code, resTag := tag,
    evtPend := (s.tile t).evtPend ||| wd (2 ^ 1) } := by simp [State.postReq]

end Sys2Proof.Machine
end

