-- ==== Sys2Proof/Tests/Slice0.lean ====
section
/-! SUPPORT. The model's own tests: what WellFormed refuses, small facts of one command each worked out by hand from the spec, and for
each statement the named states and operands that meet the hypotheses of its clauses. -/

namespace Sys2Proof.Tests

open Sys2Proof.Machine

set_option Elab.async false

/-- Every tile READY, everything else as at reset. -/
def up : State := { State.reset with tiles := (List.range 18).map fun t => (t, ({ life := .ready } : Tile)) }
/-- One tile in a state of the life cycle, with a request in progress for a target where one is given. -/
def inLife (t : Nat) (l : Life) (target : Option Nat) : State :=
  up.setTile t { life := l, busy := target.isSome, target := target.getD 15 }
/-- A thread of a tile as given, in a state. -/
def withThread (s : State) (key : Nat) (x : Thread) : State := s.setThread key x
/-- A state with a tile's maintenance token of a kind held by hardware. -/
def holding (s : State) (kind scope : Nat) : State :=
  { s with tokens := [{ kind := kind, scope := scope, holder := .unit }] }
/-- The controller and packet engine threads used by the tests. -/
def th0 : ThreadRef := { tile := 0, eng := 0, thr := 0 }

/-! Witnesses: the life cycle. -/

theorem wit_LifecycleRequestsAreTaken :
    ((up.inReset = false ∧ (up.tile 7).busy = false ∧ (up.tile 7).resValid = false ∧ up.life 7 ≠ .off ∧ up.life 7 ≠ .reset ∧
      up.life 7 = .ready ∧ up.hasToken 7 = false ∧ up.life 7 ≠ .held) ∧
    ((inLife 7 .off none).life 7 = .off ∧ (inLife 7 .draining none).life 7 = .draining ∧ (inLife 7 .draining none).inReset = false) ∧
    ((inLife 16 .reset none).life 16 = .reset ∧ (inLife 16 .reset none).hostU.perst = true ∧ (inLife 7 .held none).life 7 = .held) ∧
    ((holding up kUPDATE 7).life 7 = .ready ∧ (holding up kUPDATE 7).hasToken 7 = true) ∧
    (let s := { State.reset with tiles := [(8, ({ life := .ready } : Tile))] }
     (holding s kUPDATE 8).life 8 = .ready ∧ (holding s kUPDATE 8).hasToken 8 = true ∧ (holding s kUPDATE 8).storeAlone = true) ∧
    (up.life 8 = .ready ∧ up.storeAlone = false ∧ (up.tile 8).busy = false) ∧
    ((holding (inLife 7 .held none) kUPDATE 7).life 7 = .held ∧ (holding (inLife 7 .held none) kUPDATE 7).hasToken 7 = true ∧
      hasCalib 7 = true ∧ hasCalib 5 = false ∧ (inLife 7 .held none).hasToken 7 = false) ∧
    ((5#4).toNat = 5 ∧ 7 ≤ (7#4).toNat ∧ (14#4).toNat ≤ 14)) ∧
    ((inLife 7 .draining (some 6)).inReset = false ∧ ((inLife 7 .draining (some 6)).tile 7).busy = true ∧
    (inLife 7 .draining (some 6)).life 7 = .draining ∧ ((inLife 7 .draining (some 6)).tile 7).target = 6 ∧
    ((inLife 7 .held (some 4)).tile 7).busy = true ∧ (inLife 7 .held (some 4)).life 7 ≠ .draining ∧
    (inLife 7 .held (some 4)).life 7 ≠ .off ∧ (inLife 7 .held (some 4)).life 7 ≠ .reset ∧
    (let s := up.setTile 7 { life := .ready, resValid := true }
     (s.tile 7).busy = false ∧ (s.tile 7).resValid = true)) := by decide +kernel

theorem wit_TransitionsComplete :
    ((let x := (inLife 7 .held (some 1)).tile 7; x.busy = true ∧ x.target = 1 ∧ x.life ≠ .off ∧ x.life ≠ .reset) ∧
    (let x := (inLife 7 .held (some 0)).tile 7; x.busy = true ∧ x.target = 0 ∧ x.life ≠ .off ∧ x.life ≠ .reset) ∧
    (let x := (inLife 7 .reset (some 0)).tile 7; x.busy = true ∧ x.target = 0 ∧ x.life = .reset) ∧
    (let x := (inLife 7 .off (some 1)).tile 7; x.busy = true ∧ x.target = 1 ∧ x.life = .off) ∧
    (let x := (inLife 7 .off (some 4)).tile 7; x.busy = true ∧ x.target = 4 ∧ x.life = .off) ∧
    (let s := inLife 2 .selftest (some 4)
     (s.tile 2).life = .selftest ∧ (s.tile 2).busy = true ∧ (s.tile 2).target = 4 ∧ s.noneLeft 2 [12] = none) ∧
    (let x := (inLife 7 .selftest (some 2)).tile 7; x.life = .selftest ∧ x.busy = true ∧ x.target = 2) ∧
    (inLife 7 .selftest (some 2)).noneLeft 7 [0, 1] = none ∧
    (let x := (inLife 7 .calibrate (some 4)).tile 7; x.life = .calibrate ∧ x.busy = true ∧ x.target = 4) ∧
    (let x := (inLife 7 .calibrate (some 3)).tile 7; x.life = .calibrate ∧ x.busy = true ∧ x.target = 3) ∧
    (let x := (inLife 7 .held (some 4)).tile 7; x.busy = true ∧ x.target = 4 ∧ x.life = .held) ∧
    (let x := (inLife 7 .draining (some 4)).tile 7; x.busy = true ∧ x.target = 4 ∧ x.life = .draining) ∧
    (let s := inLife 7 .draining (some 6)
     (s.tile 7).life = .draining ∧ (s.tile 7).busy = true ∧ (s.tile 7).target = 6 ∧ s.drained 7 = true) ∧
    (let s : State := { inLife 7 .draining (some 6) with clock := 100000000 }
     (s.tile 7).since + s.drainBound 7 ≤ s.clock)) ∧
    ((inLife 2 .selftest (some 4)).life 2 = .selftest ∧ 2 ≤ ((inLife 2 .selftest (some 4)).tile 2).target ∧
    (inLife 2 .selftest (some 4)).noneLeft 2 [0, 12] = some 28 ∧
    (inLife 7 .calibrate (some 4)).life 7 = .calibrate ∧ 2 ≤ ((inLife 7 .calibrate (some 4)).tile 7).target) ∧
    ((up.hostU.perst = true ∧ up.life 16 ≠ .off ∧ (inLife 16 .off none).life 16 = .off ∧ (inLife 16 .off none).hostU.perst = true) ∧
    (let s := (inLife 16 .reset none).modHost fun x => { x with perst := false }
     s.hostU.perst = false ∧ s.inReset = false ∧ s.life 16 = .reset ∧ ¬ ((s.tile 16).busy = true ∧ (s.tile 16).target = 0))) := by
  decide +kernel

theorem wit_HeaderWritesAndMessages :
    up.life 7 ≠ .off ∧ (cntRegs 7).length ≠ 0 ∧
    (let s : State := { up with msgs := [{ src := 7, dst := 0, bits := 4 }] }
     s.msgs[0]? = some ⟨7, 0, 4⟩ ∧ hasController 0 = true ∧ s.waiter 0 = none) ∧
    (let s := { up with msgs := [{ src := 7, dst := 0, bits := 4 }] }.setThread (threadKey 0 0 1) { run := .waitev 0 none }
     s.msgs[0]? = some ⟨7, 0, 4⟩ ∧ s.waiter 0 = some 1 ∧ tget (fun _ => []) s.evtIn 0 = []) := by decide +kernel

theorem wit_HardwareErrorsAreRecorded :
    up.life 7 ≠ .off ∧ 0 < attachments 7 ∧ flitCrc 0 ≠ (0 : Byte).toNat ∧ flitCrc 0 = (0xAF : Byte).toNat ∧
    tget (fun _ => 0) (up.tile 7).flitFails 0 < 16 ∧ tget (fun _ => 0) (up.tile 7).flitFails 0 = 0 ∧
    16 ≤ tget (fun _ => 0) ((up.modTile 7 fun x => { x with flitFails := [(0, 16)] }).tile 7).flitFails 0 ∧
    (let s := up.modTile 7 fun x => { x with flitFails := [(0, 1)], flitLast := [(0, 2 ^ 263)] }
     tget (fun _ => 0) (s.tile 7).flitFails 0 ≠ 0 ∧ trackDiff (tget (fun _ => 0) (s.tile 7).flitLast 0) 0 = some 263 ∧
      trackDiff (tget (fun _ => 0) (s.tile 7).flitLast 0) 1 = none) ∧
    (0 < islands 7 ∧ 4 < islands 17 ∧ (up.tile 7).unlocked.contains 0 = false ∧ 1 < islands 8 ∧ ¬ (up.life 8 = .reset ∨ up.life 8 = .held)) ∧
    (up.tile 7).firstValid = false ∧
    (let s := up.modTile 7 fun x => { x with firstValid := true, cause := 5 }
     (s.tile 7).firstValid = true ∧ (s.tile 7).firstAt = s.clock ∧ 4 < (s.tile 7).cause ∧
      ¬ ((s.tile 7).firstAt = s.clock ∧ 5 < (s.tile 7).cause)) ∧ up.life 7 ≠ .reset := by decide +kernel

/-! Witnesses: maintenance, MGMT and the boot ROM. -/

/-- A pool 0 of descriptors' blocks: enabled, 4 blocks from block 0. -/
def poolUp : State :=
  { (((up.wr (Reg.STORE.POOL_W1 0) 4).wr (Reg.STORE.POOL_W2 0) 0x80000000).wr (Reg.STORE.POOL_W3 0) 4) with
    store := { up.store with pools := [(0, { list := [(0, 4)] })], free := [(0, 16)] } }

theorem wit_MaintenanceTokensAndWatchdogs :
    (up.tokens.Pairwise (fun p q => conflicts p q = false)) ∧
    ((holding up kUPDATE 7).tokens.Pairwise (fun p q => conflicts p q = false)) ∧
    (up.accepts (.tile 0) 0 = true ∧ up.pathFree (Reg.MGMT.MT_RES 15) = true ∧ scopeOk 8 7 = true ∧ scopeOk 15 31 = false ∧
      up.holds 8 7 = false ∧ up.asks 8 7 = false) ∧
    (let s := up.wr (Reg.MGMT.MT_RES 15) 0x40000021
     s.pathFree (Reg.MGMT.MT_RES 15) = false ∧ s.pathTag (Reg.MGMT.MT_RES 15) 0 = 0x21 ∧ s.pathTag (Reg.MGMT.MT_RES 15) 0 ≠ 0x20) ∧
    (let s := up.modMgmt fun x => { x with wdDue := [(0, some 0), (6, some 0)] }
     tget (fun _ => none) s.mgmt.wdDue 6 = some 0 ∧ tget (fun _ => none) s.mgmt.wdDue 0 = some 0 ∧ 0 ≤ s.clock) := by decide +kernel

theorem wit_MonitorsSetTheThermalStage :
    stageNext (fun _ => 90) 89 0 = 0 ∧ stageNext (fun _ => 90) 90 0 = 4 ∧ stageNext (fun _ => 90) 86 4 = 0 ∧
    stageNext (fun _ => 90) 87 4 = 4 ∧ hottest 0 [400, 401] = some (1, 401) ∧
    (let s : State := { up with clock := 50000000 }
     s.sensorDue = true ∧ s.inReset = false ∧ 50000000 ≤ s.clock - s.mgmt.roAt ∧
      ({ s with clock := 49999999 } : State).sensorDue = false ∧
      ({ s with clock := 49999999 } : State).clock - s.mgmt.roAt < 50000000 ∧
      (s.modMgmt fun x => { x with sensorAt := s.clock }).sensorDue = false ∧
      (s.modMgmt fun x => { x with porLow := true }).inReset = true) ∧
    up.mgmt.dutyWin ≠ up.ns / 10000000 + 1 := by decide +kernel

theorem wit_MgmtCommandsPostResults :
    reqMgmt (.tile 0) = true ∧ reqMgmt .host = false ∧ up.accepts (.tile 0) 0 = true ∧ up.accepts .host 0 = true ∧
    bit up.otpCfg 4 = false ∧ (0x10 ≤ 4 * fld (0x00400001 : Word) 31 20) ∧ 4 * fld (0x00300001 : Word) 31 20 < 0x10 ∧
    128 ≤ fld (0x80000000 : Word) 31 24 ∧ fld (0x7F000000 : Word) 31 24 < 128 ∧
    up.pathFree Reg.PRIV.CR_RES = true ∧ up.pathFree Reg.PRIV.FL_RES = true ∧ up.pathFree Reg.MGMT.AVS_RESULT = true ∧
    (let s := ((up.wr Reg.PRIV.CR_RES 0x80000500).wr Reg.PRIV.FL_RES 0x80000500).wr Reg.MGMT.AVS_RESULT 0x80050000
     s.rbit Reg.PRIV.CR_RES 31 = true ∧ s.pathTag Reg.PRIV.CR_RES 8 = 5 ∧ s.rbit Reg.PRIV.FL_RES 31 = true ∧
      s.pathTag Reg.PRIV.FL_RES 8 = 5 ∧ s.rbit Reg.MGMT.AVS_RESULT 31 = true ∧ s.pathTag Reg.MGMT.AVS_RESULT 16 = 5) ∧
    (up.modMgmt fun x => { x with fl := some ⟨3, false, false⟩ }).mgmt.fl = some ⟨3, false, false⟩ ∧
    (up.modMgmt fun x => { x with avs := some 7 }).mgmt.avs = some 7 ∧
    (up.wr Reg.MGMT.AVS_CTL 0x80000000).rbit Reg.MGMT.AVS_CTL 31 = true ∧ (650 : Nat) ≤ (650#16).toNat ∧
    (900#16).toNat ≤ 900 ∧ (649#16).toNat < 650 ∧ 900 < (901#16).toNat := by decide

theorem wit_AxolotlSubstitutes :
    up.life 17 ≠ .off ∧
    (let s := (holding up kSUBST 7).modMgmt fun x => { x with axPend := [⟨31, 7, 0xFFFF, false⟩] }
     s.axReady 31 7 0xFFFF = some ⟨31, 7, 0xFFFF, false⟩ ∧ s.live 7 = true) ∧
    (let s := (holding up kSUBST 7).modMgmt fun x => { x with axPend := [⟨30, 7, 3 * 512 + 511, false⟩] }
     s.axReady 30 7 (3 * 512 + 511) = some ⟨30, 7, 3 * 512 + 511, false⟩ ∧ tget (fun _ => 0) s.mgmt.tracks (7 * 4 + 3) < 2 ∧
      2 ≤ tget (fun _ => 0) (s.modMgmt fun x => { x with tracks := [(31, 2)] }).mgmt.tracks (7 * 4 + 3)) ∧
    (let s := (holding up kSUBST 2).modMgmt fun x => { x with axPend := [⟨29, 2, 0, false⟩] }
     s.mgmt.axPend.find? (fun p => p.kind = 29 && p.scope = rTile 0) = some ⟨29, 2, 0, false⟩ ∧ s.holds kSUBST (rTile 0) = true ∧
      s.live (rTile 0) = true ∧ laneFrom (2 ^ 13 - 1 - s.rf (Reg.RADIO.RX_LANES 0) 12 0 - s.rf (Reg.RADIO.RX_LANES 0) 28 16) 0 ≠ none ∧
      laneFrom (2 ^ 13 - 1 - (s.wr (Reg.RADIO.RX_LANES 0) 0x1FFF).rf (Reg.RADIO.RX_LANES 0) 12 0 - 0) 0 = none) ∧
    (let s := (holding up kSUBST 11).modMgmt fun x => { x with axPend := [⟨28, 11, 0, false⟩] }
     s.axReady 28 (engTile 0) (s.rf (Reg.ENG.ENG_MAP 0) 3 0) = some ⟨28, 11, 0, false⟩ ∧ s.live (engTile 0) = true ∧
      s.pathFree (Reg.ENG.SUBST_RESULT 0) = true) := by decide

theorem wit_DeviceResetsKeepWhatR481Names :
    up.mgmt.porLow = false ∧ up.mgmt.refOff = false ∧ up.mgmt.sysLow = false ∧ up.accepts (.tile 0) 0 = true ∧
    reqMgmt (.tile 0) = true ∧ up.inReset = false ∧ (0xA5C2 : Nat) ≠ 0xA5C3 ∧
    (let s := up.modMgmt fun x => { x with porLow := true, phase := .held }
     s.mgmt.phase = .held ∧ s.mgmt.porLow = true ∧ s.mgmt.refOff = false ∧ s.mgmt.sysLow = false) ∧
    (let s := up.modMgmt fun x => { x with refOff := true, phase := .held }
     s.mgmt.phase = .held ∧ s.mgmt.porLow = false ∧ s.mgmt.refOff = true ∧ s.mgmt.sysLow = false) ∧
    (let s := up.modMgmt fun x => { x with sysLow := true, phase := .held }
     s.mgmt.phase = .held ∧ s.mgmt.porLow = false ∧ s.mgmt.refOff = false ∧ s.mgmt.sysLow = true) ∧
    (let s := up.modMgmt fun x => { x with sysLow := true, porLow := true, phase := .held }
     s.mgmt.phase = .held ∧ s.mgmt.porLow = true ∧ s.mgmt.sysLow = true) := by decide +kernel

/-- An image of 4 bytes (R461) that goes to address 0 of the SRAM, its entry there. -/
def image0 : List Byte := le 4 0x494B4852 ++ le 4 1 ++ le 4 0 ++ le 4 4 ++ zeros 500

theorem wit_RomBootsAsModeSays :
    (State.reset.inReset = false ∧ State.reset.mgmt.phase = .rom ∧ State.reset.life 0 = .reset ∧ State.reset.mgmt.cause < 2 ∧
      State.reset.mgmt.mode = 0) ∧
    (State.reset.modMgmt fun x => { x with mode := 1 }).mgmt.mode = 1 ∧
    (State.reset.modMgmt fun x => { x with mode := 2 }).mgmt.mode = 2 ∧
    (State.reset.modMgmt fun x => { x with phase := .uart 6 6 }).mgmt.phase = .uart 6 6 ∧
    (let s := (((up.modMgmt fun x => { x with phase := .host 1 2, cause := 2 }).wr (Reg.HOST.MBX_W5 0) 0x40000000).wr
       (Reg.HOST.MBX_W4 0) 0x00010000)
     s.mgmt.phase = .host 1 2 ∧ s.live 16 = true ∧ s.live 8 = true ∧ s.rbit (Reg.HOST.MBX_W5 0) 30 = true ∧
      s.rf (Reg.HOST.MBX_W4 0) 31 16 = 1 ∧ 2 ≤ s.mgmt.cause) ∧
    imgHdrOk image0 = true ∧
    (up.modMgmt fun x => { x with cr := some true }).mgmt.cr = some true ∧
    (up.modMgmt fun x => { x with cr := some false }).mgmt.cr = some false := by decide +kernel

theorem wit_WritesGoWhereTheMapSays :
    up.storeUp = true ∧ (0 + 4 ≤ storeEnd) ∧ regionOf 0x1007001000 = .control 7 0x1000 ∧ 0x1007001000 % 4 = 0 ∧
    regionOf 0x1007001002 = .control 7 0x1002 ∧ 0x1007001002 % 4 ≠ 0 ∧ regionOf 0x3000000000 = .rom 0 ∧
    regionOf 0xFFFFFFFFFF = .unmapped ∧ regionOf 0x2070000000 = .loc 7 0 ∧ localHolds 7 0 4 = true ∧
    up.accepts (.tile 0) 7 = true ∧ (inLife 7 .held none).accepts (.tile 16) 7 = false ∧
    (regAt Reg.NEWT.NEWT_SEED).isSome = true ∧ up.accepts (.tile 0) (RegId.tile Reg.NEWT.NEWT_SEED) = true := by decide

theorem wit_HostRequestsAreServed :
    (let s := up.wr Reg.HOST.HOST_STATUS 0x80000000
     s.rbit Reg.HOST.HOST_STATUS 31 = true ∧ s.rbit Reg.HOST.HOST_STATUS 28 = false ∧ s.active 16 = true ∧ s.storeUp = true ∧
      s.bar2Addr 0 + 4 ≤ storeEnd ∧ s.readFault (s.bar2Addr 0) 4 = none ∧
      storeEnd < (s.modHost fun x => { x with barLog := 33 }).bar2Addr 0x1FFFFFFFF + [true, true].length) ∧ (0x11FFFFFC : Nat) % 4 = 0 ∧ 0x11FFFFFC < 0x12000000 ∧
    ¬(up.rbit Reg.HOST.HOST_STATUS 31 = true) := by decide +kernel

theorem wit_PoolCommandsPostResults :
    up.accepts (.tile 0) 8 = true ∧ up.pathFree Reg.STORE.POOL_RESULT = true ∧ ((up.wr (Reg.STORE.POOL_W1 0) 4).wr (Reg.STORE.POOL_W0 0) 1).initRefusal 0 = none ∧
    (poolUp.modStore fun x => { x with pools := [(0, { out := 1 })] }).initRefusal 0 ≠ none ∧ (up.pool 0).out = 0 ∧
    ((poolUp.modStore fun x => { x with pools := [(0, { out := 1 })] }).pool 0).out ≠ 0 ∧
    (up.wr Reg.STORE.POOL_RESULT 0x40000000).pathFree Reg.STORE.POOL_RESULT = false ∧
    ((up.wr Reg.STORE.POOL_RESULT 0x80000007).rbit Reg.STORE.POOL_RESULT 31 = true ∧
      (up.wr Reg.STORE.POOL_RESULT 0x80000007).pathTag Reg.STORE.POOL_RESULT 0 = 7) ∧
    (let s := poolUp.modStore fun x => { x with initPool := some 0 }
     s.store.initPool = some 0 ∧ s.storeUp = true ∧ s.poolSize 0 ≠ 0) := by decide +kernel

theorem wit_AllocatorCommandsComplete :
    (poolUp.poolEn 0 = true ∧ poolUp.store.retired = [] ∧ popRun (poolUp.pool 0).list = some (0, [(1, 3)]) ∧ poolUp.poolFree 0 ≠ 0) ∧
    (up.pool 0).list = [] ∧
    (let s := poolUp.modStore fun x => { x with free := [] }
     s.poolAt 3 = some 0 ∧ s.poolDesc 0 = false ∧ segMem s.store.free (4 * 3) = false ∧ s.poolFree 0 + 1 < 2 ^ 26) ∧
    (poolUp.poolAt 4 = none ∧ segMem poolUp.store.free (4 * 3) = true ∧ (1 : Nat) ≠ 0) ∧
    ([0, 1, 2, 12, 13, 14].contains 14 = true) ∧
    (let s := { poolUp with store := { poolUp.store with retired := [(0, true)], mbReq := [(0, some (0, 5))] } }
     s.rf (Reg.STORE.POOL_W2 0) 23 12 * 256 < s.poolFree 0 ∧ (s.allocUnit 0).2 = none ∧
      tget (fun _ => none) s.store.mbReq 0 ≠ none) ∧
    (poolUp.accepts (.tile 0) 8 = true ∧ poolUp.storeUp = true ∧ (poolUp.allocUnit 0).2 = some 0 ∧ (up.allocUnit 0).2 = none) ∧
    (up.rbit (Reg.STORE.MB_RES 191) 31 = false ∧ tget (fun _ => none) up.store.mbReq 191 = none) ∧
    ((up.wr (Reg.STORE.MB_RES 191) 0x98000000).rbit (Reg.STORE.MB_RES 191) 31 = true ∧
      (up.wr (Reg.STORE.MB_RES 191) 0x98000000).rf (Reg.STORE.MB_RES 191) 30 27 = 3) ∧
    (let s := poolUp.modStore fun x => { x with mbReq := [(0, some (0, 5))] }
     tget (fun _ => none) s.store.mbReq 0 = some (0, 5) ∧ s.rf (Reg.STORE.POOL_W2 0) 23 12 * 256 < s.poolFree 0 ∧
      (s.allocUnit 0).2 = some 0 ∧ (s.wr (Reg.STORE.POOL_W3 0) 0).poolFree 0 ≤ s.rf (Reg.STORE.POOL_W2 0) 23 12 * 256) := by decide +kernel

theorem wit_StoreWritesAndScrubbing :
    (let s := up.wr Reg.STORE.SCRUB_CTL 0x80000000
     s.storeUp = true ∧ s.rbit Reg.STORE.SCRUB_CTL 31 = true ∧ s.scrubDue = true ∧
      (s.modStore fun x => { x with passAt := some 0 }).scrubDue = false ∧ (s.askToken kSCRUB 8).holds kSCRUB 8 = true ∧
      (s.askToken kSCRUB 8).scrubBegin.rf Reg.STORE.SCRUB_STATUS 15 0 + 1 ≠ 8192 ∧
      (s.wr Reg.STORE.SCRUB_STATUS 8191).scrubDue = true ∧
      ((s.wr Reg.STORE.SCRUB_STATUS 8191).askToken kSCRUB 8).scrubBegin.rf Reg.STORE.SCRUB_STATUS 15 0 + 1 = 8192 ∧
      ((holding s kUPDATE 8).askToken kSCRUB 8).holds kSCRUB 8 = false) ∧
    storeEnd - 1 + [(0 : Byte)].length ≤ storeEnd ∧ storeEnd < storeEnd + [(0 : Byte)].length := by decide +kernel

/-! Witnesses: the DRAM channels and the radios' RF commands. -/

/-- The state with DRAM channel 0 as given. -/
def withChan (x : Chan) : State := up.setChan 0 x
/-- A read of 32 bytes at the store's first address. -/
def read0 : StReq := { port := 0, addr := 0, len := 32, arrived := 0, seq := 0 }
/-- The last channel's token of a kind held. -/
def chanToken (kind : Nat) (x : Chan) : State := (holding up kind 18).setChan 0 x

theorem wit_StoreRequestsAreServed :
    (up.storeUp = true ∧ (32#9) ≠ 0 ∧ (storeEnd - 32) + (32#9).toNat ≤ storeEnd ∧
      ((up.chan (up.chOf (storeEnd - 32))).queue ++ (up.chan (up.chOf (storeEnd - 32))).waiting).all (fun r => r.data.isNone) = true) ∧
    storeEnd < (storeEnd - 31) + (32#9).toNat ∧ (inLife 8 .held none).storeUp = false ∧
    (∀ q ∈ ((withChan { waiting := [read0] }).chan 0).waiting, q.port < 18) ∧ up.inflight 0 ≤ clampN 1 64 (up.rf (Reg.STORE.PORT_LAT 0) 23 16) ∧
    ((withChan { paused := true }).chan 0).paused = true ∧ ((up.chan 0).paused = false ∧ (up.chan 0).queue = []) ∧
    (let s := withChan { queue := [read0] }
     (s.chan 0).queue = [read0] ∧ s.issuable 0 (s.chan 0) read0 = true) ∧
    (let s := withChan { queue := [read0], rows := [(up.bankOf 0, some (rowOf 0, 1))] }
     (s.chan 0).row (s.bankOf read0.addr) = some (rowOf read0.addr, 1)) ∧
    ((withChan { issued := [read0] }).chan 0).issued = [read0] ∧ (up.chan 0).issued = [] := by decide

theorem wit_RefreshKeepsRows :
    (up.storeUp = true ∧ (up.wr Reg.STORE.DRAM_CTL 0).rbit Reg.STORE.DRAM_CTL 30 = false) ∧
    (let s := ((withChan { queue := [{ read0 with arrived := 0 }] }).wr Reg.STORE.DRAM_CTL 0x40000000)
     let s := { s with clock := 10000000 }
     s.storeUp = true ∧ s.rbit Reg.STORE.DRAM_CTL 30 = true ∧ s.urgentBank (s.chan 0) (s.bankOf 0) = true) ∧
    (let s := chanToken kNR { nrPend := [(0, 5)] }
     (s.chan 0).nrPend.find? (fun r => r.1 = 0) = some (0, 5) ∧ (s.chan 0).paused = false ∧ s.rtAged 0 = false ∧
      s.holds kNR 18 = true ∧ (s.chan 0).nrNow.any (fun r => r.1 = 0) = false) ∧
    (up.mr4Due 7 = false ∧ ({ up with clock := 8000000 } : State).mr4Due 7 = true ∧ up.actDue = false ∧
      ({ up with clock := 16000000 } : State).actDue = true) ∧
    ((withChan { nrNow := [(15, 5)] }).chan 0).nrNow.find? (fun r => r.1 = 15) = some (15, 5) := by decide +kernel

theorem wit_RetrainingPausesOneChannel :
    (let s := up.wr Reg.STORE.RETRAIN_CTL 0x80010200
     s.storeUp = true ∧ s.rbit Reg.STORE.RETRAIN_CTL 31 = true ∧ s.rf Reg.STORE.RETRAIN_CTL 23 16 ≠ 0 ∧
      (s.chan s.store.rtNext).rtAt + 500000 ≤ ({ s with clock := 500000 } : State).clock ∧
      s.clock < (s.chan s.store.rtNext).rtAt + s.rf Reg.STORE.RETRAIN_CTL 23 16 * 500000 ∧
      max 1 (s.rf Reg.STORE.RETRAIN_CTL 15 8) ≤ (-2 : BitVec 16).toInt.natAbs ∧
      (1 : BitVec 16).toInt.natAbs < max 1 (s.rf Reg.STORE.RETRAIN_CTL 15 8)) ∧
    (let s : State := { up with tokenReqs := [{ kind := kRETRAIN, scope := 18, holder := .unit }], clock := 10 ^ 9 }
     ∃ q ∈ s.tokenReqs, s.tokenOld q = true ∧ q.kind = kRETRAIN ∧ q.scope = 18 + 0 ∧ q.holder = .unit) ∧
    (let s := chanToken kRETRAIN {}
     (s.chan 0).paused = false ∧ s.holds kRETRAIN 18 = true ∧ (s.chan 0).nrNow = [] ∧ ∀ d, d < 8 → (s.chan d).paused = false) ∧
    (let s := withChan { paused := true, rtFails := 6 }
     (s.chan 0).paused = true ∧ (s.chan 0).rtFails < 7) ∧
    (let s := withChan { paused := true, rtFails := 7 }
     (s.chan 0).paused = true ∧ 7 ≤ (s.chan 0).rtFails) ∧
    (let s := withChan { rtRetry := true, failAt := 5 }
     (s.chan 0).rtRetry = true ∧ s.clock < (s.chan 0).failAt + 500000 ∧
      (s.chan 0).failAt + 500000 ≤ ({ s with clock := 500005 } : State).clock) := by decide +kernel

theorem wit_RepairCommandsPostResults :
    (up.accepts (.tile 0) 8 = true ∧ up.pathFree Reg.STORE.REPAIR_RESULT = true ∧ up.repairPage < 3866624 ∧
      up.life 8 = (if up.rbit Reg.STORE.REPAIR_ARG 31 then Life.held else Life.ready) ∧
      up.store.soft.contains (16 * up.chOf (2048 * up.repairPage) + up.bankOf (2048 * up.repairPage)) = false) ∧
    3866624 ≤ (up.wr Reg.STORE.REPAIR_ARG 3866624).repairPage ∧
    up.life 8 ≠ (if (up.wr Reg.STORE.REPAIR_ARG 0x80000000).rbit Reg.STORE.REPAIR_ARG 31 then Life.held else Life.ready) ∧
    (let s := up.wr Reg.STORE.REPAIR_RESULT 0x80000009
     s.rbit Reg.STORE.REPAIR_RESULT 31 = true ∧ s.pathTag Reg.STORE.REPAIR_RESULT 0 = 9) ∧
    (let s := (holding up kSUBST 18).modStore fun x => { x with ppr := some ⟨0, false, 9⟩ }
     s.store.ppr = some ⟨0, false, 9⟩ ∧ s.holds kSUBST (18 + s.chOf (2048 * 0)) = true) ∧
    (reqMgmt (.tile 0) = true ∧ (inLife 8 .held none).life 8 = .held) := by decide

/-- A state with radio 0's hidden state as given. -/
def withRadio (s : State) (x : Radio) : State := s.modRadio 0 fun _ => x
/-- Radio 0 asked for channel 42 (primary 36, 80 MHz, 5 GHz), its eight chains ACTIVE. -/
def chan42 : State := (up.wr (Reg.RADIO.RF_CHAN 0) 0x09002A24).setChains 0 255 0
/-- The same, tuned there and locked. -/
def tuned42 : State := chan42.wr (Reg.RADIO.RF_TUNED 0) 0x89002A24

theorem wit_RfCommandsStartOrRefuse :
    (up.accepts (.tile 0) (rTile 0) = true ∧ up.pathFree (Reg.RADIO.RF_RESULT 0) = true ∧ up.life (rTile 0) = .ready ∧
      chanOk (up.rd (Reg.RADIO.RF_CHAN 0)) = false ∧ up.active (rTile 0) = true ∧ up.life (rTile 0) ≠ .held) ∧
    ((inLife 2 .draining (some 6)).life (rTile 0) ≠ .ready ∧ (inLife 2 .draining (some 6)).life (rTile 0) ≠ .held ∧
      (inLife 2 .draining (some 6)).accepts (.tile 0) (rTile 0) = true) ∧
    (chanOk (chan42.rd (Reg.RADIO.RF_CHAN 0)) = true ∧ chan42.activeMask 0 ≠ 0 ∧ (chan42.setChains 0 255 3).activeMask 0 = 0 ∧
      fld (chan42.rd (Reg.RADIO.RF_TUNED 0)) 28 0 = 0) ∧
    (let s := chan42.wr (Reg.RADIO.RF_TUNED 0) 0x80000101
     fld (s.rd (Reg.RADIO.RF_TUNED 0)) 28 0 ≠ 0 ∧ fld (s.rd (Reg.RADIO.RF_TUNED 0)) 25 24 ≠ fld (s.rd (Reg.RADIO.RF_CHAN 0)) 25 24) ∧
    (fld (tuned42.rd (Reg.RADIO.RF_TUNED 0)) 25 24 = fld (tuned42.rd (Reg.RADIO.RF_CHAN 0)) 25 24 ∧
      fld (tuned42.rd (Reg.RADIO.RF_TUNED 0)) 28 0 ≠ 0) ∧
    (inLife 2 .held none).life (rTile 0) = .held ∧ (7#8).toNat ≤ 7 ∧ 7 < (8#8).toNat ∧
    (let s := (chan42.setChains 0 128 1).wr (Reg.RADIO.RF_BOARD 0) 0xFF00
     s.chain 0 7 = 1 ∧ (s.rf (Reg.RADIO.RF_BOARD 0) 15 8).testBit 7 = true) ∧ chan42.chain 0 7 ≠ 1 ∧
    ((0#8).toNat = 0 ∧ 5 < (6#8).toNat) ∧ (up.wr (Reg.RADIO.RF_RESULT 0) 0x40000000).pathFree (Reg.RADIO.RF_RESULT 0) = false ∧
    (let s := up.wr (Reg.RADIO.RF_RESULT 0) 0x80070000
     s.rbit (Reg.RADIO.RF_RESULT 0) 31 = true ∧ s.pathTag (Reg.RADIO.RF_RESULT 0) 16 = 7) := by decide +kernel

theorem wit_RfCommandsEnd :
    (let s := withRadio up { rf := .tuning true, bandChange := false }
     (s.radio 0).rf = .tuning true ∧ (s.radio 0).bandChange = false ∧ s.live (rTile 0) = true ∧
      (s.radio 0).tryAt + 40000 ≤ ({ s with clock := 40000 } : State).clock ∧ s.clock < (s.radio 0).tryAt + 40000) ∧
    (let s := withRadio up { rf := .tuning false, bandChange := true }
     (s.radio 0).rf = .tuning false ∧ (s.radio 0).bandChange = true ∧ s.life (rTile 0) ≠ .fault) ∧
    (((withRadio up { relock := 1 }).radio 0).rf = .idle ∧ ((withRadio up { relock := 1 }).radio 0).relock = 1 ∧
      ((withRadio up { relock := 2 }).radio 0).relock = 2) ∧
    (((withRadio up { rf := .bandCal }).radio 0).rf = .bandCal ∧ ((withRadio up { rf := .calAll }).radio 0).rf = .calAll ∧
      ((withRadio up { rf := .calAll }).wr (Reg.RADIO.RF_CAL_CTL 0) 0x40000000).rbit (Reg.RADIO.RF_CAL_CTL 0) (26 + 4) = true) ∧
    (let s := (withRadio (up.wr (Reg.RADIO.RF_BOARD 0) 0x8000) { rf := .femScan }).setChains 0 128 1
     (s.radio 0).rf = .femScan ∧ (s.radio 0).rffe = none ∧ s.pollBefore 0 (s.radio 0).rfStart = false ∧
      (s.rf (Reg.RADIO.RF_BOARD 0) 15 8).testBit 7 = true ∧ s.chain 0 7 ≠ 0 ∧ (s.femDesc 0 7).1 = 0 ∧
      (let t := s.wr (Reg.RADIO.FEM_DESC 0 7) 0xF0000000
       (t.femDesc 0 7).1 ≠ 0 ∧ ([none, none].getD (t.femDesc 0 7).1 none).map (fun i : BitVec 8 × BitVec 10 => (i.1.toNat, i.2.toNat)) ≠
        some (t.femDesc 0 7).2)) ∧
    (tuned42.locked 0 = true ∧ tuned42.active (rTile 0) = true) := by decide +kernel

theorem wit_RffeTransactionsComplete :
    (up.accepts (.tile 0) (rTile 0) = true ∧ up.pathFree (Reg.RADIO.RFFE_RESULT 0) = true ∧ 5 ≤ (5#4).toNat) ∧
    (let s := withRadio up { rffe := some ⟨3, 1, 2, 0⟩ }
     (s.radio 0).rffe = some ⟨3, 1, 2, 0⟩ ∧ (s.radio 0).rf = .idle ∧ s.pollBefore 0 (s.radio 0).rffeAt = false) ∧
    (let s := withRadio up { rffe := some ⟨0, 1, 2, 0⟩, rf := .femScan }
     (s.radio 0).rffe = some ⟨0, 1, 2, 0⟩ ∧ ¬ ((s.radio 0).rf = .femScan ∧ (s.radio 0).rfStart < (s.radio 0).rffeAt)) ∧
    (let s := up.wr (Reg.RADIO.RFFE_RESULT 0) 0x80000700
     s.rbit (Reg.RADIO.RFFE_RESULT 0) 31 = true ∧ s.pathTag (Reg.RADIO.RFFE_RESULT 0) 8 = 7) ∧
    (let s : State := { chan42 with clock := 50000000 }
     s.active (rTile 0) = true ∧ (s.radio 0).pollAt + 50000000 ≤ s.clock ∧ (s.radio 0).rffe = none ∧ (s.radio 0).rf ≠ .femScan ∧
      (∀ k, k < 16 → tget (fun _ => 0) (s.radio 0).misses k < 2) ∧
      ((List.range 8).filter fun c => s.chain 0 c = 0 && (s.femDesc 0 c).1 = 0) ≠ [] ∧
      ((List.range 8).filter fun c => s.chain 0 c = 0 && (s.femDesc 0 c).1 = 15) = []) ∧
    (let s := chan42.modRadio 0 fun x => { x with misses := [(0, 2)] }
     2 ≤ tget (fun _ => 0) (s.radio 0).misses 0 ∧ s.ppduInProgress 0 = false ∧ (s.radio 0).lostPend = 0 ∧ (s.radio 0).offPend = 0 ∧
      (s.radio 0).tpRst = 0 ∧ s.chain 0 7 = 0 ∧ (s.femDesc 0 7).1 = 0) := by decide +kernel

/-- Radio 0 tuned, its sequencer running in a step with the words given. -/
def inStep (w0 w3 began : Nat) (x : Radio) : State :=
  (tuned42.wr (Reg.RADIO.SEQ_STATUS 0) 0x80000000).modRadio 0 fun _ => { x with step := { w0 := w0, w3 := w3, began := began } }

theorem wit_CalibrationAndGainSteps :
    (let s := ((inStep 0x100000 0 0 { rounds := 1, captured := 128 }).wr (Reg.RADIO.RF_CAL_CTL 0) 0x84000000).askToken kDPD (rTile 0)
     s.life (rTile 0) = .ready ∧ s.calEnabled 0 0 = true ∧ (s.radio 0).rounds.testBit 0 = true ∧ (s.radio 0).slice = none ∧
      s.radioIdle 0 = true ∧ (s.act 0).testBit 20 = true ∧ s.chain 0 7 = 0 ∧ s.tuning 0 = false ∧
      s.holds (calToken 0) (rTile 0) = true ∧ (s.radio 0).captured.testBit 7 = true ∧ (s.dpdOf 0 7).reverted = false) ∧
    (let s : State := { (withRadio tuned42 {}).wr (Reg.RADIO.RF_CAL_CTL 0) 0x88000100 with clock := 500000000000 }
     s.life (rTile 0) = .ready ∧ s.calEnabled 0 1 = true ∧ s.calDue 0 1 = true ∧ (s.radio 0).rounds.testBit 1 = false) ∧
    ((withRadio up { slice := some (4, 7) }).radio 0).slice = some (4, 7) ∧
    (2 ≤ tget (fun _ => 0) ((withRadio up { calFails := [(0, 2)] }).radio 0).calFails 0 ∧ tget (fun _ => 0) (up.radio 0).calFails 0 < 2) ∧
    up.accepts (.tile 0) (rTile 0) = true ∧
    fld (up.rd (Reg.RADIO.RF_CAL_CTL 0)) 25 21 ≠ fld (0x00200000 : Word) 25 21 ∧
    (let s := inStep 0xFF00 0 0 {}
     s.live (rTile 0) = true ∧ (s.radio 0).agc = 0 ∧ (s.act 0).testBit 19 = false ∧ (s.rxen 0).testBit 7 = true ∧
      (let s := s.wf (Reg.RADIO.CHAIN_STATUS 0 7) 15 8 78
       (s.gainLimits 0).1 ≤ s.rf (Reg.RADIO.CHAIN_STATUS 0 7) 15 8 ∧ s.rf (Reg.RADIO.CHAIN_STATUS 0 7) 15 8 ≤ (s.gainLimits 0).2)) := by
  decide +kernel

/-! Witnesses: the sequencer, transmission and reception. -/

theorem wit_SequencerRegistersAct :
    (up.accepts (.tile 0) (rTile 0) = true ∧ up.seqRunning 0 = false ∧ up.live (rTile 0) = true ∧ bit (0xC0000005 : Word) 31 = true ∧
      up.pathFree (Reg.RADIO.SEQ_RESULT 0) = true) ∧
    (let s := inStep 0 0 0 {}
     s.seqRunning 0 = true ∧ bit (0x40000000 : Word) 31 = false ∧ s.pathFree (Reg.RADIO.SEQ_RESULT 0) = true) ∧
    (up.wr (Reg.RADIO.SEQ_RESULT 0) 0x40000000).pathFree (Reg.RADIO.SEQ_RESULT 0) = false ∧
    (let s := up.wr (Reg.RADIO.SEQ_RESULT 0) 0x80070000
     s.rbit (Reg.RADIO.SEQ_RESULT 0) 31 = true ∧ s.pathTag (Reg.RADIO.SEQ_RESULT 0) 16 = 7) ∧
    (reqMgmt (.tile 0) = true ∧ bit (8 : Word) 3 = true ∧ (up.thread (threadKey (rTile 0) 0 3)).run = .stopped) := by decide

theorem wit_SequencerStepsFollowTheirWords :
    (let s := inStep 0 0 0 { next := some (1023, 0) }
     s.seqRunning 0 = true ∧ (s.radio 0).next = some (1023, 0) ∧ 0 ≤ s.tick ∧ s.swapDue 0 = false ∧
      nbits (s.rm (stepAddr 0 (s.bank 0) 1023 + 12) 4) 30 29 ≠ 3 ∧
      nbits ((s.wm (stepAddr 0 (s.bank 0) 1023 + 12) 4 0x60000000).rm (stepAddr 0 (s.bank 0) 1023 + 12) 4) 30 29 = 3) ∧
    (let s := (inStep 0 0x80000000 0 { next := some (0, 0), swap := some 9 }).askToken kSEQSW (rTile 0)
     (s.radio 0).swap = some 9 ∧ (s.radio 0).next = some (0, 0) ∧ s.swapDue 0 = true) ∧
    (let s := inStep 0 (0x20000000 + 13 * 0x400000 + 4) 1 { latchAt := [(13, [5, 2])] }
     (s.radio 0).step.event = 13 ∧ (5 ∈ tget (fun _ => []) (s.radio 0).latchAt 13) ∧ s.latchTick 0 = some 2 ∧ (s.radio 0).next = none ∧
      (s.radio 0).step.kind = 1 ∧ (2 : Nat) < (s.radio 0).step.began + (s.radio 0).step.duration) ∧
    (let s := inStep 0 (0x20000000 + 13 * 0x400000) 0 { latchAt := [(13, [0])] }
     s.latchTick 0 = some 0 ∧ (s.radio 0).step.duration = 0 ∧ ((inStep 0 (14 * 0x400000) 0 {}).radio 0).step.event = 14 ∧
      ((inStep 0 0 0 {}).radio 0).step.event = 0) ∧
    (let s : State := { inStep 0 2 0 {} with clock := 2 }
     (s.radio 0).next = none ∧ (s.radio 0).step.kind = 0 ∧ (s.radio 0).step.began + max 1 (s.radio 0).step.duration ≤ s.tick) ∧
    (let s : State := { inStep 0 (0x20000000 + 13 * 0x400000 + 2) 0 { latchAt := [(13, [1])] } with clock := 2 }
     (s.radio 0).step.kind = 1 ∧ s.latchTick 0 = some 1 ∧ (s.radio 0).step.duration ≠ 0 ∧
      (s.radio 0).step.began + (s.radio 0).step.duration ≤ 1 ∧ (s.radio 0).step.began + (s.radio 0).step.duration ≤ s.tick) ∧
    ((inStep 0 0x40000000 0 {}).radio 0).step.kind = 2 ∧
    (let s := inStep 0 (0x20000000 + 11 * 0x400000) 0 { anchor := 1 }
     (s.radio 0).step.kind = 1 ∧ (s.radio 0).step.event = evANCHOR ∧ (s.radio 0).step.began < s.anchorTick 0 ∧
      s.anchorTick 0 ≤ s.tick + 1) := by decide +kernel

/-- A command of one byte for EDCA queue 0. -/
def cmd0 : TxCmd := { words := [0, 0, 0, 0x100, 0, 0, 0, 0] }
/-- A transmission of that command on the air. -/
def txNow0 : TxNow := { queue := 0, cmd := cmd0, first := 0, stamp := 0 }
/-- A transmission of a multi-user command with ACK 2, which ends with a trigger of its own (R232). -/
def mu2 : TxNow := { txNow0 with cmd := { cmd0 with tvec := [0x80000100, 0x8000, 0, 0, 0, 0, 0, 0, 5, 0] } }

theorem wit_TransmitCommandsQueue :
    (up.accepts (.tile 0) (rTile 0) = true ∧ pushBad ((List.range 8).map fun k => (up.rd (Reg.RADIO.TXQ_CMD 0 k)).toNat) = true) ∧
    (let s := up.wr (Reg.RADIO.TXQ_CMD 0 3) 0x100
     pushBad ((List.range 8).map fun k => (s.rd (Reg.RADIO.TXQ_CMD 0 k)).toNat) = false ∧ (s.txq 0 0).length + s.txqOut 0 0 < 8 ∧
      8 ≤ ((s.setTxq 0 0 (List.replicate 8 cmd0)).txq 0 0).length + s.txqOut 0 0) ∧
    (let s := (up.wr (Reg.RADIO.TXC_WR 0) 1).wm (up.txcAddr 0 0) 4 0x80000700
     s.rf (Reg.RADIO.TXC_RD 0) 9 0 ≠ s.rf (Reg.RADIO.TXC_WR 0) 9 0 ∧ (s.rm (s.txcAddr 0 0) 4).testBit 31 = true ∧
      nbits (s.rm (s.txcAddr 0 0) 4) 15 8 = 7) ∧
    (let c : TxCmd := { words := [0x40000000, 0, 0, 0x100, 1604, 0, 0, 0], fetched := 1 }
     let s := up.setTxq 0 4 [c]
     s.txq 0 4 = c :: [] ∧ c.word 0 / 2 ^ 30 = 1 ∧ c.due = none ∧ s.dozing 0 = false ∧ s.dutyFull 0 = false ∧
      c.word 4 + 2 ^ 32 * c.word 5 ≤ s.ns + 1604) ∧
    (let c : TxCmd := { cmd0 with due := some 0, fetched := 1 }
     let s := tuned42.setTxq 0 4 [c]
     s.dueQueue 0 = some 4 ∧ s.txq 0 4 = c :: [] ∧ (s.radio 0).tx = none ∧ (s.radio 0).resp.phase = .none ∧
      (s.radio 0).selected = none ∧ s.locked 0 = true ∧ s.tuning 0 = false ∧ (s.radio 0).slice = none ∧ s.life (rTile 0) = .ready ∧
      s.dozing 0 = false ∧ s.heldBack 0 4 c = false ∧ s.storeUp = true ∧ s.txcFull 0 = false ∧ c.stalled = false ∧
      (s.wr (Reg.RADIO.TXC_WR 0) 15).txcFull 0 = true) ∧
    (let c : TxCmd := { words := [0, 0, 0, 0x100, 0, 0, 1, 0], due := some 0, fetched := 1 }
     let s : State := { up.setTxq 0 0 [c] with clock := 2 }
     s.txq 0 0 = c :: [] ∧ c.due = some 0 ∧ c.word 6 ≠ 0 ∧ 0 * 25 + c.word 6 * 8 ≤ s.tick * 25) := by decide +kernel

theorem wit_TransmissionsAndResponsesEnd :
    (((withRadio up { tx := some txNow0 }).radio 0).tx = some txNow0 ∧ txNow0.onAir = true) ∧
    (({ txNow0 with stage := .rts } : TxNow).stage = .rts ∧ ({ txNow0 with stage := .ctsSelf } : TxNow).stage = .ctsSelf ∧
      txNow0.stage = .ppdu 0) ∧
    (let t : TxNow := { txNow0 with cmd := { cmd0 with tvec := [0x84000100, 0, 0, 0, 0, 0, 0, 0, 5, 0] } }
     up.opensTb 0 t = some [5] ∧ up.opensTb 0 txNow0 = none ∧ 0 + 1 < up.ppdusOf 0 mu2.cmd ∧ up.opensTb 0 mu2 = none ∧
      up.ppdusOf 0 txNow0.cmd ≤ 0 + 1 ∧ up.ackOf 0 txNow0 = 0 ∧
      up.ackOf 0 { txNow0 with cmd := { cmd0 with tvec := [0, 0x1000] } } ≠ 0) ∧
    (let x := (withRadio up { resp := { phase := .sending } }).radio 0
     x.tx = none ∧ x.resp.phase = .sending ∧ x.resp.kind ≠ .tb ∧ ((withRadio up { resp := { kind := .tb } }).radio 0).resp.kind = .tb) ∧
    ((withRadio up { resp := { phase := .prepared } }).radio 0).resp.phase = .prepared ∧
    (let s : State := { withRadio tuned42 { resp := { phase := .ready, armed := true, offset := 512, window := 100 } } with clock := 100 }
     (s.radio 0).resp.phase = .ready ∧ (s.radio 0).resp.armed = true ∧ s.locked 0 = true ∧ s.tuning 0 = false ∧ s.launchAt 0 ≤ s.tick ∧
      s.launchAt 0 ≤ s.lastLaunch 0 ∧ s.tick ≤ s.lastLaunch 0 ∧ s.live (rTile 0) = true ∧ (s.radio 0).resp.kind = .ack) ∧
    (let s := (withRadio tuned42 { resp := { kind := .towpath 15 true } }).wr (Reg.RADIO.TP_CTL 0) 0x80000007
     (s.radio 0).resp.kind = .towpath 15 true ∧ s.tpOn 0 = true) ∧
    (let s : State := { withRadio up { resp := { phase := .prepared, offset := 512, window := 0 } } with clock := 2 }
     (s.radio 0).resp.phase = .prepared ∧ s.lastLaunch 0 < s.tick) ∧
    (let s : State := { withRadio up { resp := { phase := .ready, offset := 512, window := 0, readyAt := 9 } } with clock := 100 }
     (s.radio 0).resp.phase = .ready ∧ s.lastLaunch 0 < s.launchAt 0 ∧ s.launchAt 0 ≤ s.tick ∧ s.locked 0 = false) := by decide +kernel

theorem wit_ReceptionQualifiesInStages :
    (let s := inStep 0x2FF00 0 0 {}
     (s.act 0).testBit 17 = true ∧ (s.radio 0).rx.phase = .idle ∧ s.blanked 0 = false ∧ s.tbOpen 0 = false ∧
      (s.participating 0).testBit 7 = true ∧ min (-40) (sval 8 (s.rf (Reg.RADIO.RX_DET_CTL 0) 31 24)) ≤ sval 8 (0xD8 : Byte).toNat) ∧
    (let x := (inStep 0x2FF00 0 0 {}).radio 0
     let s := (((((inStep 0x2FF00 0 0 {}).wr (Reg.RADIO.RF_PLACE 0) 8).setChains 1 255 0).wr (Reg.RADIO.RF_TUNED 1) 0x89002A24).wr
       (Reg.RADIO.SEQ_STATUS 1) 0x80000000).modRadio 1 fun _ => { x with step := { w0 := 255 } }
     s.blanked 0 = true ∧ (s.act 0).testBit 17 = true ∧ (s.radio 0).rx.phase = .idle ∧ (s.participating 0).testBit 7 = true) ∧
    ((withRadio up { mac := { tb := some (0, [5], false) } }).tbOpen 0 = true) ∧
    (let s : State := { withRadio tuned42 { rx := { phase := .stage1 } } with clock := 2000 }
     (s.radio 0).rx.phase = .stage1 ∧ s.tick ≤ (s.radio 0).rx.edAt + qualTicks ∧ (s.radio 0).gainAt + 512 ≤ s.tick ∧
      max 1 (s.rf (Reg.RADIO.RX_DET_CTL 0) 23 16) ≤ (511#9).toNat ∧ (0#4).toNat = s.primaryIdx 0 ∧
      (s.radio 0).rx.edAt + qualTicks ≤ ({ s with clock := 10000 } : State).tick) ∧
    (let s := withRadio up { rx := { phase := .stage2 } }
     (s.radio 0).rx.phase = .stage2 ∧ s.tick ≤ (s.radio 0).rx.s1At + qualTicks ∧
      max 1 (s.rf (Reg.RADIO.RX_DET_CTL 0) 15 8) ≤ (511#9).toNat ∧ (3000#16).toInt ≤ 3000 ∧ -3000 ≤ (-3000 : BitVec 16).toInt ∧
      (s.radio 0).rx.s1At + qualTicks ≤ ({ s with clock := 10000 } : State).tick) ∧
    (let s := (withRadio up { rx := { phase := .stage1 } }).wr (Reg.RADIO.RX_FORMAT_EN 0) 1
     (s.radio 0).rx.phase = .stage1 ∧ s.band 0 = 0 ∧ s.rbit (Reg.RADIO.RX_FORMAT_EN 0) 0 = true) ∧
    (let s : State := { withRadio up { rx := { phase := .dsss } } with clock := 144000 }
     (s.radio 0).rx.phase = .dsss ∧ (s.radio 0).rx.sig = none ∧ (s.radio 0).rx.edAt + (if true then 23040 else 46080) ≤ s.tick ∧
      (s.radio 0).rx.edAt + (if false then 23040 else 46080) ≤ s.tick) ∧
    (((withRadio up { rx := { phase := .lsig } }).radio 0).rx.phase = .lsig ∧ lsigUs 0 = none ∧ (lsigUs 0x8B).isSome = true) ∧
    (let s := (withRadio up { rx := { phase := .sig } }).wr (Reg.RADIO.RX_FORMAT_EN 0) 8
     (s.radio 0).rx.phase = .sig ∧ s.rxFormatOn 0 3 = true ∧ s.rxFormatOn 0 2 = false) ∧
    ((up.radio 0).rx.phase = .idle ∧ (up.radio 0).cutRx = none ∧
      (let s := withRadio up { rx := { phase := .data } }
       (s.radio 0).rx.phase ≠ .idle ∧ (s.radio 0).rx.edAt ≤ s.tick)) := by decide +kernel

theorem wit_ReceptionEndsAndIsDecided :
    (let s := (withRadio up { rx := { phase := .lsig, ref := some (-70) } }).wr (Reg.RADIO.RX_RESTART_CTL 0) 0x80000006
     (s.radio 0).rx.phase ≠ .idle ∧ (s.radio 0).rx.edAt ≤ s.tick ∧ (s.radio 0).rx.ref = some (-70) ∧
      s.rbit (Reg.RADIO.RX_RESTART_CTL 0) 31 = true ∧
      (-70 : Int) + (clampN 4 20 (s.rf (Reg.RADIO.RX_RESTART_CTL 0) 4 0) : Nat) ≤ -64 ∧ (s.rxAbort 0 8).blanked 0 = false) ∧
    (let x := (inStep 0x2FF00 0 0 {}).radio 0
     let s := (((((inStep 0x2FF00 0 0 { rx := { phase := .lsig } }).wr (Reg.RADIO.RF_PLACE 0) 8).setChains 1 255 0).wr
       (Reg.RADIO.RF_TUNED 1) 0x89002A24).wr (Reg.RADIO.SEQ_STATUS 1) 0x80000000).modRadio 1 fun _ => { x with step := { w0 := 255 } }
     (s.rxAbort 0 8).blanked 0 = true) ∧
    (let x := ((withRadio up { rx := { phase := .data } }).radio 0).rx
     x.phase = .data ∧ x.endAt ≤ up.tick ∧ x.tp = none ∧ x.sig = none) ∧
    (let d : Rx := { phase := .data }
     let s : State := { withRadio up { done := some d } with clock := 4000 }
     (s.radio 0).done = some d ∧ d.ended = false ∧ d.closed = false ∧ d.endAt + 160 ≤ s.tick ∧ d.endAt + 1280 ≤ s.tick) ∧
    (let d : Rx := { phase := .data, ended := true }
     let s := withRadio up { done := some d }
     (s.radio 0).done = some d ∧ d.ended = true ∧ d.resp = none ∧ (s.mac 0).await = none ∧ d.isTb = false) ∧
    ((withRadio up { rx := { phase := .data } }).cwRx 0).isSome = true ∧
    (let s : State := { up.wr (Reg.RADIO.RX_DEC_CTL 0) 0x10000 with clock := 500000 }
     laneFrom (s.rf (Reg.RADIO.RX_LANES 0) 12 0) (s.radio 0).laneTurn = some 0 ∧ s.rf (Reg.RADIO.RX_DEC_CTL 0) 23 16 ≠ 0 ∧
      s.live (rTile 0) = true ∧ s.cwRx 0 = none ∧
      tget (fun _ => 0) (s.radio 0).laneAt 0 + s.rf (Reg.RADIO.RX_DEC_CTL 0) 23 16 * 500000 ≤ s.clock ∧
      tget (fun _ => 0) (s.radio 0).laneFails 0 + 1 < 2 ∧
      2 ≤ tget (fun _ => 0) ((withRadio s { laneFails := [(0, 1)] }).radio 0).laneFails 0 + 1 ∧
      s.rf (Reg.RADIO.RX_LANES 0) 12 0 + s.rf (Reg.RADIO.RX_LANES 0) 28 16 ≠ 2 ^ 13 - 1 ∧
      (s.wr (Reg.RADIO.RX_LANES 0) 0x1FFF).rf (Reg.RADIO.RX_LANES 0) 12 0 +
        (s.wr (Reg.RADIO.RX_LANES 0) 0x1FFF).rf (Reg.RADIO.RX_LANES 0) 28 16 = 2 ^ 13 - 1) ∧
    up.accepts (.tile 0) (rTile 0) = true := by decide +kernel

/-! Witnesses: the MAC, MLINK and Towpath. -/

/-- A control frame received with a good FCS. -/
def mpdu0 : RxMpdu :=
  { fcsOk := true, kind := .otherControl, a1 := 0, a2 := 0, a3 := 0, duration := 0, key := none, pm := none, report := [], uapsd := false,
    cws := none, user := 0, bytes := [] }
/-- A transmission whose response is awaited. -/
def inAwait : Await := { tx := txNow0, endAt := 0 }

theorem wit_MediumAccessFollowsItsTimers :
    ((up.mac 0).navIntra ≤ up.clock ∧ (up.mac 0).navBasic ≤ up.clock) ∧
    (let s := up.modMac 0 fun m => { m with navRts := some (true, 0) }
     (s.mac 0).navRts = some (true, 0) ∧ 0 ≤ s.clock) ∧
    (let s := up.wr (Reg.RADIO.MAC_CTL 0) 0x8000C400
     sval 8 (s.rf (Reg.RADIO.MAC_CTL 0) 15 8) ≤ sval 8 (0xC4 : Byte).toNat ∧ sval 8 (0xC3 : Byte).toNat < sval 8 (s.rf (Reg.RADIO.MAC_CTL 0) 15 8)) ∧
    (tuned42.physBusy 0 = false ∧ tuned42.navBusy 0 = false ∧ (tuned42.mac 0).idleAt = none ∧ tuned42.live (rTile 0) = true) ∧
    (let s : State := { (tuned42.wr (Reg.RADIO.MAC_CTL 0) 0x80000000).modMac 0 fun m => { m with idleAt := some 0, slotJ := 1000 }
       with clock := 10000000 }
     let won := fun (s : State) => [3, 2, 1, 0].filter fun ac => ([0, 1, 2, 3].foldl (fun u ac => u.slotStep 0 1000 ac)
         (s.modMac 0 fun x => { x with slotJ := 1001 })).slotCand 0 1000 ac
     (s.mac 0).idleAt = some 0 ∧ s.physBusy 0 = false ∧ s.navBusy 0 = false ∧ s.mayGrant 0 = true ∧ (s.radio 0).granted = none ∧
      (s.radio 0).tx = none ∧ (s.mac 0).await = none ∧ 0 + s.eifsExtra 0 + s.sifs 0 + (s.mac 0).slotJ * s.slot 0 ≤ s.clock ∧
      won (s.setTxq 0 3 [cmd0]) = [3] ∧ won s = [] ∧ (s.wr (Reg.RADIO.MAC_CTL 0) 0).mayGrant 0 = false) ∧
    (let s := withRadio up { granted := some 0 }
     (s.radio 0).granted = some 0 ∧ s.physBusy 0 = true ∧
      ({ s.modMac 0 (fun m => { m with navBasic := 9 }) with clock := 8 } : State).navBusy 0 = true) ∧
    (let c : TxCmd := { cmd0 with tvec := [0x04000000, 0], fetched := 1 }
     let s : State := { (withRadio tuned42 { granted := some 0 }).setTxq 0 0 [c] with clock := 10000 }
     s.txq 0 0 = c :: [] ∧ s.secBusy 0 c (2#16).toNat = true ∧ (s.radio 0).selected ≠ some 0 ∧ (s.mac 0).grantAt + s.slot 0 ≤ s.clock ∧
      s.aligned 0 c (s.tick + 1) = true) := by decide +kernel

theorem wit_ExchangesSucceedOrFail :
    (let s := withRadio up { rx := { phase := .data } }
     s.decoding 0 = true ∧ (s.rxCur 0).tp = none ∧ s.live (rTile 0) = true ∧ mpdu0.fcsOk = true ∧
      (s.navUpdate 0 mpdu0).rbit (Reg.RADIO.MAC_CTL 0) 31 = false ∧
      ((s.wr (Reg.RADIO.MAC_CTL 0) 0x80000000).navUpdate 0 mpdu0).rbit (Reg.RADIO.MAC_CTL 0) 31 = true) ∧
    (let s : State := { withRadio up { mac := { await := some inAwait } } with clock := 100000 }
     (s.radio 0).mac.await = some inAwait ∧ inAwait.endAt + s.sifs 0 + s.slot 0 + 1000 ≤ s.clock ∧ inAwait.qual = false ∧
      (s.radio 0).rx.phase = .idle ∧ (s.radio 0).done = none) ∧
    (let c : TxCmd := { cmd0 with tvec := [0x78000000, 0], fetched := 1 }
     let s : State := { (withRadio tuned42 { mac := { txop := some (3, 0) } }).wr (Reg.RADIO.MAC_CTL 0) 0x80000000 with clock := 10000 }
     (s.radio 0).mac.txop = some (3, 0) ∧ (s.radio 0).tx = none ∧ (s.radio 0).mac.await = none ∧ (s.radio 0).granted = none ∧
      (s.radio 0).mac.exchangeEnd + s.sifs 0 ≤ s.clock ∧ s.txq 0 3 = [] ∧
      (let u := (s.setTxq 0 3 [c]).wr (Reg.RADIO.EDCA_AC0 0 + 12) 0xFFFF0000
       let need := (u.cmdNs 0 c + u.answerNs 0 c + 1) / 2 + 2 * u.sifs 0
       u.txq 0 3 = c :: [] ∧ u.mayGrant 0 = true ∧ u.clock + need ≤ 0 + u.txopLimit 0 3 ∧
        0 + (u.wr (Reg.RADIO.EDCA_AC0 0 + 12) 0).txopLimit 0 3 < u.clock + need)) ∧
    (up.accepts (.tile 0) (rTile 0) = true ∧ up.rbit (Reg.RADIO.MAC_CTL 0) 31 = false ∧
      (up.wr (Reg.RADIO.MAC_CTL 0) 0x80000000).rbit (Reg.RADIO.MAC_CTL 0) 31 = true) ∧
    (let h : HeldMpdu := { seq := 5, desc := 64, radio := 0 }
     let s : State := { (up.setBoard 8191 { held := [h] }).wr Reg.MLINK.REORDER_CTL 1 with clock := 50000 }
     (s.board 8191).held = h :: [] ∧ s.rf Reg.MLINK.REORDER_CTL 15 0 ≠ 0 ∧
      (s.board 8191).since + s.rf Reg.MLINK.REORDER_CTL 15 0 * 50000 ≤ s.clock ∧ s.live 5 = true) := by decide +kernel

theorem wit_AidAndKeyCommandsComplete :
    (up.accepts (.tile 0) 5 = true ∧ up.pathFree Reg.MLINK.AID_RESULT = true ∧ aidOk (up.rf Reg.MLINK.AID_ARG 10 0) = false) ∧
    (let s := up.wr Reg.MLINK.AID_ARG 0x000107D7
     aidOk (s.rf Reg.MLINK.AID_ARG 10 0) = true ∧ s.aid (s.rf Reg.MLINK.AID_ARG 10 0) = none ∧ s.mlink.aids = [] ∧
      (let t := s.modMlink fun x => { x with aids := [(2007, some (1, 2))] }
       t.aid (t.rf Reg.MLINK.AID_ARG 10 0) = some (1, 2))) ∧
    (up.wr Reg.MLINK.AID_RESULT 0x40000000).pathFree Reg.MLINK.AID_RESULT = false ∧
    (up.pathFree Reg.MLINK.KEY_RESULT = true ∧ up.keyArg = some 0 ∧ up.suiteOk = true ∧ up.key 0 = none ∧
      (up.setKey 0 (some {})).key 0 ≠ none) ∧
    (up.wr Reg.MLINK.KEY_ARG 0x80000000).keyArg = none ∧ (up.wr Reg.MLINK.KEY_ARG 0x07000000).suiteOk = false ∧
    (up.wr Reg.MLINK.KEY_RESULT 0x40000000).pathFree Reg.MLINK.KEY_RESULT = false ∧
    (let s := up.modMlink fun x => { x with aids := [(5, some (0, 2))] }
     s.aid 5 = some (0, 2) ∧ (s.mlink.aids.any fun e => match e.2 with
       | some (k, _) => k = 0
       | none => false) = true) ∧
    (reqMgmt (.tile 0) = true ∧ bit (8 : Word) 3 = true ∧ (up.thread (threadKey 5 0 3)).run = .stopped) := by decide +kernel

/-- A station ACTIVE as context k: its link 0 installed and up, the capabilities given (R216, R227), a frame queued for TID 0. -/
def station (s : State) (k : Nat) (caps : Byte) : State :=
  ((((s.wr Reg.MLINK.LINK_CTL 0x10000).ctxPut k 0 1 2).ctxPut k 128 1 2).modMlink fun x => { x with
    shadow := (k, List.replicate 4 0 ++ [8] ++ List.replicate 123 0 ++ [1, caps]) :: x.shadow
    stq := x.stq ++ [(8 * k, [{ desc := 64 * k }])] })

/-- The contexts listed are OPENING. -/
def opening (l : List Nat) : State := { up with mem := l.map fun k => (ctxAddr k 0, (1 : Byte)) }

/-- What a table made from a list of keys holds. -/
theorem tget_const {α : Type} (d : Nat → α) (f : Nat → Nat) (v : α) : ∀ (l : List Nat) (j : Nat), j ∈ l →
    tget d (l.map fun k => (f k, v)) (f j) = v
  | [], _, h => by simp at h
  | k :: l, j, h => by
    by_cases e : f j = f k
    · simp [tget, e]
    · have hj : j ∈ l := by
        rcases List.mem_cons.mp h with h | h
        · exact absurd (h ▸ rfl) e
        · exact h
      simp [tget, e, tget_const d f v l j hj]

theorem opening_ctxState (l : List Nat) (j : Nat) (h : j ∈ l) : (opening l).ctxState j = 1 := by
  have e : (opening l).rb (ctxAddr j 0) = 1 := tget_const _ (ctxAddr · 0) _ l j h
  simp [State.ctxState, State.ctx, State.rm, e]

theorem wit_NoContextFree : ∀ j, j < 1024 → (opening (List.range 1024)).ctxState j ≠ 0 := by
  intro j hj
  rw [opening_ctxState _ j (List.mem_range.mpr hj)]
  decide

theorem wit_ContextsAndStationQueues :
    (up.accepts (.tile 0) 5 = true ∧ up.life 5 ≠ .draining ∧ up.pathFree Reg.MLINK.CTX_RESULT = true ∧
      (List.range 1024).find? (fun j => up.ctxState j = 0) = some 0 ∧ up.ctxState 0 ≠ 1 ∧ up.ctxState 0 ≠ 2) ∧
    (let s := up.ctxPut 0 0 1 1
     let t := (s.ctxPut 0 128 1 1).wr (Reg.RADIO.BSS_B 0 0) 0x80000000
     s.ctxState 0 = 1 ∧ s.ctxRefusal 0 (s.rbytes (ctxAddr 0 0) 1024) = some 2 ∧
      t.ctxState 0 = 1 ∧ t.ctxRefusal 0 (t.rbytes (ctxAddr 0 0) 1024) = none) ∧
    (let s := up.ctxPut 0 0 1 2
     let t := (s.ctxPut 0 128 1 1).wr (Reg.RADIO.BSS_B 0 0) 0x80000000
     s.ctxState 0 = 2 ∧ s.ctxRefusal 0 (s.rbytes (ctxAddr 0 0) 1024) = some 2 ∧
      t.ctxState 0 = 2 ∧ t.ctxRefusal 0 (t.rbytes (ctxAddr 0 0) 1024) = none ∧
      (∀ k, k < 8 → (t.stq k).isEmpty = true ∧ (t.board k).held = [])) ∧
    (let s := (up.ctxPut 1023 0 1 3).modMlink fun x => { x with freeing := some 1023 }
     s.mlink.freeing = some 1023 ∧ ∀ t, t < 8 → (s.stq (8 * 1023 + t)).isEmpty = true) ∧
    (let s := station up 1023 0
     64 * fld (7 : Word) 26 0 < storeEnd ∧ s.ctxState (8191 / 8) = 2 ∧ (s.stq 8191).length < s.qLimit (8191 / 8) ∧
      s.ctxState 0 ≠ 2) ∧
    (let s : State := { up.modMlink fun x => { x with emlLink := [(5, 1)], emlUntil := [(5, 9)] } with clock := 9 }
     tget (fun _ => 0) s.mlink.emlLink 5 ≠ 0 ∧ tget (fun _ => 0) s.mlink.emlUntil 5 ≠ 0 ∧
      tget (fun _ => 0) s.mlink.emlUntil 5 ≤ s.clock) := by decide +kernel

/-- Two stations with frames for access category 1, MLINK's selection unit on with OFDMA and MU-MIMO. -/
def twoStations (caps : Byte) : State :=
  ((station (station up 0 caps) 1 caps).wr Reg.MLINK.SCHED_CTL 0xF1080120)

theorem wit_SelectionsBuildForCandidates :
    up.life 5 = .ready ∧
    (let s := (((up.wr (Reg.MLINK.TWT_W0 31) 0xA0000000).wr (Reg.MLINK.TWT_W1 31) 65536).wr (Reg.MLINK.TWT_W3 31) 1)
     s.twtUsed 31 = true ∧ s.twtNow 31 = some 0 ∧ s.twtRun 31 = none) ∧
    (let s := up.modMlink fun x => { x with twtOn := [(31, some ⟨1, 0, 0⟩), (30, some ⟨0, 0, 0⟩)] }
     s.twtRun 31 = some ⟨1, 0, 0⟩ ∧ s.tsf 0 < 1 ∧ s.twtRun 30 = some ⟨0, 0, 0⟩ ∧ 0 + fld (0 : Word) 15 0 * 256 ≤ s.tsf 0) ∧
    (let s := (station up 0 0).wr Reg.MLINK.SCHED_CTL 0x81080120
     s.rbit Reg.MLINK.SCHED_CTL 31 = true ∧ s.ahead 0 1 < clampN 1 4 (s.rf Reg.MLINK.SCHED_CTL 27 24) ∧
      s.reachable 0 0 = true ∧ s.tidsReady 0 0 1 ≠ [] ∧ (s.dlCandidates 0 1).2 = [0] ∧
      ((s.ctxPut 0 40 4 (2 ^ 32 - 1024)).dlCandidates 0 1).2 = []) ∧
    (let s := twoStations 1
     let c := s.dlCandidates 0 1
     let s1 := c.1.buildSounding 0 1 c.2
     c.2.length = 2 ∧ s1.rbit Reg.MLINK.SCHED_CTL 30 = true ∧ s1.capOf 0 (c.2.getD 0 9) 0 = true ∧ 2 ≤ (s1.muShape 0 c.2).1.length ∧
      s1.rbit Reg.MLINK.SCHED_CTL 29 = true ∧ (s1.muGroup 0 (s1.muShape 0 c.2).1).length < clampN 2 8 (s1.rf Reg.MLINK.SCHED_CTL 7 4)) ∧
    (let s := ((((twoStations 0x11).ctxPut 0 144 2 0x8000).ctxPut 1 144 2 0x8001).wr (Reg.RADIO.MAC_CAP 0) 8).modMlink fun x =>
       { x with steer := [(0, { v := [[(1, 0), (0, 0)]] }), (1, { v := [[(0, 0), (1, 0)]] })] }
     let c := s.dlCandidates 0 1
     let s1 := c.1.buildSounding 0 1 c.2
     c.2.length = 2 ∧ s1.capOf 0 (c.2.getD 0 9) 0 = true ∧ 2 ≤ (s1.muShape 0 c.2).1.length ∧
      clampN 2 8 (s1.rf Reg.MLINK.SCHED_CTL 7 4) ≤ (s1.muGroup 0 (s1.muShape 0 c.2).1).length) ∧
    (let s := (station (station up 0 1) 1 0).wr Reg.MLINK.SCHED_CTL 0xF1080120
     let c := s.dlCandidates 0 1
     let s1 := c.1.buildSounding 0 1 c.2
     c.2.length = 2 ∧ s1.capOf 0 (c.2.getD 0 9) 0 = true ∧ (s1.muShape 0 c.2).1 = [0]) ∧
    (let s := (((twoStations 1).ctxPut 0 56 4 100).wr Reg.MLINK.UL_CTL 0x00010000).modMlink fun x => { x with aids := [(5, some (0, 0))] }
     let s : State := { s with clock := 500 }
     s.rbit Reg.MLINK.SCHED_CTL 31 = true ∧ s.rbit Reg.MLINK.SCHED_CTL 28 = true ∧ s.rf Reg.MLINK.UL_CTL 31 16 ≠ 0 ∧
      tget (fun _ => 0) s.mlink.ulAt 0 + s.rf Reg.MLINK.UL_CTL 31 16 * 500 ≤ s.clock ∧
      ((s.modMlink fun x => { x with ulAt := [(0, 500)] }).ulCandidates 0 none).2 = [0] ∧
      (((twoStations 1).wr Reg.MLINK.UL_CTL 0x00010000).ulCandidates 0 none).2 = []) ∧
    (let s := up.modMlink fun x => { x with twtOn := [(31, some ⟨0, 0, 9⟩)], twtSel := [31] }
     31 ∈ s.mlink.twtSel ∧ s.twtRun 31 = some ⟨0, 0, 9⟩ ∧ fld (0 : Word) 26 25 = (0 : Fin 3).val ∧ (s.ulCandidates 0 (some 31)).2 = []) ∧
    (let s := (twoStations 1).ctxPut 0 56 4 100
     let s := s.modMlink fun x => { x with twtOn := [(31, some ⟨0, 0, 9⟩)], twtSel := [31], aids := [(5, some (0, 0))] }
     31 ∈ s.mlink.twtSel ∧ (s.ulCandidates 0 (some 31)).2 = [0]) := by decide +kernel

/-- A sounding command for SCID 5 and its transmission. -/
def sounding : TxNow := { txNow0 with cmd := { cmd0 with tvec := [0x8A000100, 0, 0, 0, 0, 0, 0, 0, 5, 0] } }

/-- Every matrix entry of radio 0 is for SCID 7; the context given is ACTIVE. -/
def crowded (k : Nat) : State :=
  { up.ctxPut k 0 1 2 with regs := (List.range 256).map fun i => (Reg.MLINK.STEER_STAT 0 i, (0x801C0000 : Word)) }

theorem wit_MultiUserAndTowpathEnds :
    (let s := (withRadio up { tx := some sounding }).ctxPut 5 0 1 2
     s.isSounding 0 sounding.cmd = true ∧ s.ctxState 5 = 2 ∧ (s.radio 0).tx = some sounding ∧ s.steerOf 0 5 = none ∧
      (s.steerInstall 0 5 { nc := 1 } ((s.muUsers 0 sounding.cmd).map (· % 1024))).isSome = true ∧
      ((crowded 5).steerInstall 0 5 { nc := 1 } [7]).isNone = true ∧
      (let t := s.wr (Reg.MLINK.STEER_STAT 0 3) 0x80140000
       t.steerOf 0 5 = some 3 ∧ t.steerInUse 0 3 = false ∧
        (t.setTxq 0 0 [{ cmd0 with tvec := [0x103] }]).steerInUse 0 3 = true)) ∧
    (let t : TxNow := { mu2 with onAir := false }
     let s := withRadio tuned42 { tx := some t }
     (s.radio 0).tx = some t ∧ t.stage = .ppdu 0 ∧ t.onAir = false ∧ (s.radio 0).muDue = none ∧ (s.radio 0).mac.await = none ∧
      (s.radio 0).mac.tb = none ∧ 0 + 1 < s.ppdusOf 0 t.cmd ∧
      (s.radio 0).anchor + s.sifs 0 * 16 / 25 - 513 ≤ ({ s with clock := 10000 } : State).tick) ∧
    (let s := withRadio up { tx := some txNow0, mac := { tb := some (0, [5], true) } }
     (s.radio 0).mac.tb = some (0, [5], true) ∧ 0 ≤ s.clock ∧ (s.radio 0).rx.phase = .idle ∧ (s.radio 0).done = none ∧
      (s.radio 0).tx = some txNow0 ∧ txNow0.stage = .ppdu 0 ∧ s.ppdusOf 0 txNow0.cmd ≤ 0 + 1 ∧ 0 + 1 < s.ppdusOf 0 mu2.cmd) ∧
    (let s := (tuned42.wr (Reg.RADIO.TP_CTL 0) 0x80000007).wr (Reg.RADIO.TP_LOAD_CTL2 0) 0x00010000
     s.rf (Reg.RADIO.TP_LOAD_CTL2 0) 31 16 ≠ 0 ∧ s.tpOn 0 = true ∧ s.life (rTile 0) = .ready ∧
      s.clock < (s.radio 0).loadAt + s.rf (Reg.RADIO.TP_LOAD_CTL2 0) 31 16 * 500000 ∧
      (s.radio 0).loadAt + s.rf (Reg.RADIO.TP_LOAD_CTL2 0) 31 16 * 500000 ≤ ({ s with clock := 500000 } : State).clock) ∧
    (up.accepts (.tile 0) (rTile 0) = true ∧ fld (up.rd (Reg.RADIO.TP_PEER_CFG 0 15)) 15 0 = fld (0x00070000 : Word) 15 0 ∧
      bit (up.rd (Reg.RADIO.TP_PEER_CFG 0 15)) 31 = bit (0x00070000 : Word) 31 ∧
      fld (up.rd (Reg.RADIO.TP_PEER_CFG 0 15)) 15 0 ≠ fld (0x80000005 : Word) 15 0) := by decide +kernel

/-! Witnesses: TIME, the forwarder, CLASS, SCHED, the engine clusters and CIPHER. -/

theorem wit_MilestoneCommandsMoveTheCount :
    (up.accepts (.tile 0) 1 = true ∧ up.pathFree Reg.TIME.MS_RESULT = true ∧ up.ms.frac < 2 ^ 48 ∧ up.rbit Reg.TIME.SERVO_CTL 31 = false) ∧
    (up.wr Reg.TIME.SERVO_CTL 0x80000000).rbit Reg.TIME.SERVO_CTL 31 = true ∧
    (up.wr Reg.TIME.MS_RESULT 0x40000000).pathFree Reg.TIME.MS_RESULT = false := by decide +kernel

theorem wit_StampsAndServoFollowTheCount :
    (up.accepts (.tile 0) 1 = true ∧ up.rbit (Reg.TIME.SNAP_W1 3) 31 = false ∧ up.rd (Reg.TIME.FTM_W0 2) = 0 ∧
      up.rbit (Reg.TIME.FTM_W1 2) 31 = false ∧ fld (0x300 : Word) 9 8 ≠ 0 ∧
      (tget (fun _ => none) up.time.tsfHeld 2).getD (up.rd (Reg.TIME.TSF_OFS_LO 2)).toNat < 2 ^ 32) ∧
    (let s := up.wr (Reg.TIME.SNAP_W1 3) 0x85000000
     s.rbit (Reg.TIME.SNAP_W1 3) 31 = true ∧ s.rf (Reg.TIME.SNAP_W1 3) 27 24 = 5) ∧
    (up.wr (Reg.TIME.FTM_W0 2) 0x100).rd (Reg.TIME.FTM_W0 2) ≠ 0 ∧
    (let s := (up.wr Reg.TIME.SERVO_STATUS 0x80000000).wr Reg.TIME.SERVO_HOLD 1
     let s : State := { s with time := { s.time with wait := 500000 } }
     s.servo = 2 ∧ s.life 1 = .ready ∧ max 1 (s.rf Reg.TIME.SERVO_HOLD 15 0) * 500000 ≤ s.time.wait) ∧
    (let s := up.wr Reg.TIME.PPS_CTL 0x40000000
     s.live 1 = true ∧ s.rbit Reg.TIME.PPS_CTL 30 = true ∧ s.rbit Reg.TIME.PPS_IN_STAT 31 = false ∧ s.sampleOk 2 = false ∧
      (s.wr Reg.TIME.PPS_IN_STAT 0x80000000).rbit Reg.TIME.PPS_IN_STAT 31 = true) ∧
    (let s := (up.wr Reg.TIME.PPS_CTL 0x80000001)
     let t : State := { s with ms := { s.ms with ns := 1000000000 } }
     s.ppsOn = true ∧ s.time.stepAt ≠ some s.clock ∧
      ((t.ms.total : Int) - (t.rd Reg.TIME.PPS_OUT_OFS).toInt * 2 ^ 48) % (1000000000 * 2 ^ 48) < (t.time.inc : Int) ∧
      (let u : State := { s with time := { s.time with pps := some 0, run := 1000 * 2 ^ 48 } }
       u.time.pps = some 0 ∧ 0 + max 1 (u.rf Reg.TIME.PPS_CTL 15 0) * 1000 * 2 ^ 48 ≤ u.time.run)) := by decide +kernel

/-- A forwarding command for node 7 by next hop 63, which is valid and wired. -/
def fwd7 : State := ((up.wr (Reg.CLASS.NH_W0 63) 0xA0000000).wr Reg.CLASS.FWD_ARG0 7).wr Reg.CLASS.FWD_ARG1 0x3F

theorem wit_ForwardingTableCommands :
    (fwd7.accepts (.tile 0) 9 = true ∧ fwd7.pathFree Reg.CLASS.FWD_RESULT = true ∧ fwd7.rf Reg.CLASS.FWD_ARG0 15 0 = 7 ∧
      fwd7.nhOk (fld (fwd7.rd Reg.CLASS.FWD_ARG1) 5 0) = true ∧ bit (fwd7.rd Reg.CLASS.FWD_ARG1) 14 = false ∧
      fwd7.fwdFind 7 = none ∧ (List.range 1024).find? (fun d => !fwd7.rbit (Reg.CLASS.FWD_W0 d) 31) = some 0) ∧
    (fwd7.wr (Reg.CLASS.FWD_W0 0) 0x80000007).fwdFind 7 = some 0 ∧ up.rf Reg.CLASS.FWD_ARG0 15 0 = 0 ∧
    (up.wr Reg.CLASS.FWD_ARG0 0xFFFF).rf Reg.CLASS.FWD_ARG0 15 0 = 0xFFFF ∧ up.nhOk (fld (up.rd Reg.CLASS.FWD_ARG1) 5 0) = false ∧
    (up.wr Reg.CLASS.FWD_RESULT 0x40000000).pathFree Reg.CLASS.FWD_RESULT = false ∧
    (up.wr Reg.CLASS.FAB_CTL 0x80000001).fabOn = true := by decide +kernel

/-- The forwarding entries listed are used, for no node. -/
def fwdFull (l : List Nat) : State := { up with regs := l.map fun d => (Reg.CLASS.FWD_W0 d, (0x80000000 : Word)) }

theorem fwdFull_entry (l : List Nat) (d : Nat) (h : d ∈ l) : (fwdFull l).rbit (Reg.CLASS.FWD_W0 d) 31 = true := by
  have e : (fwdFull l).rd (Reg.CLASS.FWD_W0 d) = 0x80000000 := tget_const _ Reg.CLASS.FWD_W0 _ l d h
  simp [State.rbit, e, bit]

theorem wit_NoForwardingEntryFree :
    (List.range 1024).find? (fun d => !(fwdFull (List.range 1024)).rbit (Reg.CLASS.FWD_W0 d) 31) = none := by
  refine List.find?_eq_none.mpr fun d h => ?_
  rw [fwdFull_entry _ d h]
  decide

/-- The forwarder with hidden state as given. -/
def withFab (s : State) (x : Fabric) : State := { s with fabric := x }

theorem wit_FabricEventsForward :
    (up.life 9 = .ready ∧ up.fabric.inQ = [] ∧ (withFab up { inQ := [⟨.enq, 64⟩] }).fabric.inQ = [⟨.enq, 64⟩]) ∧
    ((withFab up { done := [(63, [(64, 0)], true)] }).fabric.done = [(63, [(64, 0)], true)] ∧
      (withFab up { done := [(63, [(64, 0)], false)] }).fabric.done = [(63, [(64, 0)], false)]) ∧
    (let s := ((up.wr Reg.CLASS.FAB_CTL 0x80000001).wr Reg.CLASS.FAB_BCN_DESC 0x80000000).wr Reg.CLASS.FAB_BCN 0
     s.fabOn = true ∧ s.rbit Reg.CLASS.FAB_BCN_DESC 31 = true ∧ s.rf Reg.CLASS.FAB_BCN 31 16 = 0) ∧
    (let s := (((withFab up { heardAt := [(63, some 0)] }).wr (Reg.CLASS.NH_W0 63) 0xE0000000).wr (Reg.CLASS.NH_W3 63) 0x80000000).wr
       Reg.CLASS.FAB_BCN 0x00010000
     let t : State := { s with ms := { ns := 1500000, started := true } }
     tget (fun _ => none) s.fabric.heardAt 63 = some 0 ∧ s.nhMon 63 = true ∧ s.rbit (Reg.CLASS.NH_W3 63) 31 = true ∧
      s.rf (Reg.CLASS.NH_W3 63) 29 28 ≠ 3 ∧ s.nhWire 63 = true ∧ s.rf Reg.CLASS.FAB_BCN 31 16 ≠ 0 ∧
      0 + (2 * s.rf (Reg.CLASS.NH_W3 63) 29 28 + 3) * s.rf Reg.CLASS.FAB_BCN 31 16 * 500000 ≤ t.ns) ∧
    (let s := ((((withFab up { heardAt := [(63, some 0)] }).wr (Reg.CLASS.NH_W0 63) 0xC0000000).wr (Reg.CLASS.NH_W3 63) 0x80000000).wr
       (Reg.CLASS.DOZE_W0 0) 0x80000001).wr (Reg.CLASS.DOZE_W1 0) 1000000
     let t : State := { s with ms := { ns := 1500000000, started := true } }
     t.nhMon 63 = true ∧ t.nhWire 63 = false ∧ t.nhRadio 63 = 0 ∧ t.dozes 0 = true ∧ t.rdv 0 = (1000000000, 0, 1000, 0) ∧
      tget (fun _ => 0) t.fabric.judged 63 ≤ (t.ns - 1000) / max 1 1000000000 ∧
      0 + 0 < (t.ns - 1000) / max 1 1000000000 * 1000000000 + 0) ∧
    (let s := up.wr (Reg.CLASS.DOZE_W3 0) 0x80000000
     s.dozing 0 = true ∧ s.mustWake 0 = true) ∧
    (let s := (up.wr (Reg.CLASS.DOZE_W0 0) 0x80000001).wr (Reg.CLASS.DOZE_W1 0) 1000000
     let t : State := { s with ms := { ns := 500000000, started := true } }
     t.dozing 0 = false ∧ t.mustWake 0 = false ∧ (t.radio 0).tx = none ∧ (t.radio 0).resp.phase = .none ∧
      (t.radio 0).selected = none ∧ (t.radio 0).mac.await = none) ∧
    (up.fabric.epoch ≠ up.ns / 1024000 + 1 ∧ up.fabric.armed = false ∧ (withFab up { armed := true }).fabric.armed = true ∧
      (up.rd Reg.CLASS.FAB_SW_EPOCH - wd (up.ns / 1024000)).toNat = 0) ∧
    (let s := up.wr (Reg.CLASS.SLOT_CUR 0) 0x80000C00
     s.windowNow = some 0 ∧ s.fabric.win ≠ some 0 ∧ (withFab s { win := some 5 }).fabric.win = some 5 ∧
      (withFab s { win := some 5 }).windowNow ≠ some 5) := by
  refine ⟨?_, ?_, ?_, ?_, ?_, ?_, ?_, ?_, ?_⟩ <;> decide +kernel

/-- A route command on table 0. -/
def route (op len : Nat) (args : List Nat) : ClsCmd := { slot := 0, op := op, table := 0, len := len, tag := 3, args := args }

theorem wit_ClassifierTableCommands :
    (up.accepts (.tile 0) 9 = true ∧ up.live 9 = true ∧ up.pathFree (Reg.CLASS.TCMD_RES 15) = true ∧
      (up.wr (Reg.CLASS.TCMD_RES 15) 0x40000000).pathFree (Reg.CLASS.TCMD_RES 15) = false) ∧
    (let s := up.modCls fun x => { x with cmds := [route 4 32 [0, 0]], clearing := [18] }
     s.cls.cmds = [route 4 32 [0, 0]] ∧ s.active 9 = true ∧ ((route 4 32 [0, 0]).waitsFor.any fun t => s.cls.clearing.contains t) = false) ∧
    (let s := up.wr (Reg.CLASS.TCMD_RES 15) 0x80000003
     s.rbit (Reg.CLASS.TCMD_RES 15) 31 = true ∧ s.rf (Reg.CLASS.TCMD_RES 15) 3 0 = 3) ∧
    (let s := up.wr (lpmReg false) 1
     let c := route 4 8 [9, 0x0A000000]
     s.rbit (lpmReg false) 0 = true ∧ c.len ≤ 32 ∧ prefixOf 32 c.len 0x0A000000 = 0x0A000000 ∧ s.rf (lpmCountReg false) 20 0 < 262144 ∧
      prefixOf 32 c.len 0x0A000001 ≠ 0x0A000001 ∧ tget (fun _ => none) (s.routes false) (0x0A000000 * 256 + 8) = none ∧
      (let t := s.modCls fun x => { x with lpm4 := [(0x0A000000 * 256 + 8, some 9)] }
       tget (fun _ => none) (t.routes false) (0x0A000000 * 256 + 8) ≠ none)) ∧
    (up.wr (lpmReg true) 1).rbit (lpmReg true) 0 = true ∧ up.rbit (lpmReg true) 0 = false ∧
    (let c : ClsCmd := { route 3 0 [0, 0x1000, 0] with op := 3 }
     let s := up.wr (tableReg 0) 0x80000000
     let key := s.rbytes c.image (s.emKeyw 0)
     let t := s.wm (s.emAddr 0 ((s.emPlaces 0 key).getD 0 0) + 28) 4 0x80000000
     s.emOn c.table = true ∧ c.image + s.emKeyw c.table ≤ storeEnd ∧ (s.storeRead 6 c.image (s.emKeyw c.table)).2 = true ∧
      (s.emRead 0 key).2 = none ∧ s.emFind 0 key = none ∧ (t.emRead 0 key).2 = none ∧ (t.emFind 0 key).isSome = true) := by
  decide +kernel

/-- A frame in the pipe's tenth ingress. -/
def frame10 : ClsFrame := { src := { ingress := 10, desc := 64 } }
/-- The same, parsed. -/
def parsed10 : ClsFrame := { frame10 with m := [1] }

theorem wit_ClassifierStagesRunInOrder :
    (let s := (up.wm (64 + 8) 4 0x01000020).setClsQueue 10 [frame10]
     (s.clsQueue 10).findIdx? (fun f => f.m = [] && f.out = .open_) = some 0 ∧ (s.clsQueue 10)[0]? = some frame10 ∧ s.live 9 = true ∧
      (s.clsRead frame10.src.desc).2 = true ∧
      (let t := s.setTile 8 { life := .held }
       (t.clsRead frame10.src.desc).2 = false ∧ t.storeUp = false)) ∧
    ((up.setClsQueue 10 [parsed10]).clsQueue 10)[0]? = some parsed10 ∧ (parsed10.m ≠ [] ∧ parsed10.out = .open_ ∧ parsed10.stage < 8) ∧
    (up.accepts (.tile 0) 9 = true ∧ (up.wr (tableReg 15) 0x80000000).rbit (tableReg 15) 31 = true ∧ up.rbit (tableReg 15) 31 = false ∧
      (up.wr (tableReg 18) 1).rbit (tableReg 18) 0 = true) := by decide +kernel

/-- A work item with eight words of zeros. -/
def item0 (st : ItemState) : WorkItem := { gen := 0, words := [0, 0, 0, 0, 0, 0, 0, 0], st := st }
/-- SCHED with hidden state as given. -/
def withSched (x : SchedUnit) : State := { (up.wr Reg.SCHED.SCHED_CTL 0x80000000).wr Reg.SCHED.SCHED_OVF 1 with sched := x }

theorem wit_SchedulerMovesItems :
    (let f : ClsFrame := { frame10 with out := .item [0, 0, 0, 0, 0, 0, 0, 0] }
     let s := (withSched {}).setClsQueue 10 [f]
     s.live 10 = true ∧ s.live 9 = true ∧ s.clsQueue 10 = f :: [] ∧ f.out = .item [0, 0, 0, 0, 0, 0, 0, 0] ∧ s.room [0, 0, 0, 0, 0, 0, 0, 0] = .ok ∧
      (({ s with sched := { items := List.replicate 4096 (0, none) } } : State).room [0, 0, 0, 0, 0, 0, 0, 0] = .full)) ∧
    (let s := { withSched {} with cipher := { items := [[0, 0, 0, 0, 0, 0, 0, 0]] } }
     s.cipher.items = [0, 0, 0, 0, 0, 0, 0, 0] :: []) ∧
    (withSched { enqs := [(5, [0, 0, 0, 0, 0, 0, 0, 0])] }).sched.enqs[0]? = some (5, [0, 0, 0, 0, 0, 0, 0, 0]) ∧
    ((withSched { items := [(4095, some (item0 (.pending 0)))] }).item 4095 = some (item0 (.pending 0)) ∧ 0 ≤ up.clock) ∧
    (let s := (((withSched { items := [(0, some (item0 .ready))], lists := [(5, [0])] }).wr (Reg.SCHED.LIST_CFG 5) 0x80000000).wr
       (Reg.SCHED.GROUP_MASK 0) 1).wr Reg.SCHED.ENG_EN 1
     let s := s.setThread (threadKey 11 0 0) { run := .running }
     ([3, 2, 1, 0].flatMap s.listOrder).find? (fun l => !(s.listEngines l).isEmpty) = some 5) ∧
    (let s := (withSched { items := [(7, some (item0 .dispatched))], dq := [(31, [7])] }).setThread (threadKey 14 7 3) { run := .getw 0x80 1 }
     s.dispatchQ 31 = [7] ∧ earliest (s.getwWaits 31) = some (1, threadKey 14 7 3, 0x80) ∧ s.item 7 = some (item0 .dispatched) ∧
      s.live (engTile (31 / 8)) = true ∧ s.engSubst 31 = false) ∧
    (let m : DoneMsg := { handle := 2 ^ 31 + 7, disp := 0, key := 0, waits := 0 }
     let s := withSched { items := [(7, some (item0 .held))], dones := [m] }
     s.sched.dones = [m] ∧ s.known m.handle = some 7 ∧ s.item 7 = some (item0 .held)) ∧
    (let x := item0 (.complete 5 0 0)
     let s := withSched { items := [(7, some x)], doms := [(255, [7])] }
     s.nextRelease = some (255, 7, x, 5)) ∧
    (let s := withSched { cancels := [(0, 2 ^ 31 + 9)] }
     s.sched.cancels = [(0, 2 ^ 31 + 9)] ∧ s.known (2 ^ 31 + 9) = none) ∧
    (let t := fun st => withSched { items := [(9, some (item0 st))], cancels := [(0, 2 ^ 31 + 9)] }
     (t .ready).known (2 ^ 31 + 9) = some 9 ∧ (t .ready).item 9 = some (item0 .ready) ∧ (t (.pending 5)).item 9 = some (item0 (.pending 5)) ∧
      (t .held).item 9 = some (item0 .held) ∧ (item0 .held).st ≠ .ready) := by decide +kernel

theorem wit_EngineClustersChange :
    (up.accepts (.tile 0) (engTile 3) = true ∧ reqMgmt (.tile 0) = true ∧ up.accepts (.tile 16) (engTile 3) = true ∧
      reqMgmt (.tile 16) = false ∧ bit (0x80000000 : Word) 31 = true ∧ (up.thread (threadKey 14 7 3)).run = .stopped) ∧
    (up.pathFree (Reg.ENG.SUBST_RESULT 3) = true ∧ up.life 14 = .ready ∧ up.hasToken 14 = false ∧
      (inLife 14 .held none).life 14 ≠ .ready ∧ (inLife 14 .held none).accepts (.tile 0) 14 = true) ∧
    (let s : State := { up with tokens := [{ kind := kUPDATE, scope := 14, holder := .slot 0 }] }
     let s := s.wr (Reg.ENG.ENG_MAP 3) 0x76543210
     s.hasToken 14 = true ∧ s.spareUsed 3 = false ∧ (s.wr (Reg.ENG.ENG_MAP 3) 0x86543210).spareUsed 3 = true) ∧
    (let s := up.wr (Reg.ENG.SUBST_RESULT 3) 0x80000007
     s.rbit (Reg.ENG.SUBST_RESULT 3) 31 = true ∧ s.pathTag (Reg.ENG.SUBST_RESULT 3) 0 = 7) ∧
    (up.wr (Reg.ENG.ENG_CLK 3) 0x80000000).rbit (Reg.ENG.ENG_CLK 3) 31 = true ∧
    (let s : State := { up with subst := [(3, some ⟨7, 0⟩)] }
     let b := s.setThread (threadKey 14 7 3) { run := .resp 0 0 }
     s.substOf 3 = some ⟨7, 0⟩ ∧ s.engIdle (8 * 3 + 7) = true ∧ b.engIdle (8 * 3 + 7) = false ∧
      0 + 500 * max 1 (b.rf (Reg.ENG.ENG_CTL 3) 31 16) ≤ ({ b with clock := 500 * 65536 } : State).clock) := by decide +kernel

/-- A job of CIPHER on an engine. -/
def job1 : CipherJob := { queue := 1, desc := 64, known := true, engine := some 0, sess := some { alg := 0, icv := 16, key := [], salt := [] } }

theorem wit_CipherSessionsAndJobs :
    (up.accepts (.tile 0) 15 = true ∧ up.pathFree Reg.CIPHER.SESS_RESULT = true ∧ up.sessArg.isSome = true ∧ up.session 0 = none ∧
      (up.wr Reg.CIPHER.SESS_ARG 0xC0000000).sessArg = none ∧ (up.setSession 0 job1.sess).session 0 ≠ none ∧
      (up.wr Reg.CIPHER.SESS_RESULT 0x40000000).pathFree Reg.CIPHER.SESS_RESULT = false) ∧
    (let s := { up with cipher := { inQ := [(1, 64)] } }
     let t := ((s.wr Reg.CIPHER.CIPHER_CTL 0x80000000).wr (Reg.CIPHER.QUEUE_CFG 1) 0x80000000).wm (64 + 8) 4 0x00400000
     s.cipher.inQ = [(1, 64)] ∧ s.life 15 = .ready ∧ s.cipher.jobs.length + s.cipher.items.length < 512 ∧
      (s.wr Reg.CIPHER.CIPHER_CTL 0).rbit Reg.CIPHER.CIPHER_CTL 31 = false ∧
      t.rbit Reg.CIPHER.CIPHER_CTL 31 = true ∧ t.rbit (Reg.CIPHER.QUEUE_CFG 1) 31 = true ∧ 64 ≤ t.dOfs 64) ∧
    (let s := { up.wm (64 + 8) 4 0x01400020 with cipher := { jobs := [job1] } }
     s.cipher.jobs.find? (fun j => j.queue = (1#8).toNat) = some job1 ∧ job1.engine = some 0 ∧ s.live 15 = true ∧
      ((s.modCipher fun u => { u with jobs := u.jobs.erase job1 }).jobRead 64 job1.sess).2 = true ∧
      jobMalformed (s.jobWord 64) (s.dLen 64) 16 = false ∧ jobMalformed (s.jobWord 64) (s.dLen 64) 33 = true ∧
      (let b := s.setTile 8 { life := .held }
       ((b.modCipher fun u => { u with jobs := u.jobs.erase job1 }).jobRead 64 job1.sess).2 = false) ∧
      ({ job1 with sess := none } : CipherJob).sess = none) := by decide +kernel

/-! What firmware keeps: the spec's examples (20_power_reset_bringup.md, 11_fabric.md). -/

theorem test_vReq_example :
    (((up.wr Reg.MGMT.AVS_FUSE 735).wr (Reg.ENG.ENG_CLK 0) 2200).wr (Reg.MGMT.RO_MON 3) (wd (1000 * 65536 + 986))).vReq = 770 := by
  decide +kernel
theorem test_guard_example :
    ((up.wr (Reg.CLASS.DOZE_W1 0) 499600000).wr (Reg.CLASS.DOZE_W3 0) 50).guardHolds 0 = true ∧
    ((up.wr (Reg.CLASS.DOZE_W1 0) 499600001).wr (Reg.CLASS.DOZE_W3 0) 50).guardHolds 0 = false := by decide +kernel

/-! Witnesses: NEWT, SENSE, WIRE and HOST. -/

/-- NEWT with hidden state as given. -/
def withNewt (s : State) (x : Newt) : State := { s with newt := x }
/-- A Newt command of a PSDU of five octets that asks for an Ack, in a phase. -/
def ntx (p : NewtPhase) (fcf : Byte) : NewtTx := { psdu := [fcf, 0, 0, 0, 0], tag := 5, pri := 0, ant := 0, power := 0, phase := p }
/-- A command of five octets, with the other fields of TX_ARG0 as given, EN 1. -/
def newtCmd (a : Word) : State := (up.wr Reg.NEWT.NEWT_CTL 0x80000000).wr Reg.NEWT.TX_ARG0 (a ||| 0x00050000)

theorem wit_NewtTransmissionsComplete :
    (up.accepts (.tile 0) 7 = true ∧ (up.wr Reg.NEWT.TX_RESULT 0x40000000).pathFree Reg.NEWT.TX_RESULT = false ∧
      up.pathFree Reg.NEWT.TX_RESULT = true ∧ up.rbit Reg.NEWT.NEWT_CTL 31 = false ∧ fld (up.rd Reg.NEWT.TX_ARG0) 25 16 < 5) ∧
    (let s := newtCmd 0x08000000
     s.rbit Reg.NEWT.NEWT_CTL 31 = true ∧ 5 ≤ fld (s.rd Reg.NEWT.TX_ARG0) 25 16 ∧ fld (s.rd Reg.NEWT.TX_ARG0) 25 16 ≤ 127 ∧
      s.life 7 = .ready ∧ bit (s.rd Reg.NEWT.TX_ARG0) 27 = true ∧ s.rd Reg.NEWT.NEWT_FC ≠ 0xFFFFFFFF ∧
      (s.wr Reg.NEWT.NEWT_FC 0xFFFFFFFF).rd Reg.NEWT.NEWT_FC = 0xFFFFFFFF ∧ s.pathFree Reg.NEWT.TX_RESULT = true) ∧
    bit ((newtCmd 0x04000000).rd Reg.NEWT.TX_ARG0) 27 = false ∧
    (let s := withNewt up { tx := some (ntx (.backoff 0) 0) }
     s.newt.tx = some (ntx (.backoff 0) 0) ∧ 0 ≤ s.clock ∧ s.newtRetuning = false) ∧
    (let s := withNewt up { tx := some (ntx (.cca 0) 0) }
     let q := ((((chan42.wr (Reg.RADIO.RF_TUNED 0) 0x80000101).wr (Reg.RADIO.TXQ_STATUS 0) 0x80000000).wr Reg.NEWT.COEX_CTL 0x80000000))
     s.newt.tx = some (ntx (.cca 0) 0) ∧ s.newtRetuning = false ∧ s.live 7 = true ∧ s.newtCca (-101) false = false ∧ s.newt.rx = none ∧
      s.newt.ack = none ∧ s.newt.ackEnd ≤ s.clock ∧ s.newtGrant 0 = true ∧ s.newtCca 0 true = true ∧ q.newtGrant 0 = false) ∧
    ((withNewt up { tx := some (ntx (.sending 0) 32) }).newt.tx = some (ntx (.sending 0) 32) ∧
      ((ntx (.sending 0) 32).psdu.headD 0).toNat / 32 % 2 = 1 ∧ ((ntx (.sending 0) 0).psdu.headD 0).toNat / 32 % 2 = 0) ∧
    (let s := withNewt up { tx := some (ntx (.await 0) 32), rx := some (1, true) }
     s.newt.tx = some (ntx (.await 0) 32) ∧ (ntx (.await 0) 32).phase = .await 0 ∧ s.newt.rx = some (1, true) ∧ 0 < 1) := by
  decide +kernel

/-- A received octet string of six octets whose FCS is wrong. -/
def badPsdu : List Byte := [1, 2, 3, 4, 5, 6]
/-- Octets with their FCS. -/
def framed (l : List Byte) : List Byte := l ++ le 2 (crc16 l)
/-- An Ack that is due, without a record. -/
def ack0 : NewtAck := { at_ := 0, octets := 5, secured := false, fp := false, deliver := false, got := ⟨[], 0, 0, 0, 0, none, 0⟩ }

theorem wit_NewtReceivesAndAnswers :
    (up.accepts (.tile 0) 7 = true ∧ fld (up.rd Reg.NEWT.NEWT_CTL) 4 0 = up.rf Reg.NEWT.NEWT_CTL 4 0 ∧ up.newt.chanPend = none ∧
      bit (up.rd Reg.NEWT.NEWT_CTL) 31 = false) ∧
    (up.newtIdle = true ∧ up.newtRetuning = false ∧ 11 ≤ fld (0x8000001A : Word) 4 0 ∧ fld (0x8000001A : Word) 4 0 ≤ 26 ∧
      fld (0x8000001A : Word) 4 0 ≠ up.rf Reg.NEWT.NEWT_CTL 4 0 ∧ up.rbit Reg.NEWT.NEWT_CTL 31 = false) ∧
    (let s := up.wr Reg.NEWT.NEWT_STATUS 0x80000000
     s.newtRetuning = true ∧ s.life 7 ≠ .fault ∧ s.newt.chanPend = none ∧ s.newt.tx = none ∧ s.newt.retries = 0 ∧
      (withNewt s { retries := 1 }).newt.retries ≠ 0) ∧
    (let s := up.wr Reg.NEWT.NEWT_CTL 0x80000000
     s.newtOn = true ∧ s.newt.rx = none ∧ s.newt.ackEnd ≤ s.clock) ∧
    (let s := (withNewt up { rx := some (0, false) }).wr Reg.NEWT.NEWT_CTL 0x80020000
     s.newt.rx = some (0, false) ∧ 0 + 16000 ≤ ({ s with clock := 16000 } : State).clock ∧ s.rbit Reg.NEWT.NEWT_CTL 30 = false) ∧
    (5 ≤ badPsdu.length ∧ badPsdu.length ≤ 127 ∧
      crc16 (badPsdu.take (badPsdu.length - 2)) ≠ frameField badPsdu (badPsdu.length - 2) 2) ∧
    (let p := framed [0x61, 0x08, 9, 0, 0, 0, 0]
     let s := (withNewt up { rx := some (0, true) }).wr Reg.NEWT.NEWT_ADDR 0
     5 ≤ p.length ∧ p.length ≤ 127 ∧ crc16 (p.take (p.length - 2)) = frameField p (p.length - 2) 2 ∧
      ((newtParse (p.take (p.length - 2))).any fun h => s.newtAccept h && h.ar && s.newtMine h) = true ∧
      ((newtParse (p.take (p.length - 2))).any fun h =>
        !((s.wr Reg.NEWT.NEWT_ADDR 0x50000).newtAccept h && h.ar && (s.wr Reg.NEWT.NEWT_ADDR 0x50000).newtMine h)) = true) ∧
    (let s := withNewt up { ack := some ack0 }
     let q := (((chan42.wr (Reg.RADIO.RF_TUNED 0) 0x80000101).wr (Reg.RADIO.TXQ_STATUS 0) 0x80000000).wr Reg.NEWT.COEX_CTL 0x80000000)
     s.newt.ack = some ack0 ∧ ack0.at_ ≤ s.clock ∧ ack0.secured = false ∧
      ({ ack0 with secured := true } : NewtAck).secured = true ∧ (s.wr Reg.NEWT.NEWT_FC 0xFFFFFFFF).rd Reg.NEWT.NEWT_FC = 0xFFFFFFFF ∧
      s.newtGrant (s.rf Reg.NEWT.COEX_CTL 9 8) = true ∧ q.newtGrant (q.rf Reg.NEWT.COEX_CTL 9 8) = false) ∧
    reqMgmt (.tile 0) = true := by decide +kernel

theorem wit_ChildTablesAndPendingBits :
    (up.accepts (.tile 0) 7 = true ∧ up.pathFree Reg.NEWT.CHILD_RESULT = true ∧ up.life 7 ≠ .draining ∧
      up.rf Reg.NEWT.CHILD_ARG 15 0 < 0xFFFE ∧ 0xFFFE ≤ (up.wr Reg.NEWT.CHILD_ARG 0xFFFE).rf Reg.NEWT.CHILD_ARG 15 0) ∧
    (up.newtFindShort 0 = none ∧ ((List.range 512).find? fun n => up.newtShort n = none) = some 0 ∧
      up.newtFindExt up.childExt = none ∧ ((List.range 64).find? fun n => up.newtExtEntry n = none) = some 0) ∧
    (let s := withNewt up { short := [(511, some (0, 9))], ext := [(63, some 0)] }
     s.newtFindShort 0 = some 511 ∧ s.newtFindExt s.childExt = some 63) ∧
    (let s := withNewt up { ext := (List.range 64).map fun k => (k, some (k + 1)) }
     s.newtFindExt s.childExt = none ∧ ∀ n, n < 64 → s.newtExtEntry n ≠ none) ∧
    (up.wr Reg.NEWT.CHILD_RESULT 0x40000000).pathFree Reg.NEWT.CHILD_RESULT = false ∧ fld (0x803F : Word) 8 0 < 64 ∧
    fld (0x1FF : Word) 8 0 = 511 ∧ bit (0x8040 : Word) 15 = true ∧ 64 ≤ fld (0x8040 : Word) 8 0 ∧
    (let s := inLife 7 .draining (some 6)
     s.life 7 = .draining ∧ s.pathFree Reg.NEWT.CHILD_RESULT = true) := by decide +kernel

/-- The short address entries listed are used, for address 5. -/
def shorts (l : List Nat) : State := withNewt up { short := l.map fun k => (k, some (5, 9)) }

theorem shorts_entry (l : List Nat) (n : Nat) (h : n ∈ l) : (shorts l).newtShort n = some (5, 9) := tget_const _ id _ l n h

theorem wit_NoShortEntryFree : (∀ n, n < 512 → (shorts (List.range 512)).newtShort n ≠ none) ∧
    (shorts (List.range 512)).newtFindShort 0 = none := by
  refine ⟨fun n h => by rw [shorts_entry _ n (List.mem_range.mpr h)]; decide, ?_⟩
  refine List.find?_eq_none.mpr fun n h => ?_
  rw [shorts_entry _ n h]
  decide

theorem wit_SenseScansAndReports :
    (up.accepts (.tile 0) 6 = true ∧ bit (0x80000000 : Word) 31 = true ∧ up.rbit Reg.SENSE.SENSE_CTL 31 = false ∧
      up.scanFrom 32 0 = none ∧ (up.wr (Reg.SENSE.SCAN_A 31) 0x80001000).scanFrom 32 0 = some 31 ∧ reqMgmt (.tile 0) = true) ∧
    (let s := up.wr Reg.SENSE.SENSE_STATUS 0xC0000000
     s.rbit Reg.SENSE.SENSE_STATUS 31 = true ∧ s.rbit Reg.SENSE.SENSE_STATUS 30 = true ∧ bit (0 : Word) 31 = false) ∧
    (let s := up.wr Reg.SENSE.SENSE_STATUS 0x80000000
     s.rbit Reg.SENSE.SENSE_STATUS 31 = true ∧ s.rbit Reg.SENSE.SENSE_STATUS 30 = false ∧ s.sense.total < max 1 (fld s.sense.curB 31 16) ∧
      s.sense.frameAt + 2500 ≤ ({ s with clock := 2500 } : State).clock ∧ s.sense.stopReq = false ∧
      ({ s with sense := { s.sense with stopReq := true } } : State).sense.stopReq = true ∧
      max 1 (fld s.sense.curB 31 16) ≤ ({ s with sense := { s.sense with total := 1 } } : State).sense.total) ∧
    (let s := up.wr Reg.SENSE.RPT_RD 1
     (s.rf Reg.SENSE.RPT_WR 11 0 % s.rptSlots + 1) % s.rptSlots = s.rf Reg.SENSE.RPT_RD 11 0 % s.rptSlots) := by decide +kernel

/-- Lane 3 enabled in mode 0 with its receiver locked, its link up at speed 5. -/
def lane3 : State := ((up.wr (Reg.WIRE.LANE_CTL 3) 0x800005EE).wr (Reg.WIRE.LANE_STATUS 3) 0x80050000).setLane 3 { lock := true }
/-- A frame of 64 octets with its FCS. -/
def frame64 : List Byte := List.replicate 60 0 ++ le 4 (crc32 (List.replicate 60 0))
/-- A frame of 64 octets with a wrong FCS, and one of a PAUSE frame's type. -/
def badFrame64 : List Byte := List.replicate 64 1
def pause64 : List Byte :=
  let body : List Byte := List.replicate 12 0 ++ [0x88, 0x08] ++ List.replicate 46 0
  body ++ le 4 (crc32 body)
/-- A frame that leaves on lane 3. -/
def send3 : WireTx := { desc := some 64, bytes := [], endAt := 0 }

theorem wit_LanesAndWireFrames :
    (up.accepts (.tile 0) 17 = true ∧
      (let s := up.wr (Reg.WIRE.LANE_CTL 3) 0x88000000
       s.laneOn 3 = true ∧ bit (s.rd (Reg.WIRE.LANE_CTL 3)) 27 = true ∧ s.rbit (Reg.WIRE.LANE_STATUS 3) 30 = false) ∧
      (let s := up.wr (Reg.WIRE.LANE_CTL 3) 0xA0000000
       s.laneOn 3 = true ∧ bit (s.rd (Reg.WIRE.LANE_CTL 3)) 27 = false ∧ s.rbit (Reg.WIRE.LANE_CTL 3) 27 = false ∧ s.laneWord 3 = true)) ∧
    (let s := (lane3.wr (Reg.WIRE.LANE_STATUS 3) 0).setLane 3 { lock := true, okSince := some 0 }
     (s.lane 3).okSince = some 0 ∧ s.link 3 = false ∧ s.laneOk 3 = true ∧ 0 + 5000000 ≤ ({ s with clock := 5000000 } : State).clock) ∧
    (let s := (((lane3.setLane 3 { lock := true, xoff := some 0, rx := [⟨[], 32768, 0, 0, false⟩] }).wr (Reg.WIRE.LANE_CTL 3) 0x810005EE).wr
       (Reg.WIRE.LANE_PAUSE 3) 0x00000010)
     (s.lane 3).xoff = some 0 ∧ 0 + s.bitCycles 3 (s.rf (Reg.WIRE.LANE_PAUSE 3) 31 16 * 256) ≤ s.clock ∧
      s.xoffBytes 3 ≤ 2 * s.laneFill 3 ∧ s.rbit (Reg.WIRE.LANE_CTL 3) 24 = true) ∧
    (up.lane 3).pauseUntil ≤ up.clock ∧
    (lane3.link 3 = true ∧ lane3.life 17 = .ready ∧ up.link 3 = false ∧ (lane3.setLife 17 .held).link 3 = true ∧
      (lane3.setLife 17 .held).life 17 ≠ .ready ∧ ([] : List Byte).length < 64 ∧ lane3.maxFrame 3 < (List.replicate 1519 (0 : Byte)).length ∧
      64 ≤ frame64.length ∧ frame64.length ≤ lane3.maxFrame 3 ∧ badFrame64.length = 64 ∧ pause64.length = 64 ∧
      le 4 (crc32 (frame64.take (frame64.length - 4))) = frame64.drop (frame64.length - 4) ∧
      le 4 (crc32 (pause64.take (pause64.length - 4))) = pause64.drop (pause64.length - 4) ∧ fabField pause64 12 2 = 0x8808 ∧
      le 4 (crc32 (badFrame64.take 60)) ≠ badFrame64.drop 60 ∧
      lane3.rbit (Reg.WIRE.LANE_CTL 3) 22 = false ∧ fabField frame64 12 2 ≠ 0x8808 ∧ lane3.laneFill 3 + frame64.length ≤ 262144 ∧
      262144 < (lane3.setLane 3 { lock := true, rx := [⟨[], 262144, 0, 0, false⟩] }).laneFill 3 + frame64.length) ∧
    (let w : WireOffer := { lane := 3, pri := 7, desc := 64 }
     ({ lane3 with wireIn := [w] } : State).wireIn = w :: []) ∧
    (let s := (lane3.wr (Reg.CLASS.NH_W0 63) 0xA1800000).setNhQueue 63 [(64, 5)]
     s.nhQueue (63 : Fin 64).val = (64, 5) :: [] ∧ s.nhOk 63 = true ∧ s.nhWire 63 = true ∧ s.live 9 = true) ∧
    ((lane3.lane 3).cur = none ∧ lane3.live 17 = true ∧ (lane3.lane 3).pauseOut = [] ∧
      (lane3.setLane 3 { lock := true, pauseOut := [5] }).link 3 = true ∧
      ((lane3.setLane 3 { lock := true, pauseOut := [5] }).lane 3).pauseOut = 5 :: [] ∧
      (let x : Lane := { lock := true, q := [(7, [{ desc := 64 }])] }
       ([7, 6, 5, 4, 3, 2, 1, 0].find? fun p => !(tget (fun _ => []) x.q p).isEmpty) = some 7 ∧
        tget (fun _ => []) x.q 7 = { desc := 64 } :: [] ∧ x.pauseUntil ≤ lane3.clock)) ∧
    (((lane3.setLane 3 { cur := some send3 }).lane 3).cur = some send3 ∧ send3.endAt ≤ lane3.clock ∧ send3.desc = some 64 ∧
      ({ send3 with desc := none } : WireTx).desc = none) := by
  refine ⟨?_, ?_, ?_, ?_, ?_, ?_, ?_, ?_, ?_⟩ <;> decide +kernel

theorem wit_MdioCommandsAndPolls :
    (up.accepts (.tile 0) 17 = true ∧ up.pathFree Reg.WIRE.MDIO_RESULT = true ∧
      (up.wr Reg.WIRE.MDIO_CTL 0x80000000).rbit Reg.WIRE.MDIO_CTL 31 = true ∧ (up.wr Reg.WIRE.MDIO_CTL 0).rbit Reg.WIRE.MDIO_CTL 31 = false ∧
      (up.wr Reg.WIRE.MDIO_RESULT 0x40000000).pathFree Reg.WIRE.MDIO_RESULT = false) ∧
    (let s := (up.wr Reg.WIRE.MDIO_CTL 0x80000000).wr (Reg.WIRE.PHY_POLL 3) 0x80000000
     bit (s.rd (Reg.WIRE.PHY_POLL 3)) 31 = true ∧ s.rbit Reg.WIRE.MDIO_CTL 31 = true ∧ s.live 17 = true ∧
      (s.wire.mdio.any fun t => t.poll = some 3) = false ∧ tget (fun _ => 0) s.wire.polled 3 = 0) ∧
    (let t : MdioTxn := { c45 := false, read := true, phyad := 1, reg := 1, addr := 0, data := 0, tag := 5 }
     let s : State := { up with wire := { mdio := [t] } }
     s.wire.mdio = t :: [] ∧ t.poll = none) ∧
    (let t : MdioTxn := { poll := some 3, c45 := false, read := true, phyad := 1, reg := 1, addr := 1, data := 0 }
     let s : State := { up with wire := { mdio := [t] } }
     s.wire.mdio = t :: [] ∧ t.poll = some 3 ∧ s.rf (Reg.WIRE.PHY_POLL 3) 24 24 = 0 / 4 % 2 ∧
      s.rf (Reg.WIRE.PHY_POLL 3) 24 24 ≠ 4 / 4 % 2) := by decide +kernel

/-- Ring 31 in service, towards the host or from it, its tail at 1, the link up with every permission. -/
def ring31 (d2h : Bool) : State :=
  ((((up.wr (Reg.HOST.RING_W0 31) (if d2h then 0xC0000007 else 0x80000007)).wr (Reg.HOST.RING_W3 31) 1).wr Reg.HOST.HOST_CTL 0x80000000).wr
    Reg.HOST.HOST_STATUS 0xE0000000)

/-- The same ring with entries that end in a check, and pools for the frames: blocks from pool 0, descriptors from pool 1. -/
def crcRing : State :=
  { ((((((ring31 false).wr (Reg.HOST.RING_W0 31) 0xA0000007).wr (Reg.STORE.PORT_POOL 13) 0x00000100).wr (Reg.STORE.POOL_W1 0) 4).wr
      (Reg.STORE.POOL_W2 0) 0x80000000).wr (Reg.STORE.POOL_W3 0) 4).wr (Reg.STORE.POOL_W0 1) 4 |>.wr (Reg.STORE.POOL_W1 1) 1 |>.wr
      (Reg.STORE.POOL_W2 1) 0xC0000000 |>.wr (Reg.STORE.POOL_W3 1) 4 with
    store := { up.store with pools := [(0, { list := [(0, 4)] }), (1, { list := [(16, 4)] })], free := [(0, 20)] } }

theorem wit_RingsMoveFrames :
    (up.accepts (.tile 0) 16 = true ∧ bit (0x80000007 : Word) 31 = true ∧ bit (7 : Word) 31 = false) ∧
    (let s := (up.wr (Reg.HOST.RING_W5 31) 0x00010000).modHost fun x => { x with coalAt := [(31, 1)] }
     s.rf (Reg.HOST.RING_W5 31) 31 16 ≠ 0 ∧ tget (fun _ => 0) s.hostU.coalAt 31 ≠ 0 ∧
      tget (fun _ => 0) s.hostU.coalAt 31 + 500 * s.rf (Reg.HOST.RING_W5 31) 31 16 ≤ ({ s with clock := 500 } : State).clock + 1) ∧
    (let s := ring31 false
     s.ringServed 31 = true ∧ s.life 16 = .ready ∧ s.ringD2h 31 = false ∧ s.ringEmpty 31 = false ∧
      (s.clsIn.any fun f => f.ingress = 7) = false ∧ (s.clsQueue 7).length < 64 ∧ s.ringCrc 31 = false ∧ (1#16) ≠ 0 ∧
      (s.rxStore 13 [0] 0 s.ns).2 = none) ∧
    (let s := crcRing
     let raw : List Byte := [9] ++ ringSum 0 31 [9]
     s.ringServed 31 = true ∧ s.ringD2h 31 = false ∧ s.ringEmpty 31 = false ∧ (s.clsQueue 7).length < 64 ∧ s.ringCrc 31 = true ∧
      (4#16).toNat ≤ 4 ∧ 4 < (5#16).toNat ∧ (s.rxStore 13 [9] 0 s.ns).2 = some 1024 ∧
      raw.take ((5#16).toNat - 4) = [9] ∧ raw.drop ((5#16).toNat - 4) = ringSum (s.ringHead 31) 31 [9] ∧
      ([9, 0, 0, 0, 0] : List Byte).drop ((5#16).toNat - 4) ≠ ringSum (s.ringHead 31) 31 [9]) ∧
    (let s := { (ring31 true).modHost fun x => { x with d2h := [(31, List.replicate 64 64)] } with hostIn := [(31, 64), (30, 64)] }
     s.ringServed 31 = true ∧ s.ringD2h 31 = true ∧ 64 ≤ (s.d2hQueue 31).length) ∧
    (let s := { ring31 true with hostIn := [(31, 64)] }
     s.hostIn = (31, 64) :: [] ∧ s.life 16 ≠ .draining ∧ s.ringServed 31 = true ∧ s.ringD2h 31 = true ∧ (s.d2hQueue 31).length < 64 ∧
      s.ringServed 30 = false) ∧
    (let s := ((ring31 true).modHost fun x => { x with d2h := [(31, [64])] }).wm (64 + 8) 4 0x01000020
     s.d2hQueue 31 = 64 :: [] ∧ s.ringServed 31 = true ∧ s.ringD2h 31 = true ∧ s.ringEmpty 31 = false ∧ (63#16).toNat < 64 ∧
      64 ≤ (65535#16).toNat ∧ ((s.setD2h 31 []).hostRead 64).2 = true ∧ ((s.setLife 8 .fault).setD2h 31 [] |>.hostRead 64).2 = false ∧
      (let t := s.wm (64 + 8) 4 0x01000041
       ((t.setD2h 31 []).hostRead 64).2 = true ∧ 64 ≤ (64#16).toNat ∧ (64#16).toNat < (t.dData 64).length) ∧ s.ringCrc 31 = false ∧ (s.dData 64).length ≤ (65535#16).toNat) ∧
    ((ring31 true).ringServed 31 = true ∧ (ring31 true).d2hQueue 31 = []) ∧
    (let s := (ring31 true).modHost fun x => { x with d2h := [(31, [64])] }
     s.ringServed 31 = true ∧ s.ringD2h 31 = true ∧ s.d2hQueue 31 = 64 :: []) := by
  refine ⟨?_, ?_, ?_, ?_, ?_, ?_, ?_, ?_, ?_⟩ <;> decide +kernel

theorem wit_HostLinkAndMailboxes :
    (up.rbit Reg.HOST.HOST_STATUS 31 = false ∧ up.hostU.perst = true ∧ up.life 16 ≠ .off ∧ up.life 16 ≠ .reset ∧ up.life 16 ≠ .selftest ∧
      (1#4).toNat = 1 ∧ (2#4).toNat = 2 ∧ (4#4).toNat = 4) ∧
    (let s := up.wr Reg.HOST.HOST_STATUS 0x80000000
     s.rbit Reg.HOST.HOST_STATUS 31 = true ∧ s.active 16 = true) ∧
    (28 ≤ (33 : Fin 64).val ∧ (33 : Fin 64).val ≤ 33) ∧
    (up.accepts (.tile 0) 16 = true ∧ up.pathFree (Reg.HOST.MBX_W5 7) = true ∧ reqMgmt (.tile 0) = true ∧ reqMgmt .host = false ∧
      up.accepts .host 16 = true) ∧
    (let s := up.wr (Reg.HOST.MBX_W5 7) 0x40000005
     s.pathFree (Reg.HOST.MBX_W5 7) = false ∧ s.rbit (Reg.HOST.MBX_W5 7) 30 = true ∧ s.rf (Reg.HOST.MBX_W5 7) 7 0 = 5) := by decide +kernel

/-! Witnesses: the queue and the invariant, and Uzoath. -/

theorem wit_StepRunsTheFrontCommand :
    (up.push (.actTableClear)).pending = .actTableClear :: [] ∧ up.pending = [] := by decide

theorem wit_EveryCommandKeepsTheForm : (up.wb 5 7).Canonical ∧ (up.wb 5 7).rb 5 = 7 := by
  unfold State.Canonical
  decide

theorem wit_StepsKeepTheForm : ((up.wb 5 7).push .actTableClear).Canonical ∧ ((up.wb 5 7).push .actTableClear).pending ≠ [] := by
  unfold State.Canonical
  decide

/-- A thread's processor with a word and an extension word at address 0, the thread running there with the registers given. -/
def uzAt (th : ThreadRef) (w ext : Nat) (x : Thread) : State :=
  ((up.wm th.code.1 4 w).wm (th.code.1 + 4) 4 ext).setThread th.key { x with run := .running }
/-- An instruction word (R46) guarded by P0. -/
def word (op sz mode opd : Nat) : Nat := op * 2 ^ 22 + sz * 2 ^ 20 + mode * 2 ^ 16 + opd
/-- What holds of the instruction that a thread issues next. -/
def onNext (th : ThreadRef) (s : State) (f : Uz → Bool) : Bool :=
  match s.nextInsn th with
  | some c => f c
  | none => false
/-- The operand's value can be read. -/
def readable (c : Uz) (s : State) : Bool :=
  match c.value s c.i.width (c.opnd s).1 with
  | .ok _ => true
  | .error _ => false
/-- How an instruction's body ends: 0 complete, a trap's cause after it, 100 and a cause before it, 200 parked, 201
held, 202 held for want of a posted store's place. -/
def bodyEnd (c : Uz) (s : State) : Nat :=
  match c.body s with
  | .ok (_, k) => k
  | .error (.trap _ k _) => 100 + k
  | .error .park => 200
  | .error .hold => 201
  | .error .full => 202
/-- A packet engine's thread and a radio's. -/
def thE : ThreadRef := { tile := 11, eng := 0, thr := 0 }
def thR : ThreadRef := { tile := 2, eng := 0, thr := 0 }
/-- Registers with window 0 open at a device address. -/
def opened : Thread := { w0 := 1, sp := 0x100 }

theorem wit_UzoathRowsIssue :
    (onNext th0 (uzAt th0 (word 0x09 2 0 5) 0 {}) fun c => (uzRows th0).any (fun r => r.1 = .add th0) && c.i.op = 0x09 &&
      c.guard (uzAt th0 (word 0x09 2 0 5) 0 {}) && bodyEnd c (uzAt th0 (word 0x09 2 0 5) 0 {}) = 0) = true ∧
    (onNext th0 (uzAt th0 (2 ^ 31 + word 0x09 2 0 5) 0 {}) fun c => !c.guard (uzAt th0 (2 ^ 31 + word 0x09 2 0 5) 0 {})) = true ∧
    (let s := uzAt th0 (word 0x01 2 3 0) (2 ^ 31) opened
     onNext th0 s fun c => bodyEnd c s = 200) = true ∧
    (let s := uzAt th0 (word 0x01 2 3 0) (2 ^ 31 - 4) {}
     onNext th0 s fun c => bodyEnd c s = 105) = true ∧
    (let s := uzAt th0 (word 0x09 2 0 1) 0 { a := 0x7FFFFFFF, st := 0x10200 }
     onNext th0 s fun c => bodyEnd c s = 9) = true ∧
    (let s := uzAt th0 (word 0x35 2 2 0x100) 0 { e := 8, copies := List.replicate 4 ⟨0, 0, false, true, 64, 4, 128, 0⟩ }
     onNext th0 s fun c => bodyEnd c s = 201) = true ∧
    (let s := uzAt th0 (word 0x02 2 3 0) (2 ^ 31) { opened with posted := List.replicate 8 ⟨2 ^ 31, 64, 4, 5⟩ }
     onNext th0 s fun c => bodyEnd c s = 202) = true ∧
    up.nextInsn th0 = none ∧
    (let s := withThread up th0.key { sp := 0x100, st := 0x20000 }
     let rep := withThread up th0.key { sp := 0x100, rep := some { left := 3, pc := 8 } }
     let out := withThread up th0.key { sp := 2 ^ 31 - 8 }
     let ord := withThread up th0.key { opened with sp := 2 ^ 31 + 0x100, w0 := 5, posted := [⟨2 ^ 31, 64, 4, 5⟩] }
     (s.thread th0.key).inTrap = true ∧ (rep.thread th0.key).inTrap = false ∧ (rep.thread th0.key).rep = some { left := 3, pc := 8 } ∧
      rep.frameWaits th0 0xF0 = false ∧ (rep.frameStores th0 0xF0 [8, 0x10000, 0x30007, 0]).2 = true ∧ 0xF0 + 16 ≤ th0.data.2 ∧
      (out.thread th0.key).inTrap = false ∧ out.frameWaits th0 (2 ^ 31 - 24) = false ∧
      (out.frameStores th0 (2 ^ 31 - 24) [0, 0x10000, 7, 0]).2 = false ∧
      (ord.thread th0.key).inTrap = false ∧ ord.frameWaits th0 (2 ^ 31 + 0xF0) = true) ∧
    (let s := uzAt th0 0 0 { sp := 0x100 }
     let x := s.thread th0.key
     let t := s.setThread th0.key { x with traps := [⟨7, 0x80000000, true⟩] }
     x.inTrap = false ∧ x.rep = none ∧ (x.sp - 16).toNat % 4 = 0 ∧ (x.sp - 16).toNat + 16 ≤ th0.data.2 ∧ s.canIssue th0 = true ∧
      s.fetched th0 = .trap 1 0 ∧ (t.setThread th0.key { (t.thread th0.key) with traps := [] }).canIssue th0 = true) := by
  refine ⟨?_, ?_, ?_, ?_, ?_, ?_, ?_, ?_, ?_, ?_⟩ <;> decide +kernel

theorem wit_UzoathOperationsCompute :
    ([0x01, 0x03, 0x05, 0x09, 0x0A, 0x0B, 0x0C, 0x0D, 0x0E, 0x0F, 0x10, 0x11, 0x12, 0x13, 0x14, 0x15, 0x16, 0x17, 0x18, 0x19, 0x1A,
      0x1B, 0x1C, 0x1D, 0x21, 0x22, 0x23, 0x24, 0x25, 0x26, 0x27, 0x28, 0x29, 0x2A, 0x2B, 0x2C, 0x2D, 0x34].all fun op =>
      let s := uzAt th0 (word op 2 0 0) 0 {}
      onNext th0 s fun c => c.i.op = op && c.guard s && readable c s && !bit (s.uz c).st 9 && !bit (s.uz c).st 8) = true ∧
    (let s := uzAt th0 (word 0x1D 1 0 5) 0 {}
     onNext th0 s fun c => c.i.op = 0x1D && c.i.sz = 1 && readable c s) = true ∧
    (let s := uzAt th0 (word 0x33 2 15 0x30) 0 {}
     onNext th0 s fun c => c.i.op = 0x33 && readable c s) = true := by
  refine ⟨?_, ?_, ?_⟩ <;> decide +kernel

theorem wit_UzoathMovesAndTransfers :
    ([0x02, 0x04, 0x06, 0x08].all fun op =>
      (let s := uzAt th0 (word op 2 2 0x100) 0 {}
       onNext th0 s fun c => c.guard s && (c.opnd s).1 = .ea 0x100 && (match place th0 (s.uz c) 0x100 4 true with
        | .ok (.here _) => true
        | _ => false)) &&
      (let s := uzAt th0 (word op 2 15 6) 0 {}
       onNext th0 s fun c => (c.opnd s).1 = .reg 6 && !(s.uz c).privileged 6 ((s.uz c).a.toNat % 2 ^ 32))) = true ∧
    ([0x02, 0x04, 0x06].all fun op => let s := uzAt th0 (word op 2 3 0) (2 ^ 31) opened
     onNext th0 s fun c => c.guard s && (c.opnd s).1 = .ea (2 ^ 31) && (s.uz c).posted.length < 8 && !(s.uz c).postHold &&
      (match place th0 (s.uz c) (2 ^ 31) 4 true with
        | .ok (.dev 0 false) => true
        | _ => false)) = true ∧
    (let s := uzAt th0 (word 0x07 2 2 0x100) 0 {}
     onNext th0 s fun c => (c.opnd s).1 = .ea 0x100) = true ∧
    ([0x1E, 0x1F, 0x20, 0x2E, 0x31].all fun op => let s := uzAt th0 (word op 2 0 0) 0 {}
     onNext th0 s fun c => c.i.op = op && c.guard s && !c.badTarget (c.target s)) = true ∧
    (let s := uzAt th0 (word 0x2F 2 0 0) 0 { sp := 0x100 }
     onNext th0 s fun c => !c.badTarget (c.target s) && (match c.store s ((s.uz c).sp - 4).toNat 4 c.next with
      | .ok _ => true
      | .error _ => false)) = true ∧
    (let s := uzAt th0 (word 0x30 2 0 0) 0 { sp := 0x100 }
     onNext th0 s fun c => c.i.opd = 0 && (match c.load s (s.uz c).sp.toNat 4 with
      | .ok (_, t) => !c.badTarget t
      | .error _ => false)) = true ∧
    (let s := uzAt th0 (word 0x30 2 0 1) 0 { sp := 0x100, st := 0x30000 }
     onNext th0 s fun c => c.i.opd = 1 && (s.uz c).system && (s.uz c).sp.toNat % 16 = 0 && (s.uz c).sp.toNat + 16 ≤ c.th.data.2 &&
      !c.badTarget (s.rm (th0.data.1 + (s.uz c).sp.toNat) 4)) = true ∧
    (let s := uzAt th0 (word 0x32 2 0 0) (word 0x09 2 0 1) { k := 3 }
     let t := uzAt th0 (word 0x32 2 0 0) (word 0x09 2 0 1) {}
     let e := (up.wm (th0.code.1 + th0.code.2 - 4) 4 (word 0x32 2 0 0)).setThread th0.key { run := .running, pc := th0.code.2 - 4 }
     (onNext th0 s fun c => c.i.op = 0x32 && (s.uz c).k != 0) && (onNext th0 t fun c => (t.uz c).k = 0 &&
      (t.fetchWord th0 c.next).isSome) && onNext th0 e fun c => c.i.op = 0x32 && (e.uz c).k = 0 &&
        (e.fetchWord th0 c.next).isNone) = true ∧
    (let s := uzAt th0 (word 0x31 2 0 0) 0 {}
     onNext th0 s fun c => c.i.op = 0x31 && c.guard s) = true := by
  refine ⟨?_, ?_, ?_, ?_, ?_, ?_, ?_, ?_, ?_⟩ <;> decide +kernel

theorem wit_UzoathSystemOperations :
    (let s := uzAt th0 (word 0x35 2 2 0x100) 0 {}
     onNext th0 s fun c => (c.opnd s).1 = .ea 0x100 && c.fetchFault s 0x100 = none && fld (s.uz c).e 8 0 = 0 && c.guard s) = true ∧
    (let s := uzAt th0 (word 0x35 2 2 0x100) 0 { e := 8 }
     onNext th0 s fun c => c.fetchFault s 0x100 = none && fld (s.uz c).e 8 0 != 0 && (s.uz c).copies.length < 4) = true ∧
    ([1, 5].all fun w => let s := uzAt th0 (word 0x35 2 3 0) (2 ^ 31) { opened with e := 8, w0 := w }
     onNext th0 s fun c => (c.opnd s).1 = .ea (2 ^ 31) && c.fetchFault s (2 ^ 31) = none && fld (s.uz c).e 8 0 != 0 &&
      bit ((s.uz c).w (2 ^ 31 / 2 ^ 29 % 4)) 2 = (w = 5)) = true ∧
    ([0x36, 0x37].all fun op => let s := uzAt th0 (word op 2 2 0x100) 0 {}
     onNext th0 s fun c => (c.opnd s).1 = .ea 0x100 && (match place th0 (s.uz c) 0x100 4 true with
      | .ok (.here _) => true
      | _ => false)) = true ∧
    (let s := uzAt th0 (word 0x38 2 0 0) 0 {}
     let t := uzAt th0 (word 0x38 2 0 0) 0 { posted := [⟨0, 0, 4, 0⟩] }
     (onNext th0 s fun c => (s.uz c).posted = [] && (s.uz c).copies = []) && onNext th0 t fun c => (t.uz c).posted != []) = true ∧
    (let s := uzAt thE (word 0x39 2 2 0x100) 0 {}
     onNext thE s fun c => (c.opnd s).1 = .ea 0x100 && decide (0x100 + 32 ≤ c.th.data.2 ∧ c.th.data.2 ≤ 2 ^ 31)) = true ∧
    (let s := uzAt thE (word 0x3A 2 0 0) 0 { item := some 5 }
     onNext thE s fun c => c.i.op = 0x3A && readable c s && (s.uz c).item = some 5) = true ∧
    (let s := uzAt thE (word 0x3C 2 0 5) 0 {}
     onNext thE s fun c => readable c s) = true ∧
    ([0, 9].all fun v => let s := uzAt th0 (word 0x3D 2 0 v) 0 {}
     onNext th0 s fun c => readable c s && (tget (fun _ => []) s.evtIn 0).isEmpty) = true ∧
    (let s := uzAt thE (word 0x3B 2 11 0) 0 {}
     onNext thE s fun c => (match c.loads 0 8 s with
      | .ok _ => true
      | .error _ => false)) = true ∧
    (let s := uzAt thR (word 0x3E 2 2 0x100) 0 {}
     onNext thR s fun c => (match c.loads 0x100 4 s with
      | .ok _ => true
      | .error _ => false)) = true ∧
    (let s := up.setThread th0.key { run := .resp (word 0x01 2 3 0) 0x100 }
     let c : Uz := { th := th0, i := Insn.ofWord (word 0x01 2 3 0), ext := 0x100, pc := 0, arrived := true }
     let a : Uz := { th := th0, i := Insn.ofWord (word 0x09 2 3 0), ext := 2 ^ 31, pc := 0, arrived := true }
     let v := withThread (up.wm 0 4 0x80000000) th0.key { opened with a := 0x80000000, st := 0x10200 }
     bodyEnd c (s.setThread th0.key { (s.thread th0.key) with run := .running }) = 0 ∧
      bodyEnd { a with dataErr := true } (withThread up th0.key opened) = 108 ∧
      bodyEnd a v = 9) ∧
    (let p : PostedStore := ⟨0x80000000, 64, 4, 5⟩
     (up.setThread th0.key { posted := [p] }).thread th0.key = { posted := [p] } ∧ ∀ q ∈ [p].take 0, q.dev / 4 ≠ p.dev / 4) ∧
    (let q : CopySlot := ⟨0, th0.data.1, false, true, 64, 4, 128, 0⟩
     ((up.setThread th0.key { run := .running, copies := [q] }).thread th0.key).copies[0]? = some q ∧ q.isLocal = true ∧ q.ordSrc = false) ∧
    ((let s := withThread up th0.key { opened with run := .frame 7 0 0 7, sp := 2 ^ 31 + 0x100, w0 := 5 }
      (s.thread th0.key).run = .frame 7 0 0 7 ∧ (s.thread th0.key).devBusy = false)) ∧
    (let q : CopySlot := ⟨2 ^ 31, 64, true, false, 64, 4, 128, 0⟩
     let s := withThread up th0.key { run := .running, copies := [{ q with isLocal := true }, q] }
     (s.thread th0.key).copies[1]? = some q ∧ q.isLocal = false ∧ q.waits = 0 ∧
      (∀ p ∈ (s.thread th0.key).copies.take 1, p.isLocal = true) ∧
      (s.busRead (.tile 0) 64 4).2.1 = .ok ∧ (s.busRead (.tile 0) 0x3F00000000 4).2.1 = .decode ∧
      ((s.setLife 8 .fault).busRead (.tile 0) 64 4).2.1 ≠ .ok) ∧
    ((up.setThread th0.key { run := .waitev 0 (some 0) }).thread th0.key).run = .waitev 0 (some 0) ∧ 0 ≤ up.clock := by
  refine ⟨?_, ?_, ?_, ?_, ?_, ?_, ?_, ?_, ?_, ?_, ?_, ?_, ?_, ?_, ?_, ?_, ?_, ?_⟩ <;> decide +kernel

/-! WellFormed refuses an ill-formed command for each of its checks. -/

theorem test_wf_thread : Instr.wellFormed (.ld { tile := 1, eng := 0, thr := 0 }) = false ∧
    Instr.wellFormed (.ld { tile := 7, eng := 0, thr := 1 }) = false ∧ Instr.wellFormed (.ld { tile := 0, eng := 1, thr := 0 }) = false ∧
    Instr.wellFormed (.ld { tile := 14, eng := 7, thr := 3 }) = true := by decide
theorem test_wf_refusedCode : Instr.wellFormed (.reqStateRefusedCode 7 0 false 4) = false ∧
    Instr.wellFormed (.reqStateRefusedCode 7 0 false 15) = false ∧ Instr.wellFormed (.reqStateRefusedCode 7 0 false 14) = true := by decide
theorem test_wf_registerWrite : Instr.wellFormed (.registerWrite .host 0 3 0) = false ∧
    Instr.wellFormed (.registerWrite .host 0 4 0) = true := by decide
theorem test_wf_rfOp : Instr.wellFormed (.rfCmdIllegalOp .host 0 0 5) = false ∧
    Instr.wellFormed (.rfCmdIllegalOp .host 0 0 6) = true := by decide
theorem test_wf_rffeKind : Instr.wellFormed (.rffeIllegalKind .host 0 4 0) = false ∧
    Instr.wellFormed (.rffeIllegalKind .host 0 5 0) = true := by decide
theorem test_wf_newtFrame : Instr.wellFormed (.newtFrameReceive (List.replicate 128 0) 0 0) = false ∧
    Instr.wellFormed (.newtFrameReceive (List.replicate 127 0) 0 0) = true := by decide +kernel
theorem test_wf_storeRequest : Instr.wellFormed (.storeRequestArrive 0 0 0 none) = false ∧
    Instr.wellFormed (.storeRequestArrive 0 0 2 (some [1])) = false ∧ Instr.wellFormed (.storeRequestArrive 0 0 1 (some [1])) = true := by decide
theorem test_wf_pcieLinkUp : Instr.wellFormed (.pcieLinkUp 0 3) = false ∧ Instr.wellFormed (.pcieLinkUp 0 4) = true := by decide
theorem test_wf_hostBar : Instr.wellFormed (.hostBarRequest false 0 [] none) = false ∧
    Instr.wellFormed (.hostBarRequest false 0 [true, true] (some [1])) = false ∧
    Instr.wellFormed (.hostBarRequest false 0 [true] (some [1])) = true := by decide
theorem test_wf_sensorRead : Instr.wellFormed (.sensorRead [1] []) = false ∧
    Instr.wellFormed (.sensorRead (List.replicate 12 25) (List.replicate 16 750)) = true := by decide
theorem test_wf_roMonUpdate : Instr.wellFormed (.roMonUpdate []) = false ∧
    Instr.wellFormed (.roMonUpdate (List.replicate 24 0)) = true := by decide

/-! One step each, with values from the spec's tables and worked by hand from its rules. -/

/-- The state that a command answers. -/
def after (c : Instr) (s : State) : State :=
  match exec c s with
  | .next u => u
  | _ => s

/-- R16, R17: READY asked of a tile in RESET goes to SELFTEST first, and the request stays in progress. -/
theorem test_ready_begins_with_selftest :
    let u := after (.reqStateReady 7 5 false) State.reset
    u.life 7 = .selftest ∧ (u.tile 7).busy = true ∧ (u.tile 7).target = 4 := by decide +kernel
/-- R17: RESET asked of a READY tile is reached by its own event, which posts DONE with the request's tag. -/
theorem test_reset_posts_done :
    let u := after (.tileResetReached 7) (after (.reqStateReset 7 5 false) up)
    u.life 7 = .reset ∧ (u.tile 7).resValid = true ∧ (u.tile 7).resCode = 0 ∧ (u.tile 7).resTag = 5 := by decide +kernel
/-- R78: 0xFFFFFFFF + 1 is 0, E and V as before; 0x7FFFFFFF + 1 sets V. -/
theorem test_add_wraps :
    let u := (after (.add th0) (uzAt th0 (word 0x09 2 0 1) 0 { a := 0xFFFFFFFF, e := 7 })).thread th0.key
    let v := (after (.add th0) (uzAt th0 (word 0x09 2 0 1) 0 { a := 0x7FFFFFFF })).thread th0.key
    u.a = 0 ∧ u.e = 7 ∧ bit u.st 0 = false ∧ u.pc = 4 ∧ v.a = 0x80000000 ∧ bit v.st 0 = true := by decide +kernel
/-- R81: -7 divided by 2 is -3 with remainder -1; by 0 it is all ones with the dividend in E. -/
theorem test_div_truncates :
    let u := (after (.div th0) (uzAt th0 (word 0x11 2 0 2) 0 { a := 0xFFFFFFF9 })).thread th0.key
    let v := (after (.div th0) (uzAt th0 (word 0x11 2 0 0) 0 { a := 9 })).thread th0.key
    u.a = 0xFFFFFFFD ∧ u.e = 0xFFFFFFFF ∧ v.a = 0xFFFFFFFF ∧ v.e = 9 := by decide +kernel
/-- R80: -1 times 2 is -2 in A with its high half in E. -/
theorem test_mul_signed :
    let u := (after (.mul th0) (uzAt th0 (word 0x0F 2 0 2) 0 { a := 0xFFFFFFFF })).thread th0.key
    u.a = 0xFFFFFFFE ∧ u.e = 0xFFFFFFFF := by decide +kernel
/-- R86: the bytes of a word reversed. -/
theorem test_bswap :
    ((after (.bswap th0) (uzAt th0 (word 0x1D 2 1 0) 0x12345678 {})).thread th0.key).a = 0x78563412 := by decide +kernel
/-- R49: a compare form writes its predicate whatever its guard. -/
theorem test_cmp_lt :
    ((after (.cmpLt th0) (uzAt th0 (3 * 2 ^ 28 + word 0x23 2 0 0) 0 { a := 0xFFFFFFFF })).thread th0.key).pred 3 = true := by decide +kernel
/-- R64, R66: OP 0 traps with cause 1: PC 16, the frame at S - 16 with the old PC, ST, 1 and the address. -/
theorem test_illegal_traps :
    let u := after (.illegalInstruction th0) (uzAt th0 0 0 { sp := 0x100 })
    (u.thread th0.key).pc = 16 ∧ (u.thread th0.key).sp = 0xF0 ∧ u.rm (th0.data.1 + 0xF8) 4 = 1 := by decide +kernel
/-- R89: BR is relative to the next instruction. -/
theorem test_br_relative :
    ((after (.br th0) (uzAt th0 (word 0x2E 2 0 0x10) 0 {})).thread th0.key).pc = 0x14 := by decide +kernel
/-- FIPS-197, appendix C.1: AES-128 of its example block. -/
theorem test_aes : aes (aesKeys (List.range 16)) ((List.range 16).map fun k => 17 * k) =
    [0x69, 0xC4, 0xE0, 0xD8, 0x6A, 0x7B, 0x04, 0x30, 0xD8, 0xCD, 0xB7, 0x80, 0x70, 0xB4, 0xC5, 0x5A] := by decide +kernel
/-- The check values of CRC-32 and CRC-32C over the octets of 123456789. -/
theorem test_crc : crc32 ((List.range 9).map fun k => BitVec.ofNat 8 (0x31 + k)) = 0xCBF43926 ∧
    crc32c ((List.range 9).map fun k => BitVec.ofNat 8 (0x31 + k)) = 0xE3069283 := by decide +kernel
/-- R152: a push whose command asks for no bytes is dropped and counted. -/
theorem test_push_malformed :
    (after (.txqPush (.tile 0) 0 true) up).rf (Reg.RADIO.TX_ERR_CNT 0) 15 8 = 1 := by decide +kernel
/-- R209: an installed key answers with code 0 and its tag. -/
theorem test_key_install : (after (.keyInstall (.tile 0) 9) up).rd Reg.MLINK.KEY_RESULT = 0x80000009 := by decide +kernel
/-- R204: an AID below 16 is INVALID, code 1. -/
theorem test_aid_invalid : (after (.aidSet (.tile 0) 9) up).rf Reg.MLINK.AID_RESULT 30 27 = 1 := by decide +kernel
/-- R415: SET moves the count to its argument. -/
theorem test_ms_set : (after (.msSet (.tile 0) 9) (up.wr Reg.TIME.MS_ARG_LO 77)).ms.ns = 77 := by decide +kernel
/-- R447: a mailbox command raises BUSY with its tag. -/
theorem test_mailbox_busy : (after (.mbxCmd .host 7 3 5) up).rd (Reg.HOST.MBX_W5 7) = 0x40000005 := by decide +kernel
/-- R446: a CR command on a path in use does nothing; the link speed code of 2.5 GT/s by four is 0x14. -/
theorem test_link_up : (after (.pcieLinkUp 0 4) up).rf Reg.HOST.HOST_STATUS 23 16 = 0x14 := by decide +kernel
/-- R29: a write to a tile in RESET is discarded and counted. -/
theorem test_early_write : ((after (.newtTxCmd (.tile 0) 5) State.reset).tile 7).earlyWr = 1 := by decide +kernel
/-- The model's cycle: an idle step is 2 ns (DESIGN CHOICE, log entry 7). -/
theorem test_idle_cycle : (match step up with | .next u => u.clock | _ => 0) = 1 := by decide +kernel

end Sys2Proof.Tests
end

section
/-! The meaning that `exec` runs for the commands of the statements below. -/

namespace Sys2Proof.Machine

theorem exec_selftestDone_eq (t : Fin 18) (found : TestOutcome) (s : State) :
    exec (.selftestDone t found) s = execSelftestDone t found s := rfl
theorem exec_calibrateDone_eq (t : Fin 18) (failed : Option (BitVec 8)) (s : State) :
    exec (.calibrateDone t failed) s = execCalibrateDone t failed s := rfl
theorem exec_tileResetReached_eq (t : Fin 18) (s : State) :
    exec (.tileResetReached t) s = execTileResetReached t s := rfl
theorem exec_tileOffReached_eq (t : Fin 18) (s : State) :
    exec (.tileOffReached t) s = execTileOffReached t s := rfl
theorem exec_offToResetDone_eq (t : Fin 18) (s : State) :
    exec (.offToResetDone t) s = execOffToResetDone t s := rfl
theorem exec_resumeReadyDone_eq (t : Fin 18) (s : State) :
    exec (.resumeReadyDone t) s = execResumeReadyDone t s := rfl
theorem exec_drainComplete_eq (t : Fin 18) (s : State) :
    exec (.drainComplete t) s = execDrainComplete t s := rfl
theorem exec_drainTimeout_eq (t : Fin 18) (s : State) :
    exec (.drainTimeout t) s = execDrainTimeout t s := rfl
theorem exec_perstNAssert_eq (s : State) :
    exec .perstNAssert s = execPerstNAssert s := rfl
theorem exec_perstNRelease_eq (s : State) :
    exec .perstNRelease s = execPerstNRelease s := rfl
theorem exec_evtPendClear_eq (t : Fin 18) (bits : Word) (s : State) :
    exec (.evtPendClear t bits) s = execEvtPendClear t bits s := rfl
theorem exec_evtMaskWrite_eq (t : Fin 18) (mask : Word) (s : State) :
    exec (.evtMaskWrite t mask) s = execEvtMaskWrite t mask s := rfl
theorem exec_eventMessageArrive_eq (n : Nat) (s : State) :
    exec (.eventMessageArrive n) s = execEventMessageArrive n s := rfl
theorem exec_tileCtlAck_eq (t : Fin 18) (tag : Tag) (s : State) :
    exec (.tileCtlAck t tag) s = execTileCtlAck t tag s := rfl
theorem exec_tileErrWrite_eq (t : Fin 18) (firstValid multi early reqDrop : Bool) (s : State) :
    exec (.tileErrWrite t firstValid multi early reqDrop) s = execTileErrWrite t firstValid multi early reqDrop s := rfl
theorem exec_flitReceive_eq (t : Fin 18) (link : Fin 4) (data : BitVec 256) (check : BitVec 8) (s : State) :
    exec (.flitReceive t link data check) s = execFlitReceive t link data check s := rfl
theorem exec_islandRelock_eq (t : Fin 18) (island : Fin 5) (s : State) :
    exec (.islandRelock t island) s = execIslandRelock t island s := rfl
theorem exec_sramUncorrectable_eq (t : Fin 18) (unit : BitVec 8) (addr : BitVec 40) (s : State) :
    exec (.sramUncorrectable t unit addr) s = execSramUncorrectable t unit addr s := rfl
theorem exec_sramCorrectedError_eq (t : Fin 18) (row : BitVec 16) (s : State) :
    exec (.sramCorrectedError t row) s = execSramCorrectedError t row s := rfl
theorem exec_axSramRowSubst_eq (t : Fin 18) (row : BitVec 16) (spare : Option (BitVec 8)) (s : State) :
    exec (.axSramRowSubst t row spare) s = execAxSramRowSubst t row spare s := rfl
theorem exec_axTrackSubst_eq (t : Fin 18) (link : Fin 4) (track : BitVec 9) (s : State) :
    exec (.axTrackSubst t link track) s = execAxTrackSubst t link track s := rfl
theorem exec_axLaneSubst_eq (r : Fin 3) (s : State) :
    exec (.axLaneSubst r) s = execAxLaneSubst r s := rfl
theorem exec_axEngineSubst_eq (c : Fin 4) (e : Fin 8) (s : State) :
    exec (.axEngineSubst c e) s = execAxEngineSubst c e s := rfl
theorem exec_mdioTransactionDone_eq (resp : Option (BitVec 16)) (s : State) :
    exec (.mdioTransactionDone resp) s = execMdioTransactionDone resp s := rfl

end Sys2Proof.Machine
end

section
/-! The queue, the clock and the canonical form over every command and every step; the state after reset. -/

namespace Sys2Proof.Machine

/-- No command ends in a fault or a refusal. -/
theorem exec_next (c : Instr) (s : State) : exec c s = .next (s.cmd fun z => exec c z) := by
  cases c <;> rfl

/-- Every command keeps the queue, the clock and the canonical form: `exec` runs the meaning of its row, and each has its `_keeps`. -/
theorem exec_keeps (c : Instr) (s : State) : Keeps s (s.cmd fun z => exec c z) := by
  cases c <;> simp [exec]

/-- Canonical form reads memory and registers only. -/
theorem State.Canonical.congr {s t : State} (hm : t.mem = s.mem) (hr : t.regs = s.regs) (h : s.Canonical) : t.Canonical := by
  obtain ⟨hmem, hregs⟩ := h
  exact ⟨hm ▸ hmem, hr ▸ hregs⟩

theorem State.timeCycle_canonical {s : State} (h : s.Canonical) : s.timeCycle.Canonical := h.congr rfl rfl

/-- A cycle without a command: the clock moves on by one, and what Newt does at it keeps the rest. -/
theorem State.cycle_keeps (s : State) : Keeps s.timeCycle s.cycle := State.newtTick_keeps (.refl _)

/-- Settles O3: every command's meaning answers a next state, and `Keeps` says what that state has in common with the one before. -/
theorem everyCommandKeepsTheForm : Obligations.EveryCommandKeepsTheForm := by
  intro c s hs
  have k := exec_keeps c s
  exact ⟨_, exec_next c s, k.pending, k.clock, k.canon hs⟩

/-- Settles O4: a step is the front command's meaning on the state without it (O3), or one cycle where none waits. -/
theorem stepsKeepTheForm : Obligations.StepsKeepTheForm := by
  intro s hs
  cases hp : s.pending with
  | nil =>
    have k := s.cycle_keeps
    exact ⟨s.cycle, by simp [step, hp], k.canon (State.timeCycle_canonical hs), k.pending.trans hp, k.clock⟩
  | cons c rest =>
    obtain ⟨u, hu, hpend, hclock, hcanon⟩ := everyCommandKeepsTheForm c { s with pending := rest } (hs.congr rfl rfl)
    exact ⟨u, by simp [step, hp, hu], hcanon, hpend, hclock⟩

/-- At reset the table of tiles is empty: every tile reads as a tile that nothing has touched. -/
theorem State.tile_reset (t : Nat) : State.reset.tile t = {} := rfl

/-- At reset two threads are listed, MGMT's, and every other one reads as stopped. -/
theorem State.thread_reset (k : Nat) : State.reset.thread k =
    { run := if k = threadKey 0 0 0 ∨ k = threadKey 0 0 1 then .running else .stopped } := by
  simp only [State.thread, State.reset, tget, threadKey]
  split
  · simp [*]
  · split <;> simp [*]

/-- Settles O2: at reset every table but that of the threads is empty, so each entry reads as its default. -/
theorem resetLeavesWhatTheSpecSays : Obligations.ResetLeavesWhatTheSpecSays := by
  refine ⟨⟨rfl, rfl⟩, rfl, rfl, rfl, rfl, rfl, fun t => ?_, fun _ => rfl, fun _ => rfl, fun k => ?_, rfl⟩
  · simp [State.life, State.tile_reset]
  · simp [State.thread_reset]

end Sys2Proof.Machine
end

section
/-! Requests of the tile life cycle (R17 to R21): the write of TILE_CTL and the row of the table that it runs. -/

namespace Sys2Proof.Machine

variable {s : State} {t : Nat} {tag : Tag} {lock : Bool}

/-! The write of TILE_CTL in its fields (R31). -/

section Asked
variable (s : State) (t code : Nat) (tag : Tag) (lock : Bool)

theorem State.tile_asked : (s.asked t code tag lock).tile t = { s.tile t with
    lock := (s.tile t).lock || (lock && (s.tile t).life != .off), ctlTag := tag, ctlReq := code } := State.tile_modTile_self s t _
@[simp] theorem State.asked_life (k : Nat) : (s.asked t code tag lock).life k = s.life k := by
  by_cases h : k = t
  · subst h; simp [State.life, State.tile_asked]
  · rw [State.life, State.asked, State.tile_modTile_ne s _ h, State.life]
@[simp] theorem State.asked_hasToken (k : Nat) : (s.asked t code tag lock).hasToken k = s.hasToken k := rfl
@[simp] theorem State.asked_storeAlone : (s.asked t code tag lock).storeAlone = s.storeAlone := by
  simp [State.storeAlone]
@[simp] theorem State.asked_busy : ((s.asked t code tag lock).tile t).busy = (s.tile t).busy := by rw [State.tile_asked]
@[simp] theorem State.asked_target : ((s.asked t code tag lock).tile t).target = (s.tile t).target := by rw [State.tile_asked]
@[simp] theorem State.asked_resValid : ((s.asked t code tag lock).tile t).resValid = (s.tile t).resValid := by rw [State.tile_asked]

end Asked

theorem State.ctlWrite_request {code : Nat} (ht : t ≠ 0) (hin : s.inReset = false) (hc : code ≠ 15) :
    s.ctlWrite t code tag lock = (s.asked t code tag lock).request t code tag := by
  simp [State.ctlWrite, hin, hc, ht, State.asked]

theorem State.ctlWrite_nothing (hin : s.inReset = false) : s.ctlWrite t 15 tag lock = s.asked t 15 tag lock := by
  simp [State.ctlWrite, hin, State.asked]

/-! The rows of R17's table. -/

theorem State.request_off (h : s.life t ≠ .off) : s.request t 0 tag = s.startReq t 0 tag := by
  simp [State.request, show (s.tile t).life ≠ .off from h]
theorem State.request_reset (h : s.life t ≠ .reset) : s.request t 1 tag = s.startReq t 1 tag := by
  simp [State.request, show (s.tile t).life ≠ .reset from h]
theorem State.request_reset_inReset (h : s.life t = .reset) : s.request t 1 tag =
    (s.modTile t fun x => { x with busy := false, target := 15, resValid := false }).postReq t 0 tag := by
  simp [State.request, show (s.tile t).life = .reset from h]
theorem State.request_ready_draining (h : s.life t = .draining) (hb : (s.tile t).busy = true) (ht : (s.tile t).target = 6) :
    s.request t 4 tag = s.startReq t 4 tag := by
  simp [State.request, show (s.tile t).life = .draining from h, hb, ht]

/-- A request that finds one in progress or a result posted, apart from RESET, OFF and READY while the tile drains for HELD. -/
theorem State.request_dropped {code : Nat} (hc : 2 ≤ code) (h : (s.tile t).busy = true ∨ (s.tile t).resValid = true)
    (hd : code = 4 → s.life t ≠ .draining) : s.request t code tag = s.reqDrop t := by
  have hd' : ¬ (code = 4 ∧ (s.tile t).life = .draining) := fun ⟨h4, hl⟩ => hd h4 hl
  have h0 : code ≠ 0 := by omega
  have h1 : code ≠ 1 := by omega
  simp only [State.request, h0, h1, if_false, Bool.or_eq_true, Bool.and_eq_true, decide_eq_true_eq, h, if_true]
  exact if_neg fun ⟨⟨⟨h4, hl⟩, _⟩, _⟩ => hd' ⟨h4, hl⟩

section Idle
variable (hb : (s.tile t).busy = false) (hr : (s.tile t).resValid = false)
include hb hr

theorem State.request_ready_off (h : s.life t = .off) : s.request t 4 tag = s.startReq t 4 tag := by
  simp [State.request, hb, hr, show (s.tile t).life = .off from h]
theorem State.request_ready_reset (h : s.life t = .reset) : s.request t 4 tag = (s.startReq t 4 tag).readyPath t := by
  simp [State.request, hb, hr, show (s.tile t).life = .reset from h]
theorem State.request_ready_held (h : s.life t = .held) : s.request t 4 tag = s.startReq t 4 tag := by
  simp [State.request, hb, hr, show (s.tile t).life = .held from h]
theorem State.request_ready_ready (h : s.life t = .ready) : s.request t 4 tag = s.postReq t 0 tag := by
  simp [State.request, hb, hr, show (s.tile t).life = .ready from h]
theorem State.request_ready_refused (h0 : s.life t ≠ .off) (h1 : s.life t ≠ .reset) (h2 : s.life t ≠ .ready)
    (h3 : s.life t ≠ .held) : s.request t 4 tag = s.postReq t 1 tag := by
  unfold State.life at *
  cases hl : (s.tile t).life <;> simp_all [State.request, State.refuse]
theorem State.request_held_ready (h : s.life t = .ready) (ha : t = 8 → s.storeAlone = true) :
    s.request t 6 tag = s.tokenReq t 6 tag .draining := by
  have hl : (s.tile t).life = .ready := h
  by_cases h8 : t = 8
  · simp [State.request, hb, hr, hl, ha h8]
  · simp [State.request, hb, hr, hl, h8]
theorem State.request_held_store (h : s.life t = .ready) (h8 : t = 8) (ha : s.storeAlone = false) :
    s.request t 6 tag = s.postReq t 1 tag := by
  subst h8
  simp [State.request, hb, hr, show (s.tile 8).life = .ready from h, ha, State.refuse]
theorem State.request_held_refused (h : s.life t ≠ .ready) : s.request t 6 tag = s.postReq t 1 tag := by
  unfold State.life at h
  cases hl : (s.tile t).life <;> simp_all [State.request, State.refuse]
theorem State.request_selftest_held (h : s.life t = .held) : s.request t 2 tag = s.tokenReq t 2 tag .selftest := by
  simp [State.request, hb, hr, show (s.tile t).life = .held from h]
theorem State.request_test_refused {code : Nat} (hc : code = 2 ∨ code = 3) (h : s.life t ≠ .held) :
    s.request t code tag = s.postReq t 1 tag := by
  unfold State.life at h
  rcases hc with rfl | rfl <;> cases hl : (s.tile t).life <;> simp_all [State.request, State.refuse]
theorem State.request_undefined {code : Nat} (hc : code = 5 ∨ 7 ≤ code) : s.request t code tag = s.postReq t 1 tag := by
  have hne : code ≠ 0 ∧ code ≠ 1 ∧ code ≠ 2 ∧ code ≠ 3 ∧ code ≠ 4 ∧ code ≠ 6 := by omega
  cases hl : (s.tile t).life <;> simp_all [State.request, State.refuse]
theorem State.request_calibrate_held (h : s.life t = .held) : s.request t 3 tag =
    if !hasCalib t && (s.tokenReq t 3 tag .calibrate).life t = .calibrate
    then ((s.tokenReq t 3 tag .calibrate).enter t .held).endReq t 0 else s.tokenReq t 3 tag .calibrate := by
  simp [State.request, hb, hr, show (s.tile t).life = .held from h]

end Idle

/-! Requests under the maintenance token (R20). -/

/-- A request under its token, in progress since this cycle. -/
abbrev State.timedReq (s : State) (t target : Nat) (tag : Tag) : State :=
  (s.startReq t target tag).modTile t fun x => { x with since := s.clock }

theorem State.tokenReq_granted {target : Nat} {dest : Life} (h : s.hasToken t = true) :
    s.tokenReq t target tag dest = (s.timedReq t target tag).enter t dest := by
  simp only [State.tokenReq, h, Bool.not_true, Bool.false_eq_true, if_false]
theorem State.tokenReq_refused {target : Nat} {dest : Life} (h : s.hasToken t = false) :
    s.tokenReq t target tag dest = s.postReq t 2 tag := by
  simp [State.tokenReq, h, State.refuse]

@[simp] theorem State.life_postReq (s : State) (t code : Nat) (tag : Tag) : (s.postReq t code tag).life t = s.life t := by
  simp [State.life, State.tile_postReq]
@[simp] theorem State.life_timedReq (s : State) (t target : Nat) (tag : Tag) : (s.timedReq t target tag).life t = s.life t := by
  simp [State.life, State.startReq]

/-! Entering a state. -/

@[simp] theorem State.tile_wdSync (s : State) (t k : Nat) : (s.wdSync t).tile k = s.tile k := by
  unfold State.wdSync State.wdStop
  (repeat' split) <;> rfl
theorem State.life_setLife (s : State) (t : Nat) (l : Life) : (s.setLife t l).life t = l := by
  simp only [State.setLife]
  split
  · assumption
  · split <;> simp [State.life]

/-- The tiles with nothing to calibrate. -/
theorem hasCalib_eq_false_iff {t : Nat} : hasCalib t = false ↔ t = 5 ∨ (9 ≤ t ∧ t ≤ 15) := by
  simp only [hasCalib, Bool.not_eq_false', Bool.or_eq_true, Bool.and_eq_true, decide_eq_true_eq]

/-- A tile with nothing to calibrate has no other work at its way into CALIBRATE. -/
theorem State.lifeHook_calibrate (s : State) {old : Life} (hc : hasCalib t = false) (hl : s.life t = .calibrate)
    (ho : old ≠ .ready) : s.lifeHook t old = s := by
  rw [hasCalib_eq_false_iff] at hc
  have : t ≠ 1 ∧ t ≠ 2 ∧ t ≠ 3 ∧ t ≠ 4 ∧ t ≠ 6 ∧ t ≠ 7 ∧ t ≠ 8 ∧ t ≠ 17 := by omega
  simp [State.lifeHook, this, hl, ho]

theorem State.enter_calibrate (hc : hasCalib t = false) (hl : s.life t ≠ .ready) :
    s.enter t .calibrate = s.setLife t .calibrate := by
  dsimp only [State.enter]
  split
  · next h => simp [State.setLife, h]
  · exact State.lifeHook_calibrate _ hc (State.life_setLife ..) hl

theorem State.request_calibrate_granted (hb : (s.tile t).busy = false) (hr : (s.tile t).resValid = false) (h : s.life t = .held)
    (hk : s.hasToken t = true) : s.request t 3 tag = if hasCalib t then (s.timedReq t 3 tag).enter t .calibrate
      else (((s.timedReq t 3 tag).enter t .calibrate).enter t .held).endReq t 0 := by
  rw [State.request_calibrate_held hb hr h, State.tokenReq_granted hk]
  cases hc : hasCalib t with
  | true => simp
  | false => simp [State.enter_calibrate hc, State.life_setLife, h]
theorem State.request_calibrate_refused (hb : (s.tile t).busy = false) (hr : (s.tile t).resValid = false) (h : s.life t = .held)
    (hk : s.hasToken t = false) : s.request t 3 tag = s.postReq t 2 tag := by
  rw [State.request_calibrate_held hb hr h, State.tokenReq_refused hk]
  simp [h]

/-- HOST takes the way to READY once PERST_N is released (R483). -/
theorem State.readyPath_released (h : t = 16 → s.hostU.perst = true) : s.readyPath t = s.enter t .selftest := by
  have : ¬ (t = 16 ∧ s.hostU.perst = false) := fun ⟨h16, hp⟩ => by simp [h h16] at hp
  simp [State.readyPath, this]

/-! What a posted result leaves alone (R17, R31). -/

@[simp] theorem State.rd_postReq (s : State) (t code : Nat) (tag : Tag) (a : RegId) : (s.postReq t code tag).rd a = s.rd a := by
  simp [State.postReq]
@[simp] theorem State.rb_postReq (s : State) (t code : Nat) (tag : Tag) (a : Nat) : (s.postReq t code tag).rb a = s.rb a := by
  simp [State.postReq]
theorem State.tile_postReq_ne (s : State) {t k : Nat} (code : Nat) (tag : Tag) (h : k ≠ t) :
    (s.postReq t code tag).tile k = s.tile k := by
  rw [State.postReq, State.tile_evt_ne _ _ h, State.tile_modTile_ne _ _ h]

theorem State.ctlWrite_next (ht : t ≠ 0) (hin : s.inReset = false) {code : Nat} {u : State}
    (h : (s.asked t code tag lock).request t code tag = u) (hc : code ≠ 15 := by decide) :
    Host.Outcome.next (s.ctlWrite t code tag lock) = (.next u : Host.Outcome State Fault Refusal) :=
  congrArg _ ((State.ctlWrite_request ht hin hc).trans h)

/-- Settles O5: a write of TILE_CTL is judged on the fields it leaves (`asked`), by the row of R17's table that its code and the
tile's state name. -/
theorem lifecycleRequestsAreTaken : Obligations.LifecycleRequestsAreTaken := by
  refine ⟨fun t tag lock s ht hin hb hr => ?_, fun t tag lock s ht hin hbr => ?_, fun t code tag s => ?_⟩
  · have hb' (code : Nat) : ((s.asked t.val code tag lock).tile t.val).busy = false := by simp [hb]
    have hr' (code : Nat) : ((s.asked t.val code tag lock).tile t.val).resValid = false := by simp [hr]
    refine ⟨fun h => State.ctlWrite_next ht hin (State.request_off (by simp [h])),
      fun h => State.ctlWrite_next ht hin (State.request_reset (by simp [h])),
      fun h => State.ctlWrite_next ht hin (State.request_reset_inReset (by simp [h])),
      fun h => State.ctlWrite_next ht hin (State.request_ready_off (hb' 4) (hr' 4) (by simp [h])),
      fun h hp => State.ctlWrite_next ht hin ((State.request_ready_reset (hb' 4) (hr' 4) (by simp [h])).trans
        (State.readyPath_released hp)),
      fun h => State.ctlWrite_next ht hin (State.request_ready_held (hb' 4) (hr' 4) (by simp [h])),
      fun h => State.ctlWrite_next ht hin (State.request_ready_ready (hb' 4) (hr' 4) (by simp [h])),
      fun h hk ha => State.ctlWrite_next ht hin ((State.request_held_ready (hb' 6) (hr' 6) (by simp [h]) (by simpa using ha)).trans
        (State.tokenReq_granted (by simp [hk]))),
      fun h h8 ha => State.ctlWrite_next ht hin (State.request_held_store (hb' 6) (hr' 6) (by simp [h]) h8 (by simp [ha])),
      fun h => State.ctlWrite_next ht hin (State.request_held_refused (hb' 6) (hr' 6) (by simp [h])),
      fun h0 h1 h2 h3 => State.ctlWrite_next ht hin (State.request_ready_refused (hb' 4) (hr' 4) (by simp [h0]) (by simp [h1])
        (by simp [h2]) (by simp [h3])),
      fun h hk h8 => State.ctlWrite_next ht hin ((State.request_held_ready (hb' 6) (hr' 6) (by simp [h]) (absurd · h8)).trans
        (State.tokenReq_refused (by simp [hk]))),
      fun h hk => State.ctlWrite_next ht hin ((State.request_selftest_held (hb' 2) (hr' 2) (by simp [h])).trans
        (State.tokenReq_granted (by simp [hk]))),
      fun h hk => State.ctlWrite_next ht hin (State.request_calibrate_granted (hb' 3) (hr' 3) (by simp [h]) (by simp [hk])),
      fun h hk => ⟨State.ctlWrite_next ht hin ((State.request_selftest_held (hb' 2) (hr' 2) (by simp [h])).trans
        (State.tokenReq_refused (by simp [hk]))),
        State.ctlWrite_next ht hin (State.request_calibrate_refused (hb' 3) (hr' 3) (by simp [h]) (by simp [hk]))⟩,
      fun h => ⟨State.ctlWrite_next ht hin (State.request_test_refused (hb' 2) (hr' 2) (.inl rfl) (by simp [h])),
        State.ctlWrite_next ht hin (State.request_test_refused (hb' 3) (hr' 3) (.inr rfl) (by simp [h]))⟩,
      fun code hc => ?_, congrArg _ (State.ctlWrite_nothing hin)⟩
    have hs : (if code.toNat = 7 || (8 ≤ code.toNat && code.toNat < 15) then code.toNat else 5) = code.toNat := by
      have : code.toNat = 5 ∨ code.toNat = 7 ∨ (8 ≤ code.toNat ∧ code.toNat < 15) := by omega
      rcases this with h | h | h <;> simp [h]
    exact Eq.trans (congrArg (fun c => Host.Outcome.next (s.ctlWrite t.val c tag lock)) hs)
      (State.ctlWrite_next ht hin (State.request_undefined (hb' _) (hr' _) (by omega)) (by omega))
  · have hbr' (code : Nat) : ((s.asked t.val code tag lock).tile t.val).busy = true ∨
        ((s.asked t.val code tag lock).tile t.val).resValid = true := by simpa using hbr
    exact ⟨State.ctlWrite_next ht hin (State.request_dropped (by decide) (hbr' 6) (by simp)),
      State.ctlWrite_next ht hin (State.request_dropped (by decide) (hbr' 2) (by simp)),
      State.ctlWrite_next ht hin (State.request_dropped (by decide) (hbr' 3) (by simp)),
      fun h => State.ctlWrite_next ht hin (State.request_dropped (by decide) (hbr' 4) (fun _ => by simp [h])),
      fun h hb h6 => State.ctlWrite_next ht hin (State.request_ready_draining (by simp [h]) (by simp [hb]) (by simp [h6])),
      fun h => State.ctlWrite_next ht hin (State.request_off (by simp [h])),
      fun h => State.ctlWrite_next ht hin (State.request_reset (by simp [h]))⟩
  · have h := State.tile_postReq s t code tag
    simp only [h, State.rd_postReq, State.rb_postReq, implies_true, true_and]
    exact ⟨by simp [bit, wd], fun k hk => State.tile_postReq_ne s code tag hk⟩

end Sys2Proof.Machine
end

section
/-! The events that end a transition of a tile (R16 to R19, R21, R514) and PERST_N (R435, R483). -/

namespace Sys2Proof.Machine

open Reg

variable {s : State} {t : Fin 18}

/-! What the events of a transition leave of a tile's request. -/

@[simp] theorem State.life_modHost (s : State) (f : HostUnit → HostUnit) (k : Nat) : (s.modHost f).life k = s.life k := rfl
@[simp] theorem State.tile_modHost (s : State) (f : HostUnit → HostUnit) (k : Nat) : (s.modHost f).tile k = s.tile k := rfl
@[simp] theorem State.inReset_modHost (s : State) (f : HostUnit → HostUnit) : (s.modHost f).inReset = s.inReset := rfl

/-- What each step of a fold leaves alone the fold leaves alone. -/
theorem State.foldl_frame {α β : Type} {f : State → α → State} (g : State → β) (h : ∀ u x, g (f u x) = g u) (l : List α)
    (s : State) : g (l.foldl f s) = g s := by
  induction l generalizing s with
  | nil => rfl
  | cons x l ih => exact (ih _).trans (h s x)

@[simp] theorem State.tile_took (s : State) (k : Nat) : s.took.tile k = s.tile k := rfl
@[simp] theorem State.tile_modStore (s : State) (f : Store → Store) (k : Nat) : (s.modStore f).tile k = s.tile k := rfl
@[simp] theorem State.tile_modRadio (s : State) (r : Nat) (f : Radio → Radio) (k : Nat) : (s.modRadio r f).tile k = s.tile k := rfl
@[simp] theorem State.tile_clearMem (s : State) (a n k : Nat) : (s.clearMem a n).tile k = s.tile k := rfl
@[simp] theorem State.tile_dpdSync (s : State) (r k : Nat) : (s.dpdSync r).tile k = s.tile k := by
  unfold State.dpdSync
  exact State.foldl_frame (·.tile k) (fun _ _ => by rfl) ..
@[simp] theorem State.tile_dpdTrain (s : State) (r n k : Nat) : (s.dpdTrain r n).tile k = s.tile k := by
  unfold State.dpdTrain
  rw [State.tile_took, State.tile_dpdSync, State.tile_modRadio]
@[simp] theorem State.tile_trainAll (s : State) (r k : Nat) : (s.trainAll r).tile k = s.tile k := by
  unfold State.trainAll
  refine State.foldl_frame (·.tile k) (fun u n => ?_) ..
  split <;> simp
@[simp] theorem State.tile_trainChannels (s : State) (k : Nat) : s.trainChannels.tile k = s.tile k := by
  unfold State.trainChannels
  exact State.foldl_frame (·.tile k) (fun _ _ => by rfl) ..
@[simp] theorem State.tile_zeroLocal (s : State) (t k : Nat) : (s.zeroLocal t).tile k = s.tile k := by
  unfold State.zeroLocal
  exact State.foldl_frame (·.tile k) (fun _ _ => by rfl) ..

@[simp] theorem State.tile_calibrated (s : State) (t k : Nat) : (s.calibrated t).tile k = s.tile k := by
  dsimp only [State.calibrated]
  (repeat' split) <;> simp

/-- The spares in service as SELFTEST finds them, with their event where the count has changed. -/
def State.sparesShown (s : State) (t used : Nat) : State :=
  if (s.tile t).sparesUsed = used then s else (s.modTile t fun x => { x with sparesUsed := used }).evt t 4

theorem State.sparesShown_request (s : State) (t used : Nat) : ((s.sparesShown t used).tile t).life = (s.tile t).life ∧
    ((s.sparesShown t used).tile t).busy = (s.tile t).busy ∧ ((s.sparesShown t used).tile t).target = (s.tile t).target := by
  unfold State.sparesShown
  split
  · exact ⟨rfl, rfl, rfl⟩
  · rw [State.tile_evt, State.tile_modTile_self]
    exact ⟨rfl, rfl, rfl⟩

theorem State.tile_mlinkTested (s : State) (k : Nat) : s.mlinkTested.tile k = s.tile k := rfl
theorem State.tile_sessCleared (s : State) (k : Nat) :
    ({ s with cipher := { s.cipher with sess := [] } } : State).tile k = s.tile k := rfl

/-- SELFTEST of a tile with nothing to calibrate shows in its header by the spares alone. -/
theorem State.tile_tested (s : State) {t : Nat} (hc : hasCalib t = false) (used : Nat) (l : List Nat) :
    (s.tested t used l).tile t = ((s.zeroLocal t).sparesShown t used).tile t := by
  rw [hasCalib_eq_false_iff] at hc
  have hr : ¬ (t = 2 ∨ t = 3 ∨ t = 4) := by omega
  have h7 : t ≠ 7 := by omega
  unfold State.tested
  extract_lets s1 s2
  have h2 : s2 = (s.zeroLocal t).sparesShown t used := rfl
  rw [← h2, if_neg hr, if_neg h7]
  clear_value s2
  split
  · exact State.tile_mlinkTested s2 t
  · split
    · exact State.tile_wr s2 _ _ t
    · split
      · exact State.tile_sessCleared s2 t
      · rfl

theorem State.tested_request (s : State) {t : Nat} (hc : hasCalib t = false) (used : Nat) (l : List Nat) :
    ((s.tested t used l).tile t).life = (s.tile t).life ∧ ((s.tested t used l).tile t).busy = (s.tile t).busy ∧
      ((s.tested t used l).tile t).target = (s.tile t).target := by
  have h := (s.zeroLocal t).sparesShown_request t used
  rwa [State.tile_zeroLocal, ← State.tile_tested s hc used l] at h

/-! Entering a state leaves the request (R17). -/

@[simp] theorem State.setLife_busy (s : State) (t : Nat) (l : Life) : ((s.setLife t l).tile t).busy = (s.tile t).busy := by
  dsimp only [State.setLife]
  (repeat' split) <;> simp
@[simp] theorem State.setLife_target (s : State) (t : Nat) (l : Life) : ((s.setLife t l).tile t).target = (s.tile t).target := by
  dsimp only [State.setLife]
  (repeat' split) <;> simp

theorem State.calibEnd_held {t : Nat} (hb : (s.tile t).busy = true) (h3 : (s.tile t).target = 3) :
    s.calibEnd t = (s.enter t .held).endReq t 0 := by
  simp [State.calibEnd, hb, h3]
theorem State.calibEnd_ready {t : Nat} (h3 : (s.tile t).target ≠ 3) : s.calibEnd t =
    (if t = 2 ∨ t = 3 ∨ t = 4 then (s.enter t .ready).chainsAtReady (t - 2) else s.enter t .ready).endReq t 0 := by
  simp [State.calibEnd, h3]

/-- A tile with nothing to calibrate passes CALIBRATE at once on its way to READY (R16). -/
theorem State.calibEnd_passed {t : Nat} (hc : hasCalib t = false) (hl : s.life t ≠ .ready) (h3 : (s.tile t).target ≠ 3) :
    (s.enter t .calibrate).calibEnd t = ((s.enter t .calibrate).enter t .ready).endReq t 0 := by
  have hr : ¬ (t = 2 ∨ t = 3 ∨ t = 4) := by
    rw [hasCalib_eq_false_iff] at hc
    omega
  rw [State.calibEnd_ready (by simpa [State.enter_calibrate hc hl] using h3), if_neg hr]

/-! The events that end a transition, by their outcomes. -/

section Passed
variable {n : BitVec 8} {l : List (BitVec 8)} (hl : s.life t.val = .selftest) (hn : s.noneLeft t.val (l.map (·.toNat)) = none)
include hl hn

theorem exec_selftestDone_ready (hb : (s.tile t.val).busy = true) (h4 : (s.tile t.val).target = 4) :
    let u := s.tested t.val n.toNat (l.map (·.toNat))
    exec (.selftestDone t (.pass n l)) s = .next (if hasCalib t.val then u.enter t.val .calibrate
      else ((u.enter t.val .calibrate).enter t.val .ready).endReq t.val 0) := by
  have hl' : (s.tile t.val).life = .selftest := hl
  simp only [exec_selftestDone_eq, execSelftestDone, hl', hb, h4, hn]
  cases hc : hasCalib t.val with
  | true => simp
  | false =>
    obtain ⟨hlife, -, htarget⟩ := s.tested_request hc n.toNat (l.map (·.toNat))
    simp [State.calibEnd_passed hc (s := s.tested t.val n.toNat (l.map (·.toNat))) (by rw [State.life, hlife, hl']; decide)
      (by rw [htarget, h4]; decide)]

theorem exec_selftestDone_held (hb : (s.tile t.val).busy = true) (h2 : (s.tile t.val).target = 2) :
    exec (.selftestDone t (.pass n l)) s =
      .next (((s.tested t.val n.toNat (l.map (·.toNat))).enter t.val .held).endReq t.val 0) := by
  have hl' : (s.tile t.val).life = .selftest := hl
  simp [exec_selftestDone_eq, execSelftestDone, hl', hb, h2, hn]

end Passed

theorem exec_calibrateDone (hl : s.life t.val = .calibrate) (h2 : (s.tile t.val).busy = true → 2 ≤ (s.tile t.val).target) :
    exec (.calibrateDone t none) s = .next ((s.calibrated t.val).calibEnd t.val) ∧ ∀ u : BitVec 8,
      exec (.calibrateDone t (some u)) s = .next (s.faultHook (s.recordErr t.val 5 u.toNat 0 0 true) t.val) := by
  have hl' : (s.tile t.val).life = .calibrate := hl
  have h2' : ((s.tile t.val).busy && decide ((s.tile t.val).target < 2)) = false := by simpa [Nat.lt_iff_add_one_le] using h2
  constructor <;> simp only [exec_calibrateDone_eq, execCalibrateDone, hl', h2', bne_self_eq_false, Bool.or_self,
    Bool.false_eq_true, if_false, implies_true]

theorem exec_selftestDone_fails (hl : s.life t.val = .selftest) (h2 : (s.tile t.val).busy = true → 2 ≤ (s.tile t.val).target) :
    (∀ u : BitVec 8, exec (.selftestDone t (.noSpare u)) s = .next (s.faultHook (s.recordErr t.val 4 u.toNat 0 0 true) t.val)) ∧
    ∀ (n : BitVec 8) (l : List (BitVec 8)) (k : Nat), s.noneLeft t.val (l.map (·.toNat)) = some k →
      exec (.selftestDone t (.pass n l)) s = .next (s.faultHook (s.recordErr t.val 4 k 0 0 true) t.val) := by
  have hl' : (s.tile t.val).life = .selftest := hl
  have h2' : ((s.tile t.val).busy && decide ((s.tile t.val).target < 2)) = false := by simpa [Nat.lt_iff_add_one_le] using h2
  simp +contextual only [exec_selftestDone_eq, execSelftestDone, hl', h2', bne_self_eq_false, Bool.or_self,
    Bool.false_eq_true, if_false, implies_true, and_self]

/-- Settles O6: each event acts on a tile in the state and with the target that its clause names, and the way to READY turns on
`hasCalib`. -/
theorem transitionsComplete : Obligations.TransitionsComplete := by
  refine ⟨fun t s => ⟨fun hb h1 ho hr => ?_, fun hb h0 ho hr => ?_, fun hb h0 hr => ?_, fun hb h1 ho => ?_, fun hb h4 ho => ?_,
      fun n l hl hn => ⟨exec_selftestDone_ready hl hn, exec_selftestDone_held hl hn⟩, fun hl hb h4 => ?_, fun hl hb h3 => ?_,
      fun hb h4 hl => ?_, fun hl hb h6 hd => ?_, fun hl hb h6 hd => ?_⟩,
    fun t u s h2 => ⟨fun hl => ?_, fun hl => (exec_calibrateDone hl h2).2 u⟩,
    fun s => ⟨fun hp hl => ?_, fun hp hl => ?_, fun hp hin hl hb => ?_⟩⟩
  · simp [exec_tileResetReached_eq, execTileResetReached, hb, h1, ho, hr]
  · simp [exec_tileResetReached_eq, execTileResetReached, hb, h0, ho, hr]
  · simp [exec_tileOffReached_eq, execTileOffReached, hb, h0, hr]
  · simp [exec_offToResetDone_eq, execOffToResetDone, hb, h1, ho]
  · simp [exec_offToResetDone_eq, execOffToResetDone, hb, h4, ho]
  · rw [(exec_calibrateDone hl fun _ => by omega).1, State.calibEnd_ready (by simp [h4])]
  · rw [(exec_calibrateDone hl fun _ => by omega).1, State.calibEnd_held (by simpa using hb) (by simpa using h3)]
  · rcases hl with hl | hl <;> simp [exec_resumeReadyDone_eq, execResumeReadyDone, hb, h4, hl]
  · simp [exec_drainComplete_eq, execDrainComplete, hb, h6, hl, hd]
  · simp [exec_drainTimeout_eq, execDrainTimeout, hb, h6, hl, Nat.not_lt.mpr hd]
  · obtain ⟨hnone, hpass⟩ := exec_selftestDone_fails hl h2
    exact ⟨hnone u, hpass⟩
  · simp [exec_perstNAssert_eq, execPerstNAssert, hp, hl]
  · simp [exec_perstNAssert_eq, execPerstNAssert, hp, hl]
  · have hr : ((s.modHost fun x => { x with perst := true }).readyPath 16) = _ := State.readyPath_released fun _ => rfl
    cases hbusy : (s.tile 16).busy with
    | false => simp [exec_perstNRelease_eq, execPerstNRelease, hp, hin, hl, hr, hbusy]
    | true =>
      have h0 : (s.tile 16).target ≠ 0 := fun h0 => hb ⟨hbusy, h0⟩
      simp [exec_perstNRelease_eq, execPerstNRelease, hp, hin, hl, hr, h0]

end Sys2Proof.Machine
end

section
/-! The header's write-one commands (R28, R31, R33, R34) and the arrival of event messages (R107). -/

namespace Sys2Proof.Machine

open Reg

variable {s : State}

/-! Counters (R31). -/

theorem State.rd_clear (l : List RegId) (s : State) {a : RegId} (h : a ∈ l ∨ s.rd a = 0) :
    (l.foldl (fun (s : State) a => s.wr a 0) s).rd a = 0 := by
  induction l generalizing s with
  | nil => exact h.resolve_left (by simp)
  | cons b l ih =>
    refine ih _ ?_
    by_cases hab : a = b
    · exact .inr (by rw [hab, State.rd_wr_self])
    · exact h.imp (fun hm => (List.mem_cons.mp hm).resolve_left hab) fun h0 => by rw [State.rd_wr_ne _ _ hab, h0]

theorem State.tile_cntClr (s : State) {t : Nat} (h : s.life t ≠ .off) :
    (s.cntClr t).tile t = { s.tile t with earlyWr := 0, uncorr := 0, corr := 0 } := by
  have clear : ((cntRegs t).foldl (fun (s : State) a => s.wr a 0)
      (s.modTile t fun x => { x with earlyWr := 0, uncorr := 0, corr := 0 })).tile t = _ :=
    (State.foldl_frame (·.tile t) (fun _ _ => by rfl) ..).trans (State.tile_modTile_self ..)
  simp only [State.cntClr, h, if_false]
  (repeat' split)
  · exact (State.foldl_frame (·.tile t) (fun _ _ => by rfl) ..).trans clear
  · exact clear
  · exact (State.foldl_frame (·.tile t) (fun _ _ => by rfl) ..).trans clear
  · exact clear

theorem State.rd_cntClr (s : State) {t : Nat} (h : s.life t ≠ .off) {a : RegId} (ha : a ∈ cntRegs t) (h0 : t ≠ 0) (h1 : t ≠ 1)
    (h10 : t ≠ 10) : (s.cntClr t).rd a = 0 := by
  simp only [State.cntClr, h, h0, h1, h10, if_false]
  exact State.rd_clear _ _ (.inl ha)

/-! Event words (R33, R34). -/

theorem exec_evtPendClear (t : Fin 18) (bits : Word) (h : s.life t.val ≠ .off) : exec (.evtPendClear t bits) s =
    .next (s.setEvtWords t.val ((s.tile t.val).evtPend &&& ~~~ bits) (s.tile t.val).evtMask) := by
  simp [exec_evtPendClear_eq, execEvtPendClear, State.evtClear, h]
theorem exec_evtMaskWrite (t : Fin 18) (mask : Word) (h : s.life t.val ≠ .off) : exec (.evtMaskWrite t mask) s =
    .next (s.setEvtWords t.val (s.tile t.val).evtPend (mask &&& evtDefined t.val)) := by
  simp [exec_evtMaskWrite_eq, execEvtMaskWrite, State.maskWrite, h]

/-! Event messages (R107). -/

/-- The source of a message has an entry that holds at least its bits. -/
theorem exists_mem_orEntry (l : List (Nat × Word)) (src : Nat) (bits : Word) :
    ∃ w, (src, w) ∈ orEntry l src bits ∧ w &&& bits = bits := by
  unfold orEntry
  split
  · next h =>
    obtain ⟨⟨_, w⟩, he, hsrc⟩ := List.any_eq_true.mp h
    refine ⟨w ||| bits, List.mem_map.mpr ⟨_, he, by simp_all⟩, ?_⟩
    ext i hi
    simp +contextual
  · exact ⟨bits, by simp, by simp⟩

/-- A message of a controller leaves the way and is merged into its source's entry. -/
def State.arrived (s : State) (n : Nat) (m : EvtMsg) : State :=
  { s with
    msgs := s.msgs.eraseIdx n
    evtIn := tput (fun _ => []) s.evtIn m.dst (orEntry (tget (fun _ => []) s.evtIn m.dst) m.src m.bits) }

theorem exec_eventMessageArrive {n : Nat} {m : EvtMsg} (hm : s.msgs[n]? = some m) (hc : hasController m.dst = true) :
    exec (.eventMessageArrive n) s = .next ((s.arrived n m).evtDeliver m.dst) := by
  simp [exec_eventMessageArrive_eq, execEventMessageArrive, hm, hc, State.arrived]

@[simp] theorem State.waiter_arrived (s : State) (n : Nat) (m : EvtMsg) (t : Nat) : (s.arrived n m).waiter t = s.waiter t := rfl
@[simp] theorem State.evtIn_arrived (s : State) (n : Nat) (m : EvtMsg) : tget (fun _ => []) (s.arrived n m).evtIn m.dst =
    orEntry (tget (fun _ => []) s.evtIn m.dst) m.src m.bits := tget_tput_self ..

theorem State.evtDeliver_nobody {t : Nat} (h : s.waiter t = none) : s.evtDeliver t = s := by
  simp [State.evtDeliver, h]
theorem State.evtDeliver_waiter {t thr src : Nat} {bits : Word} {rest : List (Nat × Word)} (h : s.waiter t = some thr)
    (he : tget (fun _ => []) s.evtIn t = (src, bits) :: rest) : s.evtDeliver t =
      { s.setThread (threadKey t 0 thr) { s.thread (threadKey t 0 thr) with
          a := wd (0x80000000 + src), e := bits, run := .running } with
        evtIn := tput (fun _ => []) s.evtIn t rest } := by
  simp [State.evtDeliver, h, he]

/-- Settles O7: the event words change by `setEvtWords` alone, and a message that arrives is merged by `orEntry` and given out by
`evtDeliver`. -/
theorem headerWritesAndMessages : Obligations.HeaderWritesAndMessages := by
  refine ⟨fun t s hl => ⟨fun tag => ?_, fun f m e d => ?_, ?_, fun bits => ?_, fun mask => ?_⟩, fun n m s hm hc hw => ?_,
    fun n m thr s hm hc hw he => ?_⟩
  · have hl' : (s.tile t.val).life ≠ .off := hl
    simp [exec_tileCtlAck_eq, execTileCtlAck, State.ctlAck, hl']
  · simp [exec_tileErrWrite_eq, execTileErrWrite, State.errWrite, hl]
  · exact ⟨s.cntClr t.val, rfl, s.tile_cntClr hl, fun a ha => s.rd_cntClr hl ha⟩
  · exact ⟨_, exec_evtPendClear t bits hl, by simp [State.tile_setEvtWords]⟩
  · exact ⟨_, exec_evtMaskWrite t mask hl, by simp [State.tile_setEvtWords]⟩
  · refine ⟨_, exec_eventMessageArrive hm hc, ?_⟩
    rw [State.evtDeliver_nobody (by simpa using hw)]
    exact ⟨rfl, by simpa using exists_mem_orEntry _ m.src m.bits, fun _ => rfl, fun _ => rfl, fun _ => rfl⟩
  · refine ⟨_, exec_eventMessageArrive hm hc, ?_⟩
    have first : tget (fun _ => []) (s.arrived n m).evtIn m.dst = [(m.src, m.bits)] := by simp [he, orEntry]
    rw [State.evtDeliver_waiter (by simpa using hw) first]
    exact ⟨rfl, State.thread_setThread_self .., tget_tput_self (fun _ => []) (s.arrived n m).evtIn m.dst [], fun _ => rfl,
      fun _ => rfl, fun _ => rfl⟩

end Sys2Proof.Machine
end

section
/-! Errors of a tile's own hardware (R14, R515) and the error record (R18, R32). -/

namespace Sys2Proof.Machine

open Reg

variable {s : State}

/-! Flits (R14, R473). -/

/-- The check of a flit shows in the header: how often it has failed in succession, and the flit that failed last. -/
abbrev State.flitSeen (s : State) (t link n last : Nat) : State := s.modTile t fun x => { x with
  flitFails := tput (fun _ => 0) x.flitFails link n, flitLast := tput (fun _ => 0) x.flitLast link last }

section Flit
variable {t : Fin 18} {link : Fin 4} {data : BitVec 256} {check : Byte} (hl : s.life t.val ≠ .off)
  (ha : link.val < attachments t.val)
include hl ha

theorem exec_flitReceive_failed (hc : flitCrc data ≠ check.toNat) (hn : tget (fun _ => 0) (s.tile t.val).flitFails link.val < 16) :
    exec (.flitReceive t link data check) s = .next ((s.corrInc t.val).flitSeen t.val link.val
      (tget (fun _ => 0) (s.tile t.val).flitFails link.val + 1) (data.toNat + 2 ^ 256 * check.toNat)) := by
  simp [exec_flitReceive_eq, execFlitReceive, hl, hc, hn, Nat.not_le.mpr ha]
theorem exec_flitReceive_fatal (hc : flitCrc data ≠ check.toNat) (hn : 16 ≤ tget (fun _ => 0) (s.tile t.val).flitFails link.val) :
    exec (.flitReceive t link data check) s =
      .next (s.faultHook ((s.flitSeen t.val link.val 0 0).recordErr t.val 2 noUnit 0 0 true) t.val) := by
  simp [exec_flitReceive_eq, execFlitReceive, hl, hc, Nat.not_lt.mpr hn, Nat.not_le.mpr ha]
theorem exec_flitReceive_passed (hc : flitCrc data = check.toNat) (hn : tget (fun _ => 0) (s.tile t.val).flitFails link.val = 0 ∨
      trackDiff (tget (fun _ => 0) (s.tile t.val).flitLast link.val) (data.toNat + 2 ^ 256 * check.toNat) = none) :
    exec (.flitReceive t link data check) s = .next (s.flitSeen t.val link.val 0 0) := by
  rcases hn with hn | hn <;> simp [exec_flitReceive_eq, execFlitReceive, hl, hc, hn, Nat.not_le.mpr ha, -Nat.reducePow]
theorem exec_flitReceive_track (hc : flitCrc data = check.toNat) {k : Nat}
    (hn : tget (fun _ => 0) (s.tile t.val).flitFails link.val ≠ 0)
    (hk : trackDiff (tget (fun _ => 0) (s.tile t.val).flitLast link.val) (data.toNat + 2 ^ 256 * check.toNat) = some k) :
    exec (.flitReceive t link data check) s = .next ((s.flitSeen t.val link.val 0 0).axEvidence 30 t.val (trackUnit link.val k)
      1800000000000 (s.rf MGMT.AX_CTL 23 16)) := by
  simp [exec_flitReceive_eq, execFlitReceive, hl, hc, hn, hk, Nat.not_le.mpr ha, -Nat.reducePow]

end Flit

/-! The error record (R32). -/

section Record
variable {t cause unit detail addr : Nat} (hl : s.life t ≠ .off)
include hl

theorem State.recordErr_first (hv : (s.tile t).firstValid = false) : (s.recordErr t cause unit detail addr false).tile t =
    { s.tile t with
      cause := cause, errAddr := addr % 2 ^ 40, errUnit := unit, errDetail := detail, firstAt := s.clock, firstValid := true
      evtPend := (s.tile t).evtPend ||| wd (2 ^ 2) } := by
  simp [State.recordErr, show (s.tile t).life ≠ .off from hl, hv]
theorem State.recordErr_later (hv : (s.tile t).firstValid = true)
    (hc : ¬ ((s.tile t).firstAt = s.clock ∧ cause < (s.tile t).cause)) :
    (s.recordErr t cause unit detail addr false).tile t = { s.tile t with multi := true } := by
  simp [State.recordErr, show (s.tile t).life ≠ .off from hl, hv, hc]
theorem State.recordErr_lower (hv : (s.tile t).firstValid = true) (ha : (s.tile t).firstAt = s.clock)
    (hc : cause < (s.tile t).cause) : (s.recordErr t cause unit detail addr false).tile t = { s.tile t with
      cause := cause, errAddr := addr % 2 ^ 40, errUnit := unit, errDetail := detail, firstAt := s.clock, multi := true } := by
  simp [State.recordErr, show (s.tile t).life ≠ .off from hl, hv, ha, hc]

/-- Recording an error does not move the tile. -/
theorem State.life_recordErr : (s.recordErr t cause unit detail addr false).life t = s.life t := by
  unfold State.life
  cases hv : (s.tile t).firstValid with
  | false => rw [State.recordErr_first hl hv]
  | true =>
    by_cases hc : (s.tile t).firstAt = s.clock ∧ cause < (s.tile t).cause
    · rw [State.recordErr_lower hl hv hc.1 hc.2]
    · rw [State.recordErr_later hl hv hc]

end Record

theorem State.recordErr_fatal (s : State) (t cause unit detail addr : Nat) :
    s.recordErr t cause unit detail addr true = (s.recordErr t cause unit detail addr false).enterFault t := by
  simp [State.recordErr]

/-- A fatal cause moves a tile other than MGMT from wherever it is but OFF and RESET (R18). -/
theorem State.life_enterFault {t : Nat} (h0 : t ≠ 0) (ho : s.life t ≠ .off) (hr : s.life t ≠ .reset) :
    (s.enterFault t).life t = .fault := by
  by_cases hf : (s.tile t).life = .fault
  · simp [State.enterFault, hf, State.life]
  · simp only [State.enterFault, h0, show (s.tile t).life ≠ .off from ho, show (s.tile t).life ≠ .reset from hr, hf,
      decide_false, Bool.or_self, Bool.false_eq_true, if_false]
    split <;> simp [State.life_setLife]

/-- Settles O8: a flit by its check and the count of failures, the record by what it holds already, and FAULT by `enterFault`. -/
theorem hardwareErrorsAreRecorded : Obligations.HardwareErrorsAreRecorded := by
  refine ⟨fun t s hl => ⟨fun link data check ha =>
        ⟨fun hc => ⟨exec_flitReceive_failed hl ha hc, exec_flitReceive_fatal hl ha hc⟩,
        fun hc => ⟨exec_flitReceive_passed hl ha hc, fun k hn hk => exec_flitReceive_track hl ha hc hn hk⟩⟩,
      fun island hi h17 h8 hu => ?_, fun island => ?_, fun unit addr => ?_⟩,
    fun t cause unit detail addr s hl => ⟨fun hv => ?_, State.recordErr_later hl, fun hv ha hc => ?_, fun h0 hr => ?_⟩⟩
  · refine congrArg _ (if_neg ?_)
    simp only [Bool.or_eq_true, Bool.and_eq_true, decide_eq_true_eq]
    rintro ((((ho | hle) | h) | ⟨⟨ht, hi1⟩, hlife⟩) | h)
    · exact hl ho
    · omega
    · exact h17 h
    · exact h8 ⟨ht, hi1, by rwa [ht] at hlife⟩
    · exact absurd h (by rw [hu]; decide)
  · simp [exec_islandRelock_eq, execIslandRelock, hl]
  · simp [exec_sramUncorrectable_eq, execSramUncorrectable, hl]
  · simp [State.recordErr_first hl hv, bit, wd]
  · simp [State.recordErr_lower hl hv ha hc]
  · rw [State.recordErr_fatal]
    exact State.life_enterFault h0 (by rwa [State.life_recordErr hl]) (by rwa [State.life_recordErr hl])

end Sys2Proof.Machine
end

section
/-! Axolotl's evidence and substitutions (R473). -/

namespace Sys2Proof.Machine

open Reg

variable {s : State}

theorem State.rd_setAxPend (s : State) (l : List AxReq) {a : RegId} (h : a ≠ MGMT.AX_STATUS) : (s.setAxPend l).rd a = s.rd a :=
  State.rd_wf_ne _ _ _ _ h

/-- The spare of a cluster shows in its map, which Axolotl's own bookkeeping does not touch. -/
theorem State.spareEng_setAxPend (s : State) (l : List AxReq) (c : Fin 4) : (s.setAxPend l).spareEng c.val = s.spareEng c.val := by
  have h : ENG.ENG_MAP c.val ≠ MGMT.AX_STATUS := by revert c; decide
  simp only [State.spareEng, State.rf, State.rd_setAxPend s l h]

theorem State.spareEng_took (s : State) (c : Nat) : s.took.spareEng c = s.spareEng c := rfl

/-- The link with key `key` has one spare track more in use. -/
def State.trackTaken (s : State) (key : Nat) : State := s.modMgmt fun x => { x with
  tracks := tput (fun _ => 0) x.tracks key (tget (fun _ => 0) s.mgmt.tracks key + 1) }
theorem State.tracks_trackTaken (s : State) (key : Nat) : tget (fun _ => 0) (s.trackTaken key).mgmt.tracks key =
    tget (fun _ => 0) s.mgmt.tracks key + 1 := by simp [State.trackTaken]

/-- Settles O12: each attempt turns on the request it finds and on whether a spare is left; the engine's reads the cluster's map
before and after Axolotl's bookkeeping alike. -/
theorem axolotlSubstitutes : Obligations.AxolotlSubstitutes := by
  refine fun t link row track r c e q s => ⟨fun hl => ?_, fun hq hl => ⟨fun n => ?_, ?_⟩,
    fun hq hl => ⟨fun hu => ?_, fun hu => ?_⟩,
    fun hq hh hl => ⟨fun hn => ?_, fun n hn => ?_⟩, fun hq hl hf => ?_⟩
  · simp [exec_sramCorrectedError_eq, execSramCorrectedError, hl]
  · simp [exec_axSramRowSubst_eq, execAxSramRowSubst, hq, hl]
  · simp [exec_axSramRowSubst_eq, execAxSramRowSubst, hq, hl]
  · simp [exec_axTrackSubst_eq, execAxTrackSubst, trackUnit, hq, hl, hu]
  · refine ⟨s.trackTaken _, ?_, s.tracks_trackTaken _, fun _ => rfl, fun _ => rfl⟩
    simp [exec_axTrackSubst_eq, execAxTrackSubst, trackUnit, hq, hl, Nat.not_le.mpr hu, State.trackTaken]
  · simp [exec_axLaneSubst_eq, execAxLaneSubst, hq, hh, hl, hn, -Nat.reducePow, -Nat.reduceSub]
  · simp [exec_axLaneSubst_eq, execAxLaneSubst, hq, hh, hl, hn, -Nat.reducePow, -Nat.reduceSub]
  · simp [exec_axEngineSubst_eq, execAxEngineSubst, hq, hl, hf, State.spareEng_took, State.spareEng_setAxPend]

end Sys2Proof.Machine
end

section
/-! MDIO commands, polls and transactions (R455, R456). -/

namespace Sys2Proof.Machine

open Reg

variable {s : State} {by_ : Req} {phyad reg : BitVec 5} {tag : Tag}

/-! Commands (R455). -/

/-- The state with a command taken: BUSY, and its transaction at the end of the bus's queue. -/
def State.mdioQueued (s : State) (c45 read : Bool) (phyad reg : Nat) (tag : Tag) : State :=
  { s.pathBusy WIRE.MDIO_RESULT 16 tag with wire := { s.wire with mdio := s.wire.mdio ++ [{
    c45 := c45, read := read, phyad := phyad, reg := reg, addr := fld (s.rd WIRE.MDIO_ARG) 31 16,
    data := fld (s.rd WIRE.MDIO_ARG) 15 0, tag := tag }] } }

theorem State.wire_pathBusy (s : State) (res : RegId) (lo : Nat) (tag : Tag) : (s.pathBusy res lo tag).wire = s.wire := rfl

theorem exec_mdioCmds {c : Instr} (h : c ∈ [Instr.mdioC22Write by_ phyad reg tag, .mdioC22Read by_ phyad reg tag,
      .mdioC45Write by_ phyad reg tag, .mdioC45Read by_ phyad reg tag]) (s : State) :
    ∃ c45 read, exec c s = .next (s.mdioCmd by_ c45 read phyad.toNat reg.toNat tag) := by
  simp only [List.mem_cons, List.not_mem_nil, or_false] at h
  obtain rfl | rfl | rfl | rfl := h
  · exact ⟨false, false, rfl⟩
  · exact ⟨false, true, rfl⟩
  · exact ⟨true, false, rfl⟩
  · exact ⟨true, true, rfl⟩

section Taken
variable {c45 read : Bool} {phyad reg : Nat} (ha : s.accepts by_ 17 = true)
include ha

theorem State.mdioCmd_queued (hf : s.pathFree WIRE.MDIO_RESULT = true) (hon : s.rbit WIRE.MDIO_CTL 31 = true) :
    s.mdioCmd by_ c45 read phyad reg tag = s.mdioQueued c45 read phyad reg tag := by
  unfold State.mdioCmd State.mdioQueued
  rw [State.onWrite_accepts _ ha, if_neg (by rw [hf]; decide), if_neg (by rw [hon]; decide),
    ← State.wire_pathBusy s WIRE.MDIO_RESULT 16 tag]
theorem State.mdioCmd_off (hf : s.pathFree WIRE.MDIO_RESULT = true) (hoff : s.rbit WIRE.MDIO_CTL 31 = false) :
    s.mdioCmd by_ c45 read phyad reg tag = (s.pathPost WIRE.MDIO_RESULT 16 tag (2 * 2 ^ 28)).evt 17 24 := by
  simp [State.mdioCmd, State.onWrite_accepts _ ha, hf, hoff, -Nat.reducePow, -Nat.reduceMul]
theorem State.mdioCmd_dropped (hf : s.pathFree WIRE.MDIO_RESULT = false) :
    s.mdioCmd by_ c45 read phyad reg tag = s.reqDrop 17 := by
  simp [State.mdioCmd, State.onWrite_accepts _ ha, hf]

end Taken

/-! The transaction at the head ends (R455, R456). -/

@[simp] theorem State.wire_setEvtWords (s : State) (t : Nat) (p m : Word) : (s.setEvtWords t p m).wire = s.wire := by
  simp only [State.setEvtWords, State.sendEvt, State.sendMsix]
  (repeat' split) <;> rfl
@[simp] theorem State.wire_evt (s : State) (t n : Nat) : (s.evt t n).wire = s.wire := State.wire_setEvtWords ..

section Done
variable {x : MdioTxn} {rest : List MdioTxn} (hq : s.wire.mdio = x :: rest) (resp : Option (BitVec 16))
include hq

theorem exec_mdioTransactionDone_poll {k : Nat} (hk : x.poll = some k) :
    let s1 : State := { s with wire := { s.wire with mdio := rest } }
    let up := (resp.map (·.toNat)).getD 0xFFFF / 4 % 2
    exec (.mdioTransactionDone resp) s = .next
      (if s.rf (WIRE.PHY_POLL k) 24 24 = up then s1 else (s1.wf (WIRE.PHY_POLL k) 24 24 up).evt 17 (25 + k)) := by
  simp only [exec_mdioTransactionDone_eq, execMdioTransactionDone, hq, hk]
  rfl

theorem exec_mdioTransactionDone_command (hk : x.poll = none) : exec (.mdioTransactionDone resp) s = .next
    ((({ s with wire := { s.wire with mdio := rest } } : State).pathPost WIRE.MDIO_RESULT 16 x.tag
      ((if x.read && resp.isNone then 1 else 0) * 2 ^ 28 + if x.read then (resp.map (·.toNat)).getD 0xFFFF else 0)).evt 17 24) := by
  simp only [exec_mdioTransactionDone_eq, execMdioTransactionDone, hq, hk]

end Done

/-- Settles O54: the four commands are one operation (`mdioCmd`), and the transaction at the head ends as a poll or as a command. -/
theorem mdioCommandsAndPolls : Obligations.MdioCommandsAndPolls := by
  refine fun by_ phyad reg tag n resp s => ⟨fun ha hf => ⟨fun hon => ?_, fun hoff c hc => ?_⟩, fun ha hf c hc => ?_,
    fun hb hon hl hp hdue => ?_, fun t rest hq => ⟨fun k hk => ⟨fun hup => ?_, fun hup => ?_⟩, fun hk => ?_⟩, fun ha => ?_⟩
  · exact ⟨congrArg _ (State.mdioCmd_queued ha hf hon), congrArg _ (State.mdioCmd_queued ha hf hon),
      congrArg _ (State.mdioCmd_queued ha hf hon), congrArg _ (State.mdioCmd_queued ha hf hon)⟩
  · obtain ⟨c45, read, hrun⟩ := exec_mdioCmds hc s
    rw [hrun, State.mdioCmd_off ha hf hoff]
  · obtain ⟨c45, read, hrun⟩ := exec_mdioCmds hc s
    rw [hrun, State.mdioCmd_dropped ha hf]
  · have hlate : ¬ (tget (fun _ => 0) s.wire.polled n.val ≠ 0 ∧
        s.clock + 1 < tget (fun _ => 0) s.wire.polled n.val + 500000 * max 1 (fld (s.rd (WIRE.PHY_POLL n.val)) 23 16)) := by
      rintro ⟨h0, hlt⟩
      rcases hdue with h | h
      · exact h0 h
      · omega
    refine congrArg _ (if_neg ?_)
    simpa [hb, hon, hl, hp] using hlate
  · rw [exec_mdioTransactionDone_poll hq resp hk, if_pos hup]
  · rw [exec_mdioTransactionDone_poll hq resp hk, if_neg hup]
  · refine ⟨_, exec_mdioTransactionDone_command hq resp hk, ?_, ?_, ?_⟩
    · simp [State.pathPost]
    · simp [bit, wd]
    · rw [State.rd_evt, State.rd_pathPost]
  · exact congrArg _ (State.onWrite_accepts _ ha)

end Sys2Proof.Machine
end

section
/-! Issue of an instruction of Uzoath: what the row of an operation answers where its guard is true and its body completes. -/

namespace Sys2Proof.Machine

variable {th : ThreadRef} {s u : State} {c : Uz}

theorem Uz.run_completes (hg : c.guard s = true) (hb : c.body s = .ok (u, 0)) : c.run s = u := by
  simp [Uz.run, hg, hb, State.conclude]

theorem Uz.run_trapAfter {cause : Nat} (hg : c.guard s = true) (hb : c.body s = .ok (u, cause + 1)) :
    c.run s = u.trapAfter c.th (cause + 1) c.pc := by
  simp [Uz.run, hg, hb, State.conclude]

/-- The row of the operation that stands at PC issues it. -/
theorem exec_issued {i : Instr} {want : Insn → Bool} (hi : exec i s = .next (s.issue th want)) (hn : s.nextInsn th = some c)
    (hw : want c.i = true) : exec i s = .next (c.run s) := by
  simp [hi, State.issue, hn, hw]

/-- A body that ends without a cause is the next state. -/
theorem exec_completes {i : Instr} {want : Insn → Bool} (hi : exec i s = .next (s.issue th want)) (hn : s.nextInsn th = some c)
    (hw : want c.i = true) (hg : c.guard s = true) (hb : c.body s = .ok (u, 0)) : exec i s = .next u := by
  rw [exec_issued hi hn hw, Uz.run_completes hg hb]

end Sys2Proof.Machine
end

section
/-! Two's complement, and the arithmetic of Uzoath as R78 to R86 write it, at a width `w` with sources below `2 ^ w`. -/

namespace Sys2Proof.Machine

variable {w : Nat}

/-- A number below `2 ^ w` as a signed number of `w` bits. -/
theorem sval_of_lt {b : Nat} (hb : b < 2 ^ w) :
    sval w b = if b < 2 ^ (w - 1) then (b : Int) else (b : Int) - (2 ^ w : Nat) := by
  rw [sval, Nat.mod_eq_of_lt hb]

theorem ofInt_eq_mod {i : Int} {n : Nat} (k : Int) (h : i + k * (2 ^ w : Nat) = n) : ofInt w i = n % 2 ^ w := by
  rw [ofInt, ← Int.add_mul_emod_self_right i k, h, ← Int.natCast_emod, Int.toNat_natCast]

/-- The magnitude of a negative number. -/
theorem natAbs_sub_of_le {b m : Nat} (h : b ≤ m) : ((b : Int) - (m : Nat)).natAbs = m - b := by omega

theorem aluNeg_eq {b : Nat} (hb : b < 2 ^ w) : aluNeg w b = { a := some ((2 ^ w - b) % 2 ^ w), v := b = 2 ^ (w - 1) } := by
  have h : ofInt w (-sval w b) = (2 ^ w - b) % 2 ^ w := by
    rw [sval_of_lt hb]
    split
    · exact ofInt_eq_mod 1 (by rw [Int.ofNat_sub (Nat.le_of_lt hb)]; omega)
    · exact ofInt_eq_mod 0 (by rw [Int.ofNat_sub (Nat.le_of_lt hb)]; omega)
  rw [aluNeg, h]

theorem aluAbs_eq {b : Nat} (hb : b < 2 ^ w) :
    aluAbs w b = { a := some (if b < 2 ^ (w - 1) then b else 2 ^ w - b), v := b = 2 ^ (w - 1) } := by
  have h : (sval w b).natAbs % 2 ^ w = if b < 2 ^ (w - 1) then b else 2 ^ w - b := by
    have hhalf : 0 < 2 ^ (w - 1) := Nat.two_pow_pos _
    rw [sval_of_lt hb]
    split
    · exact Nat.mod_eq_of_lt hb
    · rw [natAbs_sub_of_le (Nat.le_of_lt hb)]
      exact Nat.mod_eq_of_lt (by omega)
  rw [aluAbs, h]

theorem aluAdd_zero (a b : Nat) : aluAdd w a b 0 =
    { a := some ((a + b) % 2 ^ w), v := !fitsS w (sval w a + sval w b) } := by simp [aluAdd]

theorem aluSub_zero {a b : Nat} (hb : b < 2 ^ w) : aluSub w a b 0 =
    { a := some ((a + 2 ^ w - b) % 2 ^ w), v := !fitsS w (sval w a - sval w b) } := by
  have h : a + 2 ^ (w + 1) - b - 0 = a + 2 ^ w - b + 2 ^ w := by
    rw [Nat.pow_succ]
    omega
  simp [aluSub, h]

theorem aluShl_eq (a c : Nat) : aluShl w a c = if c < w then a * 2 ^ c % 2 ^ w else 0 := by
  simp only [aluShl, ← Nat.not_lt, ite_not]
theorem aluShr_eq (a c : Nat) : aluShr w a c = if c < w then a / 2 ^ c else 0 := by
  simp only [aluShr, ← Nat.not_lt, ite_not]

/-- A shift by the whole width leaves the sign alone. -/
theorem sval_div_two_pow {a : Nat} (ha : a < 2 ^ w) : sval w a / (2 ^ w : Nat) = if a < 2 ^ (w - 1) then 0 else -1 := by
  have ha' : (a : Int) < (2 ^ w : Nat) := Int.ofNat_lt.mpr ha
  have hne : ((2 ^ w : Nat) : Int) ≠ 0 := by omega
  rw [sval_of_lt ha]
  split
  · exact Int.ediv_eq_zero_of_lt (Int.natCast_nonneg a) ha'
  · rw [Int.sub_ediv_of_dvd _ (Int.dvd_refl _), Int.ediv_self hne, Int.ediv_eq_zero_of_lt (Int.natCast_nonneg a) ha', Int.zero_sub]

theorem aluSar_eq {a : Nat} (ha : a < 2 ^ w) (c : Nat) : aluSar w a c =
    if c < w then ofInt w (sval w a / (2 ^ c : Nat)) else if a < 2 ^ (w - 1) then 0 else 2 ^ w - 1 := by
  unfold aluSar
  split
  · next h => rw [Nat.min_eq_left (Nat.le_of_lt h)]
  · next h =>
    rw [Nat.min_eq_right (Nat.not_lt.mp h), sval_div_two_pow ha]
    have hpos : 0 < 2 ^ w := Nat.two_pow_pos w
    split
    · exact (ofInt_eq_mod 0 (n := 0) (by omega)).trans (Nat.zero_mod _)
    · exact (ofInt_eq_mod 1 (n := 2 ^ w - 1) (by omega)).trans (Nat.mod_eq_of_lt (by omega))

theorem aluDiv_eq (a b : Nat) : aluDiv w a b =
    if b = 0 then { a := some (2 ^ w - 1), e := some a, dz := true }
    else if a = 2 ^ (w - 1) ∧ b = 2 ^ w - 1 then { a := some a, e := some 0, v := true }
    else { a := some (ofInt w ((sval w a).tdiv (sval w b))), e := some (ofInt w ((sval w a).tmod (sval w b))) } := by
  simp [aluDiv]

theorem aluBswap_half (hw : w = 16) {b : Nat} (hb : b < 2 ^ w) : aluBswap w b = b % 256 * 256 + b / 256 := by
  subst hw
  have bytes : aluBswap 16 b = b / 256 % 2 ^ 8 + 256 * (b % 2 ^ 8) := by
    simp only [aluBswap, leVal, Nat.reduceDiv, le, List.reverse_cons, List.reverse_nil, List.nil_append, List.cons_append,
      List.foldr_cons, List.foldr_nil, BitVec.toNat_ofNat, Nat.mul_zero, Nat.add_zero]
  omega

theorem aluBswap_word (hw : w = 32) {b : Nat} (hb : b < 2 ^ w) : aluBswap w b =
    b % 256 * 2 ^ 24 + b / 256 % 256 * 2 ^ 16 + b / 2 ^ 16 % 256 * 256 + b / 2 ^ 24 := by
  subst hw
  have bytes : aluBswap 32 b =
      b / 2 ^ 24 % 2 ^ 8 + 256 * (b / 2 ^ 16 % 2 ^ 8 + 256 * (b / 256 % 2 ^ 8 + 256 * (b % 2 ^ 8))) := by
    simp only [aluBswap, leVal, Nat.reduceDiv, le, List.reverse_cons, List.reverse_nil, List.nil_append, List.cons_append,
      List.foldr_cons, List.foldr_nil, BitVec.toNat_ofNat, Nat.mul_zero, Nat.add_zero, Nat.div_div_eq_div_mul, Nat.reduceMul,
      Nat.reducePow]
  omega

end Sys2Proof.Machine
end

section
/-! Operations and compare forms of Uzoath (R71, R75, R78 to R87, R95, R96). -/

namespace Sys2Proof.Machine

variable {th : ThreadRef} {s s1 : State} {c : Uz} {i : Instr} {op v : Nat}

/-- The operations that read an operand and write registers. -/
def computeOps : List Nat := [0x01, 0x03, 0x05] ++ List.range' 0x09 21 ++ [0x33, 0x34]
/-- The compare forms. -/
def compareOps : List Nat := List.range' 0x21 13

theorem mem_computeOps : op ∈ computeOps ↔ (op = 1 ∨ op = 3 ∨ op = 5) ∨ (9 ≤ op ∧ op < 30) ∨ op = 51 ∨ op = 52 := by
  simp [computeOps, or_assoc]
theorem mem_compareOps : op ∈ compareOps ↔ 33 ≤ op ∧ op < 46 := by simp [compareOps]

theorem Insn.compare_eq_true {n : Insn} (h : n.op ∈ compareOps) : n.compare = true := by
  rw [mem_compareOps] at h
  simp only [Insn.compare, Bool.and_eq_true, decide_eq_true_eq]
  omega
theorem Insn.compare_eq_false {n : Insn} (h : n.op ∈ computeOps) : n.compare = false := by
  rw [mem_computeOps] at h
  simp only [Insn.compare, Bool.and_eq_false_iff, decide_eq_false_iff_not]
  omega

/-- The operations without a body of their own. -/
theorem Uz.body_shared (h : c.i.op ∈ computeOps ∨ c.i.op ∈ compareOps) :
    c.body s = if c.i.compare then c.compare s else c.data_ s := by
  rw [mem_computeOps, mem_compareOps] at h
  rw [Uz.body]
  split
  iterate 23 · omega
  · rfl

section Value
variable (hn : s.nextInsn th = some c) (hv : c.value s c.i.width (c.opnd s).1 = .ok (s1, v))
  (hi : exec i s = .next (s.issue th fun n => n.op = op)) (hop : c.i.op = op)
include hn hv hi hop

/-- An operation whose flags trap nowhere writes what `aluOf` computes. -/
theorem exec_computes (hg : c.guard s = true) (hV : bit (s1.uz c).st 9 = false) (hDZ : bit (s1.uz c).st 8 = false) {r : Alu}
    (hr : aluOf { c.i with op := op } (s1.uz c).a.toNat (s1.uz c).e.toNat v = r) (hm : op ∈ computeOps := by decide) :
    exec i s = .next (s1.modUz c fun x => (((c.opnd s).2 x).apply r).advance c.next) := by
  subst hop
  refine exec_completes hi hn (by simp) hg ?_
  rw [Uz.body_shared (.inl hm), Insn.compare_eq_false hm, if_neg Bool.false_ne_true, Uz.data_, hv, ← hr]
  simp only [bind, Except.bind, Thread.flagTrap, hV, hDZ, Bool.and_false, Bool.false_eq_true, if_false]

/-- A compare form writes its condition, whatever the guard. -/
theorem exec_compares {t : Bool} (hr : condOf op c.i.width ((s1.uz c).a.toNat % 2 ^ c.i.width) (v % 2 ^ c.i.width) = t)
    (hm : op ∈ compareOps := by decide) : exec i s = .next (s1.modUz c fun x => (((c.opnd s).2 x).setPred c.i.gp
      (if c.i.gn then t && (s1.uz c).pred c.i.gp else t)).advance c.next) := by
  subst hop
  refine exec_completes hi hn (by simp) (by simp [Uz.guard, Insn.compare_eq_true hm]) ?_
  rw [Uz.body_shared (.inr hm), Insn.compare_eq_true hm, if_pos rfl, Uz.compare, hv, ← hr]
  rfl

end Value

theorem bne_eq_decide_ne (a b : Nat) : (a != b) = decide (a ≠ b) := by
  rw [Bool.eq_iff_iff, bne_iff_ne, decide_eq_true_iff]

/-- An operation that writes A alone is told by what it writes. -/
theorem Alu.onlyA_congr {r r' : Nat} (h : r = r') : ({ a := some r } : Alu) = { a := some r' } := by rw [h]

/-- Settles O58: each operation writes what `aluOf` computes, each compare form what `condOf` decides, and both are the arithmetic above
where the model writes it otherwise. -/
theorem uzoathOperationsCompute : Obligations.UzoathOperationsCompute := by
  intro th s s1 c v hn hv x w a b e n p out cmp
  have ha : a < 2 ^ w := Nat.mod_lt _ (Nat.two_pow_pos w)
  have hb : b < 2 ^ w := Nat.mod_lt _ (Nat.two_pow_pos w)
  have compares {i : Instr} {op : Nat} {t : Bool} (hi : exec i s = .next (s.issue th fun n => n.op = op)) (hop : n = op)
      (hr : condOf op w a b = t) (hm : op ∈ compareOps := by decide) : exec i s = cmp t := exec_compares hn hv hi hop hr hm
  refine ⟨fun hg hV hDZ => ?_, (compares rfl · rfl), (compares rfl · (bne_eq_decide_ne ..)), (compares rfl · rfl),
    (compares rfl · rfl), (compares rfl · rfl), (compares rfl · rfl), (compares rfl · rfl), (compares rfl · rfl), (compares rfl · rfl),
    (compares rfl · rfl), (compares rfl · rfl), (compares rfl · rfl), (compares rfl · (bne_eq_decide_ne ..))⟩
  have computes {i : Instr} {op : Nat} {r : Alu} (hi : exec i s = .next (s.issue th fun n => n.op = op)) (hop : n = op)
      (hr : aluOf { c.i with op := op } x.a.toNat e v = r) (hm : op ∈ computeOps := by decide) : exec i s = out r :=
    exec_computes hn hv hi hop hg hV hDZ hr hm
  refine ⟨(computes rfl · rfl), (computes rfl · rfl), (computes rfl · rfl), (computes rfl · (aluAdd_zero a b)),
    (computes rfl · rfl), (computes rfl · (aluSub_zero hb)), (computes rfl · rfl), (computes rfl · (aluNeg_eq hb)),
    (computes rfl · (aluAbs_eq hb)), (computes rfl · rfl), (computes rfl · rfl), (computes rfl · (aluDiv_eq a b)),
    (computes rfl · rfl), (computes rfl · rfl), (computes rfl · rfl), (computes rfl · rfl),
    (computes rfl · (Alu.onlyA_congr (aluShl_eq a v))), (computes rfl · (Alu.onlyA_congr (aluShr_eq a v))),
    (computes rfl · (Alu.onlyA_congr (aluSar_eq ha v))), (computes rfl · rfl), (computes rfl · rfl),
    (computes rfl · rfl), (computes rfl · rfl), fun hop hsz => ?_, fun hop hsz => ?_, (computes rfl · rfl), (computes rfl · rfl)⟩
  · have h16 : w = 16 := by simp [w, Insn.width, hsz]
    exact computes rfl hop (Alu.onlyA_congr (aluBswap_half h16 hb))
  · have h32 : w = 32 := by simp [w, Insn.width, hsz]
    exact computes rfl hop (Alu.onlyA_congr (aluBswap_word h32 hb))

end Sys2Proof.Machine
end

section
/-! Stores, address forms, predicates and transfers of Uzoath (R36, R55, R58, R69, R75 to R77, R88 to R93). -/

namespace Sys2Proof.Machine

variable {th : ThreadRef} {s u : State} {c : Uz} {i : Instr} {op ea n a d r : Nat} {write : Bool} {p : Place}

/-! Accesses by where they land. -/

theorem Uz.place_eq (h : Machine.place c.th (s.uz c) ea n write = .ok p) : c.place s ea n write = .ok p := by
  simp [Uz.place, h]

theorem Uz.load_here (h : Machine.place c.th (s.uz c) ea n false = .ok (.here a)) : c.load s ea n = .ok (s, s.rm a n) := by
  simp [Uz.load, Uz.place_eq h, bind, Except.bind]
theorem Uz.store_here (v : Nat) (h : Machine.place c.th (s.uz c) ea n true = .ok (.here a)) :
    c.store s ea n v = .ok (s.wm a n v) := by
  simp [Uz.store, Uz.place_eq h, bind, Except.bind]
theorem Uz.store_posted (v : Nat) (h : Machine.place c.th (s.uz c) ea n true = .ok (.dev d false))
    (hlen : (s.uz c).posted.length < 8) (hhold : (s.uz c).postHold = false) : c.store s ea n v = .ok (s.modUz c fun y =>
      { y with posted := y.posted ++ [{ core := ea, dev := d, size := n, val := v }] }) := by
  simp [Uz.store, Uz.place_eq h, bind, Except.bind, hlen, hhold]
theorem Uz.swap_here (v : Nat) (h : Machine.place c.th (s.uz c) ea n true = .ok (.here a)) :
    c.atomic s ea n (fun _ => some v) = .ok (s.wm a n v, s.rm a n) := by
  simp [Uz.atomic, Uz.place_eq h, bind, Except.bind]

/-- Local data memory lies below the windows (R24, R43). -/
theorem data_size_le (th : ThreadRef) : th.data.2 ≤ 2 ^ 31 := by
  have hctl : ∀ t : Fin 18, ((localMem t.val).headD (0, 0)).2 ≤ 2 ^ 31 := by decide
  unfold ThreadRef.data
  dsimp only
  split
  · exact show 0x20000 ≤ 2 ^ 31 by decide
  · exact hctl th.tile

/-- An aligned access within local data memory. -/
theorem place_local (x : Thread) (hal : ea % n = 0) (hfit : ea + n ≤ th.data.2) (hpos : 0 < n) :
    place th x ea n write = .ok (.here (th.data.1 + ea)) := by
  have hlt : ea < 2 ^ 31 := by
    have := data_size_le th
    omega
  simp [place, hal, Nat.not_le.mpr hlt, hfit, -Nat.reducePow]

/-! LEA and XCH (R76, R77). -/

theorem Uz.body_xch_ea (hop : c.i.op = 0x08) (hea : (c.opnd s).1 = .ea ea)
    (h : Machine.place c.th (s.uz c) ea (c.i.width / 8) true = .ok (.here a)) : c.body s =
      .ok ((s.wm a (c.i.width / 8) ((s.uz c).a.toNat % 2 ^ c.i.width)).modUz c fun x =>
        ({ ((c.opnd s).2 x) with a := wd (s.rm a (c.i.width / 8)) }).advance c.next, 0) := by
  simp only [Uz.body, hop, Uz.xch, hea, Uz.swap_here _ h, bind, Except.bind]

theorem Uz.body_xch_reg (hop : c.i.op = 0x08) (hr : (c.opnd s).1 = .reg r)
    (hp : (s.uz c).privileged r ((s.uz c).a.toNat % 2 ^ c.i.width) = false) : c.body s = .ok (s.modUz c fun y =>
      ({ (y.setReg r ((s.uz c).a.toNat % 2 ^ c.i.width)) with
        a := wd ((s.uz c).reg c.th.thr.val c.next r % 2 ^ c.i.width) }).advance c.next, 0) := by
  simp only [Uz.body, hop, Uz.xch, hr, hp, Bool.false_eq_true, if_false]

theorem Uz.body_lea (hop : c.i.op = 0x07) (hea : (c.opnd s).1 = .ea ea) :
    c.body s = .ok (s.modUz c fun x => ({ ((c.opnd s).2 x) with a := wd ea }).advance c.next, 0) := by
  simp only [Uz.body, hop, Uz.lea, hea]

/-! Transfers (R89, R90, R69). -/

theorem Uz.body_br (hop : c.i.op = 0x2E) (ht : c.badTarget (c.target s) = false) :
    c.body s = .ok (s.modUz c fun x => { x with pc := c.target s }, 0) := by
  simp only [Uz.body, hop, Uz.br, ht, Bool.false_eq_true, if_false]

theorem Uz.body_call (hop : c.i.op = 0x2F) (ht : c.badTarget (c.target s) = false)
    (hs : c.store s ((s.uz c).sp - 4).toNat 4 c.next = .ok u) :
    c.body s = .ok (u.modUz c fun x => { x with sp := wd ((s.uz c).sp - 4).toNat, pc := c.target s }, 0) := by
  simp only [Uz.body, hop, Uz.call, ht, hs, bind, Except.bind, Bool.false_eq_true, if_false]

theorem Uz.body_ret {t : Nat} (hop : c.i.op = 0x30) (hopd : c.i.opd = 0) (hl : c.load s (s.uz c).sp.toNat 4 = .ok (u, t))
    (ht : c.badTarget t = false) :
    c.body s = .ok (u.modUz c fun x => { x with sp := wd ((s.uz c).sp.toNat + 4), pc := t }, 0) := by
  simp only [Uz.body, hop, Uz.retOp, hopd, Nat.zero_ne_one, Uz.ret, hl, ht, bind, Except.bind, Bool.false_eq_true, if_false]

/-- A word of a frame that lies in local data memory. -/
theorem Uz.load_frame {k : Nat} (hal : (s.uz c).sp.toNat % 16 = 0) (hfit : (s.uz c).sp.toNat + 16 ≤ c.th.data.2) (hk : k + 4 ≤ 16)
    (hk4 : k % 4 = 0) : c.load s (((s.uz c).sp.toNat + k) % 2 ^ 32) 4 = .ok (s, s.rm (c.th.data.1 + (s.uz c).sp.toNat + k) 4) := by
  have hsize := data_size_le c.th
  rw [Nat.mod_eq_of_lt (by omega), Nat.add_assoc]
  exact Uz.load_here (place_local _ (by omega) (by omega) (by decide))

theorem Uz.body_retTrap (hop : c.i.op = 0x30) (hopd : c.i.opd = 1) (hsys : (s.uz c).system = true)
    (hal : (s.uz c).sp.toNat % 16 = 0) (hfit : (s.uz c).sp.toNat + 16 ≤ c.th.data.2) (ha : c.th.data.1 + (s.uz c).sp.toNat = a)
    (ht : c.badTarget (s.rm a 4) = false) :
    let left := nbits (s.rm (a + 8) 4) 31 16
    let again := (s.rm (a + 8) 4).testBit 9 && left != 0
    c.body s = .ok (s.modUz c fun x => { x with
      sp := wd ((s.uz c).sp.toNat + 16), st := wd (s.rm (a + 4) 4) &&& stMask
      pc := if again then (s.rm a 4 + 4) % 2 ^ 32 else s.rm a 4
      rep := if again then some { left := left, pc := s.rm a 4 } else none }, 0) := by
  subst ha
  have h0 : c.load s (s.uz c).sp.toNat 4 = .ok (s, s.rm (c.th.data.1 + (s.uz c).sp.toNat) 4) :=
    Uz.load_here (place_local _ (by omega) (by omega) (by decide))
  have h4 := Uz.load_frame (k := 4) hal hfit (by decide) (by decide)
  have h8 := Uz.load_frame (k := 8) hal hfit (by decide) (by decide)
  have h12 := Uz.load_frame (k := 12) hal hfit (by decide) (by decide)
  simp only [Uz.body, hop, Uz.retOp, hopd, if_true, Uz.retTrap, hsys, h0, h4, h8, h12, ht, bind, Except.bind, Bool.not_true,
    Bool.false_eq_true, if_false]

/-! TRAP and REP (R91 to R93). -/

theorem Uz.body_trap (hop : c.i.op = 0x31) : c.body s = .ok (s.modUz c fun x => x.advance c.next, 11) := by
  simp only [Uz.body, hop, Uz.trap, State.uzDone]

theorem Uz.body_rep (hop : c.i.op = 0x32) (hk : (s.uz c).k.toNat ≠ 0) : c.body s =
    .ok (s.modUz c fun y => { y with rep := some { left := (s.uz c).k.toNat, pc := c.pc }, pc := c.next }, 0) := by
  simp only [Uz.body, hop, Uz.repOp, hk, if_false]

theorem Uz.body_rep_pass {word : Nat} (hop : c.i.op = 0x32) (hk : (s.uz c).k.toNat = 0) (hw : s.fetchWord c.th c.next = some word) :
    c.body s = .ok (s.modUz c fun x =>
      { x with pc := (c.next + if (Insn.ofWord word).hasExt then 8 else 4) % 2 ^ 32 }, 0) := by
  simp only [Uz.body, hop, Uz.repOp, hk, if_true, hw]

theorem Uz.body_rep_pass_outside (hop : c.i.op = 0x32) (hk : (s.uz c).k.toNat = 0) (hw : s.fetchWord c.th c.next = none) :
    c.body s = .ok (s.modUz c fun x => { x with pc := (c.next + 4) % 2 ^ 32 }, 0) := by
  simp only [Uz.body, hop, Uz.repOp, hk, if_true, hw, Bool.false_eq_true, if_false]

/-! Stores and predicate forms (R75, R88): three rows to one body. -/

/-- The register that a store writes out. -/
def Thread.stored (x : Thread) (op : Nat) : Word := if op = 0x02 then x.a else if op = 0x04 then x.x else x.y

theorem Uz.body_store (h : c.i.op ∈ [0x02, 0x04, 0x06]) : c.body s = c.store_ s := by
  simp only [List.mem_cons, List.not_mem_nil, or_false] at h
  rcases h with h | h | h <;> simp only [Uz.body, h]

section Issued
variable (hn : s.nextInsn th = some c) (hi : exec i s = .next (s.issue th fun n => n.op = op)) (hop : c.i.op = op)
  (hg : c.guard s = true)
include hn hi hop hg

theorem exec_store_ea (hea : (c.opnd s).1 = .ea ea)
    (hs : c.store s ea (c.i.width / 8) (((s.uz c).stored op).toNat % 2 ^ c.i.width) = .ok u)
    (hm : op ∈ [0x02, 0x04, 0x06] := by decide) :
    exec i s = .next (u.modUz c fun x => ((c.opnd s).2 x).advance c.next) := by
  subst hop
  refine exec_completes hi hn (by simp) hg ?_
  simp only [Thread.stored] at hs
  simp only [Uz.body_store hm, Uz.store_, hea, hs, bind, Except.bind]

theorem exec_store_reg {v : Nat} (hr : (c.opnd s).1 = .reg r) (hv : ((s.uz c).stored op).toNat % 2 ^ c.i.width = v)
    (hp : (s.uz c).privileged r v = false) (hm : op ∈ [0x02, 0x04, 0x06] := by decide) :
    exec i s = .next (s.modUz c fun y => (y.setReg r v).advance c.next) := by
  subst hop hv
  refine exec_completes hi hn (by simp) hg ?_
  simp only [Thread.stored] at hp ⊢
  simp only [Uz.body_store hm, Uz.store_, hr, hp, Bool.false_eq_true, if_false]

theorem exec_predOp {t : Bool} (ht : predOf op ((s.uz c).pred (nbits c.i.opd 10 8) != c.i.opd.testBit 11)
      ((s.uz c).pred (nbits c.i.opd 6 4) != c.i.opd.testBit 7) = t) (hm : op ∈ [0x1E, 0x1F, 0x20] := by decide) :
    exec i s = .next (s.modUz c fun x => (x.setPred (nbits c.i.opd 14 12) t).advance c.next) := by
  subst hop ht
  refine exec_completes hi hn (by simp) hg ?_
  simp only [List.mem_cons, List.not_mem_nil, or_false] at hm
  rcases hm with h | h | h <;> simp only [Uz.body, h, Uz.predOp]

end Issued

/-- Settles O59: a store and a swap turn on where their access lands, every other form on its operand; each row issues the body that its
operation has, and TRAP alone leaves a cause to raise after it. -/
theorem uzoathMovesAndTransfers : Obligations.UzoathMovesAndTransfers := by
  intro th s c hn hg x w n m upd pr pp
  have completes {i : Instr} {op : Nat} {u : State} (hi : exec i s = .next (s.issue th fun n => n.op = op)) (hop : n = op)
      (hb : c.body s = .ok (u, 0)) : exec i s = .next u := exec_completes hi hn (by simpa using hop) hg hb
  have hk0 : x.k = 0 ↔ x.k.toNat = 0 := BitVec.toNat_inj.symm
  refine ⟨fun ea a hea hp => ?_, fun ea d hea hp hlen hhold => ?_, fun r hr => ?_,
    fun ea hea hop => completes rfl hop (Uz.body_lea hop hea), (exec_predOp hn rfl · hg rfl), (exec_predOp hn rfl · hg rfl),
    (exec_predOp hn rfl · hg rfl), fun t ht hbad => ?_, fun u t hop hopd hl hbad => ?_,
    fun a hop hopd hsys hal hfit ha hbad => ?_, fun hop => ?_, fun hop hk => completes rfl hop (Uz.body_rep hop (hk ∘ hk0.mpr)),
    fun hop hk => ⟨fun word hw => completes rfl hop (Uz.body_rep_pass hop (hk0.mp hk) hw),
      fun hw => completes rfl hop (Uz.body_rep_pass_outside hop (hk0.mp hk) hw)⟩⟩
  · have hs (v : Nat) := Uz.store_here v hp
    exact ⟨(exec_store_ea hn rfl · hg hea (hs _)), (exec_store_ea hn rfl · hg hea (hs _)), (exec_store_ea hn rfl · hg hea (hs _)),
      fun hop => completes rfl hop (Uz.body_xch_ea hop hea hp)⟩
  · have hs (v : Nat) := Uz.store_posted v hp hlen hhold
    exact ⟨(exec_store_ea hn rfl · hg hea (hs _)), (exec_store_ea hn rfl · hg hea (hs _)), (exec_store_ea hn rfl · hg hea (hs _))⟩
  · exact ⟨(exec_store_reg hn rfl · hg hr rfl ·), (exec_store_reg hn rfl · hg hr rfl ·), (exec_store_reg hn rfl · hg hr rfl ·),
      fun hop hpriv => completes rfl hop (Uz.body_xch_reg hop hr hpriv)⟩
  · subst ht
    exact ⟨fun hop => completes rfl hop (Uz.body_br hop hbad), fun u hop hs => completes rfl hop (Uz.body_call hop hbad hs)⟩
  · have hw : (c.i.op = 0x30 && c.i.opd = 0 : Bool) = true := by simp [hopd, show c.i.op = 0x30 from hop]
    exact exec_completes rfl hn hw hg (Uz.body_ret hop hopd hl hbad)
  · have hw : (c.i.op = 0x30 && c.i.opd = 1 : Bool) = true := by simp [hopd, show c.i.op = 0x30 from hop]
    exact exec_completes rfl hn hw hg (Uz.body_retTrap hop hopd hsys hal hfit ha hbad)
  · have hw : (c.i.op = 0x31 : Bool) = true := by simpa using hop
    exact (exec_issued rfl hn hw).trans (congrArg _ (Uz.run_trapAfter hg (Uz.body_trap hop)))

end Sys2Proof.Machine
end

section
/-! Frames of a radio's state and of its registers, where the sequencer and the transmit path keep their state. -/

namespace Sys2Proof.Machine

variable (s : State)

@[simp] theorem State.radio_wr (a : RegId) (v : Word) (r : Nat) : (s.wr a v).radio r = s.radio r := rfl
@[simp] theorem State.radio_wf (a : RegId) (hi lo v r : Nat) : (s.wf a hi lo v).radio r = s.radio r := rfl
@[simp] theorem State.radio_wb (a : Nat) (v : Byte) (r : Nat) : (s.wb a v).radio r = s.radio r := rfl
@[simp] theorem State.radio_wm (a n v r : Nat) : (s.wm a n v).radio r = s.radio r := by
  induction n generalizing s a v with
  | zero => rfl
  | succ n ih => rw [State.wm, ih, State.radio_wb]
@[simp] theorem State.radio_setEvtWords (t : Nat) (p m : Word) (r : Nat) : (s.setEvtWords t p m).radio r = s.radio r := by
  simp only [State.setEvtWords, State.sendEvt, State.sendMsix]
  (repeat' split) <;> rfl
@[simp] theorem State.radio_evt (t n r : Nat) : (s.evt t n).radio r = s.radio r := State.radio_setEvtWords ..
@[simp] theorem State.radio_pathPost (a : RegId) (lo : Nat) (tag : Tag) (v r : Nat) :
    (s.pathPost a lo tag v).radio r = s.radio r := rfl

/-! A pass of the arbiter shows its grants in the slots' results alone (R470, R471). -/

@[simp] theorem State.radio_showGrant (q : Token) (r : Nat) : (s.showGrant q).radio r = s.radio r := by
  unfold State.showGrant
  split <;> simp
theorem State.rd_showGrant (q : Token) {a : RegId} (h : ∀ k, a ≠ Reg.MGMT.MT_RES k) : (s.showGrant q).rd a = s.rd a := by
  unfold State.showGrant
  split
  · rw [State.rd_evt, State.pathPost, State.rd_wr_ne _ _ (h _)]
  · rfl
@[simp] theorem State.radio_releaseToken (kind scope r : Nat) : (s.releaseToken kind scope).radio r = s.radio r :=
  State.foldl_frame (·.radio r) (fun u q => u.radio_showGrant q r) ..
theorem State.rd_releaseToken (kind scope : Nat) {a : RegId} (h : ∀ k, a ≠ Reg.MGMT.MT_RES k) :
    (s.releaseToken kind scope).rd a = s.rd a :=
  State.foldl_frame (·.rd a) (fun u q => u.rd_showGrant q h) ..

/-- A field reads as what was put there, as far as it fits. -/
theorem fld_putFld_self (w : Word) {hi lo : Nat} (v : Nat) (hle : lo ≤ hi) (hhi : hi < 32) :
    fld (putFld w hi lo v) hi lo = v % 2 ^ (hi - lo + 1) := by
  refine Nat.eq_of_testBit_eq fun i => ?_
  by_cases hi' : i < hi - lo + 1
  · have h32 : lo + i < 32 := by omega
    simp only [fld, putFld, fmask, Nat.testBit_mod_two_pow, Nat.testBit_shiftRight, BitVec.testBit_toNat, BitVec.getLsbD_or,
      BitVec.getLsbD_and, BitVec.getLsbD_not, BitVec.getLsbD_ofNat, Nat.testBit_mul_two_pow, Nat.testBit_two_pow_sub_one]
    simp [hi', h32]
  · simp [fld, hi']

end Sys2Proof.Machine
end

section
/-! The sequencer's steps (R142, R143, R145, R148) and the swap of banks at a SAFE boundary (R149). -/

namespace Sys2Proof.Machine

open Reg

variable {s : State} {r : Fin 3}

theorem exec_seqStepBegin_eq (r : Fin 3) (s : State) : exec (.seqStepBegin r) s = execSeqStepBegin r s := rfl
theorem exec_seqSwapApply_eq (r : Fin 3) (s : State) : exec (.seqSwapApply r) s = execSeqSwapApply r s := rfl
theorem exec_seqWaitEvent_eq (r : Fin 3) (s : State) : exec (.seqWaitEvent r) s = execSeqWaitEvent r s := rfl
theorem exec_seqWaitTimeout_eq (r : Fin 3) (s : State) : exec (.seqWaitTimeout r) s = execSeqWaitTimeout r s := rfl

theorem State.inStep_iff {n kind : Nat} (hrun : s.seqRunning n = true) (hnext : (s.radio n).next = none) :
    s.inStep n kind = true ↔ (s.radio n).step.kind = kind := by
  simp [State.inStep, hrun, hnext]

theorem State.begins {n t : Nat} (hrun : s.seqRunning n = true) (ht : t ≤ s.tick) (hdue : s.swapDue n = false) :
    (!s.seqRunning n || decide (s.tick < t) || s.swapDue n) = false := by
  simp [hrun, hdue, Nat.not_lt.mpr ht]

/-- A wait reaches its time-out where its event is not latched before it. -/
theorem exec_seqWaitTimeout (hin : s.inStep r.val 1 = true)
    (hl : ∀ e, s.latchTick r.val = some e → (s.radio r.val).step.began + (s.radio r.val).step.duration ≤ e)
    (h0 : (s.radio r.val).step.duration ≠ 0) (he : (s.radio r.val).step.began + (s.radio r.val).step.duration ≤ s.tick) :
    exec (.seqWaitTimeout r) s = .next (s.stepEnds r.val (s.radio r.val).step.nextTo
      ((s.radio r.val).step.began + (s.radio r.val).step.duration)) := by
  cases hlatch : s.latchTick r.val with
  | none => simp [exec_seqWaitTimeout_eq, execSeqWaitTimeout, hin, h0, he, hlatch]
  | some e => simp [exec_seqWaitTimeout_eq, execSeqWaitTimeout, hin, h0, he, hlatch, Nat.not_lt.mpr (hl e hlatch)]

/-! The tick of a step's event (R143). -/

theorem State.latchTick_none {n : Nat} (h : (s.radio n).step.event = 0 ∨ 14 ≤ (s.radio n).step.event ∨
    tget (fun _ => []) (s.radio n).latchAt (s.radio n).step.event = []) : s.latchTick n = none := by
  simp only [State.latchTick]
  split
  · rfl
  · next hev =>
    have hnil := (h.resolve_left (by simp_all)).resolve_left (by simp_all)
    rw [hnil]
    rfl

theorem State.latchTick_mem {n t : Nat} (h0 : (s.radio n).step.event ≠ 0) (h14 : (s.radio n).step.event < 14)
    (ht : t ∈ tget (fun _ => []) (s.radio n).latchAt (s.radio n).step.event) :
    ∃ e, s.latchTick n = some e ∧ (s.radio n).step.began ≤ e ∧ e ≤ max (s.radio n).step.began t := by
  cases hm : (tget (fun _ => []) (s.radio n).latchAt (s.radio n).step.event).min? with
  | none => simp [List.min?_eq_none_iff.mp hm] at ht
  | some m =>
    have hle : m ≤ t := (List.min?_eq_some_iff.mp hm).2 t ht
    exact ⟨max (s.radio n).step.began m, by simp [State.latchTick, h0, Nat.not_le.mpr h14, hm], by omega, by omega⟩

/-! A swap that is due (R149). -/

/-- No result of a token slot is the sequencer's register: their places differ modulo 16. -/
theorem seqCtl_ne_mtRes (n k : Nat) : RADIO.SEQ_CTL n ≠ MGMT.MT_RES k := by
  intro h
  have : 0x2002000 + 0x1000000 * n = 0x1304 + 16 * k := h
  omega
theorem seqResult_ne_mtRes (n k : Nat) : RADIO.SEQ_RESULT n ≠ MGMT.MT_RES k := by
  intro h
  have : 0x200200C + 0x1000000 * n = 0x1304 + 16 * k := h
  omega

theorem State.rd_seqPost (s : State) (n b k : Nat) : (s.seqPost n b k).rd (RADIO.SEQ_RESULT n) =
    wd (2 ^ 31 + (b * 2 ^ 10 + k) + (s.pathTag (RADIO.SEQ_RESULT n) 16).toNat * 2 ^ 16) := by
  rw [State.seqPost, State.rd_evt, State.rd_pathPost]
theorem State.rd_seqPost_ne (s : State) {n : Nat} (b k : Nat) {a : RegId} (h : a ≠ RADIO.SEQ_RESULT n) :
    (s.seqPost n b k).rd a = s.rd a := by
  rw [State.seqPost, State.rd_evt, State.pathPost, State.rd_wr_ne _ _ h]
@[simp] theorem State.radio_seqPost (s : State) (n b k q : Nat) : (s.seqPost n b k).radio q = s.radio q := by
  simp [State.seqPost]

/-- A result posted for a bank and a step is VALID. -/
theorem State.seqPost_valid (s : State) (n : Nat) {b k : Nat} (hb : b ≤ 1) (hk : k < 2 ^ 10) :
    (s.seqPost n b k).rbit (RADIO.SEQ_RESULT n) 31 = true := by
  have htag := (s.pathTag (RADIO.SEQ_RESULT n) 16).isLt
  rw [State.rbit, State.rd_seqPost, bit, wd, BitVec.getLsbD_ofNat, Nat.add_assoc,
    Nat.testBit_two_pow_add_eq, Nat.testBit_lt_two_pow (by omega)]
  rfl

/-- The state that a swap of banks leaves, its result posted and its token given back. -/
def State.swapped (s : State) (n e t : Nat) : State :=
  let b := 1 - s.bank n
  let s1 := (s.modRadio n fun y => { y with swap := none, next := some (e, t) }).wf (RADIO.SEQ_CTL n) 30 30 b
  ((s1.wr (RADIO.SEQ_STATUS n) (putFld (putBit (s1.rd (RADIO.SEQ_STATUS n)) 29 false) 30 30 b)).seqPost n b
    (s.rf (RADIO.SEQ_STATUS n) 25 16)).releaseToken kSEQSW (rTile n)

theorem exec_seqSwapApply {e k t : Nat} (hswap : (s.radio r.val).swap = some e) (hnext : (s.radio r.val).next = some (k, t))
    (hdue : s.swapDue r.val = true) : exec (.seqSwapApply r) s = .next (s.swapped r.val e t) := by
  simp only [exec_seqSwapApply_eq, execSeqSwapApply, hswap, hnext, hdue, Bool.not_true, Bool.false_eq_true, if_false, State.swapped]

theorem State.radio_swapped (s : State) (n e t : Nat) :
    (s.swapped n e t).radio n = { s.radio n with swap := none, next := some (e, t) } := by
  simp [State.swapped]

theorem State.bank_swapped (s : State) (n e t : Nat) : (s.swapped n e t).bank n = 1 - s.bank n := by
  have hres : RADIO.SEQ_CTL n ≠ RADIO.SEQ_RESULT n := by simp [RADIO.SEQ_CTL, RADIO.SEQ_RESULT]
  have hst : RADIO.SEQ_CTL n ≠ RADIO.SEQ_STATUS n := by simp [RADIO.SEQ_CTL, RADIO.SEQ_STATUS]
  rw [State.bank, State.rf, State.swapped, State.rd_releaseToken _ _ _ (seqCtl_ne_mtRes n), State.rd_seqPost_ne _ _ _ hres,
    State.rd_wr_ne _ _ hst, State.rd_wf_self, fld_putFld_self _ _ (Nat.le_refl _) (by decide)]
  omega

theorem State.swapped_valid (s : State) (n e t : Nat) : (s.swapped n e t).rbit (RADIO.SEQ_RESULT n) 31 = true := by
  rw [State.rbit, State.swapped, State.rd_releaseToken _ _ _ (seqResult_ne_mtRes n)]
  exact State.seqPost_valid _ n (by omega) (Nat.mod_lt _ (by decide))

/-- Settles O29: a step's begin runs by its kind, its end by `latchTick`, and what a swap leaves is `State.swapped`. -/
theorem sequencerStepsFollowTheirWords : Obligations.SequencerStepsFollowTheirWords := by
  intro r s hrun n st
  refine ⟨fun k t hnext ht hdue => ?_, fun e k t hswap hnext hdue => ?_, State.latchTick_none,
    fun h0 h14 t => State.latchTick_mem h0 h14, fun hnext => ?_⟩
  · intro a b p st' s0
    simp only [exec_seqStepBegin_eq, execSeqStepBegin, show (s.radio r.val).next = some (k, t) from hnext,
      State.begins (n := r.val) hrun ht hdue, Bool.false_eq_true, if_false]
    exact ⟨fun h3 => congrArg _ (if_pos h3), fun h3 => congrArg _ (if_neg h3)⟩
  · exact ⟨_, exec_seqSwapApply hswap hnext hdue, s.bank_swapped n e t, by rw [State.radio_swapped], by rw [State.radio_swapped],
      s.swapped_valid n e t⟩
  · have hin (kind : Nat) : s.inStep r.val kind = true ↔ st.kind = kind := State.inStep_iff hrun hnext
    refine ⟨fun hk he => ?_, fun e hk hl he => ?_, fun hk hl h0 he => ?_, fun hk => ?_, fun hk hev hb hat => ?_⟩
    · exact congrArg _ (if_pos (by simpa [hin] using ⟨hk, he⟩))
    · simp only [exec_seqWaitEvent_eq, execSeqWaitEvent, show s.latchTick r.val = some e from hl]
      exact congrArg _ (if_pos (by simpa [hin] using ⟨hk, he⟩))
    · exact exec_seqWaitTimeout ((hin 1).mpr hk) hl h0 he
    · exact congrArg _ (if_pos ((hin 2).mpr hk))
    · exact congrArg _ (if_pos (by simpa [hin] using ⟨⟨⟨hk, hev⟩, hb⟩, hat⟩))

end Sys2Proof.Machine
end

section
/-! Transmit commands: pushes and completions (R151, R157), due times and selection (R152), expiry (R154). -/

namespace Sys2Proof.Machine

open Reg

variable {s : State} {r : Fin 3} {by_ : Req}

theorem exec_txcAck_eq (by_ : Req) (r : Fin 3) (tag : Tag) (s : State) : exec (.txcAck by_ r tag) s = execTxcAck by_ r tag s := rfl
theorem exec_cmdDueAtTime_eq (r : Fin 3) (s : State) : exec (.cmdDueAtTime r) s = execCmdDueAtTime r s := rfl
theorem exec_txqReady_eq (r : Fin 3) (s : State) : exec (.txqReady r) s = execTxqReady r s := rfl
theorem exec_cmdExpire_eq (r : Fin 3) (q : Fin 5) (s : State) : exec (.cmdExpire r q) s = execCmdExpire r q s := rfl

/-! Pushes (R151). -/

/-- The record that the registers of a push hold. -/
def State.pushWords (s : State) (n : Nat) : List Nat := (List.range 8).map fun k => (s.rd (RADIO.TXQ_CMD n k)).toNat
/-- The queue that a record names. -/
def pushQueue (w : List Nat) : Nat := if w.getD 0 0 / 2 ^ 30 = 0 then nbits (w.getD 0 0) 29 28 else 4
/-- A push dropped. -/
def State.pushDropped (s : State) (n : Nat) : State := (s.sat (RADIO.TX_ERR_CNT n) 15 8 1).evt (rTile n) 26

theorem State.txqPush_full {n q : Nat} (c : TxCmd) (h : 8 ≤ (s.txq n q).length + s.txqOut n q) : s.txqPush n q c = none :=
  if_pos h
theorem State.txqPush_room {n q : Nat} (c : TxCmd) (h : (s.txq n q).length + s.txqOut n q < 8) :
    s.txqPush n q c = some (s.setTxq n q (s.txq n q ++ [c])) := if_neg (Nat.not_le.mpr h)

/-- The oldest completion retired: its record is not VALID, and the index of what is read next moves on (R157). -/
def State.txcRetired (s : State) (n : Nat) : State :=
  let k := s.rf (RADIO.TXC_RD n) 9 0
  let a := s.txcAddr n k
  (s.wm a 4 (s.rm a 4 % 2 ^ 31)).wf (RADIO.TXC_RD n) 9 0 ((k + 1) % s.txcSlots n)

theorem State.radio_txcRetired (s : State) (n : Nat) : (s.txcRetired n).radio n = s.radio n :=
  (State.radio_wf ..).trans (State.radio_wm ..)

section Accepted
variable (ha : s.accepts by_ (rTile r.val) = true)
include ha

theorem exec_txqPush_none : exec (.txqPush by_ r false) s = .next s := congrArg _ (State.onWrite_accepts _ ha)

section Record
variable {w : List Nat} (hw : s.pushWords r.val = w)
include hw

/-- A push of a record: dropped where it is malformed or finds no room, else queued, and a calibration slice yields. -/
theorem exec_txqPush : exec (.txqPush by_ r true) s = .next (if pushBad w then s.pushDropped r.val
    else match s.txqPush r.val (pushQueue w) { words := w } with
      | some s1 => s1.sliceYield r.val
      | none => s.pushDropped r.val) := by
  subst hw
  exact congrArg _ (State.onWrite_accepts _ ha)

theorem exec_txqPush_bad (hbad : pushBad w = true) : exec (.txqPush by_ r true) s = .next (s.pushDropped r.val) := by
  rw [exec_txqPush ha hw, if_pos hbad]

theorem exec_txqPush_full (hbad : pushBad w = false)
    (h : 8 ≤ (s.txq r.val (pushQueue w)).length + s.txqOut r.val (pushQueue w)) :
    exec (.txqPush by_ r true) s = .next (s.pushDropped r.val) := by
  rw [exec_txqPush ha hw, hbad, State.txqPush_full _ h]
  rfl

theorem exec_txqPush_room (hbad : pushBad w = false)
    (h : (s.txq r.val (pushQueue w)).length + s.txqOut r.val (pushQueue w) < 8) : exec (.txqPush by_ r true) s =
      .next ((s.setTxq r.val (pushQueue w) (s.txq r.val (pushQueue w) ++ [{ words := w }])).sliceYield r.val) := by
  rw [exec_txqPush ha hw, hbad, State.txqPush_room _ h]
  rfl

end Record

/-! Completions (R157). -/

theorem exec_txcAck {tag : Tag} (hne : s.rf (RADIO.TXC_RD r.val) 9 0 ≠ s.rf (RADIO.TXC_WR r.val) 9 0)
    (hv : (s.rm (s.txcAddr r.val (s.rf (RADIO.TXC_RD r.val) 9 0)) 4).testBit 31 = true)
    (htag : nbits (s.rm (s.txcAddr r.val (s.rf (RADIO.TXC_RD r.val) 9 0)) 4) 15 8 = tag.toNat) :
    exec (.txcAck by_ r tag) s = .next ((s.txcRetired r.val).txcFlush r.val (s.radio r.val).txcWait) := by
  rw [exec_txcAck_eq, execTxcAck, State.onWrite_accepts _ ha, ← State.radio_txcRetired s r.val]
  exact congrArg _ (if_pos (by simp [hne, hv, htag]))

theorem exec_txcCtlWrite (val : Word) : exec (.txcCtlWrite by_ r val) s =
    .next ((((s.wr (RADIO.TXC_CTL r.val) (val &&& 0x0003FFFF)).wr (RADIO.TXC_WR r.val) 0).wr (RADIO.TXC_RD r.val) 0).txcFlush
      r.val (s.radio r.val).txcWait) := congrArg _ (State.onWrite_accepts _ ha)

end Accepted

/-! The head of a queue (R152, R154). -/

section Head
variable {c : TxCmd} {cs : List TxCmd}

theorem exec_cmdDueAtTime (hq : s.txq r.val 4 = c :: cs) (htimed : c.word 0 / 2 ^ 30 = 1) (hdue : c.due = none)
    (hdoze : s.dozing r.val = false) (hduty : s.dutyFull r.val = false) (hat : c.word 4 + 2 ^ 32 * c.word 5 ≤ s.ns + 1604) :
    exec (.cmdDueAtTime r) s = .next (s.setTxq r.val 4 (s.timPatch r.val { c with
      due := some s.tick, late := !s.locked r.val || s.tuning r.val || (s.radio r.val).slice.isSome } :: cs)) := by
  simp only [exec_cmdDueAtTime_eq, execCmdDueAtTime, hq]
  exact congrArg _ (if_pos (by simp [htimed, hdue, hdoze, hduty, hat, -Nat.reducePow]))

theorem exec_cmdExpire {q : Fin 5} {d : Nat} (hq : s.txq r.val q.val = c :: cs) (hdue : c.due = some d) (h6 : c.word 6 ≠ 0)
    (hlate : d * 25 + c.word 6 * 8 ≤ s.tick * 25) : exec (.cmdExpire r q) s =
      .next (((s.modRadio r.val fun x => { x with
        selected := if x.selected = some q.val then none else x.selected
        granted := if x.granted = some q.val then none else x.granted }).setTxq r.val q.val cs).txUnsent r.val q.val c 2) := by
  simp only [exec_cmdExpire_eq, execCmdExpire, hq, hdue]
  exact congrArg _ (if_pos (by simp [h6, hlate]))

/-- The radio lets a due command be selected: nothing is sent or selected, it is tuned and awake, and it neither
calibrates nor drains. -/
structure State.MayStart (s : State) (n : Nat) : Prop where
  tx : (s.radio n).tx = none
  resp : (s.radio n).resp.phase = .none ∨ (s.radio n).resp.phase = .announced
  selected : (s.radio n).selected = none
  locked : s.locked n = true
  tuning : s.tuning n = false
  slice : (s.radio n).slice = none
  life : s.life (rTile n) = .ready
  dozing : s.dozing n = false

/-- The bytes of a command that its start waits for are in the transmit buffer. -/
theorem TxCmd.lead_fetched {up : Bool} (c : TxCmd) (h : up = true ∨ c.lead ≤ c.fetched) :
    ¬ (if up then c.lead else c.fetched) < c.lead := by
  cases up <;> simp_all

theorem exec_txqReady {k : Nat} (hk : s.dueQueue r.val = some k) (hq : s.txq r.val k = c :: cs) (hm : s.MayStart r.val)
    (hheld : s.heldBack r.val k c = false) (hlead : s.storeUp = true ∨ c.lead ≤ c.fetched) :
    exec (.txqReady r) s = .next (if s.txcFull r.val then
      if c.stalled then s else (s.setTxq r.val k ({ c with stalled := true } :: cs)).sat (RADIO.TX_ERR_CNT r.val) 7 0 1
      else (s.modRadio r.val fun y => { y with selected := some k }).seqEvent r.val evTXQ) := by
  obtain ⟨htx, hresp, hsel, hlock, htune, hslice, hlife, hdoze⟩ := hm
  have hfree : ((s.radio r.val).resp.phase != .none && (s.radio r.val).resp.phase != .announced) = false := by
    rcases hresp with h | h <;> simp [h]
  simp [exec_txqReady_eq, execTxqReady, hk, hq, htx, hfree, hsel, hlock, htune, hslice, hlife, hdoze, hheld,
    c.lead_fetched hlead]

end Head

/-- Settles O30: pushes and completions act where the tile accepts them, the head of a queue by its due time, and a selection
turns on `State.MayStart`. -/
theorem transmitCommandsQueue : Obligations.TransmitCommandsQueue := by
  intro by_ r q tag val c cs s n x w full
  refine ⟨fun ha => ⟨exec_txqPush_none ha, exec_txqPush_bad ha rfl,
      fun hbad => ⟨exec_txqPush_full ha rfl hbad, exec_txqPush_room ha rfl hbad⟩, exec_txcAck ha, exec_txcCtlWrite ha val⟩,
    exec_cmdDueAtTime, fun k hk hq htx hresp hsel hlock htune hslice hlife hdoze hheld hlead => ?_, fun d => exec_cmdExpire⟩
  have hready := exec_txqReady (r := r) hk hq ⟨htx, hresp, hsel, hlock, htune, hslice, hlife, hdoze⟩ hheld hlead
  refine ⟨fun hroom => ?_, fun hfull hstalled => ?_⟩
  · rw [hready, show s.txcFull r.val = false from hroom]
    rfl
  · rw [hready, show s.txcFull r.val = true from hfull, hstalled]
    rfl

end Sys2Proof.Machine
end

section
/-! The end of a transmission (R155, R157, R190, R232) and the response at SIFS (R158). -/

namespace Sys2Proof.Machine

open Reg

variable {s : State} {r : Fin 3}

theorem exec_txUnderrun_eq (r : Fin 3) (unsent : BitVec 8) (s : State) :
    exec (.txUnderrun r unsent) s = execTxUnderrun r unsent s := rfl
theorem exec_txPpduEnd_eq (r : Fin 3) (airtime : BitVec 32) (errs : List Int) (s : State) :
    exec (.txPpduEnd r airtime errs) s = execTxPpduEnd r airtime errs s := rfl
theorem exec_respLaunch_eq (r : Fin 3) (s : State) : exec (.respLaunch r) s = execRespLaunch r s := rfl
theorem exec_respAbandon_eq (r : Fin 3) (s : State) : exec (.respAbandon r) s = execRespAbandon r s := rfl

/-! The end of a PPDU of a command, by the stage of its transmission (R157, R190, R232). -/

/-- The transmission whose PPDU has ended, its airtime added. -/
def TxNow.ended (t : TxNow) (airtime : Nat) : TxNow := { t with airtime := t.airtime + airtime, onAir := false }

/-- What the end of a PPDU leaves before its command goes on: the anchor and TX_END (R145), its airtime in the duty window that it
started in (R465), and the chains' captures for pre-distortion (R125). -/
def State.airtimeTaken (s : State) (n : Nat) (t : TxNow) (airtime : Nat) (errs : List Int) : State :=
  (((s.modRadio n fun y => { y with anchor := s.tick }).seqEvent n evTXEND).modRadio n fun y => { y with
    tx := some (t.ended airtime)
    duty := if s.ns / 10000000 ≤ (s.ns - airtime) / 10000000 then y.duty + airtime else y.duty }).dpdCaptures n t.chains airtime
      (s.cmdPower n t.cmd) errs

/-- The radio after the end of a PPDU: what follows the transmission in progress. -/
def State.txClosed (s : State) (n : Nat) : State := (((s.syncTxBusy n).chainsAtEnd n).rfSettle n).nstrFree n

/-- A command whose PPDUs draw no response completes after the last. -/
def State.unansweredDone (s : State) (n : Nat) (t t1 : TxNow) (s1 : State) : State :=
  let s2 := t.cmd.mpdus.foldl (fun u m => u.stqAcked n m) ((s1.modRadio n fun y => { y with tx := none }).exchangeOk n t1)
  if nbits (s.tv n t.cmd 0) 31 28 = 7 && t.cmd.from_ = .firmware then s2.tpStatus n t.cmd false true
  else s2.fwStatus n t.cmd (fun _ => false) false

/-- What the command of a transmission does at the end of a PPDU, by its stage, where `t1` and `s1` have the airtime added. -/
def State.ppduNext (s : State) (n : Nat) (t t1 : TxNow) (s1 : State) : State :=
  match t.stage with
  | .ctsSelf =>
    let t2 : TxNow := { t1 with stage := .ppdu 0, onAir := true }
    s1.modRadio n fun y => { y with tx := some { t2 with till := s1.endTick n t2 (s.tick + s.sifs n * 16 / 25) } }
  | .rts => s1.awaitFrom n t1
  | .ppdu m =>
    match s.opensTb n t with
    | some us => s1.modMac n fun y => { y with
        tb := some (s.clock + s.sifs n + nbits (s.tv n t.cmd 2) 31 16 * 500 + 1000, us, false) }
    | none => if m + 1 < s.ppdusOf n t.cmd then s1 else if s.ackOf n t = 0 then s.unansweredDone n t t1 s1 else s1.awaitFrom n t1

theorem exec_txPpduEnd {t : TxNow} (htx : (s.radio r.val).tx = some t) (hair : t.onAir = true) (airtime : BitVec 32)
    (errs : List Int) : exec (.txPpduEnd r airtime errs) s = .next ((s.ppduNext r.val t (t.ended airtime.toNat)
      (s.airtimeTaken r.val t airtime.toNat errs)).txClosed r.val) := by
  simp only [exec_txPpduEnd_eq, execTxPpduEnd, htx, hair, Bool.not_true, Bool.false_eq_true, if_false]
  rfl

section Stage
variable {n m : Nat} {t : TxNow} (t1 : TxNow) (s1 : State)

theorem State.ppduNext_rts (hst : t.stage = .rts) : s.ppduNext n t t1 s1 = s1.awaitFrom n t1 := by simp only [State.ppduNext, hst]

theorem State.ppduNext_ctsSelf (hst : t.stage = .ctsSelf) : s.ppduNext n t t1 s1 = s1.modRadio n fun y => { y with
    tx := some { t1 with
      stage := .ppdu 0, onAir := true
      till := s1.endTick n { t1 with stage := .ppdu 0, onAir := true } (s.tick + s.sifs n * 16 / 25) } } := by
  simp only [State.ppduNext, hst]

theorem State.ppduNext_opensTb (hst : t.stage = .ppdu m) {us : List Nat} (htb : s.opensTb n t = some us) :
    s.ppduNext n t t1 s1 = s1.modMac n fun y => { y with
      tb := some (s.clock + s.sifs n + nbits (s.tv n t.cmd 2) 31 16 * 500 + 1000, us, false) } := by
  simp only [State.ppduNext, hst, htb]

variable (hst : t.stage = .ppdu m) (htb : s.opensTb n t = none)
include hst htb

theorem State.ppduNext_more (hm : m + 1 < s.ppdusOf n t.cmd) : s.ppduNext n t t1 s1 = s1 := by
  simp only [State.ppduNext, hst, htb, hm, if_true]

theorem State.ppduNext_awaits (hm : s.ppdusOf n t.cmd ≤ m + 1) (hack : s.ackOf n t ≠ 0) :
    s.ppduNext n t t1 s1 = s1.awaitFrom n t1 := by
  simp only [State.ppduNext, hst, htb, Nat.not_lt.mpr hm, hack, if_false]

theorem State.ppduNext_unanswered (hm : s.ppdusOf n t.cmd ≤ m + 1) (hack : s.ackOf n t = 0) :
    s.ppduNext n t t1 s1 = s.unansweredDone n t t1 s1 := by
  simp only [State.ppduNext, hst, htb, Nat.not_lt.mpr hm, hack, if_false, if_true]

end Stage

/-! The response at SIFS (R158). -/

/-- A response that is ready may launch: it is armed on a live radio with a lock, inside its window. -/
structure State.MayLaunch (s : State) (n : Nat) : Prop where
  phase : (s.radio n).resp.phase = .ready
  armed : (s.radio n).resp.armed = true
  locked : s.locked n = true
  tuning : s.tuning n = false
  come : s.launchAt n ≤ s.tick
  fits : s.launchAt n ≤ s.lastLaunch n
  unpassed : s.tick ≤ s.lastLaunch n
  live : s.live (rTile n) = true

/-- A response on its way from a state, with the nanoseconds that it lasts. -/
def State.respSent (s : State) (n : Nat) (u : State) (ns : Nat) : State :=
  let stamp := s.ns + 1600 + s.femDelay n (s.radio n).resp.chains 31 16
  ((((u.modRadio n fun y => { y with resp := { y.resp with
    phase := .sending, armed := false, stamp := stamp, till := s.tick + 512 + ns * 8 / 25 } }).sat
      (RADIO.RESP_CNT n) 31 16 1).macBusy n).syncTxBusy n).ftmOnTx n stamp

theorem exec_respLaunch (hm : s.MayLaunch r.val) (hk : ∀ p b, (s.radio r.val).resp.kind ≠ .towpath p b) :
    exec (.respLaunch r) s = .next (s.respSent r.val (s.rxAbort r.val 10)
      (Config.ppduNs [3, (s.radio r.val).resp.rate] ((s.radio r.val).resp.bas.map (·.size)).sum)) := by
  obtain ⟨hphase, harm, hlock, htune, hat, hfit, hopen, hlive⟩ := hm
  cases hkind : (s.radio r.val).resp.kind with
  | towpath p b => exact absurd hkind (hk p b)
  | _ =>
    simp only [exec_respLaunch_eq, execRespLaunch, hkind]
    exact congrArg _ (if_neg (by simp [hphase, harm, hlock, htune, Nat.not_lt.mpr hat, Nat.not_lt.mpr hfit, Nat.not_lt.mpr hopen,
      hlive]))

theorem exec_respLaunch_towpath (hm : s.MayLaunch r.val) {p : Nat} {b : Bool} (hk : (s.radio r.val).resp.kind = .towpath p b)
    (hon : s.tpOn r.val = true) : exec (.respLaunch r) s = .next (s.respSent r.val ((s.rxAbort r.val 10).tpTake r.val p false).1
      (100 * tpDuration 28 0 (2 * s.tpTones r.val) 1 (s.rf (RADIO.TP_CTL r.val) 23 23))) := by
  obtain ⟨hphase, harm, hlock, htune, hat, hfit, hopen, hlive⟩ := hm
  simp only [exec_respLaunch_eq, execRespLaunch, hk]
  exact congrArg _ (if_neg (by simp [hphase, harm, hlock, htune, Nat.not_lt.mpr hat, Nat.not_lt.mpr hfit, Nat.not_lt.mpr hopen,
    hlive, hon]))

theorem exec_respAbandon (h : ((s.radio r.val).resp.phase = .prepared ∧ s.lastLaunch r.val < s.tick) ∨
    ((s.radio r.val).resp.phase = .ready ∧ (s.lastLaunch r.val < s.tick ∨ s.lastLaunch r.val < s.launchAt r.val ∨
      (s.launchAt r.val ≤ s.tick ∧ (s.locked r.val = false ∨ s.tuning r.val = true))))) : exec (.respAbandon r) s =
    .next ((((s.modRadio r.val fun y => { y with resp := {} }).seqEvent r.val evTXEND).sat
      (RADIO.RESP_CNT r.val) 15 0 1).syncTxBusy r.val) := by
  rw [exec_respAbandon_eq]
  refine congrArg _ (if_pos ?_)
  rcases h with ⟨hp, hlate⟩ | ⟨hp, hlate | hnever | ⟨hat, hlock | htune⟩⟩
  · simp [hp, hlate]
  · simp [hp, hlate]
  · simp [hp, hnever]
  · simp [hp, hat, hlock]
  · simp [hp, hat, htune]

/-- Settles O31: the end of a PPDU runs by the stage of the transmission, or by the kind of the response where none is in progress,
and a launch turns on `State.MayLaunch`. -/
theorem transmissionsAndResponsesEnd : Obligations.TransmissionsAndResponsesEnd := by
  intro r airtime unsent errs s n x ended close
  refine ⟨fun t htx hair => ?_, fun t htx hair => ?_, fun htx hsend => ?_, fun hp => congrArg _ (if_pos hp),
    fun hp harm hlock htune hat hfit hopen hlive => ?_, exec_respAbandon⟩
  · simp only [exec_txUnderrun_eq, execTxUnderrun, show (s.radio r.val).tx = some t from htx, hair, if_true]
    rfl
  · intro t1 s1
    have goesOn {v : State} (h : s.ppduNext n t t1 s1 = v) : exec (.txPpduEnd r airtime errs) s = .next (close v) :=
      (exec_txPpduEnd htx hair airtime errs).trans (congrArg (fun u => Host.Outcome.next (close u)) h)
    refine ⟨fun hst => goesOn (State.ppduNext_rts t1 s1 hst), fun hst => goesOn (State.ppduNext_ctsSelf t1 s1 hst), fun m hst =>
      ⟨fun us htb => goesOn (State.ppduNext_opensTb t1 s1 hst htb), fun htb =>
        ⟨fun hm => goesOn (State.ppduNext_more t1 s1 hst htb hm),
        fun hm hack => goesOn (State.ppduNext_awaits t1 s1 hst htb hm hack), fun hm hack => goesOn ?_⟩⟩⟩
    rw [State.ppduNext_unanswered t1 s1 hst htb hm hack]
    simp only [State.unansweredDone, Bool.and_eq_true, decide_eq_true_eq]
  · intro s1 done
    simp only [exec_txPpduEnd_eq, execTxPpduEnd, show (s.radio r.val).tx = none from htx,
      show (s.radio r.val).resp.phase = .sending from hsend, bne_self_eq_false, Bool.false_eq_true, if_false]
    exact ⟨fun hk => congrArg (fun u => Host.Outcome.next (done u)) (if_neg hk),
      fun hk => congrArg (fun u => Host.Outcome.next (done u)) (if_pos hk)⟩
  · intro stamp sent
    have hm : s.MayLaunch r.val := ⟨hp, harm, hlock, htune, hat, hfit, hopen, hlive⟩
    exact ⟨exec_respLaunch hm, fun p b => exec_respLaunch_towpath hm⟩

end Sys2Proof.Machine
end

section
/-! Medium access of a radio (R185, R186, R188, R189, R192, R193): NAVs, carrier sense, slots and grants. -/

namespace Sys2Proof.Machine

open Reg

variable {s : State} {r : Fin 3}

theorem exec_navExpire_eq (r : Fin 3) (intra : Bool) (s : State) : exec (.navExpire r intra) s = execNavExpire r intra s := rfl
theorem exec_navRtsTimeout_eq (r : Fin 3) (s : State) : exec (.navRtsTimeout r) s = execNavRtsTimeout r s := rfl
theorem exec_ccaEnergyBusy_eq (r : Fin 3) (level : BitVec 8) (s : State) :
    exec (.ccaEnergyBusy r level) s = execCcaEnergyBusy r level s := rfl
theorem exec_mediumIdle_eq (r : Fin 3) (s : State) : exec (.mediumIdle r) s = execMediumIdle r s := rfl
theorem exec_backoffSlot_eq (r : Fin 3) (busy : BitVec 16) (s : State) :
    exec (.backoffSlot r busy) s = execBackoffSlot r busy s := rfl
theorem exec_grantWithdraw_eq (r : Fin 3) (busy : BitVec 16) (s : State) :
    exec (.grantWithdraw r busy) s = execGrantWithdraw r busy s := rfl

/-- A change of a MAC is judged on that radio's MAC as it stands. -/
theorem State.modMac_congr {n : Nat} {f g : Mac → Mac} (h : f (s.mac n) = g (s.mac n)) : s.modMac n f = s.modMac n g :=
  congrArg (fun m => s.setRadio n { s.radio n with mac := m }) h

/-! The NAVs (R186). -/

theorem exec_navExpire_intra (h : (s.mac r.val).navIntra ≤ s.clock) :
    exec (.navExpire r true) s = .next (s.modMac r.val fun x => { x with navIntra := 0 }) :=
  congrArg _ (State.modMac_congr (by simp [h]))

theorem exec_navExpire_basic (h : (s.mac r.val).navBasic ≤ s.clock) :
    exec (.navExpire r false) s = .next (s.modMac r.val fun x => { x with navBasic := 0 }) :=
  congrArg _ (State.modMac_congr (by simp [h]))

theorem exec_navRtsTimeout {intra : Bool} {t : Nat} (hn : (s.mac r.val).navRts = some (intra, t)) (ht : t ≤ s.clock) :
    exec (.navRtsTimeout r) s = .next (s.modMac r.val fun x => { x with
      navRts := none, navIntra := if intra then 0 else x.navIntra, navBasic := if intra then x.navBasic else 0 }) := by
  refine congrArg _ (State.modMac_congr ?_)
  cases intra <;> simp [hn, ht]

/-! Carrier sense (R185). -/

theorem exec_ccaEnergyBusy_busy {level : BitVec 8}
    (h : sval 8 (s.rf (RADIO.MAC_CTL r.val) 15 8) ≤ sval 8 level.toNat) :
    exec (.ccaEnergyBusy r level) s = .next ((s.modMac r.val fun x => { x with ccaBusy := true }).macBusy r.val) :=
  congrArg _ (if_pos h)

theorem exec_ccaEnergyBusy_quiet {level : BitVec 8}
    (h : sval 8 level.toNat < sval 8 (s.rf (RADIO.MAC_CTL r.val) 15 8)) :
    exec (.ccaEnergyBusy r level) s = .next (s.modMac r.val fun x => { x with ccaBusy := false }) :=
  congrArg _ (if_neg (Int.not_le.mpr h))

theorem exec_mediumIdle (hp : s.physBusy r.val = false) (hv : s.navBusy r.val = false) (hi : (s.mac r.val).idleAt = none)
    (hl : s.live (rTile r.val) = true) : exec (.mediumIdle r) s =
      .next ((s.modMac r.val fun x => { x with idleAt := some s.clock, slotJ := 0 }).seqEvent r.val evIDLE) :=
  congrArg _ (if_neg (by simp [hp, hv, hi, hl]))

/-! The slots (R188, R189, R192). -/

/-- A boundary of the slot grid has passed: every access category's counter is moved. -/
def State.slotPassed (s : State) (n : Nat) : State :=
  [0, 1, 2, 3].foldl (fun u ac => u.slotStep n (s.mac n).slotJ ac) (s.modMac n fun x => { x with slotJ := (s.mac n).slotJ + 1 })

/-- The access categories that are due at the boundary, the highest first. -/
def State.slotWon (s : State) (n : Nat) : List Nat := [3, 2, 1, 0].filter fun ac => (s.slotPassed n).slotCand n (s.mac n).slotJ ac

/-- A boundary may end in a grant: the radio may grant, no grant stands, and no exchange is under way. -/
def State.slotOpen (s : State) (n : Nat) : Prop :=
  s.mayGrant n = true ∧ (s.radio n).granted = none ∧ (s.radio n).tx = none ∧ (s.mac n).await = none

/-- The grant of a boundary: the categories below the winner fail inside, then the winner's head becomes due. -/
def State.slotGranted (s : State) (n ac : Nat) (l : List Nat) (busy : Nat) : State :=
  (l.reverse.foldl (fun u b => (u.acFailure n b).sat (RADIO.ACC_CNT n) 15 8 1)
    ((s.slotPassed n).modMac n fun x => { x with subBusy := busy })).grant n ac

section Slot
variable {t : Nat} {busy : BitVec 16} (hi : (s.mac r.val).idleAt = some t) (hp : s.physBusy r.val = false)
  (hv : s.navBusy r.val = false)
  (ht : t + s.eifsExtra r.val + s.sifs r.val + (s.mac r.val).slotJ * s.slot r.val ≤ s.clock)
include hi hp hv ht

/-- A boundary of the slot grid that has come is evaluated once. -/
theorem exec_backoffSlot : exec (.backoffSlot r busy) s = .next (
    if !s.mayGrant r.val || (s.radio r.val).granted.isSome || (s.radio r.val).tx.isSome || (s.mac r.val).await.isSome
    then s.slotPassed r.val
    else match s.slotWon r.val with
      | [] => s.slotPassed r.val
      | ac :: l => s.slotGranted r.val ac l busy.toNat) := by
  have hnot : ¬ (s.physBusy r.val || s.navBusy r.val ||
      decide (s.clock < t + s.eifsExtra r.val + s.sifs r.val + (s.mac r.val).slotJ * s.slot r.val)) = true := by
    simp [hp, hv, Nat.not_lt.mpr ht]
  simp only [exec_backoffSlot_eq, execBackoffSlot, show (s.radio r.val).mac.idleAt = some t from hi]
  exact congrArg _ (if_neg hnot)

theorem exec_backoffSlot_counts (h : ¬ s.slotOpen r.val ∨ s.slotWon r.val = []) :
    exec (.backoffSlot r busy) s = .next (s.slotPassed r.val) := by
  rw [exec_backoffSlot hi hp hv ht]
  split
  · rfl
  · next hc =>
    rcases h with h | h
    · refine absurd ?_ h
      simpa [State.slotOpen, and_assoc] using hc
    · rw [h]

theorem exec_backoffSlot_grants {ac : Nat} {l : List Nat} (hc : s.slotOpen r.val) (hw : s.slotWon r.val = ac :: l) :
    exec (.backoffSlot r busy) s = .next (s.slotGranted r.val ac l busy.toNat) := by
  obtain ⟨hm, hg, hx, ha⟩ := hc
  simp [exec_backoffSlot hi hp hv ht, hm, hg, hx, ha, hw]

end Slot

/-! Grants withdrawn (R189, R192, R205). -/

theorem exec_grantWithdraw {ac : Nat} {busy : BitVec 16} (hg : (s.radio r.val).granted = some ac)
    (h : s.physBusy r.val = true ∨ s.navBusy r.val = true ∨
      (∃ c l, s.txq r.val ac = c :: l ∧ s.secBusy r.val c busy.toNat = true) ∨
      ((s.radio r.val).selected ≠ some ac ∧ (s.mac r.val).grantAt + s.slot r.val ≤ s.clock ∧
        ∀ c l, s.txq r.val ac = c :: l → s.aligned r.val c (s.tick + 1) = true)) :
    exec (.grantWithdraw r busy) s = .next (s.withdraw r.val) := by
  simp only [exec_grantWithdraw_eq, execGrantWithdraw, hg]
  refine congrArg _ (if_pos ?_)
  rcases h with h | h | ⟨c, l, hq, hb⟩ | ⟨hsel, hslot, hal⟩
  · simp [h]
  · simp [h]
  · simp [hq, hb]
  · have hwait : (s.txq r.val ac).head?.any (fun c => !s.aligned r.val c (s.tick + 1)) = false := by
      cases hq : s.txq r.val ac with
      | nil => rfl
      | cons c l => simp [hal c l hq]
    have hslot' : (s.radio r.val).mac.grantAt + s.slot r.val ≤ s.clock := hslot
    simp [hsel, hslot', hwait]

/-- Settles O34: NAVs and energy change the MAC alone, a boundary of the slot grid runs by `exec_backoffSlot`, and a grant is
withdrawn for each of the causes of R189. -/
theorem mediumAccessFollowsItsTimers : Obligations.MediumAccessFollowsItsTimers := by
  intro r level intra busy s n m
  exact ⟨exec_navExpire_intra, exec_navExpire_basic, fun t => exec_navRtsTimeout, exec_ccaEnergyBusy_busy,
    exec_ccaEnergyBusy_quiet, exec_mediumIdle, fun t hi hp hv ht => ⟨exec_backoffSlot_counts hi hp hv ht,
      fun ac l => exec_backoffSlot_grants hi hp hv ht⟩, fun ac => exec_grantWithdraw, rfl⟩

end Sys2Proof.Machine
end

section
/-! MPDUs received and the outcomes of exchanges (R188, R190, R191, R195, R202). -/

namespace Sys2Proof.Machine

open Reg

variable {s : State} {r : Fin 3}

theorem exec_mpduReceive_eq (r : Fin 3) (f : RxMpdu) (s : State) : exec (.mpduReceive r f) s = execMpduReceive r f s := rfl
theorem exec_respTimeout_eq (r : Fin 3) (s : State) : exec (.respTimeout r) s = execRespTimeout r s := rfl
theorem exec_txopNextDue_eq (r : Fin 3) (s : State) : exec (.txopNextDue r) s = execTxopNextDue r s := rfl
theorem exec_macCtlWrite_eq (by_ : Req) (r : Fin 3) (val : Word) (s : State) :
    exec (.macCtlWrite by_ r val) s = execMacCtlWrite by_ r val s := rfl
theorem exec_reorderTimeout_eq (q : Fin 8192) (s : State) : exec (.reorderTimeout q) s = execReorderTimeout q s := rfl

/-! MPDUs (R186, R195). -/

/-- The MPDU is counted for its user in the reception that the MAC judges. -/
def State.mpduCounted (s : State) (n : Nat) (f : RxMpdu) : State :=
  s.modCur n fun y => { y with mpdus := tput (fun _ => 0) y.mpdus f.user.toNat (tget (fun _ => 0) y.mpdus f.user.toNat + 1) }

/-- The effect of an MPDU that the filter has judged: none of its own where it is dropped (R195). -/
def State.filtered (n : Nat) (f : RxMpdu) (g : State × Filtered) : State :=
  match g.2 with
  | .dropped => g.1
  | .taken slot scid other => g.1.rxTaken n f slot scid other

section Mpdu
variable {f : RxMpdu} (hd : s.decoding r.val = true) (ht : (s.rxCur r.val).tp = none) (hl : s.live (rTile r.val) = true)
include hd ht hl

/-- An MPDU of a reception that is decoded goes by its FCS, and then by EN of MAC_CTL. -/
theorem exec_mpduReceive : exec (.mpduReceive r f) s = .next (
    let s0 := s.mpduCounted r.val f
    let s1 := s0.navUpdate r.val f
    if !f.fcsOk then s0.modCur r.val fun y => { y with fcsFail := true }
    else if !s1.rbit (RADIO.MAC_CTL r.val) 31 then s1 else State.filtered r.val f (s1.rxFilter r.val f)) := by
  have hnot : ¬ (!s.decoding r.val || (s.rxCur r.val).tp.isSome || !s.live (rTile r.val)) = true := by simp [hd, ht, hl]
  rw [exec_mpduReceive_eq]
  exact congrArg _ (if_neg hnot)

theorem exec_mpduReceive_fcsFails (hf : f.fcsOk = false) :
    exec (.mpduReceive r f) s = .next ((s.mpduCounted r.val f).modCur r.val fun y => { y with fcsFail := true }) := by
  rw [exec_mpduReceive hd ht hl, hf]
  rfl

theorem exec_mpduReceive_disabled (hf : f.fcsOk = true)
    (hen : ((s.mpduCounted r.val f).navUpdate r.val f).rbit (RADIO.MAC_CTL r.val) 31 = false) :
    exec (.mpduReceive r f) s = .next ((s.mpduCounted r.val f).navUpdate r.val f) := by
  simp [exec_mpduReceive hd ht hl, hf, hen]

theorem exec_mpduReceive_enabled (hf : f.fcsOk = true)
    (hen : ((s.mpduCounted r.val f).navUpdate r.val f).rbit (RADIO.MAC_CTL r.val) 31 = true) :
    exec (.mpduReceive r f) s =
      .next (State.filtered r.val f (((s.mpduCounted r.val f).navUpdate r.val f).rxFilter r.val f)) := by
  simp [exec_mpduReceive hd ht hl, hf, hen]

end Mpdu

/-! Exchanges and TXOPs (R190, R191). -/

theorem exec_respTimeout {a : Await} (ha : (s.radio r.val).mac.await = some a)
    (ht : a.endAt + s.sifs r.val + s.slot r.val + 1000 ≤ s.clock) (hrx : a.qual = true → (s.radio r.val).rx.phase = .idle)
    (hdone : a.qual = true → (s.radio r.val).done = none) :
    exec (.respTimeout r) s = .next ((s.exchangeFail r.val a.tx true).sat (RADIO.ACC_CNT r.val) 31 16 1) := by
  simp only [exec_respTimeout_eq, execRespTimeout, show (s.mac r.val).await = some a from ha]
  refine congrArg _ (if_neg ?_)
  cases hq : a.qual with
  | true => simp [Nat.not_lt.mpr ht, hrx hq, hdone hq]
  | false => simp [Nat.not_lt.mpr ht]

/-- The cycles that the next exchange of a TXOP takes: its PPDU, its response and two SIFS. -/
def State.exchangeNeed (s : State) (n : Nat) (c : TxCmd) : Nat := (s.cmdNs n c + s.answerNs n c + 1) / 2 + 2 * s.sifs n

section Txop
variable {ac t0 : Nat} (hx : (s.radio r.val).mac.txop = some (ac, t0)) (htx : (s.radio r.val).tx = none)
  (ha : (s.radio r.val).mac.await = none) (hg : (s.radio r.val).granted = none)
  (ht : (s.radio r.val).mac.exchangeEnd + s.sifs r.val ≤ s.clock)
include hx htx ha hg ht

/-- SIFS after an exchange of a TXOP, its queue decides. -/
theorem exec_txopNextDue : exec (.txopNextDue r) s = .next (match s.txq r.val ac with
    | [] => s.endTxop r.val
    | c :: _ => if t0 + s.txopLimit r.val ac < s.clock + s.exchangeNeed r.val c || !s.mayGrant r.val
      then s.endTxop r.val else s.grant r.val ac) := by
  simp only [exec_txopNextDue_eq, execTxopNextDue, hx]
  exact congrArg _ (if_neg (by simp [htx, ha, hg, Nat.not_lt.mpr ht]))

theorem exec_txopNextDue_empty (hq : s.txq r.val ac = []) : exec (.txopNextDue r) s = .next (s.endTxop r.val) := by
  rw [exec_txopNextDue hx htx ha hg ht, hq]

theorem exec_txopNextDue_fits {c : TxCmd} {l : List TxCmd} (hq : s.txq r.val ac = c :: l)
    (hfit : s.clock + s.exchangeNeed r.val c ≤ t0 + s.txopLimit r.val ac) (hm : s.mayGrant r.val = true) :
    exec (.txopNextDue r) s = .next (s.grant r.val ac) := by
  rw [exec_txopNextDue hx htx ha hg ht, hq]
  exact congrArg _ (if_neg (by simp [Nat.not_lt.mpr hfit, hm]))

theorem exec_txopNextDue_ends {c : TxCmd} {l : List TxCmd} (hq : s.txq r.val ac = c :: l)
    (h : t0 + s.txopLimit r.val ac < s.clock + s.exchangeNeed r.val c ∨ s.mayGrant r.val = false) :
    exec (.txopNextDue r) s = .next (s.endTxop r.val) := by
  rw [exec_txopNextDue hx htx ha hg ht, hq]
  exact congrArg _ (if_pos (by simpa using h))

end Txop

/-! MAC_CTL and the reorder window (R188, R202). -/

section Ctl
variable {by_ : Req} {val : Word} (ha : s.accepts by_ (rTile r.val) = true)
include ha

theorem exec_macCtlWrite : exec (.macCtlWrite by_ r val) s = .next (
    let s1 := s.wr (RADIO.MAC_CTL r.val) (val &&& 0xFFC0FFFF)
    if bit val 31 && !s.rbit (RADIO.MAC_CTL r.val) 31 then s1.edcaReset r.val
    else if s.rbit (RADIO.MAC_CTL r.val) 31 && !bit val 31 then s1.withdraw r.val else s1) := by
  rw [exec_macCtlWrite_eq, execMacCtlWrite, State.onWrite_accepts _ ha]

theorem exec_macCtlWrite_enables (hb : bit val 31 = true) (hon : s.rbit (RADIO.MAC_CTL r.val) 31 = false) :
    exec (.macCtlWrite by_ r val) s = .next ((s.wr (RADIO.MAC_CTL r.val) (val &&& 0xFFC0FFFF)).edcaReset r.val) := by
  simp [exec_macCtlWrite ha, hb, hon]

theorem exec_macCtlWrite_disables (hb : bit val 31 = false) (hon : s.rbit (RADIO.MAC_CTL r.val) 31 = true) :
    exec (.macCtlWrite by_ r val) s = .next ((s.wr (RADIO.MAC_CTL r.val) (val &&& 0xFFC0FFFF)).withdraw r.val) := by
  simp [exec_macCtlWrite ha, hb, hon]

theorem exec_macCtlWrite_keeps (hb : bit val 31 = s.rbit (RADIO.MAC_CTL r.val) 31) :
    exec (.macCtlWrite by_ r val) s = .next (s.wr (RADIO.MAC_CTL r.val) (val &&& 0xFFC0FFFF)) := by
  simp [exec_macCtlWrite ha, hb]

end Ctl

theorem exec_reorderTimeout {q : Fin 8192} {h : HeldMpdu} {l : List HeldMpdu} (hh : (s.board q.val).held = h :: l)
    (h0 : s.rf MLINK.REORDER_CTL 15 0 ≠ 0) (ht : (s.board q.val).since + s.rf MLINK.REORDER_CTL 15 0 * 50000 ≤ s.clock)
    (hl : s.live 5 = true) : exec (.reorderTimeout q) s = .next (s.rxMove q.val h.seq) := by
  have hwait : s.rf MLINK.REORDER_CTL 15 0 * 50000 ≠ 0 := Nat.mul_ne_zero h0 (by decide)
  simp only [exec_reorderTimeout_eq, execReorderTimeout, hh]
  exact congrArg _ (if_neg (by simp only [hwait, Nat.not_lt.mpr ht, hl, decide_false, Bool.or_self, Bool.not_true,
    Bool.false_eq_true, not_false_eq_true]))

/-- Settles O35: an MPDU goes by its FCS, EN and the filter; the end of an exchange by its window, or by what its TXOP has left; a
write of MAC_CTL by how it changes EN. -/
theorem exchangesSucceedOrFail : Obligations.ExchangesSucceedOrFail := by
  intro by_ r f val q s n x u0 s0
  exact ⟨fun hd ht hl => ⟨exec_mpduReceive_fcsFails hd ht hl, exec_mpduReceive_disabled hd ht hl,
      exec_mpduReceive_enabled hd ht hl⟩,
    fun a => exec_respTimeout,
    fun ac t0 hx htx ha hg ht => ⟨exec_txopNextDue_empty hx htx ha hg ht,
      fun c l hq => ⟨exec_txopNextDue_fits hx htx ha hg ht hq, exec_txopNextDue_ends hx htx ha hg ht hq⟩⟩,
    fun ha => ⟨exec_macCtlWrite_enables ha, exec_macCtlWrite_disables ha, exec_macCtlWrite_keeps ha,
      congrArg _ (State.onWrite_accepts _ ha)⟩,
    fun h l => exec_reorderTimeout⟩

end Sys2Proof.Machine
end

section
/-! Frames of MLINK's hidden state: the registers, memory, tile headers and the store change without it. -/

namespace Sys2Proof.Machine

open Reg

variable (s : State)

@[simp] theorem State.mlink_wf (a : RegId) (hi lo v : Nat) : (s.wf a hi lo v).mlink = s.mlink := rfl
@[simp] theorem State.mlink_sat (a : RegId) (hi lo n : Nat) : (s.sat a hi lo n).mlink = s.mlink := rfl
@[simp] theorem State.mlink_wm (a n v : Nat) : (s.wm a n v).mlink = s.mlink := by
  induction n generalizing s a v with
  | zero => rfl
  | succ n ih => rw [State.wm, ih, State.wb_mlink]
@[simp] theorem State.mlink_wbytes (a : Nat) (l : List Byte) : (s.wbytes a l).mlink = s.mlink := by
  induction l generalizing s a with
  | nil => rfl
  | cons b l ih => rw [State.wbytes, ih, State.wb_mlink]
@[simp] theorem State.mlink_wwords (a : Nat) (l : List Nat) : (s.wwords a l).mlink = s.mlink := by
  induction l generalizing s a with
  | nil => rfl
  | cons w l ih => rw [State.wwords, ih, State.mlink_wm]

/-! Events and the error record (R18, R32, R464). -/

@[simp] theorem State.mlink_setEvtWords (t : Nat) (p m : Word) : (s.setEvtWords t p m).mlink = s.mlink := by
  simp only [State.setEvtWords, State.sendEvt, State.sendMsix]
  (repeat' split) <;> rfl
@[simp] theorem State.mlink_evt (t n : Nat) : (s.evt t n).mlink = s.mlink := State.mlink_setEvtWords ..
@[simp] theorem State.mlink_logRec (t kind code d0 d1 d2 d3 : Nat) : (s.logRec t kind code d0 d1 d2 d3).mlink = s.mlink := by
  have h : ∀ u : State, u.mlink = s.mlink → (if s.logUnpers = 2048 then u.sat MGMT.LOG_CNT 15 0 1
      else { u with logUnpers := s.logUnpers + 1 }).mlink = s.mlink := by
    intro u hu
    split
    · rw [State.mlink_sat, hu]
    · exact hu
  exact h _ (by rw [State.mlink_wf, State.mlink_wwords])
/-- A cause that is not fatal (R32). -/
@[simp] theorem State.mlink_recordErr (t cause unit detail addr : Nat) :
    (s.recordErr t cause unit detail addr false).mlink = s.mlink := by
  unfold State.recordErr
  extract_lets x put s2 s1
  have h1 : s1.mlink = s.mlink := by
    unfold s1
    split
    · rfl
    · split
      · rfl
      · rw [State.mlink_logRec, State.mlink_evt, State.modTile_mlink]
  rwa [if_neg (by decide)]

/-! The store's reads, writes and frees (R309, R316, R320 to R323). -/

@[simp] theorem State.mlink_errLog (kind port addr : Nat) : (s.errLog kind port addr).mlink = s.mlink := by
  unfold State.errLog
  extract_lets n
  rw [State.wr_mlink, State.wr_mlink, State.wr_mlink]
@[simp] theorem State.mlink_freeErr (port addr : Nat) : (s.freeErr port addr).mlink = s.mlink := by
  rw [State.freeErr, State.mlink_evt, State.mlink_recordErr, State.mlink_sat, State.mlink_errLog]
@[simp] theorem State.mlink_retirePage (page : Nat) : (s.retirePage page).mlink = s.mlink := by
  unfold State.retirePage
  split <;> rfl
@[simp] theorem State.mlink_uncorrInc (t : Nat) : (s.uncorrInc t).mlink = s.mlink := rfl
@[simp] theorem State.mlink_eccFail (port addr : Nat) (isRead : Bool) : (s.eccFail port addr isRead).mlink = s.mlink := by
  unfold State.eccFail
  extract_lets s1
  have h1 : s1.mlink = s.mlink := by
    rw [State.mlink_evt, State.mlink_recordErr, State.mlink_uncorrInc, State.mlink_errLog]
  split
  · rw [State.mlink_retirePage, h1]
  · exact h1
@[simp] theorem State.mlink_metaFail (port addr : Nat) : (s.metaFail port addr).mlink = s.mlink := by
  rw [State.metaFail, State.mlink_evt, State.mlink_recordErr, State.mlink_uncorrInc, State.mlink_errLog]
@[simp] theorem State.mlink_checkFail (port addr : Nat) : (s.checkFail port addr).mlink = s.mlink := by
  rw [State.checkFail, State.mlink_evt, State.mlink_recordErr, State.mlink_uncorrInc, State.mlink_sat, State.mlink_errLog]
@[simp] theorem State.mlink_readFailed (port : Nat) (f : Nat × Nat) : (s.readFailed port f).mlink = s.mlink := by
  unfold State.readFailed
  split
  · exact State.mlink_eccFail ..
  · exact State.mlink_metaFail ..
  · exact State.mlink_checkFail ..
@[simp] theorem State.mlink_earlyRead (t : Nat) : (s.earlyRead t).mlink = s.mlink := by
  unfold State.earlyRead
  split
  · rfl
  · rw [State.mlink_evt, State.modTile_mlink]
@[simp] theorem State.mlink_storeRead (port a n : Nat) : (s.storeRead port a n).1.mlink = s.mlink := by
  unfold State.storeRead
  split
  · rw [State.mlink_recordErr, State.mlink_earlyRead]
  · split
    · exact State.mlink_recordErr ..
    · split
      · rfl
      · exact State.mlink_readFailed ..
@[simp] theorem State.mlink_touchSector (port a n q : Nat) : (s.touchSector port a n q).mlink = s.mlink := by
  unfold State.touchSector
  extract_lets s1
  split
  · rfl
  · split
    · exact State.mlink_eccFail s1 ..
    · rfl
@[simp] theorem State.mlink_touchBlock (port a n b : Nat) : (s.touchBlock port a n b).mlink = s.mlink := by
  unfold State.touchBlock
  extract_lets whole isFree s1
  split
  · rw [State.mlink_recordErr, State.mlink_sat, State.mlink_errLog, State.modStore_mlink]
  · rfl
@[simp] theorem State.mlink_touch (port a n : Nat) : (s.touch port a n).mlink = s.mlink := by
  unfold State.touch
  split
  · rfl
  · exact (State.foldl_frame (·.mlink) (fun u b => u.mlink_touchBlock ..) ..).trans
      (State.foldl_frame (·.mlink) (fun u q => u.mlink_touchSector ..) ..)
@[simp] theorem State.mlink_earlyWrite (t : Nat) : (s.earlyWrite t).mlink = s.mlink := by
  unfold State.earlyWrite
  split <;> rfl
@[simp] theorem State.mlink_storeWrite (port a : Nat) (bs : List Byte) : (s.storeWrite port a bs).mlink = s.mlink := by
  unfold State.storeWrite
  split
  · rw [State.mlink_recordErr, State.mlink_earlyWrite]
  · split
    · exact State.mlink_recordErr ..
    · rw [State.mlink_wbytes, State.mlink_touch]
@[simp] theorem State.mlink_pushUnit (p u : Nat) : (s.pushUnit p u).mlink = s.mlink := by
  unfold State.pushUnit
  extract_lets d x b s1
  split <;> rfl
@[simp] theorem State.mlink_freeBlock (port : Nat) (pool : Option Nat) (b : Nat) : (s.freeBlock port pool b).mlink = s.mlink := by
  unfold State.freeBlock
  split
  · exact State.mlink_freeErr ..
  · split
    · exact State.mlink_freeErr ..
    · exact State.mlink_pushUnit ..
@[simp] theorem State.mlink_freeDesc (port d : Nat) : (s.freeDesc port d).mlink = s.mlink := by
  have hr : (s.storeRead 17 d 64).1.mlink = s.mlink := State.mlink_storeRead ..
  have blocks (p : Nat) (l : List Nat) : (l.foldl (fun u b => u.freeBlock port (some p) b) s).mlink = s.mlink :=
    State.foldl_frame (·.mlink) (fun u b => u.mlink_freeBlock port (some p) b) l s
  unfold State.freeDesc
  extract_lets u r bp blks
  split
  · rfl
  · split
    · exact State.mlink_freeErr ..
    · split
      · exact State.mlink_freeErr ..
      · split
        · rw [State.mlink_freeErr, hr]
        · split
          · rw [State.mlink_storeWrite, hr]
          · split
            · rw [State.mlink_freeErr, State.mlink_storeRead]
            · rw [State.mlink_pushUnit, blocks]

end Sys2Proof.Machine
end

section
/-! Context commands, the queues of a station and the EML transition (R206, R216 to R218, R220). -/

namespace Sys2Proof.Machine

open Reg

variable {s : State} {by_ : Req} {tag : Tag}

theorem exec_ctxAlloc_eq (by_ : Req) (tag : Tag) (s : State) : exec (.ctxAlloc by_ tag) s = execCtxAlloc by_ tag s := rfl
theorem exec_ctxActivate_eq (by_ : Req) (tag : Tag) (s : State) : exec (.ctxActivate by_ tag) s = execCtxActivate by_ tag s := rfl
theorem exec_ctxRefresh_eq (by_ : Req) (tag : Tag) (s : State) : exec (.ctxRefresh by_ tag) s = execCtxRefresh by_ tag s := rfl
theorem exec_ctxFree_eq (by_ : Req) (tag : Tag) (s : State) : exec (.ctxFree by_ tag) s = execCtxFree by_ tag s := rfl
theorem exec_ctxIllegalOp_eq (by_ : Req) (tag : Tag) (s : State) :
    exec (.ctxIllegalOp by_ tag) s = execCtxIllegalOp by_ tag s := rfl
theorem exec_ctxFreeDone_eq (s : State) : exec .ctxFreeDone s = execCtxFreeDone s := rfl
theorem exec_emlTransitionDelayEnd_eq (scid : Fin 1024) (s : State) :
    exec (.emlTransitionDelayEnd scid) s = execEmlTransitionDelayEnd scid s := rfl

/-- A bit above a field stays where the field is replaced. -/
theorem bit_putFld_above (w : Word) {hi lo n : Nat} (v : Nat) (hle : lo ≤ hi) (hn : hi < n) :
    bit (putFld w hi lo v) n = bit w n := by
  have hout : ¬ n - lo < hi - lo + 1 := by omega
  by_cases h32 : n < 32
  · simp only [bit, putFld, fmask, BitVec.getLsbD_or, BitVec.getLsbD_and, BitVec.getLsbD_not, BitVec.getLsbD_ofNat,
      Nat.testBit_mul_two_pow, Nat.testBit_two_pow_sub_one, Nat.testBit_mod_two_pow]
    simp [hout, h32]
  · have hge : 32 ≤ n := Nat.not_lt.mp h32
    rw [bit, bit, BitVec.getLsbD_of_ge _ _ hge, BitVec.getLsbD_of_ge _ _ hge]

/-! Bytes of a context and its results (R215, R216). -/

theorem State.ctxState_eq (s : State) (k : Nat) : s.ctxState k = (s.rb (ctxAddr k 0)).toNat := by
  simp [State.ctxState, State.ctx, State.rm]
theorem State.rb_ctxPut_self (s : State) (k o v : Nat) : (s.ctxPut k o 1 v).rb (ctxAddr k o) = BitVec.ofNat 8 v :=
  State.rb_wb_self ..
theorem State.rb_ctxPut_ne (s : State) {k o a : Nat} (v : Nat) (h : a ≠ ctxAddr k o) : (s.ctxPut k o 1 v).rb a = s.rb a :=
  State.rb_wb_ne s _ h
@[simp] theorem State.rd_ctxPut (s : State) (k o n v : Nat) (a : RegId) : (s.ctxPut k o n v).rd a = s.rd a := State.rd_wm ..
@[simp] theorem State.mlink_ctxPut (s : State) (k o n v : Nat) : (s.ctxPut k o n v).mlink = s.mlink := State.mlink_wm ..

/-- The count of contexts is one register. -/
theorem State.ctxCount_eq (s : State) (used active : Int) : ∃ v, s.ctxCount used active = s.wr MLINK.CTX_COUNT v := ⟨_, rfl⟩
@[simp] theorem State.rb_ctxCount (s : State) (used active : Int) (a : Nat) : (s.ctxCount used active).rb a = s.rb a := by
  obtain ⟨v, hv⟩ := s.ctxCount_eq used active
  rw [hv, State.rb_wr]
@[simp] theorem State.mlink_ctxCount (s : State) (used active : Int) : (s.ctxCount used active).mlink = s.mlink := by
  obtain ⟨v, hv⟩ := s.ctxCount_eq used active
  rw [hv, State.wr_mlink]
theorem State.rd_ctxCount_result (s : State) (used active : Int) :
    (s.ctxCount used active).rd MLINK.CTX_RESULT = s.rd MLINK.CTX_RESULT := by
  obtain ⟨v, hv⟩ := s.ctxCount_eq used active
  rw [hv, State.rd_wr_ne _ _ (by decide)]

@[simp] theorem State.rd_modMlink (s : State) (f : Mlink → Mlink) (a : RegId) : (s.modMlink f).rd a = s.rd a := rfl
@[simp] theorem State.rb_modMlink (s : State) (f : Mlink → Mlink) (a : Nat) : (s.modMlink f).rb a = s.rb a := rfl

section Post
variable (s : State) (tag : Tag) (code k : Nat)

theorem State.rd_ctxPost : (s.ctxPost tag code k).rd MLINK.CTX_RESULT = wd (2 ^ 31 + (code * 2 ^ 27 + k * 2 ^ 8) + tag.toNat) := by
  rw [State.ctxPost, State.rd_evt, State.rd_pathPost, Nat.pow_zero, Nat.mul_one]
theorem State.rd_ctxPost_done : (s.ctxPost tag 0 k).rd MLINK.CTX_RESULT = wd (2 ^ 31 + k * 2 ^ 8 + tag.toNat) := by
  rw [State.rd_ctxPost, Nat.zero_mul, Nat.zero_add]
@[simp] theorem State.rb_ctxPost (a : Nat) : (s.ctxPost tag code k).rb a = s.rb a := by
  rw [State.ctxPost, State.rb_evt, State.pathPost, State.rb_wr]
@[simp] theorem State.mlink_ctxPost : (s.ctxPost tag code k).mlink = s.mlink := by
  rw [State.ctxPost, State.mlink_evt, State.pathPost, State.wr_mlink]
theorem State.evtPend_ctxPost : bit ((s.ctxPost tag code k).tile 5).evtPend 22 = true := by
  simp [State.ctxPost, bit, wd]

end Post

/-- A byte of a context that is cleared reads 0: contexts lie outside the boot ROM (R42, R215). -/
theorem State.rb_clearMem_ctx (s : State) {k o : Nat} (hk : k < 1024) (ho : o < 1024) :
    (s.clearMem (ctxAddr k 0) 1024).rb (ctxAddr k o) = 0 := by
  have hin : ctxAddr k 0 ≤ ctxAddr k o ∧ ctxAddr k o < ctxAddr k 0 + 1024 := by unfold ctxAddr lm; omega
  have hrom : ¬ (0x3000000000 ≤ ctxAddr k o ∧ ctxAddr k o < 0x3000020000) := by unfold ctxAddr lm; omega
  rw [State.rb, State.clearMem_mem, tget_tclear, if_pos hin, memDefault, if_neg hrom]

/-! Context commands on a free path (R216 to R218). -/

/-- The context that CTX_ALLOC opens: cleared, OPEN and counted. -/
def State.ctxOpened (s : State) (k : Nat) : State := ((s.clearMem (ctxAddr k 0) 1024).ctxPut k 0 1 1).ctxCount 1 0

theorem State.ctxState_ctxOpened (s : State) (k : Nat) : (s.ctxOpened k).ctxState k = 1 := by
  rw [State.ctxState_eq, State.ctxOpened, State.rb_ctxCount, State.rb_ctxPut_self]
  rfl

theorem State.rb_ctxOpened (s : State) {k o : Nat} (hk : k < 1024) (h1 : 1 ≤ o) (ho : o < 1024) :
    (s.ctxOpened k).rb (ctxAddr k o) = 0 := by
  have hne : ctxAddr k o ≠ ctxAddr k 0 := by unfold ctxAddr lm; omega
  rw [State.ctxOpened, State.rb_ctxCount, State.rb_ctxPut_ne _ _ hne, State.rb_clearMem_ctx s hk ho]

/-- A context whose FREE has begun: CLOSING, no longer counted ACTIVE, its link records removed (R218). -/
def State.ctxClosing (s : State) (tag : Tag) (k : Nat) : State :=
  ((((s.pathBusy MLINK.CTX_RESULT 0 tag).wf MLINK.CTX_RESULT 17 8 k).ctxPut k 0 1 3).ctxCount 0
    (if s.ctxState k = 2 then -1 else 0)).modMlink fun x => { x with
      freeing := some k, addrs := x.addrs.filter fun e => e.1 % 1024 != k }

/-- A queue of a context that is being freed: its held MPDUs and those that no command has claimed are freed (R218). -/
def State.queueClosed (s : State) (q : Nat) : State :=
  (((s.board q).held.foldl (fun u h => u.freeDesc 3 h.desc) s).setBoard q {}).stqFlush q

/-- The queues of a context that is being freed. -/
def State.queuesClosed (s : State) (k : Nat) : State := (List.range 8).foldl (fun u t => u.queueClosed (8 * k + t)) s

/-- The target wake times of a context that is being freed end (R218, R239). -/
def State.twtsCleared (s : State) (k : Nat) : State :=
  (List.range 32).foldl (fun u n =>
    if u.rf (MLINK.TWT_W0 n) 28 27 = 0 && u.rf (MLINK.TWT_W0 n) 9 0 = k then u.wf (MLINK.TWT_W0 n) 31 31 0 else u) s

section Taken
variable (ha : s.accepts by_ 5 = true) (hl : s.life 5 ≠ .draining) (hf : s.pathFree MLINK.CTX_RESULT = true)
include ha hl hf

theorem State.ctxCmd_taken (free : Bool) (f : State → State) : s.ctxCmd by_ tag free f = f s := by
  simp [State.ctxCmd, State.onWrite_accepts _ ha, hf, hl]

theorem exec_ctxAlloc_opens {k : Nat} (hk : (List.range 1024).find? (fun j => s.ctxState j = 0) = some k) :
    exec (.ctxAlloc by_ tag) s = .next ((s.ctxOpened k).ctxPost tag 0 k) := by
  rw [exec_ctxAlloc_eq, execCtxAlloc, State.ctxCmd_taken ha hl hf, hk]
  rfl

theorem exec_ctxAlloc_none (h : ∀ j, j < 1024 → s.ctxState j ≠ 0) :
    exec (.ctxAlloc by_ tag) s = .next (s.ctxPost tag 1 0) := by
  have hnone : (List.range 1024).find? (fun j => s.ctxState j = 0) = none :=
    List.find?_eq_none.mpr fun j hj => by simpa using h j (List.mem_range.mp hj)
  rw [exec_ctxAlloc_eq, execCtxAlloc, State.ctxCmd_taken ha hl hf, hnone]

theorem exec_ctxIllegalOp : exec (.ctxIllegalOp by_ tag) s = .next (s.ctxPost tag 5 0) := by
  rw [exec_ctxIllegalOp_eq, execCtxIllegalOp, State.ctxCmd_taken ha hl hf]

section Named
variable {k : Nat} (hk : s.rf MLINK.CTX_ARG 9 0 = k)
include hk

theorem exec_ctxActivate_notOpen (hst : s.ctxState k ≠ 1) : exec (.ctxActivate by_ tag) s = .next (s.ctxPost tag 4 k) := by
  simp [exec_ctxActivate_eq, execCtxActivate, State.ctxCmd_taken ha hl hf, hk, hst]
theorem exec_ctxActivate_refused {c : Nat} (hst : s.ctxState k = 1)
    (hc : s.ctxRefusal k (s.rbytes (ctxAddr k 0) 1024) = some c) :
    exec (.ctxActivate by_ tag) s = .next (s.ctxPost tag c k) := by
  simp [exec_ctxActivate_eq, execCtxActivate, State.ctxCmd_taken ha hl hf, hk, hst, hc]
theorem exec_ctxActivate_done (hst : s.ctxState k = 1)
    (hc : s.ctxRefusal k (s.rbytes (ctxAddr k 0) 1024) = none) :
    exec (.ctxActivate by_ tag) s = .next ((((s.ctxApply k).ctxPut k 0 1 2).ctxCount 0 1).ctxPost tag 0 k) := by
  simp [exec_ctxActivate_eq, execCtxActivate, State.ctxCmd_taken ha hl hf, hk, hst, hc]

theorem exec_ctxRefresh_notActive (hst : s.ctxState k ≠ 2) : exec (.ctxRefresh by_ tag) s = .next (s.ctxPost tag 4 k) := by
  simp [exec_ctxRefresh_eq, execCtxRefresh, State.ctxCmd_taken ha hl hf, hk, hst]
theorem exec_ctxRefresh_refused {c : Nat} (hst : s.ctxState k = 2)
    (hc : s.ctxRefusal k (s.rbytes (ctxAddr k 0) 1024) = some c) :
    exec (.ctxRefresh by_ tag) s = .next (s.ctxPost tag c k) := by
  simp [exec_ctxRefresh_eq, execCtxRefresh, State.ctxCmd_taken ha hl hf, hk, hst, hc]
theorem exec_ctxRefresh_done (hst : s.ctxState k = 2)
    (hc : s.ctxRefusal k (s.rbytes (ctxAddr k 0) 1024) = none) :
    exec (.ctxRefresh by_ tag) s = .next ((s.ctxApply k).ctxPost tag 0 k) := by
  simp [exec_ctxRefresh_eq, execCtxRefresh, State.ctxCmd_taken ha hl hf, hk, hst, hc]

theorem exec_ctxFree_notUsed (h1 : s.ctxState k ≠ 1) (h2 : s.ctxState k ≠ 2) :
    exec (.ctxFree by_ tag) s = .next (s.ctxPost tag 4 k) := by
  simp [exec_ctxFree_eq, execCtxFree, State.ctxCmd_taken ha hl hf, hk, h1, h2]
theorem exec_ctxFree_closes (h : s.ctxState k = 1 ∨ s.ctxState k = 2) :
    exec (.ctxFree by_ tag) s = .next (((s.ctxClosing tag k).queuesClosed k).twtsCleared k) := by
  have hused : ¬ (s.ctxState k != 1 && s.ctxState k != 2) = true := by rcases h with h | h <;> simp [h]
  rw [exec_ctxFree_eq, execCtxFree, State.ctxCmd_taken ha hl hf, hk]
  exact congrArg _ (if_neg hused)

end Named
end Taken

/-! What FREE leaves of the context it names (R218). -/

theorem State.mlink_ctxClosing (s : State) (tag : Tag) (k : Nat) : (s.ctxClosing tag k).mlink =
    { s.mlink with freeing := some k, addrs := s.mlink.addrs.filter fun e => e.1 % 1024 != k } := by
  rw [State.ctxClosing, State.modMlink_mlink, State.mlink_ctxCount, State.mlink_ctxPut, State.mlink_wf, State.pathBusy,
    State.wr_mlink]

theorem State.rb_ctxClosing (s : State) (tag : Tag) (k : Nat) : (s.ctxClosing tag k).rb (ctxAddr k 0) = 3 := by
  rw [State.ctxClosing, State.rb_modMlink, State.rb_ctxCount, State.rb_ctxPut_self]
  rfl

theorem State.busy_ctxClosing (s : State) (tag : Tag) (k : Nat) : bit ((s.ctxClosing tag k).rd MLINK.CTX_RESULT) 30 = true := by
  have htag := tag.isLt
  rw [State.ctxClosing, State.rd_modMlink, State.rd_ctxCount_result, State.rd_ctxPut, State.rd_wf_self,
    bit_putFld_above _ _ (by decide) (by decide), State.rd_pathBusy, bit, wd, BitVec.getLsbD_ofNat,
    Nat.testBit_two_pow_add_eq, Nat.testBit_lt_two_pow (by omega)]
  rfl

theorem State.mlink_foldl_freeDesc {α : Type} (desc : α → Nat) (l : List α) (s : State) :
    (l.foldl (fun u m => u.freeDesc 3 (desc m)) s).mlink = s.mlink :=
  State.foldl_frame (·.mlink) (fun u m => u.mlink_freeDesc 3 (desc m)) l s
theorem State.freeing_setBoard (s : State) (q : Nat) (b : RxBoard) : (s.setBoard q b).mlink.freeing = s.mlink.freeing := by
  rw [State.setBoard, State.modMlink_mlink]
theorem State.freeing_setStq (s : State) (q : Nat) (l : List QMpdu) : (s.setStq q l).mlink.freeing = s.mlink.freeing := by
  unfold State.setStq
  extract_lets fl
  rw [State.wr_mlink, State.modMlink_mlink]
theorem State.mlink_syncWindow (s : State) (q : Nat) : (s.syncWindow q).mlink = s.mlink := State.mlink_ctxPut ..

theorem State.freeing_stqFlush (s : State) (q : Nat) : (s.stqFlush q).mlink.freeing = s.mlink.freeing := by
  unfold State.stqFlush
  extract_lets out s1
  split
  · rfl
  · rw [State.mlink_sat, State.mlink_foldl_freeDesc QMpdu.desc, State.mlink_syncWindow, State.freeing_setStq]

theorem State.freeing_queueClosed (s : State) (q : Nat) : (s.queueClosed q).mlink.freeing = s.mlink.freeing := by
  rw [State.queueClosed, State.freeing_stqFlush, State.freeing_setBoard, State.mlink_foldl_freeDesc HeldMpdu.desc]

theorem State.freeing_queuesClosed (s : State) (k : Nat) : (s.queuesClosed k).mlink.freeing = s.mlink.freeing := by
  unfold State.queuesClosed
  generalize List.range 8 = l
  exact State.foldl_frame (·.mlink.freeing) (fun u t => u.freeing_queueClosed (8 * k + t)) l s

theorem State.queueClosed_empty {q : Nat} (hq : s.stq q = []) (hb : (s.board q).held = []) :
    s.queueClosed q = s.setBoard q {} := by
  have hq' : (s.setBoard q {}).stq q = [] := hq
  simp [State.queueClosed, hb, State.stqFlush, hq']

/-- Closing queues that are empty changes nothing but their scoreboards. -/
theorem State.foldl_queueClosed_empty (k : Nat) (l : List Nat) (s : State)
    (h : ∀ t ∈ l, s.stq (8 * k + t) = [] ∧ (s.board (8 * k + t)).held = []) :
    ∃ b, l.foldl (fun u t => u.queueClosed (8 * k + t)) s = s.modMlink fun x => { x with boards := b } := by
  induction l generalizing s with
  | nil => exact ⟨s.mlink.boards, rfl⟩
  | cons t l ih =>
    obtain ⟨hq, hb⟩ := h t (by simp)
    obtain ⟨b, hrest⟩ := ih (s.setBoard (8 * k + t) {}) fun t' ht' => by
      obtain ⟨hq', hb'⟩ := h t' (by simp [ht'])
      refine ⟨hq', ?_⟩
      by_cases heq : 8 * k + t' = 8 * k + t
      · simp [heq, State.board, State.setBoard]
      · simpa [State.board, State.setBoard, tget_tput_ne _ _ _ heq] using hb'
    exact ⟨b, by rw [List.foldl_cons, State.queueClosed_empty hq hb, hrest]; rfl⟩

theorem State.mlink_twtsCleared (s : State) (k : Nat) : (s.twtsCleared k).mlink = s.mlink :=
  State.foldl_frame (·.mlink) (fun u n => by
    split
    · exact State.mlink_wf ..
    · rfl) ..
theorem State.rb_twtsCleared (s : State) (k a : Nat) : (s.twtsCleared k).rb a = s.rb a :=
  State.foldl_frame (·.rb a) (fun u n => by
    split
    · exact State.rb_wf ..
    · rfl) ..
theorem ctxResult_ne_twtW0 (n : Nat) : MLINK.CTX_RESULT ≠ MLINK.TWT_W0 n := by
  intro h
  have : 0x5002008 = 0x5002100 + 16 * n := h
  omega
theorem State.rd_twtsCleared (s : State) (k : Nat) : (s.twtsCleared k).rd MLINK.CTX_RESULT = s.rd MLINK.CTX_RESULT :=
  State.foldl_frame (·.rd MLINK.CTX_RESULT) (fun u n => by
    split
    · exact State.rd_wf_ne _ _ _ _ (ctxResult_ne_twtW0 n)
    · rfl) ..

theorem State.freeing_ctxFreed (s : State) (tag : Tag) (k : Nat) :
    (((s.ctxClosing tag k).queuesClosed k).twtsCleared k).mlink.freeing = some k := by
  rw [State.mlink_twtsCleared, State.freeing_queuesClosed, State.mlink_ctxClosing]

theorem State.ctxFreed_empty {k : Nat} (h : ∀ t, t < 8 → (s.stq (8 * k + t)).isEmpty = true ∧ (s.board (8 * k + t)).held = []) :
    (((s.ctxClosing tag k).queuesClosed k).twtsCleared k).ctxState k = 3 ∧
    (((s.ctxClosing tag k).queuesClosed k).twtsCleared k).rbit MLINK.CTX_RESULT 30 = true := by
  obtain ⟨b, hb⟩ := State.foldl_queueClosed_empty k (List.range 8) (s.ctxClosing tag k) fun t ht => by
    obtain ⟨hq, hh⟩ := h t (List.mem_range.mp ht)
    simpa only [State.stq, State.board, State.mlink_ctxClosing, List.isEmpty_iff] using And.intro hq hh
  have hb' : (s.ctxClosing tag k).queuesClosed k = (s.ctxClosing tag k).modMlink fun x => { x with boards := b } := hb
  constructor
  · rw [State.ctxState_eq, State.rb_twtsCleared, hb', State.rb_modMlink, State.rb_ctxClosing]
    rfl
  · rw [State.rbit, State.rd_twtsCleared, hb', State.rd_modMlink, State.busy_ctxClosing]

/-- The context that a FREE names is FREE, and its result posted, once its queues are empty (R218). -/
def State.ctxFreedDone (s : State) (k : Nat) : State :=
  (((s.modMlink fun x => { x with freeing := none, shadow := tput (fun _ => []) x.shadow k [] }).ctxPut k 0 1 0).ctxCount
    (-1) 0).ctxPost (s.pathTag MLINK.CTX_RESULT 0) 0 k

theorem exec_ctxFreeDone {k : Nat} (hk : s.mlink.freeing = some k) (hq : ∀ t, t < 8 → (s.stq (8 * k + t)).isEmpty = true) :
    exec .ctxFreeDone s = .next (s.ctxFreedDone k) := by
  simp only [exec_ctxFreeDone_eq, execCtxFreeDone, hk]
  refine congrArg _ (if_neg ?_)
  simpa using hq

theorem State.freeing_ctxFreedDone (s : State) (k : Nat) : (s.ctxFreedDone k).mlink.freeing = none := by
  rw [State.ctxFreedDone, State.mlink_ctxPost, State.mlink_ctxCount, State.mlink_ctxPut, State.modMlink_mlink]

theorem State.ctxState_ctxFreedDone (s : State) (k : Nat) : (s.ctxFreedDone k).ctxState k = 0 := by
  rw [State.ctxState_eq, State.ctxFreedDone, State.rb_ctxPost, State.rb_ctxCount, State.rb_ctxPut_self]
  rfl

/-! Station-TID queues (R220, R221). -/

theorem State.stq_setStq_self (s : State) (q : Nat) (l : List QMpdu) : (s.setStq q l).stq q = l := tget_tput_self ..

section Enq
variable {q : Nat} {val : Word}

theorem State.stqEnq_joins (hd : 64 * fld val 26 0 < storeEnd) (hst : s.ctxState (q / 8) = 2)
    (hroom : (s.stq q).length < s.qLimit (q / 8)) :
    (s.stqEnq q val).stq q = s.stq q ++ [{ desc := 64 * fld val 26 0, arrived := s.clock }] := by
  unfold State.stqEnq
  extract_lets k d l s1 s2
  have hnot : ¬ (s.ctxState k != 2 || decide (s.qLimit k ≤ l.length) || decide (storeEnd ≤ d)) = true := by
    have hd' : ¬ storeEnd ≤ d := Nat.not_le.mpr hd
    have hroom' : ¬ s.qLimit k ≤ l.length := Nat.not_le.mpr hroom
    simp [hd', hroom', show s.ctxState k = 2 from hst]
  rw [if_neg hnot]
  exact State.stq_setStq_self ..

theorem State.stqEnq_turned (hd : 64 * fld val 26 0 < storeEnd)
    (h : s.ctxState (q / 8) ≠ 2 ∨ s.qLimit (q / 8) ≤ (s.stq q).length) :
    s.stqEnq q val = ((s.freeDesc 3 (64 * fld val 26 0)).sat MLINK.STQ_DROP 31 0 1).evt 5 23 := by
  unfold State.stqEnq
  extract_lets k d l s1 s2
  have hdrop : (s.ctxState k != 2 || decide (s.qLimit k ≤ l.length) || decide (storeEnd ≤ d)) = true := by
    rcases h with h | h
    · simp [show s.ctxState k ≠ 2 from h]
    · simp [show s.qLimit k ≤ l.length from h]
  rw [if_pos hdrop, if_neg (show ¬ storeEnd ≤ d from Nat.not_le.mpr hd)]

theorem State.stqEnq_outside (hd : storeEnd ≤ 64 * fld val 26 0) :
    s.stqEnq q val = (s.sat MLINK.STQ_DROP 31 0 1).evt 5 23 := by
  have hd' : decide (storeEnd ≤ 64 * fld val 26 0) = true := decide_eq_true hd
  unfold State.stqEnq
  extract_lets k d l s1 s2
  rw [if_pos (show (_ || decide (storeEnd ≤ d)) = true by rw [hd', Bool.or_true]), if_pos (show storeEnd ≤ d from hd)]

end Enq

theorem exec_stqEnq (ha : s.accepts by_ 5 = true) (q : Fin 8192) (val : Word) :
    exec (.stqEnq by_ q val) s = .next (s.stqEnq q.val val) := congrArg _ (State.onWrite_accepts _ ha)

/-! Link flags (R203, R206). -/

@[simp] theorem State.mlink_setLinkFlag (s : State) (k l b : Nat) (v : Bool) : (s.setLinkFlag k l b v).mlink = s.mlink :=
  State.mlink_ctxPut ..
theorem State.linkFlag_eq (s : State) (k l b : Nat) : s.linkFlag k l b = (s.rb (ctxAddr k (linkOff l))).getLsbD b := by
  simp [State.linkFlag, State.ctx, State.rm, BitVec.testBit_toNat]
theorem State.linkFlag_setLinkFlag_self (s : State) (k l : Nat) {b : Nat} (hb : b < 8) :
    (s.setLinkFlag k l b false).linkFlag k l b = false := by
  have hmask : (255 - 2 ^ b).testBit b = false := by revert b; decide
  rw [State.linkFlag_eq, State.setLinkFlag, State.rb_ctxPut_self, if_neg (by decide), BitVec.getLsbD_ofNat, Nat.testBit_and, hmask,
    Bool.and_false, Bool.and_false]
theorem State.linkFlag_setLinkFlag_ne (s : State) (k b c : Nat) {l m : Nat} (v : Bool) (h : m ≠ l) :
    (s.setLinkFlag k l b v).linkFlag k m c = s.linkFlag k m c := by
  have hne : ctxAddr k (linkOff m) ≠ ctxAddr k (linkOff l) := by unfold ctxAddr linkOff lm; omega
  rw [State.linkFlag_eq, State.linkFlag_eq, State.setLinkFlag, State.rb_ctxPut_ne _ _ hne]

/-- The links of an EML station that are listed, no longer held for it (R206). -/
def State.linksReleased (s : State) (k : Nat) (l : List Nat) : State := l.foldl (fun u l => u.setLinkFlag k l 4 false) s

theorem State.mlink_linksReleased (s : State) (k : Nat) (l : List Nat) : (s.linksReleased k l).mlink = s.mlink :=
  State.foldl_frame (·.mlink) (fun u l => u.mlink_setLinkFlag k l 4 false) ..

theorem State.linkFlag_linksReleased (k : Nat) (l : List Nat) (s : State) {m : Nat} (h : m ∈ l ∨ s.linkFlag k m 4 = false) :
    (s.linksReleased k l).linkFlag k m 4 = false := by
  induction l generalizing s with
  | nil => exact h.resolve_left (by simp)
  | cons j l ih =>
    refine ih _ ?_
    by_cases hj : m = j
    · exact .inr (by rw [hj, State.linkFlag_setLinkFlag_self _ _ _ (by decide)])
    · exact h.imp (fun hm => (List.mem_cons.mp hm).resolve_left hj) fun h0 => by rw [State.linkFlag_setLinkFlag_ne _ _ _ _ _ hj, h0]

theorem exec_emlTransitionDelayEnd {scid : Fin 1024} (hl : tget (fun _ => 0) s.mlink.emlLink scid.val ≠ 0)
    (h0 : tget (fun _ => 0) s.mlink.emlUntil scid.val ≠ 0) (ht : tget (fun _ => 0) s.mlink.emlUntil scid.val ≤ s.clock) :
    exec (.emlTransitionDelayEnd scid) s = .next ((s.modMlink fun x => { x with
      emlLink := tput (fun _ => 0) x.emlLink scid.val 0
      emlUntil := tput (fun _ => 0) x.emlUntil scid.val 0 }).linksReleased scid.val [0, 1, 2]) := by
  rw [exec_emlTransitionDelayEnd_eq]
  exact congrArg _ (if_neg (by simp [hl, h0, Nat.not_lt.mpr ht]))

/-- Settles O37: a context command on a free path by the state of its context, what FREE leaves by `ctxClosing` and the closing of
its queues, an enqueue by where its descriptor and its queue stand. -/
theorem contextsAndStationQueues : Obligations.ContextsAndStationQueues := by
  refine ⟨fun by_ tag s ha hl hf => ?_, fun by_ tag q val scid s => ?_⟩
  · intro k fields
    refine ⟨fun j hj => ?_, exec_ctxAlloc_none ha hl hf, exec_ctxActivate_notOpen ha hl hf rfl,
      fun hst => ⟨fun c => exec_ctxActivate_refused ha hl hf rfl hst, exec_ctxActivate_done ha hl hf rfl hst⟩,
      exec_ctxRefresh_notActive ha hl hf rfl,
      fun hst => ⟨fun c => exec_ctxRefresh_refused ha hl hf rfl hst, exec_ctxRefresh_done ha hl hf rfl hst⟩,
      exec_ctxFree_notUsed ha hl hf rfl, fun hst => ?_, exec_ctxIllegalOp ha hl hf⟩
    · have hj' : j < 1024 := List.mem_range.mp (List.mem_of_find?_eq_some hj)
      refine ⟨_, exec_ctxAlloc_opens ha hl hf hj, ?_, fun o h1 ho => ?_, State.rd_ctxPost_done .., State.evtPend_ctxPost ..⟩
      · rw [State.ctxState_eq, State.rb_ctxPost, ← State.ctxState_eq, State.ctxState_ctxOpened]
      · rw [State.rb_ctxPost, State.rb_ctxOpened s hj' h1 ho]
    · exact ⟨_, exec_ctxFree_closes ha hl hf rfl hst, State.freeing_ctxFreed s tag k, State.ctxFreed_empty⟩
  · intro k d
    refine ⟨fun hk hq => ?_, fun ha => congrArg _ (State.onWrite_accepts _ ha),
      fun ha hd hst hroom => ⟨_, exec_stqEnq ha q val, State.stqEnq_joins hd hst hroom⟩,
      fun ha hd h => (exec_stqEnq ha q val).trans (congrArg _ (State.stqEnq_turned hd h)),
      fun ha hd => (exec_stqEnq ha q val).trans (congrArg _ (State.stqEnq_outside hd)), ?_⟩
    · exact ⟨_, exec_ctxFreeDone hk hq, State.freeing_ctxFreedDone s k, State.ctxState_ctxFreedDone s k, State.rd_ctxPost_done ..,
        State.evtPend_ctxPost ..⟩
    · intro t hl h0 ht
      refine ⟨_, exec_emlTransitionDelayEnd hl h0 ht, ?_, ?_, fun l hl3 => ?_⟩
      · rw [State.mlink_linksReleased]
        exact tget_tput_self (fun _ => 0) s.mlink.emlLink k 0
      · rw [State.mlink_linksReleased]
        exact tget_tput_self (fun _ => 0) s.mlink.emlUntil k 0
      · exact State.linkFlag_linksReleased k _ _ (.inl (by simp; omega))

end Sys2Proof.Machine
end

section
/-! Service periods of stations (R224, R239) and the selections of MLINK's scheduler (R225 to R231, R237). -/

namespace Sys2Proof.Machine

open Reg

variable {s : State} {r : Fin 3} {ac : Fin 4} {n : Fin 32}

theorem exec_twtPeriodStart_eq (n : Fin 32) (s : State) : exec (.twtPeriodStart n) s = execTwtPeriodStart n s := rfl
theorem exec_twtPeriodEnd_eq (n : Fin 32) (s : State) : exec (.twtPeriodEnd n) s = execTwtPeriodEnd n s := rfl
theorem exec_dlSelection_eq (r : Fin 3) (ac : Fin 4) (s : State) : exec (.dlSelection r ac) s = execDlSelection r ac s := rfl
theorem exec_ulSelection_eq (r : Fin 3) (members : Option (Fin 32)) (s : State) :
    exec (.ulSelection r members) s = execUlSelection r members s := rfl

theorem State.live_of_ready {t : Nat} (h : s.life t = .ready) : s.live t = true := by simp [State.live, h]

/-! Service periods (R224, R239). -/

/-- The service period of an entry has begun at TSF `t`: it is noted with the entry's words, a trigger-enabled one asks for a selection,
the link of its members in power save is awake, and the event occurs where the entry asks for it. -/
def State.twtStarted (s : State) (n t : Nat) : State :=
  let w := s.rd (MLINK.TWT_W0 n)
  let l := fld w 26 25
  let s1 := s.modMlink fun x => { x with
    twtOn := tput (fun _ => none) x.twtOn n (some { start := t, w0 := w, w3 := s.rd (MLINK.TWT_W3 n) })
    twtSel := if bit w 30 then x.twtSel.filter (· != n) ++ [n] else x.twtSel }
  let s2 := (List.range 1024).foldl (fun u k =>
    if u.twtMember w k && u.linkFlag k l 2 then u.setLinkFlag k l 3 true else u) s1
  if bit w 29 then s2.evt 5 25 else s2

theorem exec_twtPeriodStart {t : Nat} (hl : s.life 5 = .ready) (hu : s.twtUsed n.val = true) (hnow : s.twtNow n.val = some t)
    (hnew : ∀ p, s.twtRun n.val = some p → p.start ≠ t) :
    exec (.twtPeriodStart n) s = .next (s.twtStarted n.val t) := by
  have hnot : (s.twtRun n.val).map (·.start) ≠ some t := fun h => by
    obtain ⟨p, hp, ht⟩ := Option.map_eq_some_iff.mp h
    exact hnew p hp ht
  simp only [exec_twtPeriodStart_eq, execTwtPeriodStart, State.live_of_ready hl, hu, hnow, Bool.not_true, Bool.or_self,
    Bool.false_eq_true, if_false]
  exact congrArg _ (if_neg hnot)

/-- The service period `p` of an entry is over: it asks for no selection any more, and members that no other period keeps awake sleep. -/
def State.twtEnded (s : State) (n : Nat) (p : TwtRun) : State :=
  (List.range 1024).foldl
    (fun u k => if u.twtMember p.w0 k && !u.twtAwake k (fld p.w0 26 25) then u.setLinkFlag k (fld p.w0 26 25) 3 false else u)
    (s.modMlink fun x => { x with twtOn := tput (fun _ => none) x.twtOn n none, twtSel := x.twtSel.filter (· != n) })

theorem exec_twtPeriodEnd {p : TwtRun} (hp : s.twtRun n.val = some p)
    (ht : s.tsf (fld p.w0 26 25) < p.start ∨ p.start + fld p.w3 15 0 * 256 ≤ s.tsf (fld p.w0 26 25)) :
    exec (.twtPeriodEnd n) s = .next (s.twtEnded n.val p) := by
  simp only [exec_twtPeriodEnd_eq, execTwtPeriodEnd, hp]
  refine congrArg _ (if_neg ?_)
  simp only [Bool.and_eq_true, decide_eq_true_eq]
  omega

/-! Downlink selections (R225, R227). -/

/-- A selection serves its first candidate alone: it is neither HE nor EHT, MU_EN is 0, or it is the only one (R227). -/
def State.alone (s : State) (r k : Nat) (ks : List Nat) : Prop :=
  (s.capOf r k 0 = false ∧ s.capOf r k 1 = false) ∨ s.rbit MLINK.SCHED_CTL 30 = false ∨ ks = []

theorem State.alone_iff {r k : Nat} {ks : List Nat} : s.alone r k ks ↔
    ((!s.capOf r k 0 && !s.capOf r k 1) || !s.rbit MLINK.SCHED_CTL 30 || ks.isEmpty) = true := by
  simp [State.alone, or_assoc]

/-- The users that the MU-MIMO grouping takes, where MUMIMO_EN is 1 (R227, R231). -/
def State.grouped (s : State) (r : Nat) (us : List Nat) : List Nat := if s.rbit MLINK.SCHED_CTL 29 then s.muGroup r us else []

/-- What a downlink selection builds for several users: a MU-MIMO PPDU for the group where it reaches MUMIMO_MIN, or else an OFDMA PPDU
(R227). -/
def State.buildShape (s : State) (r ac : Nat) (sh : List Nat × Nat × Bool) : State :=
  if clampN 2 8 (s.rf MLINK.SCHED_CTL 7 4) ≤ (s.grouped r sh.1).length then
    s.buildMu r ac 1 sh.2.1 sh.2.2
      ((s.grouped r sh.1).map fun j => (j, 3 + sh.2.1, 0, (s.rateOf r j 5).1, s.muStreams r j))
  else s.buildMu r ac 0 sh.2.1 sh.2.2 (s.assignRus r sh.2.1 5 sh.1)

/-- A downlink selection is open: the scheduler is on, the queue has room ahead, and a reachable
station has something to send (R225). -/
structure State.DlOpen (s : State) (r ac : Nat) : Prop where
  life : s.life 5 = .ready
  on : s.rbit MLINK.SCHED_CTL 31 = true
  room : s.ahead r ac < clampN 1 4 (s.rf MLINK.SCHED_CTL 27 24)
  some_ready : ∃ k, k < 1024 ∧ s.reachable r k = true ∧ s.tidsReady r k ac ≠ []

theorem State.DlOpen.not_idle {r ac : Nat} (h : s.DlOpen r ac) : ¬ (!s.rbit MLINK.SCHED_CTL 31 || s.life 5 != .ready ||
    decide (clampN 1 4 (s.rf MLINK.SCHED_CTL 27 24) ≤ s.ahead r ac) ||
    !(List.range 1024).any fun k => s.reachable r k && !(s.tidsReady r k ac).isEmpty) = true := by
  obtain ⟨hlife, hon, hroom, k, hk, hreach, htids⟩ := h
  have hany : ((List.range 1024).any fun k => s.reachable r k && !(s.tidsReady r k ac).isEmpty) = true :=
    List.any_eq_true.mpr ⟨k, List.mem_range.mpr hk, by simp [hreach, htids]⟩
  simp [hlife, hon, Nat.not_le.mpr hroom, hany]

section Dl
variable (h : s.DlOpen r.val ac.val)
include h

theorem exec_dlSelection_none (hc : (s.dlCandidates r.val ac.val).2 = []) :
    exec (.dlSelection r ac) s = .next (s.dlCandidates r.val ac.val).1 := by
  simp only [exec_dlSelection_eq, execDlSelection, if_neg h.not_idle, hc]

variable {k : Nat} {ks : List Nat} (hc : (s.dlCandidates r.val ac.val).2 = k :: ks) {s1 : State}
  (hs1 : s1 = (s.dlCandidates r.val ac.val).1.buildSounding r.val ac.val (k :: ks))
include hc hs1

theorem exec_dlSelection_alone (ha : s1.alone r.val k ks ∨ (s1.muShape r.val (k :: ks)).1 = []) :
    exec (.dlSelection r ac) s = .next (s1.buildSu r.val ac.val k) := by
  subst hs1
  simp only [exec_dlSelection_eq, execDlSelection, if_neg h.not_idle, hc]
  refine congrArg _ ?_
  split
  · rfl
  · next hnot => rw [ha.resolve_left fun hal => hnot (State.alone_iff.mp hal)]

variable (ha : ¬ s1.alone r.val k ks)
include ha

theorem exec_dlSelection_one {j : Nat} (hj : (s1.muShape r.val (k :: ks)).1 = [j]) :
    exec (.dlSelection r ac) s = .next (s1.buildSu r.val ac.val j) := by
  subst hs1
  simp only [exec_dlSelection_eq, execDlSelection, if_neg h.not_idle, hc, if_neg (mt State.alone_iff.mpr ha), hj]

theorem exec_dlSelection_several (hus : 2 ≤ (s1.muShape r.val (k :: ks)).1.length) :
    exec (.dlSelection r ac) s = .next (s1.buildShape r.val ac.val (s1.muShape r.val (k :: ks))) := by
  subst hs1
  simp only [exec_dlSelection_eq, execDlSelection, if_neg h.not_idle, hc, if_neg (mt State.alone_iff.mpr ha)]
  refine congrArg _ ?_
  split
  · next hnil => simp [hnil] at hus
  · next hone => simp [hone] at hus
  · rfl

end Dl

/-! Uplink selections (R237). -/

/-- The grounds of an uplink selection: its period has elapsed, or a trigger-enabled service period on its link asks for one. -/
def State.ulAsked (s : State) (r : Nat) : Option (Fin 32) → Prop
  | none => s.rf MLINK.UL_CTL 31 16 ≠ 0 ∧ tget (fun _ => 0) s.mlink.ulAt r + s.rf MLINK.UL_CTL 31 16 * 500 ≤ s.clock
  | some n => n.val ∈ s.mlink.twtSel ∧ ∃ p, s.twtRun n.val = some p ∧ fld p.w0 26 25 = r

/-- The grounds of an uplink selection are taken: the period starts anew, or the service period no longer asks for one. -/
def State.ulTaken (s : State) (r : Nat) : Option (Fin 32) → State
  | none => s.modMlink fun x => { x with ulAt := tput (fun _ => 0) x.ulAt r s.clock }
  | some n => s.modMlink fun x => { x with twtSel := x.twtSel.filter (· != n.val) }

/-- What an uplink selection leaves for the state and the candidates that it comes to. -/
def State.ulBuilt (r : Nat) (c : State × List Nat) : State :=
  match c.2 with
  | [] => c.1
  | k :: ks => c.1.buildTrigger r k ks

theorem State.ulBuilt_nil {r : Nat} {c : State × List Nat} (h : c.2 = []) : State.ulBuilt r c = c.1 := by
  simp only [State.ulBuilt, h]
theorem State.ulBuilt_cons {r k : Nat} {ks : List Nat} {c : State × List Nat} (h : c.2 = k :: ks) :
    State.ulBuilt r c = c.1.buildTrigger r k ks := by
  simp only [State.ulBuilt, h]

theorem exec_ulSelection {members : Option (Fin 32)} (hl : s.life 5 = .ready) (hon : s.rbit MLINK.SCHED_CTL 31 = true)
    (hul : s.rbit MLINK.SCHED_CTL 28 = true) (hask : s.ulAsked r.val members) : exec (.ulSelection r members) s =
      .next (State.ulBuilt r.val ((s.ulTaken r.val members).ulCandidates r.val members)) := by
  rw [exec_ulSelection_eq]
  cases members with
  | none =>
    obtain ⟨hper, ht⟩ := hask
    simp only [execUlSelection, State.ulTaken]
    rw [if_neg (by simp [hl, hon, hul, hper, ht])]
    generalize State.ulCandidates _ _ _ = c
    obtain ⟨u, _ | ⟨k, ks⟩⟩ := c <;> rfl
  | some n =>
    obtain ⟨hsel, p, hp, hlink⟩ := hask
    simp only [execUlSelection, State.ulTaken]
    rw [if_neg (by simp [hl, hon, hul, hsel, hp, hlink])]
    generalize State.ulCandidates _ _ _ = c
    obtain ⟨u, _ | ⟨k, ks⟩⟩ := c <;> rfl

/-- Settles O38: a service period starts and ends by what it notes, a downlink selection builds by `State.alone` and the shape of its
candidates, and an uplink selection on either ground builds by the candidates that it comes to. -/
theorem selectionsBuildForCandidates : Obligations.SelectionsBuildForCandidates := by
  intro r ac n s hl
  refine ⟨fun t => exec_twtPeriodStart hl, fun p => exec_twtPeriodEnd, fun hon hroom hready => ?_, fun hon hul => ⟨fun hper ht => ?_,
    fun p hsel hp hlink => ?_⟩⟩
  · intro c
    have hopen : s.DlOpen r.val ac.val := ⟨hl, hon, hroom, hready⟩
    refine ⟨exec_dlSelection_none hopen, fun k ks hc => ?_⟩
    intro s1 alone sh group
    refine ⟨exec_dlSelection_alone hopen hc rfl, fun ha j => exec_dlSelection_one hopen hc rfl ha, fun ha hus hfew => ?_,
      fun ha hus hmany => ?_⟩
    · exact (exec_dlSelection_several hopen hc rfl ha hus).trans (congrArg _ (if_neg (Nat.not_le.mpr hfew)))
    · exact (exec_dlSelection_several hopen hc rfl ha hus).trans (congrArg _ (if_pos hmany))
  · have hbuilt := exec_ulSelection (r := r) (members := none) hl hon hul ⟨hper, ht⟩
    exact ⟨fun hc => hbuilt.trans (congrArg _ (State.ulBuilt_nil hc)),
      fun k ks hc => hbuilt.trans (congrArg _ (State.ulBuilt_cons hc))⟩
  · have hbuilt := exec_ulSelection (r := r) (members := some n) hl hon hul ⟨hsel, p, hp, hlink⟩
    exact ⟨fun hc => hbuilt.trans (congrArg _ (State.ulBuilt_nil hc)),
      fun k ks hc => hbuilt.trans (congrArg _ (State.ulBuilt_cons hc))⟩

end Sys2Proof.Machine
end

section
/-! The ends of multi-user exchanges (R232, R235, R238). -/

namespace Sys2Proof.Machine

open Reg

variable {s : State} {r : Fin 3}

theorem exec_soundFeedback_eq (r : Fin 3) (scid : Fin 1024) (nc : Fin 8) (mat : List (List (Int × Int))) (s : State) :
    exec (.soundFeedback r scid nc mat) s = execSoundFeedback r scid nc mat s := rfl
theorem exec_muNextPpduDue_eq (r : Fin 3) (s : State) : exec (.muNextPpduDue r) s = execMuNextPpduDue r s := rfl
theorem exec_tbWindowEnd_eq (r : Fin 3) (s : State) : exec (.tbWindowEnd r) s = execTbWindowEnd r s := rfl

/-! Feedback of a sounding (R235). -/

/-- The feedback of a station has come: it is no longer missing from the window and is among the stations heard. -/
def State.soundHeard (s : State) (n k : Nat) (t : TxNow) : State :=
  (s.modMac n fun y => { y with tb := y.tb.map fun w => (w.1, w.2.1.filter (· != k), w.2.2) }).modRadio n fun y =>
    { y with tx := some { t with cmd := { t.cmd with heard := t.cmd.heard ++ [k] } } }

/-- The stations that a transmission's command names. -/
def State.muNamed (s : State) (n : Nat) (t : TxNow) : List Nat := (s.muUsers n t.cmd).map (· % 1024)

section Feedback
variable {scid : Fin 1024} {t : TxNow} (nc : Fin 8) (mat : List (List (Int × Int))) (htx : (s.radio r.val).tx = some t)
  (hs : s.isSounding r.val t.cmd = true) (hk : s.ctxState scid.val = 2)
include htx hs hk

theorem exec_soundFeedback_waits {e : Nat} (he : s.steerOf r.val scid.val = some e) (hu : s.steerInUse r.val e = true) :
    exec (.soundFeedback r scid nc mat) s = .next ((s.soundHeard r.val scid.val t).modMlink fun y => { y with
      steerPend := (y.steerPend.filter fun p => p.radio != r.val || p.scid != scid.val) ++
        [{ radio := r.val, scid := scid.val, mat := { nc := nc.val, ng := t.ng, v := mat } }] }) := by
  simp [exec_soundFeedback_eq, execSoundFeedback, htx, hs, hk, he, hu, State.soundHeard]

theorem exec_soundFeedback_installs (hfree : ∀ e, s.steerOf r.val scid.val = some e → s.steerInUse r.val e = false) :
    exec (.soundFeedback r scid nc mat) s = .next (((s.soundHeard r.val scid.val t).steerInstall r.val scid.val
      { nc := nc.val, ng := t.ng, v := mat } (s.muNamed r.val t)).getD s) := by
  cases he : s.steerOf r.val scid.val with
  | none => simp [exec_soundFeedback_eq, execSoundFeedback, htx, hs, hk, he, State.soundHeard, State.muNamed]
  | some e => simp [exec_soundFeedback_eq, execSoundFeedback, htx, hs, hk, he, hfree e he, State.soundHeard, State.muNamed]

end Feedback

/-! The next PPDU of a command of several (R232). -/

theorem exec_muNextPpduDue {t : TxNow} {m : Nat} (htx : (s.radio r.val).tx = some t) (hst : t.stage = .ppdu m)
    (hair : t.onAir = false) (hdue : (s.radio r.val).muDue = none) (hawait : (s.radio r.val).mac.await = none)
    (htb : (s.radio r.val).mac.tb = none) (hm : m + 1 < s.ppdusOf r.val t.cmd)
    (ht : (s.radio r.val).anchor + s.sifs r.val * 16 / 25 - 513 ≤ s.tick) :
    exec (.muNextPpduDue r) s = .next ((s.modRadio r.val fun y => { y with
      muDue := some ((s.radio r.val).anchor + s.sifs r.val * 16 / 25 - 513) }).seqEvent r.val evTXQ) := by
  simp only [exec_muNextPpduDue_eq, execMuNextPpduDue, htx]
  refine congrArg _ (if_neg ?_)
  simp [hst, hair, hdue, hawait, htb, Nat.not_le.mpr hm, Nat.not_lt.mpr ht]

/-! A station's context lies above every radio's parameter memory (R24, R215), so that what a window's end counts leaves the commands
in it as they were. -/

theorem State.rb_wm_below (s : State) {a b : Nat} (n v : Nat) (h : b < a) : (s.wm a n v).rb b = s.rb b := by
  induction n generalizing s a v with
  | zero => rfl
  | succ n ih => rw [State.wm, ih _ _ (by omega), State.rb_wb_ne _ _ (by omega)]

theorem State.rb_ctxPut_below (s : State) {a : Nat} (k o n v : Nat) (h : a < lm 5 0) : (s.ctxPut k o n v).rb a = s.rb a :=
  State.rb_wm_below s n v (by unfold ctxAddr lm; unfold lm at h; omega)

theorem State.rb_tbMiss_below (s : State) {a : Nat} (n k : Nat) (h : a < lm 5 0) : (s.tbMiss n k).rb a = s.rb a := by
  unfold State.tbMiss
  extract_lets o c s1
  have hs1 : s1.rb a = s.rb a := by rw [State.rb_sat, State.rb_ctxPut_below _ _ _ _ _ h]
  split
  · exact hs1
  · rw [State.rb_evt, State.rb_ctxPut_below _ _ _ _ _ h, hs1]

theorem State.rm_congr {s u : State} {a n : Nat} (h : ∀ b, b < a + n → u.rb b = s.rb b) : u.rm a n = s.rm a n := by
  induction n generalizing a with
  | zero => rfl
  | succ n ih => rw [State.rm, State.rm, h a (by omega), ih fun b hb => h b (by omega)]

/-- The first words of a command's TXVECTOR stand below MLINK's memory. -/
theorem State.tv_congr {s u : State} (h : ∀ a, a < lm 5 0 → u.rb a = s.rb a) {n i : Nat} (hn : n < 3) (hi : i < 2) (c : TxCmd) :
    u.tv n c i = s.tv n c i := by
  unfold State.tv
  split
  · exact State.rm_congr fun b hb => h b (by unfold lm rTile at *; omega)
  · rfl

theorem State.ppdusOf_congr {s u : State} (h : ∀ a, a < lm 5 0 → u.rb a = s.rb a) {n : Nat} (hn : n < 3) (c : TxCmd) :
    u.ppdusOf n c = s.ppdusOf n c := by
  simp only [State.ppdusOf, State.perBfrp, State.tv_congr h hn (show 0 < 2 by omega) c, State.tv_congr h hn (show 1 < 2 by omega) c]

/-! The end of the window of triggered responses (R238). -/

/-- The window of triggered responses is over: outside a sounding each user still missing is missed, and a window that no PPDU answered
is counted. -/
def State.tbClosed (s : State) (n : Nat) (users : List Nat) (qual : Bool) : State :=
  let s1 := s.modMac n fun y => { y with tb := none }
  let s2 := if s.soundingNow n then s1 else users.foldl (fun u j => u.tbMiss n j) s1
  if qual then s2 else s2.sat MLINK.TRIG_CNT 15 8 1

theorem State.rb_tbClosed_below (s : State) {a : Nat} (n : Nat) (users : List Nat) (qual : Bool) (h : a < lm 5 0) :
    (s.tbClosed n users qual).rb a = s.rb a := by
  unfold State.tbClosed
  extract_lets s1 s2
  have hs2 : s2.rb a = s.rb a := by
    unfold s2
    split
    · rfl
    · exact State.foldl_frame (·.rb a) (fun u j => u.rb_tbMiss_below n j h) users s1
  split
  · exact hs2
  · rw [State.rb_sat, hs2]

/-- The end of a window leaves its command as many PPDUs as before. -/
theorem State.ppdusOf_tbClosed (s : State) {n : Nat} (hn : n < 3) (users : List Nat) (qual : Bool) (c : TxCmd) :
    (s.tbClosed n users qual).ppdusOf n c = s.ppdusOf n c :=
  State.ppdusOf_congr (fun _ h => s.rb_tbClosed_below n users qual h) hn c

theorem exec_tbWindowEnd {t m : Nat} {users : List Nat} {qual : Bool} {tx : TxNow}
    (htb : (s.radio r.val).mac.tb = some (t, users, qual)) (ht : t ≤ s.clock)
    (hq : qual = true → (s.radio r.val).rx.phase = .idle ∧ (s.radio r.val).done = none)
    (htx : (s.radio r.val).tx = some tx) (hst : tx.stage = .ppdu m) : exec (.tbWindowEnd r) s = .next (
      if m + 1 < s.ppdusOf r.val tx.cmd then s.tbClosed r.val users qual
      else (s.tbClosed r.val users qual).seriesEnd r.val tx (qual || !tx.cmd.heard.isEmpty)) := by
  have hnot : ¬ (decide (s.clock < t) || (qual && ((s.radio r.val).rx.phase != .idle || (s.radio r.val).done.isSome))) = true := by
    cases qual with
    | false => simp [Nat.not_lt.mpr ht]
    | true =>
      obtain ⟨hidle, hdone⟩ := hq rfl
      simp [Nat.not_lt.mpr ht, hidle, hdone]
  simp only [exec_tbWindowEnd_eq, execTbWindowEnd, htb, htx, hst, if_neg hnot, decide_eq_true_eq]
  rfl

end Sys2Proof.Machine
end

section
/-! Towpath's peers (R274, R276, R284). -/

namespace Sys2Proof.Machine

open Reg

variable {s : State} {r : Fin 3} {by_ : Req}

theorem exec_tpLoadPeriod_eq (r : Fin 3) (s : State) : exec (.tpLoadPeriod r) s = execTpLoadPeriod r s := rfl
theorem exec_tpPeerRst_eq (by_ : Req) (r : Fin 3) (bits : Word) (s : State) :
    exec (.tpPeerRst by_ r bits) s = execTpPeerRst by_ r bits s := rfl
theorem exec_tpPeerCfgWrite_eq (by_ : Req) (r : Fin 3) (p : Fin 16) (val : Word) (s : State) :
    exec (.tpPeerCfgWrite by_ r p val) s = execTpPeerCfgWrite by_ r p val s := rfl

/-- A field whose bits a mask keeps reads the same under it. -/
theorem fld_and_mask (w : Word) {m : Word} {hi lo : Nat} (h : ∀ i, i < hi - lo + 1 → m.getLsbD (lo + i) = true) :
    fld (w &&& m) hi lo = fld w hi lo := by
  refine Nat.eq_of_testBit_eq fun i => ?_
  simp only [fld, Nat.testBit_mod_two_pow, Nat.testBit_shiftRight, BitVec.testBit_toNat, BitVec.getLsbD_and]
  by_cases hi' : i < hi - lo + 1
  · rw [h i hi', Bool.and_true]
  · simp only [hi', decide_false, Bool.false_and]

/-- The mask of TP_PEER_CFG keeps the peer's node and its VALID (R284). -/
theorem fld_tpPeerCfg_node (w : Word) : fld (w &&& 0xC007FFFF) 15 0 = fld w 15 0 :=
  fld_and_mask w (by decide)
theorem bit_tpPeerCfg_valid (w : Word) : bit (w &&& 0xC007FFFF) 31 = bit w 31 := by
  rw [bit, bit, BitVec.getLsbD_and, show (0xC007FFFF : Word).getLsbD 31 = true by decide, Bool.and_true]

theorem exec_tpLoadPeriod (hms : s.rf (RADIO.TP_LOAD_CTL2 r.val) 31 16 ≠ 0) (hon : s.tpOn r.val = true)
    (hl : s.life (rTile r.val) = .ready)
    (ht : (s.radio r.val).loadAt + s.rf (RADIO.TP_LOAD_CTL2 r.val) 31 16 * 500000 ≤ s.clock) :
    exec (.tpLoadPeriod r) s = .next ((List.range 16).foldl (fun u k => u.tpPeerPeriod r.val k)
      (s.modRadio r.val fun x => { x with loadAt := s.clock })) := by
  rw [exec_tpLoadPeriod_eq]
  exact congrArg _ (if_neg (by simp [hms, hon, hl, Nat.not_lt.mpr ht]))

theorem exec_tpLoadPeriod_early (ht : s.clock < (s.radio r.val).loadAt + s.rf (RADIO.TP_LOAD_CTL2 r.val) 31 16 * 500000) :
    exec (.tpLoadPeriod r) s = .next s := by
  rw [exec_tpLoadPeriod_eq]
  exact congrArg _ (if_pos (by simp [ht]))

/-- A Towpath peer starts afresh: its slots are empty and its state is gone, but for the generation that its tables go on from. -/
def State.tpForget (s : State) (n p gen : Nat) : State :=
  ((([0, 1, 2, 3].foldl (fun u i => u.tpEmpty n (4 * p + i)) s).wr (RADIO.TP_PEER_STAT n p) 0).wr
    (RADIO.TP_PEER_SEQ n p) 0).setTp n p { gen := gen }

/-- A write of TP_PEER_CFG goes by whether it changes the node or VALID. -/
theorem exec_tpPeerCfgWrite (ha : s.accepts by_ (rTile r.val) = true) (p : Fin 16) (val : Word) :
    exec (.tpPeerCfgWrite by_ r p val) s = .next (
      if fld (s.rd (RADIO.TP_PEER_CFG r.val p.val)) 15 0 = fld val 15 0 ∧
        bit (s.rd (RADIO.TP_PEER_CFG r.val p.val)) 31 = bit val 31
      then s.wr (RADIO.TP_PEER_CFG r.val p.val) (val &&& 0xC007FFFF)
      else (s.wr (RADIO.TP_PEER_CFG r.val p.val) (val &&& 0xC007FFFF)).tpForget r.val p.val (s.tpPeer r.val p.val).gen) := by
  rw [exec_tpPeerCfgWrite_eq, execTpPeerCfgWrite, State.onWrite_accepts _ ha]
  simp only [fld_tpPeerCfg_node, bit_tpPeerCfg_valid, Bool.and_eq_true, decide_eq_true_eq]
  rfl

/-- Settles O39: feedback by whether its entry is in use, the end of a window by what `State.tbClosed` leaves and the PPDUs that its
command has left, and a write of a peer's configuration by what it changes. -/
theorem multiUserAndTowpathEnds : Obligations.MultiUserAndTowpathEnds := by
  refine ⟨fun r scid nc mat s => ?_, fun by_ r p bits s => ?_⟩
  · intro n k x
    refine ⟨fun t htx hs hk => ?_, fun t m htx hst hair hdue hawait htb hm => exec_muNextPpduDue htx hst hair hdue hawait htb hm,
      fun t users qual tx m htb ht hq htx hst => ?_⟩
    · intro named m s1
      refine ⟨fun hfree => ?_, fun e => exec_soundFeedback_waits nc mat htx hs hk⟩
      have hinst := exec_soundFeedback_installs nc mat htx hs hk hfree
      have installed {o : Option State} (ho : s1.steerInstall n k m named = o) :
          exec (.soundFeedback r scid nc mat) s = .next (o.getD s) := ho ▸ hinst
      exact ⟨fun u => installed, installed⟩
    · intro s1 s2 s3
      have hend := exec_tbWindowEnd htb ht hq htx hst
      have hmore : s3.ppdusOf n tx.cmd = s.ppdusOf n tx.cmd := s.ppdusOf_tbClosed r.isLt users qual tx.cmd
      rw [hmore]
      exact ⟨fun hm => hend.trans (congrArg _ (if_pos hm)),
        fun hm => hend.trans (congrArg _ (if_neg (Nat.not_lt.mpr hm)))⟩
  · intro n cfg
    refine ⟨exec_tpLoadPeriod, exec_tpLoadPeriod_early, fun ha => ?_, fun ha hnode hvalid => ?_, fun ha hne => ?_⟩
    · exact congrArg _ (State.onWrite_accepts _ ha)
    · exact (exec_tpPeerCfgWrite ha p bits).trans (congrArg _ (if_pos ⟨hnode, hvalid⟩))
    · exact (exec_tpPeerCfgWrite ha p bits).trans (congrArg _ (if_neg fun hsame =>
        hne.elim (fun h => h hsame.1) fun h => h hsame.2))

end Sys2Proof.Machine
end

section
/-! Newt's transmission commands (R255 to R258): taken, sent under CSMA-CA, acknowledged or tried again. -/

namespace Sys2Proof.Machine

open Reg

variable {s : State} {by_ : Req} {tag : Tag}

theorem exec_newtTxCmd_eq (by_ : Req) (tag : Tag) (s : State) : exec (.newtTxCmd by_ tag) s = execNewtTxCmd by_ tag s := rfl
theorem exec_newtBackoffExpire_eq (s : State) : exec .newtBackoffExpire s = execNewtBackoffExpire s := rfl
theorem exec_newtCcaEnd_eq (energy : Int) (signal : Bool) (s : State) :
    exec (.newtCcaEnd energy signal) s = execNewtCcaEnd energy signal s := rfl
theorem exec_newtTxEnd_eq (s : State) : exec .newtTxEnd s = execNewtTxEnd s := rfl
theorem exec_newtAckTimeout_eq (s : State) : exec .newtAckTimeout s = execNewtAckTimeout s := rfl

/-! Commands (R255, R258). -/

/-- NEWT can take the command in TX_ARG0: EN is 1, LEN is 5 to 127 and the tile is READY (R255, R262). -/
def State.NewtTxValid (s : State) : Prop :=
  s.rbit NEWT.NEWT_CTL 31 = true ∧ 5 ≤ fld (s.rd NEWT.TX_ARG0) 25 16 ∧ fld (s.rd NEWT.TX_ARG0) 25 16 ≤ 127 ∧ s.life 7 = .ready

/-- The test of INVALID, as the command makes it. -/
theorem State.newtTxInvalid_iff : (!s.rbit NEWT.NEWT_CTL 31 || fld (s.rd NEWT.TX_ARG0) 25 16 < 5 ||
    127 < fld (s.rd NEWT.TX_ARG0) 25 16 || s.life 7 != .ready) = true ↔ ¬ s.NewtTxValid := by
  simp only [State.NewtTxValid, Bool.or_eq_true, Bool.not_eq_true', decide_eq_true_eq, bne_iff_ne,
    Classical.not_and_iff_not_or_not, Bool.not_eq_true, Nat.not_le, or_assoc, ne_eq]

/-- The command taken: its path BUSY, its PSDU as it will be sent (R255, R258). -/
def State.newtTaken (s : State) (tag : Tag) (sec : Bool) : State :=
  (s.pathBusy NEWT.TX_RESULT 8 tag).modNewt fun x => { x with tx := some {
    psdu := s.newtPsdu ((List.range (fld (s.rd NEWT.TX_ARG0) 25 16)).map fun k =>
      s.rb (lm 7 ((fld (s.rd NEWT.TX_ARG0) 15 0 + k) % 65536))) sec
    tag := tag, pri := fld (s.rd NEWT.TX_ARG0) 29 28, ant := fld (s.rd NEWT.TX_ARG0) 31 30,
    power := max (-20) (min 10 (sval 8 (s.rf NEWT.TX_ARG1 7 0))) } }

/-- A command just taken starts by CSMA-CA, or at once (R256). -/
def State.newtStart (u : State) (csma : Bool) : State := if csma then u.newtCsma else u.newtGo

section Command
variable (ha : s.accepts by_ 7 = true)
include ha

theorem exec_newtTxCmd_dropped (hf : s.pathFree NEWT.TX_RESULT = false) :
    exec (.newtTxCmd by_ tag) s = .next (s.sat NEWT.NEWT_CNT2 7 0 1) := by
  rw [exec_newtTxCmd_eq, execNewtTxCmd, State.onWrite_accepts _ ha]
  exact congrArg _ (if_pos (by rw [hf]; rfl))

variable (hf : s.pathFree NEWT.TX_RESULT = true)
include hf

theorem exec_newtTxCmd_invalid (hv : ¬ s.NewtTxValid) : exec (.newtTxCmd by_ tag) s = .next (s.newtPost tag 4 0 false) := by
  rw [exec_newtTxCmd_eq, execNewtTxCmd, State.onWrite_accepts _ ha]
  exact congrArg _ ((if_neg (by rw [hf]; decide)).trans (if_pos (State.newtTxInvalid_iff.mpr hv)))

variable (hv : s.NewtTxValid)
include hv

/-- A command that NEWT can take goes by whether it needs a frame counter that is spent. -/
theorem exec_newtTxCmd : exec (.newtTxCmd by_ tag) s = .next (
    if bit (s.rd NEWT.TX_ARG0) 27 && s.rd NEWT.NEWT_FC = 0xFFFFFFFF then s.newtPost tag 3 0 false
    else
      let u := s.newtTaken tag (bit (s.rd NEWT.TX_ARG0) 27)
      State.newtStart (if bit (s.rd NEWT.TX_ARG0) 27 then u.wr NEWT.NEWT_FC (s.rd NEWT.NEWT_FC + 1) else u) (bit (s.rd NEWT.TX_ARG0) 26)) := by
  rw [exec_newtTxCmd_eq, execNewtTxCmd, State.onWrite_accepts _ ha]
  refine congrArg _ ((if_neg (by rw [hf]; decide)).trans ((if_neg fun h => State.newtTxInvalid_iff.mp h hv).trans ?_))
  rfl

theorem exec_newtTxCmd_spent (hsec : bit (s.rd NEWT.TX_ARG0) 27 = true) (hfc : s.rd NEWT.NEWT_FC = 0xFFFFFFFF) :
    exec (.newtTxCmd by_ tag) s = .next (s.newtPost tag 3 0 false) := by
  rw [exec_newtTxCmd ha hf hv, if_pos (by simp [hsec, hfc])]

theorem exec_newtTxCmd_plain (hsec : bit (s.rd NEWT.TX_ARG0) 27 = false) :
    exec (.newtTxCmd by_ tag) s = .next ((s.newtTaken tag false).newtStart (bit (s.rd NEWT.TX_ARG0) 26)) := by
  rw [exec_newtTxCmd ha hf hv, hsec]
  rfl

theorem exec_newtTxCmd_secured (hsec : bit (s.rd NEWT.TX_ARG0) 27 = true) (hfc : s.rd NEWT.NEWT_FC ≠ 0xFFFFFFFF) :
    exec (.newtTxCmd by_ tag) s = .next
      (((s.newtTaken tag true).wr NEWT.NEWT_FC (s.rd NEWT.NEWT_FC + 1)).newtStart (bit (s.rd NEWT.TX_ARG0) 26)) := by
  rw [exec_newtTxCmd ha hf hv, if_neg (by simpa [hsec] using hfc), hsec]
  rfl

end Command

/-! The phases of the command in progress (R256, R257). -/

section Phase
variable {t : NewtTx} {u : Nat} (htx : s.newt.tx = some t)
include htx

theorem exec_newtBackoffExpire (hp : t.phase = .backoff u) (hu : u ≤ s.clock) (hr : s.newtRetuning = false) :
    exec .newtBackoffExpire s = .next (s.modNewtTx fun t => { t with phase := .cca (s.clock + 64000) }) := by
  simp only [exec_newtBackoffExpire_eq, execNewtBackoffExpire, htx, hp]
  exact congrArg _ (if_pos (by simp [hu, hr]))

/-- A CCA finds the channel clear and the radio free for the command (R256, R260). -/
def State.NewtClear (s : State) (t : NewtTx) (energy : Int) (signal : Bool) : Prop :=
  s.newtCca energy signal = false ∧ s.newt.rx = none ∧ s.newt.ack = none ∧ s.newt.ackEnd ≤ s.clock ∧ s.newtGrant t.pri = true

omit htx in
/-- The test of a CCA that is not clear, as its end makes it. -/
theorem State.not_newtClear_iff {energy : Int} {signal : Bool} : (s.newtCca energy signal || s.newt.rx.isSome || s.newt.ack.isSome ||
    s.clock < s.newt.ackEnd || !s.newtGrant t.pri) = true ↔ ¬ s.NewtClear t energy signal := by
  simp only [State.NewtClear, Bool.or_eq_true, Bool.not_eq_true', decide_eq_true_eq,
    Classical.not_and_iff_not_or_not, Bool.not_eq_false, Bool.not_eq_true, Nat.not_le, or_assoc, Option.isSome_iff_ne_none, ne_eq]

section Cca
variable {energy : Int} {signal : Bool} (hp : t.phase = .cca u) (hu : u ≤ s.clock) (hr : s.newtRetuning = false)
  (hl : s.live 7 = true)
include hp hu hr hl

/-- A CCA that ends sends the frame, or the command backs off again up to its limit. -/
theorem exec_newtCcaEnd :
    let s0 := s.wf NEWT.NEWT_STATUS 7 0 (ofInt 8 energy)
    let s1 := if s.newtGrant t.pri then s0 else s0.sat NEWT.NEWT_CNT1 15 8 1
    (s.NewtClear t energy signal → exec (.newtCcaEnd energy signal) s = .next (s0.newtSend t 96000)) ∧
    (¬ s.NewtClear t energy signal → exec (.newtCcaEnd energy signal) s = .next (
      if min 5 (s.rf NEWT.NEWT_CSMA 15 12) < t.nb + 1 then (s1.newtPost t.tag 1 t.attempts false).newtRetune
      else s1.newtBackoff (t.nb + 1) (min (t.be + 1) s.newtBe.1))) := by
  have hnow : ¬ (decide (s.clock < u) || s.newtRetuning || !s.live 7) = true := by simp [Nat.not_lt.mpr hu, hr, hl]
  intro s0 s1
  simp only [exec_newtCcaEnd_eq, execNewtCcaEnd, htx, hp, if_neg hnow]
  refine ⟨fun hc => congrArg _ ((if_neg fun h => State.not_newtClear_iff.mp h hc).trans ?_),
    fun hc => congrArg _ (if_pos (State.not_newtClear_iff.mpr hc))⟩
  obtain ⟨-, -, -, -, hgrant⟩ := hc
  rw [if_pos hgrant]

end Cca

section Sent
variable (hp : t.phase = .sending u) (hu : u ≤ s.clock)
include hp hu

theorem exec_newtTxEnd : exec .newtTxEnd s = .next (
    let s1 := (s.wr NEWT.COEX_STATUS 0).wr NEWT.TX_TIME (wd (s.ns - (t.psdu.length + 1) * 32000))
    if (t.psdu.headD 0).toNat / 32 % 2 = 1 then
      (s1.modNewtTx fun t => { t with attempts := t.attempts + 1, phase := .await (s.clock + 432000) }).newtListen
    else (s1.newtPost t.tag 0 (t.attempts + 1) false).newtListen.newtRetune) := by
  simp only [exec_newtTxEnd_eq, execNewtTxEnd, htx, hp]
  exact congrArg _ (if_neg (Nat.not_lt.mpr hu))

end Sent

theorem exec_newtAckTimeout (hp : t.phase = .await u) (hu : u ≤ s.clock) (hrx : ∀ v b, s.newt.rx = some (v, b) → u < v) :
    exec .newtAckTimeout s = .next (
      if t.attempts ≤ s.rf NEWT.NEWT_CSMA 18 16 ∧ s.life 7 ≠ .draining then s.newtCsma.newtRetune
      else (s.newtPost t.tag 2 t.attempts false).newtRetune) := by
  simp only [exec_newtAckTimeout_eq, execNewtAckTimeout, htx, hp, ne_eq, Bool.and_eq_true, decide_eq_true_eq, bne_iff_ne]
  refine congrArg _ (if_neg ?_)
  cases h : s.newt.rx with
  | none => simp [Nat.not_lt.mpr hu]
  | some r => simp [Nat.not_lt.mpr hu, Nat.not_le.mpr (hrx r.1 r.2 h)]

end Phase

/-- Settles O49: a command by what it finds on its path, in its arguments and in the frame counter; then one lemma for the end of each
phase of the command in progress. -/
theorem newtTransmissionsComplete : Obligations.NewtTransmissionsComplete := by
  refine fun by_ tag energy signal s => ⟨fun ha => ⟨exec_newtTxCmd_dropped ha, exec_newtTxCmd_invalid ha, exec_newtTxCmd_spent ha,
    exec_newtTxCmd_plain ha, exec_newtTxCmd_secured ha, congrArg _ (State.onWrite_accepts _ ha)⟩,
    fun t u htx => ⟨exec_newtBackoffExpire htx, exec_newtCcaEnd htx, fun hp hu => ⟨fun har => ?_, fun har => ?_⟩,
      exec_newtAckTimeout htx⟩⟩
  · exact (exec_newtTxEnd htx hp hu).trans (congrArg _ (if_pos har))
  · exact (exec_newtTxEnd htx hp hu).trans (congrArg _ (if_neg (by rw [har]; decide)))

end Sys2Proof.Machine
end

section
/-! Child commands and pending bits of Newt's tables (R250, R254, R262). -/

namespace Sys2Proof.Machine

open Reg

variable {s : State} {by_ : Req} {tag : Tag}

theorem exec_childAddShort_eq (by_ : Req) (tag : Tag) (s : State) :
    exec (.childAddShort by_ tag) s = execChildAddShort by_ tag s := rfl
theorem exec_childDelShort_eq (by_ : Req) (tag : Tag) (s : State) :
    exec (.childDelShort by_ tag) s = execChildDelShort by_ tag s := rfl
theorem exec_childAddExt_eq (by_ : Req) (tag : Tag) (s : State) : exec (.childAddExt by_ tag) s = execChildAddExt by_ tag s := rfl
theorem exec_childDelExt_eq (by_ : Req) (tag : Tag) (s : State) : exec (.childDelExt by_ tag) s = execChildDelExt by_ tag s := rfl
theorem exec_childIllegalOp_eq (by_ : Req) (tag : Tag) (s : State) :
    exec (.childIllegalOp by_ tag) s = execChildIllegalOp by_ tag s := rfl
theorem exec_pendSet_eq (by_ : Req) (val : Word) (s : State) : exec (.pendSet by_ val) s = .next (s.pendWrite by_ val true) := rfl
theorem exec_pendClr_eq (by_ : Req) (val : Word) (s : State) : exec (.pendClr by_ val) s = .next (s.pendWrite by_ val false) := rfl

@[simp] theorem State.newt_setEvtWords (s : State) (t : Nat) (p m : Word) : (s.setEvtWords t p m).newt = s.newt := by
  simp only [State.setEvtWords, State.sendEvt, State.sendMsix]
  (repeat' split) <;> rfl
@[simp] theorem State.newt_evt (s : State) (t n : Nat) : (s.evt t n).newt = s.newt := State.newt_setEvtWords ..

/-! Pending bits (R254). -/

/-- A bit reads as it was put. -/
theorem bit_putBit_self (w : Word) {n : Nat} (b : Bool) (hn : n < 32) : bit (putBit w n b) n = b := by
  simp only [bit, putBit, putFld, fmask, BitVec.getLsbD_or, BitVec.getLsbD_and, BitVec.getLsbD_not, BitVec.getLsbD_ofNat,
    Nat.testBit_mul_two_pow, Nat.testBit_two_pow_sub_one]
  cases b <;> simp [hn]

theorem newtPendBit_lt (n : Nat) : (newtPendBit n).2 < 32 := by
  unfold newtPendBit
  split <;> exact Nat.mod_lt _ (by decide)

/-- The pending bits lie above the result of child commands. -/
theorem newtPendBit_ne_result (n : Nat) : (newtPendBit n).1 ≠ NEWT.CHILD_RESULT := by
  unfold newtPendBit
  split
  · split
    · exact (by decide : NEWT.EXT_PEND0 ≠ NEWT.CHILD_RESULT)
    · exact (by decide : NEWT.EXT_PEND1 ≠ NEWT.CHILD_RESULT)
  · show 0x7001080 + 4 * (n / 32) ≠ 0x7001060
    omega

theorem State.newtPend_setNewtPend_self (s : State) (n : Nat) (v : Bool) : (s.setNewtPend n v).newtPend n = v := by
  rw [State.newtPend, State.rbit, State.setNewtPend, State.rd_wr_self, bit_putBit_self _ _ (newtPendBit_lt n)]
@[simp] theorem State.newt_setNewtPend (s : State) (n : Nat) (v : Bool) : (s.setNewtPend n v).newt = s.newt := rfl

section Pend
variable {val : Word} {v : Bool} (ha : s.accepts by_ 7 = true)
include ha

theorem State.pendWrite_beyond (hext : bit val 15 = true) (hout : 64 ≤ fld val 8 0) : s.pendWrite by_ val v = s := by
  simp [State.pendWrite, State.onWrite_accepts _ ha, hext, Nat.not_lt.mpr hout]

variable {n : Nat} (hn : (if bit val 15 then 0x8000 + fld val 8 0 else fld val 8 0) = n) (hin : bit val 15 = true → fld val 8 0 < 64)
include hn hin

theorem State.pendWrite_indexed : s.pendWrite by_ val v = s.setNewtPend n v := by
  subst hn
  rw [State.pendWrite, State.onWrite_accepts _ ha]
  cases hext : bit val 15 with
  | false => rfl
  | true => exact if_pos (hin hext)
theorem exec_pendSet_indexed : exec (.pendSet by_ val) s = .next (s.setNewtPend n true) := by
  rw [exec_pendSet_eq, State.pendWrite_indexed ha hn hin]
theorem exec_pendClr_indexed : exec (.pendClr by_ val) s = .next (s.setNewtPend n false) := by
  rw [exec_pendClr_eq, State.pendWrite_indexed ha hn hin]

end Pend

/-! The path of child commands (R250, R262). -/

/-- Post the result of a child command, with its event. -/
def State.childPost (s : State) (tag : Tag) (code index : Nat) : State :=
  (s.pathPost NEWT.CHILD_RESULT 8 tag (code * 2 ^ 27 + index * 2 ^ 16)).evt 7 19

section Post
variable (s : State) (tag : Tag) (code index : Nat)

theorem State.childPost_posted : (s.childPost tag code index).rd NEWT.CHILD_RESULT =
      wd (2 ^ 31 + (code * 2 ^ 27 + index * 2 ^ 16) + tag.toNat * 2 ^ 8) ∧
    bit ((s.childPost tag code index).tile 7).evtPend 19 = true := by
  constructor
  · rw [State.childPost, State.rd_evt, State.rd_pathPost]
  · simp [State.childPost, bit, wd]
@[simp] theorem State.newt_childPost : (s.childPost tag code index).newt = s.newt := by
  rw [State.childPost, State.newt_evt, State.pathPost, State.wr_newt]
@[simp] theorem State.newtShort_childPost (k : Nat) : (s.childPost tag code index).newtShort k = s.newtShort k := by
  rw [State.newtShort, State.newt_childPost, State.newtShort]
@[simp] theorem State.newtExtEntry_childPost (k : Nat) : (s.childPost tag code index).newtExtEntry k = s.newtExtEntry k := by
  rw [State.newtExtEntry, State.newt_childPost, State.newtExtEntry]
@[simp] theorem State.newtPend_childPost (n : Nat) : (s.childPost tag code index).newtPend n = s.newtPend n := by
  rw [State.newtPend, State.rbit, State.childPost, State.rd_evt, State.pathPost, State.rd_wr_ne _ _ (newtPendBit_ne_result n)]
  rfl

end Post

/-- A command refused answers its code and leaves Newt's hidden state alone. -/
theorem exec_child_refused {c : Instr} {code : Nat} (h : exec c s = .next (s.childPost tag code 0)) :
    ∃ u, exec c s = .next u ∧ (u.rd NEWT.CHILD_RESULT = wd (2 ^ 31 + (code * 2 ^ 27 + 0 * 2 ^ 16) + tag.toNat * 2 ^ 8) ∧
      bit (u.tile 7).evtPend 19 = true) ∧ u.newt = s.newt :=
  ⟨_, h, s.childPost_posted tag code 0, s.newt_childPost tag code 0⟩

theorem exec_childCmds {c : Instr} (h : c ∈ [Instr.childAddShort by_ tag, .childDelShort by_ tag, .childAddExt by_ tag,
    .childDelExt by_ tag, .childIllegalOp by_ tag]) (s : State) : ∃ f, exec c s = .next (s.childCmd by_ tag f) := by
  simp only [List.mem_cons, List.not_mem_nil, or_false] at h
  obtain rfl | rfl | rfl | rfl | rfl := h <;> exact ⟨_, rfl⟩

section Path
variable (f : State → State × Nat × Nat) (ha : s.accepts by_ 7 = true)
include ha

theorem State.childCmd_dropped (hf : s.pathFree NEWT.CHILD_RESULT = false) : s.childCmd by_ tag f = s.reqDrop 7 := by
  rw [State.childCmd, State.onWrite_accepts _ ha, if_pos (by rw [hf]; rfl)]
theorem State.childCmd_draining (hf : s.pathFree NEWT.CHILD_RESULT = true) (hl : s.life 7 = .draining) :
    s.childCmd by_ tag f = s.childPost tag 4 0 := by
  rw [State.childCmd, State.onWrite_accepts _ ha, if_neg (by rw [hf]; decide), if_pos hl, State.childPost]
theorem State.childCmd_taken (hf : s.pathFree NEWT.CHILD_RESULT = true) (hl : s.life 7 ≠ .draining) :
    s.childCmd by_ tag f = (f s).1.childPost tag (f s).2.1 (f s).2.2 := by
  rw [State.childCmd, State.onWrite_accepts _ ha, if_neg (by rw [hf]; decide), if_neg hl, State.childPost]

end Path

/-! What a command that succeeds leaves of the tables (R250, R254). -/

/-- The child of the arguments put in an entry of the short table, its pending bit at 0. -/
def State.shortAdded (s : State) (k : Nat) : State :=
  (s.modNewt fun x => { x with short := tput (fun _ => none) x.short k (some (s.rf NEWT.CHILD_ARG 15 0, s.childExt)) }).setNewtPend
    k false
/-- An entry of the short table freed, its pending bit at 0. -/
def State.shortDeleted (s : State) (k : Nat) : State :=
  (s.modNewt fun x => { x with short := terase x.short k }).setNewtPend k false
/-- The child of the arguments put in an entry of the extended table, its pending bit at 0. -/
def State.extAdded (s : State) (k : Nat) : State :=
  (s.modNewt fun x => { x with ext := tput (fun _ => none) x.ext k (some s.childExt) }).setNewtPend (0x8000 + k) false
/-- An entry of the extended table freed, its pending bit at 0. -/
def State.extDeleted (s : State) (k : Nat) : State :=
  (s.modNewt fun x => { x with ext := terase x.ext k }).setNewtPend (0x8000 + k) false

section Tables
variable (s : State) (k : Nat)

theorem State.newt_shortAdded : (s.shortAdded k).newt = { s.newt with
    short := tput (fun _ => none) s.newt.short k (some (s.rf NEWT.CHILD_ARG 15 0, s.childExt)) } := rfl
theorem State.newt_extAdded : (s.extAdded k).newt = { s.newt with
    ext := tput (fun _ => none) s.newt.ext k (some s.childExt) } := rfl

theorem State.newtShort_shortAdded_self : (s.shortAdded k).newtShort k = some (s.rf NEWT.CHILD_ARG 15 0, s.childExt) := by
  rw [State.newtShort, State.newt_shortAdded, tget_tput_self]
theorem State.newtShort_shortAdded_ne {j : Nat} (h : j ≠ k) : (s.shortAdded k).newtShort j = s.newtShort j := by
  rw [State.newtShort, State.newt_shortAdded, tget_tput_ne _ _ _ h, State.newtShort]
theorem State.newtShort_shortDeleted : (s.shortDeleted k).newtShort k = none := tget_terase_self (fun _ => none) s.newt.short k
theorem State.newtExtEntry_extAdded : (s.extAdded k).newtExtEntry k = some s.childExt := by
  rw [State.newtExtEntry, State.newt_extAdded, tget_tput_self]
theorem State.newtExtEntry_extDeleted : (s.extDeleted k).newtExtEntry k = none := tget_terase_self (fun _ => none) s.newt.ext k
theorem State.newtPend_shortAdded : (s.shortAdded k).newtPend k = false := State.newtPend_setNewtPend_self ..
theorem State.newtPend_shortDeleted : (s.shortDeleted k).newtPend k = false := State.newtPend_setNewtPend_self ..
theorem State.newtPend_extAdded : (s.extAdded k).newtPend (0x8000 + k) = false := State.newtPend_setNewtPend_self ..
theorem State.newtPend_extDeleted : (s.extDeleted k).newtPend (0x8000 + k) = false := State.newtPend_setNewtPend_self ..

end Tables

/-! Commands taken, by what the tables hold (R250, R254). -/

section Taken
variable (ha : s.accepts by_ 7 = true) (hf : s.pathFree NEWT.CHILD_RESULT = true) (hl : s.life 7 ≠ .draining)
include ha hf hl

theorem exec_childIllegalOp : exec (.childIllegalOp by_ tag) s = .next (s.childPost tag 5 0) := by
  rw [exec_childIllegalOp_eq, execChildIllegalOp, State.childCmd_taken _ ha hf hl]

section Short
variable {k : Nat}

theorem exec_childAddShort_invalid (h : 0xFFFE ≤ s.rf NEWT.CHILD_ARG 15 0) :
    exec (.childAddShort by_ tag) s = .next (s.childPost tag 4 0) := by
  rw [exec_childAddShort_eq, execChildAddShort, State.childCmd_taken _ ha hf hl, if_pos h]

theorem exec_childDelShort_notFound (hfind : s.newtFindShort (s.rf NEWT.CHILD_ARG 15 0) = none) :
    exec (.childDelShort by_ tag) s = .next (s.childPost tag 3 0) := by
  rw [exec_childDelShort_eq, execChildDelShort, State.childCmd_taken _ ha hf hl, hfind]
theorem exec_childDelShort_deletes (hfind : s.newtFindShort (s.rf NEWT.CHILD_ARG 15 0) = some k) :
    exec (.childDelShort by_ tag) s = .next ((s.shortDeleted k).childPost tag 0 k) := by
  rw [exec_childDelShort_eq, execChildDelShort, State.childCmd_taken _ ha hf hl, hfind]
  rfl

variable (hlt : s.rf NEWT.CHILD_ARG 15 0 < 0xFFFE)
include hlt

theorem exec_childAddShort_inUse (hfind : s.newtFindShort (s.rf NEWT.CHILD_ARG 15 0) = some k) :
    exec (.childAddShort by_ tag) s = .next (s.childPost tag 2 0) := by
  rw [exec_childAddShort_eq, execChildAddShort, State.childCmd_taken _ ha hf hl, if_neg (Nat.not_le.mpr hlt), hfind]
  rfl

variable (hfind : s.newtFindShort (s.rf NEWT.CHILD_ARG 15 0) = none)
include hfind

theorem exec_childAddShort_adds (hk : ((List.range 512).find? fun n => s.newtShort n = none) = some k) :
    exec (.childAddShort by_ tag) s = .next ((s.shortAdded k).childPost tag 0 k) := by
  rw [exec_childAddShort_eq, execChildAddShort, State.childCmd_taken _ ha hf hl, if_neg (Nat.not_le.mpr hlt), hfind, hk]
  rfl
theorem exec_childAddShort_full (h : ∀ n, n < 512 → s.newtShort n ≠ none) :
    exec (.childAddShort by_ tag) s = .next (s.childPost tag 1 0) := by
  have hnone : ((List.range 512).find? fun n => s.newtShort n = none) = none := List.find?_range_eq_none.mpr (by simpa using h)
  rw [exec_childAddShort_eq, execChildAddShort, State.childCmd_taken _ ha hf hl, if_neg (Nat.not_le.mpr hlt), hfind, hnone]
  rfl

end Short

section Ext
variable {k : Nat}

theorem exec_childAddExt_inUse (hfind : s.newtFindExt s.childExt = some k) :
    exec (.childAddExt by_ tag) s = .next (s.childPost tag 2 0) := by
  rw [exec_childAddExt_eq, execChildAddExt, State.childCmd_taken _ ha hf hl, hfind]
  rfl
theorem exec_childDelExt_deletes (hfind : s.newtFindExt s.childExt = some k) :
    exec (.childDelExt by_ tag) s = .next ((s.extDeleted k).childPost tag 0 k) := by
  rw [exec_childDelExt_eq, execChildDelExt, State.childCmd_taken _ ha hf hl, hfind]
  rfl

variable (hfind : s.newtFindExt s.childExt = none)
include hfind

theorem exec_childDelExt_notFound : exec (.childDelExt by_ tag) s = .next (s.childPost tag 3 0) := by
  rw [exec_childDelExt_eq, execChildDelExt, State.childCmd_taken _ ha hf hl, hfind]
theorem exec_childAddExt_adds (hk : ((List.range 64).find? fun n => s.newtExtEntry n = none) = some k) :
    exec (.childAddExt by_ tag) s = .next ((s.extAdded k).childPost tag 0 k) := by
  rw [exec_childAddExt_eq, execChildAddExt, State.childCmd_taken _ ha hf hl, hfind, hk]
  rfl
theorem exec_childAddExt_full (h : ∀ n, n < 64 → s.newtExtEntry n ≠ none) :
    exec (.childAddExt by_ tag) s = .next (s.childPost tag 1 0) := by
  have hnone : ((List.range 64).find? fun n => s.newtExtEntry n = none) = none := List.find?_range_eq_none.mpr (by simpa using h)
  rw [exec_childAddExt_eq, execChildAddExt, State.childCmd_taken _ ha hf hl, hfind, hnone]
  rfl

end Ext
end Taken

/-- Settles O51: each command by what the tables hold of its address, over what a posted result leaves of them; a write of a pending bit is
one bit of the state. -/
theorem childTablesAndPendingBits : Obligations.ChildTablesAndPendingBits := by
  refine fun by_ tag val s ha => ⟨fun hf hl => ⟨fun h => ?_, fun k hlt hk => ⟨?_, ?_⟩, fun k hlt hnew hk => ?_, fun hlt hnew hfull => ?_,
    fun hnew => ?_, fun k hk => ⟨?_, ?_⟩, fun k hnew hk => ?_, fun hnew hfull => ?_, fun hnew => ?_, ?_⟩, fun hf hl c hc => ?_,
    fun hext hout => ?_, fun hf => ?_, congrArg _ (State.onWrite_accepts _ ha), fun n hn hin => ?_⟩
  · exact exec_child_refused (exec_childAddShort_invalid ha hf hl h)
  · exact exec_child_refused (exec_childAddShort_inUse ha hf hl hlt hk)
  · refine ⟨_, exec_childDelShort_deletes ha hf hl hk, State.childPost_posted .., ?_, ?_⟩
    · rw [State.newtShort_childPost, State.newtShort_shortDeleted]
    · rw [State.newtPend_childPost, State.newtPend_shortDeleted]
  · refine ⟨_, exec_childAddShort_adds ha hf hl hlt hnew hk, State.childPost_posted .., ?_, ?_, fun j hj => ?_⟩
    · rw [State.newtShort_childPost, State.newtShort_shortAdded_self]
    · rw [State.newtPend_childPost, State.newtPend_shortAdded]
    · rw [State.newtShort_childPost, State.newtShort_shortAdded_ne _ _ hj]
  · exact exec_child_refused (exec_childAddShort_full ha hf hl hlt hnew hfull)
  · exact exec_child_refused (exec_childDelShort_notFound ha hf hl hnew)
  · exact exec_child_refused (exec_childAddExt_inUse ha hf hl hk)
  · refine ⟨_, exec_childDelExt_deletes ha hf hl hk, State.childPost_posted .., ?_, ?_⟩
    · rw [State.newtExtEntry_childPost, State.newtExtEntry_extDeleted]
    · rw [State.newtPend_childPost, State.newtPend_extDeleted]
  · refine ⟨_, exec_childAddExt_adds ha hf hl hnew hk, State.childPost_posted .., ?_, ?_⟩
    · rw [State.newtExtEntry_childPost, State.newtExtEntry_extAdded]
    · rw [State.newtPend_childPost, State.newtPend_extAdded]
  · exact exec_child_refused (exec_childAddExt_full ha hf hl hnew hfull)
  · exact exec_child_refused (exec_childDelExt_notFound ha hf hl hnew)
  · exact exec_child_refused (exec_childIllegalOp ha hf hl)
  · obtain ⟨f, hrun⟩ := exec_childCmds hc s
    rw [hrun, State.childCmd_draining f ha hf hl, State.childPost, Nat.zero_mul, Nat.add_zero]
  · exact ⟨congrArg _ (State.pendWrite_beyond ha hext hout), congrArg _ (State.pendWrite_beyond ha hext hout)⟩
  · exact ⟨congrArg _ (State.childCmd_dropped _ ha hf), congrArg _ (State.childCmd_dropped _ ha hf),
      congrArg _ (State.childCmd_dropped _ ha hf), congrArg _ (State.childCmd_dropped _ ha hf),
      congrArg _ (State.childCmd_dropped _ ha hf)⟩
  · exact ⟨⟨_, exec_pendSet_indexed ha hn hin, State.newtPend_setNewtPend_self .., State.newt_setNewtPend ..⟩,
      ⟨_, exec_pendClr_indexed ha hn hin, State.newtPend_setNewtPend_self .., State.newt_setNewtPend ..⟩⟩

end Sys2Proof.Machine
end

section
/-! Commands of the forwarding table, the control ring and frames enqueued by software (R293, R298, R305). -/

namespace Sys2Proof.Machine

open Reg

variable {s : State} {by_ : Req} {tag : Tag}

/-! The path of forwarding commands (R305). -/

/-- The node that a forwarding command is about. -/
def State.fwdNode (s : State) : Nat := s.rf CLASS.FWD_ARG0 15 0

/-- A forwarding command is about a node: neither none nor every one. -/
def State.FwdNamed (s : State) : Prop := s.fwdNode ≠ 0 ∧ s.fwdNode ≠ 0xFFFF

/-- The next hops that FWD_ARG1 gives exist, ALT where ALT_EN is 1 (log entry 29). -/
def State.fwdHops (s : State) : Bool :=
  let a := s.rd CLASS.FWD_ARG1
  s.nhOk (fld a 5 0) && (!bit a 14 || s.nhOk (fld a 13 8))

/-- A forwarding command that acts on no entry posts its code; the index is a free value (log entry 5). -/
def State.fwdRefused (s : State) (tag : Tag) (code : Nat) : State := (s.fwdPost tag code (s.free 10)).took

/-- A forwarding command is INVALID: it is about no node, or a next hop that it needs does not exist. -/
def State.FwdInvalid (s : State) (hops : Bool) : Prop := ¬ s.FwdNamed ∨ hops = true ∧ s.fwdHops = false

/-- The test of INVALID, as the command makes it. -/
theorem State.fwdInvalid_iff {hops : Bool} : (s.rf CLASS.FWD_ARG0 15 0 = 0 || s.rf CLASS.FWD_ARG0 15 0 = 0xFFFF ||
    (hops && (!s.nhOk (fld (s.rd CLASS.FWD_ARG1) 5 0) ||
      (bit (s.rd CLASS.FWD_ARG1) 14 && !s.nhOk (fld (s.rd CLASS.FWD_ARG1) 13 8))))) = true ↔ s.FwdInvalid hops := by
  simp only [State.FwdInvalid, State.FwdNamed, State.fwdNode, State.fwdHops, Bool.or_eq_true, Bool.and_eq_true, decide_eq_true_eq,
    Bool.and_eq_false_iff, Bool.or_eq_false_iff, Bool.not_eq_true', Bool.not_eq_false', ne_eq, Classical.not_and_iff_not_or_not,
    Decidable.not_not]

theorem State.not_fwdInvalid {hops : Bool} (hn : s.FwdNamed) (hh : hops = true → s.fwdHops = true) : ¬ s.FwdInvalid hops := by
  rintro (h | ⟨h, hbad⟩)
  · exact h hn
  · exact absurd (hh h) (by rw [hbad]; decide)

section Command
variable {hops : Bool} {f : State → Nat → Option Nat → Word → State × Nat × Option Nat} (ha : s.accepts by_ 9 = true)
include ha

theorem State.fwdCmd_dropped (hf : s.pathFree CLASS.FWD_RESULT = false) : s.fwdCmd by_ tag hops f = s.reqDrop 9 := by
  rw [State.fwdCmd, State.onWrite_accepts _ ha, if_pos (by rw [hf]; rfl)]

variable (hf : s.pathFree CLASS.FWD_RESULT = true)
include hf

theorem State.fwdCmd_invalid (hbad : s.FwdInvalid hops) : s.fwdCmd by_ tag hops f = s.fwdRefused tag 4 := by
  rw [State.fwdCmd, State.onWrite_accepts _ ha, if_neg (by rw [hf]; decide)]
  simp only [if_pos (State.fwdInvalid_iff.mpr hbad)]
  rfl

variable (hok : ¬ s.FwdInvalid hops) {code : Nat}
include hok

theorem State.fwdCmd_acts {u : State} {i : Nat}
    (hr : f s s.fwdNode (s.fwdFind s.fwdNode) (s.rd CLASS.FWD_ARG1) = (u, code, some i)) :
    s.fwdCmd by_ tag hops f = u.fwdPost tag code i := by
  rw [State.fwdNode] at hr
  rw [State.fwdCmd, State.onWrite_accepts _ ha, if_neg (by rw [hf]; decide)]
  simp only [if_neg (mt State.fwdInvalid_iff.mp hok), hr]

theorem State.fwdCmd_refuses (hr : f s s.fwdNode (s.fwdFind s.fwdNode) (s.rd CLASS.FWD_ARG1) = (s, code, none)) :
    s.fwdCmd by_ tag hops f = s.fwdRefused tag code := by
  rw [State.fwdNode] at hr
  rw [State.fwdCmd, State.onWrite_accepts _ ha, if_neg (by rw [hf]; decide)]
  simp only [if_neg (mt State.fwdInvalid_iff.mp hok), hr]
  rfl

end Command

/-! What a command that succeeds leaves of the table (R305). -/

/-- An entry comes to lead to the node. -/
def State.fwdInstalled (s : State) (d : Nat) : State :=
  ((s.wr (CLASS.FWD_W0 d) (wd (2 ^ 31 + s.fwdNode))).wr (CLASS.FWD_W1 d) (s.rd CLASS.FWD_ARG1)).wf CLASS.FWD_COUNT 10 0
    (s.rf CLASS.FWD_COUNT 10 0 + 1)

/-- An entry is cleared. -/
def State.fwdRemoved (s : State) (d : Nat) : State :=
  ((s.wr (CLASS.FWD_W0 d) 0).wr (CLASS.FWD_W1 d) 0).wf CLASS.FWD_COUNT 10 0 (s.rf CLASS.FWD_COUNT 10 0 - 1)

/-- The lowest entry of the table that is free. -/
def State.fwdFree (s : State) : Option Nat := (List.range 1024).find? fun d => !s.rbit (CLASS.FWD_W0 d) 31

/-! Commands taken, by what the table holds of the node (R305). -/

section Taken
variable {d : Nat} (ha : s.accepts by_ 9 = true) (hf : s.pathFree CLASS.FWD_RESULT = true)
include ha hf

section Unhopped
variable (hok : ¬ s.FwdInvalid false)
include hok

theorem exec_fwdLookup_names (he : s.fwdFind s.fwdNode = some d) : exec (.fwdLookup by_ tag) s = .next (s.fwdPost tag 0 d) :=
  congrArg _ (State.fwdCmd_acts ha hf hok (by rw [he]))
theorem exec_fwdLookup_notFound (he : s.fwdFind s.fwdNode = none) : exec (.fwdLookup by_ tag) s = .next (s.fwdRefused tag 3) :=
  congrArg _ (State.fwdCmd_refuses ha hf hok (by rw [he]))
theorem exec_fwdRemove_removes (he : s.fwdFind s.fwdNode = some d) :
    exec (.fwdRemove by_ tag) s = .next ((s.fwdRemoved d).fwdPost tag 0 d) :=
  congrArg _ (State.fwdCmd_acts ha hf hok (by rw [he]; rfl))
theorem exec_fwdRemove_notFound (he : s.fwdFind s.fwdNode = none) : exec (.fwdRemove by_ tag) s = .next (s.fwdRefused tag 3) :=
  congrArg _ (State.fwdCmd_refuses ha hf hok (by rw [he]))

end Unhopped

section Hopped
variable (hok : ¬ s.FwdInvalid true)
include hok

theorem exec_fwdSet_sets (he : s.fwdFind s.fwdNode = some d) :
    exec (.fwdSet by_ tag) s = .next ((s.wr (CLASS.FWD_W1 d) (s.rd CLASS.FWD_ARG1)).fwdPost tag 0 d) :=
  congrArg _ (State.fwdCmd_acts ha hf hok (by rw [he]))
theorem exec_fwdSet_notFound (he : s.fwdFind s.fwdNode = none) : exec (.fwdSet by_ tag) s = .next (s.fwdRefused tag 3) :=
  congrArg _ (State.fwdCmd_refuses ha hf hok (by rw [he]))
theorem exec_fwdInstall_inUse (he : s.fwdFind s.fwdNode = some d) : exec (.fwdInstall by_ tag) s = .next (s.fwdRefused tag 2) :=
  congrArg _ (State.fwdCmd_refuses ha hf hok (by rw [he]))

variable (he : s.fwdFind s.fwdNode = none)
include he

theorem exec_fwdInstall_full (hfree : s.fwdFree = none) :
    exec (.fwdInstall by_ tag) s = .next ((s.evt 9 28).fwdPost tag 1 0) := by
  rw [State.fwdFree] at hfree
  exact congrArg _ (State.fwdCmd_acts ha hf hok (by simp only [he, hfree]))
theorem exec_fwdInstall_installs (hfree : s.fwdFree = some d) :
    exec (.fwdInstall by_ tag) s = .next ((s.fwdInstalled d).fwdPost tag 0 d) := by
  rw [State.fwdFree] at hfree
  exact congrArg _ (State.fwdCmd_acts ha hf hok (by simp only [he, hfree]; rfl))

end Hopped
end Taken

theorem exec_fabEnq_joins (ha : s.accepts by_ 9 = true) (hon : s.fabOn = true) (val : Word) : exec (.fabEnq by_ val) s =
    .next (s.modFab fun x => { x with inQ := x.inQ ++ [⟨.enq, 64 * fld val 26 0⟩] }) :=
  congrArg _ ((State.onWrite_accepts _ ha).trans (if_pos hon))

/-- Settles O42: each command by its node, its next hops and what the table holds of the node. -/
theorem forwardingTableCommands : Obligations.ForwardingTableCommands := by
  intro by_ tag val s ha res node a hops named refused
  refine ⟨fun hf hn => ?_, fun hf hn => ?_, fun hf hbad => ?_, fun hf => ?_, congrArg _ (State.onWrite_accepts _ ha),
    congrArg _ (State.onWrite_accepts _ ha), fun hon => exec_fabEnq_joins ha hon val⟩
  · have hok : ¬ s.FwdInvalid false := State.not_fwdInvalid hn Bool.noConfusion
    have hhop (hh : hops = true) : ¬ s.FwdInvalid true := State.not_fwdInvalid hn fun _ => hh
    refine ⟨fun d he => ⟨fun hh => ?_, fun hh => ?_, ?_, ?_⟩, fun he => ⟨?_, ?_, fun hh => ?_, fun hh hfree => ?_, fun hh d hfree => ?_⟩⟩
    · exact exec_fwdSet_sets ha hf (hhop hh) he
    · exact exec_fwdInstall_inUse ha hf (hhop hh) he
    · exact exec_fwdLookup_names ha hf hok he
    · exact exec_fwdRemove_removes ha hf hok he
    · exact exec_fwdLookup_notFound ha hf hok he
    · exact exec_fwdRemove_notFound ha hf hok he
    · exact exec_fwdSet_notFound ha hf (hhop hh) he
    · exact exec_fwdInstall_full ha hf (hhop hh) he hfree
    · exact exec_fwdInstall_installs ha hf (hhop hh) he hfree
  · have hbad : s.FwdInvalid false := .inl hn
    exact ⟨congrArg _ (State.fwdCmd_invalid ha hf hbad), congrArg _ (State.fwdCmd_invalid ha hf hbad)⟩
  · have hbad : s.FwdInvalid true := hbad.imp_right fun h => ⟨rfl, h⟩
    exact ⟨congrArg _ (State.fwdCmd_invalid ha hf hbad), congrArg _ (State.fwdCmd_invalid ha hf hbad)⟩
  · exact ⟨congrArg _ (State.fwdCmd_dropped ha hf), congrArg _ (State.fwdCmd_dropped ha hf), congrArg _ (State.fwdCmd_dropped ha hf),
      congrArg _ (State.fwdCmd_dropped ha hf)⟩

end Sys2Proof.Machine
end

section
/-! The fabric's events: frames and statuses, beacons and misses, dozing, epochs and windows (R292 to R304). -/

namespace Sys2Proof.Machine

open Reg

variable {s : State}

theorem exec_fabFrameArrive_eq (s : State) : exec .fabFrameArrive s = execFabFrameArrive s := rfl
theorem exec_fabTxStatus_eq (s : State) : exec .fabTxStatus s = execFabTxStatus s := rfl
theorem exec_fabBeaconTimer_eq (s : State) : exec .fabBeaconTimer s = execFabBeaconTimer s := rfl
theorem exec_fabBeaconMiss_eq (n : Fin 64) (s : State) : exec (.fabBeaconMiss n) s = execFabBeaconMiss n s := rfl
theorem exec_fabEpochStart_eq (s : State) : exec .fabEpochStart s = execFabEpochStart s := rfl
theorem exec_fabWindowEnd_eq (s : State) : exec .fabWindowEnd s = execFabWindowEnd s := rfl
theorem exec_fabWindowStart_eq (s : State) : exec .fabWindowStart s = execFabWindowStart s := rfl

/-! Frames that wait and statuses (R293, R296). -/

section Waiting
variable (hl : s.life 9 = .ready)
include hl

theorem exec_fabFrameArrive_takes {f : FabIn} {l : List FabIn} (hq : s.fabric.inQ = f :: l) :
    exec .fabFrameArrive s = .next (((s.modFab fun x => { x with inQ := l }).fabTakeIn f).fabKick) := by
  simp [exec_fabFrameArrive_eq, execFabFrameArrive, State.live_of_ready hl, hq]
theorem exec_fabFrameArrive_empty (hq : s.fabric.inQ = []) : exec .fabFrameArrive s = .next s.fabKick := by
  simp [exec_fabFrameArrive_eq, execFabFrameArrive, State.live_of_ready hl, hq]

/-- A status goes by whether its frames were acknowledged. -/
theorem exec_fabTxStatus {n : Nat} {frames : List (Nat × Nat)} {acked : Bool} {l : List (Nat × List (Nat × Nat) × Bool)}
    (hd : s.fabric.done = (n, frames, acked) :: l) :
    let s1 := s.modFab fun x => { x with done := l, unfin := tput (fun _ => 0) x.unfin n (tget (fun _ => 0) x.unfin n - 1) }
    exec .fabTxStatus s = .next ((if acked then frames.foldl (fun u f => u.freeDesc 6 f.1) s1
      else frames.reverse.foldl (fun u f => u.fabResend f) s1).fabKick) := by
  simp [exec_fabTxStatus_eq, execFabTxStatus, State.live_of_ready hl, hd]

end Waiting

/-! Beacons sent (R292). -/

/-- The last beacon millisecond that the count has reached. -/
def State.beaconDue (s : State) : Nat :=
  let c := s.rd CLASS.FAB_BCN
  s.ns / 1000000 - (s.ns / 1000000 + fld c 31 16 - fld c 15 8 % max 1 (fld c 31 16)) % max 1 (fld c 31 16)

/-- The first millisecond whose beacons the timer may send: the present one, or the one after the last before a step. -/
def State.beaconFrom (s : State) : Nat :=
  match s.fabric.passed with
  | some p => p + 1
  | none => s.ns / 1000000

/-- A beacon millisecond has come whose beacons were not sent. -/
def State.beaconGoes (s : State) : Bool :=
  let c := s.rd CLASS.FAB_BCN
  fld c 31 16 != 0 && fld c 15 8 % max 1 (fld c 31 16) ≤ s.ns / 1000000 && s.beaconFrom ≤ s.beaconDue && s.fabric.bcnMs ≤ s.beaconDue

theorem State.beaconGoes_iff : s.beaconGoes = true ↔ fld (s.rd CLASS.FAB_BCN) 31 16 ≠ 0 ∧
    fld (s.rd CLASS.FAB_BCN) 15 8 % max 1 (fld (s.rd CLASS.FAB_BCN) 31 16) ≤ s.ns / 1000000 ∧
    s.beaconFrom ≤ s.beaconDue ∧ s.fabric.bcnMs ≤ s.beaconDue := by
  simp only [State.beaconGoes, Bool.and_eq_true, bne_iff_ne, decide_eq_true_eq, and_assoc]

/-- Beacons go out on the radios named that do not doze and on the lanes named. -/
def State.beaconsSent (s : State) (c : Word) : State :=
  [0, 1, 2, 3].foldl (fun u l => if bit c (4 + l) then u.beacon (4 + l) else u)
    ([0, 1, 2].foldl (fun u r => if bit c r && !u.dozes r then u.beacon r else u) s)

/-- Dozing radios send the beacons of rendezvous windows that begin. -/
def State.rdvBeacons (s : State) : State := [0, 1, 2].foldl (fun u r => u.rdvBeacon r) s

/-- The beacons of every millisecond up to now are sent or past. -/
def State.beaconsPast (s : State) (ms : Nat) : State := s.modFab fun x => { x with bcnMs := ms + 1, passed := none }

section Beacon
variable (hl : s.life 9 = .ready) (hon : s.fabOn = true) (hdesc : s.rbit CLASS.FAB_BCN_DESC 31 = true)
include hl hon hdesc

/-- The timer sends the beacons of rendezvous windows, and those of a beacon millisecond where one goes. -/
theorem exec_fabBeaconTimer : exec .fabBeaconTimer s = .next (
    ((if s.beaconGoes then s.rdvBeacons.beaconsSent (s.rd CLASS.FAB_BCN) else s.rdvBeacons).beaconsPast (s.ns / 1000000)).fabKick) := by
  have hserves : ¬ (s.life 9 != .ready || !s.fabOn || !s.rbit CLASS.FAB_BCN_DESC 31) = true := by simp [hl, hon, hdesc]
  simp only [exec_fabBeaconTimer_eq, execFabBeaconTimer, if_neg hserves]
  unfold State.beaconsPast State.beaconsSent State.rdvBeacons State.beaconGoes State.beaconDue State.beaconFrom
  rfl

end Beacon

/-! Misses (R297, R301). -/

section Miss
variable {n : Fin 64} {h : Nat} (hl : s.life 9 = .ready)
  (hmon : s.nhMon n.val = true) (hup : s.rbit (CLASS.NH_W3 n.val) 31 = true) (hm : s.rf (CLASS.NH_W3 n.val) 29 28 ≠ 3)
include hl hmon hup hm

/-- The guards of a miss's judgement are open: CLASS is READY and the next hop monitored, up and short of three misses. -/
theorem State.beaconMiss_judged : ¬ (s.life 9 != .ready || !s.nhMon n.val || !bit (s.rd (CLASS.NH_W3 n.val)) 31 ||
    fld (s.rd (CLASS.NH_W3 n.val)) 29 28 = 3) = true := by
  rw [State.rbit] at hup
  rw [State.rf] at hm
  simp [hl, hmon, hup, hm]

variable (hh : tget (fun _ => none) s.fabric.heardAt n.val = some h)
include hh

/-- A next hop whose radio does not doze misses a beacon after one and a half intervals and one more for each miss before. -/
theorem exec_fabBeaconMiss_late (hw : s.nhWire n.val = true ∨ s.dozes (s.nhRadio n.val) = false) (hi : s.rf CLASS.FAB_BCN 31 16 ≠ 0)
    (ht : h + (2 * s.rf (CLASS.NH_W3 n.val) 29 28 + 3) * s.rf CLASS.FAB_BCN 31 16 * 500000 ≤ s.ns) :
    exec (.fabBeaconMiss n) s = .next ((s.nhMiss n.val false).fabKick) := by
  have hawake : ¬ (!s.nhWire n.val && s.dozes (s.nhRadio n.val)) = true := by
    rcases hw with hw | hw <;> simp [hw]
  simp only [exec_fabBeaconMiss_eq, execFabBeaconMiss, hh, if_neg (State.beaconMiss_judged hl hmon hup hm), if_neg hawake]
  exact congrArg _ (if_pos (by rw [Bool.and_eq_true, bne_iff_ne, decide_eq_true_eq]; exact ⟨hi, ht⟩))

/-- A next hop on a dozing radio misses a beacon in a rendezvous window that ended unheard. -/
theorem exec_fabBeaconMiss_unheard (hw : s.nhWire n.val = false) (hd : s.dozes (s.nhRadio n.val) = true) :
    let d := s.rdv (s.nhRadio n.val)
    let past := d.2.1 + d.2.2.1 + d.2.2.2
    let k := (s.ns - past) / max 1 d.1
    past ≤ s.ns → tget (fun _ => 0) s.fabric.judged n.val ≤ k → h + d.2.2.2 < k * d.1 + d.2.1 →
    exec (.fabBeaconMiss n) s = .next
      (((s.modFab fun x => { x with judged := tput (fun _ => 0) x.judged n.val (k + 1) }).nhMiss n.val true).fabKick) := by
  intro d past k hpast hjudged hunheard
  have hdoze : (!s.nhWire n.val && s.dozes (s.nhRadio n.val)) = true := by simp [hw, hd]
  have hended : ¬ (s.ns < past || k + 1 ≤ tget (fun _ => 0) s.fabric.judged n.val || k * d.1 + d.2.1 < h) = true := by
    simp only [Bool.or_eq_true, decide_eq_true_eq]
    omega
  simp only [exec_fabBeaconMiss_eq, execFabBeaconMiss, hh, if_neg (State.beaconMiss_judged hl hmon hup hm), if_pos hdoze]
  exact congrArg _ ((if_neg hended).trans (if_neg (Nat.not_le.mpr hunheard)))

end Miss

/-! Dozing (R300). -/

theorem exec_dozeWake {r : Fin 3} (hd : s.dozing r.val = true) (hw : s.mustWake r.val = true) :
    let s1 := s.wf (CLASS.DOZE_W3 r.val) 31 31 0
    exec (.dozeWake r) s = .next ((s1.setTxq r.val 4 (s1.txq r.val 4)).rdvBeacon r.val) :=
  congrArg _ (if_neg (by simp [hd, hw]))

theorem exec_dozeSleep {r : Fin 3} (hl : s.life 9 = .ready) (hd : s.dozing r.val = false) (hw : s.mustWake r.val = false)
    (htx : (s.radio r.val).tx = none) (hresp : (s.radio r.val).resp.phase = .none) (hsel : (s.radio r.val).selected = none)
    (hawait : (s.radio r.val).mac.await = none) :
    exec (.dozeSleep r) s = .next ((s.wf (CLASS.DOZE_W3 r.val) 31 31 1).rxenChanged r.val) :=
  congrArg _ (if_neg (by simp [hd, hw, State.live_of_ready hl, htx, hresp, hsel, hawait]))

/-! The schedule (R303, R304). -/

/-- The slots of the armed schedule of `s` become those in force. -/
def State.slotsSwitched (u s : State) : State :=
  (List.range 16).foldl (fun (v : State) i => v.wr (CLASS.SLOT_CUR i) (s.rd (CLASS.SLOT_NEXT i))) u

theorem slotNext_ne_slotCur {i : Nat} (hi : i < 16) (j : Nat) : CLASS.SLOT_NEXT j ≠ CLASS.SLOT_CUR i := by
  change (0x9008640 + 4 * j : Nat) ≠ 0x9008600 + 4 * i
  omega
theorem slotNext_ne_fabEpoch (j : Nat) : CLASS.SLOT_NEXT j ≠ CLASS.FAB_EPOCH := by
  change (0x9008640 + 4 * j : Nat) ≠ 0x9008024
  omega

/-- Copying the slots one after the other copies what SLOT_NEXT held before the first copy: no SLOT_CUR is a SLOT_NEXT. -/
theorem State.foldl_slotCopy (l : List Nat) (hl : ∀ i ∈ l, i < 16) {u : State}
    (h : ∀ i, u.rd (CLASS.SLOT_NEXT i) = s.rd (CLASS.SLOT_NEXT i)) :
    l.foldl (fun (v : State) i => v.wr (CLASS.SLOT_CUR i) (v.rd (CLASS.SLOT_NEXT i))) u =
      l.foldl (fun (v : State) i => v.wr (CLASS.SLOT_CUR i) (s.rd (CLASS.SLOT_NEXT i))) u := by
  induction l generalizing u with
  | nil => rfl
  | cons i l ih =>
    rw [List.foldl_cons, List.foldl_cons, h i]
    refine ih (fun j hj => hl j (List.mem_cons_of_mem i hj)) fun j => ?_
    rw [State.rd_wr_ne _ _ (slotNext_ne_slotCur (hl i List.mem_cons_self) j), h j]

/-- The epoch that the count gives has begun: FAB_EPOCH shows it, and no window is in force. -/
def State.epochBegun (s : State) : State :=
  (s.wr CLASS.FAB_EPOCH (wd (s.ns / 1024000))).modFab fun x => { x with epoch := s.ns / 1024000 + 1, win := none }

theorem State.rd_epochBegun (s : State) (j : Nat) : s.epochBegun.rd (CLASS.SLOT_NEXT j) = s.rd (CLASS.SLOT_NEXT j) :=
  State.rd_wr_ne s _ (slotNext_ne_fabEpoch j)

/-- The armed schedule's epoch has come. -/
def State.switchDue (s : State) : Bool :=
  let ahead := (s.rd CLASS.FAB_SW_EPOCH - wd (s.ns / 1024000)).toNat
  s.fabric.armed && (ahead = 0 || 2 ^ 31 ≤ ahead)

theorem State.switchDue_iff : s.switchDue = true ↔ s.fabric.armed = true ∧
    ((s.rd CLASS.FAB_SW_EPOCH - wd (s.ns / 1024000)).toNat = 0 ∨
      2 ^ 31 ≤ (s.rd CLASS.FAB_SW_EPOCH - wd (s.ns / 1024000)).toNat) := by
  simp only [State.switchDue, Bool.and_eq_true, Bool.or_eq_true, decide_eq_true_eq]

section Schedule
variable (hl : s.life 9 = .ready)
include hl

/-- An epoch begins once, with the armed schedule where its epoch has come. -/
theorem exec_fabEpochStart (he : s.fabric.epoch ≠ s.ns / 1024000 + 1) : exec .fabEpochStart s = .next (
    (if s.switchDue then ((s.epochBegun.slotsSwitched s).modFab fun x => { x with armed := false }).evt 9 29
      else s.epochBegun).fabKick) := by
  have hcopy : s.epochBegun.slotsSwitched s =
      (List.range 16).foldl (fun (v : State) i => v.wr (CLASS.SLOT_CUR i) (v.rd (CLASS.SLOT_NEXT i))) s.epochBegun :=
    (State.foldl_slotCopy _ (fun i => List.mem_range.mp) s.rd_epochBegun).symm
  have hnew : ¬ (!s.live 9 || s.fabric.epoch = s.ns / 1024000 + 1) = true := by simp [State.live_of_ready hl, he]
  rw [hcopy]
  simp only [exec_fabEpochStart_eq, execFabEpochStart, if_neg hnew]
  unfold State.switchDue State.epochBegun
  rfl

theorem exec_fabWindowStart {w : Nat} (hnow : s.windowNow = some w) (hw : s.fabric.win ≠ some w) :
    exec .fabWindowStart s = .next ((s.modFab fun x => { x with win := some w }).fabKick) := by
  simp [exec_fabWindowStart_eq, execFabWindowStart, hnow, State.live_of_ready hl, hw]

theorem exec_fabWindowEnd {w : Nat} (hw : s.fabric.win = some w) (hnow : s.windowNow ≠ some w) :
    exec .fabWindowEnd s = .next ((s.modFab fun x => { x with win := s.windowNow }).fabKick) := by
  simp [exec_fabWindowEnd_eq, execFabWindowEnd, State.live_of_ready hl, hw, hnow]

end Schedule

/-- Settles O43: one lemma for each event, over the guards that READY and the statement's hypotheses open. -/
theorem fabricEventsForward : Obligations.FabricEventsForward := by
  intro r nh s hl n w3
  refine ⟨fun f l hq => exec_fabFrameArrive_takes hl hq, fun hq => exec_fabFrameArrive_empty hl hq,
    fun m frames l hd => (exec_fabTxStatus hl hd).trans (by rw [if_pos rfl]),
    fun m frames l hd => (exec_fabTxStatus hl hd).trans (by rw [if_neg Bool.false_ne_true]), fun hon hdesc => ?_,
    fun h hh hmon hup hm => ⟨exec_fabBeaconMiss_late hl hmon hup hm hh, exec_fabBeaconMiss_unheard hl hmon hup hm hh⟩,
    exec_dozeWake, exec_dozeSleep hl, fun he => ?_, fun w => exec_fabWindowStart hl, fun w => exec_fabWindowEnd hl⟩
  · have htimer := exec_fabBeaconTimer hl hon hdesc
    refine ⟨fun hgoes => htimer.trans ?_, fun hgoes => htimer.trans ?_⟩
    · rw [if_pos (State.beaconGoes_iff.mpr hgoes)]
      rfl
    · rw [if_neg (mt State.beaconGoes_iff.mp hgoes)]
      rfl
  · have hstart := exec_fabEpochStart hl he
    refine ⟨fun hdue => hstart.trans ?_, fun hdue => hstart.trans ?_⟩
    · rw [if_neg (mt State.switchDue_iff.mp hdue)]
      rfl
    · rw [if_pos (State.switchDue_iff.mpr hdue)]
      rfl

end Sys2Proof.Machine
end

section
/-! Frames of the log and the error record: what they leave of the store's hidden state, of its bytes and of registers (R32, R464). -/

namespace Sys2Proof.Machine

open Reg

variable (s : State)

/-! A log record writes bytes from `logBase` on, two registers of MGMT and the count of records not persisted. -/

section Bytes
variable {β : Type} {g : State → β} {lo : Nat} (hb : ∀ u a v, lo ≤ a → g (u.wb a v) = g u)
include hb

theorem State.wm_frame {a : Nat} (ha : lo ≤ a) (n v : Nat) : g (s.wm a n v) = g s := by
  induction n generalizing s a v with
  | zero => rfl
  | succ n ih => rw [State.wm, ih _ (Nat.le_succ_of_le ha), hb _ _ _ ha]

theorem State.wwords_frame {a : Nat} (ha : lo ≤ a) (l : List Nat) : g (s.wwords a l) = g s := by
  induction l generalizing s a with
  | nil => rfl
  | cons w l ih => rw [State.wwords, ih _ (Nat.le_add_right_of_le ha), State.wm_frame s hb ha]

end Bytes

/-- What those writes leave alone a record leaves alone. -/
theorem State.logRec_frame {β : Type} (g : State → β) (hb : ∀ u a v, logBase ≤ a → g (u.wb a v) = g u)
    (hr : ∀ u a v, a = MGMT.LOG_WR ∨ a = MGMT.LOG_CNT → g (u.wr a v) = g u)
    (hn : ∀ (u : State) n, g { u with logUnpers := n } = g u) (t kind code d0 d1 d2 d3 : Nat) :
    g (s.logRec t kind code d0 d1 d2 d3) = g s := by
  unfold State.logRec
  extract_lets i a n s1 s2
  have h2 : g s2 = g s := (hr _ _ _ (.inl rfl)).trans (State.wwords_frame s hb (Nat.le_add_right ..) _)
  split
  · exact (hr _ _ _ (.inr rfl)).trans h2
  · exact (hn _ _).trans h2

/-- An error that is not fatal changes the tile's header, raises its event and appends a record. -/
theorem State.recordErr_frame {β : Type} (g : State → β) {t : Nat} (ht : ∀ u x, g (u.setTile t x) = g u)
    (he : ∀ u n, g (u.evt t n) = g u) (hl : ∀ u kind code d0 d1, g (u.logRec t kind code d0 d1 0 0) = g u)
    (cause unit detail addr : Nat) : g (s.recordErr t cause unit detail addr false) = g s := by
  unfold State.recordErr
  extract_lets x put s2 s1
  have h1 : g s1 = g s := by
    unfold s1
    split
    · rfl
    · split
      · exact ht ..
      · exact (hl ..).trans ((he ..).trans (ht ..))
  rwa [if_neg (by decide)]

/-! The store's hidden state. -/

@[simp] theorem State.store_setEvtWords (t : Nat) (p m : Word) : (s.setEvtWords t p m).store = s.store := by
  simp only [State.setEvtWords, State.sendEvt, State.sendMsix]
  (repeat' split) <;> rfl
@[simp] theorem State.store_evt (t n : Nat) : (s.evt t n).store = s.store := State.store_setEvtWords ..
@[simp] theorem State.store_recordErr (t cause unit detail addr : Nat) :
    (s.recordErr t cause unit detail addr false).store = s.store :=
  s.recordErr_frame (·.store) (fun _ _ => rfl) (fun _ _ => by simp)
    (fun u _ _ _ _ => u.logRec_frame (·.store) (fun _ _ _ _ => rfl) (fun _ _ _ _ => rfl) (fun _ _ => rfl) ..) ..
@[simp] theorem State.store_wf (a : RegId) (hi lo v : Nat) : (s.wf a hi lo v).store = s.store := rfl
@[simp] theorem State.store_sat (a : RegId) (hi lo n : Nat) : (s.sat a hi lo n).store = s.store := rfl
@[simp] theorem State.store_errLog (kind port addr : Nat) : (s.errLog kind port addr).store = s.store := by
  unfold State.errLog
  extract_lets n
  rw [State.wr_store, State.wr_store, State.wr_store]
@[simp] theorem State.store_freeErr (port addr : Nat) : (s.freeErr port addr).store = s.store := by
  rw [State.freeErr, State.store_evt, State.store_recordErr, State.store_sat, State.store_errLog]
@[simp] theorem State.store_earlyWrite (t : Nat) : (s.earlyWrite t).store = s.store := by
  unfold State.earlyWrite
  split <;> rfl
@[simp] theorem State.store_wbytes (a : Nat) (l : List Byte) : (s.wbytes a l).store = s.store := by
  induction l generalizing s a with
  | nil => rfl
  | cons b l ih => rw [State.wbytes, ih, State.wb_store]

/-! Bytes of the store, which lies below the log. -/

theorem State.rb_wb_log {a x : Nat} (v : Byte) (ha : logBase ≤ a) (hx : x < storeEnd) : (s.wb a v).rb x = s.rb x :=
  State.rb_wb_ne s v (by unfold logBase at ha; unfold storeEnd at hx; omega)
theorem State.rb_recordErr {x : Nat} (hx : x < storeEnd) (t cause unit detail addr : Nat) :
    (s.recordErr t cause unit detail addr false).rb x = s.rb x :=
  s.recordErr_frame (·.rb x) (fun _ _ => rfl) (fun _ _ => by simp) (fun u _ _ _ _ => u.logRec_frame (·.rb x)
    (fun u _ v ha => u.rb_wb_log v ha hx) (fun _ _ _ _ => rfl) (fun _ _ => rfl) ..) ..
@[simp] theorem State.rb_modStore (f : Store → Store) (a : Nat) : (s.modStore f).rb a = s.rb a := rfl
@[simp] theorem State.rb_setPool (p : Nat) (x : Pool) (a : Nat) : (s.setPool p x).rb a = s.rb a := rfl

/-! Registers of STORE, none of which the log writes. -/

@[simp] theorem State.rd_modStore (f : Store → Store) (a : RegId) : (s.modStore f).rd a = s.rd a := rfl
@[simp] theorem State.rd_setPool (p : Nat) (x : Pool) (a : RegId) : (s.setPool p x).rd a = s.rd a := rfl
@[simp] theorem State.rd_wbytes (a : Nat) (l : List Byte) (r : RegId) : (s.wbytes a l).rd r = s.rd r := by
  induction l generalizing s a with
  | nil => rfl
  | cons b l ih => rw [State.wbytes, ih, State.rd_wb]
theorem State.rd_recordErr {a : RegId} (hw : a ≠ MGMT.LOG_WR) (hc : a ≠ MGMT.LOG_CNT) (t cause unit detail addr : Nat) :
    (s.recordErr t cause unit detail addr false).rd a = s.rd a :=
  s.recordErr_frame (·.rd a) (fun _ _ => rfl) (fun _ _ => by simp) (fun u _ _ _ _ => u.logRec_frame (·.rd a)
    (fun _ _ _ _ => rfl) (fun u _ v h => u.rd_wr_ne v (by rintro rfl; exact h.elim hw hc)) (fun _ _ => rfl) ..) ..

end Sys2Proof.Machine
end

section
/-! Fields of words as the store's commands post and read them (R6). -/

namespace Sys2Proof.Machine

theorem fld_wd {n : Nat} (h : n < 2 ^ 32) (hi lo : Nat) : fld (wd n) hi lo = n / 2 ^ lo % 2 ^ (hi - lo + 1) := by
  rw [fld, wd, BitVec.toNat_ofNat, Nat.mod_eq_of_lt h, Nat.shiftRight_eq_div_pow]
theorem fld_lt (w : Word) (hi lo : Nat) : fld w hi lo < 2 ^ (hi - lo + 1) := Nat.mod_lt _ (Nat.two_pow_pos _)
/-- A bit below a field stays where the field is replaced. -/
theorem bit_putFld_below (w : Word) {hi lo n : Nat} (v : Nat) (hn : n < lo) : bit (putFld w hi lo v) n = bit w n := by
  have hout : ¬ lo ≤ n := Nat.not_le.mpr hn
  by_cases h32 : n < 32
  · simp only [bit, putFld, fmask, BitVec.getLsbD_or, BitVec.getLsbD_and, BitVec.getLsbD_not, BitVec.getLsbD_ofNat,
      Nat.testBit_mul_two_pow, Nat.testBit_two_pow_sub_one, Nat.testBit_mod_two_pow]
    simp [hout, h32]
  · rw [bit, bit, BitVec.getLsbD_of_ge _ _ (Nat.not_lt.mp h32), BitVec.getLsbD_of_ge _ _ (Nat.not_lt.mp h32)]

end Sys2Proof.Machine
end

section
/-! Commands of the pools and the end of INIT (R311). -/

namespace Sys2Proof.Machine

open Reg

variable {s : State} {by_ : Req} {tag : Tag} {pool : Fin 64}

theorem exec_poolInit_eq (by_ : Req) (pool : Fin 64) (tag : Tag) (s : State) :
    exec (.poolInit by_ pool tag) s = execPoolInit by_ pool tag s := rfl
theorem exec_poolDisable_eq (by_ : Req) (pool : Fin 64) (tag : Tag) (s : State) :
    exec (.poolDisable by_ pool tag) s = execPoolDisable by_ pool tag s := rfl
theorem exec_poolIllegalOp_eq (by_ : Req) (pool : Fin 64) (tag : Tag) (s : State) :
    exec (.poolIllegalOp by_ pool tag) s = execPoolIllegalOp by_ pool tag s := rfl
theorem exec_poolAck_eq (by_ : Req) (tag : Tag) (s : State) : exec (.poolAck by_ tag) s = execPoolAck by_ tag s := rfl
theorem exec_poolInitDone_eq (s : State) : exec .poolInitDone s = execPoolInitDone s := rfl

/-! What a posted result changes and what it says. -/

section Post
variable (s : State) (p : Nat) (tag : Tag) (code : Nat)

@[simp] theorem State.store_poolPost : (s.poolPost p tag code).store = s.store := by
  rw [State.poolPost, State.store_evt, State.pathPost, State.wr_store]
@[simp] theorem State.rb_poolPost (a : Nat) : (s.poolPost p tag code).rb a = s.rb a := by
  rw [State.poolPost, State.rb_evt, State.pathPost, State.rb_wr]
theorem State.rd_poolPost_ne {a : RegId} (h : a ≠ STORE.POOL_RESULT) : (s.poolPost p tag code).rd a = s.rd a := by
  rw [State.poolPost, State.rd_evt, State.pathPost, State.rd_wr_ne _ _ h]
theorem State.evtPend_poolPost : bit ((s.poolPost p tag code).tile 8).evtPend 16 = true := by
  simp [State.poolPost, bit, wd]

/-- DONE is code 0, in the result word's VALID, code and pool. -/
theorem State.poolPost_done (hp : p < 64) : (s.poolPost p tag 0).rbit STORE.POOL_RESULT 31 = true ∧
    (s.poolPost p tag 0).rf STORE.POOL_RESULT 29 27 = 0 ∧ (s.poolPost p tag 0).rf STORE.POOL_RESULT 13 8 = p := by
  have htag := tag.isLt
  have hrd : (s.poolPost p tag 0).rd STORE.POOL_RESULT = wd (2 ^ 31 + (p * 2 ^ 8 + tag.toNat)) := by
    rw [State.poolPost, State.rd_evt, State.rd_pathPost, Nat.zero_mul, Nat.zero_add, Nat.pow_zero, Nat.mul_one, Nat.add_assoc]
  refine ⟨?_, ?_, ?_⟩
  · rw [State.rbit, hrd, bit, wd, BitVec.getLsbD_ofNat, Nat.testBit_two_pow_add_eq, Nat.testBit_lt_two_pow (by omega)]
    rfl
  · rw [State.rf, hrd, fld_wd (by omega)]
    omega
  · rw [State.rf, hrd, fld_wd (by omega)]
    omega

end Post

/-! A command finds the path free or busy. -/

section Path
variable (ha : s.accepts by_ 8 = true)
include ha

theorem State.poolCmd_taken (hf : s.pathFree STORE.POOL_RESULT = true) (f : State → State) : s.poolCmd by_ f = f s := by
  simp [State.poolCmd, State.onWrite_accepts _ ha, hf]
theorem State.poolCmd_dropped (hf : s.pathFree STORE.POOL_RESULT = false) (f : State → State) : s.poolCmd by_ f = s.reqDrop 8 := by
  simp [State.poolCmd, State.onWrite_accepts _ ha, hf]

theorem exec_poolAck : exec (.poolAck by_ tag) s = .next (s.pathAck STORE.POOL_RESULT 0 tag) := by
  rw [exec_poolAck_eq, execPoolAck, State.onWrite_accepts _ ha]

section Taken
variable (hf : s.pathFree STORE.POOL_RESULT = true)
include hf

theorem exec_poolInit_refused {c : Nat} (hc : s.initRefusal pool.val = some c) :
    exec (.poolInit by_ pool tag) s = .next (s.poolPost pool.val tag c) := by
  simp only [exec_poolInit_eq, execPoolInit, State.poolCmd_taken ha hf, hc]
theorem exec_poolInit_begins (hc : s.initRefusal pool.val = none) : exec (.poolInit by_ pool tag) s =
    .next ((s.pathBusy STORE.POOL_RESULT 0 tag).modStore fun x => { x with initPool := some pool.val }) := by
  simp only [exec_poolInit_eq, execPoolInit, State.poolCmd_taken ha hf, hc]
theorem exec_poolDisable_inUse (ho : (s.pool pool.val).out ≠ 0) :
    exec (.poolDisable by_ pool tag) s = .next (s.poolPost pool.val tag 3) := by
  rw [exec_poolDisable_eq, execPoolDisable, State.poolCmd_taken ha hf, if_pos (bne_iff_ne.mpr ho)]
theorem exec_poolIllegalOp : exec (.poolIllegalOp by_ pool tag) s = .next (s.poolPost pool.val tag 4) := by
  rw [exec_poolIllegalOp_eq, execPoolIllegalOp, State.poolCmd_taken ha hf]

end Taken
end Path

/-! DISABLE of a pool without a unit out. -/

/-- The pool is off: no list, EN 0, FREE 0. -/
def State.poolOff (s : State) (p : Nat) : State :=
  ((s.setPool p {}).wr (STORE.POOL_W2 p) (putBit (s.rd (STORE.POOL_W2 p)) 31 false)).wr (STORE.POOL_W3 p) 0

theorem exec_poolDisable_off (ha : s.accepts by_ 8 = true) (hf : s.pathFree STORE.POOL_RESULT = true)
    (ho : (s.pool pool.val).out = 0) :
    exec (.poolDisable by_ pool tag) s = .next ((s.poolOff pool.val).poolPost pool.val tag 0) := by
  rw [exec_poolDisable_eq, execPoolDisable, State.poolCmd_taken ha hf, if_neg (by simp [ho])]
  rfl

/-- The words of a pool lie apart from each other and from the result. -/
theorem poolW2_ne_poolW3 (p q : Nat) : STORE.POOL_W2 p ≠ STORE.POOL_W3 q := by
  change (0x8001108 + 16 * p : Nat) ≠ 0x800110C + 16 * q
  omega
theorem poolW2_ne_result (p : Nat) : STORE.POOL_W2 p ≠ STORE.POOL_RESULT := by
  change (0x8001108 + 16 * p : Nat) ≠ 0x8001008
  omega
theorem poolW3_ne_result (p : Nat) : STORE.POOL_W3 p ≠ STORE.POOL_RESULT := by
  change (0x800110C + 16 * p : Nat) ≠ 0x8001008
  omega

@[simp] theorem State.pool_setPool_self (s : State) (p : Nat) (x : Pool) : (s.setPool p x).pool p = x := tget_tput_self ..
theorem State.pool_setPool_ne (s : State) {p q : Nat} (x : Pool) (h : q ≠ p) : (s.setPool p x).pool q = s.pool q :=
  tget_tput_ne _ _ _ h
@[simp] theorem State.pool_poolPost (s : State) (p : Nat) (tag : Tag) (code q : Nat) :
    (s.poolPost p tag code).pool q = s.pool q := by
  rw [State.pool, State.store_poolPost, State.pool]

theorem State.poolOff_posted (s : State) (p : Nat) (tag : Tag) : let u := (s.poolOff p).poolPost p tag 0
    u.poolEn p = false ∧ u.poolFree p = 0 ∧ u.pool p = {} := by
  refine ⟨?_, ?_, ?_⟩
  · rw [State.poolEn, State.rbit, State.rd_poolPost_ne _ _ _ _ (poolW2_ne_result p), State.poolOff,
      State.rd_wr_ne _ _ (poolW2_ne_poolW3 p p), State.rd_wr_self, bit_putBit_self _ _ (by decide)]
  · rw [State.poolFree, State.rf, State.rd_poolPost_ne _ _ _ _ (poolW3_ne_result p), State.poolOff, State.rd_wr_self]
    rfl
  · rw [State.pool_poolPost]
    exact s.pool_setPool_self p {}

/-! Runs of units: what a deletion leaves, and so what INIT lists. -/

/-- Each run is cut into what lies before the units deleted and what lies behind them. -/
theorem segMem_segDel (l : List (Nat × Nat)) (lo n k : Nat) :
    segMem (segDel l lo n) k = true ↔ segMem l k = true ∧ ¬ (lo ≤ k ∧ k < lo + n) := by
  have hrun : ∀ p : Nat × Nat,
      (∃ r ∈ [(p.1, min p.2 (lo - p.1)), (max p.1 (lo + n), p.1 + p.2 - max p.1 (lo + n))], r.2 ≠ 0 ∧ r.1 ≤ k ∧ k < r.1 + r.2) ↔
      (p.1 ≤ k ∧ k < p.1 + p.2) ∧ ¬ (lo ≤ k ∧ k < lo + n) := by
    intro p
    simp only [List.mem_cons, List.not_mem_nil, or_false, exists_eq_or_imp, exists_eq_left]
    omega
  simp only [segMem, segDel, List.any_eq_true, List.mem_filter, List.mem_flatMap, Bool.and_eq_true, decide_eq_true_eq, bne_iff_ne]
  constructor
  · rintro ⟨r, ⟨⟨p, hp, hr⟩, hne⟩, hk⟩
    obtain ⟨hin, hout⟩ := (hrun p).mp ⟨r, hr, hne, hk⟩
    exact ⟨⟨p, hp, hin⟩, hout⟩
  · rintro ⟨⟨p, hp, hin⟩, hout⟩
    obtain ⟨r, hr, hne, hk⟩ := (hrun p).mpr ⟨hin, hout⟩
    exact ⟨r, ⟨⟨p, hp, hr⟩, hne⟩, hk⟩

/-- A page holds eight blocks; INIT deletes those of each retired page in turn. -/
theorem segMem_foldl_segDel (retired : Tbl Bool) (l : List (Nat × Nat)) (k : Nat) :
    segMem (retired.foldl (fun l p => segDel l (8 * p.1) 8) l) k = true ↔ segMem l k = true ∧ ∀ e ∈ retired, e.1 ≠ k / 8 := by
  induction retired generalizing l with
  | nil => simp
  | cons p retired ih =>
    have hpage : (8 * p.1 ≤ k ∧ k < 8 * p.1 + 8) ↔ p.1 = k / 8 := by omega
    rw [List.foldl_cons, ih, segMem_segDel, hpage, List.forall_mem_cons, and_assoc]

theorem segMem_initRuns (retired : Tbl Bool) (b n k : Nat) :
    segMem (initRuns retired b n) k = true ↔ b ≤ k ∧ k < b + n ∧ ∀ e ∈ retired, e.1 ≠ k / 8 := by
  rw [initRuns, segMem_foldl_segDel, and_assoc.symm]
  simp [segMem]

/-! The end of INIT. -/

/-- The free list that INIT links: the pool's blocks, or the descriptors in them. -/
def State.initList (s : State) (p : Nat) : List (Nat × Nat) :=
  let runs := initRuns s.store.retired (s.poolBase p) (s.poolSize p)
  if s.poolDesc p then runs.map (fun r => (4 * r.1, 4 * r.2)) else runs

/-- The pool's blocks read FREE, generation 0 and not WRITTEN, and its free list is linked. -/
def State.poolLinked (s : State) (p : Nat) : State :=
  let b := s.poolBase p
  let n := s.poolSize p
  (s.modStore fun x => { x with
    initPool := none, gen := tclear x.gen b n, written := tclear x.written b n, chkBad := tclear x.chkBad b n,
    metaBad := tclear x.metaBad b n, free := segAdd x.free (4 * b) (4 * n) }).setPool p { list := s.initList p }

/-- FREE counts the list and EN sets. -/
def State.poolOn (s : State) (p : Nat) : State :=
  let u := (s.poolLinked p).wr (STORE.POOL_W3 p) (wd (((s.initList p).map (·.2)).sum))
  u.wr (STORE.POOL_W2 p) (putBit (u.rd (STORE.POOL_W2 p)) 31 true)

theorem exec_poolInitDone {p : Nat} (hi : s.store.initPool = some p) (hup : s.storeUp = true) :
    exec .poolInitDone s = .next ((s.poolOn p).poolPost p (s.pathTag STORE.POOL_RESULT 0) 0) := by
  simp only [exec_poolInitDone_eq, execPoolInitDone, hi, hup]
  rfl

theorem State.rd_poolOn_w2 (s : State) (p : Nat) :
    (s.poolOn p).rd (STORE.POOL_W2 p) = putBit (s.rd (STORE.POOL_W2 p)) 31 true := by
  unfold State.poolOn
  extract_lets u
  rw [State.rd_wr_self, State.rd_wr_ne _ _ (poolW2_ne_poolW3 p p)]
  rfl
theorem State.rd_poolOn_w3 (s : State) (p : Nat) :
    (s.poolOn p).rd (STORE.POOL_W3 p) = wd (((s.initList p).map (·.2)).sum) := by
  unfold State.poolOn
  extract_lets u
  rw [State.rd_wr_ne _ _ (poolW2_ne_poolW3 p p).symm, State.rd_wr_self]

/-- Every block of the range is reset and no other block's generation moves. -/
theorem State.metadata_poolOn (s : State) (p : Nat) :
    (∀ k, s.poolBase p ≤ k → k < s.poolBase p + s.poolSize p →
      tget (fun _ => 0) (s.poolOn p).store.gen k = 0 ∧ tflag (s.poolOn p).store.written k = false) ∧
    (∀ k, k < s.poolBase p ∨ s.poolBase p + s.poolSize p ≤ k →
      tget (fun _ => 0) (s.poolOn p).store.gen k = tget (fun _ => 0) s.store.gen k) := by
  refine ⟨fun k hlo hhi => ⟨?_, ?_⟩, fun k hout => ?_⟩
  · exact (tget_tclear ..).trans (if_pos ⟨hlo, hhi⟩)
  · exact (tget_tclear ..).trans (if_pos ⟨hlo, hhi⟩)
  · exact (tget_tclear ..).trans (if_neg (by omega))

/-- Settles O17: a command by the path and by what it is refused for; the end of INIT by the state `State.poolOn`, whose list holds what
the deletions of the retired pages leave. -/
theorem poolCommandsPostResults : Obligations.PoolCommandsPostResults := by
  refine ⟨fun by_ pool tag s ha => ⟨fun hf => ⟨fun c => exec_poolInit_refused ha hf, fun hc => ?_, exec_poolDisable_inUse ha hf,
    fun ho => ?_, exec_poolIllegalOp ha hf⟩, fun hf => ?_, fun hv ht => ?_, fun ht => ?_⟩, fun p s hp hi hup => ?_⟩
  · refine ⟨_, exec_poolInit_begins ha hf hc, rfl, ?_, fun a hne => ?_, fun a => rfl⟩
    · rw [State.rd_modStore, State.rd_pathBusy, Nat.pow_zero, Nat.mul_one]
    · rw [State.rd_modStore, State.pathBusy, State.rd_wr_ne _ _ hne]
  · obtain ⟨hen, hfree, hpool⟩ := s.poolOff_posted pool.val tag
    obtain ⟨hvalid, hcode, hwho⟩ := (s.poolOff pool.val).poolPost_done pool.val tag pool.isLt
    exact ⟨_, exec_poolDisable_off ha hf ho, hen, hfree, hpool, hvalid, hcode, hwho, State.evtPend_poolPost .., fun a =>
      State.rb_poolPost ..⟩
  · simp only [exec_poolInit_eq, exec_poolDisable_eq, exec_poolIllegalOp_eq, execPoolInit, execPoolDisable, execPoolIllegalOp,
      State.poolCmd_dropped ha hf, and_self]
  · rw [exec_poolAck ha, State.pathAck, if_pos (by simp [hv, ht])]
  · rw [exec_poolAck ha, State.pathAck, if_neg (by simp [ht])]
  · obtain ⟨hvalid, hcode, -⟩ := (s.poolOn p).poolPost_done p (s.pathTag STORE.POOL_RESULT 0) hp
    obtain ⟨hreset, hkept⟩ := s.metadata_poolOn p
    refine ⟨fun k => segMem_initRuns .., _, exec_poolInitDone hi hup, ?_, ?_, ?_, ?_, ?_, ?_, ?_, hvalid, hcode, fun a => ?_⟩
    · rw [State.store_poolPost]
      rfl
    · rw [State.poolEn, State.rbit, State.rd_poolPost_ne _ _ _ _ (poolW2_ne_result p), State.rd_poolOn_w2,
        bit_putBit_self _ _ (by decide)]
    · rw [State.poolDesc, State.rbit, State.rd_poolPost_ne _ _ _ _ (poolW2_ne_result p), State.rd_poolOn_w2, putBit,
        bit_putFld_below _ _ (by decide)]
      rfl
    · rwa [State.store_poolPost]
    · rwa [State.store_poolPost]
    · rw [State.pool_poolPost]
      exact congrArg Pool.list (State.pool_setPool_self ..)
    · rw [State.rd_poolPost_ne _ _ _ _ (poolW3_ne_result p), State.rd_poolOn_w3]
      rfl
    · rw [State.rb_poolPost]
      rfl

end Sys2Proof.Machine
end

section
/-! Allocation and freeing, for ports, software and mailboxes (R311 to R317). -/

namespace Sys2Proof.Machine

open Reg

variable {s : State} {by_ : Req} {p u b port : Nat} {rest : List (Nat × Nat)}

theorem exec_freeDesc_eq (by_ : Req) (val : Word) (s : State) : exec (.freeDesc by_ val) s = execFreeDesc by_ val s := rfl
theorem exec_freeBlk_eq (by_ : Req) (val : Word) (s : State) : exec (.freeBlk by_ val) s = execFreeBlk by_ val s := rfl
theorem exec_hwAlloc_eq (port : Fin 18) (desc : Bool) (s : State) : exec (.hwAlloc port desc) s = execHwAlloc port desc s := rfl
theorem exec_mbRequest_eq (by_ : Req) (m : Fin 192) (pool : Fin 64) (tag : BitVec 4) (s : State) :
    exec (.mbRequest by_ m pool tag) s = execMbRequest by_ m pool tag s := rfl
theorem exec_mbAnswer_eq (m : Fin 192) (s : State) : exec (.mbAnswer m) s = execMbAnswer m s := rfl
theorem exec_mbAck_eq (by_ : Req) (m : Fin 192) (tag : BitVec 4) (s : State) :
    exec (.mbAck by_ m tag) s = execMbAck by_ m tag s := rfl

/-! The head of a pool's list is taken (R311, R313). -/

/-- No page is retired, so no unit lies on one. -/
theorem State.onRetired_nil (hret : s.store.retired = []) (b : Nat) : s.onRetired b = false := by
  rw [State.onRetired, hret]
  rfl

/-- A unit has left the head of the pool's list, `rest` behind it: it is not FREE any more and counts as out. -/
def State.unitTaken (s : State) (p u : Nat) (rest : List (Nat × Nat)) : State :=
  let x := s.pool p
  let r := unitRange (s.poolDesc p) u
  (((s.setPool p { x with list := rest }).wf (STORE.POOL_W3 p) 25 0 (s.poolFree p - 1)).modStore fun st =>
    { st with free := segDel st.free r.1 r.2 }).setPool p { list := rest, out := x.out + 1 }

section Head
variable (hret : s.store.retired = []) (hpop : popRun (s.pool p).list = some (u, rest))
include hret hpop

theorem State.popUnit_head (n : Nat) : s.popUnit p (n + 1) = (s.unitTaken p u rest, some u) := by
  simp only [State.popUnit, hpop]
  exact if_neg (by rw [State.onRetired_nil]; decide; exact hret)

/-- An enabled pool gives the head of its list; POOL_LOW, where it is crossed, is an event alone (R317). -/
theorem State.allocUnit_head (hen : s.poolEn p = true) : (s.allocUnit p).2 = some u ∧
    (s.allocUnit p).1.store = (s.unitTaken p u rest).store ∧ (∀ a, (s.allocUnit p).1.rd a = (s.unitTaken p u rest).rd a) ∧
    ∀ a, (s.allocUnit p).1.rb a = (s.unitTaken p u rest).rb a := by
  simp only [State.allocUnit, hen, State.popUnit_head hret hpop, Bool.not_true, Bool.false_eq_true, if_false]
  split
  · exact ⟨rfl, State.store_evt .., fun a => State.rd_evt .., fun a => State.rb_evt ..⟩
  · exact ⟨rfl, rfl, fun a => rfl, fun a => rfl⟩

end Head

theorem State.allocUnit_empty (hl : (s.pool p).list = []) : s.allocUnit p = (s, none) := by
  have hpop : s.popUnit p (32 * s.store.retired.length + 1) = (s, none) := by
    rw [State.popUnit, hl]
    rfl
  rw [State.allocUnit, hpop]
  simp

theorem State.pool_unitTaken_self : (s.unitTaken p u rest).pool p = { list := rest, out := (s.pool p).out + 1 } :=
  State.pool_setPool_self ..
theorem State.pool_unitTaken_ne {q : Nat} (h : q ≠ p) : (s.unitTaken p u rest).pool q = s.pool q :=
  (State.pool_setPool_ne _ _ h).trans (State.pool_setPool_ne s _ h)
theorem State.poolFree_unitTaken : (s.unitTaken p u rest).poolFree p = s.poolFree p - 1 := by
  have hlt : s.poolFree p < 2 ^ 26 := fld_lt ..
  rw [State.poolFree, State.rf, State.unitTaken, State.rd_setPool, State.rd_modStore, State.rd_wf_self,
    fld_putFld_self _ _ (by decide) (by decide), Nat.mod_eq_of_lt (by omega)]

/-! A block is freed (R315, R316). -/

theorem State.freeBlock_pushes (hat : s.poolAt b = some p) (hd : s.poolDesc p = false)
    (hseg : segMem s.store.free (4 * b) = false) : s.freeBlock port (some p) b = s.pushUnit p b := by
  simp [State.freeBlock, hat, hd, hseg]
theorem State.freeBlock_refused (h : s.poolAt b = none ∨ segMem s.store.free (4 * b) = true) (pool : Option Nat) :
    s.freeBlock port pool b = s.freeErr port (256 * b) := by
  cases hat : s.poolAt b with
  | none => rw [State.freeBlock, hat]
  | some p =>
    have hseg := h.resolve_left (by simp [hat])
    simp [State.freeBlock, hat, hseg]
theorem State.freeBlock_otherPool {q : Nat} (hat : s.poolAt b = some p) (hq : q ≠ p) :
    s.freeBlock port (some q) b = s.freeErr port (256 * b) := by
  simp [State.freeBlock, hat, hq]

/-- A unit that no retired page holds goes to the end of its pool's list. -/
theorem State.pushUnit_kept (hret : s.onRetired (unitBlock (s.poolDesc p) u) = false) (hf : s.poolFree p + 1 < 2 ^ 26) :
    ((s.pushUnit p u).pool p).list = (s.pool p).list ++ [(u, 1)] ∧ ((s.pushUnit p u).pool p).out = (s.pool p).out - 1 ∧
    (s.pushUnit p u).poolFree p = s.poolFree p + 1 ∧ ∀ a, (s.pushUnit p u).rb a = s.rb a := by
  unfold State.pushUnit
  extract_lets d x b s1
  rw [if_neg (by rw [hret]; decide)]
  have hpool : s1.pool p = { list := x.list ++ [(u, 1)], out := x.out - 1 } := State.pool_setPool_self ..
  refine ⟨congrArg Pool.list hpool, congrArg Pool.out hpool, ?_, fun a => rfl⟩
  rw [State.poolFree, State.rf, State.rd_modStore, State.rd_wf_self, fld_putFld_self _ _ (by decide) (by decide),
    Nat.mod_eq_of_lt hf]

/-! A port's allocation for the frame in hand (R313). -/

/-- The pool of PORT_POOL that a port's descriptors or blocks come from. -/
def State.portPool (s : State) (port : Nat) (desc : Bool) : Nat :=
  if desc then s.rf (STORE.PORT_POOL port) 13 8 else s.rf (STORE.PORT_POOL port) 5 0
/-- Units that a port has taken for the frame in hand. -/
def State.inHand (s : State) (port : Nat) : List Nat := tget (fun _ => []) s.store.inHand port

/-- The ports of tiles that receive frames. -/
def Receives (port : Nat) : Prop := port = 0 ∨ port = 1 ∨ port = 2 ∨ port = 12 ∨ port = 13 ∨ port = 14

theorem Receives.listed (h : Receives port) : [0, 1, 2, 12, 13, 14].contains port = true := by
  rcases h with rfl | rfl | rfl | rfl | rfl | rfl <;> rfl

section HwAlloc
variable {pt : Fin 18} {desc : Bool} (hup : s.storeUp = true) (hpt : Receives pt.val)
include hup hpt

/-- The unit joins those in hand, and the pools are as the allocation left them. -/
theorem exec_hwAlloc_takes (hr : (s.allocUnit (s.portPool pt.val desc)).2 = some u) : ∃ v, exec (.hwAlloc pt desc) s = .next v ∧
    v.inHand pt.val = s.inHand pt.val ++ [2 * u + b2n desc] ∧
    (∀ q, v.pool q = (s.allocUnit (s.portPool pt.val desc)).1.pool q) ∧
    ∀ a, v.rd a = (s.allocUnit (s.portPool pt.val desc)).1.rd a := by
  refine ⟨(s.allocUnit (s.portPool pt.val desc)).1.modStore fun x => { x with
    inHand := tput (fun _ => []) x.inHand pt.val (s.inHand pt.val ++ [2 * u + b2n desc]) }, ?_, tget_tput_self ..,
    fun q => rfl, fun a => rfl⟩
  unfold State.portPool State.rf at hr
  simp only [exec_hwAlloc_eq, execHwAlloc, hpt.listed, hup, hr, Bool.not_true, Bool.false_eq_true, if_false]
  rfl

/-- Without a unit the port gives back what it has in hand, and the failure is counted. -/
theorem exec_hwAlloc_fails (hr : (s.allocUnit (s.portPool pt.val desc)).2 = none) : exec (.hwAlloc pt desc) s = .next
    (((s.inHand pt.val).foldl (fun v h => v.pushUnit (if h % 2 = 1 then fld (s.rd (STORE.PORT_POOL pt.val)) 13 8 else
        fld (s.rd (STORE.PORT_POOL pt.val)) 5 0) (h / 2))
      ((s.allocUnit (s.portPool pt.val desc)).1.sat STORE.STORE_CNT1 31 16 1)).modStore
      fun x => { x with inHand := terase x.inHand pt.val }) := by
  unfold State.portPool State.rf at hr ⊢
  simp only [exec_hwAlloc_eq, execHwAlloc, hpt.listed, hup, hr, Bool.not_true, Bool.false_eq_true, if_false]
  rfl

end HwAlloc

/-! Mailboxes (R314). -/

/-- The request that waits at a mailbox. -/
def State.mbWaits (s : State) (m : Nat) : Option (Nat × Nat) := tget (fun _ => none) s.store.mbReq m

/-- A request waits with its pool and tag. -/
def State.mbAsked (s : State) (m p g : Nat) : State :=
  s.modStore fun x => { x with mbReq := tput (fun _ => none) x.mbReq m (some (p, g)) }

theorem State.mbWaits_mbAsked (s : State) (m p g : Nat) : (s.mbAsked m p g).mbWaits m = some (p, g) :=
  tget_tput_self (fun _ => none) s.store.mbReq m (some (p, g))

/-- A mailbox's answer is posted under its tag and the request is met. -/
def State.mbGiven (s : State) (m g ans : Nat) : State :=
  (s.modStore fun x => { x with mbReq := tput (fun _ => none) x.mbReq m none }).wr (STORE.MB_RES m) (wd (2 ^ 31 + g * 2 ^ 27 + ans))

theorem State.rd_mbGiven (s : State) (m g ans : Nat) : (s.mbGiven m g ans).rd (STORE.MB_RES m) = wd (2 ^ 31 + g * 2 ^ 27 + ans) :=
  State.rd_wr_self ..
/-- EMPTY is the answer 0. -/
theorem State.rd_mbGiven_empty (s : State) (m g : Nat) : (s.mbGiven m g 0).rd (STORE.MB_RES m) = wd (2 ^ 31 + g * 2 ^ 27) := by
  rw [State.rd_mbGiven, Nat.add_zero]
theorem State.mbWaits_mbGiven (s : State) (m g ans : Nat) : (s.mbGiven m g ans).mbWaits m = none :=
  tget_tput_self (fun _ => none) s.store.mbReq m none
@[simp] theorem State.pool_mbGiven (s : State) (m g ans q : Nat) : (s.mbGiven m g ans).pool q = s.pool q := by
  rw [State.pool, State.mbGiven, State.wr_store, State.modStore_store, State.pool]

section Mailbox
variable {m : Fin 192} {pool : Fin 64} {tag : BitVec 4} (ha : s.accepts by_ 8 = true)

section
include ha
theorem exec_mbRequest_waits (hv : s.rbit (STORE.MB_RES m.val) 31 = false) (hm : s.mbWaits m.val = none) :
    exec (.mbRequest by_ m pool tag) s = .next (s.mbAsked m.val pool.val tag.toNat) := by
  rw [exec_mbRequest_eq, execMbRequest, State.onWrite_accepts _ ha, hv, show tget _ _ _ = none from hm]
  rfl
theorem exec_mbRequest_dropped (h : s.rbit (STORE.MB_RES m.val) 31 = true ∨ s.mbWaits m.val ≠ none) :
    exec (.mbRequest by_ m pool tag) s = .next (s.sat STORE.STORE_CNT1 7 0 1) := by
  rw [exec_mbRequest_eq, execMbRequest, State.onWrite_accepts _ ha,
    if_pos (by rwa [Bool.or_eq_true, Option.isSome_iff_ne_none])]
theorem exec_mbAck (hv : s.rbit (STORE.MB_RES m.val) 31 = true) (ht : s.rf (STORE.MB_RES m.val) 30 27 = tag.toNat) :
    exec (.mbAck by_ m tag) s = .next (s.wr (STORE.MB_RES m.val) 0) := by
  rw [exec_mbAck_eq, execMbAck, State.onWrite_accepts _ ha]
  exact congrArg _ (if_pos (by simp [hv, ht]))
end

variable {g : Nat} (hup : s.storeUp = true) (hq : s.mbWaits m.val = some (p, g))
include hup hq

/-- A pool at its reserve gives no unit; above it, one with no unit to give is answered the same. -/
theorem exec_mbAnswer_reserved (hres : s.poolFree p ≤ s.rf (STORE.POOL_W2 p) 23 12 * 256) :
    exec (.mbAnswer m) s = .next (s.mbGiven m.val g 0) := by
  simp only [exec_mbAnswer_eq, execMbAnswer, show tget _ _ _ = some (p, g) from hq, hup, if_pos hres]
  rfl
theorem exec_mbAnswer (hres : s.rf (STORE.POOL_W2 p) 23 12 * 256 < s.poolFree p) : exec (.mbAnswer m) s =
    .next ((s.allocUnit p).1.mbGiven m.val g (((s.allocUnit p).2.map fun u => if s.poolDesc p then u else 4 * u).getD 0)) := by
  simp only [exec_mbAnswer_eq, execMbAnswer, show tget _ _ _ = some (p, g) from hq, hup, if_neg (Nat.not_le.mpr hres)]
  cases (s.allocUnit p).2 <;> rfl

end Mailbox

/-- Settles O18: allocation by the head of the list, a free by what the block's pool is, and the commands over both. -/
theorem allocatorCommandsComplete : Obligations.AllocatorCommandsComplete := by
  refine ⟨fun p u rest s hp hen hret => ⟨fun hpop _ => ?_, State.allocUnit_empty, fun port b hat hd hseg hf => ?_,
    fun port b h => ⟨State.freeBlock_refused h none, State.store_freeErr ..⟩, fun port b q => State.freeBlock_otherPool⟩,
    fun by_ val port desc m pool tag s ha hup => ⟨?_, ?_, fun hpt => ⟨fun u => exec_hwAlloc_takes hup hpt, exec_hwAlloc_fails hup hpt⟩,
      fun hv hm => ⟨_, exec_mbRequest_waits ha hv hm, State.mbWaits_mbAsked .., fun a => rfl⟩, exec_mbRequest_dropped ha,
      fun p g hq => ⟨fun hres => ?_, fun hres hr => ?_, fun u hres hr => ?_⟩, exec_mbAck ha⟩⟩
  · obtain ⟨hu, hstore, hrd, hrb⟩ := State.allocUnit_head hret hpop hen
    have hpool : ∀ q, (s.allocUnit p).1.pool q = (s.unitTaken p u rest).pool q := fun q => by rw [State.pool, hstore, State.pool]
    refine ⟨hu, ?_, ?_, ?_, fun q hq => (hpool q).trans (State.pool_unitTaken_ne hq), fun a => hrb a⟩
    · rw [hpool, State.pool_unitTaken_self]
    · rw [hpool, State.pool_unitTaken_self]
    · rw [State.poolFree, State.rf, hrd]
      exact State.poolFree_unitTaken
  · rw [State.freeBlock_pushes hat hd hseg]
    exact State.pushUnit_kept (State.onRetired_nil hret _) hf
  · rw [exec_freeDesc_eq, execFreeDesc, State.onWrite_accepts _ ha]
  · rw [exec_freeBlk_eq, execFreeBlk, State.onWrite_accepts _ ha, if_pos hup]
  · exact ⟨_, exec_mbAnswer_reserved hup hq hres, State.rd_mbGiven_empty .., State.mbWaits_mbGiven .., fun q => State.pool_mbGiven ..⟩
  · refine ⟨_, exec_mbAnswer hup hq hres, ?_, State.mbWaits_mbGiven ..⟩
    rw [hr]
    exact State.rd_mbGiven_empty ..
  · refine ⟨_, exec_mbAnswer hup hq hres, ?_, State.mbWaits_mbGiven .., fun q => State.pool_mbGiven ..⟩
    rw [hr]
    exact State.rd_mbGiven ..

end Sys2Proof.Machine
end

section
/-! Writes to the store and what they leave alone (R309, R316, R320), and the scrubber (R324). -/

namespace Sys2Proof.Machine

open Reg

variable {s t : State}

/-! What admission reads, and the store's bytes, over the records and counts of an access. -/

/-- From `s` to `t` the DRAM channels and the ports' latency words stay. -/
structure State.SameChans (s t : State) : Prop where
  chans : t.store.chans = s.store.chans
  lat : ∀ p, p < 18 → t.rd (STORE.PORT_LAT p) = s.rd (STORE.PORT_LAT p)

/-- From `s` to `t` metadata, counts, records and events alone change: channels, latency words and the store's bytes stay. -/
structure State.Noted (s t : State) : Prop extends State.SameChans s t where
  bytes : ∀ x, x < storeEnd → t.rb x = s.rb x

/-- A register outside the ports' latency words. -/
abbrev NotLat (a : RegId) : Prop := ∀ p, p < 18 → STORE.PORT_LAT p ≠ a

theorem notLat_errLog {k : Nat} (hk : k < 16) : NotLat (STORE.ERR_LOG_W0 k) ∧ NotLat (STORE.ERR_LOG_W1 k) := by
  refine ⟨fun p _ => ?_, fun p _ => ?_⟩
  · change (0x8004080 + 4 * p : Nat) ≠ 0x8001500 + 8 * k
    omega
  · change (0x8004080 + 4 * p : Nat) ≠ 0x8001504 + 8 * k
    omega

theorem State.SameChans.trans {u : State} (h : State.SameChans s t) (k : State.SameChans t u) : State.SameChans s u :=
  ⟨k.chans.trans h.chans, fun p hp => (k.lat p hp).trans (h.lat p hp)⟩

namespace State.Noted

theorem refl (s : State) : State.Noted s s := ⟨⟨rfl, fun _ _ => rfl⟩, fun _ _ => rfl⟩
theorem trans {u : State} (h : State.Noted s t) (k : State.Noted t u) : State.Noted s u :=
  ⟨h.toSameChans.trans k.toSameChans, fun x hx => (k.bytes x hx).trans (h.bytes x hx)⟩
theorem foldl {α : Type} {f : State → α → State} (l : List α) (hf : ∀ u x, State.Noted u (f u x)) (s : State) :
    State.Noted s (l.foldl f s) := by
  induction l generalizing s with
  | nil => exact refl s
  | cons x l ih => exact (hf s x).trans (ih _)

variable (h : State.Noted s t)
include h

theorem wr {a : RegId} (ha : NotLat a) (v : Word) : State.Noted s (t.wr a v) :=
  h.trans ⟨⟨rfl, fun _ hp => t.rd_wr_ne v (ha _ hp)⟩, fun _ _ => rfl⟩
theorem wf {a : RegId} (ha : NotLat a) (hi lo v : Nat) : State.Noted s (t.wf a hi lo v) := h.wr ha _
theorem sat {a : RegId} (ha : NotLat a) (hi lo n : Nat) : State.Noted s (t.sat a hi lo n) := h.wf ha ..
theorem modTile (k : Nat) (f : Tile → Tile) : State.Noted s (t.modTile k f) :=
  h.trans ⟨⟨rfl, fun _ _ => rfl⟩, fun _ _ => rfl⟩
theorem modStore {f : Store → Store} (hf : (f t.store).chans = t.store.chans) : State.Noted s (t.modStore f) :=
  h.trans ⟨⟨hf, fun _ _ => rfl⟩, fun _ _ => rfl⟩
theorem evt (k n : Nat) : State.Noted s (t.evt k n) :=
  h.trans ⟨⟨congrArg Store.chans (t.store_evt k n), fun _ _ => State.rd_evt ..⟩, fun _ _ => State.rb_evt ..⟩
theorem recordErr (k cause unit detail addr : Nat) : State.Noted s (t.recordErr k cause unit detail addr false) :=
  h.trans ⟨⟨congrArg Store.chans (t.store_recordErr ..), fun p hp => t.rd_recordErr
    ((by decide : NotLat MGMT.LOG_WR) p hp) ((by decide : NotLat MGMT.LOG_CNT) p hp) ..⟩, fun _ hx => t.rb_recordErr hx ..⟩
/-- A failure record lies in the ring of sixteen (R323). -/
theorem errLog (kind port addr : Nat) : State.Noted s (t.errLog kind port addr) := by
  obtain ⟨h0, h1⟩ := notLat_errLog (Nat.mod_lt (t.rd STORE.ERR_SEQ).toNat (show 0 < 16 by decide))
  exact ((h.wr h0 _).wr h1 _).wr (by decide) _

end State.Noted

theorem State.noted_earlyWrite (s : State) (k : Nat) : State.Noted s (s.earlyWrite k) := by
  unfold State.earlyWrite
  split
  · exact .refl s
  · exact (State.Noted.refl s).modTile ..
/-- A write that meets an uncorrectable sector retires no page. -/
theorem State.noted_eccFail (s : State) (port addr : Nat) : State.Noted s (s.eccFail port addr false) :=
  ((((State.Noted.refl s).errLog ..).modTile ..).recordErr ..).evt ..
theorem State.noted_touchSector (s : State) (port a n q : Nat) : State.Noted s (s.touchSector port a n q) := by
  unfold State.touchSector
  extract_lets s1
  have h1 : State.Noted s s1 := (State.Noted.refl s).modStore rfl
  split
  · exact h1.modStore rfl
  · split
    · exact h1.trans (s1.noted_eccFail ..)
    · exact h1
theorem State.noted_touchBlock (s : State) (port a n b : Nat) : State.Noted s (s.touchBlock port a n b) := by
  unfold State.touchBlock
  extract_lets whole isFree s1
  have h1 : State.Noted s s1 := (State.Noted.refl s).modStore rfl
  split
  · exact ((h1.errLog ..).sat (by decide) ..).recordErr ..
  · exact h1
theorem State.noted_touch (s : State) (port a n : Nat) : State.Noted s (s.touch port a n) := by
  unfold State.touch
  extract_lets s1
  split
  · exact .refl s
  · exact (State.Noted.foldl _ (fun u q => u.noted_touchSector ..) s).trans
      (State.Noted.foldl _ (fun u b => u.noted_touchBlock ..) s1)

/-! The bytes written. -/

theorem State.rb_wbytes_out (s : State) {a x : Nat} (bs : List Byte) (h : x < a ∨ a + bs.length ≤ x) :
    (s.wbytes a bs).rb x = s.rb x := by
  induction bs generalizing s a with
  | nil => rfl
  | cons b bs ih =>
    rw [List.length_cons] at h
    rw [State.wbytes, ih _ (by omega), State.rb_wb_ne _ _ (by omega)]
theorem State.rb_wbytes_in (s : State) {a k : Nat} {b : Byte} (bs : List Byte) (h : bs[k]? = some b) :
    (s.wbytes a bs).rb (a + k) = b := by
  induction bs generalizing s a k with
  | nil => exact absurd h (by simp)
  | cons c bs ih =>
    cases k with
    | zero =>
      rw [State.wbytes, State.rb_wbytes_out _ _ (by omega), Nat.add_zero, State.rb_wb_self]
      exact Option.some.inj h
    | succ k =>
      rw [State.wbytes, show a + (k + 1) = a + 1 + k by omega]
      exact ih _ h

section Write
variable {a : Nat} {bs : List Byte} (hup : s.storeUp = true)
include hup

theorem State.storeWrite_within (port : Nat) (h : a + bs.length ≤ storeEnd) :
    s.storeWrite port a bs = (s.touch port a bs.length).wbytes a bs := by
  rw [State.storeWrite, hup, if_neg (by decide), if_neg (Nat.not_lt.mpr h)]
theorem State.storeWrite_past (port : Nat) (h : storeEnd < a + bs.length) :
    s.storeWrite port a bs = s.recordErr (portTile port) 8 noUnit 0 a false := by
  rw [State.storeWrite, hup, if_neg (by decide), if_pos h]

end Write

/-- A write, served or not, leaves the channels and the ports' latency words alone. -/
theorem State.sameChans_storeWrite (s : State) (port a : Nat) (bs : List Byte) : State.SameChans s (s.storeWrite port a bs) := by
  unfold State.storeWrite
  split
  · exact ((s.noted_earlyWrite 8).recordErr ..).toSameChans
  · split
    · exact ((State.Noted.refl s).recordErr ..).toSameChans
    · exact (s.noted_touch ..).toSameChans.trans ⟨congrArg Store.chans (State.store_wbytes ..), fun _ _ => State.rd_wbytes ..⟩

/-! The scrubber (R324). -/

theorem exec_scrubChunk_eq (corrected : Nat) (found : List ScrubFound) (s : State) :
    exec (.scrubChunk corrected found) s = execScrubChunk corrected found s := rfl

section Scrub
variable {corrected : Nat} {found : List ScrubFound}

theorem exec_scrubChunk_early (hd : s.scrubDue = false) : exec (.scrubChunk corrected found) s = .next s := by
  simp [exec_scrubChunk_eq, execScrubChunk, hd]

variable (hon : s.rbit STORE.SCRUB_CTL 31 = true) (hup : s.storeUp = true) (hd : s.scrubDue = true)
include hon hup hd

theorem exec_scrubChunk_waits (hh : (s.askToken kSCRUB 8).holds kSCRUB 8 = false) :
    exec (.scrubChunk corrected found) s = .next (s.askToken kSCRUB 8) := by
  simp [exec_scrubChunk_eq, execScrubChunk, hon, hup, hd, hh]

/-- The state after the errors of a chunk are counted and met. -/
def State.scrubCounted (s : State) (corrected : Nat) (found : List ScrubFound) : State :=
  found.foldl State.scrubFound (s.scrubBegin.modTile 8 fun x => { x with corr := min 65535 (x.corr + corrected) })

theorem exec_scrubChunk (hh : (s.askToken kSCRUB 8).holds kSCRUB 8 = true) : exec (.scrubChunk corrected found) s =
    let u := (s.askToken kSCRUB 8).scrubCounted corrected found
    let chunk := u.rf STORE.SCRUB_STATUS 15 0 + 1
    .next ((if chunk = 8192 then ((u.wf STORE.SCRUB_STATUS 15 0 0).sat STORE.SCRUB_STATUS 31 16 1).evt 8 21
      else u.wf STORE.SCRUB_STATUS 15 0 chunk).releaseToken kSCRUB 8) := by
  simp [exec_scrubChunk_eq, execScrubChunk, hon, hup, hd, hh, State.scrubCounted]

end Scrub

/-- Settles O19: a write is its touch of the metadata and its bytes, and a chunk goes by whether it is due, holds its token and is the
last of the pass. -/
theorem storeWritesAndScrubbing : Obligations.StoreWritesAndScrubbing := by
  refine ⟨fun port a bs s hup => ⟨fun hin => ⟨fun k b hk => ?_, fun x hout hx => ?_⟩, State.storeWrite_past hup port⟩,
    fun corrected found s hon hup => ⟨exec_scrubChunk_early, fun hd => ⟨exec_scrubChunk_waits hon hup hd, fun hh hc => ?_,
      fun hh hc => ?_⟩⟩⟩
  · rw [State.storeWrite_within hup port hin, State.rb_wbytes_in _ _ hk]
  · rw [State.storeWrite_within hup port hin, State.rb_wbytes_out _ _ hout, (s.noted_touch ..).bytes x hx]
  · refine (exec_scrubChunk hon hup hd hh).trans ?_
    exact congrArg (fun u : State => Host.Outcome.next (u.releaseToken kSCRUB 8)) (if_neg hc)
  · refine (exec_scrubChunk hon hup hd hh).trans ?_
    exact congrArg (fun u : State => Host.Outcome.next (u.releaseToken kSCRUB 8)) (if_pos hc)

end Sys2Proof.Machine
end

section
/-! Requests to the store: arrival, admission, command slots and the ends of reads (R309, R322, R330 to R335). -/

namespace Sys2Proof.Machine

open Reg

variable {s t : State} {c : Nat}

theorem exec_storeRequestArrive_eq (port : Fin 18) (addr : BitVec 33) (len : BitVec 9) (wdata : Option (List Byte)) (s : State) :
    exec (.storeRequestArrive port addr len wdata) s = execStoreRequestArrive port addr len wdata s := rfl
theorem exec_dramCommandIssue_eq (ch : Fin 8) (s : State) : exec (.dramCommandIssue ch) s = execDramCommandIssue ch s := rfl
theorem exec_storeReadComplete_eq (ch : Fin 8) (found : ReadFound) (s : State) :
    exec (.storeReadComplete ch found) s = execStoreReadComplete ch found s := rfl

/-! Arrival (R309, R334). -/

section Arrive
variable {port : Fin 18} {addr : BitVec 33} {len : BitVec 9}

theorem exec_storeRequestArrive_read_turned (hdown : s.storeUp = false) : exec (.storeRequestArrive port addr len none) s =
    .next ((s.earlyRead 8).recordErr (portTile port.val) 8 noUnit 0 addr.toNat false) := by
  simp only [exec_storeRequestArrive_eq, execStoreRequestArrive, hdown, Bool.not_false, if_true]
theorem exec_storeRequestArrive_write_turned (hdown : s.storeUp = false) (bs : List Byte) :
    exec (.storeRequestArrive port addr len (some bs)) s =
      .next ((s.earlyWrite 8).recordErr (portTile port.val) 8 noUnit 0 addr.toNat false) := by
  simp only [exec_storeRequestArrive_eq, execStoreRequestArrive, hdown, Bool.not_false, if_true]

variable (hup : s.storeUp = true) (hlen : len ≠ 0)
include hup hlen

theorem exec_storeRequestArrive_past (hp : port.val < 16) (h : storeEnd < addr.toNat + len.toNat) :
    exec (.storeRequestArrive port addr len none) s = .next (s.recordErr (portTile port.val) 8 noUnit 0 addr.toNat false) := by
  have hn : len.toNat ≠ 0 := fun h => hlen (BitVec.eq_of_toNat_eq h)
  simp [exec_storeRequestArrive_eq, execStoreRequestArrive, hup, hn, hp, h]

/-- A read that no write in the channel stands before waits there, and admission runs. -/
theorem exec_storeRequestArrive_waits (h : addr.toNat + len.toNat ≤ storeEnd)
    (hreads : ((s.chan (s.chOf addr.toNat)).queue ++ (s.chan (s.chOf addr.toNat)).waiting).all (fun r => r.data.isNone) = true) :
    exec (.storeRequestArrive port addr len none) s = .next
      (((s.modStore fun st => { st with seq := st.seq + 1 }).setChan (s.chOf addr.toNat)
        { s.chan (s.chOf addr.toNat) with waiting := (s.chan (s.chOf addr.toNat)).waiting ++
          [{ port := port.val, addr := addr.toNat, len := len.toNat, data := none, arrived := s.clock, seq := s.store.seq }] }).letIn
        (s.chOf addr.toNat) 32) := by
  have hn : len.toNat ≠ 0 := fun h => hlen (BitVec.eq_of_toNat_eq h)
  have hraw : ∀ q : StReq, (((s.chan (s.chOf addr.toNat)).queue ++ (s.chan (s.chOf addr.toNat)).waiting).any
      fun r => r.data.isSome && overlap r q) = false := by
    intro q
    refine List.any_eq_false.mpr fun r hr => ?_
    have hnone := List.all_eq_true.mp hreads r hr
    simp [Option.isNone_iff_eq_none.mp hnone]
  rw [exec_storeRequestArrive_eq, execStoreRequestArrive]
  simp only [hup, hn, Nat.not_lt.mpr h, hraw, Bool.not_true, Bool.false_eq_true, if_false, decide_false, Bool.and_false]

end Arrive

/-! A channel's state and the requests of a port (R335). -/

@[simp] theorem State.chan_setChan_self (s : State) (c : Nat) (x : Chan) : (s.setChan c x).chan c = x := tget_tput_self ..
theorem State.chan_setChan_ne (s : State) {c d : Nat} (x : Chan) (h : d ≠ c) : (s.setChan c x).chan d = s.chan d :=
  tget_tput_ne _ _ _ h
theorem State.SameChans.chan (h : State.SameChans s t) (d : Nat) : t.chan d = s.chan d := by
  rw [State.chan, h.chans, State.chan]

/-- Requests of a port that a channel has admitted and not completed. -/
def Chan.load (x : Chan) (p : Nat) : Nat := (x.queue ++ x.issued).countP fun q => q.port = p

/-- Sums over a list agree but for the one place where their terms differ. -/
theorem sum_map_differs {f g : Nat → Nat} {c : Nat} (h : ∀ d, d ≠ c → f d = g d) {l : List Nat} (hc : c ∈ l) (hl : l.Nodup) :
    (l.map f).sum + g c = (l.map g).sum + f c := by
  induction l with
  | nil => exact absurd hc List.not_mem_nil
  | cons d l ih =>
    obtain ⟨hd, hl⟩ := List.nodup_cons.mp hl
    simp only [List.map_cons, List.sum_cons]
    by_cases hdc : d = c
    · subst hdc
      have hrest : l.map f = l.map g := List.map_congr_left fun e he => h e fun hed => hd (hed ▸ he)
      rw [hrest]
      omega
    · have hsum := ih ((List.mem_cons.mp hc).resolve_left (Ne.symm hdc)) hl
      rw [h d hdc]
      omega

/-- Where one channel differs, a port's requests differ by that channel's. -/
theorem State.inflight_differs (hc : c < 8) (h : ∀ d, d ≠ c → t.chan d = s.chan d) (p : Nat) :
    t.inflight p + (s.chan c).load p = s.inflight p + (t.chan c).load p :=
  sum_map_differs (f := fun d => (t.chan d).load p) (g := fun d => (s.chan d).load p) (fun d hd => congrArg (·.load p) (h d hd))
    (List.mem_range.mpr hc) List.nodup_range

/-! Admission (R330, R335). -/

/-- INFLIGHT_MAX of a port as it acts. -/
def State.inflightMax (s : State) (p : Nat) : Nat := clampN 1 64 (s.rf (STORE.PORT_LAT p) 23 16)

/-- From `s` to `t` admission to channel `c` has kept within the room of its queue and the ports' bounds, and let all other channels be. -/
structure State.Admitted (c : Nat) (s t : State) : Prop where
  room : (s.chan c).queue.length ≤ 32 → (t.chan c).queue.length ≤ 32
  others : ∀ d, d ≠ c → t.chan d = s.chan d
  lat : ∀ p, p < 18 → t.rd (STORE.PORT_LAT p) = s.rd (STORE.PORT_LAT p)
  ports : ∀ p, p < 18 → s.inflight p ≤ s.inflightMax p → t.inflight p ≤ s.inflightMax p

theorem State.Admitted.refl (c : Nat) (s : State) : State.Admitted c s s :=
  ⟨id, fun _ _ => rfl, fun _ _ => rfl, fun _ _ => id⟩

theorem State.Admitted.trans {u : State} (h : State.Admitted c s t) (k : State.Admitted c t u) : State.Admitted c s u where
  room hs := k.room (h.room hs)
  others d hd := (k.others d hd).trans (h.others d hd)
  lat p hp := (k.lat p hp).trans (h.lat p hp)
  ports p hp hs := by
    have hmax : t.inflightMax p = s.inflightMax p := by rw [State.inflightMax, State.rf, h.lat p hp, State.inflightMax, State.rf]
    rw [← hmax] at hs ⊢
    exact k.ports p hp (hmax ▸ h.ports p hp (hmax ▸ hs))

/-- The best of a list is one of the list. -/
theorem bestOf_mem {lt : StReq → StReq → Bool} {l : List StReq} {q : StReq} (h : bestOf lt l = some q) : q ∈ l := by
  have hfold : ∀ (l : List StReq) (b : StReq), l.foldl (fun b r => if lt r b then r else b) b ∈ b :: l := by
    intro l
    induction l with
    | nil => exact fun b => List.mem_singleton_self b
    | cons r l ih =>
      intro b
      rw [List.foldl_cons]
      split
      · exact List.mem_cons_of_mem _ (ih r)
      · exact List.cons_subset_cons b (List.subset_cons_self r l) (ih b)
  cases l with
  | nil => exact absurd h (by simp [bestOf])
  | cons r l => exact Option.some.inj h ▸ hfold l r

/-- A completion counts and compares the request's wait (R331), and no more. -/
theorem State.noted_reqDone (s : State) (q : StReq) : State.Noted s (s.reqDone q) := by
  have hst : NotLat (STORE.PORT_STAT q.port) := fun p hp => by
    change (0x8004080 + 4 * p : Nat) ≠ 0x8004200 + 4 * q.port
    omega
  unfold State.reqDone
  extract_lets st w s1 s2
  have h1 : State.Noted s s1 := (State.Noted.refl s).wf hst ..
  have h2 : State.Noted s s2 := (h1.sat hst ..).sat (by decide) ..
  split
  · split
    · exact h2.evt ..
    · exact h2
  · exact h1

/-- The request goes from the attachments to the queue. -/
def State.entered (s : State) (c : Nat) (q : StReq) : State :=
  s.setChan c { s.chan c with queue := (s.chan c).queue ++ [q], waiting := (s.chan c).waiting.filter (· != q) }

/-- A write completes as it enters (R330). -/
def State.enteredDone (s : State) (c : Nat) (q : StReq) : State :=
  match q.data with
  | none => s.entered c q
  | some bs =>
    if q.port = 16 && s.store.wbPend.contains (q.addr / 32) then
      ((s.entered c q).modStore fun st => { st with wbPend := st.wbPend.filter (· != q.addr / 32) }).reqDone q
    else ((s.entered c q).storeWrite q.port q.addr bs).reqDone q

theorem State.sameChans_enteredDone (s : State) (c : Nat) (q : StReq) : State.SameChans (s.entered c q) (s.enteredDone c q) := by
  unfold State.enteredDone
  split
  · exact ⟨rfl, fun _ _ => rfl⟩
  · split
    · exact (((State.Noted.refl _).modStore rfl).trans (State.noted_reqDone ..)).toSameChans
    · exact (State.sameChans_storeWrite ..).trans (State.noted_reqDone ..).toSameChans

theorem State.letIn_succ (s : State) (c n : Nat) : s.letIn c (n + 1) = if 32 ≤ (s.chan c).queue.length then s else
    match bestOf s.better ((s.chan c).waiting.filter s.mayAdmit) with
    | none => s
    | some q => (s.enteredDone c q).letIn c n := rfl

/-- One admission: a queue with room gains a request of a port below its bound. -/
theorem State.admitted_enteredDone (hc : c < 8) {q : StReq} (hroom : (s.chan c).queue.length < 32) (hq : s.mayAdmit q = true) :
    State.Admitted c s (s.enteredDone c q) := by
  have hsame := s.sameChans_enteredDone c q
  have hself : (s.enteredDone c q).chan c = { s.chan c with
      queue := (s.chan c).queue ++ [q], waiting := (s.chan c).waiting.filter (· != q) } :=
    (hsame.chan c).trans (State.chan_setChan_self ..)
  have hothers : ∀ d, d ≠ c → (s.enteredDone c q).chan d = s.chan d :=
    fun d hd => (hsame.chan d).trans (State.chan_setChan_ne s _ hd)
  refine ⟨fun _ => ?_, hothers, fun p hp => (hsame.lat p hp).trans (State.rd_wr_ne _ _ ?_), fun p hp hs => ?_⟩
  · rw [hself]
    change ((s.chan c).queue ++ [q]).length ≤ 32
    rw [List.length_append, List.length_singleton]
    exact hroom
  · change (0x8004080 + 4 * p : Nat) ≠ 0x8004100 + 4 * c
    omega
  · have hbelow : s.inflight q.port < s.inflightMax q.port := of_decide_eq_true hq
    have hload : ((s.enteredDone c q).chan c).load p = (s.chan c).load p + if q.port = p then 1 else 0 := by
      rw [hself]
      simp only [Chan.load, List.countP_append, List.countP_singleton, decide_eq_true_eq]
      omega
    have hdiff := State.inflight_differs hc hothers p
    rw [hload] at hdiff
    by_cases hqp : q.port = p
    · subst hqp
      rw [if_pos rfl] at hdiff
      omega
    · rw [if_neg hqp] at hdiff
      omega

theorem State.admitted_letIn (hc : c < 8) (n : Nat) (s : State) : State.Admitted c s (s.letIn c n) := by
  induction n generalizing s with
  | zero => exact .refl c s
  | succ n ih =>
    rw [State.letIn_succ]
    split
    · exact .refl c s
    next hroom =>
      split
      · exact .refl c s
      next q hq =>
        have hmay := (List.mem_filter.mp (bestOf_mem hq)).2
        exact (State.admitted_enteredDone hc (Nat.not_le.mp hroom) hmay).trans (ih _)

/-! Command slots and the ends of reads (R322, R332, R333). -/

/-- The request that a channel's command slot goes to: the best of those that may issue (R332). -/
def State.slotRequest (s : State) (c : Nat) : Option StReq :=
  bestOf (s.slotBefore (s.chan c)) ((s.chan c).queue.filter (s.issuable c (s.chan c)))

theorem State.slotRequest_nil (hq : (s.chan c).queue = []) : s.slotRequest c = none := by
  rw [State.slotRequest, hq]
  rfl
theorem State.slotRequest_single {q : StReq} (hq : (s.chan c).queue = [q]) (hi : s.issuable c (s.chan c) q = true) :
    s.slotRequest c = some q := by
  rw [State.slotRequest, hq, List.filter_cons_of_pos hi, List.filter_nil]
  rfl

section Slot
variable {ch : Fin 8}

theorem exec_dramCommandIssue_paused (hp : (s.chan ch.val).paused = true) : exec (.dramCommandIssue ch) s = .next s := by
  simp [exec_dramCommandIssue_eq, execDramCommandIssue, hp]

section Runs
variable (hup : s.storeUp = true) (hp : (s.chan ch.val).paused = false)
include hup hp

theorem exec_dramCommandIssue_none (h : s.slotRequest ch.val = none) : exec (.dramCommandIssue ch) s = .next (s.closeRows ch.val) := by
  unfold State.slotRequest at h
  simp only [exec_dramCommandIssue_eq, execDramCommandIssue, hup, hp, Bool.not_true, Bool.or_self, Bool.false_eq_true, if_false, h]
theorem exec_dramCommandIssue_some {q : StReq} (h : s.slotRequest ch.val = some q) :
    exec (.dramCommandIssue ch) s = .next (((s.issueCmd ch.val q).closeRows ch.val).letIn ch.val 32) := by
  unfold State.slotRequest at h
  simp only [exec_dramCommandIssue_eq, execDramCommandIssue, hup, hp, Bool.not_true, Bool.or_self, Bool.false_eq_true, if_false, h]

end Runs

/-- A request that hits the open row takes its column command; a read then waits for its data. -/
theorem State.issueCmd_hit {q : StReq} {h : Nat} (hrow : (s.chan c).row (s.bankOf q.addr) = some (rowOf q.addr, h)) :
    s.issueCmd c q = s.setChan c { ((s.chan c).setRow (s.bankOf q.addr) (some (rowOf q.addr, h + 1))) with
      queue := (s.chan c).queue.filter (· != q)
      issued := if q.data.isNone then (s.chan c).issued ++ [q] else (s.chan c).issued } := by
  simp only [State.issueCmd, hrow, if_true]
  split <;> rfl

theorem exec_storeReadComplete {q : StReq} {rest : List StReq} (hi : (s.chan ch.val).issued = q :: rest) (found : ReadFound) :
    exec (.storeReadComplete ch found) s = .next ((List.range 8).foldl (fun u c => u.letIn c 32)
      (((s.setChan ch.val { s.chan ch.val with issued := rest }).readEnds q found).reqDone q)) := by
  simp only [exec_storeReadComplete_eq, execStoreReadComplete, hi]
theorem exec_storeReadComplete_none (hi : (s.chan ch.val).issued = []) (found : ReadFound) :
    exec (.storeReadComplete ch found) s = .next s := by
  simp only [exec_storeReadComplete_eq, execStoreReadComplete, hi]

end Slot

/-- Settles O20: an arrival by whether STORE serves it, admission by what each request let in leaves of the bounds, a slot by the best
request of its channel. -/
theorem storeRequestsAreServed : Obligations.StoreRequestsAreServed := by
  refine ⟨fun port addr len s => ⟨fun hup hlen hin hreads => exec_storeRequestArrive_waits hup hlen hin hreads,
    fun hup hp hlen hpast => exec_storeRequestArrive_past hup hlen hp hpast, fun hdown bs =>
      ⟨exec_storeRequestArrive_read_turned hdown, exec_storeRequestArrive_write_turned hdown bs⟩⟩, fun c n s hc hroom _ => ?_,
    fun ch s hup => ⟨exec_dramCommandIssue_paused, fun hp hq => exec_dramCommandIssue_none hup hp (State.slotRequest_nil hq),
      fun q hp hq hi => exec_dramCommandIssue_some hup hp (State.slotRequest_single hq hi), fun q h => State.issueCmd_hit,
      fun q rest found hi => exec_storeReadComplete hi found, exec_storeReadComplete_none⟩⟩
  have h := State.admitted_letIn hc n s
  exact ⟨h.room hroom, h.others, h.ports⟩

end Sys2Proof.Machine
end

section
/-! Frames of a channel's state and of the arbiter's pass: the store's hidden state, tile headers and the registers beside them (R340,
R470). -/

namespace Sys2Proof.Machine

open Reg

variable (s : State)

/-! A channel's state shows in its own status word alone. -/

@[simp] theorem State.tile_setChan (c : Nat) (x : Chan) (k : Nat) : (s.setChan c x).tile k = s.tile k := rfl
@[simp] theorem State.rb_setChan (c : Nat) (x : Chan) (a : Nat) : (s.setChan c x).rb a = s.rb a := rfl
theorem State.rd_setChan_ne {c : Nat} {a : RegId} (x : Chan) (h : a ≠ STORE.CH_STAT c) : (s.setChan c x).rd a = s.rd a :=
  State.rd_wr_ne _ _ h
@[simp] theorem State.chan_sat (a : RegId) (hi lo n c : Nat) : (s.sat a hi lo n).chan c = s.chan c := rfl
@[simp] theorem State.chan_wf (a : RegId) (hi lo v c : Nat) : (s.wf a hi lo v).chan c = s.chan c := rfl
@[simp] theorem State.chan_evt (t n c : Nat) : (s.evt t n).chan c = s.chan c := by rw [State.chan, State.store_evt, State.chan]
@[simp] theorem State.chan_recordErr (t cause unit detail addr c : Nat) :
    (s.recordErr t cause unit detail addr false).chan c = s.chan c := by rw [State.chan, State.store_recordErr, State.chan]

/-- The status word of a channel lies above the controller's counters and result. -/
theorem chStat_ne {a : RegId} (h : a < STORE.CH_STAT 0) (c : Nat) : a ≠ STORE.CH_STAT c :=
  Nat.ne_of_lt (Nat.lt_of_lt_of_le h (Nat.add_le_add_left (Nat.zero_le (4 * c)) 0x8004100))

/-- A counter field goes up and stops at its largest value. -/
theorem State.rf_sat_self (a : RegId) {hi lo : Nat} (n : Nat) (hle : lo ≤ hi) (hhi : hi < 32) :
    (s.sat a hi lo n).rf a hi lo = min (2 ^ (hi - lo + 1) - 1) (s.rf a hi lo + n) := by
  have hpos := Nat.two_pow_pos (hi - lo + 1)
  rw [State.rf, State.sat, State.rd_wf_self, fld_putFld_self _ _ hle hhi, Nat.mod_eq_of_lt (by omega)]

/-! A pass of the arbiter shows its grants in MGMT's header alone (R471). -/

@[simp] theorem State.store_showGrant (q : Token) : (s.showGrant q).store = s.store := by
  unfold State.showGrant
  split
  · rw [State.store_evt, State.pathPost, State.wr_store]
  · rfl
@[simp] theorem State.store_releaseToken (kind scope : Nat) : (s.releaseToken kind scope).store = s.store :=
  State.foldl_frame (·.store) (fun u q => u.store_showGrant q) ..
@[simp] theorem State.chan_releaseToken (kind scope c : Nat) : (s.releaseToken kind scope).chan c = s.chan c := by
  rw [State.chan, State.store_releaseToken, State.chan]
theorem State.tile_showGrant (q : Token) {t : Nat} (h : t ≠ 0) : (s.showGrant q).tile t = s.tile t := by
  unfold State.showGrant
  split
  · rw [State.tile_evt_ne _ _ h, State.pathPost, State.tile_wr]
  · rfl
theorem State.tile_releaseToken (kind scope : Nat) {t : Nat} (h : t ≠ 0) : (s.releaseToken kind scope).tile t = s.tile t :=
  State.foldl_frame (·.tile t) (fun u q => u.tile_showGrant q h) ..

end Sys2Proof.Machine
end

section
/-! Refresh, the activate tables and neighbour refresh of a channel (R336 to R338). -/

namespace Sys2Proof.Machine

open Reg

variable {s : State} {ch : Fin 8} {bank : Fin 16}

theorem exec_refreshDue_eq (ch : Fin 8) (bank : Fin 16) (s : State) : exec (.refreshDue ch bank) s = execRefreshDue ch bank s := rfl
theorem exec_mr4Poll_eq (ch : Fin 8) (rate : BitVec 3) (above : Bool) (s : State) :
    exec (.mr4Poll ch rate above) s = execMr4Poll ch rate above s := rfl
theorem exec_actTableClear_eq (s : State) : exec .actTableClear s = execActTableClear s := rfl
theorem exec_nrStart_eq (ch : Fin 8) (bank : Fin 16) (s : State) : exec (.nrStart ch bank) s = execNrStart ch bank s := rfl
theorem exec_nrComplete_eq (ch : Fin 8) (bank : Fin 16) (s : State) : exec (.nrComplete ch bank) s = execNrComplete ch bank s := rfl

/-! Refresh (R336). -/

/-- Refreshes of a bank postponed since the last one issued. -/
def State.postponed (s : State) (c b : Nat) : Nat := tget (fun _ => 0) (s.chan c).postponed b

/-- The refresh of a bank waits for another interval, and the delay is counted. -/
def State.refreshPut (s : State) (c b : Nat) : State :=
  (s.setChan c { s.chan c with postponed := tput (fun _ => 0) (s.chan c).postponed b (s.postponed c b + 1) }).sat
    STORE.DRAM_CNT2 31 16 1

theorem State.chan_refreshPut (s : State) (c b : Nat) : (s.refreshPut c b).chan c =
    { s.chan c with postponed := tput (fun _ => 0) (s.chan c).postponed b (s.postponed c b + 1) } := by
  rw [State.refreshPut, State.chan_sat, State.chan_setChan_self]
theorem State.postponed_refreshPut (s : State) (c b : Nat) : (s.refreshPut c b).postponed c b = s.postponed c b + 1 := by
  rw [State.postponed, State.chan_refreshPut, tget_tput_self]
theorem State.count_refreshPut (s : State) (c b : Nat) :
    (s.refreshPut c b).rf STORE.DRAM_CNT2 31 16 = min 65535 (s.rf STORE.DRAM_CNT2 31 16 + 1) := by
  rw [State.refreshPut, State.rf_sat_self _ _ _ (by decide) (by decide), State.rf,
    State.rd_setChan_ne _ _ (chStat_ne (by decide) c)]
  rfl

section Refresh
variable (hup : s.storeUp = true)
include hup

theorem exec_refreshDue_issued (h : s.rbit STORE.DRAM_CTL 30 = false ∨ s.urgentBank (s.chan ch.val) bank.val = false ∨
      Config.refPostponeMax ≤ s.postponed ch.val bank.val) :
    exec (.refreshDue ch bank) s = .next (s.setChan ch.val { (s.chan ch.val).setRow bank.val none with
      postponed := tput (fun _ => 0) (s.chan ch.val).postponed bank.val 0 }) := by
  have hnot : ¬ (s.rbit STORE.DRAM_CTL 30 && s.urgentBank (s.chan ch.val) bank.val &&
      decide (s.postponed ch.val bank.val < Config.refPostponeMax)) = true := by
    rcases h with h | h | h <;> simp [h]
  rw [exec_refreshDue_eq, execRefreshDue, hup]
  exact congrArg _ (if_neg hnot)
theorem exec_refreshDue_postponed (hon : s.rbit STORE.DRAM_CTL 30 = true) (hu : s.urgentBank (s.chan ch.val) bank.val = true)
    (hp : s.postponed ch.val bank.val < Config.refPostponeMax) :
    exec (.refreshDue ch bank) s = .next (s.refreshPut ch.val bank.val) := by
  rw [exec_refreshDue_eq, execRefreshDue, hup]
  have hput : (s.rbit STORE.DRAM_CTL 30 && s.urgentBank (s.chan ch.val) bank.val &&
      decide (s.postponed ch.val bank.val < Config.refPostponeMax)) = true := by simp [hon, hu, hp]
  exact congrArg _ (if_pos hput)

end Refresh

theorem exec_mr4Poll_early (h : s.mr4Due ch.val = false) (rate : BitVec 3) (above : Bool) :
    exec (.mr4Poll ch rate above) s = .next s := by
  rw [exec_mr4Poll_eq, execMr4Poll, h]
  rfl
theorem exec_mr4Poll (h : s.mr4Due ch.val = true) (rate : BitVec 3) (above : Bool) : exec (.mr4Poll ch rate above) s =
    let u := (s.setChan ch.val { s.chan ch.val with mr4At := s.clock }).wf (STORE.CH_STAT ch.val) 23 21 rate.toNat
    .next (if above then (u.recordErr 8 0x86 (0x20 + ch.val) 0xFFFF 0 false).evt 8 24 else u) := by
  rw [exec_mr4Poll_eq, execMr4Poll, h]
  rfl

/-! The activate tables (R337). -/

/-- One channel's table is cleared. -/
def State.actsClear (s : State) (c : Nat) : State := s.setChan c { s.chan c with acts := [] }

theorem State.chan_actsClear_ne (s : State) {c d : Nat} (h : d ≠ c) : (s.actsClear c).chan d = s.chan d :=
  State.chan_setChan_ne s _ h
/-- Of several channels each has its table cleared, however often it is named. -/
theorem State.chan_foldl_actsClear (l : List Nat) (s : State) (c : Nat) (h : c ∈ l ∨ (s.chan c).acts = []) :
    (l.foldl State.actsClear s).chan c = { s.chan c with acts := [] } := by
  induction l generalizing s with
  | nil =>
    have hacts : (s.chan c).acts = [] := h.resolve_left List.not_mem_nil
    rw [List.foldl_nil, ← hacts]
  | cons d l ih =>
    rw [List.foldl_cons]
    by_cases hd : c = d
    · subst hd
      have hself : (s.actsClear c).chan c = { s.chan c with acts := [] } := State.chan_setChan_self ..
      rw [ih _ (.inr (congrArg Chan.acts hself)), hself]
    · have hne := s.chan_actsClear_ne hd
      rw [ih _ (h.imp (fun hm => (List.mem_cons.mp hm).resolve_left hd) fun ha => by rw [hne, ha]), hne]

/-- Every channel's table is cleared, as of now. -/
def State.actsCleared (s : State) : State :=
  (List.range 8).foldl State.actsClear (s.modStore fun x => { x with actAt := s.clock })

theorem State.actAt_actsCleared (s : State) : s.actsCleared.store.actAt = s.clock := by
  unfold State.actsCleared
  exact State.foldl_frame (·.store.actAt) (fun _ _ => by rfl) ..
theorem State.chan_actsCleared (s : State) {c : Nat} (h : c < 8) : s.actsCleared.chan c = { s.chan c with acts := [] } :=
  State.chan_foldl_actsClear _ _ c (.inl (List.mem_range.mpr h))
theorem State.rb_actsCleared (s : State) (a : Nat) : s.actsCleared.rb a = s.rb a := by
  unfold State.actsCleared
  exact State.foldl_frame (·.rb a) (fun _ _ => by rfl) ..

theorem exec_actTableClear_early (h : s.actDue = false) : exec .actTableClear s = .next s := by
  rw [exec_actTableClear_eq, execActTableClear, h]
  rfl
theorem exec_actTableClear (h : s.actDue = true) : exec .actTableClear s = .next s.actsCleared := by
  rw [exec_actTableClear_eq, execActTableClear, h]
  rfl

/-! Neighbour refresh (R338, R341). -/

theorem exec_nrStart {q : Nat × Nat} (hup : s.storeUp = true)
    (hq : (s.chan ch.val).nrPend.find? (fun r => r.1 = bank.val) = some q) (hp : (s.chan ch.val).paused = false)
    (ha : s.rtAged ch.val = false) (hh : s.holds kNR (18 + ch.val) = true)
    (hn : (s.chan ch.val).nrNow.any (fun r => r.1 = bank.val) = false) :
    exec (.nrStart ch bank) s = .next (s.setChan ch.val { (s.chan ch.val).setRow bank.val none with
      nrPend := (s.chan ch.val).nrPend.erase q, nrNow := (s.chan ch.val).nrNow ++ [q] }) := by
  simp only [exec_nrStart_eq, execNrStart, hq, hup, hp, ha, hh, hn, Bool.not_true, Bool.or_self, Bool.false_eq_true, if_false]
theorem exec_nrComplete {q : Nat × Nat} (hq : (s.chan ch.val).nrNow.find? (fun r => r.1 = bank.val) = some q) :
    exec (.nrComplete ch bank) s = .next (((s.setChan ch.val { s.chan ch.val with
      nrNow := (s.chan ch.val).nrNow.erase q }).sat STORE.DRAM_CNT0 31 16 1).nrSettle ch.val) := by
  simp only [exec_nrComplete_eq, execNrComplete, hq]

/-- Settles O21: a refresh by whether it may be postponed, the polls by whether they are due, a neighbour refresh by its list. -/
theorem refreshKeepsRows : Obligations.RefreshKeepsRows := by
  refine fun ch bank rate s hup => ⟨exec_refreshDue_issued hup, fun hon hu => ?_, fun above h => exec_mr4Poll_early h rate above,
    fun h => exec_mr4Poll h rate false, fun h => exec_mr4Poll h rate true, exec_actTableClear_early,
    fun h => ⟨_, exec_actTableClear h, State.actAt_actsCleared s, fun c => State.chan_actsCleared s, State.rb_actsCleared s⟩,
    fun q => exec_nrStart hup, fun q => exec_nrComplete⟩
  by_cases hp : s.postponed ch.val bank.val < Config.refPostponeMax
  · exact ⟨_, exec_refreshDue_postponed hup hon hu hp, fun _ => ⟨State.postponed_refreshPut ..,
      (congrArg Chan.rows (State.chan_refreshPut ..) :), State.count_refreshPut ..⟩⟩
  · exact ⟨_, exec_refreshDue_issued hup (.inr (.inr (Nat.not_lt.mp hp))), fun h => absurd h hp⟩

end Sys2Proof.Machine
end

section
/-! Retraining of a channel: what asks for the pause, the pause and its end (R340, R341). -/

namespace Sys2Proof.Machine

open Reg

variable {s : State} {ch : Fin 8} {c : Nat}

theorem exec_retrainPeriod_eq (s : State) : exec .retrainPeriod s = execRetrainPeriod s := rfl
theorem exec_retrainDrift_eq (ch : Fin 8) (drift : BitVec 16) (s : State) :
    exec (.retrainDrift ch drift) s = execRetrainDrift ch drift s := rfl
theorem exec_retrainAged_eq (ch : Fin 8) (s : State) : exec (.retrainAged ch) s = execRetrainAged ch s := rfl
theorem exec_retrainPauseStart_eq (ch : Fin 8) (s : State) : exec (.retrainPauseStart ch) s = execRetrainPauseStart ch s := rfl
theorem exec_retrainPauseEnd_eq (ch : Fin 8) (converged : Bool) (s : State) :
    exec (.retrainPauseEnd ch converged) s = execRetrainPauseEnd ch converged s := rfl
theorem exec_retrainRetry_eq (ch : Fin 8) (s : State) : exec (.retrainRetry ch) s = execRetrainRetry ch s := rfl

/-! STORE's state over what serves and what fails. -/

theorem State.live_iff {t : Nat} : s.live t = true ↔ s.life t = .ready ∨ s.life t = .draining := by
  rw [State.live, Bool.or_eq_true, decide_eq_true_eq, decide_eq_true_eq]
/-- A tile that serves is in no state but READY and DRAINING. -/
theorem State.life_ne_of_live {t : Nat} {l : Life} (h : s.live t = true) (hr : l ≠ .ready) (hd : l ≠ .draining) : s.life t ≠ l := by
  rintro rfl
  exact (State.live_iff.mp h).elim hr hd
/-- STORE's way into FAULT has no work of its own. -/
theorem State.faultHook_store (s u : State) : s.faultHook u 8 = u := by
  unfold State.faultHook
  split
  next h =>
    have hnew : u.life 8 = .fault := of_decide_eq_true (Bool.and_eq_true_iff.mp h).2
    simp [State.lifeHook, hnew]
  · rfl

/-! What asks for the pause (R340). -/

/-- A word's two's-complement value by its number is the word's own. -/
theorem sval_toNat {w : Nat} (x : BitVec w) : sval w x.toNat = x.toInt := by
  have hx := x.isLt
  rw [sval_of_lt hx, BitVec.toInt_eq_toNat_cond]
  cases w with
  | zero => simp [Nat.lt_one_iff.mp hx]
  | succ w =>
    rw [Nat.add_sub_cancel, Nat.pow_succ]
    by_cases h : x.toNat < 2 ^ w
    · rw [if_pos h, if_pos (by omega)]
    · rw [if_neg h, if_neg (by omega)]

section Asks
variable (hup : s.storeUp = true)
include hup

theorem exec_retrainPeriod (hon : s.rbit STORE.RETRAIN_CTL 31 = true) (hms : s.rf STORE.RETRAIN_CTL 23 16 ≠ 0)
    (ht : (s.chan s.store.rtNext).rtAt + s.rf STORE.RETRAIN_CTL 23 16 * 500000 ≤ s.clock) : exec .retrainPeriod s =
    .next (((s.setChan s.store.rtNext { s.chan s.store.rtNext with rtAt := s.clock }).modStore fun y =>
      { y with rtNext := (y.rtNext + 1) % 8 }).askToken kRETRAIN (18 + s.store.rtNext)) := by
  simp [exec_retrainPeriod_eq, execRetrainPeriod, hup, hon, hms, Nat.not_lt.mpr ht]

theorem exec_retrainDrift (drift : BitVec 16) : exec (.retrainDrift ch drift) s =
    let u := s.wf (STORE.CH_STAT ch.val) 15 0 drift.toNat
    .next (if s.rbit STORE.RETRAIN_CTL 31 = true ∧ max 1 (s.rf STORE.RETRAIN_CTL 15 8) ≤ drift.toInt.natAbs then
      u.askToken kRETRAIN (18 + ch.val) else u) := by
  simp only [exec_retrainDrift_eq, execRetrainDrift, hup, sval_toNat, Bool.not_true, Bool.false_eq_true, if_false,
    Bool.and_eq_true, decide_eq_true_eq]

theorem exec_retrainRetry (hr : (s.chan ch.val).rtRetry = true) (ht : (s.chan ch.val).failAt + 500000 ≤ s.clock) :
    exec (.retrainRetry ch) s =
      .next ((s.setChan ch.val { s.chan ch.val with rtRetry := false }).askToken kRETRAIN (18 + ch.val)) := by
  simp [exec_retrainRetry_eq, execRetrainRetry, hup, hr, Nat.not_lt.mpr ht]

end Asks

theorem exec_retrainPeriod_early (h : s.rbit STORE.RETRAIN_CTL 31 = false ∨ s.rf STORE.RETRAIN_CTL 23 16 = 0 ∨
      s.clock < (s.chan s.store.rtNext).rtAt + s.rf STORE.RETRAIN_CTL 23 16 * 500000) : exec .retrainPeriod s = .next s := by
  rw [exec_retrainPeriod_eq, execRetrainPeriod]
  exact congrArg _ (if_pos (by rcases h with h | h | h <;> simp [h]))
theorem exec_retrainRetry_early (h : (s.chan ch.val).rtRetry = false ∨ s.clock < (s.chan ch.val).failAt + 500000) :
    exec (.retrainRetry ch) s = .next s := by
  rw [exec_retrainRetry_eq, execRetrainRetry]
  exact congrArg _ (if_pos (by rcases h with h | h <;> simp [h]))

/-! An aged request (R341, R470). -/

/-- The requests with the channel's retraining aged where it is old. -/
def State.retrainAges (s : State) (c : Nat) : List Token := s.tokenReqs.map fun q =>
  if q.kind = kRETRAIN && q.scope = 18 + c && q.holder = .unit && s.tokenOld q then { q with aged := true } else q

theorem exec_retrainAged (ch : Fin 8) (s : State) : exec (.retrainAged ch) s =
    .next ((State.arbitrate { s with tokenReqs := s.retrainAges ch.val }).nrSettle ch.val) := rfl
theorem State.mem_retrainAges {q : Token} (hq : q ∈ s.tokenReqs) (ho : s.tokenOld q = true) (hk : q.kind = kRETRAIN)
    (hs : q.scope = 18 + c) (hh : q.holder = .unit) : { q with aged := true } ∈ s.retrainAges c :=
  List.mem_map.mpr ⟨q, hq, if_pos (by simp [ho, hk, hs, hh])⟩

/-! The pause (R340). -/

/-- The channel is paused with every bank's row closed. -/
def State.retrainPaused (s : State) (c : Nat) : State :=
  (s.setChan c { s.chan c with rows := [], paused := true }).sat STORE.DRAM_CNT0 15 0 1

theorem exec_retrainPauseStart (hup : s.storeUp = true) (hp : (s.chan ch.val).paused = false)
    (hh : s.holds kRETRAIN (18 + ch.val) = true) (hn : (s.chan ch.val).nrNow = [])
    (hall : ∀ d, d < 8 → (s.chan d).paused = false) : exec (.retrainPauseStart ch) s = .next (s.retrainPaused ch.val) := by
  have hany : (List.range 8).any (fun d => (s.chan d).paused) = false :=
    List.any_eq_false.mpr fun d hd => by simp [hall d (List.mem_range.mp hd)]
  rw [exec_retrainPauseStart_eq, execRetrainPauseStart]
  exact congrArg _ (if_neg (by simp only [hup, hp, hh, hn, hany]; decide))
theorem State.chan_retrainPaused_self (s : State) (c : Nat) :
    (s.retrainPaused c).chan c = { s.chan c with rows := [], paused := true } := by
  rw [State.retrainPaused, State.chan_sat, State.chan_setChan_self]
theorem State.chan_retrainPaused_ne (s : State) {d : Nat} (h : d ≠ c) : (s.retrainPaused c).chan d = s.chan d := by
  rw [State.retrainPaused, State.chan_sat, State.chan_setChan_ne _ _ h]

/-! The end of the pause (R340). -/

theorem exec_retrainPauseEnd (ch : Fin 8) (converged : Bool) (s : State) :
    exec (.retrainPauseEnd ch converged) s = .next (s.retrainEnd ch.val converged) := by
  rw [exec_retrainPauseEnd_eq, execRetrainPauseEnd, State.faultHook_store]

/-- The pause ends trained. -/
def State.retrained (s : State) (c : Nat) : State :=
  ((s.releaseToken kRETRAIN (18 + c)).setChan c { s.chan c with paused := false, rtFails := 0, rtRetry := false }).wf
    (STORE.CH_STAT c) 15 0 0

/-- The pause ends with one more failure, counted and recorded. -/
def State.retrainFailed (s : State) (c : Nat) : State :=
  ((((s.releaseToken kRETRAIN (18 + c)).setChan c { s.chan c with
    paused := false, rtFails := (s.chan c).rtFails + 1, rtRetry := true, failAt := s.clock }).recordErr
      8 0x84 (0x20 + c) 0xFFFF 0 false).sat STORE.DRAM_CNT2 15 8 1).evt 8 23

theorem State.chan_retrained (s : State) (c : Nat) :
    (s.retrained c).chan c = { s.chan c with paused := false, rtFails := 0, rtRetry := false } := by
  rw [State.retrained, State.chan_wf, State.chan_setChan_self]
/-- A trained channel has no drift. -/
theorem State.drift_retrained (s : State) (c : Nat) : (s.retrained c).rf (STORE.CH_STAT c) 15 0 = 0 := by
  rw [State.rf, State.retrained, State.rd_wf_self, fld_putFld_self _ _ (by decide) (by decide), Nat.zero_mod]
theorem State.chan_retrainFailed (s : State) (c : Nat) : (s.retrainFailed c).chan c =
    { s.chan c with paused := false, rtFails := (s.chan c).rtFails + 1, rtRetry := true, failAt := s.clock } := by
  rw [State.retrainFailed, State.chan_evt, State.chan_sat, State.chan_recordErr, State.chan_setChan_self]
theorem State.evtPend_retrainFailed (s : State) (c : Nat) : bit ((s.retrainFailed c).tile 8).evtPend 23 = true := by
  rw [State.retrainFailed, State.tile_evt]
  simp [bit, wd]
theorem State.life_retrainFailed (hl : s.life 8 ≠ .off) : (s.retrainFailed c).life 8 = s.life 8 := by
  have hfreed : ∀ x, ((s.releaseToken kRETRAIN (18 + c)).setChan c x).life 8 = s.life 8 := fun x => by
    rw [State.life, State.tile_setChan, State.tile_releaseToken _ _ _ (by decide), State.life]
  rw [State.retrainFailed, State.life, State.tile_evt, State.tile_sat]
  exact (State.life_recordErr (by rwa [hfreed])).trans (hfreed _)

section Ends
variable (hp : (s.chan c).paused = true)
include hp

theorem State.retrainEnd_trained : s.retrainEnd c true = s.retrained c := by
  rw [State.retrainEnd, hp]
  rfl
/-- The eighth failure in succession is fatal. -/
theorem State.retrainEnd_untrained : s.retrainEnd c false = if 8 ≤ (s.chan c).rtFails + 1 then
    (s.retrainFailed c).recordErr 8 0x85 (0x20 + c) 0xFFFF 0 true else s.retrainFailed c := by
  rw [State.retrainEnd, hp]
  rfl

end Ends

/-- Settles O22: the period, the drift and a failure by what each waits for, the pause by what it leaves of the channels, its end by
the count of failures. -/
theorem retrainingPausesOneChannel : Obligations.RetrainingPausesOneChannel := by
  intro ch drift s hup
  have hoff : s.life 8 ≠ .off := State.life_ne_of_live hup (by decide) (by decide)
  have hreset : s.life 8 ≠ .reset := State.life_ne_of_live hup (by decide) (by decide)
  refine ⟨exec_retrainPeriod hup, exec_retrainPeriod_early, fun hon hd => ?_, fun h => ?_,
    ⟨_, exec_retrainAged ch s, fun q => State.mem_retrainAges⟩,
    fun hp hh hn hall => ⟨_, exec_retrainPauseStart hup hp hh hn hall, State.chan_retrainPaused_self ..,
      fun d => s.chan_retrainPaused_ne⟩,
    fun hp => ⟨_, exec_retrainPauseEnd .., ?_⟩, fun hp hf => ⟨_, exec_retrainPauseEnd .., ?_⟩,
    fun hp hf => ⟨_, exec_retrainPauseEnd .., ?_⟩, exec_retrainRetry_early, exec_retrainRetry hup⟩
  · exact (exec_retrainDrift hup drift).trans (congrArg _ (if_pos ⟨hon, hd⟩))
  · refine (exec_retrainDrift hup drift).trans (congrArg _ (if_neg fun ⟨hon, hd⟩ => ?_))
    exact h.elim (fun hoff => absurd (hon.symm.trans hoff) (by decide)) (Nat.not_lt.mpr hd)
  · rw [State.retrainEnd_trained hp, State.chan_retrained]
    exact ⟨rfl, rfl, State.drift_retrained ..⟩
  · rw [State.retrainEnd_untrained hp, if_neg (by omega), State.chan_retrainFailed]
    exact ⟨rfl, rfl, rfl, State.evtPend_retrainFailed .., State.life_retrainFailed hoff⟩
  · have hlife : (s.retrainFailed ch.val).life 8 = s.life 8 := State.life_retrainFailed hoff
    rw [State.retrainEnd_untrained hp, if_pos (by omega), State.recordErr_fatal]
    have hrec := State.life_recordErr (cause := 0x85) (unit := 0x20 + ch.val) (detail := 0xFFFF) (addr := 0) (by rwa [hlife])
    rw [hlife] at hrec
    exact State.life_enterFault (by decide) (by rwa [hrec]) (by rwa [hrec])

end Sys2Proof.Machine
end

section
/-! Page repair and the mapping masks (R328, R342, R343). -/

namespace Sys2Proof.Machine

open Reg

variable {s : State} {by_ : Req} {tag : Tag}

theorem exec_repairRetire_eq (by_ : Req) (tag : Tag) (s : State) : exec (.repairRetire by_ tag) s = execRepairRetire by_ tag s := rfl
theorem exec_repairQuery_eq (by_ : Req) (tag : Tag) (s : State) : exec (.repairQuery by_ tag) s = execRepairQuery by_ tag s := rfl
theorem exec_repairIllegalOp_eq (by_ : Req) (tag : Tag) (s : State) :
    exec (.repairIllegalOp by_ tag) s = execRepairIllegalOp by_ tag s := rfl
theorem exec_repairPpr_eq (by_ : Req) (tag : Tag) (spare : Bool) (s : State) :
    exec (.repairPpr by_ tag spare) s = execRepairPpr by_ tag spare s := rfl
theorem exec_repairAck_eq (by_ : Req) (tag : Tag) (s : State) : exec (.repairAck by_ tag) s = execRepairAck by_ tag s := rfl
theorem exec_pprDone_eq (verified : Bool) (s : State) : exec (.pprDone verified) s = execPprDone verified s := rfl
theorem exec_mapMaskWrite_eq (by_ : Req) (i : Fin 7) (val : Word) (s : State) :
    exec (.mapMaskWrite by_ i val) s = execMapMaskWrite by_ i val s := rfl

/-! The fields of a posted result (R342). -/

theorem b2n_le_one (b : Bool) : b2n b ≤ 1 := by cases b <;> decide
theorem decide_b2n (b : Bool) : decide (b2n b = 1) = b := by cases b <;> rfl
theorem State.mapBit_le_one (s : State) (a i : Nat) : s.mapBit a i ≤ 1 := b2n_le_one _
theorem State.chOf_lt (s : State) (a : Nat) : s.chOf a < 8 := by
  have h0 := s.mapBit_le_one a 0
  have h1 := s.mapBit_le_one a 1
  have h2 := s.mapBit_le_one a 2
  rw [State.chOf]
  omega
theorem State.bankOf_lt (s : State) (a : Nat) : s.bankOf a < 16 := by
  have h3 := s.mapBit_le_one a 3
  have h4 := s.mapBit_le_one a 4
  have h5 := s.mapBit_le_one a 5
  have h6 := s.mapBit_le_one a 6
  rw [State.bankOf]
  omega
/-- A bit of a number's word. -/
theorem bit_wd {n k : Nat} (h : n < 2 ^ 32) : bit (wd n) k = decide (n / 2 ^ k % 2 = 1) := by
  rw [bit, ← BitVec.testBit_toNat, wd, BitVec.toNat_ofNat, Nat.mod_eq_of_lt h, Nat.testBit_eq_decide_div_mod_eq]

section Post
variable (s : State) (page : Nat) (tag : Tag) (code : Nat)

@[simp] theorem State.store_repairPost : (s.repairPost page tag code).store = s.store := by
  rw [State.repairPost, State.store_evt, State.pathPost, State.wr_store]
@[simp] theorem State.rb_repairPost (a : Nat) : (s.repairPost page tag code).rb a = s.rb a := by
  rw [State.repairPost, State.rb_evt, State.pathPost, State.rb_wr]
theorem State.evtPend_repairPost : bit ((s.repairPost page tag code).tile 8).evtPend 22 = true := by
  rw [State.repairPost, State.tile_evt]
  simp [bit, wd]

/-- The result word holds VALID, the code, the page's retirement bit and the tag, beside its channel and bank. -/
theorem State.repairPost_shows (hcode : code < 8) : (s.repairPost page tag code).rbit STORE.REPAIR_RESULT 31 = true ∧
    (s.repairPost page tag code).rf STORE.REPAIR_RESULT 29 27 = code ∧
    (s.repairPost page tag code).rbit STORE.REPAIR_RESULT 26 = tflag s.store.retired page ∧
    (s.repairPost page tag code).rf STORE.REPAIR_RESULT 7 0 = tag.toNat := by
  have htag := tag.isLt
  have hch := s.chOf_lt (2048 * page)
  have hbank := s.bankOf_lt (2048 * page)
  have hret := b2n_le_one (tflag s.store.retired page)
  have hrd : (s.repairPost page tag code).rd STORE.REPAIR_RESULT = wd (2 ^ 31 + (code * 2 ^ 27 + b2n (tflag s.store.retired page) * 2 ^ 26
      + s.chOf (2048 * page) * 2 ^ 23 + s.bankOf (2048 * page) * 2 ^ 19) + tag.toNat * 2 ^ 0) := by
    rw [State.repairPost, State.rd_evt, State.rd_pathPost]
  simp only [State.rbit, State.rf, hrd]
  refine ⟨?_, ?_, ?_, ?_⟩
  · rw [bit_wd (by omega)]
    exact decide_eq_true (by omega)
  · rw [fld_wd (by omega)]
    omega
  · rw [bit_wd (by omega)]
    refine Eq.trans (decide_eq_decide.mpr ?_) (decide_b2n _)
    omega
  · rw [fld_wd (by omega)]
    omega

end Post

/-! RETIRE, QUERY and other ops (R342). -/

@[simp] theorem State.rb_retirePage (s : State) (page a : Nat) : (s.retirePage page).rb a = s.rb a := by
  unfold State.retirePage
  split <;> rfl
theorem State.retired_retirePage (s : State) (page : Nat) : tflag (s.retirePage page).store.retired page = true := by
  unfold State.retirePage
  split
  · assumption
  · rw [State.store_wf, State.modStore_store]
    exact tget_tput_self (fun _ => false) s.store.retired page true

section Command
variable (ha : s.accepts by_ 8 = true)
include ha

theorem exec_repairAck (hv : s.rbit STORE.REPAIR_RESULT 31 = true) (ht : s.pathTag STORE.REPAIR_RESULT 0 = tag) :
    exec (.repairAck by_ tag) s = .next (s.wr STORE.REPAIR_RESULT 0) := by
  rw [exec_repairAck_eq, execRepairAck, State.onWrite_accepts _ ha]
  exact congrArg _ (if_pos (by simp [hv, ht]))

variable (hf : s.pathFree STORE.REPAIR_RESULT = true)
include hf

theorem State.repairCmd_taken (f : State → State) : s.repairCmd by_ f = f s := by
  rw [State.repairCmd, State.onWrite_accepts _ ha, if_pos hf]
theorem exec_repairRetire : exec (.repairRetire by_ tag) s = .next (if 3866624 ≤ s.repairPage then s.repairPost s.repairPage tag 1
    else (s.retirePage s.repairPage).repairPost s.repairPage tag 0) := by
  rw [exec_repairRetire_eq, execRepairRetire, State.repairCmd_taken ha hf]
theorem exec_repairQuery : exec (.repairQuery by_ tag) s = .next (s.repairPost s.repairPage tag 0) := by
  rw [exec_repairQuery_eq, execRepairQuery, State.repairCmd_taken ha hf]
theorem exec_repairIllegalOp : exec (.repairIllegalOp by_ tag) s = .next (s.repairPost s.repairPage tag 4) := by
  rw [exec_repairIllegalOp_eq, execRepairIllegalOp, State.repairCmd_taken ha hf]

/-! PPR (R343). -/

theorem exec_repairPpr_otherState (spare : Bool)
    (hl : s.life 8 ≠ if s.rbit STORE.REPAIR_ARG 31 then Life.held else Life.ready) :
    exec (.repairPpr by_ tag spare) s = .next (s.repairPost s.repairPage tag 3) := by
  rw [exec_repairPpr_eq, execRepairPpr, State.repairCmd_taken ha hf]
  exact congrArg _ (if_pos (bne_iff_ne.mpr hl))

variable (hl : s.life 8 = if s.rbit STORE.REPAIR_ARG 31 then Life.held else Life.ready)
include hl

theorem exec_repairPpr_noSpare : exec (.repairPpr by_ tag false) s = .next (s.repairPost s.repairPage tag 2) := by
  rw [exec_repairPpr_eq, execRepairPpr, State.repairCmd_taken ha hf]
  exact congrArg _ ((if_neg (by simp [hl])).trans (if_pos rfl))
theorem exec_repairPpr_asks
    (hs : s.store.soft.contains (16 * s.chOf (2048 * s.repairPage) + s.bankOf (2048 * s.repairPage)) = false) :
    exec (.repairPpr by_ tag true) s = .next (((s.pathBusy STORE.REPAIR_RESULT 0 tag).modStore fun x => { x with
      ppr := some { page := s.repairPage, hard := s.rbit STORE.REPAIR_ARG 31, tag := tag } }).askToken kSUBST
        (18 + s.chOf (2048 * s.repairPage))) := by
  rw [exec_repairPpr_eq, execRepairPpr, State.repairCmd_taken ha hf]
  exact congrArg _ ((if_neg (by simp [hl])).trans (if_neg (by rw [hs]; simp)))

end Command

/-! The end of a repair (R343). -/

/-- The repair leaves its unit, its token and the row of its bank. -/
def State.pprLeft (s : State) (p : Ppr) : State :=
  let c := s.chOf (2048 * p.page)
  let u := (s.modStore fun x => { x with ppr := none }).releaseToken kSUBST (18 + c)
  u.setChan c ((u.chan c).setRow (s.bankOf (2048 * p.page)) none)

/-- What a repair's end says of it: a verified one is counted and, soft, uses its bank's resource; another is cause 0x87. -/
def State.pprNoted (s : State) (p : Ppr) (ok : Bool) : State :=
  let c := s.chOf (2048 * p.page)
  let b := s.bankOf (2048 * p.page)
  let u := s.pprLeft p
  if ok then
    if p.hard then u.sat STORE.DRAM_CNT2 7 0 1
    else ((u.sat STORE.DRAM_CNT2 7 0 1).modStore fun x => { x with soft := x.soft ++ [16 * c + b] }).sat STORE.REPAIR_STATUS 7 0 1
  else u.recordErr 8 0x87 (0x20 + c) b 0 false

theorem State.ppr_setChan (s : State) (c : Nat) (x : Chan) : (s.setChan c x).store.ppr = s.store.ppr := rfl
theorem State.ppr_pprLeft (s : State) (p : Ppr) : (s.pprLeft p).store.ppr = none := by
  unfold State.pprLeft
  extract_lets c u
  rw [State.ppr_setChan, State.store_releaseToken, State.modStore_store]
theorem State.ppr_pprNoted (s : State) (p : Ppr) (ok : Bool) : (s.pprNoted p ok).store.ppr = none := by
  unfold State.pprNoted
  extract_lets c b u
  have hu : u.store.ppr = none := s.ppr_pprLeft p
  split
  · split
    · rw [State.store_sat, hu]
    · rw [State.store_sat, State.modStore_store, State.store_sat, hu]
  · rw [State.store_recordErr, hu]

theorem exec_pprDone {p : Ppr} (hp : s.store.ppr = some p) (hh : s.holds kSUBST (18 + s.chOf (2048 * p.page)) = true) (ok : Bool) :
    exec (.pprDone ok) s = .next ((s.pprNoted p ok).repairPost p.page p.tag (if ok then 0 else 5)) := by
  simp only [exec_pprDone_eq, execPprDone, hp, hh, Bool.not_true, Bool.false_eq_true, if_false]
  cases ok <;> rfl

/-! The mapping masks (R328). -/

/-- The masks lie above their status word. -/
theorem mapMask_ne_status (i : Nat) : STORE.MAP_MASK0 + 4 * i ≠ STORE.MAP_STATUS := by
  change (0x8004010 + 4 * i : Nat) ≠ 0x800400C
  omega

/-- A mask is written and waits for the way to READY. -/
def State.maskWaits (s : State) (i : Nat) (val : Word) : State :=
  (s.wr (STORE.MAP_MASK0 + 4 * i) (val &&& 0x01FFFFFF)).wr STORE.MAP_STATUS (putBit (s.rd STORE.MAP_STATUS) 31 true)

theorem State.rd_maskWaits (s : State) (i : Nat) (val : Word) :
    (s.maskWaits i val).rd (STORE.MAP_MASK0 + 4 * i) = val &&& 0x01FFFFFF := by
  rw [State.maskWaits, State.rd_wr_ne _ _ (mapMask_ne_status i), State.rd_wr_self]
theorem State.waits_maskWaits (s : State) (i : Nat) (val : Word) : (s.maskWaits i val).rbit STORE.MAP_STATUS 31 = true := by
  rw [State.rbit, State.maskWaits, State.rd_wr_self, bit_putBit_self _ _ (by decide)]

theorem exec_mapMaskWrite (hm : reqMgmt by_ = true) (hl : s.life 8 = .held) (i : Fin 7) (val : Word) :
    exec (.mapMaskWrite by_ i val) s = .next (s.maskWaits i.val val) := by
  have ha : s.accepts by_ 8 = true := by simp [State.accepts, hl, hm]
  rw [exec_mapMaskWrite_eq, execMapMaskWrite, State.onWrite_accepts _ ha]
  exact congrArg _ (if_pos (by simp [hm, hl]))

/-- Settles O23: a repair command by its op, its page and STORE's state, a repair's end by its verification, and a mask by its requester. -/
theorem repairCommandsPostResults : Obligations.RepairCommandsPostResults := by
  refine fun by_ tag i val p s => ⟨fun ha hf => ⟨fun hin => ⟨_, exec_repairRetire ha hf, ?_⟩, fun hout => ?_,
      exec_repairQuery ha hf, exec_repairIllegalOp ha hf, exec_repairPpr_otherState ha hf,
      fun hl => ⟨exec_repairPpr_noSpare ha hf hl, exec_repairPpr_asks ha hf hl⟩⟩, exec_repairAck,
    fun hp hh ok => ⟨_, exec_pprDone hp hh ok, ?_⟩,
    fun hm hl => ⟨_, exec_mapMaskWrite hm hl i val, State.rd_maskWaits .., State.waits_maskWaits .., rfl, fun _ => rfl⟩⟩
  · rw [if_neg (Nat.not_le.mpr hin)]
    obtain ⟨hvalid, hcode, hbit, htag⟩ := (s.retirePage s.repairPage).repairPost_shows s.repairPage tag 0 (by decide)
    have hret := s.retired_retirePage s.repairPage
    exact ⟨by rw [State.store_repairPost, hret], hvalid, hcode, hbit.trans hret, htag, fun a => by
      rw [State.rb_repairPost, State.rb_retirePage]⟩
  · rw [exec_repairRetire ha hf, if_pos hout]
  · have hcode : (if ok = true then 0 else 5) < 8 := by split <;> decide
    obtain ⟨hvalid, hc, -, htag⟩ := (s.pprNoted p ok).repairPost_shows p.page p.tag (if ok then 0 else 5) hcode
    exact ⟨by rw [State.store_repairPost, State.ppr_pprNoted], hvalid, hc, htag, State.evtPend_repairPost ..⟩

end Sys2Proof.Machine
end

section
/-! A step: the front command, or one cycle of the clock (R411). -/

namespace Sys2Proof.Machine

variable {s : State}

theorem step_of_cons {c : Instr} {rest : List Instr} (h : s.pending = c :: rest) :
    step s = exec c { s with pending := rest } := by
  rw [step, h]
theorem step_of_nil (h : s.pending = []) : step s = .next s.cycle := by
  rw [step, h]
theorem step_push (c : Instr) (s : State) : step (s.push c) = exec c s := rfl

theorem State.newtTick_idle (hrx : s.newt.rx = none) (hack : s.newt.ackEnd ≠ s.clock) : s.newtTick = s := by
  rw [State.newtTick, hrx]
  exact if_neg hack

/-- While Newt neither acquires a frame nor ends an Ack, a cycle is the TIME island's alone. -/
theorem State.cycle_idle (hrx : s.newt.rx = none) (hack : s.newt.ackEnd ≠ s.clock + 1) : s.cycle = s.timeCycle :=
  State.newtTick_idle hrx hack

/-- Settles O1: a step by the queue's front, and a cycle of an empty queue by what Newt does in it. -/
theorem stepRunsTheFrontCommand : Obligations.StepRunsTheFrontCommand := by
  refine ⟨fun _ _ _ => step_of_cons, step_push, fun s hp => ⟨s.cycle, step_of_nil hp, ?_, s.cycle_keeps.clock, fun hrx hack => ?_⟩⟩
  · rw [s.cycle_keeps.pending, State.timeCycle, hp]
  · rw [State.cycle_idle hrx hack]
    exact ⟨rfl, fun _ => rfl, fun _ => rfl, fun _ => rfl, fun _ => rfl⟩

end Sys2Proof.Machine
end

section
/-! Fields of a word beside one that is replaced (R6). -/

namespace Sys2Proof.Machine

theorem testBit_fld (w : Word) (hi lo i : Nat) :
    (fld w hi lo).testBit i = (decide (i < hi - lo + 1) && bit w (lo + i)) := by
  rw [fld, Nat.testBit_mod_two_pow, Nat.testBit_shiftRight, BitVec.testBit_toNat, bit]

/-- A field above or below the one replaced stays. -/
theorem fld_putFld_beside (w : Word) {hi lo hi' lo' : Nat} (v : Nat) (hle : lo ≤ hi) (hle' : lo' ≤ hi') (h : hi' < lo ∨ hi < lo') :
    fld (putFld w hi lo v) hi' lo' = fld w hi' lo' := by
  refine Nat.eq_of_testBit_eq fun i => ?_
  rw [testBit_fld, testBit_fld]
  by_cases hi' : i < hi' - lo' + 1
  · rcases h with hbelow | habove
    · rw [bit_putFld_below w v (by omega)]
    · rw [bit_putFld_above w v hle (by omega)]
  · rw [decide_eq_false hi', Bool.false_and, Bool.false_and]

end Sys2Proof.Machine
end

section
/-! The classifier's frames: injection, the parse and the eight stages; the words that enable its tables (R347, R349, R357, R362). -/

namespace Sys2Proof.Machine

open Reg

variable {s : State} {by_ : Req} {k : Fin 11} {f : ClsFrame}

theorem exec_clsParse_eq (k : Fin 11) (s : State) : exec (.clsParse k) s = execClsParse k s := rfl
theorem exec_clsStageLookup_eq (k : Fin 11) (m : Fin 64) (s : State) :
    exec (.clsStageLookup k m) s = execClsStageLookup k m s := rfl

theorem exec_clsInj (ha : s.accepts by_ 9 = true) (val : Word) : exec (.clsInj by_ val) s = .next (s.clsInject val) :=
  congrArg _ (State.onWrite_accepts _ ha)

/-! The parse of an ingress's first frame not yet read (R349). -/

section Parse
variable {n : Nat} (hn : (s.clsQueue k.val).findIdx? (fun f => f.m = [] && f.out = .open_) = some n)
  (hf : (s.clsQueue k.val)[n]? = some f) (hl : s.live 9 = true)
include hn hf hl

theorem exec_clsParse_reads (hr : (s.clsRead f.src.desc).2 = true) :
    exec (.clsParse k) s = .next ((s.clsRead f.src.desc).1.clsParsed k.val n f) := by
  simp [exec_clsParse_eq, execClsParse, hn, hf, hl, hr]

theorem exec_clsParse_drops (hr : (s.clsRead f.src.desc).2 = false) :
    exec (.clsParse k) s =
      let s1 := (s.clsRead f.src.desc).1
      let s2 := if s.storeUp then s1.recordErr 9 0x80 0xFF 0 f.src.desc false else s1
      .next ((s2.sat CLASS.CLS_CNT3 31 24 1).clsDrop k.val n f) := by
  simp [exec_clsParse_eq, execClsParse, hn, hf, hl, hr]

end Parse

/-- A stage (R357): the frame goes on, or is disposed of after the last and after a STOP. -/
theorem exec_clsStageLookup {m : Fin 64} (hf : (s.clsQueue k.val)[m.val]? = some f) (hl : s.live 9 = true) (hm : f.m ≠ [])
    (ho : f.out = .open_) (hst : f.stage < 8) :
    exec (.clsStageLookup k m) s =
      let r := s.clsStage f.stage f
      let g := { r.2.1 with stage := f.stage + 1 }
      .next (if r.2.2 = true ∨ f.stage = 7 then r.1.clsDispose k.val m.val g else r.1.setClsFrame k.val m.val g) := by
  simp [exec_clsStageLookup_eq, execClsStageLookup, hf, hl, hm, ho, Nat.not_le.mpr hst]

/-! The word that enables a table (R362). -/


section Enable
variable {t : Fin 19} (ha : s.accepts by_ 9 = true)
include ha

theorem exec_tableEnable (val : Word) : exec (.tableEnable by_ t val) s = .next (s.tableWrite t.val val) :=
  congrArg _ (State.onWrite_accepts _ ha)

theorem exec_tableEnable_em_inUse (ht : t.val < 16) (hen : s.rbit (tableReg t.val) 31 = true) (val : Word) :
    exec (.tableEnable by_ t val) s =
      .next (s.wr (tableReg t.val) (putBit (s.rd (tableReg t.val)) 31 (bit val 31))) := by
  rw [exec_tableEnable ha, State.tableWrite]
  simp only [ht, hen, if_true]

theorem exec_tableEnable_em (ht : t.val < 16) (hen : s.rbit (tableReg t.val) 31 = false) (val : Word) :
    exec (.tableEnable by_ t val) s =
      let s1 := s.wr (tableReg t.val) (val &&& 0x30)
      .next (if bit val 31 = true then s1.tableOn t.val (tableReg t.val) 31 (s1.emBase t.val)
        ((s1.emKeyw t.val + 16) * (4 * 2 ^ s1.emLog t.val)) (CLASS.EM_TBL_W3 t.val) else s1) := by
  rw [exec_tableEnable ha, State.tableWrite]
  simp only [ht, hen, if_true, if_false, Bool.false_eq_true]

theorem exec_tableEnable_inUse (ht : 16 ≤ t.val) (hen : s.rbit (tableReg t.val) 0 = true) (val : Word) :
    exec (.tableEnable by_ t val) s = .next (s.wr (tableReg t.val)
      ((s.rd (tableReg t.val) &&& 0xFFFFF000) ||| (val &&& ((if t.val = 16 then 2 else 0) ||| 1)))) := by
  rw [exec_tableEnable ha, State.tableWrite]
  simp only [Nat.not_lt.mpr ht, hen, if_true, if_false]

end Enable

/-- Settles O45: injection, the parse by the window's read, a stage by its outcome, and the enabling words by the table's use. -/
theorem classifierStagesRunInOrder : Obligations.ClassifierStagesRunInOrder := by
  refine fun by_ k m t val s => ⟨fun ha => exec_clsInj ha val,
    fun n f hn hf hl => ⟨exec_clsParse_reads hn hf hl, exec_clsParse_drops hn hf hl⟩,
    fun f hf hl hm ho hst => exec_clsStageLookup hf hl hm ho hst,
    fun ha ht hen => ⟨_, exec_tableEnable_em_inUse ha ht hen val, ?_, fun n hn => ?_, fun a h => State.rd_wr_ne _ _ h⟩,
    fun ha ht hen => ⟨fun hv => ?_, fun hv => ?_⟩, fun ha ht hen => exec_tableEnable_inUse ha ht hen val⟩
  · rw [State.rbit, State.rd_wr_self, bit_putBit_self _ _ (by decide)]
  · rw [State.rbit, State.rd_wr_self, putBit, bit_putFld_below _ _ hn, State.rbit]
  · rw [exec_tableEnable_em ha ht hen]
    simp only [hv, if_false, Bool.false_eq_true]
  · rw [exec_tableEnable_em ha ht hen]
    simp only [hv, if_true]

end Sys2Proof.Machine
end

section
/-! Commands of the classifier's tables: the queue they wait in, and what those of routes and lookups do (R361, R362, R364, R367). -/

namespace Sys2Proof.Machine

open Reg

variable {s : State} {by_ : Req} {k : Fin 16} {tag : BitVec 4} {c : ClsCmd} {full v6 : Bool}

theorem exec_tableCommandDone_eq (full : Bool) (s : State) : exec (.tableCommandDone full) s = execTableCommandDone full s := rfl
theorem exec_tcmdAck_eq (by_ : Req) (k : Fin 16) (tag : BitVec 4) (s : State) :
    exec (.tcmdAck by_ k tag) s = execTcmdAck by_ k tag s := rfl
theorem exec_tableClearDone_eq (t : Fin 19) (s : State) : exec (.tableClearDone t) s = execTableClearDone t s := rfl

/-! A command joins the queue, or is dropped (R367). -/

/-- A command with the arguments of its slot. -/
def State.tcmdOf (s : State) (k op table len : Nat) (tag : BitVec 4) : ClsCmd where
  slot := k
  op := op
  table := table
  len := len
  tag := tag.toNat
  args := (List.range 5).map fun j => (s.rd (CLASS.TCMD_ARG k j)).toNat

/-- A command in the queue, its slot BUSY under its tag. -/
def State.tcmdQueued (s : State) (k op table len : Nat) (tag : BitVec 4) : State :=
  (s.wr (CLASS.TCMD_RES k) (wd (2 ^ 30 + tag.toNat))).modCls fun x => { x with
    cmds := x.cmds ++ [s.tcmdOf k op table len tag] }

theorem State.tcmd_queued {k : Nat} (ha : s.accepts by_ 9 = true) (hl : s.live 9 = true)
    (hf : s.pathFree (CLASS.TCMD_RES k) = true) (op table len : Nat) :
    s.tcmd by_ k op table len tag = s.tcmdQueued k op table len tag := by
  rw [State.tcmd, State.onWrite_accepts _ ha]
  exact if_neg (by simp [hf, hl])

theorem State.tcmd_dropped {k : Nat} (ha : s.accepts by_ 9 = true) (hf : s.pathFree (CLASS.TCMD_RES k) = false)
    (op table len : Nat) : s.tcmd by_ k op table len tag = s.sat CLASS.CLS_CNT3 23 16 1 := by
  rw [State.tcmd, State.onWrite_accepts _ ha]
  exact if_pos (by simp [hf])

/-- The rows of a write of TCMD[k].CMD. -/
noncomputable def tableCommands (by_ : Req) (k : Fin 16) (table : BitVec 4) (len : BitVec 8) (tag : BitVec 4) (op : Fin 8) : List Instr :=
  [.emInsert by_ k table tag, .emDelete by_ k table tag, .emSet by_ k table tag, .emLookup by_ k table tag,
    .routeAdd by_ k table len tag, .routeDel by_ k table len tag, .ctCreate by_ k tag, .ctDelete by_ k tag,
    .tcmdIllegalOp by_ k op tag]

theorem exec_tableCommand {table : BitVec 4} {len : BitVec 8} {op : Fin 8} {c : Instr}
    (hc : c ∈ tableCommands by_ k table len tag op) (s : State) :
    ∃ op table len, exec c s = .next (s.tcmd by_ k.val op table len tag) := by
  simp only [tableCommands, List.mem_cons, List.not_mem_nil, or_false] at hc
  rcases hc with rfl | rfl | rfl | rfl | rfl | rfl | rfl | rfl | rfl <;> exact ⟨_, _, _, rfl⟩

theorem exec_tableCommand_dropped {table : BitVec 4} {len : BitVec 8} {op : Fin 8} {c : Instr}
    (hc : c ∈ tableCommands by_ k table len tag op) (ha : s.accepts by_ 9 = true)
    (hf : s.pathFree (CLASS.TCMD_RES k.val) = false) : exec c s = .next (s.sat CLASS.CLS_CNT3 23 16 1) := by
  obtain ⟨_, _, _, he⟩ := exec_tableCommand hc s
  rw [he, State.tcmd_dropped ha hf]

/-! The oldest command completes; results and clears end (R362, R367). -/

theorem exec_tableCommandDone {rest : List ClsCmd} (hc : s.cls.cmds = c :: rest) (hact : s.active 9 = true)
    (hw : (c.waitsFor.any fun t => s.cls.clearing.contains t) = false) (full : Bool) :
    exec (.tableCommandDone full) s =
      let r := (s.modCls fun x => { x with cmds := rest }).tcmdDo c full
      .next ((r.1.wr (CLASS.TCMD_RES c.slot) (wd (2 ^ 31 + r.2.1 * 2 ^ 27 + r.2.2 % 2 ^ 20 * 16 + c.tag))).evt 9 16) := by
  rw [exec_tableCommandDone_eq, execTableCommandDone, hc]
  exact congrArg _ (if_neg (by rw [hact, hw]; decide))

theorem exec_tcmdAck (ha : s.accepts by_ 9 = true) (hv : s.rbit (CLASS.TCMD_RES k.val) 31 = true)
    (ht : s.rf (CLASS.TCMD_RES k.val) 3 0 = tag.toNat) :
    exec (.tcmdAck by_ k tag) s = .next (s.wr (CLASS.TCMD_RES k.val) 0) := by
  rw [exec_tcmdAck_eq, execTcmdAck, State.onWrite_accepts _ ha]
  exact congrArg _ (if_pos (by simp [hv, ht]))

theorem exec_tableClearDone (t : Fin 19) (s : State) : ∃ u, exec (.tableClearDone t) s = .next u ∧
    u.cls.clearing.contains t.val = false ∧ (∀ a, u.rd a = s.rd a) ∧ (∀ a, u.rb a = s.rb a) := by
  refine ⟨_, exec_tableClearDone_eq t s, ?_, fun _ => rfl, fun _ => rfl⟩
  simp [List.contains_eq_mem]

/-! Routes (R364). -/

/-- Bits of an address of a family. -/
def routeWidth (v6 : Bool) : Nat := if v6 then 128 else 32
/-- Routes that a family may hold. -/
def routeLimit (v6 : Bool) : Nat := if v6 then 262144 else 1048576
/-- An argument of a command. -/
def ClsCmd.arg (c : ClsCmd) (j : Nat) : Nat := c.args.getD j 0
/-- The address bits that a route command names. -/
def ClsCmd.routePrefix (c : ClsCmd) (v6 : Bool) : Nat :=
  if v6 then c.arg 1 * 2 ^ 96 + c.arg 2 * 2 ^ 64 + c.arg 3 * 2 ^ 32 + c.arg 4 else c.arg 1
/-- The place of a route: its address bits with their length. -/
def ClsCmd.routeKey (c : ClsCmd) (v6 : Bool) : Nat := c.routePrefix v6 * 256 + c.len
/-- A route's result. -/
def State.route (s : State) (v6 : Bool) (key : Nat) : Option Nat := tget (fun _ => none) (s.routes v6) key
/-- The count of a family's routes. -/
def State.routeCount (s : State) (v6 : Bool) : Nat := s.rf (lpmCountReg v6) 20 0

/-- One route of a family replaced, with the family's count. -/
def State.routePut (s : State) (v6 : Bool) (key : Nat) (x : Option Nat) (n : Nat) : State :=
  (s.setRoutes v6 (tput (fun _ => none) (s.routes v6) key x)).wf (lpmCountReg v6) 20 0 n

theorem State.routes_setRoutes_self (s : State) (v6 : Bool) (t : Tbl (Option Nat)) : (s.setRoutes v6 t).routes v6 = t := by
  cases v6 <;> rfl
theorem State.routes_setRoutes_other (s : State) (v6 : Bool) (t : Tbl (Option Nat)) :
    (s.setRoutes v6 t).routes (!v6) = s.routes (!v6) := by
  cases v6 <;> rfl
theorem State.routes_wf (s : State) (a : RegId) (hi lo v : Nat) (v6 : Bool) : (s.wf a hi lo v).routes v6 = s.routes v6 := rfl

section Put
variable (s) (v6) (key : Nat) (x : Option Nat) (n : Nat)

theorem State.route_routePut_self : (s.routePut v6 key x n).route v6 key = x := by
  rw [State.route, State.routePut, State.routes_wf, State.routes_setRoutes_self, tget_tput_self]
theorem State.route_routePut_ne {j : Nat} (h : j ≠ key) : (s.routePut v6 key x n).route v6 j = s.route v6 j := by
  rw [State.route, State.routePut, State.routes_wf, State.routes_setRoutes_self, tget_tput_ne _ _ _ h, State.route]
theorem State.routes_routePut_other : (s.routePut v6 key x n).routes (!v6) = s.routes (!v6) := by
  rw [State.routePut, State.routes_wf, State.routes_setRoutes_other]
theorem State.routeCount_routePut (h : n < 2 ^ 21) : (s.routePut v6 key x n).routeCount v6 = n := by
  rw [State.routeCount, State.rf, State.routePut, State.rd_wf_self, fld_putFld_self _ _ (by decide) (by decide)]
  exact Nat.mod_eq_of_lt h
theorem State.rb_routePut (b : Nat) : (s.routePut v6 key x n).rb b = s.rb b := by
  cases v6 <;> rfl

end Put

/-- TABLE 1 is IPv6 (R367). -/
theorem table_eq_one (htab : c.table = if v6 then 1 else 0) : (c.table = 1) = (v6 = true) := by
  cases v6 <;> simp [htab]
theorem table_le_one (htab : c.table = if v6 then 1 else 0) : ¬ 1 < c.table := by
  cases v6 <;> simp [htab]

/-- What a route command does to the table of its family. -/
theorem State.routeDo_eq (htab : c.table = if v6 then 1 else 0) (hon : s.rbit (lpmReg v6) 0 = true) :
    s.routeDo c =
      let key := c.routeKey v6
      let stored := decide (c.len ≤ routeWidth v6) && (s.route v6 key).isSome
      if c.op = 5 then
        if stored then (s.routePut v6 key none (s.routeCount v6 - 1), tDONE, 0) else (s, tNOT_FOUND, 0)
      else if routeWidth v6 < c.len || prefixOf (routeWidth v6) c.len (c.routePrefix v6) != c.routePrefix v6 then (s, tINVALID, 0)
      else if !stored && routeLimit v6 ≤ s.routeCount v6 then (s.evt 9 18, tFULL, 0)
      else (s.routePut v6 key (some (c.arg 0)) (if stored then s.routeCount v6 else s.routeCount v6 + 1), tDONE, 0) := by
  simp only [State.routeDo, table_eq_one htab, Bool.decide_eq_true, decide_eq_false (table_le_one htab), hon, Bool.not_true,
    Bool.or_false, Bool.false_eq_true, if_false]
  rfl

theorem State.routeDo_off (htab : c.table = if v6 then 1 else 0) (hoff : s.rbit (lpmReg v6) 0 = false) :
    s.routeDo c = (s, tINVALID, 0) := by
  simp only [State.routeDo, table_eq_one htab, Bool.decide_eq_true, hoff, Bool.not_false, Bool.or_true, if_true]

/-- Ops 4 and 5 are the route commands. -/
theorem State.tcmdDo_route (hop : c.op = 4 ∨ c.op = 5) : s.tcmdDo c full = s.routeDo c := by
  rw [State.tcmdDo, if_neg (by omega), if_pos (by omega)]

section Route
variable (htab : c.table = if v6 then 1 else 0) (hon : s.rbit (lpmReg v6) 0 = true)
include htab hon

theorem State.tcmdDo_routeAdd (hop : c.op = 4) (hlen : c.len ≤ routeWidth v6)
    (hp : prefixOf (routeWidth v6) c.len (c.routePrefix v6) = c.routePrefix v6) (hn : s.routeCount v6 < routeLimit v6) :
    s.tcmdDo c full = (s.routePut v6 (c.routeKey v6) (some (c.arg 0))
      (if s.route v6 (c.routeKey v6) = none then s.routeCount v6 + 1 else s.routeCount v6), tDONE, 0) := by
  rw [State.tcmdDo_route (.inl hop), State.routeDo_eq htab hon]
  cases hr : s.route v6 (c.routeKey v6) <;> simp [hop, hlen, hp, Nat.not_le.mpr hn, Nat.not_lt.mpr hlen, hr]

theorem State.tcmdDo_routeAdd_beyond (hop : c.op = 4)
    (hp : prefixOf (routeWidth v6) c.len (c.routePrefix v6) ≠ c.routePrefix v6) : s.tcmdDo c full = (s, tINVALID, 0) := by
  rw [State.tcmdDo_route (.inl hop), State.routeDo_eq htab hon]
  simp [hop, hp]

theorem State.tcmdDo_routeDel (hop : c.op = 5) (hlen : c.len ≤ routeWidth v6) (hr : s.route v6 (c.routeKey v6) ≠ none) :
    s.tcmdDo c full = (s.routePut v6 (c.routeKey v6) none (s.routeCount v6 - 1), tDONE, 0) := by
  rw [State.tcmdDo_route (.inr hop), State.routeDo_eq htab hon]
  simp [hop, hlen, Option.isSome_iff_ne_none.mpr hr]

theorem State.tcmdDo_routeDel_notStored (hop : c.op = 5) (hr : s.route v6 (c.routeKey v6) = none) :
    s.tcmdDo c full = (s, tNOT_FOUND, 0) := by
  rw [State.tcmdDo_route (.inr hop), State.routeDo_eq htab hon]
  simp [hop, hr]

end Route

/-! Lookups of an exact-match table (R361). -/

theorem State.rbytes_take (s : State) (a n : Nat) : (s.rbytes a n).take n = s.rbytes a n := by
  induction n generalizing a with
  | zero => rfl
  | succ n ih => rw [State.rbytes, List.take_succ_cons, ih]

section Lookup
variable (hop : c.op = 3) (hon : s.emOn c.table = true) (hend : c.image + s.emKeyw c.table ≤ storeEnd)
  (hr : (s.storeRead 6 c.image (s.emKeyw c.table)).2 = true)
  (he : ((s.storeRead 6 c.image (s.emKeyw c.table)).1.emRead c.table (s.rbytes c.image (s.emKeyw c.table))).2 = none)
include hop hon hend hr he

/-- A lookup whose image and buckets read well answers by what its key finds. -/
theorem State.tcmdDo_emLookup : s.tcmdDo c full =
    let key := s.rbytes c.image (s.emKeyw c.table)
    (((s.storeRead 6 c.image (s.emKeyw c.table)).1.emRead c.table key).1,
      match s.emFind c.table key with | some i => (tDONE, i) | none => (tNOT_FOUND, 0)) := by
  simp only [State.tcmdDo, State.emDo, hop]
  cases hi : s.emFind c.table (s.rbytes c.image (s.emKeyw c.table)) <;>
    simp [hon, Nat.not_lt.mpr hend, hr, State.rbytes_take, he, hi]

end Lookup

/-- Settles O44: a command by its slot, the oldest by its op, a route by its prefix, its length and its family's table, a lookup by what
its key finds. -/
theorem classifierTableCommands : Obligations.ClassifierTableCommands := by
  refine ⟨fun by_ k table len tag op t s => ⟨fun ha hl hf => ?_, fun ha hf c hc => exec_tableCommand_dropped hc ha hf,
      fun c rest full hc hact hw => exec_tableCommandDone hc hact hw full, fun ha hv ht => exec_tcmdAck ha hv ht,
      exec_tableClearDone t s⟩,
    fun c full v6 s htab hon => ⟨fun hop hlen hp hn => ?_, fun hop _ hp => State.tcmdDo_routeAdd_beyond htab hon hop hp,
      fun hop hlen hr => ?_, fun hop hr => State.tcmdDo_routeDel_notStored htab hon hop hr⟩,
    fun c full s => ⟨fun v6 hop htab hoff => (State.tcmdDo_route hop).trans (State.routeDo_off htab hoff),
      fun hop hon hend hr he => ⟨fun i hi => ?_, fun hi => ?_⟩⟩⟩
  · have taken := fun op table len => congrArg (Host.Outcome.next (φ := Fault) (ρ := Refusal))
      (State.tcmd_queued (tag := tag) ha hl hf op table len)
    exact ⟨taken .., taken .., taken .., taken .., taken .., taken .., taken .., taken .., taken ..⟩
  · have hlim : routeLimit v6 ≤ 2 ^ 20 := by cases v6 <;> decide
    have hcount := State.routeCount_routePut s v6 (c.routeKey v6) (some (c.arg 0))
      (if s.route v6 (c.routeKey v6) = none then s.routeCount v6 + 1 else s.routeCount v6)
      (by have : s.routeCount v6 < routeLimit v6 := hn
          split <;> omega)
    rw [State.tcmdDo_routeAdd htab hon hop hlen hp hn]
    exact ⟨rfl, State.route_routePut_self .., hcount, fun j hj => State.route_routePut_ne _ _ _ _ _ hj,
      State.routes_routePut_other .., fun _ => State.rb_routePut ..⟩
  · have hcount := State.routeCount_routePut s v6 (c.routeKey v6) none (s.routeCount v6 - 1)
      (by have : s.routeCount v6 < 2 ^ 21 := fld_lt _ 20 0
          omega)
    rw [State.tcmdDo_routeDel htab hon hop hlen hr]
    exact ⟨rfl, State.route_routePut_self .., hcount⟩
  · simp only [State.tcmdDo_emLookup hop hon hend hr he, hi]
  · simp only [State.tcmdDo_emLookup hop hon hend hr he, hi]

end Sys2Proof.Machine
end

section
/-! Frames: what the event words, the log, the error record and the store's accesses leave of the rest of the state (R32, R34, R309,
R464). -/

namespace Sys2Proof.Machine

/-- A reader of the state that neither registers, memory, tile headers and messages nor the store's hidden state concern. -/
structure Hidden {β : Type} (g : State → β) : Prop where
  wr : ∀ (u : State) a v, g (u.wr a v) = g u
  wb : ∀ (u : State) a v, g (u.wb a v) = g u
  setTile : ∀ (u : State) t x, g (u.setTile t x) = g u
  modStore : ∀ (u : State) f, g (u.modStore f) = g u
  unpers : ∀ (u : State) n, g { u with logUnpers := n } = g u
  msgs : ∀ (u : State) l, g { u with msgs := l } = g u
  msixPend : ∀ (u : State) l, g { u with msixPend := l } = g u
  msixSent : ∀ (u : State) l, g { u with msixSent := l } = g u

theorem hidden_threads : Hidden (·.threads) := by constructor <;> intros <;> rfl
theorem hidden_sched : Hidden (·.sched) := by constructor <;> intros <;> rfl
theorem hidden_hostU : Hidden (·.hostU) := by constructor <;> intros <;> rfl
theorem hidden_mgmt : Hidden (·.mgmt) := by constructor <;> intros <;> rfl
theorem hidden_cipher : Hidden (·.cipher) := by constructor <;> intros <;> rfl

section Frames
variable {β : Type} {g : State → β} (h : Hidden g) (s : State)
include h

namespace Hidden

theorem sat (a : RegId) (hi lo n : Nat) : g (s.sat a hi lo n) = g s := h.wr ..
theorem wf (a : RegId) (hi lo v : Nat) : g (s.wf a hi lo v) = g s := h.wr ..
theorem modTile (t : Nat) (f : Tile → Tile) : g (s.modTile t f) = g s := h.setTile ..
theorem wbytes (a : Nat) (l : List Byte) : g (s.wbytes a l) = g s := by
  induction l generalizing s a with
  | nil => rfl
  | cons b l ih => rw [State.wbytes, ih, h.wb]
theorem wwords (a : Nat) (l : List Nat) : g (s.wwords a l) = g s :=
  State.wwords_frame (lo := 0) s (fun u a v _ => h.wb u a v) (Nat.zero_le _) l

/-! Events, the log and the error record. -/

theorem sendMsix (v : Nat) : g (s.sendMsix v) = g s := by
  unfold State.sendMsix
  split
  · rfl
  · split
    · exact h.msixPend ..
    · exact h.msixSent ..
theorem sendEvt (t : Nat) : g (s.sendEvt t) = g s := by
  unfold State.sendEvt
  extract_lets x bits c toMgmt toCtrl s1
  split
  · rw [h.sendMsix, h.msgs]
  · exact h.msgs ..
theorem setEvtWords (t : Nat) (p m : Word) : g (s.setEvtWords t p m) = g s := by
  unfold State.setEvtWords
  extract_lets x rising s1
  split
  · exact h.setTile ..
  · rw [h.sendEvt, h.setTile]
theorem evt (t n : Nat) : g (s.evt t n) = g s := h.setEvtWords ..
theorem logRec (t kind code d0 d1 d2 d3 : Nat) : g (s.logRec t kind code d0 d1 d2 d3) = g s :=
  s.logRec_frame g (fun u a v _ => h.wb u a v) (fun u a v _ => h.wr u a v) h.unpers ..
theorem recordErr (t cause unit detail addr : Nat) : g (s.recordErr t cause unit detail addr false) = g s :=
  s.recordErr_frame g (fun u x => h.setTile u t x) (fun u n => h.evt u t n) (fun u _ _ _ _ => h.logRec u ..) ..

/-! Writes to the store. -/

theorem errLog (kind port addr : Nat) : g (s.errLog kind port addr) = g s := by
  unfold State.errLog
  extract_lets n
  rw [h.wr, h.wr, h.wr]
theorem eccFail_write (port addr : Nat) : g (s.eccFail port addr false) = g s := by
  unfold State.eccFail
  extract_lets s1
  exact (h.evt ..).trans ((h.recordErr ..).trans ((h.modTile ..).trans (h.errLog ..)))
theorem touchSector (port a n q : Nat) : g (s.touchSector port a n q) = g s := by
  unfold State.touchSector
  extract_lets s1
  have h1 : g s1 = g s := h.modStore ..
  split
  · exact (h.modStore ..).trans h1
  · split
    · exact (h.eccFail_write ..).trans h1
    · exact h1
theorem touchBlock (port a n b : Nat) : g (s.touchBlock port a n b) = g s := by
  unfold State.touchBlock
  extract_lets whole isFree s1
  have h1 : g s1 = g s := h.modStore ..
  split
  · exact (h.recordErr ..).trans ((h.sat ..).trans ((h.errLog ..).trans h1))
  · exact h1
theorem touch (port a n : Nat) : g (s.touch port a n) = g s := by
  unfold State.touch
  split
  · rfl
  · exact (State.foldl_frame g (fun u b => h.touchBlock u ..) ..).trans (State.foldl_frame g (fun u q => h.touchSector u ..) ..)
theorem earlyWrite (t : Nat) : g (s.earlyWrite t) = g s := by
  unfold State.earlyWrite
  split
  · rfl
  · exact h.modTile ..
theorem storeWrite (port a : Nat) (bs : List Byte) : g (s.storeWrite port a bs) = g s := by
  unfold State.storeWrite
  split
  · rw [h.recordErr, h.earlyWrite]
  · split
    · exact h.recordErr ..
    · rw [h.wbytes, h.touch]

/-! The decision trace (R391). -/

theorem trace (k : Nat) (x : WorkItem) (event eng marks : Nat) (voided : Bool) (ns : Nat) :
    g (s.trace k x event eng marks voided ns) = g s := by
  unfold State.trace
  split
  · rfl
  · extract_lets n w r base bytes
    split
    · rw [h.evt, h.sat]
    · rw [h.evt, h.wf, h.storeWrite]

end Hidden
end Frames

/-! A pending event bit after its event (R33). -/

theorem State.evtPend_evt (s : State) (t : Nat) {n : Nat} (hn : n < 32) : bit ((s.evt t n).tile t).evtPend n = true := by
  rw [State.tile_evt, bit, wd, BitVec.getLsbD_or, BitVec.getLsbD_ofNat, Nat.testBit_two_pow_self, decide_eq_true hn, Bool.and_true,
    Bool.or_true]

end Sys2Proof.Machine
end

section
/-! Work items of SCHED: arrival, dispatch, hand-over, completion, release in ticket order and cancellation (R378, R381 to R387). -/

namespace Sys2Proof.Machine

open Reg

variable {s : State}

theorem exec_schedItemArrive_eq (src : ItemSrc) (s : State) : exec (.schedItemArrive src) s = execSchedItemArrive src s := rfl
theorem exec_delayExpire_eq (slot : Fin 4096) (s : State) : exec (.delayExpire slot) s = execDelayExpire slot s := rfl
theorem exec_schedDispatch_eq (s : State) : exec .schedDispatch s = execSchedDispatch s := rfl
theorem exec_getwTake_eq (g : Fin 32) (s : State) : exec (.getwTake g) s = execGetwTake g s := rfl
theorem exec_schedDoneArrive_eq (s : State) : exec .schedDoneArrive s = execSchedDoneArrive s := rfl
theorem exec_ticketRelease_eq (s : State) : exec .ticketRelease s = execTicketRelease s := rfl
theorem exec_schedCancelArrive_eq (s : State) : exec .schedCancelArrive s = execSchedCancelArrive s := rfl

/-! Arrival (R378). -/

section FromClass
variable {k : Fin 11} {f : ClsFrame} {rest : List ClsFrame} {words : List Nat} (hl : s.live 9 = true)
  (hq : s.clsQueue k.val = f :: rest) (ho : f.out = .item words)
include hl hq ho

theorem exec_schedItemArrive_cls_accepted (hroom : s.room words = .ok) : exec (.schedItemArrive (.cls k)) s =
    .next (((s.accept words).1.setClsQueue k.val rest).clsSettle k.val) := by
  simp [exec_schedItemArrive_eq, execSchedItemArrive, hq, ho, hl, hroom]

theorem exec_schedItemArrive_cls_full (hroom : s.room words = .full) :
    exec (.schedItemArrive (.cls k)) s = .next s.schedFull := by
  simp [exec_schedItemArrive_eq, execSchedItemArrive, hq, ho, hl, hroom]

end FromClass

theorem exec_schedItemArrive_cipher {words : List Nat} {rest : List (List Nat)} (hi : s.cipher.items = words :: rest)
    (hroom : s.room words = .ok) : exec (.schedItemArrive .cipher) s =
      .next { (s.accept words).1 with cipher := { (s.accept words).1.cipher with items := rest } } := by
  simp [exec_schedItemArrive_eq, execSchedItemArrive, hi, hroom]

theorem exec_schedItemArrive_enq {n key : Nat} {words : List Nat} (he : s.sched.enqs[n]? = some (key, words))
    (hroom : s.room words = .ok) : exec (.schedItemArrive (.enq n)) s =
      .next (((s.accept words).1.modSched fun u => { u with enqs := u.enqs.eraseIdx n }).enqAnswer key true (s.accept words).2) := by
  simp [exec_schedItemArrive_eq, execSchedItemArrive, he, hroom]

theorem exec_delayExpire {slot : Fin 4096} {x : WorkItem} {due : Nat} (hl : s.live 10 = true) (hx : s.item slot.val = some x)
    (hst : x.st = .pending due) (hdue : due ≤ s.clock) : exec (.delayExpire slot) s =
      .next ((s.makeReady slot.val x).trace slot.val x 1 0xFF 0 false 0) := by
  simp [exec_delayExpire_eq, execDelayExpire, hx, hst, hdue, hl]

/-! Dispatch and the hand-over to a thread (R381, R382). -/

theorem exec_schedDispatch {l : Nat} (hl : s.live 10 = true)
    (hf : ([3, 2, 1, 0].flatMap s.listOrder).find? (fun l => !(s.listEngines l).isEmpty) = some l) :
    exec .schedDispatch s = .next (s.dispatch l) := by
  simp only [exec_schedDispatch_eq, execSchedDispatch, hl, hf, Bool.not_true, Bool.false_eq_true, if_false]

/-- A thread parked in GETW has the head of its engine's queue. -/
def State.getwTaken (s : State) (g key ea k : Nat) (x : WorkItem) (rest : List Nat) : State :=
  let y := { x with st := ItemState.held, eng := g }
  let u := ((s.setDispatchQ g rest).setItem k (some y)).wwords (scratch g + ea) x.words
  (u.setThread key { (u.thread key) with a := wd (x.handle k), item := some (x.handle k), run := .running }).trace k y 3 g 0 false 0

theorem exec_getwTake {g : Fin 32} {k since key ea : Nat} {rest : List Nat} {x : WorkItem} (hq : s.dispatchQ g.val = k :: rest)
    (hw : earliest (s.getwWaits g.val) = some (since, key, ea)) (hx : s.item k = some x) (hk : k < 1024)
    (hl : s.live (engTile (g.val / 8)) = true) (hsub : s.engSubst g.val = false) :
    exec (.getwTake g) s = .next (s.getwTaken g.val key ea k x rest) := by
  simp [exec_getwTake_eq, execGetwTake, hq, hw, hx, hk, hl, hsub, State.getwTaken]

section Taken
variable (s) (g key ea k : Nat) (x : WorkItem) (rest : List Nat)

theorem State.sched_getwTaken :
    (s.getwTaken g key ea k x rest).sched = ((s.setDispatchQ g rest).setItem k (some { x with st := .held, eng := g })).sched := by
  unfold State.getwTaken
  extract_lets y u
  exact (hidden_sched.trace ..).trans (hidden_sched.wwords ..)

theorem State.item_getwTaken : (s.getwTaken g key ea k x rest).item k = some { x with st := .held, eng := g } := by
  rw [State.item, State.sched_getwTaken]
  exact tget_tput_self (fun _ => none) s.sched.items k (some { x with st := .held, eng := g })

theorem State.dispatchQ_getwTaken : (s.getwTaken g key ea k x rest).dispatchQ g = rest := by
  rw [State.dispatchQ, State.sched_getwTaken]
  exact tget_tput_self ..

theorem State.thread_getwTaken : ((s.getwTaken g key ea k x rest).thread key).run = .running ∧
    ((s.getwTaken g key ea k x rest).thread key).a = wd (x.handle k) ∧
    ((s.getwTaken g key ea k x rest).thread key).item = some (x.handle k) := by
  unfold State.getwTaken
  extract_lets y u
  rw [State.thread, hidden_threads.trace, ← State.thread, State.thread_setThread_self]
  exact ⟨rfl, rfl, rfl⟩

end Taken

/-! Completion, release and cancellation (R383, R385, R387). -/

theorem exec_schedDoneArrive {m : DoneMsg} {rest : List DoneMsg} {k : Nat} {x : WorkItem} (hd : s.sched.dones = m :: rest)
    (hk : s.known m.handle = some k) (hx : s.item k = some x) (hst : x.st = .held) : exec .schedDoneArrive s =
      .next ((s.modSched fun u => { u with dones := rest }).complete k x m.disp m.key m.waits) := by
  simp [exec_schedDoneArrive_eq, execSchedDoneArrive, hd, hk, hx, hst]

theorem exec_ticketRelease {d k : Nat} {x : WorkItem} {disp : Word} (hl : s.live 10 = true)
    (hn : s.nextRelease = some (d, k, x, disp)) : exec .ticketRelease s =
      .next ((s.modSched fun u => { u with relRr := d + 1 }).release k x disp) := by
  simp [exec_ticketRelease_eq, execTicketRelease, hl, hn]

/-- The ticket released next heads its domain, and its item is COMPLETE with no store of its thread outstanding. -/
theorem State.nextRelease_some {d k : Nat} {x : WorkItem} {disp : Word} (h : s.nextRelease = some (d, k, x, disp)) :
    d < 256 ∧ (∃ l, tget (fun _ => []) s.sched.doms d = k :: l) ∧ s.item k = some x ∧ ∃ key, x.st = .complete disp key 0 := by
  obtain ⟨d', hmem, hd⟩ := List.exists_of_findSome?_eq_some h
  obtain ⟨i, -, rfl⟩ := List.mem_map.mp hmem
  have hlt : (s.sched.relRr + i) % 256 < 256 := Nat.mod_lt _ (by decide)
  split at hd
  · cases hd
  next k' l hdom =>
    split at hd
    next x' hx =>
      split at hd
      next disp' key hst =>
        obtain ⟨rfl, rfl, rfl, rfl⟩ : _ ∧ _ ∧ _ ∧ _ := by simpa using hd
        exact ⟨hlt, ⟨l, hdom⟩, hx, key, hst⟩
      · cases hd
    · cases hd

section Cancel
variable {key h : Nat} {rest : List (Nat × Nat)} (hc : s.sched.cancels = (key, h) :: rest)
include hc

theorem exec_schedCancelArrive_unknown (hh : s.known h = none) : exec .schedCancelArrive s =
    .next ((s.modSched fun u => { u with cancels := rest }).cancelAnswer key false) := by
  simp [exec_schedCancelArrive_eq, execSchedCancelArrive, hc, hh]

variable {k : Nat} {x : WorkItem} (hh : s.known h = some k) (hx : s.item k = some x)
include hh hx

theorem exec_schedCancelArrive_early (hl : s.live 10 = true) (hst : x.st = .ready ∨ ∃ due, x.st = .pending due) :
    exec .schedCancelArrive s = .next (((((((s.modSched fun u => { u with cancels := rest }).unqueue k x).freeItem k x).trace k x 6
      0xFF 0 (!x.unord) 0).itemDrop x).sat SCHED.SCHED_CNT2 31 16 1).cancelAnswer key true) := by
  rcases hst with hst | ⟨due, hst⟩ <;> simp [exec_schedCancelArrive_eq, execSchedCancelArrive, hc, hh, hx, hst, hl]

theorem exec_schedCancelArrive_late (hr : x.st ≠ .ready) (hp : ∀ due, x.st ≠ .pending due) : exec .schedCancelArrive s =
    .next ((s.modSched fun u => { u with cancels := rest }).cancelAnswer key false) := by
  match hst : x.st with
  | .ready => exact absurd hst hr
  | .pending due => exact absurd hst (hp due)
  | .dispatched | .held | .complete _ _ _ => simp [exec_schedCancelArrive_eq, execSchedCancelArrive, hc, hh, hx, hst]

end Cancel

/-- Settles O46: an arrival by its room, a hand-over by its engine's queue, a cancel by its item's state, and the release by the head of its
domain's tickets. -/
theorem schedulerMovesItems : Obligations.SchedulerMovesItems := by
  refine ⟨fun slot g s hl => ⟨fun k f rest words h9 hq ho => ⟨exec_schedItemArrive_cls_accepted h9 hq ho,
      exec_schedItemArrive_cls_full h9 hq ho⟩, fun words rest => exec_schedItemArrive_cipher,
    fun n key words => exec_schedItemArrive_enq, fun x due => exec_delayExpire hl, fun l => exec_schedDispatch hl,
    fun k rest since key ea x hq hw hx hk h9 hsub => ?_, fun m rest k x => exec_schedDoneArrive, fun d k x disp => exec_ticketRelease hl,
    fun key h rest hc => ⟨exec_schedCancelArrive_unknown hc, fun k x hh hx => ⟨exec_schedCancelArrive_early hc hh hx hl,
      exec_schedCancelArrive_late hc hh hx⟩⟩⟩, fun d k x disp s => State.nextRelease_some⟩
  obtain ⟨hrun, ha, hitem⟩ := State.thread_getwTaken s g.val key ea k x rest
  exact ⟨_, exec_getwTake hq hw hx hk h9 hsub, State.item_getwTaken .., hrun, ha, hitem, State.dispatchQ_getwTaken ..⟩

end Sys2Proof.Machine
end

section
/-! Engine clusters: threads started, the clock, and the substitution of an engine (R373, R375, R394). -/

namespace Sys2Proof.Machine

open Reg

variable {s : State} {by_ : Req} {c : Fin 4} {e : Fin 8} {tag : Tag} {x : Subst}

theorem exec_engRunWrite_eq (by_ : Req) (c : Fin 4) (val : Word) (s : State) :
    exec (.engRunWrite by_ c val) s = execEngRunWrite by_ c val s := rfl
theorem exec_engClkChangeDone_eq (c : Fin 4) (s : State) : exec (.engClkChangeDone c) s = execEngClkChangeDone c s := rfl
theorem exec_substDone_eq (c : Fin 4) (s : State) : exec (.substDone c) s = execSubstDone c s := rfl
theorem exec_substTimeout_eq (c : Fin 4) (s : State) : exec (.substTimeout c) s = execSubstTimeout c s := rfl

/-! Threads (R373). -/

/-- The thread of one bit of ENG_RUN, on tile `t`. -/
def runKey (t b : Nat) : Nat := threadKey t (b / 4) (b % 4)

/-- One bit of a write of ENG_RUN: its thread starts where it is stopped. -/
def State.engStart (c : Nat) (val : Word) (s : State) (b : Nat) : State :=
  if bit val b && (s.thread (runKey (engTile c) b)).run = .stopped then
    (s.setThread (runKey (engTile c) b) { run := .running }).wr (ENG.ENG_STOPPED c) (putBit (s.rd (ENG.ENG_STOPPED c)) b false)
  else s

/-- A write of ENG_RUN from MGMT. -/
def State.engStarted (s : State) (c : Nat) (val : Word) : State :=
  (List.range 32).foldl (State.engStart c val) (s.wr (ENG.ENG_RUN c) (s.rd (ENG.ENG_RUN c) ||| val))

theorem State.thread_wr (s : State) (a : RegId) (v : Word) (k : Nat) : (s.wr a v).thread k = s.thread k := rfl

/-- It starts a thread or leaves it as it is. -/
theorem State.thread_engStart (s : State) (c : Nat) (val : Word) (b k : Nat) :
    ((s.engStart c val b).thread k).run = .running ∨ (s.engStart c val b).thread k = s.thread k := by
  unfold State.engStart
  split
  · by_cases hk : k = runKey (engTile c) b
    · subst hk
      exact .inl (by rw [State.thread_wr, State.thread_setThread_self])
    · exact .inr (by rw [State.thread_wr, State.thread_setThread_ne s _ hk])
  · exact .inr rfl

theorem State.run_engStart_self {val : Word} {c b : Nat} (hb : bit val b = true)
    (h : (s.thread (runKey (engTile c) b)).run = .stopped) : ((s.engStart c val b).thread (runKey (engTile c) b)).run = .running := by
  rw [State.engStart, if_pos (by simp [hb, h]), State.thread_wr, State.thread_setThread_self]

theorem State.run_foldl_engStart_running {val : Word} {c k : Nat} (l : List Nat) (s : State) (h : (s.thread k).run = .running) :
    ((l.foldl (State.engStart c val) s).thread k).run = .running := by
  induction l generalizing s with
  | nil => exact h
  | cons b l ih => exact ih _ ((s.thread_engStart c val b k).elim id fun hsame => hsame ▸ h)

/-- A stopped thread whose bit is written 1 runs once its bit has had its turn. -/
theorem State.run_foldl_engStart {val : Word} {c b : Nat} (hb : bit val b = true) (l : List Nat) (s : State) (hmem : b ∈ l)
    (h : (s.thread (runKey (engTile c) b)).run = .stopped) :
    ((l.foldl (State.engStart c val) s).thread (runKey (engTile c) b)).run = .running := by
  induction l generalizing s with
  | nil => cases hmem
  | cons a l ih =>
    rcases List.mem_cons.mp hmem with rfl | hmem
    · exact State.run_foldl_engStart_running l _ (State.run_engStart_self hb h)
    · rcases s.thread_engStart c val a (runKey (engTile c) b) with hrun | hsame
      · exact State.run_foldl_engStart_running l _ hrun
      · exact ih _ hmem (hsame ▸ h)

section Accepted
variable (ha : s.accepts by_ (engTile c.val) = true)
include ha

theorem exec_engRunWrite_starts (hm : reqMgmt by_ = true) (val : Word) :
    exec (.engRunWrite by_ c val) s = .next (s.engStarted c.val val) := by
  rw [exec_engRunWrite_eq, execEngRunWrite, State.onWrite_accepts _ ha, State.engRunWrite, hm]
  rfl

theorem exec_engRunWrite_ignored (hm : reqMgmt by_ = false) (val : Word) : exec (.engRunWrite by_ c val) s = .next s := by
  rw [exec_engRunWrite_eq, execEngRunWrite, State.onWrite_accepts _ ha, State.engRunWrite, hm]
  rfl

/-! The clock (R375). -/

theorem exec_engClkWrite (val : Word) : exec (.engClkWrite by_ c val) s =
    .next ((s.wf (ENG.ENG_CLK c.val) 11 0 (fld val 11 0)).engClkCheck c.val) :=
  congrArg _ (State.onWrite_accepts _ ha)

end Accepted

theorem exec_engClkChangeDone (h : s.rbit (ENG.ENG_CLK c.val) 31 = true) : exec (.engClkChangeDone c) s =
    .next ((((s.wf (ENG.ENG_CLK c.val) 27 16 (s.engTarget c.val)).wf (ENG.ENG_CLK c.val) 31 31 0).evt (engTile c.val)
      18).engClkCheck c.val) := by
  rw [exec_engClkChangeDone_eq, execEngClkChangeDone]
  exact congrArg _ (if_neg (by rw [h]; decide))

/-! The substitution of an engine (R394). -/

/-- A substitution that waits for its engine to be idle. -/
def State.substWaits (s : State) (c e : Nat) (tag : Tag) : State :=
  let u := (s.pathBusy (ENG.SUBST_RESULT c) 0 tag).spareAsk (engTile c)
  { u with subst := tput (fun _ => none) u.subst c (some { eng := e, since := s.clock }) }
/-- No substitution is in progress in a cluster. -/
def State.substEnded (s : State) (c : Nat) : State := { s with subst := tput (fun _ => none) s.subst c none }
/-- The spare carries a logical engine. -/
def State.substMapped (s : State) (c e : Nat) : State :=
  (s.wf (ENG.ENG_MAP c) (4 * e + 3) (4 * e) (s.spareEng c)).substEnded c

theorem State.substOf_substWaits (s : State) (c e : Nat) (tag : Tag) :
    (s.substWaits c e tag).substOf c = some { eng := e, since := s.clock } := by
  simp [State.substOf, State.substWaits]
theorem State.substOf_substEnded (s : State) (c : Nat) : (s.substEnded c).substOf c = none := by
  simp [State.substOf, State.substEnded]

theorem State.rd_substEnded (s : State) (c : Nat) (a : RegId) : (s.substEnded c).rd a = s.rd a := rfl
theorem State.rd_substMapped (s : State) (c e : Nat) :
    (s.substMapped c e).rd (ENG.ENG_MAP c) = putFld (s.rd (ENG.ENG_MAP c)) (4 * e + 3) (4 * e) (s.spareEng c) := by
  rw [State.substMapped, State.rd_substEnded, State.rd_wf_self]

/-- BUSY stands in the result word. -/
theorem State.busy_substWaits (s : State) (c e : Nat) (tag : Tag) : (s.substWaits c e tag).rbit (ENG.SUBST_RESULT c) 30 = true := by
  have hrd : (s.substWaits c e tag).rd (ENG.SUBST_RESULT c) = wd (2 ^ 30 + tag.toNat * 2 ^ 0) :=
    (State.rd_evt ..).trans (State.rd_pathBusy ..)
  have htag : tag.toNat < 2 ^ 8 := tag.isLt
  rw [State.rbit, hrd, bit_wd (by omega), decide_eq_true_iff]
  omega

section Command
variable (ha : s.accepts by_ (engTile c.val) = true)
include ha

theorem exec_substAck (hv : s.rbit (ENG.SUBST_RESULT c.val) 31 = true) (ht : s.pathTag (ENG.SUBST_RESULT c.val) 0 = tag) :
    exec (.substAck by_ c tag) s = .next (s.wr (ENG.SUBST_RESULT c.val) 0) :=
  (congrArg _ (State.onWrite_accepts _ ha)).trans (congrArg _ (if_pos (by simp [hv, ht])))

theorem exec_substCmd : exec (.substCmd by_ c e tag) s = .next (s.substCmd c.val e.val tag) :=
  congrArg _ (State.onWrite_accepts _ ha)

variable (hf : s.pathFree (ENG.SUBST_RESULT c.val) = true)
include hf

theorem exec_substCmd_notReady (hl : s.life (engTile c.val) ≠ .ready) :
    exec (.substCmd by_ c e tag) s = .next (s.substPost c.val tag 4 e.val) := by
  simp [exec_substCmd ha, State.substCmd, hf, hl]

variable (hl : s.life (engTile c.val) = .ready)
include hl

theorem exec_substCmd_noToken (ht : s.hasToken (engTile c.val) = false) :
    exec (.substCmd by_ c e tag) s = .next (s.substPost c.val tag 2 e.val) := by
  simp [exec_substCmd ha, State.substCmd, hf, hl, ht]

variable (ht : s.hasToken (engTile c.val) = true)
include ht

theorem exec_substCmd_noSpare (hu : s.spareUsed c.val = true) :
    exec (.substCmd by_ c e tag) s = .next (s.substPost c.val tag 1 e.val) := by
  simp [exec_substCmd ha, State.substCmd, hf, hl, ht, hu]

theorem exec_substCmd_waits (hu : s.spareUsed c.val = false) : exec (.substCmd by_ c e tag) s = .next (s.substWaits c.val e.val tag) := by
  simp [exec_substCmd ha, State.substCmd, hf, hl, ht, hu, State.substWaits]

end Command

theorem exec_substDone (hx : s.substOf c.val = some x) (hi : s.engIdle (8 * c.val + x.eng) = true) : exec (.substDone c) s =
    .next ((((s.substMapped c.val x.eng).substPost c.val (s.pathTag (ENG.SUBST_RESULT c.val) 0) 0 x.eng).spareEnd (engTile c.val)
      true).axEngEnd (engTile c.val) (s.spareEng c.val) 0) := by
  simp [exec_substDone_eq, execSubstDone, hx, hi, State.substMapped, State.substEnded]

theorem exec_substTimeout (hx : s.substOf c.val = some x) (hi : s.engIdle (8 * c.val + x.eng) = false)
    (ht : x.since + 500 * max 1 (s.rf (ENG.ENG_CTL c.val) 31 16) ≤ s.clock) : exec (.substTimeout c) s =
    .next ((((s.substEnded c.val).substPost c.val (s.pathTag (ENG.SUBST_RESULT c.val) 0) 3 x.eng).spareEnd (engTile c.val)
      false).axEngEnd (engTile c.val) (s.spareEng c.val) 3) := by
  simp [exec_substTimeout_eq, execSubstTimeout, hx, hi, Nat.not_lt.mpr ht, State.substEnded]

/-- Settles O47: ENG_RUN thread by thread, ENG_CLK by its field, and a substitution by its preconditions and then its engine. -/
theorem engineClustersChange : Obligations.EngineClustersChange := by
  refine fun by_ c e tag val s => ⟨fun ha => ⟨fun hm => ⟨_, exec_engRunWrite_starts ha hm val, fun b hb hbit hstop => ?_⟩,
      fun hm => exec_engRunWrite_ignored ha hm val, exec_engClkWrite ha val, exec_substCmd_notReady ha, exec_substCmd_noToken ha,
      exec_substCmd_noSpare ha, fun hf hl ht hu => ⟨_, exec_substCmd_waits ha hf hl ht hu, State.substOf_substWaits ..,
        State.busy_substWaits ..⟩, exec_substAck ha⟩,
    exec_engClkChangeDone, fun x hx hi => ⟨s.substMapped c.val x.eng, exec_substDone hx hi, State.substOf_substEnded ..,
      State.rd_substMapped ..⟩,
    fun x hx hi ht => ⟨s.substEnded c.val, exec_substTimeout hx hi ht, State.substOf_substEnded .., fun _ => State.rd_substEnded ..⟩⟩
  exact State.run_foldl_engStart hbit _ _ (List.mem_range.mpr hb) hstop

end Sys2Proof.Machine
end

section
/-! CIPHER: sessions, and jobs from their arrival to their end (R403 to R408). -/

namespace Sys2Proof.Machine

open Reg

variable {s : State} {by_ : Req} {tag : Tag}

theorem exec_sessInstall_eq (by_ : Req) (tag : Tag) (s : State) : exec (.sessInstall by_ tag) s = execSessInstall by_ tag s := rfl
theorem exec_sessDelete_eq (by_ : Req) (tag : Tag) (s : State) : exec (.sessDelete by_ tag) s = execSessDelete by_ tag s := rfl
theorem exec_sessIllegalOp_eq (by_ : Req) (tag : Tag) (s : State) : exec (.sessIllegalOp by_ tag) s = execSessIllegalOp by_ tag s := rfl
theorem exec_cipherJobArrive_eq (s : State) : exec .cipherJobArrive s = execCipherJobArrive s := rfl
theorem exec_cipherJobDone_eq (q : BitVec 8) (s : State) : exec (.cipherJobDone q) s = execCipherJobDone q s := rfl

/-! Sessions (R403). -/

/-- The session that SESS_ARG names. -/
def State.sessNo (s : State) : Nat := s.rf CIPHER.SESS_ARG 10 0

/-- A session command's result with its event. -/
def State.sessPost (s : State) (tag : Tag) (code n : Nat) : State :=
  (s.pathPost CIPHER.SESS_RESULT 0 tag (code * 2 ^ 27 + n * 2 ^ 8)).evt 15 16

section Post
variable (s) (tag) (code n : Nat)

theorem State.rd_sessPost : (s.sessPost tag code n).rd CIPHER.SESS_RESULT =
    wd (2 ^ 31 + (code * 2 ^ 27 + n * 2 ^ 8) + tag.toNat) := by
  rw [State.sessPost, State.rd_evt, State.rd_pathPost, Nat.pow_zero, Nat.mul_one]
theorem State.evtPend_sessPost : bit ((s.sessPost tag code n).tile 15).evtPend 16 = true := State.evtPend_evt _ _ (by decide)
theorem State.session_sessPost (k : Nat) : (s.sessPost tag code n).session k = s.session k := by
  rw [State.session, State.sessPost, hidden_cipher.evt, State.pathPost, State.wr_cipher, State.session]
theorem State.rb_sessPost (a : Nat) : (s.sessPost tag code n).rb a = s.rb a := by
  rw [State.sessPost, State.rb_evt, State.pathPost, State.rb_wr]

end Post

theorem State.session_setSession_self (s : State) (n : Nat) (x : Option Session) : (s.setSession n x).session n = x :=
  tget_tput_self (fun _ => none) s.cipher.sess n x
theorem State.session_setSession_ne (s : State) {n k : Nat} (x : Option Session) (h : k ≠ n) :
    (s.setSession n x).session k = s.session k := tget_tput_ne _ s.cipher.sess x h
theorem State.rb_setSession (s : State) (n : Nat) (x : Option Session) (a : Nat) : (s.setSession n x).rb a = s.rb a := rfl

/-- What a session command posts, and that it leaves the other sessions and memory as they were. -/
theorem State.posted_setSession (s : State) (tag : Tag) (code n : Nat) (x : Option Session) :
    let u := (s.setSession n x).sessPost tag code n
    u.rd CIPHER.SESS_RESULT = wd (2 ^ 31 + (code * 2 ^ 27 + n * 2 ^ 8) + tag.toNat) ∧ bit (u.tile 15).evtPend 16 = true ∧
      (∀ k, k ≠ n → u.session k = s.session k) ∧ (∀ a, u.rb a = s.rb a) := by
  refine ⟨State.rd_sessPost .., State.evtPend_sessPost .., fun k hk => ?_, fun a => ?_⟩
  · rw [State.session_sessPost, State.session_setSession_ne _ _ hk]
  · rw [State.rb_sessPost, State.rb_setSession]
theorem State.posted_unchanged (s : State) (tag : Tag) (code n : Nat) :
    let u := s.sessPost tag code n
    u.rd CIPHER.SESS_RESULT = wd (2 ^ 31 + (code * 2 ^ 27 + n * 2 ^ 8) + tag.toNat) ∧ bit (u.tile 15).evtPend 16 = true ∧
      (∀ k, k ≠ n → u.session k = s.session k) ∧ (∀ a, u.rb a = s.rb a) :=
  ⟨State.rd_sessPost .., State.evtPend_sessPost .., fun _ _ => State.session_sessPost .., fun _ => State.rb_sessPost ..⟩

section Path
variable (ha : s.accepts by_ 15 = true) {f : State → State × Nat}
include ha

theorem State.sessCmd_dropped (hf : s.pathFree CIPHER.SESS_RESULT = false) : s.sessCmd by_ tag f = s.reqDrop 15 := by
  rw [State.sessCmd, State.onWrite_accepts _ ha, hf]
  rfl
theorem State.sessCmd_taken (hf : s.pathFree CIPHER.SESS_RESULT = true) :
    s.sessCmd by_ tag f = (f s).1.sessPost tag (f s).2 s.sessNo := by
  rw [State.sessCmd, State.onWrite_accepts _ ha, hf]
  rfl

theorem exec_sessAck : exec (.sessAck by_ tag) s = .next (s.pathAck CIPHER.SESS_RESULT 0 tag) :=
  congrArg _ (State.onWrite_accepts _ ha)

variable (hf : s.pathFree CIPHER.SESS_RESULT = true)
include hf

theorem exec_sessInstall_holds {x : Session} (hx : s.sessArg = some x) :
    exec (.sessInstall by_ tag) s = .next ((s.setSession s.sessNo (some x)).sessPost tag 0 s.sessNo) := by
  rw [exec_sessInstall_eq, execSessInstall, State.sessCmd_taken ha hf, hx]
  rfl
theorem exec_sessInstall_invalid (hx : s.sessArg = none) :
    exec (.sessInstall by_ tag) s = .next (s.sessPost tag 1 s.sessNo) := by
  rw [exec_sessInstall_eq, execSessInstall, State.sessCmd_taken ha hf, hx]
theorem exec_sessDelete_deletes (hn : s.session s.sessNo ≠ none) :
    exec (.sessDelete by_ tag) s = .next ((s.setSession s.sessNo none).sessPost tag 0 s.sessNo) := by
  rw [State.sessNo] at hn
  simp [exec_sessDelete_eq, execSessDelete, State.sessCmd_taken ha hf, hn, State.sessNo]
theorem exec_sessDelete_notFound (hn : s.session s.sessNo = none) :
    exec (.sessDelete by_ tag) s = .next (s.sessPost tag 2 s.sessNo) := by
  rw [State.sessNo] at hn
  simp [exec_sessDelete_eq, execSessDelete, State.sessCmd_taken ha hf, hn]
theorem exec_sessIllegalOp : exec (.sessIllegalOp by_ tag) s = .next (s.sessPost tag 3 s.sessNo) := by
  rw [exec_sessIllegalOp_eq, execSessIllegalOp, State.sessCmd_taken ha hf]

end Path

/-! Jobs (R404 to R408). -/

section Arrive
variable {k d : Nat} {rest : List (Nat × Nat)} (hq : s.cipher.inQ = (k, d) :: rest) (hl : s.life 15 = .ready)
  (hroom : s.cipher.jobs.length + s.cipher.items.length < 512)
include hq hl hroom

theorem exec_cipherJobArrive : exec .cipherJobArrive s =
    let s1 := s.modCipher fun u => { u with inQ := rest }
    .next (if s.rbit CIPHER.CIPHER_CTL 31 = false ∨ s.rbit (CIPHER.QUEUE_CFG k) 31 = false ∨ s.dOfs d < 64 then s1.badJob d
      else (((s1.modCipher fun u => { u with
        jobs := u.jobs ++ [{ queue := k, desc := d, known := (s.session (s.jobWord d 0 % 2048)).isSome }] }).startJobs).syncCipher)) := by
  simp [exec_cipherJobArrive_eq, execCipherJobArrive, hq, hl, Nat.not_le.mpr hroom, or_assoc]

end Arrive

/-- The reads of a job that leaves the queue. -/
def State.jobReads (s : State) (j : CipherJob) : State × Bool :=
  (s.modCipher fun u => { u with jobs := u.jobs.erase j }).jobRead j.desc j.sess

section Done
variable {q : BitVec 8} {j : CipherJob} {e : Nat} (hj : s.cipher.jobs.find? (fun j => j.queue = q.toNat) = some j)
  (he : j.engine = some e) (hl : s.live 15 = true)
include hj he hl

theorem exec_cipherJobDone_readFails (hr : (s.jobReads j).2 = false) : exec (.cipherJobDone q) s =
    let s0 := if s.storeUp then (s.jobReads j).1.recordErr 15 0x80 e q.toNat j.desc false else (s.jobReads j).1
    .next (((s0.sat CIPHER.CIPHER_CNT1 7 0 1).freeDesc 12 j.desc).startJobs.syncCipher) := by
  unfold State.jobReads at hr ⊢
  simp only [exec_cipherJobDone_eq, execCipherJobDone, hj, he, hl, hr, Bool.not_true, Bool.not_false, Bool.false_eq_true,
    if_false, if_true]

variable (hr : (s.jobReads j).2 = true)
include hr

theorem exec_cipherJobDone_noSession (hs : j.sess = none) : exec (.cipherJobDone q) s =
    .next (((s.jobReads j).1.jobEnd q.toNat j.desc (if j.known then 3 else 2)).startJobs.syncCipher) := by
  unfold State.jobReads at hr ⊢
  simp only [exec_cipherJobDone_eq, execCipherJobDone, hj, he, hl, hr, Bool.not_true, Bool.false_eq_true, if_false]
  rw [hs]

variable {x : Session} (hs : j.sess = some x)
include hs

theorem exec_cipherJobDone_malformed (hm : jobMalformed (s.jobWord j.desc) (s.dLen j.desc) x.icv = true) :
    exec (.cipherJobDone q) s = .next (((s.jobReads j).1.jobEnd q.toNat j.desc 2).startJobs.syncCipher) := by
  unfold State.jobReads at hr ⊢
  simp only [exec_cipherJobDone_eq, execCipherJobDone, hj, he, hl, hr, Bool.not_true, Bool.false_eq_true, if_false]
  rw [hs]
  simp only [hm, if_true]

theorem exec_cipherJobDone_performed (hm : jobMalformed (s.jobWord j.desc) (s.dLen j.desc) x.icv = false) :
    exec (.cipherJobDone q) s =
      let p := (s.jobReads j).1.runJob j.desc x
      .next ((p.1.jobEnd q.toNat j.desc p.2).startJobs.syncCipher) := by
  unfold State.jobReads at hr ⊢
  simp only [exec_cipherJobDone_eq, execCipherJobDone, hj, he, hl, hr, Bool.not_true, Bool.false_eq_true, if_false]
  rw [hs]
  simp only [hm, Bool.false_eq_true, if_false]

end Done

/-- Settles O48: a session command by its words and the session it names, a job by its room and its queue, and its end by its reads, its
session and its record. -/
theorem cipherSessionsAndJobs : Obligations.CipherSessionsAndJobs := by
  refine fun by_ tag q s => ⟨fun ha hf =>
      ⟨fun x hx => ⟨_, exec_sessInstall_holds ha hf hx, State.posted_setSession .., ?_⟩,
      fun hx => ⟨_, exec_sessInstall_invalid ha hf hx, State.posted_unchanged .., State.session_sessPost ..⟩,
      fun hn => ⟨_, exec_sessDelete_deletes ha hf hn, State.posted_setSession .., ?_⟩,
      fun hn => ⟨_, exec_sessDelete_notFound ha hf hn, State.posted_unchanged .., (State.session_sessPost ..).trans hn⟩,
      ⟨_, exec_sessIllegalOp ha hf, State.posted_unchanged .., State.session_sessPost ..⟩⟩,
    fun ha hf => ⟨congrArg _ (State.sessCmd_dropped ha hf), congrArg _ (State.sessCmd_dropped ha hf),
      congrArg _ (State.sessCmd_dropped ha hf)⟩, exec_sessAck,
    fun k d rest hq hl hroom => ⟨fun hon hcfg hofs => (exec_cipherJobArrive hq hl hroom).trans (congrArg _ (if_neg ?_)),
      fun hoff => (exec_cipherJobArrive hq hl hroom).trans (congrArg _ (if_pos hoff))⟩,
    fun j e hj he hl => ⟨exec_cipherJobDone_noSession hj he hl, fun x hr hs => ⟨exec_cipherJobDone_malformed hj he hl hr hs,
      exec_cipherJobDone_performed hj he hl hr hs⟩, exec_cipherJobDone_readFails hj he hl⟩⟩
  · rw [State.session_sessPost]
    exact State.session_setSession_self ..
  · rw [State.session_sessPost]
    exact State.session_setSession_self ..
  · simp only [hon, hcfg, Bool.true_eq_false, false_or]
    omega

end Sys2Proof.Machine
end

section
/-! Stamps and the servo: snapshots, samples, holdover, the TSF offset, PPS and FTM (R414, R418, R424, R425, R429, R430). -/

namespace Sys2Proof.Machine

open Reg

variable {s : State} {by_ : Req} {k : Fin 4} {r : Fin 3} {tag4 : BitVec 4} {tag : Tag} {val : Word}

theorem exec_snapCapture_eq (by_ : Req) (k : Fin 4) (tag : BitVec 4) (s : State) :
    exec (.snapCapture by_ k tag) s = execSnapCapture by_ k tag s := rfl
theorem exec_snapAck_eq (by_ : Req) (k : Fin 4) (tag : BitVec 4) (s : State) :
    exec (.snapAck by_ k tag) s = execSnapAck by_ k tag s := rfl
theorem exec_servoInWrite_eq (by_ : Req) (val : Word) (s : State) : exec (.servoInWrite by_ val) s = execServoInWrite by_ val s := rfl
theorem exec_holdoverTimeout_eq (s : State) : exec .holdoverTimeout s = execHoldoverTimeout s := rfl
theorem exec_tsfOfsHiWrite_eq (by_ : Req) (r : Fin 3) (val : Word) (s : State) :
    exec (.tsfOfsHiWrite by_ r val) s = execTsfOfsHiWrite by_ r val s := rfl
theorem exec_ftmArm_eq (by_ : Req) (r : Fin 3) (val : Word) (s : State) : exec (.ftmArm by_ r val) s = execFtmArm by_ r val s := rfl
theorem exec_ppsInEdge_eq (s : State) : exec .ppsInEdge s = execPpsInEdge s := rfl
theorem exec_ppsOutRise_eq (s : State) : exec .ppsOutRise s = execPpsOutRise s := rfl
theorem exec_ppsOutFall_eq (s : State) : exec .ppsOutFall s = execPpsOutFall s := rfl

/-! Snapshots (R414). -/

/-- A snapshot's six words are stored. -/
def State.snapPut (s : State) (k : Nat) (w1 w2 w3 w4 w5 w6 : Word) : State :=
  (((((s.wr (TIME.SNAP_W1 k) w1).wr (TIME.SNAP_W2 k) w2).wr (TIME.SNAP_W3 k) w3).wr (TIME.SNAP_W4 k) w4).wr (TIME.SNAP_W5 k) w5).wr
    (TIME.SNAP_W6 k) w6

/-- A capture: the count, its seconds and its steps in a snapshot's six words. -/
def State.snapTaken (s : State) (k : Nat) (tag : BitVec 4) : State :=
  let n := s.ms.ns
  let sec := n / 1000000000
  s.snapPut k (wd (2 ^ 31 + tag.toNat * 2 ^ 24 + s.time.steps * 2 ^ 16 + s.ms.frac / 2 ^ 32)) (wd n) (wd (n / 2 ^ 32)) (wd sec)
    (wd (sec / 2 ^ 32 % 65536)) (wd (n % 1000000000))

/-- Two registers of one table's entry are two registers. -/
theorem reg_ne {a b n : Nat} (h : a ≠ b) : a + n ≠ b + n := fun he => h (Nat.add_right_cancel he)

section SnapPut
variable (s : State) (k : Nat) (w1 w2 w3 w4 w5 w6 : Word)

theorem State.rd_snapPut : let u := s.snapPut k w1 w2 w3 w4 w5 w6
    u.rd (TIME.SNAP_W1 k) = w1 ∧ u.rd (TIME.SNAP_W2 k) = w2 ∧ u.rd (TIME.SNAP_W3 k) = w3 ∧ u.rd (TIME.SNAP_W4 k) = w4 ∧
    u.rd (TIME.SNAP_W5 k) = w5 ∧ u.rd (TIME.SNAP_W6 k) = w6 := by
  have ne {a b : Nat} (t : State) (w : Word) (h : a ≠ b) : (t.wr (b + 32 * k) w).rd (a + 32 * k) = t.rd (a + 32 * k) :=
    State.rd_wr_ne _ _ (reg_ne h)
  unfold State.snapPut
  refine ⟨?_, ?_, ?_, ?_, ?_, State.rd_wr_self ..⟩
  · rw [ne _ _ (by decide), ne _ _ (by decide), ne _ _ (by decide), ne _ _ (by decide), ne _ _ (by decide), State.rd_wr_self]
  · rw [ne _ _ (by decide), ne _ _ (by decide), ne _ _ (by decide), ne _ _ (by decide), State.rd_wr_self]
  · rw [ne _ _ (by decide), ne _ _ (by decide), ne _ _ (by decide), State.rd_wr_self]
  · rw [ne _ _ (by decide), ne _ _ (by decide), State.rd_wr_self]
  · rw [ne _ _ (by decide), State.rd_wr_self]

theorem State.rb_snapPut (a : Nat) : (s.snapPut k w1 w2 w3 w4 w5 w6).rb a = s.rb a := by
  rw [State.snapPut, State.rb_wr, State.rb_wr, State.rb_wr, State.rb_wr, State.rb_wr, State.rb_wr]
theorem State.tile_snapPut (t : Nat) : (s.snapPut k w1 w2 w3 w4 w5 w6).tile t = s.tile t := by
  rw [State.snapPut, State.tile_wr, State.tile_wr, State.tile_wr, State.tile_wr, State.tile_wr, State.tile_wr]

end SnapPut

/-! What software writes (R414, R418, R424, R425, R429, R430). -/

section Accepted
variable (ha : s.accepts by_ 1 = true)
include ha

theorem exec_snapCapture_takes (hv : s.rbit (TIME.SNAP_W1 k.val) 31 = false) :
    exec (.snapCapture by_ k tag4) s = .next (s.snapTaken k.val tag4) := by
  rw [exec_snapCapture_eq, execSnapCapture, State.onWrite_accepts _ ha]
  exact congrArg _ (if_neg (by rw [hv]; decide))
theorem exec_snapCapture_drops (hv : s.rbit (TIME.SNAP_W1 k.val) 31 = true) :
    exec (.snapCapture by_ k tag4) s = .next (s.reqDrop 1) := by
  rw [exec_snapCapture_eq, execSnapCapture, State.onWrite_accepts _ ha]
  exact congrArg _ (if_pos hv)
theorem exec_snapAck (hv : s.rbit (TIME.SNAP_W1 k.val) 31 = true) (ht : s.rf (TIME.SNAP_W1 k.val) 27 24 = tag4.toNat) :
    exec (.snapAck by_ k tag4) s = .next (s.wr (TIME.SNAP_W1 k.val) 0) := by
  rw [exec_snapAck_eq, execSnapAck, State.onWrite_accepts _ ha]
  exact congrArg _ (if_pos (by simp [hv, ht]))

theorem exec_servoInWrite (val : Word) :
    exec (.servoInWrite by_ val) s = .next (if s.sampleOk 0 then s.applySample val.toInt else s) := by
  rw [exec_servoInWrite_eq, execServoInWrite, State.onWrite_accepts _ ha, State.sample, sval_toNat]
theorem exec_servoCtlWrite (val : Word) : exec (.servoCtlWrite by_ val) s =
    let s1 := s.wr TIME.SERVO_CTL (val &&& 0xEFFFFFFF)
    .next (if bit val 31 then s1 else s1.setServo 0) :=
  congrArg _ (State.onWrite_accepts _ ha)
theorem exec_ppsInAck (tag : Tag) : exec (.ppsInAck by_ tag) s = .next (s.pathAck TIME.PPS_IN_STAT 16 tag) :=
  congrArg _ (State.onWrite_accepts _ ha)

theorem exec_ftmArm_arms (h0 : s.rd (TIME.FTM_W0 r.val) = 0) (h1 : s.rbit (TIME.FTM_W1 r.val) 31 = false)
    (hsel : fld val 9 8 ≠ 0) : exec (.ftmArm by_ r val) s =
      .next ((s.wr (TIME.FTM_W0 r.val) (val &&& 0x3FF)).modRadio r.val fun x => { x with ftmRx := false, ftmTx := false }) := by
  rw [exec_ftmArm_eq, execFtmArm, State.onWrite_accepts _ ha]
  exact congrArg _ ((if_neg (by simp [h0, h1])).trans (if_neg hsel))
theorem exec_ftmArm_drops (h : s.rd (TIME.FTM_W0 r.val) ≠ 0 ∨ s.rbit (TIME.FTM_W1 r.val) 31 = true) :
    exec (.ftmArm by_ r val) s = .next (s.reqDrop 1) := by
  rw [exec_ftmArm_eq, execFtmArm, State.onWrite_accepts _ ha]
  exact congrArg _ (if_pos (by simpa using h))
theorem exec_ftmAck (tag : Tag) : exec (.ftmAck by_ r tag) s = .next (s.pathAck (TIME.FTM_W1 r.val) 16 tag) :=
  congrArg _ (State.onWrite_accepts _ ha)

/-- The low word that waits, or else the one in effect, takes effect with the high word (R418). -/
theorem exec_tsfOfsHiWrite {lo : Nat} (hlo : (tget (fun _ => none) s.time.tsfHeld r.val).getD (s.rd (TIME.TSF_OFS_LO r.val)).toNat = lo)
    (val : Word) : exec (.tsfOfsHiWrite by_ r val) s =
      .next (({ s with time := { s.time with tsfHeld := terase s.time.tsfHeld r.val } } : State).setTsfOfs r.val
        (lo + 2 ^ 32 * val.toNat)) := by
  rw [exec_tsfOfsHiWrite_eq, execTsfOfsHiWrite, State.onWrite_accepts _ ha, hlo]

end Accepted

theorem State.tsfOfs_setTsfOfs (s : State) (r : Nat) {v : Nat} (h : v < 2 ^ 64) : (s.setTsfOfs r v).tsfOfs r = v := by
  rw [State.tsfOfs, State.setTsfOfs, State.rd_wr_ne _ _ (reg_ne (by decide)), State.rd_wr_self, State.rd_wr_self, wd, wd,
    BitVec.toNat_ofNat, BitVec.toNat_ofNat]
  omega

/-! What the clock and the pins bring (R425, R429). -/

theorem exec_holdoverTimeout (hs : s.servo = 2) (hl : s.life 1 = .ready)
    (ht : max 1 (s.rf TIME.SERVO_HOLD 15 0) * 500000 ≤ s.time.wait) :
    exec .holdoverTimeout s = .next ((s.setServo 3).setAdj s.time.integ) := by
  rw [exec_holdoverTimeout_eq, execHoldoverTimeout]
  exact congrArg _ (if_pos (by simp [hs, hl, ht]))

/-- One more edge is counted. -/
def State.edgeCounted (s : State) : State := { s with time := { s.time with edges := (s.time.edges + 1) % 256 } }
/-- An edge's stamp is posted with its event. -/
def State.edgeStamped (s : State) : State :=
  (((s.edgeCounted.wr TIME.PPS_IN_LO (wd s.ms.ns)).wr TIME.PPS_IN_HI (wd (s.ms.ns / 2 ^ 32))).wr TIME.PPS_IN_STAT
    (wd (2 ^ 31 + (s.time.edges + 1) % 256 * 2 ^ 16 + s.ms.frac / 2 ^ 32))).evt 1 19

section Edge
variable (hl : s.live 1 = true) (hon : s.rbit TIME.PPS_CTL 30 = true)
include hl hon

theorem exec_ppsInEdge_counts (hv : s.rbit TIME.PPS_IN_STAT 31 = true) : exec .ppsInEdge s = .next s.edgeCounted := by
  rw [exec_ppsInEdge_eq, execPpsInEdge]
  exact congrArg _ ((if_neg (by simp [hl, hon])).trans (if_pos hv))

theorem exec_ppsInEdge_stamps (hv : s.rbit TIME.PPS_IN_STAT 31 = false) : exec .ppsInEdge s =
    let d : Int := (s.ms.ns : Int) - (s.rd TIME.PPS_IN_DELAY).toInt
    .next (s.edgeStamped.sample 2 (256 * ((d + 500000000) % 1000000000 - 500000000))) := by
  rw [exec_ppsInEdge_eq, execPpsInEdge, sval_toNat]
  exact congrArg _ ((if_neg (by simp [hl, hon])).trans (if_neg (by rw [Bool.not_eq_true]; exact hv)))

end Edge

theorem exec_ppsOutRise (hon : s.ppsOn = true) (hstep : s.time.stepAt ≠ some s.clock)
    (hpast : ((s.ms.total : Int) - (s.rd TIME.PPS_OUT_OFS).toInt * 2 ^ 48) % (1000000000 * 2 ^ 48) < (s.time.inc : Int)) :
    exec .ppsOutRise s = .next { s with time := { s.time with pps := some s.time.run } } := by
  rw [exec_ppsOutRise_eq, execPpsOutRise, sval_toNat]
  exact congrArg _ (if_pos (by simpa [hon, hstep] using hpast))

theorem exec_ppsOutFall {t : Nat} (hp : s.time.pps = some t) (ht : t + max 1 (s.rf TIME.PPS_CTL 15 0) * 1000 * 2 ^ 48 ≤ s.time.run) :
    exec .ppsOutFall s = .next { s with time := { s.time with pps := none } } := by
  rw [exec_ppsOutFall_eq, execPpsOutFall, hp]
  exact congrArg _ (if_pos ht)

/-- Settles O41: a capture by its snapshot's VALID, an edge by its stamp's, and what the servo, PPS and FTM do by their conditions. -/
theorem stampsAndServoFollowTheCount : Obligations.StampsAndServoFollowTheCount := by
  refine fun by_ k r tag4 tag val s => ⟨fun ha => ⟨fun hv => ⟨_, exec_snapCapture_takes ha hv, ?_⟩, exec_snapCapture_drops ha,
      exec_snapAck ha, exec_servoInWrite ha val, exec_servoCtlWrite ha val, exec_ppsInAck ha tag,
      fun lo hlo hheld => ⟨_, exec_tsfOfsHiWrite ha hheld val, State.tsfOfs_setTsfOfs _ _ ?_, tget_terase_self ..⟩,
      exec_ftmArm_arms ha, exec_ftmArm_drops ha, exec_ftmAck ha tag⟩,
    exec_holdoverTimeout, fun hl hon => ⟨exec_ppsInEdge_counts hl hon, exec_ppsInEdge_stamps hl hon⟩, exec_ppsOutRise,
    fun t => exec_ppsOutFall⟩
  · obtain ⟨h1, h2, h3, h4, h5, h6⟩ := s.rd_snapPut k.val _ _ _ _ _ _
    exact ⟨h1, h2, h3, h4, h5, h6, fun a => State.rb_snapPut .., fun t => State.tile_snapPut ..⟩
  · have hval := val.isLt
    omega

end Sys2Proof.Machine
end

section
/-! The lanes: their link, what they receive and what they send (R347, R422, R450 to R454, R457). -/

namespace Sys2Proof.Machine

open Reg

variable {s : State} {by_ : Req} {n : Fin 4} {data : List Byte}

theorem exec_laneCtlWrite_eq (by_ : Req) (n : Fin 4) (val : Word) (s : State) :
    exec (.laneCtlWrite by_ n val) s = execLaneCtlWrite by_ n val s := rfl
theorem exec_laneRxLock_eq (n : Fin 4) (s : State) : exec (.laneRxLock n) s = execLaneRxLock n s := rfl
theorem exec_anDone_eq (n : Fin 4) (lp : Word) (fec : BitVec 2) (s : State) : exec (.anDone n lp fec) s = execAnDone n lp fec s := rfl
theorem exec_laneLinkUp_eq (n : Fin 4) (s : State) : exec (.laneLinkUp n) s = execLaneLinkUp n s := rfl
theorem exec_laneLinkDown_eq (n : Fin 4) (lost fault : Bool) (s : State) :
    exec (.laneLinkDown n lost fault) s = execLaneLinkDown n lost fault s := rfl
theorem exec_pauseResendTimer_eq (n : Fin 4) (s : State) : exec (.pauseResendTimer n) s = execPauseResendTimer n s := rfl
theorem exec_wireRxFrame_eq (n : Fin 4) (data : List Byte) (s : State) :
    exec (.wireRxFrame n data) s = execWireRxFrame n data s := rfl
theorem exec_clsIngressArrive_eq (k : Fin 11) (s : State) : exec (.clsIngressArrive k) s =
    .next (if k.val < 4 then (s.clsAccept k.val).wireDrain k.val else s.clsAccept k.val) := rfl
theorem exec_wireTxEnqueue_eq (src : Option (Fin 64)) (s : State) : exec (.wireTxEnqueue src) s = execWireTxEnqueue src s := rfl
theorem exec_wireTxStart_eq (n : Fin 4) (s : State) : exec (.wireTxStart n) s = execWireTxStart n s := rfl
theorem exec_wireTxEnd_eq (n : Fin 4) (s : State) : exec (.wireTxEnd n) s = execWireTxEnd n s := rfl

/-! The link (R450, R451). -/

theorem exec_laneCtlWrite (ha : s.accepts by_ 17 = true) (n : Fin 4) (val : Word) :
    exec (.laneCtlWrite by_ n val) s = .next ((s.wr (WIRE.LANE_CTL n.val) (if bit (s.rd (WIRE.LANE_CTL n.val)) 31
      then putFld (val &&& 0xFFC03FFF) 30 28 (fld (s.rd (WIRE.LANE_CTL n.val)) 30 28) else val &&& 0xFFC03FFF)).laneOff n.val) := by
  rw [exec_laneCtlWrite_eq, execLaneCtlWrite, State.onWrite_accepts _ ha, State.laneCtlWrite]

section On
variable (hon : s.laneOn n.val = true)
include hon

theorem exec_laneRxLock_negotiated (han : bit (s.rd (WIRE.LANE_CTL n.val)) 27 = true) : exec (.laneRxLock n) s =
    .next ((s.setLane n.val { s.lane n.val with lock := true, fault := false }).laneSync n.val) := by
  rw [exec_laneRxLock_eq, execLaneRxLock, hon]
  dsimp only
  rw [han]
  rfl
theorem exec_laneRxLock_set (han : bit (s.rd (WIRE.LANE_CTL n.val)) 27 = false) : exec (.laneRxLock n) s =
    .next (((s.wf (WIRE.LANE_STATUS n.val) 27 26 (s.laneFec n.val (fld (s.rd (WIRE.LANE_CTL n.val)) 26 25))).setLane n.val
      { s.lane n.val with lock := true, fault := false }).laneSync n.val) := by
  rw [exec_laneRxLock_eq, execLaneRxLock, hon]
  dsimp only
  rw [han]
  rfl

/-- Auto-negotiation is done: the partner's word, the bit that says so, and the FEC resolved. -/
def State.negotiated (s : State) (i : Nat) (lp : Word) (fec : Nat) : State :=
  ((s.wr (WIRE.LANE_LP i) (if s.laneMode i < 2 then lp else lp &&& 0xFFFF)).wf (WIRE.LANE_STATUS i) 30 30 1).wf
    (WIRE.LANE_STATUS i) 27 26 (s.laneFec i fec)

theorem exec_anDone (h : s.rbit (WIRE.LANE_CTL n.val) 27 = true ∨ s.laneWord n.val = true) (lp : Word) (fec : BitVec 2) :
    exec (.anDone n lp fec) s = .next ((if s.rbit (WIRE.LANE_STATUS n.val) 30 then s.negotiated n.val lp fec.toNat
      else (s.negotiated n.val lp fec.toNat).evt 17 (20 + n.val)).laneSync n.val) := by
  rw [exec_anDone_eq, execAnDone]
  refine congrArg _ ((if_neg (by rcases h with h | h <;> simp [hon, h])).trans ?_)
  cases s.rbit (WIRE.LANE_STATUS n.val) 30 <;> rfl

end On

theorem exec_laneLinkUp_held {t : Nat} (hsince : (s.lane n.val).okSince = some t) (hdown : s.link n.val = false)
    (hok : s.laneOk n.val = true) (hheld : t + 5000000 ≤ s.clock) : exec (.laneLinkUp n) s =
      .next (((s.wf (WIRE.LANE_STATUS n.val) 31 31 1).wf (WIRE.LANE_STATUS n.val) 19 16 (s.laneSpeed n.val)).evt 17 (16 + n.val)) := by
  rw [exec_laneLinkUp_eq, execLaneLinkUp]
  dsimp only
  rw [hsince]
  exact congrArg _ (if_neg (by simp [hdown, hok, hheld]))

/-! PAUSE (R454). -/

theorem exec_pauseResendTimer_due {t : Nat} (hx : (s.lane n.val).xoff = some t)
    (hdue : t + s.bitCycles n.val (s.rf (WIRE.LANE_PAUSE n.val) 31 16 * 256) ≤ s.clock)
    (hfill : s.xoffBytes n.val ≤ 2 * s.laneFill n.val) (hen : s.rbit (WIRE.LANE_CTL n.val) 24 = true) :
    exec (.pauseResendTimer n) s = .next (s.setLane n.val { s.lane n.val with
      pauseOut := (s.lane n.val).pauseOut ++ [s.rf (WIRE.LANE_PAUSE n.val) 31 16], xoff := some s.clock }) := by
  rw [exec_pauseResendTimer_eq, execPauseResendTimer]
  dsimp only
  rw [hx]
  exact congrArg _ (if_neg (by simp [hdue, hfill, hen]))
theorem exec_pauseExpire_over (h : (s.lane n.val).pauseUntil ≤ s.clock) :
    exec (.pauseExpire n) s = .next (s.wf (WIRE.LANE_STATUS n.val) 25 25 0) :=
  congrArg _ (if_neg (Nat.not_lt.mpr h))

/-! Frames from the wire (R347, R452, R457). -/

/-- The frame's FCS is the check of the bytes before it. -/
def fcsOk (data : List Byte) : Bool :=
  decide (le 4 (crc32 (data.take (data.length - 4))) = data.drop (data.length - 4))
/-- A frame whose FCS fails counts. -/
def State.fcsCounted (s : State) (i : Nat) (data : List Byte) : State :=
  if fcsOk data then s else s.sat (WIRE.LANE_ERR_CNT i) 31 16 1
/-- A frame in a lane's buffer. -/
def State.laneFrame (s : State) (i : Nat) (data : List Byte) : WireRx :=
  let ps := s.ns * 1000 - 10 * s.rf (TIME.WIRE_DELAY i) 15 0
  { data := data.take (data.length - 4), wireLen := data.length, stamp := if s.ns = 0 then 0 else ps / 1000 % 2 ^ 32
    fabric := fabField data 12 2 = 0x88B5
    status := 2 ^ 31 + b2n (fcsOk data) * 2 ^ 30 + i * 2 ^ 28 + s.rf (WIRE.LANE_STATUS i) 19 16 * 2 ^ 16 + data.length }

theorem State.lane_fcsCounted (s : State) (i : Nat) (data : List Byte) (k : Nat) : (s.fcsCounted i data).lane k = s.lane k := by
  rw [State.fcsCounted]
  split <;> rfl

theorem exec_wireRxFrame_noLink (hlink : s.link n.val = false) : exec (.wireRxFrame n data) s = .next s := by
  rw [exec_wireRxFrame_eq, execWireRxFrame]
  exact congrArg _ (if_pos (by simp [hlink]))

section Linked
variable (hlink : s.link n.val = true)
include hlink

theorem exec_wireRxFrame_notReady (hready : s.life 17 ≠ .ready) : exec (.wireRxFrame n data) s = .next (s.rxDrop n.val 31 16) := by
  rw [exec_wireRxFrame_eq, execWireRxFrame]
  exact congrArg _ ((if_neg (by simp [hlink])).trans (if_pos (by simp [hready])))

section Ready
variable (hready : s.life 17 = .ready)
include hready

theorem exec_wireRxFrame_badLength (hlen : data.length < 64 ∨ s.maxFrame n.val < data.length) :
    exec (.wireRxFrame n data) s = .next (s.sat (WIRE.LANE_ERR_CNT n.val) 15 8 1) := by
  rw [exec_wireRxFrame_eq, execWireRxFrame]
  exact congrArg _ ((if_neg (by simp [hlink])).trans ((if_neg (by simp [hready])).trans (if_pos (by simpa using hlen))))

section Length
variable (hmin : 64 ≤ data.length) (hmax : data.length ≤ s.maxFrame n.val)
include hmin hmax

theorem execWireRxFrame_whole : execWireRxFrame n data s = .next (
    let s1 := s.fcsCounted n.val data
    if !(fcsOk data || s.rbit (WIRE.LANE_CTL n.val) 22) then s1
    else if fabField data 12 2 = 0x8808 then (if fcsOk data then s1.pauseIn n.val data else s1)
    else if 262144 < s1.laneFill n.val + data.length then s1.rxDrop n.val 31 16
    else (s1.setLane n.val { s1.lane n.val with rx := (s1.lane n.val).rx ++ [s.laneFrame n.val data] }).wireDrain n.val) := by
  have hgood : ¬ (data.length < 64 || s.maxFrame n.val < data.length) = true := by simp [hmin, hmax]
  rw [execWireRxFrame]
  refine congrArg _ ((if_neg (by simp [hlink])).trans ((if_neg (by simp [hready])).trans ((if_neg hgood).trans ?_)))
  simp only [State.fcsCounted, fcsOk, decide_eq_true_eq]
  rfl

theorem exec_wireRxFrame_badFcs (hf : fcsOk data = false) (hkeep : s.rbit (WIRE.LANE_CTL n.val) 22 = false) :
    exec (.wireRxFrame n data) s = .next (s.fcsCounted n.val data) := by
  rw [exec_wireRxFrame_eq, execWireRxFrame_whole hlink hready hmin hmax]
  exact congrArg _ (if_pos (by simp [hf, hkeep]))

section Kept
variable (hkeep : fcsOk data = true ∨ s.rbit (WIRE.LANE_CTL n.val) 22 = true)
include hkeep

theorem exec_wireRxFrame_control (htype : fabField data 12 2 = 0x8808) : exec (.wireRxFrame n data) s =
    .next (if fcsOk data then (s.fcsCounted n.val data).pauseIn n.val data else s.fcsCounted n.val data) := by
  rw [exec_wireRxFrame_eq, execWireRxFrame_whole hlink hready hmin hmax]
  exact congrArg _ ((if_neg (by rcases hkeep with h | h <;> simp [h])).trans (if_pos htype))
theorem exec_wireRxFrame_full (htype : fabField data 12 2 ≠ 0x8808)
    (hfull : 262144 < (s.fcsCounted n.val data).laneFill n.val + data.length) :
    exec (.wireRxFrame n data) s = .next ((s.fcsCounted n.val data).rxDrop n.val 31 16) := by
  rw [exec_wireRxFrame_eq, execWireRxFrame_whole hlink hready hmin hmax]
  exact congrArg _ ((if_neg (by rcases hkeep with h | h <;> simp [h])).trans ((if_neg htype).trans (if_pos hfull)))
theorem exec_wireRxFrame_buffered (htype : fabField data 12 2 ≠ 0x8808)
    (hroom : (s.fcsCounted n.val data).laneFill n.val + data.length ≤ 262144) : exec (.wireRxFrame n data) s =
      .next (((s.fcsCounted n.val data).setLane n.val { s.lane n.val with rx := (s.lane n.val).rx ++ [s.laneFrame n.val data] }).wireDrain
        n.val) := by
  rw [exec_wireRxFrame_eq, execWireRxFrame_whole hlink hready hmin hmax]
  rw [← s.lane_fcsCounted n.val data n.val]
  exact congrArg _ ((if_neg (by rcases hkeep with h | h <;> simp [h])).trans ((if_neg htype).trans (if_neg (Nat.not_lt.mpr hroom))))

end Kept
end Length
end Ready
end Linked

/-! Frames for the wire (R422, R453, R454). -/

theorem exec_wireTxEnqueue_released {w : WireOffer} {rest : List WireOffer} (h : s.wireIn = w :: rest) : exec (.wireTxEnqueue none) s =
    .next (({ s with wireIn := rest } : State).txEnqueue w.lane w.pri { desc := w.desc, dst := w.dst, beacon := w.beacon }) := by
  rw [exec_wireTxEnqueue_eq, execWireTxEnqueue, h]
theorem exec_wireTxEnqueue_nextHop {nh : Fin 64} {d m : Nat} {rest : List (Nat × Nat)} (hq : s.nhQueue nh.val = (d, m) :: rest)
    (hok : s.nhOk nh.val = true) (hwire : s.nhWire nh.val = true) (hlive : s.live 9 = true) :
    exec (.wireTxEnqueue (some nh)) s = .next ((s.setNhQueue nh.val rest).txEnqueue (s.nhIndex nh.val) (fabField (s.dData d) 6 1 % 8)
      { desc := d, dst := some (beVal (le 4 (s.rd (CLASS.NH_W1 nh.val)).toNat ++ le 2 (s.rd (CLASS.NH_W2 nh.val)).toNat)) }) := by
  rw [exec_wireTxEnqueue_eq, execWireTxEnqueue]
  dsimp only
  rw [hq]
  exact congrArg _ (if_neg (by simp [hok, hwire, hlive]))

section Idle
variable (hcur : (s.lane n.val).cur = none) (hlink : s.link n.val = true) (hlive : s.live 17 = true)
include hcur hlink hlive

theorem exec_wireTxStart_pause {q : Nat} {rest : List Nat} (hp : (s.lane n.val).pauseOut = q :: rest) : exec (.wireTxStart n) s =
    .next ((s.setLane n.val { s.lane n.val with pauseOut := rest }).laneSend n.val none
      (be 6 0x0180C2000001 ++ s.laneMac n.val ++ be 2 0x8808 ++ be 2 1 ++ be 2 q)) := by
  rw [exec_wireTxStart_eq, execWireTxStart]
  dsimp only
  rw [hp]
  exact congrArg _ (if_neg (by simp [hcur, hlink, hlive]))
theorem exec_wireTxStart_frame {p : Nat} {f : WireFrame} {rest : List WireFrame} (hp : (s.lane n.val).pauseOut = [])
    (hover : (s.lane n.val).pauseUntil ≤ s.clock)
    (hfirst : ([7, 6, 5, 4, 3, 2, 1, 0].find? fun p => !(tget (fun _ => []) (s.lane n.val).q p).isEmpty) = some p)
    (hq : tget (fun _ => []) (s.lane n.val).q p = f :: rest) : exec (.wireTxStart n) s =
      .next ((s.setLane n.val { s.lane n.val with q := tput (fun _ => []) (s.lane n.val).q p rest }).txFrame n.val f) := by
  rw [exec_wireTxStart_eq, execWireTxStart]
  dsimp only
  rw [hp, hfirst]
  dsimp only
  rw [hq]
  exact congrArg _ ((if_neg (by simp [hcur, hlink, hlive])).trans (if_neg (Nat.not_lt.mpr hover)))

end Idle

section End
variable {t : WireTx} (hcur : (s.lane n.val).cur = some t) (hend : t.endAt ≤ s.clock)
include hcur hend

theorem execWireTxEnd_over : execWireTxEnd n s = .next (
    let s1 := s.setLane n.val { s.lane n.val with cur := none }
    match t.desc with
    | some d => (s1.freeDesc 14 d).sat (WIRE.LANE_TX_CNT n.val) 31 0 1
    | none => s1) := by
  rw [execWireTxEnd]
  dsimp only
  rw [hcur]
  exact congrArg _ (if_neg (Nat.not_lt.mpr hend))
theorem exec_wireTxEnd_pause (hd : t.desc = none) :
    exec (.wireTxEnd n) s = .next (s.setLane n.val { s.lane n.val with cur := none }) := by
  rw [exec_wireTxEnd_eq, execWireTxEnd_over hcur hend, hd]
theorem exec_wireTxEnd_frame {d : Nat} (hd : t.desc = some d) : exec (.wireTxEnd n) s =
    .next (((s.setLane n.val { s.lane n.val with cur := none }).freeDesc 14 d).sat (WIRE.LANE_TX_CNT n.val) 31 0 1) := by
  rw [exec_wireTxEnd_eq, execWireTxEnd_over hcur hend, hd]

end End

/-- Settles O53: the link by its conditions, a frame from the wire by the first check it fails, one for the wire by what goes before it. -/
theorem lanesAndWireFrames : Obligations.LanesAndWireFrames := by
  refine ⟨fun by_ n val lp fec lost fault s => ⟨fun ha => exec_laneCtlWrite ha n val,
      fun hon => ⟨exec_laneRxLock_negotiated hon, exec_laneRxLock_set hon⟩, fun hon h => exec_anDone hon h lp fec,
      fun t => exec_laneLinkUp_held, exec_laneLinkDown_eq n lost fault s, fun t => exec_pauseResendTimer_due, exec_pauseExpire_over⟩,
    fun n k nh data s => ⟨exec_wireRxFrame_noLink, exec_wireRxFrame_notReady, exec_wireRxFrame_badLength,
      fun hlink hready hmin hmax => ⟨exec_wireRxFrame_badFcs hlink hready hmin hmax, fun hkeep =>
        ⟨exec_wireRxFrame_control hlink hready hmin hmax hkeep, exec_wireRxFrame_full hlink hready hmin hmax hkeep,
          exec_wireRxFrame_buffered hlink hready hmin hmax hkeep⟩⟩,
      exec_clsIngressArrive_eq k s, fun w rest => exec_wireTxEnqueue_released, fun d m rest => exec_wireTxEnqueue_nextHop,
      fun hcur hlink hlive => ⟨fun q rest => exec_wireTxStart_pause hcur hlink hlive,
        fun p f rest => exec_wireTxStart_frame hcur hlink hlive⟩,
      fun t hcur hend => ⟨exec_wireTxEnd_pause hcur hend, fun d => exec_wireTxEnd_frame hcur hend⟩⟩⟩

end Sys2Proof.Machine
end

section
/-! The host's requests through its BARs (R436 to R438). -/

namespace Sys2Proof.Machine

open Reg

variable {s : State} {off : BitVec 34}

theorem exec_hostBarRequest_eq (bar2 : Bool) (off : BitVec 34) (be : List Bool) (d : Option (List Byte)) (s : State) :
    exec (.hostBarRequest bar2 off be d) s = execHostBarRequest bar2 off be d s := rfl

/-- HOST serves requests: its link is up, the function is not in D3hot, and the tile is live or held. -/
def State.barServed (s : State) : Prop :=
  s.rbit HOST.HOST_STATUS 31 = true ∧ s.rbit HOST.HOST_STATUS 28 = false ∧ s.active 16 = true

/-- A read is answered with its bytes. -/
def State.hostSays (s : State) (l : List Byte) : State :=
  s.modHost fun x => { x with replies := x.replies ++ [{ data := l, poisoned := false }] }

theorem State.hostReply_ok (s : State) (a : Nat) (l : List Byte) : s.hostReply a .ok l = s.hostSays l := rfl
theorem State.hostReply_decode (s : State) (a n : Nat) : s.hostReply a .decode (zeros n) = s.hostSays (zeros n) := by
  rw [zeros, State.hostReply, List.length_replicate]
  rfl

theorem exec_hostBarRequest_down (h : ¬ s.barServed) (bar2 : Bool) (be : List Bool) (d : Option (List Byte)) :
    exec (.hostBarRequest bar2 off be d) s = .next s := by
  rw [exec_hostBarRequest_eq, execHostBarRequest]
  refine congrArg _ (if_pos ?_)
  by_contra hdown
  simp only [Bool.or_eq_true, Bool.not_eq_true', decide_eq_true_eq, not_or, Bool.not_eq_false, Bool.not_eq_true] at hdown
  obtain ⟨⟨⟨hlink, hd3⟩, hact⟩, -⟩ := hdown
  exact h ⟨hlink, hd3, hact⟩

section Served
variable (hup : s.barServed)
include hup

theorem State.barServed_guard {n : Nat} (hn : n ≠ 0) :
    ¬ (!s.rbit HOST.HOST_STATUS 31 || s.rbit HOST.HOST_STATUS 28 || !s.active 16 || n = 0) = true := by
  obtain ⟨hlink, hd3, hact⟩ := hup
  simp [hlink, hd3, hact, hn]

/-! BAR 0: one dword. -/

section Dword
variable (halign : off.toNat % 4 = 0) (hoff : off.toNat < 0x12000000)
include halign hoff

theorem execHostBarRequest_dwordWrite {be : List Bool} (hbe : be.length = 4) (d : List Byte) :
    execHostBarRequest false off be (some d) s = .next (s.bar0Writes off.toNat (fun i => be.getD i false) d 1) := by
  have hlo : off.toNat % 0x20000000 / 4 * 4 = off.toNat := by omega
  rw [execHostBarRequest]
  dsimp only
  rw [if_neg (State.barServed_guard hup (by omega)), if_neg Bool.false_ne_true, hlo, halign, hbe]
  simp [zeros]

theorem exec_hostBarRequest_dwordWrite (b0 b1 b2 b3 : Byte) :
    exec (.hostBarRequest false off [true, true, true, true] (some [b0, b1, b2, b3])) s = .next (s.controlWrite .host
      (off.toNat / 0x1000000) (off.toNat % 0x1000000)
      (wd (b0.toNat + 256 * b1.toNat + 65536 * b2.toNat + 16777216 * b3.toNat))) := by
  rw [exec_hostBarRequest_eq, execHostBarRequest_dwordWrite hup halign hoff rfl]
  exact congrArg _ (if_pos hoff)

theorem exec_hostBarRequest_partWrite (d : List Byte) :
    exec (.hostBarRequest false off [true, false, true, true] (some d)) s =
      .next (s.recordErr 16 8 noUnit 0 (0x1000000000 + off.toNat) false) := by
  rw [exec_hostBarRequest_eq, execHostBarRequest_dwordWrite hup halign hoff rfl]
  rfl

theorem exec_hostBarRequest_dwordRead : let r := s.controlRead .host (off.toNat / 0x1000000) (off.toNat % 0x1000000)
    exec (.hostBarRequest false off [true, true, true, true] none) s = .next (r.1.hostSays (le 4 r.2.toNat)) := by
  have hlo : off.toNat % 0x20000000 / 4 * 4 = off.toNat := by omega
  have hwrap : off.toNat % 0x20000000 = off.toNat := by omega
  have hread : s.bar0Read off.toNat = s.controlRead .host (off.toNat / 0x1000000) (off.toNat % 0x1000000) := if_pos hoff
  have hreads : s.bar0Reads off.toNat 1 = ((s.bar0Read off.toNat).1, le 4 (s.bar0Read off.toNat).2.toNat) := by
    rw [State.bar0Reads, hwrap, State.bar0Reads, List.append_nil]
  rw [exec_hostBarRequest_eq, execHostBarRequest]
  dsimp only [List.length_cons, List.length_nil]
  rw [if_neg (State.barServed_guard hup (by decide)), if_neg Bool.false_ne_true, hlo, halign, Nat.zero_add, hreads, State.hostReply_ok,
    hread]
  rfl

end Dword

/-! BAR 2: the store. -/

theorem exec_hostBarRequest_storeWrite (hstore : s.storeUp = true) (hin : s.bar2Addr off.toNat + 4 ≤ storeEnd) (b0 b1 b2 b3 : Byte) :
    exec (.hostBarRequest true off [true, true, true, true] (some [b0, b1, b2, b3])) s =
      .next (s.storeWrite 13 (s.bar2Addr off.toNat) [b0, b1, b2, b3]) := by
  have hregion : regionOf (s.bar2Addr off.toNat) = .store (s.bar2Addr off.toNat) := if_pos (by omega)
  have hwrite : s.busWrite .host (s.bar2Addr off.toNat) [b0, b1, b2, b3] =
      (s.storeWrite (reqPort .host) (s.bar2Addr off.toNat) [b0, b1, b2, b3], .ok) := by
    rw [State.busWrite, hregion]
    exact (if_neg (by simp [hstore])).trans (if_neg (Nat.not_lt.mpr hin))
  have hruns : enabledRuns [true, true, true, true] [b0, b1, b2, b3] 0 0 [] = [(0, [b0, b1, b2, b3])] := rfl
  rw [exec_hostBarRequest_eq, execHostBarRequest]
  dsimp only
  rw [if_neg (State.barServed_guard hup (by decide)), if_pos rfl, hruns, List.foldl_cons, List.foldl_nil, Nat.add_zero, hwrite]
  dsimp only
  rw [show [b0, b1, b2, b3].length = 4 from rfl, if_neg (Nat.not_lt.mpr hin), show reqPort .host = 13 from rfl]

section Read
variable {be : List Bool} (hbe : be ≠ [])
include hbe

theorem execHostBarRequest_storeRead : execHostBarRequest true off be none s = .next (
    let a := s.bar2Addr off.toNat
    let r := if storeEnd < a + be.length then s.noRead .host a be.length else s.busRead .host a be.length
    r.1.hostReply a r.2.1 r.2.2) :=
  congrArg _ (if_neg (State.barServed_guard hup (mt List.eq_nil_of_length_eq_zero hbe)))

theorem exec_hostBarRequest_storeRead (hstore : s.storeUp = true) (ha : s.bar2Addr off.toNat < storeEnd)
    (hin : s.bar2Addr off.toNat + be.length ≤ storeEnd) (hclean : s.readFault (s.bar2Addr off.toNat) be.length = none) :
    exec (.hostBarRequest true off be none) s = .next (s.hostSays (s.rbytes (s.bar2Addr off.toNat) be.length)) := by
  have hregion : regionOf (s.bar2Addr off.toNat) = .store (s.bar2Addr off.toNat) := if_pos ha
  have hread : s.storeRead (reqPort .host) (s.bar2Addr off.toNat) be.length = (s, true) := by
    rw [State.storeRead, hclean]
    exact (if_neg (by simp [hstore])).trans (if_neg (Nat.not_lt.mpr hin))
  have hbus : s.busRead .host (s.bar2Addr off.toNat) be.length = (s, .ok, s.rbytes (s.bar2Addr off.toNat) be.length) := by
    rw [State.busRead, hregion]
    dsimp only
    rw [hread]
    exact (if_neg (by simp [hstore])).trans (if_neg (Nat.not_lt.mpr hin))
  rw [exec_hostBarRequest_eq, execHostBarRequest_storeRead hup hbe]
  dsimp only
  rw [if_neg (Nat.not_lt.mpr hin), hbus, State.hostReply_ok]

theorem exec_hostBarRequest_pastEnd (hpast : storeEnd < s.bar2Addr off.toNat + be.length) :
    exec (.hostBarRequest true off be none) s =
      .next ((s.recordErr 16 8 noUnit 0 (s.bar2Addr off.toNat) false).hostSays (zeros be.length)) := by
  rw [exec_hostBarRequest_eq, execHostBarRequest_storeRead hup hbe]
  dsimp only
  rw [if_pos hpast, State.noRead, State.hostReply_decode, State.decodeErr, reqTile]

end Read
end Served

/-- Settles O16: a request by its BAR, and one that reads by whether the store holds the whole range. -/
theorem hostRequestsAreServed : Obligations.HostRequestsAreServed :=
  fun _ b0 b1 b2 b3 _ => ⟨fun hup halign hoff => ⟨exec_hostBarRequest_dwordWrite hup halign hoff b0 b1 b2 b3,
      exec_hostBarRequest_dwordRead hup halign hoff⟩,
    fun hup halign hoff => exec_hostBarRequest_partWrite hup halign hoff [b0, b1, b2, b3],
    fun hup hstore hin => exec_hostBarRequest_storeWrite hup hstore hin b0 b1 b2 b3,
    fun hup _ hbe => ⟨exec_hostBarRequest_storeRead hup hbe, exec_hostBarRequest_pastEnd hup hbe⟩,
    exec_hostBarRequest_down⟩

end Sys2Proof.Machine
end

section
/-! HOST's rings (R440 to R445, R447, R448). -/

namespace Sys2Proof.Machine

open Reg

variable {s : State} {by_ : Req} {r : BitVec 8} {val : Word} {len : BitVec 16} {buf : List Byte} {addr : BitVec 64} {n : BitVec 16}
variable {d : Nat} {rest : List Nat}

theorem exec_ringConfigWrite_eq (by_ : Req) (r : BitVec 8) (val : Word) (s : State) :
    exec (.ringConfigWrite by_ r val) s = execRingConfigWrite by_ r val s := rfl
theorem exec_ringTailWrite_eq (by_ : Req) (r : BitVec 8) (val : Word) (s : State) :
    exec (.ringTailWrite by_ r val) s = execRingTailWrite by_ r val s := rfl
theorem exec_coalTimer_eq (r : BitVec 8) (s : State) : exec (.coalTimer r) s = execCoalTimer r s := rfl
theorem exec_hostH2dFrame_eq (r : BitVec 8) (len : BitVec 16) (buf : List Byte) (s : State) :
    exec (.hostH2dFrame r len buf) s = execHostH2dFrame r len buf s := rfl
theorem exec_hostD2hRelease_eq (s : State) : exec .hostD2hRelease s = execHostD2hRelease s := rfl
theorem exec_hostD2hWriteback_eq (r : BitVec 8) (addr : BitVec 64) (n : BitVec 16) (s : State) :
    exec (.hostD2hWriteback r addr n) s = execHostD2hWriteback r addr n s := rfl
theorem exec_hostDmaError_eq (r : BitVec 8) (s : State) : exec (.hostDmaError r) s = execHostDmaError r s := rfl

/-! Configuration (R440). -/

/-- What a write stores in a ring's first word, before it clears STOPPED. -/
def ringWord (old val : Word) : Word :=
  if bit old 31 then (old &&& 0x700F0000) ||| (val &&& 0x8000FF00) else (old &&& 0x10000000) ||| (val &&& 0xE00FFF00)

theorem bit31_ringWord (old val : Word) : bit (ringWord old val) 31 = bit val 31 := by
  unfold ringWord
  split <;> simp [bit]

theorem State.ringConfig_on (s : State) (r : Nat) (h : bit val 31 = true) : s.ringConfig r val =
    (((s.wr (HOST.RING_W0 r) (ringWord (s.rd (HOST.RING_W0 r)) val)).wr (HOST.RING_W0 r)
      (putBit (ringWord (s.rd (HOST.RING_W0 r)) val) 28 false)).wr (HOST.RING_W3 r) 0).wr (HOST.RING_W4 r) 0 :=
  if_pos h
theorem State.ringConfig_off (s : State) (r : Nat) (h : bit val 31 = false) :
    s.ringConfig r val = s.wr (HOST.RING_W0 r) (ringWord (s.rd (HOST.RING_W0 r)) val) :=
  if_neg (by rw [h]; decide)

theorem exec_ringConfigWrite (ha : s.accepts by_ 16 = true) (r : BitVec 8) (val : Word) :
    exec (.ringConfigWrite by_ r val) s = .next (s.ringConfig r.toNat val) := by
  rw [exec_ringConfigWrite_eq, execRingConfigWrite, State.onWrite_accepts _ ha]
theorem exec_ringTailWrite (ha : s.accepts by_ 16 = true) (r : BitVec 8) (val : Word) :
    exec (.ringTailWrite by_ r val) s = .next (s.wr (HOST.RING_W3 r.toNat) (val &&& 0x7FFF)) := by
  rw [exec_ringTailWrite_eq, execRingTailWrite, State.onWrite_accepts _ ha]

/-- A ring enabled: EN set, STOPPED clear, both indices 0. -/
theorem State.rd_ringConfig_on (s : State) (r : Nat) (h : bit val 31 = true) : let u := s.ringConfig r val
    u.rbit (HOST.RING_W0 r) 31 = true ∧ u.rbit (HOST.RING_W0 r) 28 = false ∧ u.rd (HOST.RING_W3 r) = 0 ∧
      u.rd (HOST.RING_W4 r) = 0 := by
  have h03 : HOST.RING_W0 r ≠ HOST.RING_W3 r := reg_ne (by decide)
  have h04 : HOST.RING_W0 r ≠ HOST.RING_W4 r := reg_ne (by decide)
  have h34 : HOST.RING_W3 r ≠ HOST.RING_W4 r := reg_ne (by decide)
  rw [s.ringConfig_on r h]
  refine ⟨?_, ?_, ?_, State.rd_wr_self ..⟩
  · rw [State.rbit, State.rd_wr_ne _ _ h04, State.rd_wr_ne _ _ h03, State.rd_wr_self, putBit,
      bit_putFld_above _ _ (by decide) (by decide), bit31_ringWord, h]
  · rw [State.rbit, State.rd_wr_ne _ _ h04, State.rd_wr_ne _ _ h03, State.rd_wr_self, bit_putBit_self _ _ (by decide)]
  · rw [State.rd_wr_ne _ _ h34, State.rd_wr_self]

/-- A ring disabled: EN clear, and no other word changed. -/
theorem State.rd_ringConfig_off (s : State) (r : Nat) (h : bit val 31 = false) : let u := s.ringConfig r val
    u.rbit (HOST.RING_W0 r) 31 = false ∧ ∀ a, a ≠ HOST.RING_W0 r → u.rd a = s.rd a := by
  rw [s.ringConfig_off r h]
  refine ⟨?_, fun a ha => State.rd_wr_ne _ _ ha⟩
  rw [State.rbit, State.rd_wr_self, bit31_ringWord, h]

/-! The timer of the messages (R444). -/

theorem exec_coalTimer_due (hus : s.rf (HOST.RING_W5 r.toNat) 31 16 ≠ 0) (hat : tget (fun _ => 0) s.hostU.coalAt r.toNat ≠ 0)
    (hdue : tget (fun _ => 0) s.hostU.coalAt r.toNat + 500 * s.rf (HOST.RING_W5 r.toNat) 31 16 ≤ s.clock + 1) :
    exec (.coalTimer r) s = .next (s.ringMsg r.toNat) := by
  rw [exec_coalTimer_eq, execCoalTimer]
  exact congrArg _ (if_neg (by simp [hus, hat, hdue]))

/-! Frames of the host (R441, R443). -/

/-- The entry's frame as read: LEN bytes of its buffer. -/
def h2dRaw (len : BitVec 16) (buf : List Byte) : List Byte := (List.range len.toNat).map fun j => buf.getD j 0
/-- The frame without the check that the ring's data may carry. -/
def State.h2dData (s : State) (i : Nat) (len : BitVec 16) (buf : List Byte) : List Byte :=
  if s.ringCrc i then (h2dRaw len buf).take (len.toNat - 4) else h2dRaw len buf
/-- The check holds, or the ring's data carries none. -/
def State.h2dGood (s : State) (i : Nat) (len : BitVec 16) (buf : List Byte) : Prop :=
  s.ringCrc i = false ∨ (h2dRaw len buf).drop (len.toNat - 4) = ringSum (s.ringHead i) i (s.h2dData i len buf)
/-- An entry of the host completes with a code. -/
def State.h2dDone (s : State) (i code : Nat) : State :=
  s.entryDone i 12 [2 ^ 31 + code * 2 ^ 28, s.ns % 2 ^ 32, 0, 0, 0] (code = 0)

theorem h2dLength_good (hlen : len ≠ 0) (hcrc : s.ringCrc r.toNat = true → 4 < len.toNat) :
    ¬ (len.toNat = 0 || (s.ringCrc r.toNat && len.toNat ≤ 4)) = true := by
  have hne : len.toNat ≠ 0 := fun h0 => hlen (BitVec.eq_of_toNat_eq h0)
  cases hc : s.ringCrc r.toNat
  · simp [hne]
  · have := hcrc hc
    simp
    omega

section H2d
variable (hserved : s.ringServed r.toNat = true) (hready : s.life 16 = .ready) (hdir : s.ringD2h r.toNat = false)
  (hentry : s.ringEmpty r.toNat = false) (hin : (s.clsIn.any fun f => f.ingress = 7) = false) (hroom : (s.clsQueue 7).length < 64)
include hserved hready hdir hentry hin hroom

theorem execHostH2dFrame_open : execHostH2dFrame r len buf s = .next (
    if len.toNat = 0 || (s.ringCrc r.toNat && len.toNat ≤ 4) then s.h2dDone r.toNat 5
    else
      let w := s.rxStore 13 (s.h2dData r.toNat len buf) 0 s.ns
      match w.2 with
      | none => (w.1.sat HOST.HOST_CNT0 15 8 1).h2dDone r.toNat 1
      | some d =>
        if s.ringCrc r.toNat && (h2dRaw len buf).drop (len.toNat - 4) != ringSum (s.ringHead r.toNat) r.toNat (s.h2dData r.toNat len buf)
        then ((w.1.freeDesc 13 d).sat HOST.HOST_CNT0 7 0 1).h2dDone r.toNat 2
        else (({ w.1 with clsIn := w.1.clsIn ++ [{ ingress := 7, desc := d, srcid := r.toNat }] } : State).clsAccept 7).h2dDone
          r.toNat 0) :=
  congrArg _ (if_neg (by simp [hserved, hready, hdir, hentry, hin, hroom]))

theorem exec_hostH2dFrame_badLength (h : len = 0 ∨ (s.ringCrc r.toNat = true ∧ len.toNat ≤ 4)) :
    exec (.hostH2dFrame r len buf) s = .next (s.h2dDone r.toNat 5) := by
  rw [exec_hostH2dFrame_eq, execHostH2dFrame_open hserved hready hdir hentry hin hroom]
  exact congrArg _ (if_pos (by rcases h with rfl | ⟨hc, hl⟩ <;> simp [*]))

section Length
variable (hlen : len ≠ 0) (hcrc : s.ringCrc r.toNat = true → 4 < len.toNat)
include hlen hcrc

theorem exec_hostH2dFrame_noStore (hnone : (s.rxStore 13 (s.h2dData r.toNat len buf) 0 s.ns).2 = none) :
    exec (.hostH2dFrame r len buf) s =
      .next (((s.rxStore 13 (s.h2dData r.toNat len buf) 0 s.ns).1.sat HOST.HOST_CNT0 15 8 1).h2dDone r.toNat 1) := by
  rw [exec_hostH2dFrame_eq, execHostH2dFrame_open hserved hready hdir hentry hin hroom, if_neg (h2dLength_good hlen hcrc)]
  simp only [hnone]

theorem exec_hostH2dFrame_badCheck (hd : (s.rxStore 13 (s.h2dData r.toNat len buf) 0 s.ns).2 = some d)
    (hbad : ¬ s.h2dGood r.toNat len buf) : exec (.hostH2dFrame r len buf) s =
      .next ((((s.rxStore 13 (s.h2dData r.toNat len buf) 0 s.ns).1.freeDesc 13 d).sat HOST.HOST_CNT0 7 0 1).h2dDone r.toNat 2) := by
  rw [exec_hostH2dFrame_eq, execHostH2dFrame_open hserved hready hdir hentry hin hroom, if_neg (h2dLength_good hlen hcrc)]
  simp only [hd]
  exact congrArg _ (if_pos (by simpa [State.h2dGood, not_or] using hbad))

theorem exec_hostH2dFrame_enters (hd : (s.rxStore 13 (s.h2dData r.toNat len buf) 0 s.ns).2 = some d)
    (hgood : s.h2dGood r.toNat len buf) : exec (.hostH2dFrame r len buf) s =
      .next ((({ (s.rxStore 13 (s.h2dData r.toNat len buf) 0 s.ns).1 with
        clsIn := (s.rxStore 13 (s.h2dData r.toNat len buf) 0 s.ns).1.clsIn ++ [{ ingress := 7, desc := d, srcid := r.toNat }]
        } : State).clsAccept 7).h2dDone r.toNat 0) := by
  rw [exec_hostH2dFrame_eq, execHostH2dFrame_open hserved hready hdir hentry hin hroom, if_neg (h2dLength_good hlen hcrc)]
  simp only [hd]
  exact congrArg _ (if_neg (by rcases hgood with h | h <;> simp [h]))

end Length
end H2d

/-! Frames for the host (R442, R447, R448). -/

section Release
variable {q : Nat} {s : State} {rest : List (Nat × Nat)} (hq : s.hostIn = (q, d) :: rest) (hdrain : s.life 16 ≠ .draining)
include hq hdrain

theorem execHostD2hRelease_open : execHostD2hRelease s = .next (
    let s1 : State := { s with hostIn := rest }
    if !s.ringServed q || !s.ringD2h q then s1.goneDrop d
    else if 64 ≤ (s.d2hQueue q).length then (s1.sat HOST.HOST_CNT1 31 16 1).freeDesc 13 d
    else s1.setD2h q (s.d2hQueue q ++ [d])) := by
  rw [execHostD2hRelease, hq]
  exact congrArg _ (if_neg hdrain)

theorem exec_hostD2hRelease_waits (hserved : s.ringServed q = true) (hdir : s.ringD2h q = true)
    (hroom : (s.d2hQueue q).length < 64) : exec .hostD2hRelease s =
      .next (({ s with hostIn := rest } : State).setD2h q (s.d2hQueue q ++ [d])) := by
  rw [exec_hostD2hRelease_eq, execHostD2hRelease_open hq hdrain]
  exact congrArg _ ((if_neg (by simp [hserved, hdir])).trans (if_neg (by omega)))
theorem exec_hostD2hRelease_full (hserved : s.ringServed q = true) (hdir : s.ringD2h q = true)
    (hfull : 64 ≤ (s.d2hQueue q).length) : exec .hostD2hRelease s =
      .next ((({ s with hostIn := rest } : State).sat HOST.HOST_CNT1 31 16 1).freeDesc 13 d) := by
  rw [exec_hostD2hRelease_eq, execHostD2hRelease_open hq hdrain]
  exact congrArg _ ((if_neg (by simp [hserved, hdir])).trans (if_pos hfull))
theorem exec_hostD2hRelease_gone (h : s.ringServed q = false ∨ s.ringD2h q = false) : exec .hostD2hRelease s =
      .next (({ s with hostIn := rest } : State).goneDrop d) := by
  rw [exec_hostD2hRelease_eq, execHostD2hRelease_open hq hdrain]
  exact congrArg _ (if_pos (by rcases h with h | h <;> simp [h]))

end Release

/-- The frame as written to the host: with its check where the ring's data carries one. -/
def State.d2hOut (s : State) (i d : Nat) : List Byte :=
  if s.ringCrc i then s.dData d ++ ringSum (s.ringHead i) i (s.dData d) else s.dData d
/-- The entry of a frame for the host completes with a code and a length, and the frame is freed. -/
def State.d2hDone (s : State) (i d n code length : Nat) : State :=
  (s.entryDone i 8 [n * 2 ^ 16 + length, 2 ^ 31 + code * 2 ^ 28, s.dw d 4, s.dw d 3, nbits (s.dw d 1) 19 15, 0] (code = 0)).freeDesc
    13 d

section Writeback
variable (hq : s.d2hQueue r.toNat = d :: rest) (hserved : s.ringServed r.toNat = true) (hdir : s.ringD2h r.toNat = true)
  (hentry : s.ringEmpty r.toNat = false)
include hq hserved hdir hentry

theorem execHostD2hWriteback_open (addr : BitVec 64) (n : BitVec 16) : execHostD2hWriteback r addr n s = .next (
    let s1 := s.setD2h r.toNat rest
    if n.toNat < 64 then s1.d2hDone r.toNat d n.toNat 5 0
    else
      let rd := s1.hostRead d
      if !rd.2 then (if s.storeUp then rd.1.recordErr 16 0x80 noUnit 0 d false else rd.1).d2hDone r.toNat d n.toNat 4 0
      else
        if n.toNat < (s.d2hOut r.toNat d).length then (rd.1.sat HOST.HOST_CNT1 15 8 1).d2hDone r.toNat d n.toNat 3 0
        else (rd.1.hostWrite addr.toNat (s.d2hOut r.toNat d)).d2hDone r.toNat d n.toNat 0 (s.d2hOut r.toNat d).length) := by
  rw [execHostD2hWriteback]
  dsimp only
  rw [hq]
  exact congrArg _ (if_neg (by simp [hserved, hdir, hentry]))

theorem exec_hostD2hWriteback_small (hn : n.toNat < 64) : exec (.hostD2hWriteback r addr n) s =
    .next ((s.setD2h r.toNat rest).d2hDone r.toNat d n.toNat 5 0) := by
  rw [exec_hostD2hWriteback_eq, execHostD2hWriteback_open hq hserved hdir hentry]
  exact congrArg _ (if_pos hn)

section Read
variable (hn : 64 ≤ n.toNat)
include hn

theorem exec_hostD2hWriteback_readFails (hrd : ((s.setD2h r.toNat rest).hostRead d).2 = false) :
    exec (.hostD2hWriteback r addr n) s = .next ((if s.storeUp then
      ((s.setD2h r.toNat rest).hostRead d).1.recordErr 16 0x80 noUnit 0 d false else ((s.setD2h r.toNat rest).hostRead d).1).d2hDone
        r.toNat d n.toNat 4 0) := by
  rw [exec_hostD2hWriteback_eq, execHostD2hWriteback_open hq hserved hdir hentry]
  exact congrArg _ ((if_neg (by omega)).trans (if_pos (by simp [hrd])))
theorem exec_hostD2hWriteback_tooBig (hrd : ((s.setD2h r.toNat rest).hostRead d).2 = true)
    (hbig : n.toNat < (s.d2hOut r.toNat d).length) : exec (.hostD2hWriteback r addr n) s =
      .next ((((s.setD2h r.toNat rest).hostRead d).1.sat HOST.HOST_CNT1 15 8 1).d2hDone r.toNat d n.toNat 3 0) := by
  rw [exec_hostD2hWriteback_eq, execHostD2hWriteback_open hq hserved hdir hentry]
  exact congrArg _ ((if_neg (by omega)).trans ((if_neg (by simp [hrd])).trans (if_pos hbig)))
theorem exec_hostD2hWriteback_written (hrd : ((s.setD2h r.toNat rest).hostRead d).2 = true)
    (hfits : (s.d2hOut r.toNat d).length ≤ n.toNat) : exec (.hostD2hWriteback r addr n) s =
      .next ((((s.setD2h r.toNat rest).hostRead d).1.hostWrite addr.toNat (s.d2hOut r.toNat d)).d2hDone r.toNat d n.toNat 0
        (s.d2hOut r.toNat d).length) := by
  rw [exec_hostD2hWriteback_eq, execHostD2hWriteback_open hq hserved hdir hentry]
  exact congrArg _ ((if_neg (by omega)).trans ((if_neg (by simp [hrd])).trans (if_neg (by omega))))

end Read
end Writeback

/-! An error of the DMA (R445). -/

/-- The ring stops: STOPPED in its word, the error recorded, and its event. -/
def State.ringStopped (s : State) (i : Nat) : State :=
  (((s.wf (HOST.RING_W0 i) 31 31 0).wf (HOST.RING_W0 i) 28 28 1).recordErr 16 0x81 i 0 0 false).evt 16 20

theorem State.d2hQueue_ringStopped (s : State) (i : Nat) : (s.ringStopped i).d2hQueue i = s.d2hQueue i := by
  rw [State.d2hQueue, State.ringStopped, hidden_hostU.evt, hidden_hostU.recordErr, hidden_hostU.wf, hidden_hostU.wf, State.d2hQueue]

section DmaError
variable (hserved : s.ringServed r.toNat = true)
include hserved

theorem execHostDmaError_open : execHostDmaError r s = .next (
    match s.ringD2h r.toNat, s.d2hQueue r.toNat with
    | true, d :: rest => ((s.ringStopped r.toNat).setD2h r.toNat rest).freeDesc 13 d
    | _, _ => s.ringStopped r.toNat) := by
  rw [← State.d2hQueue_ringStopped]
  exact congrArg _ (if_neg (by simp [hserved]))

theorem exec_hostDmaError_idle (h : s.ringD2h r.toNat = false ∨ s.d2hQueue r.toNat = []) :
    exec (.hostDmaError r) s = .next (s.ringStopped r.toNat) := by
  rw [exec_hostDmaError_eq, execHostDmaError_open hserved]
  rcases h with h | h
  · rw [h]
  · rw [h]
    cases s.ringD2h r.toNat <;> rfl
theorem exec_hostDmaError_frame (hdir : s.ringD2h r.toNat = true) (hq : s.d2hQueue r.toNat = d :: rest) :
    exec (.hostDmaError r) s = .next (((s.ringStopped r.toNat).setD2h r.toNat rest).freeDesc 13 d) := by
  rw [exec_hostDmaError_eq, execHostDmaError_open hserved, hdir, hq]

end DmaError

/-- Settles O55: a ring's write by EN, a frame either way by the first of its conditions that fails, an error by the frame in progress. -/
theorem ringsMoveFrames : Obligations.RingsMoveFrames := by
  refine fun by_ r val len buf addr s => ⟨fun ha => ⟨fun h => ⟨_, exec_ringConfigWrite ha r val, s.rd_ringConfig_on r.toNat h⟩,
      fun h => ⟨_, exec_ringConfigWrite ha r val, s.rd_ringConfig_off r.toNat h⟩, exec_ringTailWrite ha r val⟩,
    exec_coalTimer_due,
    fun hserved hready hdir hentry hin hroom => ⟨exec_hostH2dFrame_badLength hserved hready hdir hentry hin hroom, fun hlen hcrc =>
      ⟨exec_hostH2dFrame_noStore hserved hready hdir hentry hin hroom hlen hcrc,
        fun d => exec_hostH2dFrame_badCheck hserved hready hdir hentry hin hroom hlen hcrc,
        fun d => exec_hostH2dFrame_enters hserved hready hdir hentry hin hroom hlen hcrc⟩⟩,
    fun q d rest hq hdrain => ⟨exec_hostD2hRelease_waits hq hdrain, exec_hostD2hRelease_full hq hdrain,
      exec_hostD2hRelease_gone hq hdrain⟩,
    fun d rest hq hserved hdir hentry n => ⟨exec_hostD2hWriteback_small hq hserved hdir hentry,
      exec_hostD2hWriteback_readFails hq hserved hdir hentry, exec_hostD2hWriteback_tooBig hq hserved hdir hentry,
      exec_hostD2hWriteback_written hq hserved hdir hentry⟩,
    fun hserved => ⟨exec_hostDmaError_idle hserved, fun d rest => exec_hostDmaError_frame hserved⟩⟩

end Sys2Proof.Machine
end

section
/-! The host link, the function and the mailboxes (R435, R437, R446, R447, R449). -/

namespace Sys2Proof.Machine

open Reg

variable {s : State} {by_ : Req} {k : Fin 8} {op : BitVec 16} {code : BitVec 8} {tag : Tag}

theorem exec_pcieLinkUp_eq (speed : Fin 4) (width : BitVec 4) (s : State) :
    exec (.pcieLinkUp speed width) s = execPcieLinkUp speed width s := rfl
theorem exec_pcieLinkDown_eq (s : State) : exec .pcieLinkDown s = .next s.linkDown := rfl
theorem exec_hostFunctionChange_eq (bme en d3 flr : Bool) (s : State) :
    exec (.hostFunctionChange bme en d3 flr) s = execHostFunctionChange bme en d3 flr s := rfl
theorem exec_pcieConfigRequest_eq (cfg : HostCfg) (s : State) : exec (.pcieConfigRequest cfg) s = execPcieConfigRequest cfg s := rfl
theorem exec_mbxCmd_eq (by_ : Req) (k : Fin 8) (op : BitVec 16) (tag : Tag) (s : State) :
    exec (.mbxCmd by_ k op tag) s = execMbxCmd by_ k op tag s := rfl
theorem exec_mbxPost_eq (by_ : Req) (k : Fin 8) (code : BitVec 8) (tag : Tag) (s : State) :
    exec (.mbxPost by_ k code tag) s = execMbxPost by_ k code tag s := rfl
theorem exec_mbxAck_eq (by_ : Req) (k : Fin 8) (tag : Tag) (s : State) :
    exec (.mbxAck by_ k tag) s = execMbxAck by_ k tag s := rfl

/-! The link and the function. -/

/-- The link is up with speed and width `v`, and its event pends. -/
def State.linkTrained (s : State) (v : Nat) : State :=
  ((s.wf HOST.HOST_STATUS 31 31 1).wf HOST.HOST_STATUS 23 16 v).evt 16 16

theorem State.rd_linkTrained_self (s : State) (v : Nat) :
    (s.linkTrained v).rd HOST.HOST_STATUS = putFld (putFld (s.rd HOST.HOST_STATUS) 31 31 1) 23 16 v := by
  rw [State.linkTrained, State.rd_evt, State.rd_wf_self, State.rd_wf_self]
theorem State.rd_linkTrained_ne (s : State) (v : Nat) {a : RegId} (h : a ≠ HOST.HOST_STATUS) :
    (s.linkTrained v).rd a = s.rd a := by
  rw [State.linkTrained, State.rd_evt, State.rd_wf_ne _ _ _ _ h, State.rd_wf_ne _ _ _ _ h]
theorem State.rbit_linkTrained (s : State) (v : Nat) : (s.linkTrained v).rbit HOST.HOST_STATUS 31 = true := by
  rw [State.rbit, State.rd_linkTrained_self, bit_putFld_above _ _ (by decide) (by decide)]
  exact bit_putBit_self _ true (by decide)
theorem State.rf_linkTrained (s : State) {v : Nat} (hv : v < 256) : (s.linkTrained v).rf HOST.HOST_STATUS 23 16 = v := by
  rw [State.rf, State.rd_linkTrained_self, fld_putFld_self _ _ (by decide) (by decide)]
  exact Nat.mod_eq_of_lt hv

theorem exec_pcieLinkUp_trains {speed : Fin 4} {width : BitVec 4} (hdown : s.rbit HOST.HOST_STATUS 31 = false)
    (hperst : s.hostU.perst = true) (hoff : s.life 16 ≠ .off) (hreset : s.life 16 ≠ .reset) (htest : s.life 16 ≠ .selftest)
    (hw : width.toNat = 1 ∨ width.toNat = 2 ∨ width.toNat = 4) :
    exec (.pcieLinkUp speed width) s = .next (s.linkTrained ((speed.val + 1) * 16 + width.toNat)) := by
  have hwidth : (if width.toNat = 1 || width.toNat = 2 then width.toNat else 4) = width.toNat := by
    rcases hw with h | h | h <;> simp [h]
  rw [exec_pcieLinkUp_eq, execPcieLinkUp, hwidth]
  exact congrArg _ (if_neg (by simp [hdown, hperst, hoff, hreset, htest]))

theorem exec_pcieLinkDown_up (hup : s.rbit HOST.HOST_STATUS 31 = true) : exec .pcieLinkDown s =
    .next (((((s.wf HOST.HOST_STATUS 31 31 0).wf HOST.HOST_STATUS 23 16 0).evt 16 17).quiesce).configReset) := by
  rw [exec_pcieLinkDown_eq, State.linkDown]
  exact congrArg _ (if_neg (by simp [hup]))
theorem exec_pcieLinkDown_down (hdown : s.rbit HOST.HOST_STATUS 31 = false) : exec .pcieLinkDown s = .next s := by
  rw [exec_pcieLinkDown_eq, State.linkDown]
  exact congrArg _ (if_pos (by simp [hdown]))

section Up
variable (hup : s.rbit HOST.HOST_STATUS 31 = true) (hact : s.active 16 = true)
include hup hact

theorem exec_hostFunctionChange_up (bme en d3 flr : Bool) : exec (.hostFunctionChange bme en d3 flr) s =
    .next (if flr then s.quiesce.configReset else s.setFunction bme en d3) := by
  rw [exec_hostFunctionChange_eq, execHostFunctionChange]
  exact congrArg _ (if_neg (by simp [hup, hact]))

theorem exec_pcieConfigRequest_barSize {n : Fin 64} (hlo : 28 ≤ n.val) (hhi : n.val ≤ 33) :
    exec (.pcieConfigRequest (.barSize n)) s = .next (s.modHost fun x => { x with barLog := n.val }) := by
  rw [exec_pcieConfigRequest_eq, execPcieConfigRequest]
  exact congrArg _ ((if_neg (by simp [hup, hact])).trans (if_pos (by simp [hlo, hhi])))
theorem exec_pcieConfigRequest_functionMask (on : Bool) :
    exec (.pcieConfigRequest (.functionMask on)) s = .next (({ s with msixFuncMask := on } : State).msixFlush) := by
  rw [exec_pcieConfigRequest_eq, execPcieConfigRequest]
  exact congrArg _ (if_neg (by simp [hup, hact]))
theorem exec_pcieConfigRequest_other : exec (.pcieConfigRequest .other) s = .next s := by
  rw [exec_pcieConfigRequest_eq, execPcieConfigRequest]
  exact congrArg _ (if_neg (by simp [hup, hact]))

end Up

/-! Mailboxes. -/

/-- A command word with its tag: what MBX_W4 stores of it is all of it. -/
theorem mbxWord_and_mask (op : BitVec 16) (tag : Tag) :
    wd (op.toNat * 2 ^ 16 + tag.toNat) &&& 0xFFFF00FF = wd (op.toNat * 2 ^ 16 + tag.toNat) := by
  have hmask : (0xFFFF00FF : Word) = ~~~wd ((2 ^ 8 - 1) * 2 ^ 8) := by decide
  refine BitVec.eq_of_getLsbD_eq fun i hi => ?_
  rw [hmask, BitVec.getLsbD_and, BitVec.getLsbD_not, wd, wd, BitVec.getLsbD_ofNat, BitVec.getLsbD_ofNat, Nat.testBit_mul_two_pow,
    Nat.testBit_two_pow_sub_one]
  by_cases hin : 8 ≤ i ∧ i - 8 < 8
  · have hbyte : (op.toNat * 2 ^ 16 + tag.toNat) / 2 ^ 8 = op.toNat * 2 ^ 8 := by
      have htag := tag.isLt
      omega
    have hzero : (op.toNat * 2 ^ 16 + tag.toNat).testBit i = false := by
      rw [← Nat.sub_add_cancel hin.1, ← Nat.testBit_div_two_pow, hbyte, Nat.testBit_mul_two_pow,
        decide_eq_false (Nat.not_le.mpr hin.2), Bool.false_and]
    rw [hzero, Bool.and_false, Bool.false_and]
  · simp only [hi]
    grind
theorem mbxWord_tag (op : BitVec 16) (tag : Tag) : fld (wd (op.toNat * 2 ^ 16 + tag.toNat)) 7 0 = tag.toNat := by
  have hop := op.isLt
  have htag := tag.isLt
  rw [fld_wd (by omega)]
  omega

/-- A mailbox takes the command: BUSY with its tag, the command word, and the event. -/
def State.mbxTaken (s : State) (k : Nat) (op : BitVec 16) (tag : Tag) : State :=
  ((s.pathBusy (HOST.MBX_W5 k) 0 tag).wr (HOST.MBX_W4 k) (wd (op.toNat * 2 ^ 16 + tag.toNat))).evt 16 18

section Accepted
variable (ha : s.accepts by_ 16 = true)
include ha

theorem exec_mbxCmd_takes (hfree : s.pathFree (HOST.MBX_W5 k.val) = true) :
    exec (.mbxCmd by_ k op tag) s = .next (s.mbxTaken k.val op tag) := by
  rw [exec_mbxCmd_eq, execMbxCmd, State.onWrite_accepts _ ha, State.mbxCmd, mbxWord_tag, mbxWord_and_mask,
    BitVec.ofNat_toNat, BitVec.setWidth_eq]
  exact congrArg _ (if_neg (by simp [hfree]))
theorem exec_mbxCmd_drops (hfree : s.pathFree (HOST.MBX_W5 k.val) = false) :
    exec (.mbxCmd by_ k op tag) s = .next (s.sat HOST.HOST_CNT1 7 0 1) := by
  rw [exec_mbxCmd_eq, execMbxCmd, State.onWrite_accepts _ ha, State.mbxCmd]
  exact congrArg _ (if_pos (by simp [hfree]))

theorem exec_mbxPost_answers (hm : reqMgmt by_ = true) (hbusy : s.rbit (HOST.MBX_W5 k.val) 30 = true)
    (htag : s.rf (HOST.MBX_W5 k.val) 7 0 = tag.toNat) : exec (.mbxPost by_ k code tag) s =
      .next ((s.pathPost (HOST.MBX_W5 k.val) 0 tag (code.toNat * 2 ^ 16)).evt 16 19) := by
  rw [exec_mbxPost_eq, execMbxPost, State.onWrite_accepts _ ha, State.mbxPost, BitVec.ofNat_toNat, BitVec.setWidth_eq]
  exact congrArg _ (if_pos (by simp [hm, hbusy, htag]))
theorem exec_mbxPost_elsewhere (hm : reqMgmt by_ = false) : exec (.mbxPost by_ k code tag) s = .next s := by
  rw [exec_mbxPost_eq, execMbxPost, State.onWrite_accepts _ ha, State.mbxPost]
  exact congrArg _ (if_neg (by simp [hm]))

theorem exec_mbxAck (k : Fin 8) (tag : Tag) : exec (.mbxAck by_ k tag) s = .next (s.pathAck (HOST.MBX_W5 k.val) 0 tag) := by
  rw [exec_mbxAck_eq, execMbxAck, State.onWrite_accepts _ ha]

end Accepted

theorem State.rd_mbxTaken (s : State) (k : Nat) (op : BitVec 16) (tag : Tag) :
    (s.mbxTaken k op tag).rd (HOST.MBX_W5 k) = wd (2 ^ 30 + tag.toNat) ∧
    (s.mbxTaken k op tag).rd (HOST.MBX_W4 k) = wd (op.toNat * 2 ^ 16 + tag.toNat) := by
  have hne : HOST.MBX_W5 k ≠ HOST.MBX_W4 k := reg_ne (by decide)
  refine ⟨?_, ?_⟩
  · rw [State.mbxTaken, State.rd_evt, State.rd_wr_ne _ _ hne, State.rd_pathBusy, Nat.pow_zero, Nat.mul_one]
  · rw [State.mbxTaken, State.rd_evt, State.rd_wr_self]

/-- Settles O56: link and function by the host's presence, a mailbox by its result word and its writer. -/
theorem hostLinkAndMailboxes : Obligations.HostLinkAndMailboxes := by
  refine fun by_ k op code tag speed width s => ⟨fun hdown hperst hoff hreset htest hw =>
      ⟨_, exec_pcieLinkUp_trains hdown hperst hoff hreset htest hw, State.rbit_linkTrained .., State.rf_linkTrained _ ?_,
        State.evtPend_evt _ _ (by decide), fun a ha => State.rd_linkTrained_ne _ _ ha⟩,
    exec_pcieLinkDown_up, exec_pcieLinkDown_down,
    fun ⟨hup, hact⟩ bme en d3 => ⟨exec_hostFunctionChange_up hup hact .., exec_hostFunctionChange_up hup hact ..⟩,
    fun ⟨hup, hact⟩ => ⟨fun n => exec_pcieConfigRequest_barSize hup hact, exec_pcieConfigRequest_functionMask hup hact,
      exec_pcieConfigRequest_other hup hact⟩,
    fun ha hfree => ⟨_, exec_mbxCmd_takes ha hfree, (s.rd_mbxTaken k.val op tag).1, (s.rd_mbxTaken k.val op tag).2,
      State.evtPend_evt _ _ (by decide)⟩,
    exec_mbxCmd_drops, exec_mbxPost_answers, exec_mbxPost_elsewhere, fun ha => exec_mbxAck ha k tag⟩
  have hspeed := speed.isLt
  have hwidth := width.isLt
  omega

end Sys2Proof.Machine
end

section
/-! The maintenance arbiter and its commands (R468 to R471), and the watchdogs (R467). -/

namespace Sys2Proof.Machine

open Reg

theorem hidden_tokens : Hidden (fun u => (u.tokens, u.tokenReqs)) := by constructor <;> intros <;> rfl

/-! What conflicts with what (R468, R469). -/

theorem scopesMeet_comm (a b : Nat) : scopesMeet a b = scopesMeet b a := by
  unfold scopesMeet
  rw [decide_eq_decide.mpr (eq_comm (a := a)), Bool.or_assoc, Bool.or_assoc]
  exact congrArg _ (Bool.or_comm ..)
theorem tokensMeet_comm (p q : Token) : tokensMeet p q = tokensMeet q p := by
  rw [tokensMeet, scopesMeet_comm, Bool.and_comm, tokensMeet]

/-- The compatibility matrix is symmetric among its kinds. -/
theorem compatible_comm_of_lt : ∀ a < 9, ∀ b < 9, compatible a b = compatible b a := by decide
/-- A kind that the matrix does not name is compatible with none. -/
theorem compatible_ge_left {a : Nat} (h : 9 ≤ a) (b : Nat) : compatible a b = false := by
  rw [compatible, List.getElem?_eq_none h]
  rfl
theorem compatible_ge_right (a : Nat) {b : Nat} (h : 9 ≤ b) : compatible a b = false := by
  by_contra htrue
  have hmem : b ∈ (compatRow[a]?).getD [] := List.contains_iff_mem.mp (Bool.not_eq_false _ ▸ htrue)
  have hrows : ∀ row ∈ compatRow, ∀ k ∈ row, k < 9 := by decide
  cases hrow : compatRow[a]? with
  | none =>
    rw [hrow] at hmem
    exact List.not_mem_nil hmem
  | some row =>
    rw [hrow] at hmem
    exact absurd (hrows row (List.mem_of_getElem? hrow) b hmem) (Nat.not_lt.mpr h)
theorem compatible_comm (a b : Nat) : compatible a b = compatible b a := by
  rcases Nat.lt_or_ge a 9 with ha | ha
  · rcases Nat.lt_or_ge b 9 with hb | hb
    · exact compatible_comm_of_lt a ha b hb
    · rw [compatible_ge_right a hb, compatible_ge_left hb a]
  · rw [compatible_ge_left ha b, compatible_ge_right b ha]
theorem conflicts_comm (p q : Token) : conflicts p q = conflicts q p := by
  rw [conflicts, tokensMeet_comm, compatible_comm, conflicts]

/-! A pass of the arbiter (R470). -/

theorem kindClass_le (k : Nat) : kindClass k ≤ 2 := by
  unfold kindClass
  split_ifs <;> decide
theorem tokenRank_le (q : Token) : tokenRank q ≤ 5 := by
  have hclass := kindClass_le q.kind
  unfold tokenRank
  split <;> omega
theorem mem_tokenOrder (q : Token) (l : List Token) : q ∈ tokenOrder l ↔ q ∈ l := by
  have hrank : tokenRank q ∈ [0, 1, 2, 3, 4, 5] := by
    have hle := tokenRank_le q
    generalize tokenRank q = r at hle
    interval_cases r <;> decide
  rw [tokenOrder, List.mem_flatMap]
  constructor
  · rintro ⟨k, -, hk⟩
    exact (List.mem_filter.mp hk).1
  · exact fun hq => ⟨_, hrank, List.mem_filter.mpr ⟨hq, decide_eq_true rfl⟩⟩

variable {held before l : List Token} {p q : Token}

/-- What is granted conflicts with nothing held and nothing that came before it. -/
theorem grantPass_no_conflict (h : q ∈ grantPass held before l) (hp : p ∈ held ++ before) : conflicts q p = false := by
  induction l generalizing before with
  | nil => exact absurd h List.not_mem_nil
  | cons r l ih =>
    have hlater : p ∈ held ++ (before ++ [r]) := by
      rw [← List.append_assoc]
      exact List.mem_append_left _ hp
    rw [grantPass] at h
    split at h
    · exact ih h hlater
    · next hfree =>
      rcases List.mem_cons.mp h with rfl | h
      · rw [Bool.not_eq_true, List.any_eq_false] at hfree
        exact Bool.not_eq_true _ ▸ hfree p hp
      · exact ih h hlater

/-- What a pass grants is without conflict. -/
theorem pairwise_grantPass (held before l : List Token) :
    (grantPass held before l).Pairwise fun p q => conflicts p q = false := by
  induction l generalizing before with
  | nil => exact List.Pairwise.nil
  | cons r l ih =>
    rw [grantPass]
    split
    · exact ih _
    · refine List.pairwise_cons.mpr ⟨fun q hq => ?_, ih _⟩
      rw [conflicts_comm]
      exact grantPass_no_conflict hq (List.mem_append_right _ (List.mem_append_right _ (List.mem_singleton_self r)))

/-- A request that conflicts with nothing is granted. -/
theorem mem_grantPass (hq : q ∈ l) (hfree : ∀ p, p ∈ held ++ before ++ l → conflicts q p = false) :
    q ∈ grantPass held before l := by
  induction l generalizing before with
  | nil => exact absurd hq List.not_mem_nil
  | cons r l ih =>
    have hrest (hl : q ∈ l) : q ∈ grantPass held (before ++ [r]) l :=
      ih hl fun p hp => hfree p (by simpa using hp)
    rw [grantPass]
    split
    · next hconf =>
      rcases List.mem_cons.mp hq with rfl | hl
      · obtain ⟨p, hp, hpq⟩ := List.any_eq_true.mp hconf
        exact absurd hpq (by rw [hfree p (List.mem_append_left _ hp)]; decide)
      · exact hrest hl
    · rcases List.mem_cons.mp hq with rfl | hl
      · exact List.mem_cons_self ..
      · exact List.mem_cons_of_mem _ (hrest hl)

/-- The tokens that a pass grants. -/
def State.granted (s : State) : List Token := grantPass s.tokens [] (tokenOrder s.tokenReqs)

theorem State.tokenLists_showGrant (s : State) (q : Token) :
    ((s.showGrant q).tokens, (s.showGrant q).tokenReqs) = (s.tokens, s.tokenReqs) := by
  unfold State.showGrant
  split
  · rw [hidden_tokens.evt, State.pathPost, hidden_tokens.wr]
  · rfl
theorem State.tokenLists_arbitrate (s : State) : (s.arbitrate.tokens, s.arbitrate.tokenReqs) =
    (s.tokens ++ s.granted, s.tokenReqs.filter fun q => !s.granted.contains q) :=
  State.foldl_frame (fun u => (u.tokens, u.tokenReqs)) (fun u q => u.tokenLists_showGrant q) ..
theorem State.tokens_arbitrate (s : State) : s.arbitrate.tokens = s.tokens ++ s.granted := congrArg Prod.fst s.tokenLists_arbitrate
theorem State.tokenReqs_arbitrate (s : State) :
    s.arbitrate.tokenReqs = s.tokenReqs.filter fun q => !s.granted.contains q := congrArg Prod.snd s.tokenLists_arbitrate

theorem State.pairwise_arbitrate (s : State) (h : s.tokens.Pairwise fun p q => conflicts p q = false) :
    s.arbitrate.tokens.Pairwise fun p q => conflicts p q = false := by
  rw [State.tokens_arbitrate]
  refine List.pairwise_append.mpr ⟨h, pairwise_grantPass .., fun p hp q hq => ?_⟩
  rw [conflicts_comm]
  exact grantPass_no_conflict hq (List.mem_append_left _ hp)
theorem State.mem_tokens_arbitrate (s : State) (h : q ∈ s.tokens) : q ∈ s.arbitrate.tokens := by
  rw [State.tokens_arbitrate]
  exact List.mem_append_left _ h
theorem State.request_arbitrate (s : State) (h : q ∈ s.tokenReqs) : q ∈ s.arbitrate.tokens ∨ q ∈ s.arbitrate.tokenReqs := by
  rw [State.tokens_arbitrate, State.tokenReqs_arbitrate]
  by_cases hg : q ∈ s.granted
  · exact .inl (List.mem_append_right _ hg)
  · exact .inr (List.mem_filter.mpr ⟨h, by simpa using hg⟩)
theorem State.granted_arbitrate (s : State) (h : q ∈ s.tokenReqs)
    (hfree : ∀ p, p ∈ s.tokens ∨ (p ∈ s.tokenReqs ∧ p ≠ q) → conflicts q p = false) (hself : conflicts q q = false) :
    q ∈ s.arbitrate.tokens := by
  rw [State.tokens_arbitrate]
  refine List.mem_append_right _ (mem_grantPass ((mem_tokenOrder ..).mpr h) fun p hp => ?_)
  rw [List.append_nil, List.mem_append, mem_tokenOrder] at hp
  by_cases hpq : p = q
  · rw [hpq, hself]
  · exact hfree p (hp.imp_right fun hreq => ⟨hreq, hpq⟩)

/-! Maintenance requests (R468, R470, R471). -/

theorem exec_mtRequest_eq (by_ : Req) (k : Fin 16) (scope : BitVec 5) (kind : BitVec 4) (tag : Tag) (s : State) :
    exec (.mtRequest by_ k scope kind tag) s = execMtRequest by_ k scope kind tag s := rfl
theorem exec_mtAck_eq (by_ : Req) (k : Fin 16) (tag : Tag) (s : State) : exec (.mtAck by_ k tag) s = execMtAck by_ k tag s := rfl
theorem exec_hwTokenRequest_eq (kind : BitVec 4) (scope : BitVec 5) (release : Bool) (s : State) :
    exec (.hwTokenRequest kind scope release) s = execHwTokenRequest kind scope release s := rfl
theorem exec_tokenAged_eq (n : Nat) (s : State) : exec (.tokenAged n) s = .next (s.ageToken n) := rfl

section Requests
variable {s : State} {by_ : Req} {k : Fin 16} {scope : BitVec 5} {kind : BitVec 4} {tag : Tag}

section Accepted
variable (ha : s.accepts by_ 0 = true)
include ha

theorem exec_mtRequest_asks (hfree : s.pathFree (MGMT.MT_RES k.val) = true) (hscope : scopeOk kind.toNat scope.toNat = true) :
    exec (.mtRequest by_ k scope kind tag) s = .next (State.arbitrate { s.pathBusy (MGMT.MT_RES k.val) 0 tag with
      tokenReqs := s.tokenReqs ++ [⟨kind.toNat, scope.toNat, .slot k.val, tag, reqMgmt by_, false, s.clock⟩] }) := by
  rw [exec_mtRequest_eq, execMtRequest, State.onWrite_accepts _ ha]
  exact congrArg _ ((if_neg (by simp [hfree])).trans (if_neg (by simp [hscope])))
theorem exec_mtRequest_invalid (hfree : s.pathFree (MGMT.MT_RES k.val) = true) (hscope : scopeOk kind.toNat scope.toNat = false) :
    exec (.mtRequest by_ k scope kind tag) s = .next ((s.pathPost (MGMT.MT_RES k.val) 0 tag (2 ^ 27)).evt 0 19) := by
  rw [exec_mtRequest_eq, execMtRequest, State.onWrite_accepts _ ha]
  exact congrArg _ ((if_neg (by simp [hfree])).trans (if_pos (by simp [hscope])))
theorem exec_mtRequest_drops (hfree : s.pathFree (MGMT.MT_RES k.val) = false) :
    exec (.mtRequest by_ k scope kind tag) s = .next (s.reqDrop 0) := by
  rw [exec_mtRequest_eq, execMtRequest, State.onWrite_accepts _ ha]
  exact congrArg _ (if_pos (by simp [hfree]))

/-- A slot gives its token, or its request, up. -/
def State.slotCleared (s : State) (k : Nat) : State :=
  { s.wr (MGMT.MT_RES k) 0 with
    tokens := s.tokens.filter fun q => q.holder != Holder.slot k, tokenReqs := s.tokenReqs.filter fun q => q.holder != Holder.slot k }

theorem exec_mtAck_clears (hfree : s.pathFree (MGMT.MT_RES k.val) = false) (htag : s.pathTag (MGMT.MT_RES k.val) 0 = tag) :
    exec (.mtAck by_ k tag) s = .next (s.slotCleared k.val).arbitrate := by
  have hposted : (s.rbit (MGMT.MT_RES k.val) 31 || s.rbit (MGMT.MT_RES k.val) 30) = true := by
    rw [State.pathFree, ← Bool.not_or, Bool.not_eq_false'] at hfree
    exact hfree
  rw [exec_mtAck_eq, execMtAck, State.onWrite_accepts _ ha]
  exact congrArg _ (if_pos (by simp [hposted, htag]))
theorem exec_mtAck_ignored (htag : s.pathTag (MGMT.MT_RES k.val) 0 ≠ tag) : exec (.mtAck by_ k tag) s = .next s := by
  rw [exec_mtAck_eq, execMtAck, State.onWrite_accepts _ ha]
  exact congrArg _ (if_neg (by simp [htag]))

end Accepted

theorem State.mem_slotCleared (s : State) (k : Nat) :
    (∀ q, q ∈ (s.slotCleared k).tokens ↔ q ∈ s.tokens ∧ q.holder ≠ .slot k) ∧
    (∀ q, q ∈ (s.slotCleared k).tokenReqs ↔ q ∈ s.tokenReqs ∧ q.holder ≠ .slot k) :=
  ⟨fun _ => by rw [State.slotCleared, List.mem_filter, bne_iff_ne], fun _ => by rw [State.slotCleared, List.mem_filter, bne_iff_ne]⟩

theorem exec_hwTokenRequest_asks (hscope : scopeOk kind.toNat scope.toNat = true) (hholds : s.holds kind.toNat scope.toNat = false)
    (hasks : s.asks kind.toNat scope.toNat = false) : exec (.hwTokenRequest kind scope false) s =
      .next (State.arbitrate { s with
        tokenReqs := s.tokenReqs ++ [{ kind := kind.toNat, scope := scope.toNat, holder := .unit, since := s.clock }] }) := by
  rw [exec_hwTokenRequest_eq, execHwTokenRequest, State.askToken]
  exact congrArg _ ((if_pos hscope).trans (if_neg (by simp [hholds, hasks])))

/-- The requests after the `n`th is looked at for its age. -/
def State.agedReqs (s : State) (n : Nat) : List Token :=
  s.tokenReqs.mapIdx fun i q => if i = n && s.tokenOld q then { q with aged := true } else q

theorem State.getElem?_agedReqs (s : State) (n j : Nat) {q : Token} (h : s.tokenReqs[j]? = some q) :
    (s.agedReqs n)[j]? = some (if j = n ∧ s.tokenOld q = true then { q with aged := true } else q) := by
  rw [State.agedReqs, List.getElem?_mapIdx, h]
  simp

end Requests

/-! The watchdogs (R467). -/

theorem exec_wdtKick_eq (by_ : Req) (k : Fin 7) (key : Byte) (s : State) : exec (.wdtKick by_ k key) s = execWdtKick by_ k key s := rfl
theorem exec_wdtExpire_eq (k : Fin 7) (s : State) : exec (.wdtExpire k) s =
    .next (s.faultHook (s.wdExpire k.val) (wdTiles.getD k.val 0)) := rfl

section Watchdog
variable {s : State} {by_ : Req} {k : Nat} {due : Nat}

theorem exec_wdtKick (ha : s.accepts by_ 0 = true) (k : Fin 7) (key : Byte) :
    exec (.wdtKick by_ k key) s = .next (s.wdKick k.val key.toNat) := by
  rw [exec_wdtKick_eq, execWdtKick, State.onWrite_accepts _ ha]

/-- The watchdog is armed for a kick, or is not. -/
def State.wdArmed (s : State) (k : Nat) (on : Bool) : State :=
  s.modMgmt fun x => { x with wdArm := x.wdArm.filter (· != k) ++ (if on then [k] else []) }

theorem State.contains_wdArmed (s : State) (k : Nat) (on : Bool) : (s.wdArmed k on).mgmt.wdArm.contains k = on := by
  cases on <;> simp [State.wdArmed, State.modMgmt]

theorem State.wdKick_of_ne_kick (s : State) (k : Nat) {key : Nat} (h : key ≠ 0xAA) :
    s.wdKick k key = s.wdArmed k (decide (key = 0x55)) := by
  rw [State.wdKick, State.wdArmed]
  simp [h]
theorem State.wdKick_kick (hd : tget (fun _ => none) s.mgmt.wdDue k = some due) :
    s.wdKick k 0xAA = if s.mgmt.wdArm.contains k then (s.wdArmed k false).wdLoad k else s.wdArmed k false := by
  rw [State.wdKick, hd]
  rfl

/-- A kick, armed or not, shows in the watchdog's count alone. -/
theorem State.wdKick_kick_spec (hd : tget (fun _ => none) s.mgmt.wdDue k = some due) : let u := s.wdKick k 0xAA
    u.mgmt.wdArm.contains k = false ∧
    tget (fun _ => none) u.mgmt.wdDue k = some (if s.mgmt.wdArm.contains k then s.clock + s.wdPeriod k else due) ∧
    (∀ a, u.rd a = s.rd a) ∧ ∀ a, u.rb a = s.rb a := by
  rw [State.wdKick_kick hd]
  cases s.mgmt.wdArm.contains k
  · exact ⟨s.contains_wdArmed k false, hd, fun _ => rfl, fun _ => rfl⟩
  · exact ⟨s.contains_wdArmed k false, tget_tput_self (fun _ => none) s.mgmt.wdDue k (some (s.clock + s.wdPeriod k)),
      fun _ => rfl, fun _ => rfl⟩

/-- A watchdog has counted to 0: it stands, the expiry is counted and logged, and its event pends. -/
def State.wdExpired (s : State) (k : Nat) : State :=
  ((((s.modMgmt fun x => { x with
    wdDue := tput (fun _ => none) x.wdDue k none, wdLeft := tput (fun _ => 0) x.wdLeft k 0 }).sat (MGMT.WDT_STATUS k) 31 16 1).logRec
    (wdTiles.getD k 0) 6 k 0 0 0 0).evt 0 18)

theorem State.wdDue_wdExpired (s : State) (k : Nat) : tget (fun _ => none) (s.wdExpired k).mgmt.wdDue k = none := by
  rw [State.wdExpired, hidden_mgmt.evt, hidden_mgmt.logRec, hidden_mgmt.sat]
  exact tget_tput_self (fun _ => none) s.mgmt.wdDue k none

theorem State.wdExpire_due (hd : tget (fun _ => none) s.mgmt.wdDue k = some due) (h : due ≤ s.clock) : s.wdExpire k =
    if k = 0 then (s.wdExpired k).mgmtRestart 3 else (s.wdExpired k).recordErr (wdTiles.getD k 0) 3 noUnit 0 0 true := by
  rw [State.wdExpire, hd]
  exact if_neg (Nat.not_lt.mpr h)

theorem exec_wdtExpire_tile {k : Fin 7} (hd : tget (fun _ => none) s.mgmt.wdDue k.val = some due) (h : due ≤ s.clock) (hk : k.val ≠ 0) :
    exec (.wdtExpire k) s = .next (s.faultHook
      ((s.wdExpired k.val).recordErr (wdTiles.getD k.val 0) 3 noUnit 0 0 true) (wdTiles.getD k.val 0)) := by
  rw [exec_wdtExpire_eq, State.wdExpire_due hd h, if_neg hk]
theorem exec_wdtExpire_mgmt {k : Fin 7} (hd : tget (fun _ => none) s.mgmt.wdDue k.val = some due) (h : due ≤ s.clock) (hk : k.val = 0) :
    exec (.wdtExpire k) s = .next (s.faultHook ((s.wdExpired k.val).mgmtRestart 3) 0) := by
  rw [exec_wdtExpire_eq, State.wdExpire_due hd h, if_pos hk, hk]
  rfl

end Watchdog

/-- Settles O9: the arbiter's pass by what it grants, a request by its slot and its scope, a watchdog by its key or its expiry. -/
theorem maintenanceTokensAndWatchdogs : Obligations.MaintenanceTokensAndWatchdogs := by
  refine ⟨fun s h => ⟨s.pairwise_arbitrate h, fun q => s.mem_tokens_arbitrate, fun q => s.request_arbitrate,
      fun q => s.granted_arbitrate⟩,
    fun by_ k scope kind tag s ha => ⟨exec_mtRequest_asks ha, fun hfree hscope => ⟨_, exec_mtRequest_invalid ha hfree hscope, ?_⟩,
      exec_mtRequest_drops ha, fun hfree htag => ⟨_, exec_mtAck_clears ha hfree htag, State.rd_wr_self .., s.mem_slotCleared k.val⟩,
      exec_mtAck_ignored ha, exec_hwTokenRequest_asks,
      fun n => ⟨_, exec_tokenAged_eq n s, List.length_mapIdx, fun j q hq => s.getElem?_agedReqs n j hq⟩⟩,
    fun by_ k key s due ha hd => ⟨fun h55 hAA => ⟨_, exec_wdtKick ha k key, ?_⟩, ⟨_, exec_wdtKick ha k 0x55, ?_⟩,
      ⟨_, exec_wdtKick ha k 0xAA, State.wdKick_kick_spec hd⟩,
      fun h hk => ⟨_, exec_wdtExpire_tile hd h hk, s.wdDue_wdExpired k.val, State.evtPend_evt _ _ (by decide)⟩,
      fun h hk => ⟨_, exec_wdtExpire_mgmt hd h hk⟩⟩⟩
  · refine ⟨?_, State.evtPend_evt _ _ (by decide), ?_, fun a hne => ?_, fun a => ?_⟩
    · rw [State.rd_evt, State.rd_pathPost, Nat.pow_zero, Nat.mul_one]
    · exact congrArg Prod.snd (hidden_tokens.evt ..)
    · rw [State.rd_evt, State.pathPost, State.rd_wr_ne _ _ hne]
    · rw [State.rb_evt, State.pathPost, State.rb_wr]
  · have hne : key.toNat ≠ 0x55 ∧ key.toNat ≠ 0xAA :=
      ⟨fun h => h55 (BitVec.eq_of_toNat_eq h), fun h => hAA (BitVec.eq_of_toNat_eq h)⟩
    rw [State.wdKick_of_ne_kick _ _ hne.2, decide_eq_false hne.1]
    exact ⟨s.contains_wdArmed k.val false, rfl⟩
  · rw [State.wdKick_of_ne_kick _ _ (by decide)]
    exact ⟨s.contains_wdArmed k.val true, rfl⟩

end Sys2Proof.Machine
end

section
/-! The monitors of MGMT and the thermal stage (R465, R466). -/

namespace Sys2Proof.Machine

open Reg

/-! The stage that a temperature gives (R465). -/

section Stage
variable {thr : Nat → Int} {tj : Int} {st k : Nat}

theorem stageFall_le (thr : Nat → Int) (tj : Int) (st : Nat) : stageFall thr tj st ≤ st := by
  induction st with
  | zero => exact Nat.le_refl 0
  | succ st ih =>
    rw [stageFall]
    split
    · exact Nat.le_succ_of_le ih
    · exact Nat.le_refl _

/-- A fall stops at a stage whose threshold the temperature still reaches. -/
theorem le_stageFall (hk : k ≤ st) (h : thr k ≤ tj) : k ≤ stageFall thr tj st := by
  induction st with
  | zero => exact hk
  | succ st ih =>
    rw [stageFall]
    split
    · next hbelow =>
      refine ih (Nat.lt_succ_iff.mp (lt_of_le_of_ne hk fun he => ?_))
      subst he
      rw [Nat.succ_eq_add_one] at h
      omega
    · exact hk

/-- Every stage that is left lies more than 3 degrees above the temperature. -/
theorem below_of_stageFall_lt (hlt : stageFall thr tj st < k) (hk : k ≤ st) : tj < thr k - 3 := by
  induction st with
  | zero => omega
  | succ st ih =>
    rw [stageFall] at hlt
    split at hlt
    · next hbelow =>
      rcases Nat.lt_or_eq_of_le hk with hk' | rfl
      · exact ih hlt (Nat.lt_succ_iff.mp hk')
      · exact hbelow
    · omega

theorem stageFall_stops (h : 0 < stageFall thr tj st) : thr (stageFall thr tj st) - 3 ≤ tj := by
  induction st with
  | zero => exact absurd h (Nat.lt_irrefl 0)
  | succ st ih =>
    rw [stageFall] at h ⊢
    split at h
    · next hbelow =>
      rw [if_pos hbelow]
      exact ih h
    · next hstop =>
      rw [if_neg hstop]
      omega

/-- The highest threshold that the temperature reaches. -/
def stageUp (thr : Nat → Int) (tj : Int) : Nat :=
  if thr 4 ≤ tj then 4 else if thr 3 ≤ tj then 3 else if thr 2 ≤ tj then 2 else if thr 1 ≤ tj then 1 else 0

theorem stageNext_eq (thr : Nat → Int) (tj : Int) (st : Nat) :
    stageNext thr tj st = if st < stageUp thr tj then stageUp thr tj else stageFall thr tj st := rfl

theorem le_stageUp (h1 : 1 ≤ k) (h4 : k ≤ 4) (h : thr k ≤ tj) : k ≤ stageUp thr tj := by
  interval_cases k <;> grind [stageUp]
theorem stageUp_reached (h : 0 < stageUp thr tj) : stageUp thr tj ≤ 4 ∧ thr (stageUp thr tj) ≤ tj := by
  unfold stageUp at h ⊢
  split_ifs at h ⊢ with h4 h3 h2 h1
  · exact ⟨by decide, h4⟩
  · exact ⟨by decide, h3⟩
  · exact ⟨by decide, h2⟩
  · exact ⟨by decide, h1⟩
  · exact absurd h (Nat.lt_irrefl 0)

theorem stageNext_spec (thr : Nat → Int) (tj : Int) (st : Nat) : let n := stageNext thr tj st
    (∀ k, 1 ≤ k → k ≤ 4 → thr k ≤ tj → k ≤ n) ∧ (st < n → 1 ≤ n ∧ n ≤ 4 ∧ thr n ≤ tj) ∧
    (n < st → ∀ j, n < j → j ≤ st → tj < thr j - 3) ∧ (n ≤ st → 0 < n → thr n - 3 ≤ tj) := by
  rw [stageNext_eq]
  split
  · next hrise =>
    have hpos : 0 < stageUp thr tj := Nat.zero_lt_of_lt hrise
    exact ⟨fun k => le_stageUp, fun _ => ⟨hpos, stageUp_reached hpos⟩, fun h => absurd h (Nat.lt_asymm hrise),
      fun h => absurd h (Nat.not_le.mpr hrise)⟩
  · next hfall =>
    exact ⟨fun k h1 h4 h => le_stageFall ((le_stageUp h1 h4 h).trans (Nat.not_lt.mp hfall)) h,
      fun h => absurd h (Nat.not_lt.mpr (stageFall_le ..)), fun _ j => below_of_stageFall_lt, fun _ => stageFall_stops⟩

end Stage

/-! What the operations of a reading leave of registers and bytes. -/

/-- A register of MGMT that a record of the log does not write. -/
def OffLog (a : RegId) : Prop := a < 0x1000000 ∧ a ≠ MGMT.LOG_WR ∧ a ≠ MGMT.LOG_CNT

/-- A byte outside the event log. -/
def BesideLog (a : Nat) : Prop := a < logBase ∨ logBase + 65536 ≤ a

section Frames
variable (s : State) {a : RegId} {x : Nat}

theorem State.rd_logRec (h : OffLog a) (t kind code d0 d1 d2 d3 : Nat) : (s.logRec t kind code d0 d1 d2 d3).rd a = s.rd a := by
  obtain ⟨-, hwr, hcnt⟩ := h
  refine s.logRec_frame (·.rd a) (fun _ _ _ _ => rfl) (fun u b v hb => State.rd_wr_ne _ _ ?_) (fun _ _ => rfl) ..
  rcases hb with rfl | rfl
  · exact hwr
  · exact hcnt

theorem State.rb_wm_out (b n v : Nat) (h : x < b ∨ b + n ≤ x) : (s.wm b n v).rb x = s.rb x := by
  induction n generalizing s b v with
  | zero => rfl
  | succ n ih =>
    have hne : x ≠ b := by omega
    rw [State.wm, ih _ _ _ (by omega), State.rb_wb_ne _ _ hne]
theorem State.rb_wwords_out (b : Nat) (l : List Nat) (h : x < b ∨ b + 4 * l.length ≤ x) : (s.wwords b l).rb x = s.rb x := by
  induction l generalizing s b with
  | nil => rfl
  | cons w l ih =>
    rw [List.length_cons] at h
    rw [State.wwords, ih _ _ (by omega), State.rb_wm_out _ _ _ _ (by omega)]
/-- What the record's eight words and the log's registers leave, the record leaves. -/
theorem State.logRec_frame_at {β : Type} (g : State → β)
    (hw : ∀ l : List Nat, l.length = 8 → g (s.wwords (logBase + 32 * s.rf MGMT.LOG_WR 10 0) l) = g s)
    (hr : ∀ (u : State) b v, g (u.wr b v) = g u) (hn : ∀ (u : State) n, g { u with logUnpers := n } = g u)
    (t kind code d0 d1 d2 d3 : Nat) : g (s.logRec t kind code d0 d1 d2 d3) = g s := by
  unfold State.logRec
  extract_lets i b n s1 s2
  have h2 : g s2 = g s := (hr ..).trans (hw _ rfl)
  split
  · exact (hr ..).trans h2
  · exact (hn ..).trans h2
theorem State.rb_logRec (h : BesideLog x) (t kind code d0 d1 d2 d3 : Nat) : (s.logRec t kind code d0 d1 d2 d3).rb x = s.rb x := by
  have hi : s.rf MGMT.LOG_WR 10 0 < 2048 := fld_lt ..
  refine s.logRec_frame_at (·.rb x) (fun l hl => s.rb_wwords_out _ l ?_) (fun _ _ _ => rfl) (fun _ _ => rfl) ..
  rw [hl]
  rcases h with h | h <;> omega

theorem State.rd_engClkCheck (h : OffLog a) (c : Nat) : (s.engClkCheck c).rd a = s.rd a := by
  have hne : a ≠ ENG.ENG_CLK c := Nat.ne_of_lt (h.1.trans_le (Nat.le_add_right_of_le (by decide)))
  unfold State.engClkCheck
  extract_lets r
  split
  · exact State.rd_wf_ne _ _ _ _ hne
  · rfl
theorem State.rb_engClkCheck (c : Nat) : (s.engClkCheck c).rb x = s.rb x := by
  unfold State.engClkCheck
  extract_lets r
  split <;> rfl

theorem State.rd_setTxq (h : OffLog a) (r q : Nat) (l : List TxCmd) : (s.setTxq r q l).rd a = s.rd a := by
  have hne : a ≠ RADIO.TXQ_STATUS r := Nat.ne_of_lt (h.1.trans_le (Nat.le_add_right_of_le (by decide)))
  exact State.rd_wf_ne _ _ _ _ hne
theorem State.rd_dutyFree (h : OffLog a) : s.dutyFree.rd a = s.rd a :=
  State.foldl_frame (·.rd a) (fun u r => u.rd_setTxq h r 4 _) ..
theorem State.rb_setTxq (r q : Nat) (l : List TxCmd) : (s.setTxq r q l).rb x = s.rb x := rfl
theorem State.rb_dutyFree : s.dutyFree.rb x = s.rb x := State.foldl_frame (·.rb x) (fun u r => u.rb_setTxq r 4 _) ..

/-! A change of the stage. -/

theorem State.rd_setStage (h : OffLog a) (st hot : Nat) (tj : Int) :
    (s.setStage st tj hot).rd a = (s.wf MGMT.THERM_STATUS 31 29 st).rd a := by
  refine (State.foldl_frame (·.rd a) (fun u c => u.rd_engClkCheck h c) ..).trans ?_
  rw [State.rd_evt, State.rd_logRec _ h]
theorem State.rb_setStage (h : BesideLog x) (st hot : Nat) (tj : Int) : (s.setStage st tj hot).rb x = s.rb x := by
  refine (State.foldl_frame (·.rb x) (fun u c => u.rb_engClkCheck c) ..).trans ?_
  rw [State.rb_evt, State.rb_logRec _ h, State.rb_wf]

/-! A voltage monitor. -/

/-- What a monitor shows of a voltage and its limits. -/
def vmonWord (lim : Word) (mv : BitVec 16) : Word :=
  wd (b2n (mv.toNat < fld lim 15 0) * 2 ^ 31 + b2n (fld lim 31 16 < mv.toNat) * 2 ^ 30 + mv.toNat)

theorem State.readVolt_frame {β : Type} (g : State → β)
    (hl : ∀ (u : State) t kind code d0 d1 d2 d3, g (u.logRec t kind code d0 d1 d2 d3) = g u)
    (he : ∀ (u : State) t n, g (u.evt t n) = g u) (n : Nat) (mv : BitVec 16) :
    g (s.readVolt n mv) = g (s.wr (MGMT.VMON n) (vmonWord (s.rd (MGMT.VMON_LIM n)) mv)) := by
  have hflag (b : Bool) (u : State) (k : Nat) : g (if b then (u.logRec 0 5 n mv.toNat k 0 0).evt 0 17 else u) = g u := by
    cases b
    · rfl
    · exact (he ..).trans (hl ..)
  exact (hflag ..).trans (hflag ..)
theorem State.rd_readVolt (h : OffLog a) (n : Nat) (mv : BitVec 16) :
    (s.readVolt n mv).rd a = (s.wr (MGMT.VMON n) (vmonWord (s.rd (MGMT.VMON_LIM n)) mv)).rd a :=
  s.readVolt_frame (·.rd a) (fun u _ _ _ _ _ _ _ => u.rd_logRec h ..) (fun u _ _ => u.rd_evt ..) n mv
theorem State.rd_readVolt_ne (h : OffLog a) {n : Nat} (hne : a ≠ MGMT.VMON n) (mv : BitVec 16) : (s.readVolt n mv).rd a = s.rd a := by
  rw [State.rd_readVolt _ h, State.rd_wr_ne _ _ hne]
theorem State.rb_readVolt (h : BesideLog x) (n : Nat) (mv : BitVec 16) : (s.readVolt n mv).rb x = s.rb x :=
  (s.readVolt_frame (·.rb x) (fun u _ _ _ _ _ _ _ => u.rb_logRec h ..) (fun u _ _ => u.rb_evt ..) n mv).trans (s.rb_wr ..)

end Frames

/-- The registers of a table of words are as many as its entries. -/
theorem tableReg_inj {base i j : Nat} (h : base + 4 * i = base + 4 * j) : j = i := by omega

/-- A table that ends below another's base has no register of it. -/
theorem tableReg_ne {base base' i j : Nat} (h : base' + 4 * j < base) : base + 4 * i ≠ base' + 4 * j :=
  Nat.ne_of_gt (h.trans_le (Nat.le_add_right ..))
/-- A table of MGMT above the log's registers. -/
theorem offLog_table {base i : Nat} (hlo : 0x1040 ≤ base) (hhi : base + 4 * i < 0x1000000) : OffLog (base + 4 * i) :=
  have habove {b : Nat} (hb : b < 0x1040) : base + 4 * i ≠ b := Nat.ne_of_gt (hb.trans_le (Nat.le_add_right_of_le hlo))
  ⟨hhi, habove (by decide), habove (by decide)⟩

/-! One item of a list acts on its own register. -/

section Items
variable {α : Type} {f : State → α × Nat → State} {P Q : State → Prop} {n N : Nat} {d : α}

theorem foldl_zipIdx_keeps (l : List α) (k : Nat) (s : State) (hP : ∀ u y j, k ≤ j → j < k + l.length → P u → P (f u (y, j)))
    (hs : P s) : P ((l.zipIdx k).foldl f s) := by
  induction l generalizing k s with
  | nil => exact hs
  | cons y l ih =>
    rw [List.length_cons] at hP
    rw [List.zipIdx_cons, List.foldl_cons]
    exact ih (k + 1) _ (fun u z j hlo hhi => hP u z j (by omega) (by omega)) (hP s y k (Nat.le_refl k) (by omega) hs)

/-- What holds of the state as the `n`th item comes, and what holds after it, where no other item disturbs either. -/
theorem foldl_zipIdx_at (hP : ∀ u y j, j < N → j ≠ n → P u → P (f u (y, j))) (hPQ : ∀ u, P u → Q (f u (d, n)))
    (hQ : ∀ u y j, j < N → j ≠ n → Q u → Q (f u (y, j))) (l : List α) (k : Nat) (s : State) {m : Nat} (hN : k + l.length ≤ N)
    (hm : k + m = n) (hd : l[m]? = some d) (hs : P s) : Q ((l.zipIdx k).foldl f s) := by
  induction l generalizing k m s with
  | nil => exact absurd hd (by simp)
  | cons y l ih =>
    rw [List.length_cons] at hN
    rw [List.zipIdx_cons, List.foldl_cons]
    cases m with
    | zero =>
      obtain rfl : y = d := Option.some.inj hd
      obtain rfl : k = n := hm
      exact foldl_zipIdx_keeps l (k + 1) _ (fun u z j hlo hhi => hQ u z j (by omega) (by omega)) (hPQ s hs)
    | succ m => exact ih (k + 1) _ (by omega) (by omega) hd (hP _ _ _ (by omega) (by omega) hs)

end Items

/-! A reading of the sensors and the voltage monitors. -/

/-- One sensor's reading is shown. -/
def State.tempShown (s : State) (p : BitVec 16 × Nat) : State :=
  s.wr (MGMT.TEMP p.2) (wd (b2n (tempValid p.1) * 2 ^ 31 + p.1.toNat))
/-- The sensors' readings are shown. -/
def State.tempsShown (s : State) (ts : List (BitVec 16)) : State :=
  ts.zipIdx.foldl State.tempShown (s.modMgmt fun x => { x with sensorAt := s.clock })
/-- The hottest sensor's temperature and number are shown. -/
def State.hotShown (s : State) (tj : Int) (hot : Nat) : State :=
  (s.wf MGMT.THERM_STATUS 23 16 (ofInt 8 tj)).wf MGMT.THERM_STATUS 3 0 hot
/-- The stage that follows. -/
def State.stageShown (s : State) (st : Nat) (tj : Int) (hot : Nat) : State :=
  if st = s.rf MGMT.THERM_STATUS 31 29 then s.hotShown tj hot else ((s.hotShown tj hot).setStage st tj hot).dutyFree
/-- One voltage monitor is read. -/
def State.voltShown (s : State) (p : BitVec 16 × Nat) : State := s.readVolt p.2 p.1
/-- The voltage monitors are read. -/
def State.voltsShown (s : State) (mv : List (BitVec 16)) : State := mv.zipIdx.foldl State.voltShown s

section Reading
variable (s : State) {a : RegId} {x : Nat} {n : Nat} {d : BitVec 16}

theorem State.rd_tempShown_ne (p : BitVec 16 × Nat) (h : a ≠ MGMT.TEMP p.2) : (s.tempShown p).rd a = s.rd a := State.rd_wr_ne _ _ h
theorem State.rd_tempsShown {ts : List (BitVec 16)} (hts : ts.length ≤ 12) (h : ∀ j, j < 12 → a ≠ MGMT.TEMP j) :
    (s.tempsShown ts).rd a = s.rd a :=
  foldl_zipIdx_keeps (f := State.tempShown) (P := fun u => u.rd a = s.rd a) ts 0 _
    (fun u y j _ hj hu => (u.rd_tempShown_ne (y, j) (h j (by omega))).trans hu) rfl
theorem State.rd_tempsShown_temp {ts : List (BitVec 16)} (hts : ts.length ≤ 12) (h : ts[n]? = some d) :
    (s.tempsShown ts).rd (MGMT.TEMP n) = wd (b2n (tempValid d) * 2 ^ 31 + d.toNat) := by
  have hne {j : Nat} (hj : j ≠ n) : MGMT.TEMP n ≠ MGMT.TEMP j := fun he => hj (tableReg_inj he)
  exact foldl_zipIdx_at (f := State.tempShown) (P := fun _ => True) (Q := fun u => u.rd (MGMT.TEMP n) = _)
    (fun _ _ _ _ _ _ => trivial) (fun u _ => u.rd_wr_self ..)
    (fun u y j _ hj hu => (u.rd_tempShown_ne (y, j) (hne hj)).trans hu) ts 0 _ (N := 12) (by omega) (Nat.zero_add n) h trivial
theorem State.rb_tempsShown (ts : List (BitVec 16)) : (s.tempsShown ts).rb x = s.rb x :=
  State.foldl_frame (·.rb x) (fun u p => (u.rb_wr (MGMT.TEMP p.2) _ x : (u.tempShown p).rb x = _)) ..

theorem State.rd_hotShown (tj : Int) (hot : Nat) (h : a ≠ MGMT.THERM_STATUS) : (s.hotShown tj hot).rd a = s.rd a :=
  (State.rd_wf_ne _ _ _ _ h).trans (State.rd_wf_ne _ _ _ _ h)
theorem State.rf_hotShown (tj : Int) (hot : Nat) : (s.hotShown tj hot).rf MGMT.THERM_STATUS 23 16 = ofInt 8 tj ∧
    (s.hotShown tj hot).rf MGMT.THERM_STATUS 31 29 = s.rf MGMT.THERM_STATUS 31 29 := by
  have hlt : ofInt 8 tj < 2 ^ 8 := by
    unfold ofInt
    omega
  rw [State.rf, State.rf, State.hotShown, State.rd_wf_self, State.rd_wf_self, fld_putFld_beside _ _ (by decide) (by decide) (by decide),
    fld_putFld_self _ _ (by decide) (by decide), fld_putFld_beside _ _ (by decide) (by decide) (by decide),
    fld_putFld_beside _ _ (by decide) (by decide) (by decide), State.rf]
  exact ⟨Nat.mod_eq_of_lt hlt, rfl⟩

theorem offLog_thermStatus : OffLog MGMT.THERM_STATUS := by
  unfold OffLog
  decide

theorem State.rd_stageShown (st : Nat) (tj : Int) (hot : Nat) (h : OffLog a) (hne : a ≠ MGMT.THERM_STATUS) :
    (s.stageShown st tj hot).rd a = s.rd a := by
  unfold State.stageShown
  split
  · exact s.rd_hotShown tj hot hne
  · rw [State.rd_dutyFree _ h, State.rd_setStage _ h, State.rd_wf_ne _ _ _ _ hne, State.rd_hotShown _ _ _ hne]
theorem State.rf_stageShown (st : Nat) (tj : Int) (hot : Nat) :
    (s.stageShown st tj hot).rf MGMT.THERM_STATUS 31 29 = st % 8 ∧
    (s.stageShown st tj hot).rf MGMT.THERM_STATUS 23 16 = ofInt 8 tj := by
  obtain ⟨htj, hst⟩ := s.rf_hotShown tj hot
  unfold State.stageShown
  split
  · next hsame =>
    rw [htj, hst, hsame]
    exact ⟨(Nat.mod_eq_of_lt (fld_lt ..)).symm, rfl⟩
  · rw [State.rf, State.rf, State.rd_dutyFree _ offLog_thermStatus, State.rd_setStage _ offLog_thermStatus, State.rd_wf_self,
      fld_putFld_self _ _ (by decide) (by decide), fld_putFld_beside _ _ (by decide) (by decide) (by decide)]
    exact ⟨rfl, htj⟩
theorem State.rb_stageShown (st : Nat) (tj : Int) (hot : Nat) (h : BesideLog x) : (s.stageShown st tj hot).rb x = s.rb x := by
  unfold State.stageShown
  split
  · rfl
  · rw [State.rb_dutyFree, State.rb_setStage _ h]
    rfl

theorem State.rd_voltShown_ne (p : BitVec 16 × Nat) (h : OffLog a) (hne : a ≠ MGMT.VMON p.2) : (s.voltShown p).rd a = s.rd a :=
  s.rd_readVolt_ne h hne p.1
theorem State.rd_voltsShown (mv : List (BitVec 16)) (h : OffLog a) (hne : ∀ j, a ≠ MGMT.VMON j) :
    (s.voltsShown mv).rd a = s.rd a :=
  State.foldl_frame (·.rd a) (fun u p => u.rd_voltShown_ne p h (hne p.2)) ..
theorem State.rd_voltsShown_vmon {mv : List (BitVec 16)} (hmv : mv.length ≤ 16) (h : mv[n]? = some d) :
    (s.voltsShown mv).rd (MGMT.VMON n) = vmonWord (s.rd (MGMT.VMON_LIM n)) d := by
  have hn : n < 16 := (List.getElem?_eq_some_iff.mp h).1.trans_le hmv
  have hreg : OffLog (MGMT.VMON n) := offLog_table (by decide) (by omega)
  have hlim : OffLog (MGMT.VMON_LIM n) := offLog_table (by decide) (by omega)
  have hne {j : Nat} (hj : j ≠ n) : MGMT.VMON n ≠ MGMT.VMON j := fun he => hj (tableReg_inj he)
  have hapart {j : Nat} (hj : j < 16) : MGMT.VMON_LIM n ≠ MGMT.VMON j := tableReg_ne (by omega)
  exact foldl_zipIdx_at (f := State.voltShown) (P := fun u => u.rd (MGMT.VMON_LIM n) = s.rd (MGMT.VMON_LIM n))
    (Q := fun u => u.rd (MGMT.VMON n) = vmonWord (s.rd (MGMT.VMON_LIM n)) d)
    (fun u y j hj _ hu => (u.rd_voltShown_ne (y, j) hlim (hapart hj)).trans hu)
    (fun u hu => (u.rd_readVolt hreg n d).trans (by rw [State.rd_wr_self, hu]))
    (fun u y j _ hj hu => (u.rd_voltShown_ne (y, j) hreg (hne hj)).trans hu) mv 0 _ (N := 16) (by omega) (Nat.zero_add n) h rfl
theorem State.rb_voltShown (p : BitVec 16 × Nat) (h : BesideLog x) : (s.voltShown p).rb x = s.rb x := s.rb_readVolt h p.2 p.1
theorem State.rb_voltsShown (mv : List (BitVec 16)) (h : BesideLog x) : (s.voltsShown mv).rb x = s.rb x :=
  State.foldl_frame (·.rb x) (fun u p => u.rb_voltShown p h) ..

/-- The state after a reading. -/
def State.monitorsRead (s : State) (temps mv : List (BitVec 16)) : State :=
  let h := hottest 0 (temps.take 12)
  let tj : Int := match h with | some (_, v) => (v + 3) / 4 | none => 150
  let hot := match h with | some (n, _) => n | none => 15
  (((s.tempsShown (temps.take 12)).stageShown (stageNext s.thr tj (s.rf MGMT.THERM_STATUS 31 29)) tj hot)).voltsShown (mv.take 16)

end Reading

theorem exec_sensorRead_eq (temps mv : List (BitVec 16)) (s : State) : exec (.sensorRead temps mv) s = execSensorRead temps mv s := rfl
theorem exec_roMonUpdate_eq (now : List (BitVec 16)) (s : State) : exec (.roMonUpdate now) s = execRoMonUpdate now s := rfl
theorem exec_dutyWindow_eq (s : State) : exec .dutyWindow s = execDutyWindow s := rfl

section Spec
variable {s : State} {temps mv now : List (BitVec 16)}

theorem exec_sensorRead_early (h : s.sensorDue = false) : exec (.sensorRead temps mv) s = .next s := by
  rw [exec_sensorRead_eq, execSensorRead]
  exact congrArg _ (if_pos (by simp [h]))

theorem State.rf_thermStatus_tempsShown (s : State) (hi lo : Nat) : (s.tempsShown (temps.take 12)).rf MGMT.THERM_STATUS hi lo =
    s.rf MGMT.THERM_STATUS hi lo := by
  have hne : ∀ j, j < 12 → MGMT.THERM_STATUS ≠ MGMT.TEMP j := fun j _ => Nat.ne_of_lt (Nat.lt_add_right _ (by decide))
  rw [State.rf, State.rd_tempsShown _ (List.length_take_le ..) hne, State.rf]

theorem exec_sensorRead_due (h : s.sensorDue = true) : exec (.sensorRead temps mv) s = .next (s.monitorsRead temps mv) := by
  rw [exec_sensorRead_eq, execSensorRead]
  refine congrArg _ ((if_neg (by simp [h])).trans ?_)
  rw [State.monitorsRead]
  rw [State.stageShown, State.rf_thermStatus_tempsShown]
  rfl

section Read
variable (s) {n : Nat} {d : BitVec 16}

theorem State.rd_monitorsRead_temp (hn : n < 12) (h : temps[n]? = some d) :
    (s.monitorsRead temps mv).rd (MGMT.TEMP n) = wd (b2n (tempValid d) * 2 ^ 31 + d.toNat) := by
  have hreg : OffLog (MGMT.TEMP n) := offLog_table (by decide) (by omega)
  have hvmon (j : Nat) : MGMT.TEMP n ≠ MGMT.VMON j := (tableReg_ne (by omega)).symm
  have htherm : MGMT.TEMP n ≠ MGMT.THERM_STATUS := Nat.ne_of_gt (Nat.lt_add_right _ (by decide))
  rw [State.monitorsRead]
  rw [State.rd_voltsShown _ _ hreg hvmon, State.rd_stageShown _ _ _ _ hreg htherm]
  exact State.rd_tempsShown_temp _ (List.length_take_le ..) ((List.getElem?_take_of_lt hn).trans h)

theorem State.rf_monitorsRead_therm {hot : Nat} {v : Int} (h : hottest 0 (temps.take 12) = some (hot, v)) :
    (s.monitorsRead temps mv).rf MGMT.THERM_STATUS 31 29 = stageNext s.thr ((v + 3) / 4) (s.rf MGMT.THERM_STATUS 31 29) % 8 ∧
    (s.monitorsRead temps mv).rf MGMT.THERM_STATUS 23 16 = ofInt 8 ((v + 3) / 4) := by
  have hvmon (j : Nat) : MGMT.THERM_STATUS ≠ MGMT.VMON j := Nat.ne_of_lt (Nat.lt_add_right _ (by decide))
  have rf_voltsShown (u : State) (l : List (BitVec 16)) (hi lo : Nat) :
      (u.voltsShown l).rf MGMT.THERM_STATUS hi lo = u.rf MGMT.THERM_STATUS hi lo :=
    congrArg (fld · hi lo) (u.rd_voltsShown l offLog_thermStatus hvmon)
  rw [State.monitorsRead, h]
  dsimp only
  rw [rf_voltsShown, rf_voltsShown]
  exact State.rf_stageShown ..

theorem State.rd_monitorsRead_vmon (hn : n < 16) (h : mv[n]? = some d) :
    (s.monitorsRead temps mv).rd (MGMT.VMON n) = vmonWord (s.rd (MGMT.VMON_LIM n)) d := by
  have hreg : OffLog (MGMT.VMON_LIM n) := offLog_table (by decide) (by omega)
  have htherm : MGMT.VMON_LIM n ≠ MGMT.THERM_STATUS := Nat.ne_of_gt (Nat.lt_add_right _ (by decide))
  have htemp (j : Nat) (hj : j < 12) : MGMT.VMON_LIM n ≠ MGMT.TEMP j := tableReg_ne (by omega)
  rw [State.monitorsRead]
  rw [State.rd_voltsShown_vmon _ (List.length_take_le ..) ((List.getElem?_take_of_lt hn).trans h),
    State.rd_stageShown _ _ _ _ hreg htherm, State.rd_tempsShown _ (List.length_take_le ..) htemp]

theorem State.rb_monitorsRead {x : Nat} (h : BesideLog x) : (s.monitorsRead temps mv).rb x = s.rb x := by
  rw [State.monitorsRead]
  rw [State.rb_voltsShown _ _ h, State.rb_stageShown _ _ _ _ h, State.rb_tempsShown]

end Read

/-! The ring-oscillator monitors (R466). -/

/-- One monitor's count is shown. -/
def State.roShown (s : State) (p : BitVec 16 × Nat) : State := s.wf (MGMT.RO_MON p.2) 15 0 p.1.toNat
/-- The report's counts are shown. -/
def State.roReported (s : State) (now : List (BitVec 16)) : State :=
  (now.take 24).zipIdx.foldl State.roShown (s.modMgmt fun x => { x with roAt := s.clock })

theorem exec_roMonUpdate_early (h : s.inReset = true ∨ s.clock - s.mgmt.roAt < 50000000) : exec (.roMonUpdate now) s = .next s := by
  rw [exec_roMonUpdate_eq, execRoMonUpdate]
  exact congrArg _ (if_pos (by simpa using h))
theorem exec_roMonUpdate_due (hreset : s.inReset = false) (hdue : 50000000 ≤ s.clock - s.mgmt.roAt) :
    exec (.roMonUpdate now) s = .next (s.roReported now) := by
  rw [exec_roMonUpdate_eq, execRoMonUpdate]
  exact congrArg _ (if_neg (by simpa [hreset] using hdue))

theorem State.roShown_frame {β : Type} (g : State → β) (hg : ∀ (u : State) a hi lo v, g (u.wf a hi lo v) = g u) (s : State)
    (p : BitVec 16 × Nat) : g (s.roShown p) = g s := hg ..
theorem State.rd_roReported (s : State) {n : Nat} {d : BitVec 16} (hn : n < 24) (h : now[n]? = some d) :
    (s.roReported now).rd (MGMT.RO_MON n) = putFld (s.rd (MGMT.RO_MON n)) 15 0 d.toNat := by
  have hne {j : Nat} (hj : j ≠ n) : MGMT.RO_MON n ≠ MGMT.RO_MON j := fun he => hj (tableReg_inj he)
  have hother (u : State) (y : BitVec 16) (j : Nat) (hj : j ≠ n) : (u.roShown (y, j)).rd (MGMT.RO_MON n) = u.rd (MGMT.RO_MON n) :=
    State.rd_wf_ne _ _ _ _ (hne hj)
  exact foldl_zipIdx_at (f := State.roShown) (P := fun u => u.rd (MGMT.RO_MON n) = s.rd (MGMT.RO_MON n))
    (Q := fun u => u.rd (MGMT.RO_MON n) = putFld (s.rd (MGMT.RO_MON n)) 15 0 d.toNat)
    (fun u y j _ hj hu => (hother u y j hj).trans hu) (fun u hu => (State.rd_wf_self ..).trans (by rw [hu]))
    (fun u y j _ hj hu => (hother u y j hj).trans hu) (now.take 24) 0 _ (N := 24)
    ((Nat.zero_add _).trans_le (List.length_take_le ..)) (Nat.zero_add n) ((List.getElem?_take_of_lt hn).trans h) rfl
theorem State.rf_roReported (s : State) {n : Nat} {d : BitVec 16} (hn : n < 24) (h : now[n]? = some d) :
    (s.roReported now).rf (MGMT.RO_MON n) 15 0 = d.toNat ∧
    (s.roReported now).rf (MGMT.RO_MON n) 31 16 = s.rf (MGMT.RO_MON n) 31 16 := by
  rw [State.rf, State.rf, s.rd_roReported hn h, fld_putFld_self _ _ (by decide) (by decide),
    fld_putFld_beside _ _ (by decide) (by decide) (by decide), State.rf]
  exact ⟨Nat.mod_eq_of_lt d.isLt, rfl⟩
theorem State.rb_roReported (s : State) (now : List (BitVec 16)) (x : Nat) : (s.roReported now).rb x = s.rb x :=
  State.foldl_frame (·.rb x) (fun u p => State.roShown_frame (·.rb x) (fun u _ _ _ _ => u.rb_wf ..) u p) ..
theorem State.tile_roReported (s : State) (now : List (BitVec 16)) (t : Nat) : (s.roReported now).tile t = s.tile t :=
  State.foldl_frame (·.tile t) (fun u p => State.roShown_frame (·.tile t) (fun u _ _ _ _ => u.tile_wf ..) u p) ..

/-! The duty window (R465). -/

/-- A radio's count in the window starts again. -/
def State.dutyZero (s : State) (r : Nat) : State := s.modRadio r fun x => { x with duty := 0 }
/-- A window begins. -/
def State.dutyBegun (s : State) (w : Nat) : State :=
  (([0, 1, 2].foldl State.dutyZero s).modMgmt fun x => { x with dutyWin := w }).dutyFree

theorem exec_dutyWindow_begins (h : s.mgmt.dutyWin ≠ s.ns / 10000000 + 1) :
    exec .dutyWindow s = .next (s.dutyBegun (s.ns / 10000000 + 1)) := by
  rw [exec_dutyWindow_eq, execDutyWindow]
  exact congrArg _ (if_neg h)

theorem State.radio_modRadio_ne (s : State) {r j : Nat} (f : Radio → Radio) (h : j ≠ r) : (s.modRadio r f).radio j = s.radio j :=
  tget_tput_ne _ _ _ h
theorem State.duty_setTxq (s : State) (r q : Nat) (l : List TxCmd) (j : Nat) :
    ((s.setTxq r q l).radio j).duty = (s.radio j).duty := by
  unfold State.setTxq
  extract_lets l0 l1
  rw [State.radio_wf]
  by_cases hj : j = r
  · rw [hj, State.radio_modRadio_self]
  · rw [State.radio_modRadio_ne _ _ hj]
theorem State.duty_dutyFree (s : State) (j : Nat) : (s.dutyFree.radio j).duty = (s.radio j).duty :=
  State.foldl_frame (fun u => (u.radio j).duty) (fun u r => u.duty_setTxq r 4 _ j) ..
theorem State.mgmt_setTxq (s : State) (r q : Nat) (l : List TxCmd) : (s.setTxq r q l).mgmt = s.mgmt := rfl
theorem State.mgmt_dutyFree (s : State) : s.dutyFree.mgmt = s.mgmt :=
  State.foldl_frame (·.mgmt) (fun u r => u.mgmt_setTxq r 4 _) ..

theorem State.radio_modMgmt (s : State) (f : MgmtUnit → MgmtUnit) (r : Nat) : (s.modMgmt f).radio r = s.radio r := rfl
theorem State.rb_modMgmt (s : State) (f : MgmtUnit → MgmtUnit) (x : Nat) : (s.modMgmt f).rb x = s.rb x := rfl
theorem State.rb_dutyZero (s : State) (r x : Nat) : (s.dutyZero r).rb x = s.rb x := rfl

theorem State.duty_dutyBegun (s : State) (w : Nat) {r : Nat} (hr : r < 3) : ((s.dutyBegun w).radio r).duty = 0 := by
  have hself (u : State) : ((u.dutyZero r).radio r).duty = 0 := by
    rw [State.dutyZero, State.radio_modRadio_self]
  have hother (u : State) {j : Nat} (hj : r ≠ j) : (u.dutyZero j).radio r = u.radio r := State.radio_modRadio_ne _ _ hj
  rw [State.dutyBegun, State.duty_dutyFree, State.radio_modMgmt, List.foldl_cons, List.foldl_cons, List.foldl_cons, List.foldl_nil]
  interval_cases r
  · rw [hother _ (by decide), hother _ (by decide), hself]
  · rw [hother _ (by decide), hself]
  · rw [hself]
theorem State.dutyWin_dutyBegun (s : State) (w : Nat) : (s.dutyBegun w).mgmt.dutyWin = w := by
  rw [State.dutyBegun, State.mgmt_dutyFree, State.modMgmt]
theorem State.rb_dutyBegun (s : State) (w x : Nat) : (s.dutyBegun w).rb x = s.rb x := by
  rw [State.dutyBegun, State.rb_dutyFree, State.rb_modMgmt]
  exact State.foldl_frame (·.rb x) (fun u r => u.rb_dutyZero r x) ..

end Spec

/-- Settles O10: the stage by its rise or fall, and each monitor's word by the one write among a reading's that is of its register. -/
theorem monitorsSetTheThermalStage : Obligations.MonitorsSetTheThermalStage :=
  ⟨stageNext_spec, fun _ _ now s => ⟨exec_sensorRead_early, exec_roMonUpdate_early,
    fun h => ⟨_, exec_sensorRead_due h, fun _ _ hn => s.rd_monitorsRead_temp hn, fun _ _ => s.rf_monitorsRead_therm,
      fun _ _ hn => s.rd_monitorsRead_vmon hn, fun _ => s.rb_monitorsRead⟩,
    fun hreset hdue => ⟨_, exec_roMonUpdate_due hreset hdue, fun _ _ hn => s.rf_roReported hn, s.rb_roReported now,
      s.tile_roReported now⟩,
    fun h => ⟨_, exec_dutyWindow_begins h, fun _ => s.duty_dutyBegun _, s.dutyWin_dutyBegun _, s.rb_dutyBegun _⟩⟩⟩

end Sys2Proof.Machine
end

section
/-! RF commands of a radio and their path (R116, R120, R128, R131, R132). -/

namespace Sys2Proof.Machine

open Reg

variable {s : State} {by_ : Req} {r : Fin 3}

theorem exec_rfTune_eq (by_ : Req) (r : Fin 3) (tag : Tag) (s : State) : exec (.rfTune by_ r tag) s = execRfTune by_ r tag s := rfl
theorem exec_rfFemScan_eq (by_ : Req) (r : Fin 3) (tag : Tag) (s : State) : exec (.rfFemScan by_ r tag) s = execRfFemScan by_ r tag s := rfl
theorem exec_rfChainOff_eq (by_ : Req) (r : Fin 3) (tag : Tag) (chain : BitVec 8) (s : State) :
    exec (.rfChainOff by_ r tag chain) s = execRfChainOff by_ r tag chain s := rfl
theorem exec_rfChainOn_eq (by_ : Req) (r : Fin 3) (tag : Tag) (chain : BitVec 8) (s : State) :
    exec (.rfChainOn by_ r tag chain) s = execRfChainOn by_ r tag chain s := rfl
theorem exec_rfCmdIllegalOp_eq (by_ : Req) (r : Fin 3) (tag : Tag) (op : BitVec 8) (s : State) :
    exec (.rfCmdIllegalOp by_ r tag op) s = execRfCmdIllegalOp by_ r tag op s := rfl
theorem exec_rfResultAck_eq (by_ : Req) (r : Fin 3) (tag : Tag) (s : State) :
    exec (.rfResultAck by_ r tag) s = execRfResultAck by_ r tag s := rfl

/-- A tile that accepts a requester is READY, DRAINING or HELD. -/
theorem State.active_of_accepts {t : Nat} (ha : s.accepts by_ t = true) : s.active t = true := by
  simp only [State.accepts, State.active, Bool.or_eq_true, Bool.and_eq_true] at ha ⊢
  exact ha.imp_right And.left

theorem State.pathAck_posted {res : RegId} {lo : Nat} {tag : Tag} (hv : s.rbit res 31 = true) (ht : s.pathTag res lo = tag) :
    s.pathAck res lo tag = s.wr res 0 := by
  simp [State.pathAck, hv, ht]

section Path
variable (ha : s.accepts by_ (rTile r.val) = true)
include ha

theorem State.rfCmd_free (f : State → State) (hf : s.pathFree (RADIO.RF_RESULT r.val) = true) : s.rfCmd by_ r.val f = f s := by
  rw [State.rfCmd, State.onWrite_accepts _ ha, if_pos hf]
theorem State.rfCmd_busy (f : State → State) (hf : s.pathFree (RADIO.RF_RESULT r.val) = false) :
    s.rfCmd by_ r.val f = s.sat (RADIO.RF_ERR_CNT r.val) 31 24 1 := by
  rw [State.rfCmd, State.onWrite_accepts _ ha, hf]
  rfl

/-- The RF commands that a path in use drops and counts (R132). -/
theorem exec_rf_dropped (hf : s.pathFree (RADIO.RF_RESULT r.val) = false) {tag : Tag} {chain : BitVec 8} {i : Instr}
    (hi : i ∈ [Instr.rfTune by_ r tag, .rfCalAll by_ r tag, .rfFemScan by_ r tag, .rfChainOff by_ r tag chain,
      .rfChainOn by_ r tag chain]) : exec i s = .next (s.sat (RADIO.RF_ERR_CNT r.val) 31 24 1) := by
  simp only [List.mem_cons, List.not_mem_nil, or_false] at hi
  rcases hi with rfl | rfl | rfl | rfl | rfl <;> exact congrArg _ (State.rfCmd_busy ha _ hf)

theorem exec_rfResultAck {tag : Tag} (hv : s.rbit (RADIO.RF_RESULT r.val) 31 = true)
    (ht : s.pathTag (RADIO.RF_RESULT r.val) 16 = tag) :
    exec (.rfResultAck by_ r tag) s = .next (s.wr (RADIO.RF_RESULT r.val) 0) := by
  rw [exec_rfResultAck_eq, execRfResultAck, State.onWrite_accepts _ ha, State.pathAck_posted hv ht]

section Free
variable (hf : s.pathFree (RADIO.RF_RESULT r.val) = true) {tag : Tag}
include hf

theorem exec_rfCalAll : exec (.rfCalAll by_ r tag) s = .next (if s.life (rTile r.val) = .held then
    (s.pathBusy (RADIO.RF_RESULT r.val) 16 tag).modRadio r.val fun x => { x with rf := .calAll, rfStart := s.clock }
    else s.rfPost r.val tag 2 0) := congrArg _ (State.rfCmd_free ha _ hf)

theorem exec_rfFemScan : exec (.rfFemScan by_ r tag) s = .next
    ((s.pathBusy (RADIO.RF_RESULT r.val) 16 tag).modRadio r.val fun x => { x with rf := .femScan, rfStart := s.clock }) := by
  rw [exec_rfFemScan_eq, execRfFemScan, State.rfCmd_free ha _ hf]
  exact congrArg _ (if_pos (State.active_of_accepts ha))

theorem exec_rfCmdIllegalOp {op : BitVec 8} (ho : op.toNat = 0 ∨ 5 < op.toNat) :
    exec (.rfCmdIllegalOp by_ r tag op) s = .next (s.rfPost r.val tag 2 0) := by
  rw [exec_rfCmdIllegalOp_eq, execRfCmdIllegalOp, State.rfCmd_free ha _ hf, if_neg (by simp; omega)]

section Chain
variable {chain : BitVec 8}

/-- The number of a chain is judged before anything else of it (R131). -/
theorem exec_rfChain_past (hc : 7 < chain.toNat) : exec (.rfChainOff by_ r tag chain) s = .next (s.rfPost r.val tag 2 0) ∧
    exec (.rfChainOn by_ r tag chain) s = .next (s.rfPost r.val tag 2 0) := by
  constructor <;> simp [exec_rfChainOff_eq, exec_rfChainOn_eq, execRfChainOff, execRfChainOn, State.rfCmd_free ha _ hf, hc]

variable (hc : chain.toNat ≤ 7)
include hc

omit hf in
theorem chain_inRange : ¬ (!s.rfLive r.val || decide (7 < chain.toNat)) = true := by
  simp [State.rfLive, State.active_of_accepts ha, hc]

theorem exec_rfChainOff : exec (.rfChainOff by_ r tag chain) s = .next (((s.pathBusy (RADIO.RF_RESULT r.val) 16 tag).modRadio
    r.val fun x => { x with rf := .chainOff, offPend := 2 ^ chain.toNat, rfStart := s.clock }).chainsAtEnd r.val) := by
  rw [exec_rfChainOff_eq, execRfChainOff, State.rfCmd_free ha _ hf]
  exact congrArg _ (if_neg (chain_inRange ha hc))

theorem exec_rfChainOn_off (h1 : s.chain r.val chain.toNat = 1)
    (hb : (s.rf (RADIO.RF_BOARD r.val) 15 8).testBit chain.toNat = true) : exec (.rfChainOn by_ r tag chain) s =
      .next ((s.setChains r.val (2 ^ chain.toNat) 0).rfPost r.val tag 0 ((s.setChains r.val (2 ^ chain.toNat) 0).activeMask r.val)) := by
  rw [exec_rfChainOn_eq, execRfChainOn, State.rfCmd_free ha _ hf]
  exact congrArg _ ((if_neg (chain_inRange ha hc)).trans (if_pos (by simp [h1, hb])))

theorem exec_rfChainOn_noFem (h : s.chain r.val chain.toNat ≠ 1 ∨ (s.rf (RADIO.RF_BOARD r.val) 15 8).testBit chain.toNat = false) :
    exec (.rfChainOn by_ r tag chain) s = .next (s.rfPost r.val tag 5 (s.activeMask r.val)) := by
  rw [exec_rfChainOn_eq, execRfChainOn, State.rfCmd_free ha _ hf]
  refine congrArg _ ((if_neg (chain_inRange ha hc)).trans (if_neg ?_))
  rcases h with h | h <;> simp [h]

end Chain

/-! TUNE on a free path, by the first refusal that it meets. -/

/-- What a TUNE that is taken leaves: the reception aborted, the slice yielded, and its start where nothing is sent (R116). -/
def State.tuneTaken (s : State) (n : Nat) (tag : Tag) : State :=
  let c := s.rd (RADIO.RF_CHAN n)
  let tuned := s.rd (RADIO.RF_TUNED n)
  let s1 := (s.pathBusy (RADIO.RF_RESULT n) 16 tag).modRadio n fun x => { x with
    rfStart := s.clock, rfChan := c, bandChange := fld tuned 28 0 = 0 || fld tuned 25 24 != fld c 25 24, rf := .tuneWait }
  let s2 := ((s1.rxAbort n 9).sliceYield n).modRadio n fun x => { x with calProg := [] }
  let s3 := if fld tuned 28 0 = 0 ∨ fld tuned 28 8 = fld c 28 8 then s2 else s2.tpRetuned n
  if s3.sending n then s3 else s3.tuneStart n

theorem exec_rfTune_state (hr : s.life (rTile r.val) ≠ .ready) (hh : s.life (rTile r.val) ≠ .held) :
    exec (.rfTune by_ r tag) s = .next (s.rfPost r.val tag 2 0) := by
  simp [exec_rfTune_eq, execRfTune, State.rfCmd_free ha _ hf, hr, hh]

variable (hl : s.life (rTile r.val) = .ready ∨ s.life (rTile r.val) = .held)
include hl

omit ha hf in
theorem tune_inState : ¬ (s.life (rTile r.val) != .ready && s.life (rTile r.val) != .held) = true := by
  rcases hl with h | h <;> simp [h]

theorem exec_rfTune_channel (hc : chanOk (s.rd (RADIO.RF_CHAN r.val)) = false) :
    exec (.rfTune by_ r tag) s = .next (s.rfPost r.val tag 1 0) := by
  rw [exec_rfTune_eq, execRfTune, State.rfCmd_free ha _ hf]
  exact congrArg _ ((if_neg (tune_inState hl)).trans (if_pos (by rw [hc]; rfl)))

variable (hc : chanOk (s.rd (RADIO.RF_CHAN r.val)) = true)
include hc

theorem exec_rfTune_noFem (hm : s.activeMask r.val = 0) : exec (.rfTune by_ r tag) s = .next (s.rfPost r.val tag 5 0) := by
  rw [exec_rfTune_eq, execRfTune, State.rfCmd_free ha _ hf]
  exact congrArg _ ((if_neg (tune_inState hl)).trans ((if_neg (by simp [hc])).trans (if_pos hm)))

variable (hm : s.activeMask r.val ≠ 0)
include hm

theorem exec_rfTune_band (hr : s.life (rTile r.val) = .ready) (h0 : fld (s.rd (RADIO.RF_TUNED r.val)) 28 0 ≠ 0)
    (hb : fld (s.rd (RADIO.RF_TUNED r.val)) 25 24 ≠ fld (s.rd (RADIO.RF_CHAN r.val)) 25 24) :
    exec (.rfTune by_ r tag) s = .next (s.rfPost r.val tag 2 0) := by
  rw [exec_rfTune_eq, execRfTune, State.rfCmd_free ha _ hf]
  exact congrArg _ ((if_neg (tune_inState hl)).trans ((if_neg (by simp [hc])).trans ((if_neg hm).trans
    (if_pos (by simp [hr, h0, hb])))))

theorem exec_rfTune_taken (h : s.life (rTile r.val) = .held ∨ fld (s.rd (RADIO.RF_TUNED r.val)) 28 0 = 0 ∨
      fld (s.rd (RADIO.RF_TUNED r.val)) 25 24 = fld (s.rd (RADIO.RF_CHAN r.val)) 25 24) :
    exec (.rfTune by_ r tag) s = .next (s.tuneTaken r.val tag) := by
  rw [exec_rfTune_eq, execRfTune, State.rfCmd_free ha _ hf]
  refine congrArg _ ((if_neg (tune_inState hl)).trans ((if_neg (by simp [hc])).trans ((if_neg hm).trans ((if_neg ?_).trans ?_))))
  · rcases h with h | h | h <;> simp [h]
  · simp only [State.tuneTaken, Bool.or_eq_true, decide_eq_true_eq]

end Free
end Path

/-- Settles O24: each command by its path and, where that is free, by the first refusal of its own that it meets. -/
theorem rfCommandsStartOrRefuse : Obligations.RfCommandsStartOrRefuse := by
  intro by_ r tag chain op s ha n res c tuned taken
  refine ⟨fun hf => ⟨exec_rfTune_state ha hf, fun hl => ⟨exec_rfTune_channel ha hf hl, exec_rfTune_noFem ha hf hl,
      exec_rfTune_band ha hf hl, exec_rfTune_taken ha hf hl⟩, fun hh => ?_, fun hh => ?_, exec_rfFemScan ha hf,
      exec_rfChainOff ha hf, fun hc => ⟨exec_rfChainOn_off ha hf hc, exec_rfChainOn_noFem ha hf hc⟩, exec_rfChain_past ha hf,
      exec_rfCmdIllegalOp ha hf⟩, fun hf i => exec_rf_dropped ha hf, exec_rfResultAck ha⟩
  · rw [exec_rfCalAll ha hf, if_pos hh]
  · rw [exec_rfCalAll ha hf, if_neg hh]

end Sys2Proof.Machine
end

section
/-! The ends of RF commands (R115 to R117): the second attempt of a TUNE without lock, where a chain still waits to go off. -/

namespace Sys2Proof.Machine

open Reg

theorem exec_tuneLockTimeout_eq (r : Fin 3) (s : State) : exec (.tuneLockTimeout r) s = execTuneLockTimeout r s := rfl

/-- Radio 0 READY with its sequencer running and a reception in progress, 80 µs into the second attempt of a TUNE, and chain 0 still
marked to go off at the end of the PPDU. -/
def tuneBesideChainOff : State :=
  { State.reset with
    clock := 40000
    tiles := [(2, { life := .ready })]
    regs := [(RADIO.SEQ_STATUS 0, 0x80000000)]
    radios := [(0, { rf := .tuning true, offPend := 1, rx := { phase := .stage1 } })] }

/-- FAULT stops the sequencer, which aborts the reception; the chain goes off at that PPDU's end and posts code 0 over the TUNE's. -/
theorem tuneLockTimeout_overwritten :
    (tuneBesideChainOff.faultHook (tuneBesideChainOff.tuneTimeout 0) (rTile 0)).rf (RADIO.RF_RESULT 0) 26 24 = 0 := by
  decide +kernel

/-- Refutes O25: in `tuneBesideChainOff` the failed TUNE's code 3 does not stand, since the chain that goes off as FAULT stops the
sequencer posts its own result over it. -/
theorem not_rfCommandsEnd : ¬ Obligations.RfCommandsEnd := by
  intro h
  obtain ⟨-, -, -, -, hsecond, -⟩ := h 0 false false [] tuneBesideChainOff
  obtain ⟨u, hu, -, -, hcode⟩ := (hsecond (by decide +kernel) (by decide +kernel)).2 (by decide +kernel)
  rw [exec_tuneLockTimeout_eq, execTuneLockTimeout] at hu
  injection hu with hu
  rw [← hu] at hcode
  exact absurd (hcode.symm.trans tuneLockTimeout_overwritten) (by decide)

end Sys2Proof.Machine
end

section
/-! Chains of a radio: masks over them, their states as CHAIN_STATUS holds them, and what takes them out of service (R119, R121). -/

namespace Sys2Proof.Machine

open Reg

/-! A mask made bit by bit. -/

theorem bitSum_lt (f : Nat → Bool) (n : Nat) : ((List.range n).map fun k => if f k then 2 ^ k else 0).sum < 2 ^ n := by
  induction n with
  | zero => exact Nat.one_pos
  | succ n ih =>
    rw [List.range_succ, List.map_append, List.sum_append, List.map_singleton, List.sum_singleton, Nat.pow_succ]
    split <;> omega

/-- Bit `k` of the mask is the test of `k`. -/
theorem testBit_bitSum (f : Nat → Bool) {n k : Nat} (hk : k < n) :
    ((List.range n).map fun k => if f k then 2 ^ k else 0).sum.testBit k = f k := by
  induction n with
  | zero => exact absurd hk (Nat.not_lt_zero k)
  | succ n ih =>
    have hlt := bitSum_lt f n
    rw [List.range_succ, List.map_append, List.sum_append, List.map_singleton, List.sum_singleton]
    generalize ((List.range n).map fun k => if f k then 2 ^ k else 0).sum = a at hlt ih ⊢
    rcases Nat.lt_succ_iff_lt_or_eq.mp hk with h | rfl
    · rw [← ih h]
      split
      · rw [Nat.add_comm, Nat.testBit_two_pow_add_gt h]
      · rfl
    · split
      next hf => rw [Nat.add_comm, Nat.testBit_two_pow_add_eq, Nat.testBit_lt_two_pow hlt, hf]; rfl
      next hf => rw [Nat.add_zero, Nat.testBit_lt_two_pow hlt]; simpa using hf

variable (s : State)

/-! Reads of the link records' bytes and of registers beside those of the chains. -/

theorem State.rd_syncStreams (r : Nat) (a : RegId) : (s.syncStreams r).rd a = s.rd a := by
  refine State.foldl_frame (·.rd a) (fun u e => ?_) ..
  dsimp only
  split <;> rfl

/-- What the writes of the chains' registers leave alone: RF_CHAINS and MAC_CAP show the chains, CHAIN_STATUS holds them. -/
theorem State.rd_syncChains {r : Nat} {a : RegId} (hc : a ≠ RADIO.RF_CHAINS r) (hm : a ≠ RADIO.MAC_CAP r) :
    (s.syncChains r).rd a = s.rd a := by
  rw [State.syncChains, State.rd_syncStreams, State.rd_wr_ne _ _ hm, State.rd_wr_ne _ _ hc]

theorem chainStatus_inj {r k j : Nat} (h : RADIO.CHAIN_STATUS r k = RADIO.CHAIN_STATUS r j) : k = j := by
  have h' : 0x2001080 + 0x1000000 * r + 4 * k = 0x2001080 + 0x1000000 * r + 4 * j := h
  omega
theorem chainStatus_ne_rfChains {r k : Nat} : RADIO.CHAIN_STATUS r k ≠ RADIO.RF_CHAINS r := by
  intro h
  have h' : 0x2001080 + 0x1000000 * r + 4 * k = 0x200101C + 0x1000000 * r := h
  omega
theorem chainStatus_ne_macCap {r k : Nat} (hk : k < 8) : RADIO.CHAIN_STATUS r k ≠ RADIO.MAC_CAP r := by
  intro h
  have h' : 0x2001080 + 0x1000000 * r + 4 * k = 0x20040C0 + 0x1000000 * r := h
  omega

/-- A chain's state follows its own CHAIN_STATUS alone. -/
theorem State.chain_congr {s u : State} {r k : Nat} (h : u.rd (RADIO.CHAIN_STATUS r k) = s.rd (RADIO.CHAIN_STATUS r k)) :
    u.chain r k = s.chain r k := by
  rw [State.chain, State.rf, h]
  rfl
@[simp] theorem State.chain_modRadio (q : Nat) (f : Radio → Radio) (r k : Nat) : (s.modRadio q f).chain r k = s.chain r k := rfl
@[simp] theorem State.chain_evt (t n r k : Nat) : (s.evt t n).chain r k = s.chain r k := State.chain_congr (State.rd_evt ..)

/-- The states of the chains below `m` that are in a mask are put there one by one. -/
theorem State.chain_putChains (r mask st m k : Nat) : ((List.range m).foldl (fun s n =>
      if mask.testBit n then s.wf (RADIO.CHAIN_STATUS r n) 31 30 st else s) s).chain r k =
    if k < m ∧ mask.testBit k = true then st % 4 else s.chain r k := by
  induction m with
  | zero => rw [if_neg (by omega)]; rfl
  | succ m ih =>
    rw [List.range_succ, List.foldl_append, List.foldl_cons, List.foldl_nil]
    generalize (List.range m).foldl (fun s n => if mask.testBit n then s.wf (RADIO.CHAIN_STATUS r n) 31 30 st else s) s = u at ih ⊢
    by_cases hk : k = m
    · subst hk
      rw [if_neg (by omega)] at ih
      by_cases hb : mask.testBit k = true
      · rw [if_pos hb, if_pos ⟨Nat.lt_succ_self k, hb⟩, State.chain, State.rf, State.rd_wf_self,
          fld_putFld_self _ _ (by decide) (by decide)]
        rfl
      · rw [if_neg hb, if_neg fun h => hb h.2, ih]
    · have hkeep : (if mask.testBit m then u.wf (RADIO.CHAIN_STATUS r m) 31 30 st else u).chain r k = u.chain r k := by
        split
        · exact State.chain_congr (State.rd_wf_ne _ _ _ _ fun h => hk (chainStatus_inj h))
        · rfl
      rw [hkeep, ih]
      exact if_congr (and_congr_left' (by omega)) rfl rfl

/-- The chains of a mask are in the state put there, the others where they were. -/
theorem State.chain_setChains (r mask st : Nat) {k : Nat} (hk : k < 8) :
    (s.setChains r mask st).chain r k = if mask.testBit k = true then st % 4 else s.chain r k := by
  rw [State.setChains, State.chain_congr (State.rd_syncChains _ chainStatus_ne_rfChains (chainStatus_ne_macCap hk)),
    State.chain_putChains]
  exact if_congr (and_iff_right hk) rfl rfl

/-- The ACTIVE chains that name a USID, bit by bit. -/
theorem State.testBit_usidChains (r usid : Nat) {k : Nat} (hk : k < 8) :
    (s.usidChains r usid).testBit k = true ↔ s.chain r k = 0 ∧ (s.femDesc r k).1 = usid := by
  rw [State.usidChains, testBit_bitSum (fun n => s.chain r n = 0 && s.rf (RADIO.FEM_DESC r n) 31 28 = usid) hk,
    Bool.and_eq_true, decide_eq_true_eq, decide_eq_true_eq]
  rfl

/-- What leaves the transmission, the response and the reception of a radio alone leaves it as busy as it was. -/
theorem State.ppduInProgress_modRadio {r : Nat} {f : Radio → Radio} (htx : (f (s.radio r)).tx = (s.radio r).tx)
    (hresp : (f (s.radio r)).resp = (s.radio r).resp) (hrx : (f (s.radio r)).rx = (s.radio r).rx) :
    (s.modRadio r f).ppduInProgress r = s.ppduInProgress r := by
  simp only [State.ppduInProgress, State.sending, State.radio_modRadio_self, htx, hresp, hrx]

/-- Chains lost go out of service where no PPDU is in progress and nothing else waits for its end (R121). -/
theorem State.chain_chainsAtEnd_lost {r : Nat} (hidle : s.ppduInProgress r = false) (htp : (s.radio r).tpRst = 0)
    (hoff : (s.radio r).offPend = 0) {k : Nat} (hk : k < 8) :
    (s.chainsAtEnd r).chain r k = if (s.radio r).lostPend.testBit k = true then 2 else s.chain r k := by
  unfold State.chainsAtEnd
  rw [hidle]
  simp only [Bool.false_eq_true, if_false, htp, hoff, if_true]
  split
  next h => rw [h, Nat.zero_testBit, if_neg (by decide)]
  next => rw [State.chain_evt, State.chain_setChains _ _ _ _ hk, State.chain_modRadio]

end Sys2Proof.Machine
end

section
/-! The RFFE bus: its commands, the end of a transaction, and the health polls (R118, R121, R132). -/

namespace Sys2Proof.Machine

open Reg

variable {s : State} {by_ : Req} {r : Fin 3}

theorem exec_rffeTransactionDone_eq (r : Fin 3) (ok : Bool) (data : Byte) (s : State) :
    exec (.rffeTransactionDone r ok data) s = execRffeTransactionDone r ok data s := rfl
theorem exec_rffeIllegalKind_eq (by_ : Req) (r : Fin 3) (kind : BitVec 4) (tag : Tag) (s : State) :
    exec (.rffeIllegalKind by_ r kind tag) s = execRffeIllegalKind by_ r kind tag s := rfl
theorem exec_rffeAck_eq (by_ : Req) (r : Fin 3) (tag : Tag) (s : State) : exec (.rffeAck by_ r tag) s = execRffeAck by_ r tag s := rfl
theorem exec_femHealthPoll_eq (r : Fin 3) (ids : List (Option (BitVec 8))) (s : State) :
    exec (.femHealthPoll r ids) s = execFemHealthPoll r ids s := rfl

/-! Commands (R132). -/

section Command
variable (ha : s.accepts by_ (rTile r.val) = true)
include ha

theorem exec_rffeAck {tag : Tag} (hv : s.rbit (RADIO.RFFE_RESULT r.val) 31 = true)
    (ht : s.pathTag (RADIO.RFFE_RESULT r.val) 8 = tag) :
    exec (.rffeAck by_ r tag) s = .next (s.wr (RADIO.RFFE_RESULT r.val) 0) := by
  rw [exec_rffeAck_eq, execRffeAck, State.onWrite_accepts _ ha, State.pathAck_posted hv ht]

variable (hf : s.pathFree (RADIO.RFFE_RESULT r.val) = true) {tag : Tag}
include hf

theorem State.rffeCmd_free (f : State → State) : s.rffeCmd by_ r.val f = f s := by
  rw [State.rffeCmd, State.onWrite_accepts _ ha, if_pos hf]

theorem State.rffeQueue_free (t : RffeTxn) : s.rffeQueue by_ r.val tag t =
    (s.pathBusy (RADIO.RFFE_RESULT r.val) 8 tag).modRadio r.val fun x => { x with rffe := some t, rffeAt := s.clock } :=
  State.rffeCmd_free ha hf _

theorem exec_rffeIllegalKind {kind : BitVec 4} (hk : 5 ≤ kind.toNat) : exec (.rffeIllegalKind by_ r kind tag) s =
    .next ((s.pathPost (RADIO.RFFE_RESULT r.val) 8 tag (2 * 2 ^ 28)).evt (rTile r.val) 21) := by
  rw [exec_rffeIllegalKind_eq, execRffeIllegalKind, if_neg (Nat.not_lt.mpr hk), State.rffeCmd_free ha hf]

end Command

/-! The end of a transaction (R118, R121). -/

/-- A transaction has ended, its result posted with the event. -/
def State.rffeEnded (s : State) (n rest : Nat) : State :=
  ((s.modRadio n fun x => { x with rffe := none }).pathPost (RADIO.RFFE_RESULT n) 8 (s.pathTag (RADIO.RFFE_RESULT n) 8) rest).evt
    (rTile n) 21

section Done
variable {t : RffeTxn} {data : Byte} (ht : (s.radio r.val).rffe = some t)
  (hscan : ¬ ((s.radio r.val).rf = .femScan ∧ (s.radio r.val).rfStart < (s.radio r.val).rffeAt))
  (hpoll : s.pollBefore r.val (s.radio r.val).rffeAt = false)
include ht hscan hpoll

/-- With nothing older on the bus a transaction ends by whether it reads and is answered. -/
theorem exec_rffeTransactionDone (ok : Bool) : exec (.rffeTransactionDone r ok data) s =
    .next (if ok || !(t.kind = 1 || t.kind = 3) then s.rffeEnded r.val (if t.kind = 1 || t.kind = 3 then data.toNat else 0)
      else (s.rffeEnded r.val (2 ^ 28)).femMiss r.val t.usid) := by
  have hfirst : ((decide ((s.radio r.val).rf = .femScan) && decide ((s.radio r.val).rfStart < (s.radio r.val).rffeAt)) ||
      s.pollBefore r.val (s.radio r.val).rffeAt) = false := by
    rw [hpoll, Bool.or_false, ← Bool.decide_and]
    exact decide_eq_false hscan
  rw [exec_rffeTransactionDone_eq, execRffeTransactionDone]
  simp only [ht, hfirst, Bool.false_eq_true, if_false, State.rffeEnded, -Nat.reducePow]
  cases ok || !(decide (t.kind = 1) || decide (t.kind = 3)) <;>
    simp only [Bool.false_eq_true, if_false, if_true, -Nat.reducePow]

theorem exec_rffeTransactionDone_read (hk : t.kind = 1 ∨ t.kind = 3) :
    exec (.rffeTransactionDone r true data) s = .next (s.rffeEnded r.val data.toNat) ∧
      exec (.rffeTransactionDone r false data) s = .next ((s.rffeEnded r.val (2 ^ 28)).femMiss r.val t.usid) := by
  have hread : (decide (t.kind = 1) || decide (t.kind = 3)) = true := by simpa using hk
  simp [exec_rffeTransactionDone ht hscan hpoll, hread]

theorem exec_rffeTransactionDone_write (h1 : t.kind ≠ 1) (h3 : t.kind ≠ 3) (ok : Bool) :
    exec (.rffeTransactionDone r ok data) s = .next (s.rffeEnded r.val 0) := by
  simp [exec_rffeTransactionDone ht hscan hpoll, h1, h3]

end Done

/-! Health polls (R121). -/

/-- The ACTIVE chains that name a USID, as a poll finds them. -/
def State.usidUses (s : State) (n u : Nat) : List Nat :=
  (List.range 8).filter fun c => s.chain n c = 0 && (s.femDesc n c).1 = u
/-- A USID answers with the product ID of every chain in use that names it. -/
def State.usidGood (s : State) (n : Nat) (ids : List (Option (BitVec 8))) (u : Nat) : Bool :=
  (s.usidUses n u).all fun c => (ids.getD u none).map (·.toNat) = some (s.femDesc n c).2.1
/-- What a poll does for one USID. -/
def State.pollUsid (s : State) (n : Nat) (ids : List (Option (BitVec 8))) (u : Nat) : State :=
  if (s.usidUses n u).isEmpty then s
  else if s.usidGood n ids u then s.modRadio n fun x => { x with misses := tput (fun _ => 0) x.misses u 0 }
  else s.femMiss n u
/-- The misses of a USID in succession. -/
def State.missesOf (s : State) (n u : Nat) : Nat := tget (fun _ => 0) (s.radio n).misses u
/-- The misses of a USID as a poll leaves them. -/
def State.polledMisses (s : State) (n : Nat) (ids : List (Option (BitVec 8))) (u : Nat) : Nat :=
  if (s.usidUses n u).isEmpty then s.missesOf n u else if s.usidGood n ids u then 0 else s.missesOf n u + 1

section Poll
variable (s : State) (n : Nat)

/-- A miss that is not the third counts, and does nothing else. -/
theorem State.femMiss_counts {u : Nat} (h : s.missesOf n u < 2) : s.femMiss n u =
    (s.sat (RADIO.RF_ERR_CNT n) 15 0 1).modRadio n fun x => { x with misses := tput (fun _ => 0) x.misses u (s.missesOf n u + 1) } := by
  have h3 : tget (fun _ => 0) (s.radio n).misses u + 1 < 3 := Nat.succ_lt_succ h
  exact if_pos h3

/-- The third miss marks the chains that name the USID as lost, for the end of the PPDU in progress. -/
theorem State.femMiss_third {u : Nat} (h : 2 ≤ s.missesOf n u) : s.femMiss n u =
    ((s.sat (RADIO.RF_ERR_CNT n) 15 0 1).modRadio n fun x => { x with
      misses := tput (fun _ => 0) x.misses u 0, lostPend := x.lostPend ||| s.usidChains n u }).chainsAtEnd n := by
  have h3 : ¬ tget (fun _ => 0) (s.radio n).misses u + 1 < 3 := Nat.not_lt.mpr (Nat.succ_le_succ h)
  exact if_neg h3

theorem femDesc_ne_rfErrCnt {n c : Nat} : RADIO.FEM_DESC n c ≠ RADIO.RF_ERR_CNT n := by
  intro h
  have h' : 0x2001040 + 0x1000000 * n + 4 * c = 0x200102C + 0x1000000 * n := h
  omega
theorem chainStatus_ne_rfErrCnt {n c : Nat} : RADIO.CHAIN_STATUS n c ≠ RADIO.RF_ERR_CNT n := by
  intro h
  have h' : 0x2001080 + 0x1000000 * n + 4 * c = 0x200102C + 0x1000000 * n := h
  omega

/-- What a poll of USIDs leaves of another state: all headers, all registers but the count of misses, and the radio's hidden state but
the misses themselves. -/
structure State.Polled (n : Nat) (s u : State) : Prop where
  tile : ∀ t, u.tile t = s.tile t
  rd : ∀ a, a ≠ RADIO.RF_ERR_CNT n → u.rd a = s.rd a
  pollAt : (u.radio n).pollAt = (s.radio n).pollAt

namespace State.Polled
variable {s n} {u : State} (h : State.Polled n s u)
include h

theorem femDesc (c : Nat) : u.femDesc n c = s.femDesc n c := by
  simp only [State.femDesc, State.rf, h.rd _ femDesc_ne_rfErrCnt]
theorem chain (c : Nat) : u.chain n c = s.chain n c := State.chain_congr (h.rd _ chainStatus_ne_rfErrCnt)
theorem usidUses (k : Nat) : u.usidUses n k = s.usidUses n k := by
  simp only [State.usidUses, h.chain, h.femDesc]
theorem usidGood (ids : List (Option (BitVec 8))) (k : Nat) : u.usidGood n ids k = s.usidGood n ids k := by
  simp only [State.usidGood, h.usidUses, h.femDesc]

/-- One more USID polled, its misses below two, leaves as much. -/
theorem pollUsid {ids : List (Option (BitVec 8))} {k : Nat} (hm : u.missesOf n k < 2) : State.Polled n s (u.pollUsid n ids k) := by
  obtain ⟨htile, hrd, hpoll⟩ := h
  unfold State.pollUsid
  split
  · exact ⟨htile, hrd, hpoll⟩
  · split
    · exact ⟨htile, hrd, by rwa [State.radio_modRadio_self]⟩
    · rw [State.femMiss_counts _ _ hm]
      exact ⟨htile, fun a ha => (State.rd_wf_ne _ _ _ _ ha).trans (hrd a ha), by rwa [State.radio_modRadio_self]⟩

end State.Polled

theorem State.missesOf_modRadio (m : Tbl Nat → Tbl Nat) (k : Nat) :
    (s.modRadio n fun x => { x with misses := m x.misses }).missesOf n k = tget (fun _ => 0) (m (s.radio n).misses) k := by
  rw [State.missesOf, State.radio_modRadio_self]

/-- A poll of one USID sets its own misses alone. -/
theorem State.missesOf_pollUsid (ids : List (Option (BitVec 8))) {j k : Nat} (hm : s.missesOf n j < 2) :
    (s.pollUsid n ids j).missesOf n k = if k = j then s.polledMisses n ids j else s.missesOf n k := by
  unfold State.pollUsid State.polledMisses
  split
  · split
    next h => rw [h]
    next => rfl
  · split
    · rw [State.missesOf_modRadio s n (fun m => tput (fun _ => 0) m j 0), tget_tput]
      rfl
    · rw [State.femMiss_counts _ _ hm,
        State.missesOf_modRadio _ n (fun m => tput (fun _ => 0) m j (s.missesOf n j + 1)), tget_tput]
      rfl

/-- The USIDs below `m` polled in turn, none of them near its third miss. -/
theorem State.polled_range (ids : List (Option (BitVec 8))) {m : Nat} (hm : ∀ k, k < m → s.missesOf n k < 2) :
    State.Polled n s ((List.range m).foldl (fun u k => u.pollUsid n ids k) s) ∧
      ∀ k, ((List.range m).foldl (fun u k => u.pollUsid n ids k) s).missesOf n k =
        if k < m then s.polledMisses n ids k else s.missesOf n k := by
  induction m with
  | zero => exact ⟨⟨fun _ => rfl, fun _ _ => rfl, rfl⟩, fun k => by rw [if_neg (Nat.not_lt_zero k)]; rfl⟩
  | succ m ih =>
    obtain ⟨hpolled, hmiss⟩ := ih fun k hk => hm k (Nat.lt_succ_of_lt hk)
    rw [List.range_succ, List.foldl_append, List.foldl_cons, List.foldl_nil]
    generalize (List.range m).foldl (fun u k => u.pollUsid n ids k) s = u at hpolled hmiss ⊢
    have hmm : u.missesOf n m = s.missesOf n m := by rw [hmiss, if_neg (Nat.lt_irrefl m)]
    have hlt : u.missesOf n m < 2 := hmm ▸ hm m (Nat.lt_succ_self m)
    refine ⟨hpolled.pollUsid hlt, fun k => ?_⟩
    rw [State.missesOf_pollUsid _ _ _ hlt]
    by_cases hk : k = m
    · subst hk
      rw [if_pos rfl, if_pos (Nat.lt_succ_self k), State.polledMisses, State.polledMisses, hpolled.usidUses, hpolled.usidGood, hmm]
    · rw [if_neg hk, hmiss]
      exact if_congr (by omega) rfl rfl

/-- A poll that is due, with nothing older on the bus, goes over the sixteen USIDs. -/
theorem exec_femHealthPoll {r : Fin 3} {s : State} (ids : List (Option (BitVec 8))) (hact : s.active (rTile r.val) = true)
    (hdue : (s.radio r.val).pollAt + 50000000 ≤ s.clock)
    (hbus : (s.radio r.val).rffe = none ∨ (s.radio r.val).pollAt + 50000000 ≤ (s.radio r.val).rffeAt)
    (hscan : (s.radio r.val).rf = .femScan → (s.radio r.val).pollAt + 50000000 ≤ (s.radio r.val).rfStart) :
    exec (.femHealthPoll r ids) s = .next ((List.range 16).foldl (fun u k => u.pollUsid r.val ids k)
      (s.modRadio r.val fun x => { x with pollAt := s.clock })) := by
  rw [exec_femHealthPoll_eq, execFemHealthPoll]
  refine congrArg _ (if_neg ?_)
  simp only [hact, Bool.not_true, Bool.false_or, Bool.or_eq_true, Bool.and_eq_true, decide_eq_true_eq, Option.isSome_iff_ne_none]
  rintro ((h | ⟨hsome, h⟩) | ⟨hrf, h⟩)
  · omega
  · exact hbus.elim hsome fun hle => by omega
  · have := hscan hrf
    omega

/-- The third miss in succession takes the ACTIVE chains of a USID out of service (R121). -/
theorem State.chain_femMiss_third {k c : Nat} (hm : 2 ≤ s.missesOf n k) (hidle : s.ppduInProgress n = false)
    (hlost : (s.radio n).lostPend = 0) (hoff : (s.radio n).offPend = 0) (htp : (s.radio n).tpRst = 0) (hc : c < 8) :
    (s.femMiss n k).chain n c = if s.chain n c = 0 ∧ (s.femDesc n c).1 = k then 2 else s.chain n c := by
  rw [State.femMiss_third _ _ hm]
  generalize hv : s.sat (RADIO.RF_ERR_CNT n) 15 0 1 = v
  have hradio : v.radio n = s.radio n := hv ▸ rfl
  have hchain : v.chain n c = s.chain n c :=
    State.chain_congr (hv ▸ State.rd_wf_ne s _ _ _ chainStatus_ne_rfErrCnt)
  have hprog : v.ppduInProgress n = false := hv ▸ hidle
  rw [State.chain_chainsAtEnd_lost _ (by rwa [State.ppduInProgress_modRadio _ rfl rfl rfl])
    (by rwa [State.radio_modRadio_self, hradio]) (by rwa [State.radio_modRadio_self, hradio]) hc,
    State.radio_modRadio_self, State.chain_modRadio, hradio, hchain, hlost]
  exact if_congr (by rw [Nat.zero_or, State.testBit_usidChains _ _ _ hc]) rfl rfl

end Poll

/-- Settles O26: a command by its path, a transaction's end by whether it reads and is answered, a poll USID by USID over
`State.pollUsid`, and the third miss by what the end of the PPDU does with the chains it marks. -/
theorem rffeTransactionsComplete : Obligations.RffeTransactionsComplete := by
  refine ⟨?_, fun n k s _ _ hm hidle hlost hoff htp c hc => s.chain_femMiss_third n hm hidle hlost hoff htp hc⟩
  intro by_ r usid kind addr data tag ids s n x res queued
  refine ⟨fun ha hf => ?_, fun t ht hscan hpoll => ?_, fun ha => exec_rffeAck ha, fun hact hdue hbus hscan hmiss => ?_⟩
  · exact ⟨congrArg _ (State.rffeQueue_free ha hf _), congrArg _ (State.rffeQueue_free ha hf _),
      congrArg _ (State.rffeQueue_free ha hf _), congrArg _ (State.rffeQueue_free ha hf _),
      congrArg _ (State.rffeQueue_free ha hf _), exec_rffeIllegalKind ha hf⟩
  · exact ⟨exec_rffeTransactionDone_read ht hscan hpoll, exec_rffeTransactionDone_write ht hscan hpoll⟩
  · refine ⟨_, exec_femHealthPoll ids hact hdue hbus hscan, ?_⟩
    have hradio : (s.modRadio n fun x => { x with pollAt := s.clock }).radio n = { x with pollAt := s.clock } :=
      State.radio_modRadio_self ..
    obtain ⟨⟨htile, hrd, hpoll⟩, hmisses⟩ := State.polled_range (s.modRadio n fun x => { x with pollAt := s.clock }) n ids
      (m := 16) fun k hk => by rw [State.missesOf, hradio]; exact hmiss k hk
    refine ⟨by rw [hpoll, hradio], htile, hrd, fun k hk => ?_⟩
    intro uses good m
    have hk' := hmisses k
    rw [if_pos hk, State.polledMisses, State.missesOf, State.missesOf, hradio] at hk'
    rw [hk']
    have hempty : ((s.modRadio n fun x => { x with pollAt := s.clock }).usidUses n k).isEmpty = true ↔ uses = [] :=
      List.isEmpty_iff
    have hgood : (s.modRadio n fun x => { x with pollAt := s.clock }).usidGood n ids k = true ↔ good := by
      rw [State.usidGood, List.all_eq_true]
      exact forall₂_congr fun c _ => decide_eq_true_iff
    exact ⟨fun h => if_pos (hempty.mpr h), fun h hg => (if_neg (mt hempty.mp h)).trans (if_pos (hgood.mpr hg)),
      fun h hg => (if_neg (mt hempty.mp h)).trans (if_neg (mt hgood.mp hg))⟩

end Sys2Proof.Machine
end

section
/-! The end of a calibration round (R126, R127) beside a request of a token slot that the arbiter does not have. -/

namespace Sys2Proof.Machine

open Reg

/-- A request for a token waits under a slot whose result would stand in RF_CAL_STATUS of radio 0: `Holder.slot` takes any number, and
16 words a slot from MT_RES reach the radios' registers. -/
def requestBeyondSlots : State :=
  { State.reset with tokenReqs := [{ kind := kTHERM, scope := 2, holder := .slot 0x1FFFD2, tag := 1 }] }

/-- The result of that slot is RF_CAL_STATUS of radio 0. -/
theorem mtRes_eq_rfCalStatus : MGMT.MT_RES 0x1FFFD2 = RADIO.RF_CAL_STATUS 0 := rfl

/-- The token that the round gives back lets the arbiter pass, and its grant is posted over RF_CAL_STATUS. -/
theorem calRound_overwritten :
    requestBeyondSlots.rbit (RADIO.RF_CAL_STATUS 0) 0 = false ∧
    (requestBeyondSlots.calRound 0 0 false).rbit (RADIO.RF_CAL_STATUS 0) 0 = true := by decide +kernel

/-- Refutes O27: in `requestBeyondSlots` the first failure of a round, which leaves the failure bits alone, raises one, since the arbiter's
pass posts a grant of a slot beyond MGMT's over RF_CAL_STATUS. -/
theorem not_calibrationAndGainSteps : ¬ Obligations.CalibrationAndGainSteps := by
  intro h
  obtain ⟨-, -, -, ⟨-, -, -, -, hkept⟩, -⟩ := h .host 0 0 0 0 0 requestBeyondSlots
  obtain ⟨hclear, hset⟩ := calRound_overwritten
  have hsame : (requestBeyondSlots.calRound 0 0 false).rbit (RADIO.RF_CAL_STATUS 0) 0 =
    requestBeyondSlots.rbit (RADIO.RF_CAL_STATUS 0) 0 := hkept (by decide +kernel)
  rw [hclear, hset] at hsame
  exact absurd hsame (by decide)

end Sys2Proof.Machine
end

section
/-! Threads that a start control starts (R41). -/

namespace Sys2Proof.Machine

/-- The place of a thread of an engine names the thread. -/
theorem threadKey_inj {tile eng j k : Nat} (h : threadKey tile eng j = threadKey tile eng k) : j = k := Nat.add_left_cancel h

section Started
variable (s : State) (tile eng : Nat) (bits : Word)

/-- Threads from `m` on are none that the first `m` bits start. -/
theorem State.thread_startThreads_above {m j : Nat} (hj : m ≤ j) :
    (s.startThreads tile eng bits m).thread (threadKey tile eng j) = s.thread (threadKey tile eng j) := by
  induction m with
  | zero => rfl
  | succ m ih =>
    have hne : threadKey tile eng j ≠ threadKey tile eng m := fun h => by
      have := threadKey_inj h
      omega
    rw [State.startThreads]
    split
    · rw [State.thread_setThread_ne _ _ hne, ih (Nat.le_of_succ_le hj)]
    · exact ih (Nat.le_of_succ_le hj)

/-- A start control starts the threads named that are stopped, and no other. -/
theorem State.thread_startThreads {n k : Nat} (hk : k < n) : (s.startThreads tile eng bits n).thread (threadKey tile eng k) =
    if bit bits k && (s.thread (threadKey tile eng k)).run = .stopped then { run := .running }
    else s.thread (threadKey tile eng k) := by
  induction n with
  | zero => exact absurd hk (Nat.not_lt_zero k)
  | succ n ih =>
    rw [State.startThreads, s.thread_startThreads_above tile eng bits (Nat.le_refl n)]
    rcases Nat.lt_succ_iff_lt_or_eq.mp hk with h | rfl
    · have hne : threadKey tile eng k ≠ threadKey tile eng n := fun h => by
        have := threadKey_inj h
        omega
      rw [← ih h]
      split
      · rw [State.thread_setThread_ne _ _ hne]
      · rfl
    · split
      · rw [State.thread_setThread_self]
      · exact s.thread_startThreads_above tile eng bits (Nat.le_refl k)

end Started

variable {s : State} {by_ : Req} {tile n : Nat} {reg : RegId} {bits : Word}

/-- A start control written by MGMT. -/
theorem State.runWrite_mgmt (ha : s.accepts by_ tile = true) (hm : reqMgmt by_ = true) : s.runWrite by_ tile n reg bits =
    (s.wr reg (s.rd reg ||| (bits &&& wd (2 ^ n - 1)))).startThreads tile 0 bits n := by
  rw [State.runWrite, State.onWrite_accepts _ ha, if_pos hm]

/-- A thread named by MGMT that is stopped runs from the reset values of R36. -/
theorem State.thread_runWrite (ha : s.accepts by_ tile = true) (hm : reqMgmt by_ = true) {k : Nat} (hk : k < n)
    (hb : bit bits k = true) (hr : (s.thread (threadKey tile 0 k)).run = .stopped) :
    (s.runWrite by_ tile n reg bits).thread (threadKey tile 0 k) = { run := .running } := by
  have hr' : ((s.wr reg (s.rd reg ||| (bits &&& wd (2 ^ n - 1)))).thread (threadKey tile 0 k)).run = .stopped := hr
  rw [State.runWrite_mgmt ha hm, State.thread_startThreads _ _ _ _ hk, hb, hr']
  rfl

end Sys2Proof.Machine
end

section
/-! The sequencer's registers (R41, R145, R149, R150). -/

namespace Sys2Proof.Machine

open Reg

@[simp] theorem State.rd_modRadio (s : State) (r : Nat) (f : Radio → Radio) (a : RegId) : (s.modRadio r f).rd a = s.rd a := rfl

variable {s : State} {by_ : Req} {r : Fin 3} (ha : s.accepts by_ (rTile r.val) = true)

theorem exec_seqCtlWrite_eq (by_ : Req) (r : Fin 3) (val : Word) (s : State) :
    exec (.seqCtlWrite by_ r val) s = execSeqCtlWrite by_ r val s := rfl
theorem exec_seqSwapRequest_eq (by_ : Req) (r : Fin 3) (entry : BitVec 10) (tag : Tag) (s : State) :
    exec (.seqSwapRequest by_ r entry tag) s = execSeqSwapRequest by_ r entry tag s := rfl
theorem exec_seqAck_eq (by_ : Req) (r : Fin 3) (tag : Tag) (s : State) : exec (.seqAck by_ r tag) s = execSeqAck by_ r tag s := rfl
theorem exec_seqPoke_eq (by_ : Req) (r : Fin 3) (poke : Bool) (s : State) : exec (.seqPoke by_ r poke) s = execSeqPoke by_ r poke s := rfl
theorem exec_ctrlRunWrite_eq (by_ : Req) (r : Fin 3) (val : Word) (s : State) :
    exec (.ctrlRunWrite by_ r val) s = execCtrlRunWrite by_ r val s := rfl

/-! RUN (R150). -/

/-- SEQ_CTL as a write that raises RUN leaves it. -/
def seqCtlRun (val : Word) : Word := putBit (val &&& 0x400003FF) 31 true

/-- The sequencer started: SEQ_CTL and SEQ_STATUS show it, and its first step is ENTRY's, due now. -/
def State.seqStarted (s : State) (n : Nat) (val : Word) : State :=
  ((s.wr (RADIO.SEQ_CTL n) (seqCtlRun val)).wr (RADIO.SEQ_STATUS n)
    (putBit (putFld (s.rd (RADIO.SEQ_STATUS n)) 30 30 (fld val 30 30)) 31 true)).modRadio n fun x =>
      { x with step := {}, next := some (fld val 9 0, s.tick) }

theorem seqCtl_ne_seqStatus (n : Nat) : RADIO.SEQ_CTL n ≠ RADIO.SEQ_STATUS n := by simp [RADIO.SEQ_CTL, RADIO.SEQ_STATUS]

theorem State.seqRunning_seqStarted (s : State) (n : Nat) (val : Word) : (s.seqStarted n val).seqRunning n = true := by
  rw [State.seqRunning, State.rbit, State.seqStarted, State.rd_modRadio, State.rd_wr_self]
  exact bit_putBit_self _ _ (by decide)
theorem State.rd_seqStarted_ctl (s : State) (n : Nat) (val : Word) : (s.seqStarted n val).rd (RADIO.SEQ_CTL n) = seqCtlRun val := by
  rw [State.seqStarted, State.rd_modRadio, State.rd_wr_ne _ _ (seqCtl_ne_seqStatus n), State.rd_wr_self]
theorem fld_seqCtlRun_bank (val : Word) : fld (seqCtlRun val) 30 30 = fld val 30 30 := by
  rw [seqCtlRun, putBit, fld_putFld_beside _ _ (Nat.le_refl _) (Nat.le_refl _) (.inl (by decide))]
  exact fld_and_mask val fun i hi => by interval_cases i; rfl
theorem fld_seqCtlRun_entry (val : Word) : fld (seqCtlRun val) 9 0 = fld val 9 0 := by
  rw [seqCtlRun, putBit, fld_putFld_beside _ _ (Nat.le_refl _) (by decide) (.inl (by decide))]
  exact fld_and_mask val fun i hi => by interval_cases i <;> rfl

include ha

theorem exec_seqCtlWrite_starts {val : Word} (hrun : s.seqRunning r.val = false) (hlive : s.live (rTile r.val) = true)
    (hv : bit val 31 = true) : exec (.seqCtlWrite by_ r val) s = .next (s.seqStarted r.val val) := by
  have hst (v : Word) : (s.wr (RADIO.SEQ_CTL r.val) v).rd (RADIO.SEQ_STATUS r.val) = s.rd (RADIO.SEQ_STATUS r.val) :=
    State.rd_wr_ne _ _ (seqCtl_ne_seqStatus r.val).symm
  rw [exec_seqCtlWrite_eq, execSeqCtlWrite, State.onWrite_accepts _ ha]
  simp only [hrun, hlive, hv, hst, Bool.and_self, if_true, Bool.false_eq_true, if_false, State.seqStarted, seqCtlRun]

theorem exec_seqCtlWrite_running {val : Word} (hrun : s.seqRunning r.val = true) : exec (.seqCtlWrite by_ r val) s =
    .next (if bit val 31 then s.wf (RADIO.SEQ_CTL r.val) 9 0 (fld val 9 0)
      else (s.wf (RADIO.SEQ_CTL r.val) 9 0 (fld val 9 0)).seqStop r.val) := by
  rw [exec_seqCtlWrite_eq, execSeqCtlWrite, State.onWrite_accepts _ ha]
  exact congrArg _ (if_pos hrun)

/-! The swap and the poke (R145, R149). -/

theorem exec_seqSwapRequest_dropped {entry : BitVec 10} {tag : Tag} (hf : s.pathFree (RADIO.SEQ_RESULT r.val) = false) :
    exec (.seqSwapRequest by_ r entry tag) s = .next (s.sat (RADIO.SEQ_ERR_CNT r.val) 7 0 1) := by
  rw [exec_seqSwapRequest_eq, execSeqSwapRequest, State.onWrite_accepts _ ha]
  exact congrArg _ (if_pos (by simp [hf]))

theorem exec_seqSwapRequest_free {entry : BitVec 10} {tag : Tag} (hf : s.pathFree (RADIO.SEQ_RESULT r.val) = true) :
    exec (.seqSwapRequest by_ r entry tag) s = .next (if s.seqRunning r.val then
      (((s.pathBusy (RADIO.SEQ_RESULT r.val) 16 tag).modRadio r.val fun x => { x with swap := some entry.toNat }).wf
        (RADIO.SEQ_STATUS r.val) 29 29 1).askToken kSEQSW (rTile r.val)
      else (s.pathBusy (RADIO.SEQ_RESULT r.val) 16 tag).swapStopped r.val entry.toNat) := by
  rw [exec_seqSwapRequest_eq, execSeqSwapRequest, State.onWrite_accepts _ ha]
  exact congrArg _ (if_neg (by simp [hf]))

theorem exec_seqAck {tag : Tag} (hv : s.rbit (RADIO.SEQ_RESULT r.val) 31 = true)
    (ht : s.pathTag (RADIO.SEQ_RESULT r.val) 16 = tag) : exec (.seqAck by_ r tag) s = .next (s.wr (RADIO.SEQ_RESULT r.val) 0) := by
  rw [exec_seqAck_eq, execSeqAck, State.onWrite_accepts _ ha, State.pathAck_posted hv ht]

theorem exec_seqPoke (poke : Bool) : exec (.seqPoke by_ r poke) s = .next (if poke then s.seqEvent r.val evCTRL else s) := by
  rw [exec_seqPoke_eq, execSeqPoke, State.onWrite_accepts _ ha]

omit ha in
/-- Settles O28: RUN by whether the sequencer runs, a swap by its path and by that, and CTRL_RUN by the start control's threads. -/
theorem sequencerRegistersAct : Obligations.SequencerRegistersAct := by
  intro by_ r val entry tag s ha n res
  refine ⟨fun hrun hlive hv => ⟨_, exec_seqCtlWrite_starts ha hrun hlive hv, s.seqRunning_seqStarted n val, ?_, ?_, ?_, fun _ => rfl⟩,
    fun hrun hv => ?_, fun hrun hv => ?_, fun hf hrun => ?_, fun hf hrun => ?_, exec_seqSwapRequest_dropped ha, exec_seqAck ha,
    exec_seqPoke ha true, exec_seqPoke ha false, fun hm => ⟨_, exec_ctrlRunWrite_eq by_ r val s, fun k hk hb hr => ?_⟩⟩
  · rw [State.bank, State.rf, State.rd_seqStarted_ctl, fld_seqCtlRun_bank]
  · rw [State.seqStarted, State.radio_modRadio_self]
  · rw [State.rf, State.rd_seqStarted_ctl, fld_seqCtlRun_entry]
  · rw [exec_seqCtlWrite_running ha hrun, if_pos hv]
  · rw [exec_seqCtlWrite_running ha hrun, hv]
    rfl
  · rw [exec_seqSwapRequest_free ha hf, if_pos hrun]
  · rw [exec_seqSwapRequest_free ha hf, hrun]
    rfl
  · rw [State.thread_runWrite ha hm hk hb hr]
    exact ⟨rfl, rfl⟩

end Sys2Proof.Machine
end

section
/-! Device resets and their end (R42, R464, R480 to R482). -/

namespace Sys2Proof.Machine

open Reg

theorem exec_devRst_eq (by_ : Req) (key : BitVec 16) (s : State) : exec (.devRst by_ key) s = execDevRst by_ key s := rfl
theorem exec_porNRelease_eq (mode : BitVec 2) (s : State) : exec (.porNRelease mode) s = execPorNRelease mode s := rfl
theorem exec_refclkResume_eq (mode : BitVec 2) (s : State) : exec (.refclkResume mode) s = execRefclkResume mode s := rfl
theorem exec_sysRstNRelease_eq (mode : BitVec 2) (s : State) : exec (.sysRstNRelease mode) s = execSysRstNRelease mode s := rfl

/-! Reads of registers, memory and headers by their tables. -/

theorem State.rd_congr {s u : State} (h : u.regs = s.regs) (a : RegId) : u.rd a = s.rd a := congrArg (tget regReset · a) h
theorem State.rb_congr {s u : State} (h : u.mem = s.mem) (a : Nat) : u.rb a = s.rb a := congrArg (tget memDefault · a) h
theorem State.tile_congr {s u : State} (h : u.tiles = s.tiles) (t : Nat) : u.tile t = s.tile t := by
  rw [State.tile, h, State.tile]

/-! What a device reset leaves (R464, R481). -/

/-- A table cut down to the keys that pass a test. -/
theorem tget_filter_key {α : Type} (d : Nat → α) (f : Nat → Bool) (m : Tbl α) (k : Nat) :
    tget d (m.filter fun e => f e.1) k = if f k = true then tget d m k else d k := by
  induction m with
  | nil => exact (ite_self _).symm
  | cons e m ih =>
    obtain ⟨j, v⟩ := e
    rw [List.filter_cons]
    by_cases hj : k = j
    · subst hj
      by_cases hf : f k = true <;> simp only [hf, ih, tget, if_true, if_false, Bool.false_eq_true]
    · split <;> simp only [tget, if_neg hj, ih]

/-- A byte that a reset does not keep reads as 0 where nothing is written: the boot ROM is kept. -/
theorem memDefault_of_not_kept {por : Bool} {a : Nat} (h : ¬ resetKeeps por a = true) : memDefault a = 0 := by
  refine if_neg fun hrom => h ?_
  simp [resetKeeps, hrom.1, hrom.2]

section Left
variable (s : State) (por : Bool)

theorem State.rd_deviceReset (a : RegId) : (s.deviceReset por).rd a = if resetRegs por a = true then s.rd a else regReset a :=
  tget_filter_key regReset (resetRegs por) s.regs a
theorem State.rb_deviceReset (a : Nat) : (s.deviceReset por).rb a = if resetKeeps por a = true then s.rb a else 0 := by
  refine (tget_filter_key memDefault (resetKeeps por) s.mem a).trans ?_
  split
  · rfl
  next h => exact memDefault_of_not_kept h
theorem State.tile_deviceReset (t : Nat) : (s.deviceReset por).tile t = {} := rfl
theorem State.thread_deviceReset (k : Nat) : (s.deviceReset por).thread k = {} := rfl
theorem State.inReset_deviceReset : (s.deviceReset por).inReset = s.inReset := rfl

/-- What a device reset leaves of a state, begun in one that differs from it in neither registers, memory, queue nor clock. -/
theorem State.deviceReset_left {u : State} (hregs : u.regs = s.regs) (hmem : u.mem = s.mem) (hpend : u.pending = s.pending)
    (hclock : u.clock = s.clock) :
    (∀ a, (u.deviceReset por).rd a = if resetRegs por a = true then s.rd a else regReset a) ∧
    (∀ a, (u.deviceReset por).rb a = if resetKeeps por a = true then s.rb a else 0) ∧
    (∀ t, (u.deviceReset por).tile t = {}) ∧
    (∀ k, k ≠ threadKey 0 0 0 → k ≠ threadKey 0 0 1 → (u.deviceReset por).thread k = {}) ∧ (u.deviceReset por).tokens = [] ∧
    (u.deviceReset por).pending = s.pending ∧ (u.deviceReset por).clock = s.clock := by
  refine ⟨fun a => ?_, fun a => ?_, u.tile_deviceReset por, fun k _ _ => u.thread_deviceReset por k, rfl, hpend, hclock⟩
  · rw [State.rd_deviceReset, State.rd_congr hregs]
  · rw [State.rb_deviceReset, State.rb_congr hmem]

end Left

/-! The inputs that hold the part in reset (R480, R481). -/

section Held
variable {s : State}

theorem State.inReset_of_porLow (h : s.mgmt.porLow = true) : s.inReset = true := by simp [State.inReset, h]
theorem State.inReset_of_refOff (h : s.mgmt.refOff = true) : s.inReset = true := by simp [State.inReset, h]
theorem State.inReset_of_sysLow (h : s.mgmt.sysLow = true) : s.inReset = true := by simp [State.inReset, h]
theorem State.not_inReset (hpor : s.mgmt.porLow = false) (href : s.mgmt.refOff = false) (hsys : s.mgmt.sysLow = false) :
    s.inReset = false := by simp [State.inReset, hpor, href, hsys]

end Held

/-! The end of a device reset (R42, R482). -/

/-- MGMT is about to run its ROM with BOOT_MODE as sampled. -/
def State.romReady (s : State) : State := (s.modMgmt fun x => { x with mode := x.straps, phase := .rom }).mgmtThreads

section End
variable {s : State}

theorem State.resetEnd_released (hin : s.inReset = false) (hp : s.mgmt.phase = .held) : s.resetEnd = s.romReady := by
  refine if_neg ?_
  simp [hin, hp]
theorem State.resetEnd_held (hin : s.inReset = true) : s.resetEnd = s := by
  refine if_pos ?_
  rw [hin]
  rfl

variable (s : State)

theorem State.thread_romReady_ne {k : Nat} (h0 : k ≠ threadKey 0 0 0) (h1 : k ≠ threadKey 0 0 1) :
    s.romReady.thread k = s.thread k := by
  rw [State.romReady, State.mgmtThreads, State.thread_setThread_ne _ _ h1, State.thread_setThread_ne _ _ h0]
  rfl
/-- Both threads of MGMT run from address 0 with the reset values. -/
theorem State.romReady_runs : s.romReady.thread (threadKey 0 0 0) = { run := .running } ∧
    s.romReady.thread (threadKey 0 0 1) = { run := .running } := by
  refine ⟨?_, State.thread_setThread_self ..⟩
  rw [State.romReady, State.mgmtThreads, State.thread_setThread_ne _ _ (by decide), State.thread_setThread_self]
@[simp] theorem State.romReady_mgmt : s.romReady.mgmt = { s.mgmt with mode := s.mgmt.straps, phase := .rom } := rfl
@[simp] theorem State.romReady_clock : s.romReady.clock = s.clock := rfl
@[simp] theorem State.romReady_regs : s.romReady.regs = s.regs := rfl
@[simp] theorem State.romReady_mem : s.romReady.mem = s.mem := rfl
@[simp] theorem State.romReady_tiles : s.romReady.tiles = s.tiles := rfl
@[simp] theorem State.romReady_porClock : s.romReady.porClock = s.porClock := rfl

/-- The AON clock counts from here. -/
def State.clockStarted (s : State) : State := { s with porClock := s.clock }

@[simp] theorem State.clockStarted_mgmt : s.clockStarted.mgmt = s.mgmt := rfl
@[simp] theorem State.clockStarted_clock : s.clockStarted.clock = s.clock := rfl
@[simp] theorem State.clockStarted_regs : s.clockStarted.regs = s.regs := rfl
@[simp] theorem State.clockStarted_mem : s.clockStarted.mem = s.mem := rfl
@[simp] theorem State.clockStarted_tiles : s.clockStarted.tiles = s.tiles := rfl
@[simp] theorem State.clockStarted_porClock : s.clockStarted.porClock = s.clock := rfl

end End

/-- The AON clock counts from POR_N's release. -/
theorem State.aon_started {s : State} (h : s.porClock = s.clock) : s.aon = 0 := by
  rw [State.aon, h, Nat.sub_self, Nat.zero_mul, Nat.zero_div, Nat.zero_mod]

section Release
variable {s : State} {mode : BitVec 2} (hp : s.mgmt.phase = .held)
include hp

/-- POR_N, the last input that held the part, is released: the count of the AON clock starts. -/
theorem exec_porNRelease_ends (hpor : s.mgmt.porLow = true) (href : s.mgmt.refOff = false) (hsys : s.mgmt.sysLow = false) :
    exec (.porNRelease mode) s = .next (s.modMgmt fun x => { x with porLow := false, straps := mode.toNat }).clockStarted.romReady := by
  rw [exec_porNRelease_eq, execPorNRelease]
  exact congrArg _ ((if_neg (by simp [hpor])).trans (State.resetEnd_released (State.not_inReset rfl href hsys) hp))

/-- The reference clock, the last input that held the part, runs again. -/
theorem exec_refclkResume_ends (href : s.mgmt.refOff = true) (hpor : s.mgmt.porLow = false) (hsys : s.mgmt.sysLow = false) :
    exec (.refclkResume mode) s = .next (s.modMgmt fun x => { x with refOff := false, straps := mode.toNat }).clockStarted.romReady := by
  rw [exec_refclkResume_eq, execRefclkResume]
  exact congrArg _ ((if_neg (by simp [href])).trans (State.resetEnd_released (State.not_inReset hpor rfl hsys) hp))

/-- SYS_RST_N is released, and the cause is its own where POR_N's release is more than an AON cycle back. -/
theorem exec_sysRstNRelease_ends (hsys : s.mgmt.sysLow = true) (hpor : s.mgmt.porLow = false) (href : s.mgmt.refOff = false) :
    exec (.sysRstNRelease mode) s = .next (s.modMgmt fun x => { x with
      sysLow := false, straps := mode.toNat, cause := if s.porClock + 12 < s.clock then 1 else x.cause }).romReady := by
  rw [exec_sysRstNRelease_eq, execSysRstNRelease]
  refine congrArg _ ((if_neg (by simp [hsys])).trans ?_)
  have hlate : (!s.mgmt.porLow && !s.mgmt.refOff && decide (s.porClock + 12 < s.clock)) = decide (s.porClock + 12 < s.clock) := by
    simp [hpor, href]
  simp only [hlate, decide_eq_true_eq]
  split
  · exact State.resetEnd_released (State.not_inReset hpor href rfl) hp
  · exact State.resetEnd_released (State.not_inReset hpor href rfl) hp

omit hp in
/-- SYS_RST_N is released while POR_N still holds the part. -/
theorem exec_sysRstNRelease_held (hsys : s.mgmt.sysLow = true) (hpor : s.mgmt.porLow = true) :
    exec (.sysRstNRelease mode) s = .next (s.modMgmt fun x => { x with sysLow := false, straps := mode.toNat }) := by
  rw [exec_sysRstNRelease_eq, execSysRstNRelease]
  refine congrArg _ ((if_neg (by simp [hsys])).trans ?_)
  simp only [hpor, Bool.not_true, Bool.false_and, Bool.false_eq_true, if_false]
  exact State.resetEnd_held (State.inReset_of_porLow hpor)

end Release

/-- Settles O13: a reset leaves what `State.deviceReset` keeps of each table, and its end, once nothing holds the part, is
`State.romReady`. -/
theorem deviceResetsKeepWhatR481Names : Obligations.DeviceResetsKeepWhatR481Names := by
  refine ⟨?_, ?_⟩
  · intro by_ s still after
    refine ⟨fun hpor => ?_, fun href => ?_, fun hsys hpor href => ?_, fun ha hm hin => ?_, fun key hkey ha => ?_⟩
    · refine ⟨(s.modMgmt fun x => { x with porLow := true }).deviceReset true, congrArg _ (if_neg (by simp [hpor])), 
        s.deviceReset_left true rfl rfl rfl rfl, rfl, rfl, State.thread_deviceReset _ _⟩
    · refine ⟨(s.modMgmt fun x => { x with refOff := true }).deviceReset true, congrArg _ (if_neg (by simp [href])), 
        s.deviceReset_left true rfl rfl rfl rfl, ?_, State.thread_deviceReset _ _⟩
      exact (State.inReset_deviceReset ..).trans (State.inReset_of_refOff rfl)
    · refine ⟨(s.modMgmt fun x => { x with sysLow := true }).deviceReset false,
        congrArg _ ((if_neg (by simp [hsys])).trans (if_neg (by simp [hpor, href]))), 
        s.deviceReset_left false rfl rfl rfl rfl, ?_, rfl, State.thread_deviceReset _ _⟩
      exact (State.inReset_deviceReset ..).trans (State.inReset_of_sysLow rfl)
    · refine ⟨(s.deviceReset false).romReady, ?_, ?_, rfl, rfl, State.romReady_runs _⟩
      · rw [exec_devRst_eq, execDevRst, State.onWrite_accepts _ ha, hm, ← State.resetEnd_released (s := s.deviceReset false) hin rfl]
        rfl
      · exact ⟨fun a => (State.rd_congr rfl a).trans (s.rd_deviceReset false a),
          fun a => (State.rb_congr rfl a).trans (s.rb_deviceReset false a), State.tile_congr rfl,
          fun k h0 h1 => State.thread_romReady_ne _ h0 h1, rfl, rfl, rfl⟩
    · rw [exec_devRst_eq, execDevRst, State.onWrite_accepts _ ha]
      exact congrArg _ (if_neg fun h => hkey (of_decide_eq_true (Bool.and_eq_true_iff.mp h).2))
  · intro mode s hp
    refine ⟨fun hpor href hsys => ?_, fun href hpor hsys => ?_, fun hsys hpor href => ?_, fun hpor hsys => ?_⟩
    · exact ⟨_, exec_porNRelease_ends hp hpor href hsys, State.not_inReset rfl href hsys, rfl, rfl, by simp,
        State.aon_started (by simp), State.romReady_runs _, State.rd_congr (by simp), State.rb_congr (by simp),
        State.tile_congr (by simp)⟩
    · exact ⟨_, exec_refclkResume_ends hp href hpor hsys, State.not_inReset hpor rfl hsys, rfl, rfl, by simp, State.romReady_runs _⟩
    · exact ⟨_, exec_sysRstNRelease_ends hp hsys hpor href, State.not_inReset hpor href rfl, rfl, rfl, by simp,
        State.romReady_runs _, by simp⟩
    · exact ⟨_, exec_sysRstNRelease_held hsys hpor, hp, rfl⟩

end Sys2Proof.Machine
end

section
/-! The code of an image's checks (R463), in the order of the checks. -/

namespace Sys2Proof.Machine

variable {l : List Byte} {s : State}

/-- The digest in an image's header is its body's. -/
def imgDigestOk (l : List Byte) : Bool := sha384 (nats (imgBody l)) == nats ((l.drop 24).take 48)

/-- An image passes every check. -/
def State.ImgPasses (s : State) (l : List Byte) : Prop :=
  imgHdrOk l = true ∧ (s.secure = true → s.imgKeyOk l = true ∧ imgSigOk l = true) ∧
    sha384 (nats (imgBody l)) = nats ((l.drop 24).take 48) ∧ s.rollback ≤ imgSvn l

/-- The code by the outcomes of the checks: the first that fails. -/
def checkCode (hdr secure key sig digest svn : Bool) : Nat :=
  if !hdr then 1 else if secure && !key then 2 else if secure && !sig then 3 else if !digest then 4 else if !svn then 5 else 0

theorem State.imgCode_eq (s : State) (l : List Byte) : s.imgCode l =
    checkCode (imgHdrOk l) s.secure (s.imgKeyOk l) (imgSigOk l) (imgDigestOk l) (decide (s.rollback ≤ imgSvn l)) := by
  rw [State.imgCode, checkCode]
  refine if_congr Iff.rfl rfl (if_congr Iff.rfl rfl (if_congr Iff.rfl rfl (if_congr Iff.rfl rfl (if_congr ?_ rfl rfl))))
  rw [Bool.not_eq_true', decide_eq_false_iff_not, Nat.not_le]

theorem checkCode_spec (hdr secure key sig digest svn : Bool) :
    (checkCode hdr secure key sig digest svn = 0 ↔
      hdr = true ∧ (secure = true → key = true ∧ sig = true) ∧ digest = true ∧ svn = true) ∧
    (checkCode hdr secure key sig digest svn = 1 ↔ hdr = false) ∧
    (checkCode hdr secure key sig digest svn = 2 ↔ hdr = true ∧ secure = true ∧ key = false) ∧
    (checkCode hdr secure key sig digest svn = 3 ↔ hdr = true ∧ secure = true ∧ key = true ∧ sig = false) ∧
    checkCode hdr secure key sig digest svn ≤ 5 := by
  revert hdr secure key sig digest svn
  decide

theorem State.imgCode_zero_iff : s.imgCode l = 0 ↔ s.ImgPasses l := by
  rw [State.imgCode_eq, (checkCode_spec ..).1, State.ImgPasses, imgDigestOk, beq_iff_eq, decide_eq_true_eq]

end Sys2Proof.Machine
end

section
/-! What entering READY and a record of the log leave alone (R33, R464). -/

namespace Sys2Proof.Machine

open Reg

variable (s : State)

/-- What the tile's header, its watchdog, its event and a record of the log leave alone, a change of state leaves alone. -/
theorem State.setLife_frame {β : Type} (g : State → β) (hm : ∀ (u : State) m, g { u with mgmt := m } = g u)
    (ht : ∀ (u : State) t x, g (u.setTile t x) = g u) (he : ∀ (u : State) t n, g (u.evt t n) = g u)
    (hl : ∀ (u : State) t kind code d0 d1 d2 d3, g (u.logRec t kind code d0 d1 d2 d3) = g u) (t : Nat) (l : Life) :
    g (s.setLife t l) = g s := by
  have hwd (u : State) : g (u.wdSync t) = g u := by
    unfold State.wdSync State.wdStop State.wdLoad
    split
    · rfl
    · split
      · split
        · exact hm ..
        · rfl
      · split
        · exact hm ..
        · rfl
  unfold State.setLife
  extract_lets old s1 s2
  have h2 : g s2 = g s := (he ..).trans ((hwd _).trans (ht ..))
  split
  · rfl
  · split
    · exact h2
    · exact (hl ..).trans h2

theorem State.rd_setLife {a : RegId} (h : OffLog a) (t : Nat) (l : Life) : (s.setLife t l).rd a = s.rd a :=
  s.setLife_frame (·.rd a) (fun _ _ => rfl) (fun _ _ _ => rfl) (fun u t n => u.rd_evt t n a)
    (fun u _ _ _ _ _ _ _ => u.rd_logRec h ..) ..
theorem State.rb_setLife {x : Nat} (h : BesideLog x) (t : Nat) (l : Life) : (s.setLife t l).rb x = s.rb x :=
  s.setLife_frame (·.rb x) (fun _ _ => rfl) (fun _ _ _ => rfl) (fun u t n => u.rb_evt t n x)
    (fun u _ _ _ _ _ _ _ => u.rb_logRec h ..) ..
theorem State.threads_setLife (t : Nat) (l : Life) : (s.setLife t l).threads = s.threads :=
  s.setLife_frame (·.threads) (fun _ _ => rfl) (fun _ _ _ => rfl) (fun u t n => hidden_threads.evt u t n)
    (fun u _ _ _ _ _ _ _ => hidden_threads.logRec u ..) ..

/-- MGMT has no work of its own at a change of state. -/
theorem State.enter_mgmt {l : Life} (h : s.life 0 ≠ l) : s.enter 0 l = s.setLife 0 l := if_neg h

end Sys2Proof.Machine
end

section
/-! The boot ROM: the boot it chooses, images over UART0 and from the host, and the image it starts (R42, R460 to R463). -/

namespace Sys2Proof.Machine

open Reg

theorem exec_romBoot_eq (s : State) : exec .romBoot s = execRomBoot s := rfl
theorem exec_uartBootImage_eq (image : List Byte) (s : State) : exec (.uartBootImage image) s = execUartBootImage image s := rfl
theorem exec_hostBootImage_eq (s : State) : exec .hostBootImage s = execHostBootImage s := rfl

/-- The trap vectors as the ROM loads them. -/
def State.vectorsLoaded (s : State) : State := s.sramPut 0 (s.rbytes 0x3000000000 256)

section Boot
variable {s : State}

theorem exec_romBoot (hin : s.inReset = false) (hp : s.mgmt.phase = .rom) (hl : s.life 0 = .reset) : exec .romBoot s =
    .next (if 2 ≤ s.mgmt.cause || s.mgmt.mode = 0 || s.mgmt.mode = 3 then s.vectorsLoaded.flashBoot
      else if s.mgmt.mode = 1 then s.vectorsLoaded.hostBoot 6 6 else s.vectorsLoaded.uartBoot 6 6) := by
  rw [exec_romBoot_eq, execRomBoot]
  exact congrArg _ (if_neg (by simp [hin, hp, hl]))

theorem exec_uartBootImage {image : List Byte} {resA resB : Nat} (hp : s.mgmt.phase = .uart resA resB) :
    let s1 := s.modMgmt fun x => { x with uartOut := x.uartOut ++ [BitVec.ofNat 8 (s.imgCode image)] }
    exec (.uartBootImage image) s = .next (if s.imgCode image = 0 then s1.startImage image 3 resA resB else s1) := by
  rw [exec_uartBootImage_eq, execUartBootImage, hp]

theorem exec_hostBootImage {resA resB : Nat} (hp : s.mgmt.phase = .host resA resB) (hhost : s.live 16 = true)
    (hstore : s.live 8 = true) (hbusy : s.rbit (HOST.MBX_W5 0) 30 = true) (hop : s.rf (HOST.MBX_W4 0) 31 16 = 1) :
    let s0 := if 2 ≤ s.mgmt.cause then s else (s.ctlAck 8 0).ctlAck 16 0
    let r := s0.readLines (.tile 0) (s.rf (HOST.MBX_W1 0) 7 0 * 2 ^ 32 + (s.rd (HOST.MBX_W0 0)).toNat) (s.rd (HOST.MBX_W2 0)).toNat
    let s1 := r.1.mbxPost (.tile 0) 0 (r.1.imgCode r.2) (s.rf (HOST.MBX_W5 0) 7 0)
    exec .hostBootImage s = .next (if r.1.imgCode r.2 = 0 then s1.startImage r.2 2 resA resB else s1) := by
  rw [exec_hostBootImage_eq, execHostBootImage, hp]
  exact congrArg _ (if_neg (by simp [hhost, hstore, hbusy, show fld (s.rd (HOST.MBX_W4 0)) 31 16 = 1 from hop]))

end Boot

/-! Bytes and registers under what the ROM writes to MGMT's SRAM. -/

section Sram
variable (s : State)

/-- What lies outside MGMT's SRAM stays. -/
theorem State.rb_sramPut_out (o : Nat) (l : List Byte) {x : Nat} (h : x < 0x2000000000 ∨ 0x2000080000 ≤ x) :
    (s.sramPut o l).rb x = s.rb x := by
  refine State.rb_wbytes_out s _ ?_
  rw [List.length_take]
  omega
/-- A list that ends inside the SRAM stands there whole. -/
theorem State.rb_sramPut_in {o k : Nat} {l : List Byte} {b : Byte} (hfit : o + l.length ≤ 0x80000) (h : l[k]? = some b) :
    (s.sramPut o l).rb (0x2000000000 + o + k) = b := by
  rw [State.sramPut, List.take_of_length_le (by omega)]
  exact State.rb_wbytes_in s l h
theorem State.rb_romOwn_out {x : Nat} (h : x < 0x2000000000 ∨ 0x2000080000 ≤ x) : s.romOwn.rb x = s.rb x :=
  State.rb_sramPut_out _ _ _ h

/-- A number of memory by its own bytes. -/
theorem State.rm_eq {s u : State} {a n : Nat} (h : ∀ k, k < n → u.rb (a + k) = s.rb (a + k)) : u.rm a n = s.rm a n := by
  induction n generalizing a with
  | zero => rfl
  | succ n ih =>
    rw [State.rm, State.rm, show u.rb a = s.rb a from h 0 (Nat.succ_pos n), ih fun k hk => ?_]
    rw [Nat.add_assoc, Nat.add_comm 1]
    exact h _ (Nat.succ_lt_succ hk)

/-- SECURE_EN stands in the OTP. -/
theorem State.secure_congr {s u : State} (h : ∀ x, 0x2000080000 ≤ x → u.rb x = s.rb x) : u.secure = s.secure := by
  rw [State.secure, State.otpCfg, State.rm_eq fun k _ => h _ (by unfold privBase; omega)]
  rfl

end Sram

/-! The image started (R42, R463). -/

section Start
variable (s : State) (l : List Byte) (source resA resB : Nat)

/-- The state whose OTP the record of the boot reads: what the ROM leaves and the image's body are in SRAM. -/
def State.imageLoaded (s : State) (l : List Byte) : State := s.took.romOwn.sramPut (imgLoad l) (imgBody l)

/-- SVN as BOOT_STATUS shows it. -/
def State.svnShown (s : State) (l : List Byte) : Nat := if imgSvn l ≤ 64 then imgSvn l else nbits (s.free 1024) 1007 1000 % 65

/-- The image is about to run: BOOT_STATUS shows the boot, and both threads stand at ENTRY. -/
def State.imageSet (s : State) (l : List Byte) (source resA resB : Nat) : State :=
  ((((s.imageLoaded l).bootStatus source resA resB (s.svnShown l)).modMgmt fun x => { x with phase := .done }).setThread
    (threadKey 0 0 0) (bootThread (s.free 1024) (imgEntry l))).setThread (threadKey 0 0 1)
      (bootThread (s.free 1024 / 2 ^ 400) (imgEntry l))

theorem State.startImage_eq : s.startImage l source resA resB = ((s.imageSet l source resA resB).enter 0 .ready).bootRecord := rfl

theorem State.secure_imageLoaded : (s.imageLoaded l).secure = s.secure :=
  State.secure_congr fun _ hx => (State.rb_sramPut_out _ _ _ (.inr hx)).trans (State.rb_romOwn_out _ (.inr hx))

/-- A header that passes names a load address whose body ends below the ROM's own part of SRAM. -/
theorem imgBody_fits {l : List Byte} (h : imgHdrOk l = true) : imgLoad l + (imgBody l).length ≤ 0x80000 := by
  have hlen : (imgBody l).length ≤ imgLength l := List.length_take_le ..
  simp only [imgHdrOk, Bool.and_eq_true, decide_eq_true_eq] at h
  omega

/-! What of it the rest of the start leaves alone: entering READY and the BOOT record. -/

theorem offLog_bootStatus : OffLog MGMT.BOOT_STATUS := by
  unfold OffLog
  decide

variable {s l source resA resB}

@[simp] theorem State.tile_wbytes (s : State) (a : Nat) (l : List Byte) (k : Nat) : (s.wbytes a l).tile k = s.tile k := by
  induction l generalizing s a with
  | nil => rfl
  | cons b l ih => rw [State.wbytes, ih, State.tile_wb]

theorem State.tile_imageLoaded (k : Nat) : (s.imageLoaded l).tile k = s.tile k := by
  rw [State.imageLoaded, State.sramPut, State.tile_wbytes, State.romOwn, State.sramPut, State.tile_wbytes, State.tile_took,
    State.tile_took]

theorem State.tile_imageSet (k : Nat) : (s.imageSet l source resA resB).tile k = s.tile k :=
  (State.tile_congr (by rw [State.imageSet, State.setThread_tiles, State.setThread_tiles, State.modMgmt_tiles, State.bootStatus,
    State.wr_tiles]) k).trans (State.tile_imageLoaded (s := s) (l := l) k)
theorem State.rb_imageSet (x : Nat) : (s.imageSet l source resA resB).rb x = (s.imageLoaded l).rb x :=
  State.rb_congr (by rw [State.imageSet, State.setThread_mem, State.setThread_mem, State.modMgmt_mem, State.bootStatus,
    State.wr_mem]) x

section Entered
variable (hlife : s.life 0 = .reset)
include hlife

theorem State.startImage_enters : s.startImage l source resA resB =
    ((s.imageSet l source resA resB).setLife 0 .ready).bootRecord := by
  have htile : (s.imageSet l source resA resB).life 0 = s.life 0 := congrArg Tile.life (State.tile_imageSet ..)
  have hne : (s.imageSet l source resA resB).life 0 ≠ .ready := by
    rw [htile, hlife]
    decide
  exact (State.startImage_eq ..).trans (congrArg State.bootRecord (State.enter_mgmt _ hne))

theorem State.life_startImage : (s.startImage l source resA resB).life 0 = .ready := by
  rw [State.startImage_enters hlife, State.bootRecord, State.life, State.tile_logRec]
  exact State.life_setLife ..

/-- Bytes of the SRAM stand as the image was loaded. -/
theorem State.rb_startImage {x : Nat} (h : x < logBase) : (s.startImage l source resA resB).rb x = (s.imageLoaded l).rb x := by
  rw [State.startImage_enters hlife, State.bootRecord, State.rb_logRec _ (.inl h), State.rb_setLife _ (.inl h), State.rb_imageSet]

theorem State.rd_startImage {a : RegId} (h : OffLog a) :
    (s.startImage l source resA resB).rd a = (s.imageSet l source resA resB).rd a := by
  rw [State.startImage_enters hlife, State.bootRecord, State.rd_logRec _ h, State.rd_setLife _ h]

theorem State.thread_startImage (k : Nat) :
    (s.startImage l source resA resB).thread k = (s.imageSet l source resA resB).thread k := by
  rw [State.thread, State.startImage_enters hlife, State.bootRecord, hidden_threads.logRec, State.threads_setLife, State.thread]

end Entered

/-- Both threads of MGMT run at ENTRY. -/
theorem State.thread_imageSet {thr : Nat} (h : thr < 2) : ∃ f, (s.imageSet l source resA resB).thread (threadKey 0 0 thr) =
    bootThread f (imgEntry l) := by
  rw [State.imageSet]
  interval_cases thr
  · exact ⟨s.free 1024, by rw [State.thread_setThread_ne _ _ (by decide), State.thread_setThread_self]⟩
  · exact ⟨_, State.thread_setThread_self ..⟩

/-! BOOT_STATUS (R42). -/

/-- The word that BOOT_STATUS takes. -/
def bootWord (secure : Bool) (cause mode source resA resB svn : Nat) : Word :=
  wd (b2n secure * 2 ^ 31 + cause % 8 * 2 ^ 28 + mode % 4 * 2 ^ 26 + source % 4 * 2 ^ 24 + resA % 8 * 2 ^ 21 + resB % 8 * 2 ^ 18 + svn % 128)

theorem State.rd_imageSet : (s.imageSet l source resA resB).rd MGMT.BOOT_STATUS =
    bootWord s.secure (s.imageLoaded l).mgmt.cause (s.imageLoaded l).mgmt.mode source resA resB (s.svnShown l) := by
  have hregs : (s.imageSet l source resA resB).regs = ((s.imageLoaded l).bootStatus source resA resB (s.svnShown l)).regs := by
    rw [State.imageSet, State.setThread_regs, State.setThread_regs, State.modMgmt_regs]
  rw [State.rd_congr hregs, State.bootStatus, State.rd_wr_self, State.secure_imageLoaded, bootWord]

/-- SOURCE, RES_A, RES_B and SECURE_EN as the word shows them. -/
theorem bootWord_fields (secure : Bool) (cause mode svn : Nat) (hs : source < 4) (ha : resA < 8) (hb : resB < 8) :
    fld (bootWord secure cause mode source resA resB svn) 25 24 = source ∧
    fld (bootWord secure cause mode source resA resB svn) 23 21 = resA ∧
    fld (bootWord secure cause mode source resA resB svn) 20 18 = resB ∧
    bit (bootWord secure cause mode source resA resB svn) 31 = secure := by
  have hsec : b2n secure < 2 := by cases secure <;> decide
  have hc := Nat.mod_lt cause (show 0 < 8 by decide)
  have hm := Nat.mod_lt mode (show 0 < 4 by decide)
  have hv := Nat.mod_lt svn (show 0 < 128 by decide)
  rw [bootWord, Nat.mod_eq_of_lt hs, Nat.mod_eq_of_lt ha, Nat.mod_eq_of_lt hb]
  generalize cause % 8 = c at *
  generalize mode % 4 = m at *
  generalize svn % 128 = v at *
  have hbit : b2n secure = 1 ↔ secure = true := by cases secure <;> decide
  generalize b2n secure = k at *
  have hlt : k * 2 ^ 31 + c * 2 ^ 28 + m * 2 ^ 26 + source * 2 ^ 24 + resA * 2 ^ 21 + resB * 2 ^ 18 + v < 2 ^ 32 := by omega
  refine ⟨?_, ?_, ?_, ?_⟩
  · rw [fld_wd hlt]
    omega
  · rw [fld_wd hlt]
    omega
  · rw [fld_wd hlt]
    omega
  · rw [bit_wd hlt, Bool.eq_iff_iff, decide_eq_true_eq, ← hbit]
    omega

/-- A verified image that the ROM starts stands at LOAD, runs at ENTRY in READY, and shows in BOOT_STATUS. -/
theorem State.startImage_shown (hok : imgHdrOk l = true) (hlife : s.life 0 = .reset) (hs : source < 4) (ha : resA < 8)
    (hb : resB < 8) :
    let u := s.startImage l source resA resB
    (∀ k b, (imgBody l)[k]? = some b → u.rb (0x2000000000 + imgLoad l + k) = b) ∧ u.life 0 = .ready ∧
    (∀ thr, thr < 2 → (u.thread (threadKey 0 0 thr)).run = .running ∧ (u.thread (threadKey 0 0 thr)).pc = imgEntry l) ∧
    u.rf MGMT.BOOT_STATUS 25 24 = source ∧ u.rf MGMT.BOOT_STATUS 23 21 = resA ∧
    u.rf MGMT.BOOT_STATUS 20 18 = resB ∧ u.rbit MGMT.BOOT_STATUS 31 = s.secure := by
  intro u
  have hfit := imgBody_fits hok
  refine ⟨fun k b hk => ?_, State.life_startImage hlife, fun thr h => ?_, ?_⟩
  · obtain ⟨hlt, -⟩ := List.getElem?_eq_some_iff.mp hk
    rw [State.rb_startImage hlife (by unfold logBase; omega)]
    exact State.rb_sramPut_in _ hfit hk
  · obtain ⟨f, hf⟩ := State.thread_imageSet (s := s) (l := l) (source := source) (resA := resA) (resB := resB) h
    rw [State.thread_startImage hlife, hf]
    exact ⟨rfl, rfl⟩
  · rw [State.rf, State.rf, State.rf, State.rbit, State.rd_startImage hlife offLog_bootStatus, State.rd_imageSet]
    exact bootWord_fields s.secure _ _ _ hs ha hb

end Start

end Sys2Proof.Machine
end

section
/-! The end of a CR command (R473, R474). -/

namespace Sys2Proof.Machine

open Reg

theorem exec_crDone_eq (s : State) : exec .crDone s = execCrDone s := rfl

variable {s : State}

/-- The result of a CR command is posted with its event. -/
def State.crPosted (s : State) (tag : Tag) (ok : Bool) : State := (s.pathPost PRIV.CR_RES 8 tag (b2n ok * 2 ^ 29)).evt 0 21

/-- The signature that VERIFY is asked about verifies. -/
def State.crVerifies (s : State) : Bool :=
  ecdsaVerify (nats s.crDigest) (nats (s.sramBytes (s.rd PRIV.CR_KEY).toNat 96)) (nats (s.sramBytes (s.rd PRIV.CR_SIG).toNat 96))

theorem exec_crDone_verify (h : s.mgmt.cr = some true) : exec .crDone s =
    .next ((s.modMgmt fun x => { x with cr := none }).crPosted (s.pathTag PRIV.CR_RES 8) s.crVerifies) := by
  rw [exec_crDone_eq, execCrDone, h]
  simp only [Bool.not_true, Bool.false_or, if_true, State.crPosted, State.crVerifies, -Nat.reducePow]

theorem exec_crDone_hash (h : s.mgmt.cr = some false) :
    let r := (s.modMgmt fun x => { x with cr := none }).readLines (.tile 0)
      ((s.rd PRIV.CR_SRC_HI).toNat * 2 ^ 32 + (s.rd PRIV.CR_SRC_LO).toNat) (s.rd PRIV.CR_LEN).toNat
    exec .crDone s = .next (((r.1.putDigest (sha384 (nats r.2))).pathPost PRIV.CR_RES 8 (s.pathTag PRIV.CR_RES 8)
      (2 ^ 29)).evt 0 21) := by
  rw [exec_crDone_eq, execCrDone, h]
  simp only [Bool.not_false, Bool.true_or, Bool.false_eq_true, if_false, b2n, if_true, Nat.one_mul, -Nat.reducePow]

theorem State.rd_crPosted_ne (tag : Tag) (ok : Bool) {a : RegId} (h : a ≠ PRIV.CR_RES) : (s.crPosted tag ok).rd a = s.rd a := by
  rw [State.crPosted, State.rd_evt, State.pathPost, State.rd_wr_ne _ _ h]
theorem State.rd_crPosted (tag : Tag) (ok : Bool) :
    (s.crPosted tag ok).rd PRIV.CR_RES = wd (2 ^ 31 + b2n ok * 2 ^ 29 + tag.toNat * 2 ^ 8) := by
  rw [State.crPosted, State.rd_evt, State.rd_pathPost]
theorem State.rb_crPosted (tag : Tag) (ok : Bool) (a : Nat) : (s.crPosted tag ok).rb a = s.rb a := by
  rw [State.crPosted, State.rb_evt, State.pathPost, State.rb_wr]
theorem State.mgmt_crPosted (tag : Tag) (ok : Bool) : (s.crPosted tag ok).mgmt = s.mgmt := by
  rw [State.crPosted, hidden_mgmt.evt, State.pathPost, State.wr_mgmt]

/-- A result of CR is VALID, and OK as it was found. -/
theorem State.crPosted_shown (tag : Tag) (ok : Bool) :
    (s.crPosted tag ok).rbit PRIV.CR_RES 31 = true ∧ (s.crPosted tag ok).rbit PRIV.CR_RES 29 = ok := by
  have htag := tag.isLt
  have hok : b2n ok < 2 := by cases ok <;> decide
  have hbit : b2n ok = 1 ↔ ok = true := by cases ok <;> decide
  have hlt : 2 ^ 31 + b2n ok * 2 ^ 29 + tag.toNat * 2 ^ 8 < 2 ^ 32 := by omega
  rw [State.rbit, State.rbit, State.rd_crPosted, bit_wd hlt, bit_wd hlt, decide_eq_true_eq, Bool.eq_iff_iff, decide_eq_true_eq, ← hbit]
  omega

/-- Settles O14: the code by the outcomes of the checks, a boot by its mode, an image started by what `State.imageSet` leaves, and a CR
command by its kind. -/
theorem romBootsAsModeSays : Obligations.RomBootsAsModeSays := by
  refine ⟨fun l s => ?_, fun image resA resB s => ⟨fun hin hp hl => ?_, exec_uartBootImage, exec_hostBootImage⟩,
    fun l source resA resB s hok hlife hs ha hb => State.startImage_shown hok hlife hs ha hb, fun s => ⟨fun h => ?_, exec_crDone_hash⟩⟩
  · have hspec := checkCode_spec (imgHdrOk l) s.secure (s.imgKeyOk l) (imgSigOk l) (imgDigestOk l) (decide (s.rollback ≤ imgSvn l))
    rw [← s.imgCode_eq l] at hspec
    exact ⟨State.imgCode_zero_iff, hspec.2⟩
  · intro s1
    rw [exec_romBoot hin hp hl]
    refine ⟨fun hmode => congrArg _ (if_pos (by simpa [or_assoc] using hmode)), fun hc hm => ?_, fun hc hm => ?_⟩
    · exact congrArg _ ((if_neg (by simp [hm, Nat.not_le.mpr hc])).trans (if_pos hm))
    · exact congrArg _ ((if_neg (by simp [hm, Nat.not_le.mpr hc])).trans (if_neg (by simp [hm])))
  · obtain ⟨hvalid, hok⟩ := State.crPosted_shown (s := s.modMgmt fun x => { x with cr := none }) (s.pathTag PRIV.CR_RES 8) s.crVerifies
    refine ⟨_, exec_crDone_verify h, by rw [State.mgmt_crPosted, State.modMgmt_mgmt], hvalid, hok, fun i hi => ?_,
      fun a => (State.rb_crPosted ..).trans (State.rb_modMgmt ..)⟩
    have hne : PRIV.CR_DIGEST i ≠ PRIV.CR_RES := (show 0x100020020 + 4 * i ≠ 0x100020018 by omega)
    rw [State.rd_crPosted_ne _ _ hne]
    exact State.rd_congr (State.modMgmt_regs ..) _

end Sys2Proof.Machine
end

section
/-! MLINK's AID map and key slots, and three of its registers (R41, R196, R197, R204, R209, R214). -/

namespace Sys2Proof.Machine

open Reg

theorem exec_aidSet_eq (by_ : Req) (tag : Tag) (s : State) : exec (.aidSet by_ tag) s = execAidSet by_ tag s := rfl
theorem exec_aidClr_eq (by_ : Req) (tag : Tag) (s : State) : exec (.aidClr by_ tag) s = execAidClr by_ tag s := rfl
theorem exec_aidLookup_eq (by_ : Req) (tag : Tag) (s : State) : exec (.aidLookup by_ tag) s = execAidLookup by_ tag s := rfl
theorem exec_aidIllegalOp_eq (by_ : Req) (tag : Tag) (s : State) : exec (.aidIllegalOp by_ tag) s = execAidIllegalOp by_ tag s := rfl
theorem exec_aidAck_eq (by_ : Req) (tag : Tag) (s : State) : exec (.aidAck by_ tag) s = execAidAck by_ tag s := rfl
theorem exec_keyInstall_eq (by_ : Req) (tag : Tag) (s : State) : exec (.keyInstall by_ tag) s = execKeyInstall by_ tag s := rfl
theorem exec_keyDelete_eq (by_ : Req) (tag : Tag) (s : State) : exec (.keyDelete by_ tag) s = execKeyDelete by_ tag s := rfl
theorem exec_keySetTx_eq (by_ : Req) (tag : Tag) (s : State) : exec (.keySetTx by_ tag) s = execKeySetTx by_ tag s := rfl
theorem exec_keyIllegalOp_eq (by_ : Req) (tag : Tag) (s : State) : exec (.keyIllegalOp by_ tag) s = execKeyIllegalOp by_ tag s := rfl
theorem exec_keyAck_eq (by_ : Req) (tag : Tag) (s : State) : exec (.keyAck by_ tag) s = execKeyAck by_ tag s := rfl
theorem exec_mrxRdWrite_eq (by_ : Req) (val : Word) (s : State) : exec (.mrxRdWrite by_ val) s = execMrxRdWrite by_ val s := rfl
theorem exec_linkCtlWrite_eq (by_ : Req) (val : Word) (s : State) : exec (.linkCtlWrite by_ val) s = execLinkCtlWrite by_ val s := rfl
theorem exec_mlinkRunWrite_eq (by_ : Req) (val : Word) (s : State) : exec (.mlinkRunWrite by_ val) s = execMlinkRunWrite by_ val s := rfl

/-! What a posted result leaves of the tables. -/

section Posted
variable (s : State) (tag : Tag) (code g scid : Nat)

/-- The result of an AID command with its event. -/
def State.aidPosted (s : State) (tag : Tag) (code g scid : Nat) : State := (s.aidPost tag code g scid).evt 5 16
/-- The result of a key command with its event. -/
def State.keyPosted (s : State) (tag : Tag) (code : Nat) : State := (s.keyPost tag code).evt 5 17

@[simp] theorem State.mlink_aidPosted : (s.aidPosted tag code g scid).mlink = s.mlink := by
  rw [State.aidPosted, State.mlink_evt, State.aidPost, State.pathPost, State.wr_mlink]
@[simp] theorem State.rb_aidPosted (a : Nat) : (s.aidPosted tag code g scid).rb a = s.rb a := by
  rw [State.aidPosted, State.rb_evt, State.aidPost, State.pathPost, State.rb_wr]
theorem State.rd_aidPosted_done : (s.aidPosted tag 0 0 0).rd MLINK.AID_RESULT = wd (2 ^ 31 + tag.toNat) := by
  rw [State.aidPosted, State.rd_evt, State.aidPost, State.rd_pathPost, Nat.pow_zero, Nat.mul_one, Nat.zero_mul, Nat.zero_mul,
    Nat.zero_mul, Nat.add_zero]
theorem State.evtPend_aidPosted : bit ((s.aidPosted tag code g scid).tile 5).evtPend 16 = true := State.evtPend_evt _ _ (by decide)

@[simp] theorem State.mlink_keyPosted : (s.keyPosted tag code).mlink = s.mlink := by
  rw [State.keyPosted, State.mlink_evt, State.keyPost, State.pathPost, State.wr_mlink]
@[simp] theorem State.rb_keyPosted (a : Nat) : (s.keyPosted tag code).rb a = s.rb a := by
  rw [State.keyPosted, State.rb_evt, State.keyPost, State.pathPost, State.rb_wr]
theorem State.rd_keyPosted_done : (s.keyPosted tag 0).rd MLINK.KEY_RESULT = wd (2 ^ 31 + tag.toNat) := by
  rw [State.keyPosted, State.rd_evt, State.keyPost, State.rd_pathPost, Nat.pow_zero, Nat.mul_one, Nat.zero_mul, Nat.add_zero]
theorem State.evtPend_keyPosted : bit ((s.keyPosted tag code).tile 5).evtPend 17 = true := State.evtPend_evt _ _ (by decide)

end Posted

/-! Bindings (R197). -/

/-- An AID's binding replaced. -/
def State.setAid (s : State) (a : Nat) (v : Option (Nat × Nat)) : State :=
  s.modMlink fun x => { x with aids := tput (fun _ => none) x.aids a v }

theorem State.aid_setAid_self (s : State) (a : Nat) (v : Option (Nat × Nat)) : (s.setAid a v).aid a = v :=
  tget_tput_self (fun _ => none) s.mlink.aids a v
theorem State.aid_setAid_ne (s : State) {a b : Nat} (v : Option (Nat × Nat)) (h : b ≠ a) : (s.setAid a v).aid b = s.aid b :=
  tget_tput_ne _ s.mlink.aids v h

/-- A context is bound to some AID. -/
def State.scidBound (s : State) (scid : Nat) : Bool := s.mlink.aids.any fun e => match e.2 with
  | some (k, _) => k = scid
  | none => false

/-- A posted change of a binding: the AID named has it, the others and memory stay. -/
theorem State.aidPosted_setAid (s : State) (tag : Tag) (a : Nat) (v : Option (Nat × Nat)) :
    let u := (s.setAid a v).aidPosted tag 0 0 0
    u.aid a = v ∧ (∀ b, b ≠ a → u.aid b = s.aid b) ∧ u.rd MLINK.AID_RESULT = wd (2 ^ 31 + tag.toNat) ∧
      bit (u.tile 5).evtPend 16 = true ∧ ∀ b, u.rb b = s.rb b := by
  refine ⟨?_, fun b hb => ?_, State.rd_aidPosted_done .., State.evtPend_aidPosted .., fun b => ?_⟩
  · rw [State.aid, State.mlink_aidPosted]
    exact State.aid_setAid_self s a v
  · rw [State.aid, State.mlink_aidPosted]
    exact State.aid_setAid_ne s v hb
  · rw [State.rb_aidPosted, State.setAid, State.rb_modMlink]

section Aid
variable {s : State} {by_ : Req} {tag : Tag} (ha : s.accepts by_ 5 = true)
include ha

theorem State.aidCmd_busy (f : State → State) (hf : s.pathFree MLINK.AID_RESULT = false) : s.aidCmd by_ f = s.reqDrop 5 := by
  rw [State.aidCmd, State.onWrite_accepts _ ha, hf]
  rfl
theorem State.aidCmd_free (f : State → State) (hf : s.pathFree MLINK.AID_RESULT = true) : s.aidCmd by_ f = (f s).evt 5 16 := by
  rw [State.aidCmd, State.onWrite_accepts _ ha, if_pos hf]

theorem exec_aidAck : exec (.aidAck by_ tag) s = .next (s.pathAck MLINK.AID_RESULT 0 tag) := by
  rw [exec_aidAck_eq, execAidAck, State.onWrite_accepts _ ha]

theorem exec_aid_dropped (hf : s.pathFree MLINK.AID_RESULT = false) {i : Instr}
    (hi : i ∈ [Instr.aidSet by_ tag, .aidClr by_ tag, .aidLookup by_ tag, .aidIllegalOp by_ tag]) : exec i s = .next (s.reqDrop 5) := by
  simp only [List.mem_cons, List.not_mem_nil, or_false] at hi
  rcases hi with rfl | rfl | rfl | rfl <;> exact congrArg _ (State.aidCmd_busy ha _ hf)

section Free
variable (hf : s.pathFree MLINK.AID_RESULT = true)
include hf

/-- AID_SET by its refusals. -/
theorem exec_aidSet : exec (.aidSet by_ tag) s = .next
    (if !aidOk (s.rf MLINK.AID_ARG 10 0) then s.aidPosted tag 1 0 0
     else if (s.aid (s.rf MLINK.AID_ARG 10 0)).isSome || s.scidBound (s.rf MLINK.AID_ARG 25 16) then s.aidPosted tag 2 0 0
     else (s.setAid (s.rf MLINK.AID_ARG 10 0) (some (s.rf MLINK.AID_ARG 25 16, s.rf MLINK.AID_ARG 31 28))).aidPosted tag 0 0 0) := by
  rw [exec_aidSet_eq, execAidSet, State.aidCmd_free ha _ hf]
  simp only [apply_ite (State.evt · 5 16)]
  rfl
/-- AID_CLR by its refusals. -/
theorem exec_aidClr : exec (.aidClr by_ tag) s = .next
    (if !aidOk (s.rf MLINK.AID_ARG 10 0) then s.aidPosted tag 1 0 0
     else if (s.aid (s.rf MLINK.AID_ARG 10 0)).isNone then s.aidPosted tag 3 0 0
     else (s.setAid (s.rf MLINK.AID_ARG 10 0) none).aidPosted tag 0 0 0) := by
  rw [exec_aidClr_eq, execAidClr, State.aidCmd_free ha _ hf]
  simp only [apply_ite (State.evt · 5 16)]
  rfl
theorem exec_aidLookup_bound {k h : Nat} (hb : s.aid (s.rf MLINK.AID_ARG 10 0) = some (k, h)) :
    exec (.aidLookup by_ tag) s = .next (s.aidPosted tag 0 h k) := by
  rw [exec_aidLookup_eq, execAidLookup, State.aidCmd_free ha _ hf]
  simp only [hb]
  rfl
theorem exec_aidLookup_unbound (hb : s.aid (s.rf MLINK.AID_ARG 10 0) = none) :
    exec (.aidLookup by_ tag) s = .next (s.aidPosted tag 3 0 0) := by
  rw [exec_aidLookup_eq, execAidLookup, State.aidCmd_free ha _ hf]
  simp only [hb]
  rfl
theorem exec_aidIllegalOp : exec (.aidIllegalOp by_ tag) s = .next (s.aidPosted tag 4 0 0) := by
  rw [exec_aidIllegalOp_eq, execAidIllegalOp, State.aidCmd_free ha _ hf]
  rfl

end Free
end Aid

/-! Keys (R209). -/

/-- The key that the words of an install give. -/
def State.keyGiven (s : State) : Key :=
  { suite := s.rf MLINK.KEY_ARG 26 24, data := (List.range 8).map fun i => (s.rd (MLINK.KEY_DATA i)).toNat }

/-- A transmit selection replaced. -/
def State.setTxKey (s : State) (i : Nat) (v : Option Nat) : State :=
  s.modMlink fun x => { x with txKey := tput (fun _ => none) x.txKey i v }

/-- The selection of the key that a deletion names goes with it. -/
def State.unselect (s : State) : State := if s.txKeyId s.keySel.1 = some s.keySel.2 then s.setTxKey s.keySel.1 none else s

theorem State.key_setKey_self (s : State) (k : Nat) (v : Option Key) : (s.setKey k v).key k = v :=
  tget_tput_self (fun _ => none) s.mlink.keys k v
theorem State.txKeyId_setTxKey_self (s : State) (i : Nat) (v : Option Nat) : (s.setTxKey i v).txKeyId i = v :=
  tget_tput_self (fun _ => none) s.mlink.txKey i v
theorem State.key_setTxKey (s : State) (i : Nat) (v : Option Nat) (k : Nat) : (s.setTxKey i v).key k = s.key k := rfl
theorem State.key_keyPosted (s : State) (tag : Tag) (code k : Nat) : (s.keyPosted tag code).key k = s.key k := by
  rw [State.key, State.mlink_keyPosted, State.key]
theorem State.txKeyId_keyPosted (s : State) (tag : Tag) (code i : Nat) : (s.keyPosted tag code).txKeyId i = s.txKeyId i := by
  rw [State.txKeyId, State.mlink_keyPosted, State.txKeyId]

/-- A suite that does not suit the class of the key ID names no slot. -/
theorem State.keyArg_suiteOk (s : State) (h : s.suiteOk = false) : s.keyArg = none := by
  rw [State.keyArg, h]
  rfl

section Key
variable {s : State} {by_ : Req} {tag : Tag} (ha : s.accepts by_ 5 = true)
include ha

theorem State.keyCmd_busy (f : State → State) (hf : s.pathFree MLINK.KEY_RESULT = false) : s.keyCmd by_ f = s.reqDrop 5 := by
  rw [State.keyCmd, State.onWrite_accepts _ ha, hf]
  rfl
theorem State.keyCmd_free (f : State → State) (hf : s.pathFree MLINK.KEY_RESULT = true) : s.keyCmd by_ f = (f s).evt 5 17 := by
  rw [State.keyCmd, State.onWrite_accepts _ ha, if_pos hf]

theorem exec_keyAck : exec (.keyAck by_ tag) s = .next (s.pathAck MLINK.KEY_RESULT 0 tag) := by
  rw [exec_keyAck_eq, execKeyAck, State.onWrite_accepts _ ha]

theorem exec_key_dropped (hf : s.pathFree MLINK.KEY_RESULT = false) {i : Instr}
    (hi : i ∈ [Instr.keyInstall by_ tag, .keyDelete by_ tag, .keySetTx by_ tag, .keyIllegalOp by_ tag]) :
    exec i s = .next (s.reqDrop 5) := by
  simp only [List.mem_cons, List.not_mem_nil, or_false] at hi
  rcases hi with rfl | rfl | rfl | rfl <;> exact congrArg _ (State.keyCmd_busy ha _ hf)

section Free
variable (hf : s.pathFree MLINK.KEY_RESULT = true)
include hf

theorem exec_keyIllegalOp : exec (.keyIllegalOp by_ tag) s = .next (s.keyPosted tag 4) := by
  rw [exec_keyIllegalOp_eq, execKeyIllegalOp, State.keyCmd_free ha _ hf]
  rfl

/-- A key argument that names no slot. -/
theorem exec_key_invalid (hk : s.keyArg = none) {i : Instr}
    (hi : i ∈ [Instr.keyInstall by_ tag, .keyDelete by_ tag, .keySetTx by_ tag]) : exec i s = .next (s.keyPosted tag 1) := by
  simp only [List.mem_cons, List.not_mem_nil, or_false] at hi
  rcases hi with rfl | rfl | rfl
  · rw [exec_keyInstall_eq, execKeyInstall, State.keyCmd_free ha _ hf, hk]
    rfl
  · rw [exec_keyDelete_eq, execKeyDelete, State.keyCmd_free ha _ hf, hk]
    rfl
  · rw [exec_keySetTx_eq, execKeySetTx, State.keyCmd_free ha _ hf, hk]
    rfl

variable {k : Nat} (hk : s.keyArg = some k)
include hk

theorem exec_keyInstall : exec (.keyInstall by_ tag) s = .next ((s.setKey k (some s.keyGiven)).keyPosted tag 0) := by
  rw [exec_keyInstall_eq, execKeyInstall, State.keyCmd_free ha _ hf, hk]
  rfl
theorem exec_keyDelete : exec (.keyDelete by_ tag) s = .next
    (if (s.key k).isNone then s.keyPosted tag 3 else (s.unselect.setKey k none).keyPosted tag 0) := by
  rw [exec_keyDelete_eq, execKeyDelete, State.keyCmd_free ha _ hf, hk]
  simp only [apply_ite (State.evt · 5 17)]
  rfl
theorem exec_keySetTx : exec (.keySetTx by_ tag) s = .next
    (if (s.key k).isNone then s.keyPosted tag 3 else (s.setTxKey s.keySel.1 (some s.keySel.2)).keyPosted tag 0) := by
  rw [exec_keySetTx_eq, execKeySetTx, State.keyCmd_free ha _ hf, hk]
  simp only [apply_ite (State.evt · 5 17)]
  rfl

end Free
end Key

/-! The registers (R196, R204). -/

section Registers
variable {s : State} {by_ : Req} (ha : s.accepts by_ 5 = true) (val : Word)
include ha

theorem exec_mrxRdWrite : exec (.mrxRdWrite by_ val) s = .next (s.wr MLINK.MRX_RD (val &&& 0xFFF)) := by
  rw [exec_mrxRdWrite_eq, execMrxRdWrite, State.onWrite_accepts _ ha]
theorem exec_linkCtlWrite : exec (.linkCtlWrite by_ val) s = .next ((s.wf MLINK.LINK_CTL 2 0 (fld val 2 0)).syncLinks) := by
  rw [exec_linkCtlWrite_eq, execLinkCtlWrite, State.onWrite_accepts _ ha]

end Registers

/-- Settles O36: an AID command by the AID's binding, a key command by the slot that its argument names, the registers by their writes,
and MLINK_RUN by the start control's threads. -/
theorem aidAndKeyCommandsComplete : Obligations.AidAndKeyCommandsComplete := by
  intro by_ tag val s ha a scid g aid key bound
  refine ⟨fun hf => ⟨fun hok => ?_, fun hok hfree hb => ?_, fun hok hheld => ?_, fun hok hheld => ?_, fun hok hfree => ?_,
      fun k h => exec_aidLookup_bound ha hf, exec_aidLookup_unbound ha hf, exec_aidIllegalOp ha hf⟩,
    fun hf => ?_, fun hf => ?_, exec_aidAck ha, fun hf => ⟨fun hk => ?_, s.keyArg_suiteOk, fun k hk => ⟨?_, fun hn => ?_, fun hn => ?_,
      fun hn => ?_⟩, exec_keyIllegalOp ha hf⟩, exec_keyAck ha, exec_mrxRdWrite ha val, exec_linkCtlWrite ha val,
    fun hm => ⟨_, exec_mlinkRunWrite_eq by_ val s, fun k hk hb hr => by rw [State.thread_runWrite ha hm hk hb hr]⟩⟩
  · rw [exec_aidSet ha hf, exec_aidClr ha hf, hok]
    exact ⟨rfl, rfl⟩
  · refine ⟨_, (exec_aidSet ha hf).trans (congrArg _ ((if_neg (by rw [hok]; decide)).trans (if_neg ?_))),
      State.aidPosted_setAid ..⟩
    rw [hfree, show s.scidBound scid = false from hb]
    decide
  · refine (exec_aidSet ha hf).trans (congrArg _ ((if_neg (by rw [hok]; decide)).trans (if_pos ?_)))
    rw [Bool.or_eq_true, Option.isSome_iff_ne_none]
    exact hheld
  · refine ⟨_, (exec_aidClr ha hf).trans (congrArg _ ((if_neg (by rw [hok]; decide)).trans (if_neg ?_))), ?_⟩
    · rw [Option.isNone_iff_eq_none]
      exact hheld
    · obtain ⟨hself, hne, hres, -⟩ := State.aidPosted_setAid s tag a none
      exact ⟨hself, hne, hres⟩
  · refine (exec_aidClr ha hf).trans (congrArg _ ((if_neg (by rw [hok]; decide)).trans (if_pos ?_)))
    rw [Option.isNone_iff_eq_none]
    exact hfree
  · have dropped {i : Instr} := exec_aid_dropped (tag := tag) ha hf (i := i)
    exact ⟨dropped (by simp), dropped (by simp), dropped (by simp), dropped (by simp)⟩
  · have dropped {i : Instr} := exec_key_dropped (tag := tag) ha hf (i := i)
    exact ⟨dropped (by simp), dropped (by simp), dropped (by simp), dropped (by simp)⟩
  · have invalid {i : Instr} := exec_key_invalid (tag := tag) ha hf hk (i := i)
    exact ⟨invalid (by simp), invalid (by simp), invalid (by simp)⟩
  · refine ⟨_, exec_keyInstall ha hf hk, ?_, State.rd_keyPosted_done .., State.evtPend_keyPosted .., fun b => ?_⟩
    · rw [State.key_keyPosted, State.key_setKey_self]
      rfl
    · rw [State.rb_keyPosted, State.setKey, State.rb_modMlink]
  · refine ⟨_, (exec_keyDelete ha hf hk).trans (congrArg _ (if_neg (by rwa [Option.isNone_iff_eq_none]))), ?_,
      State.rd_keyPosted_done ..⟩
    rw [State.key_keyPosted, State.key_setKey_self]
  · refine ⟨_, (exec_keySetTx ha hf hk).trans (congrArg _ (if_neg (by rwa [Option.isNone_iff_eq_none]))), ?_, ?_,
      State.rd_keyPosted_done ..⟩
    · rw [State.txKeyId_keyPosted, State.txKeyId_setTxKey_self]
    · rw [State.key_keyPosted, State.key_setTxKey]
  · rw [exec_keyDelete ha hf hk, exec_keySetTx ha hf hk, hn]
    exact ⟨rfl, rfl⟩

end Sys2Proof.Machine
end

section
/-! The sense receiver: its scan, its frames, its dwells and its reports (R41, R134 to R140). -/

namespace Sys2Proof.Machine

open Reg

theorem exec_senseCtlWrite_eq (by_ : Req) (val : Word) (s : State) : exec (.senseCtlWrite by_ val) s = execSenseCtlWrite by_ val s := rfl
theorem exec_senseFrameEnd_eq (peak : Int) (bins : List Int) (ps : List SensePulse) (s : State) :
    exec (.senseFrameEnd peak bins ps) s = execSenseFrameEnd peak bins ps s := rfl
theorem exec_senseDwellEnd_eq (s : State) : exec .senseDwellEnd s = execSenseDwellEnd s := rfl
theorem exec_senseRetuneDone_eq (s : State) : exec .senseRetuneDone s = execSenseRetuneDone s := rfl
theorem exec_senseRptRdWrite_eq (by_ : Req) (val : Word) (s : State) :
    exec (.senseRptRdWrite by_ val) s = execSenseRptRdWrite by_ val s := rfl
theorem exec_senseRunWrite_eq (by_ : Req) (val : Word) (s : State) : exec (.senseRunWrite by_ val) s = execSenseRunWrite by_ val s := rfl

/-! The scan's entries (R138). -/

/-- An entry found lies among those searched. -/
theorem State.scanFrom_lt {s : State} {n e k : Nat} (h : s.scanFrom n e = some k) : k < e + n := by
  induction n generalizing e with
  | zero => exact absurd h (by rw [State.scanFrom]; exact nofun)
  | succ n ih =>
    rw [State.scanFrom] at h
    split at h
    · have := Option.some.inj h
      omega
    · have := ih h
      omega

/-- What the search finds depends on the table's first words alone. -/
theorem State.scanFrom_congr {s u : State} (h : ∀ k, k < 32 → u.rd (SENSE.SCAN_A k) = s.rd (SENSE.SCAN_A k)) {n e : Nat}
    (hle : e + n ≤ 32) : u.scanFrom n e = s.scanFrom n e := by
  induction n generalizing e with
  | zero => rfl
  | succ n ih => rw [State.scanFrom, State.scanFrom, h e (by omega), ih (by omega)]

theorem scanA_ne_senseCtl (k : Nat) : SENSE.SCAN_A k ≠ SENSE.SENSE_CTL :=
  show 0x6001100 + 8 * k ≠ 0x6001000 by omega

/-! The words of SENSE_STATUS. -/

/-- SENSE_STATUS as an entry is entered: running and retuning, with its index and its gain. -/
theorem enterWord_fields (st : Word) {e : Nat} (he : e < 32) (g : Nat) :
    let w := putFld (putFld (putFld st 31 30 3) 20 16 e) 15 8 g
    bit w 31 = true ∧ bit w 30 = true ∧ fld w 20 16 = e := by
  intro w
  have htop : fld w 31 30 = 3 := by
    rw [fld_putFld_beside _ _ (by decide) (by decide) (.inr (by decide)),
      fld_putFld_beside _ _ (by decide) (by decide) (.inr (by decide)), fld_putFld_self _ _ (by decide) (by decide)]
    rfl
  have hbit (i : Nat) : (fld w 31 30).testBit i = (decide (i < 2) && bit w (30 + i)) := testBit_fld w 31 30 i
  rw [htop] at hbit
  refine ⟨(hbit 1).symm, (hbit 0).symm, ?_⟩
  rw [fld_putFld_beside _ _ (by decide) (by decide) (.inr (by decide)), fld_putFld_self _ _ (by decide) (by decide)]
  exact Nat.mod_eq_of_lt he

/-- A stopped scan runs no more. -/
theorem stopWord_run (st : Word) : bit (putBit (putBit st 31 false) 30 false) 31 = false := by
  rw [putBit, bit_putFld_above _ _ (Nat.le_refl 30) (by decide), bit_putBit_self _ _ (by decide)]

/-! SENSE_CTL (R138). -/

/-- SENSE_CTL is written. -/
def State.senseSet (s : State) (val : Word) : State := s.wr SENSE.SENSE_CTL (val &&& 0xC0FFFFFF)
/-- SENSE_CTL is written and a scan is about to begin: the sequence is at 0 and no stop is asked for. -/
def State.senseStarted (s : State) (val : Word) : State :=
  { s.senseSet val with sense := { s.sense with seq := 0, stopReq := false } }

theorem State.rd_scanA_senseStarted (s : State) (val : Word) (k : Nat) :
    (s.senseStarted val).rd (SENSE.SCAN_A k) = s.rd (SENSE.SCAN_A k) := State.rd_wr_ne _ _ (scanA_ne_senseCtl k)

theorem State.scanFrom_senseStarted (s : State) (val : Word) : (s.senseStarted val).scanFrom 32 0 = s.scanFrom 32 0 :=
  State.scanFrom_congr (fun k _ => s.rd_scanA_senseStarted val k) (Nat.le_refl _)

section Ctl
variable {s : State} {by_ : Req} {val : Word}

/-- A scan that begins enters the first entry in use, or stops where there is none. -/
theorem State.scanNext_start_some {e : Nat} (h : s.scanFrom 32 0 = some e) : s.scanNext none = s.scanEnter e := by
  simp only [State.scanNext, h]
theorem State.scanNext_start_none (h : s.scanFrom 32 0 = none) : s.scanNext none = s.scanStop.evt 6 18 := by
  simp only [State.scanNext, h]

theorem State.rd_scanEnter_status (s : State) (e : Nat) : ∃ g, (s.scanEnter e).rd SENSE.SENSE_STATUS =
    putFld (putFld (putFld (s.rd SENSE.SENSE_STATUS) 31 30 3) 20 16 e) 15 8 g := ⟨_, State.rd_wr_self ..⟩
theorem State.rbit_scanStop (s : State) : s.scanStop.rbit SENSE.SENSE_STATUS 31 = false := by
  have hrd : s.scanStop.rd SENSE.SENSE_STATUS = _ := State.rd_wr_self s ..
  rw [State.rbit, hrd, stopWord_run]

variable (ha : s.accepts by_ 6 = true)
include ha

theorem exec_senseCtlWrite : exec (.senseCtlWrite by_ val) s = .next
    (if bit val 31 && !s.rbit SENSE.SENSE_CTL 31 then (s.senseStarted val).scanNext none
     else if !bit val 31 && s.rbit SENSE.SENSE_STATUS 31 then
       if s.rbit SENSE.SENSE_STATUS 30 then (s.senseSet val).scanStop
       else { s.senseSet val with sense := { s.sense with stopReq := true } }
     else s.senseSet val) := by
  rw [exec_senseCtlWrite_eq, execSenseCtlWrite, State.onWrite_accepts _ ha]
  rfl
theorem exec_senseCtlWrite_rises (hv : bit val 31 = true) (h : s.rbit SENSE.SENSE_CTL 31 = false) :
    exec (.senseCtlWrite by_ val) s = .next ((s.senseStarted val).scanNext none) := by
  rw [exec_senseCtlWrite ha, hv, h]
  rfl
theorem exec_senseCtlWrite_falls (hv : bit val 31 = false) (h : s.rbit SENSE.SENSE_STATUS 31 = true) :
    exec (.senseCtlWrite by_ val) s = .next (if s.rbit SENSE.SENSE_STATUS 30 then (s.senseSet val).scanStop
      else { s.senseSet val with sense := { s.sense with stopReq := true } }) := by
  rw [exec_senseCtlWrite ha, hv, h]
  rfl

theorem exec_senseRptRdWrite : exec (.senseRptRdWrite by_ val) s = .next (s.wr SENSE.RPT_RD (val &&& 0xFFF)) := by
  rw [exec_senseRptRdWrite_eq, execSenseRptRdWrite, State.onWrite_accepts _ ha]
theorem exec_senseRunWrite (hm : reqMgmt by_ = true) : exec (.senseRunWrite by_ val) s = .next
    ((s.wr SENSE.SENSE_RUN (s.rd SENSE.SENSE_RUN ||| (val &&& 3))).startThreads 6 0 val 2) := by
  rw [exec_senseRunWrite_eq, execSenseRunWrite, State.runWrite_mgmt ha hm]
  rfl

end Ctl

/-! Frames, dwells and retunes (R134 to R138). -/

section Scan
variable {s : State} (hrun : s.rbit SENSE.SENSE_STATUS 31 = true)
include hrun

theorem exec_senseFrameEnd (peak : Int) (bins : List Int) (ps : List SensePulse) (htune : s.rbit SENSE.SENSE_STATUS 30 = false)
    (ht : s.sense.total < max 1 (fld s.sense.curB 31 16)) (hat : s.sense.frameAt + 2500 ≤ s.clock) :
    let x := s.sense
    let g := s.rf SENSE.SENSE_STATUS 15 8
    let g1 := if bit x.curB 7 then senseGain peak g else g
    let x1 : Sense := { x with
      frames := if s.selfTransmit then x.frames else x.frames ++ [(bins.take 1600).mapIdx fun b p => s.powerCode g b p]
      selfTx := if s.selfTransmit then x.selfTx + 1 else x.selfTx
      total := x.total + 1
      gainChanged := x.gainChanged || g1 != g
      frameAt := s.clock
      pulses := if s.rbit SENSE.SENSE_CTL 30 && bit x.curA 27 && !s.selfTransmit then x.pulses ++ ps.filterMap (s.pulseOf g)
        else x.pulses }
    let v := (List.range (x1.pulses.length / 254)).foldl (fun (w : State) _ => w.pulseReport false)
      { s.wr SENSE.SENSE_STATUS (putFld (s.rd SENSE.SENSE_STATUS) 15 8 g1) with sense := x1 }
    exec (.senseFrameEnd peak bins ps) s = .next (if x.stopReq then (v.entryReports true).scanStop else v) := by
  rw [exec_senseFrameEnd_eq, execSenseFrameEnd]
  refine congrArg _ (if_neg ?_)
  rw [show bit (s.rd SENSE.SENSE_STATUS) 31 = true from hrun, show bit (s.rd SENSE.SENSE_STATUS) 30 = false from htune]
  simp only [Bool.not_true, Bool.false_or, Bool.or_eq_true, decide_eq_true_eq, not_or, Nat.not_le, Nat.not_lt]
  exact ⟨ht, hat⟩

theorem exec_senseDwellEnd (htune : s.rbit SENSE.SENSE_STATUS 30 = false) (ht : max 1 (fld s.sense.curB 31 16) ≤ s.sense.total) :
    exec .senseDwellEnd s = .next (if s.sense.stopReq then (s.entryReports true).scanStop
      else (s.entryReports false).scanNext (some (s.rf SENSE.SENSE_STATUS 20 16))) := by
  rw [exec_senseDwellEnd_eq, execSenseDwellEnd]
  refine congrArg _ (if_pos ?_)
  rw [show bit (s.rd SENSE.SENSE_STATUS) 31 = true from hrun, show bit (s.rd SENSE.SENSE_STATUS) 30 = false from htune]
  simpa using ht

theorem exec_senseRetuneDone (htune : s.rbit SENSE.SENSE_STATUS 30 = true) : exec .senseRetuneDone s = .next
    { s.wr SENSE.SENSE_STATUS (putBit (s.rd SENSE.SENSE_STATUS) 30 false) with
      sense := { s.sense with startNs := s.ns, gain0 := s.rf SENSE.SENSE_STATUS 15 8, gainChanged := false, frameAt := s.clock } } := by
  rw [exec_senseRetuneDone_eq, execSenseRetuneDone]
  refine congrArg _ (if_pos ?_)
  rw [show bit (s.rd SENSE.SENSE_STATUS) 31 = true from hrun, show bit (s.rd SENSE.SENSE_STATUS) 30 = true from htune]
  rfl

end Scan

/-! The report ring (R139). -/

/-- A counter that takes a whole register counts up to its last value. -/
theorem State.rd_sat_whole (s : State) (a : RegId) :
    (s.sat a 31 0 1).rd a = if (s.rd a).toNat = 2 ^ 32 - 1 then s.rd a else s.rd a + 1 := by
  have hfld : s.rf a 31 0 = (s.rd a).toNat := Nat.mod_eq_of_lt (s.rd a).isLt
  have hput (n : Nat) : putFld (s.rd a) 31 0 n = BitVec.ofNat 32 n := by
    rw [putFld, show ~~~ fmask 31 0 = 0#32 by decide, BitVec.and_zero, BitVec.zero_or, Nat.pow_zero, Nat.mul_one]
    exact BitVec.eq_of_toNat_eq (by simp)
  rw [State.sat, State.rd_wf_self, hput, hfld]
  have hlt := (s.rd a).isLt
  split
  case isTrue h =>
    rw [h]
    exact BitVec.eq_of_toNat_eq (by rw [h]; rfl)
  case isFalse h =>
    rw [Nat.min_eq_right (by omega)]
    exact BitVec.eq_of_toNat_eq (by simp)

/-- A report takes its sequence number. -/
def State.reportNumbered (s : State) : State := { s with sense := { s.sense with seq := s.sense.seq + 1 } }

/-- A full ring drops the report and counts it. -/
theorem State.report_full {s : State}
    (h : (s.rf SENSE.RPT_WR 11 0 % s.rptSlots + 1) % s.rptSlots = s.rf SENSE.RPT_RD 11 0 % s.rptSlots)
    (type flags count : Nat) (body : List Byte) : s.report type flags count body =
      (s.reportNumbered.sat SENSE.RPT_DROP 31 0 1).evt 6 17 := by
  rw [State.report]
  exact if_pos (by rw [h]; simp)

/-- Settles O52: SENSE_CTL by RUN's old and new value, a frame and a dwell by whether a stop is asked for, a retune and a dropped report by
the words that they write. -/
theorem senseScansAndReports : Obligations.SenseScansAndReports := by
  intro by_ val peak bins ps s ctl st g x dwell s1 s2
  refine ⟨fun ha => ⟨fun hv hc => ⟨fun e he => ?_, fun hn => ?_⟩, fun hv hr ht => ?_, fun hv hr ht => ?_, exec_senseRptRdWrite ha,
      exec_senseRunWrite ha⟩, fun hrun htune ht hat => ?_, fun hrun htune ht => ⟨fun hs => ?_, fun hs => ?_⟩, fun hrun htune => ?_,
    fun hfull type flags count body => ⟨_, State.report_full hfull .., State.evtPend_evt _ _ (by decide), fun a => ?_, ?_, ?_⟩⟩
  · have he32 : e < 32 := by simpa using State.scanFrom_lt he
    obtain ⟨gain, hst⟩ := State.rd_scanEnter_status (s.senseStarted val) e
    obtain ⟨hbusy, htuning, hidx⟩ := enterWord_fields ((s.senseStarted val).rd st) he32 gain
    refine ⟨(s.senseStarted val).scanEnter e, (exec_senseCtlWrite_rises ha hv hc).trans
      (congrArg _ (State.scanNext_start_some ((s.scanFrom_senseStarted val).trans he))), rfl, ?_, ?_, ?_,
      s.rd_scanA_senseStarted val e, rfl, rfl⟩
    · rw [State.rbit, hst, hbusy]
    · rw [State.rbit, hst, htuning]
    · rw [State.rf, hst, hidx]
  · refine ⟨_, (exec_senseCtlWrite_rises ha hv hc).trans
      (congrArg _ (State.scanNext_start_none ((s.scanFrom_senseStarted val).trans hn))), ?_, State.evtPend_evt _ _ (by decide)⟩
    rw [State.rbit, State.rd_evt]
    exact State.rbit_scanStop _
  · exact (exec_senseCtlWrite_falls ha hv hr).trans (congrArg _ (if_pos ht))
  · exact (exec_senseCtlWrite_falls ha hv hr).trans (congrArg _ (if_neg (by rw [ht]; decide)))
  · intro self g1 x1 u v
    have hend := exec_senseFrameEnd hrun peak bins ps htune ht hat
    exact ⟨fun hs => hend.trans (congrArg _ (if_neg (by rw [hs]; decide))), fun hs => hend.trans (congrArg _ (if_pos hs))⟩
  · rw [exec_senseDwellEnd hrun htune ht, if_neg (by rw [hs]; decide)]
  · rw [exec_senseDwellEnd hrun htune ht, if_pos hs]
  · refine ⟨_, exec_senseRetuneDone hrun htune, ?_, rfl, rfl, rfl, fun a hne => State.rd_wr_ne _ _ hne⟩
    have hst : (s.wr st (putBit (s.rd st) 30 false)).rd st = _ := State.rd_wr_self ..
    exact (congrArg (bit · 30) hst).trans (bit_putBit_self _ _ (by decide))
  · rw [State.rb_evt]
    rfl
  · have hne : SENSE.RPT_WR ≠ SENSE.RPT_DROP := by decide
    rw [State.rf, State.rd_evt, State.sat, State.rd_wf_ne _ _ _ _ hne]
    rfl
  · rw [State.rd_evt, State.rd_sat_whole]
    rfl

end Sys2Proof.Machine
end

section
/-! Newt's receiver: its channel, its gain and antenna, its frames and its Acks (R41, R244, R246, R247, R248, R252, R261, R262). -/

namespace Sys2Proof.Machine

open Reg

theorem exec_newtCtlWrite_eq (by_ : Req) (val : Word) (s : State) : exec (.newtCtlWrite by_ val) s = execNewtCtlWrite by_ val s := rfl
theorem exec_newtRetuneDone_eq (locked : Bool) (s : State) : exec (.newtRetuneDone locked) s = execNewtRetuneDone locked s := rfl
theorem exec_newtAgcStep_eq (peak : Int) (s : State) : exec (.newtAgcStep peak) s = execNewtAgcStep peak s := rfl
theorem exec_newtPreambleAcquire_eq (s : State) : exec .newtPreambleAcquire s = execNewtPreambleAcquire s := rfl
theorem exec_newtAntSelect_eq (mine other : Nat) (sfd : Bool) (s : State) :
    exec (.newtAntSelect mine other sfd) s = execNewtAntSelect mine other sfd s := rfl
theorem exec_newtFrameReceive_eq (psdu : List Byte) (rssi lqi : Byte) (s : State) :
    exec (.newtFrameReceive psdu rssi lqi) s = execNewtFrameReceive psdu rssi lqi s := rfl
theorem exec_newtAckSend_eq (s : State) : exec .newtAckSend s = execNewtAckSend s := rfl
theorem exec_rxrRdWrite_eq (by_ : Req) (val : Word) (s : State) : exec (.rxrRdWrite by_ val) s = execRxrRdWrite by_ val s := rfl
theorem exec_newtRunWrite_eq (by_ : Req) (val : Word) (s : State) : exec (.newtRunWrite by_ val) s = execNewtRunWrite by_ val s := rfl

/-! The channel (R244). -/

/-- A field replaced by what it holds. -/
theorem putFld_fld_self {w : Word} {hi lo v : Nat} (hle : lo ≤ hi) (hhi : hi < 32) (h : fld w hi lo = v) : putFld w hi lo v = w := by
  refine BitVec.eq_of_getLsbD_eq fun i _ => ?_
  rcases Nat.lt_or_ge i lo with hlow | hlow
  · exact bit_putFld_below w v hlow
  rcases Nat.lt_or_ge hi i with hhigh | hhigh
  · exact bit_putFld_above w v hle hhigh
  · have hbit (u : Word) : u.getLsbD i = (fld u hi lo).testBit (i - lo) := by
      rw [testBit_fld, Nat.add_sub_cancel' hlow, bit, decide_eq_true (by omega), Bool.true_and]
    have hv : v < 2 ^ (hi - lo + 1) := h ▸ fld_lt w hi lo
    rw [hbit, hbit, fld_putFld_self w v hle hhi, h, Nat.mod_eq_of_lt hv]

/-- NEWT_CTL as a write leaves it, the channel apart. -/
def newtCtlWord (old val : Word) : Word := putFld (val &&& 0xFC03FFDF) 4 0 (fld old 4 0)

theorem newtCtlWord_sameChannel {old val : Word} (h : fld val 4 0 = fld old 4 0) : newtCtlWord old val = val &&& 0xFC03FFDF := by
  refine putFld_fld_self (by decide) (by decide) ?_
  rw [← h]
  exact fld_and_mask val (by decide)

/-- The seed that EN's rise loads. -/
def State.newtSeeded (s : State) : Word := if s.rd NEWT.NEWT_SEED = 0 then 0x2545F491 else s.rd NEWT.NEWT_SEED

/-- NEWT_CTL is written, and EN's rise loads the seed. -/
def State.newtCtlSet (s : State) (val : Word) : State :=
  let s1 := s.wr NEWT.NEWT_CTL (newtCtlWord (s.rd NEWT.NEWT_CTL) val)
  if bit val 31 && !s.rbit NEWT.NEWT_CTL 31 then s1.modNewt fun x => { x with g := s.newtSeeded } else s1

/-- A listed channel waits, none where it is the one in use. -/
def State.newtChanWaits (s : State) (old c : Nat) : State :=
  s.modNewt fun x => { x with chanPend := if c = old then none else some c }

/-- A waiting channel takes effect. -/
def State.newtRelocks (s : State) (c : Nat) : State :=
  ((s.modNewt fun x => { x with chanPend := none, retries := 0 }).wf NEWT.NEWT_CTL 4 0 c).wf NEWT.NEWT_STATUS 31 31 1

theorem State.newtRetune_waits {s : State} {c : Nat} (hc : s.newt.chanPend = some c) (hi : s.newtIdle = true)
    (hr : s.newtRetuning = false) : s.newtRetune = s.newtRelocks c := by
  rw [State.newtRetune, hc]
  exact if_pos (by rw [hi, hr]; rfl)
theorem State.newtRetune_none {s : State} (hc : s.newt.chanPend = none) : s.newtRetune = s := by
  rw [State.newtRetune, hc]

/-- A reader that the antenna in use does not concern: listening leaves it alone. -/
theorem State.newtListen_frame {β : Type} (g : State → β) (hg : ∀ (u : State) a, g (u.newtAnt a) = g u) (s : State) :
    g s.newtListen = g s := by
  unfold State.newtListen
  split
  · rfl
  · exact hg ..

theorem State.newt_newtListen (s : State) : s.newtListen.newt = s.newt := s.newtListen_frame (·.newt) fun _ _ => rfl
theorem State.rd_newtListen (s : State) {a : RegId} (h : a ≠ NEWT.NEWT_STATUS) : s.newtListen.rd a = s.rd a :=
  s.newtListen_frame (·.rd a) fun u _ => u.rd_wf_ne _ _ _ h
theorem State.newtRetuning_newtListen (s : State) : s.newtListen.newtRetuning = s.newtRetuning :=
  s.newtListen_frame (·.newtRetuning) fun u a => by
    rw [State.newtRetuning, State.rbit, State.newtAnt, State.rd_wf_self, bit_putFld_above _ _ (by decide) (by decide)]
    rfl

section Ctl
variable {s : State} {val : Word}

theorem State.newt_newtCtlSet (s : State) (val : Word) : (s.newtCtlSet val).newt =
    { s.newt with g := if bit val 31 && !s.rbit NEWT.NEWT_CTL 31 then s.newtSeeded else s.newt.g } := by
  unfold State.newtCtlSet
  extract_lets s1
  split <;> rfl
theorem State.rd_newtCtlSet (s : State) (val : Word) (a : RegId) : (s.newtCtlSet val).rd a =
    (s.wr NEWT.NEWT_CTL (newtCtlWord (s.rd NEWT.NEWT_CTL) val)).rd a := by
  unfold State.newtCtlSet
  extract_lets s1
  split <;> rfl
theorem State.clock_newtCtlSet (s : State) (val : Word) : (s.newtCtlSet val).clock = s.clock := by
  unfold State.newtCtlSet
  extract_lets s1
  split <;> rfl

/-- What waits for the channel's change is a reading of Newt's own state and the clock. -/
theorem State.newtIdle_newtChanWaits (s : State) (val : Word) (old c : Nat) :
    ((s.newtCtlSet val).newtChanWaits old c).newtIdle = s.newtIdle := by
  have hn : ((s.newtCtlSet val).newtChanWaits old c).newt = { (s.newtCtlSet val).newt with chanPend := if c = old then none else some c } := rfl
  have hc : ((s.newtCtlSet val).newtChanWaits old c).clock = s.clock := s.clock_newtCtlSet val
  rw [State.newtIdle, State.newtIdle, hn, hc, State.newt_newtCtlSet]
theorem State.newtRetuning_newtChanWaits (s : State) (val : Word) (old c : Nat) :
    ((s.newtCtlSet val).newtChanWaits old c).newtRetuning = s.newtRetuning := by
  have hne : NEWT.NEWT_STATUS ≠ NEWT.NEWT_CTL := by decide
  have hrd : ((s.newtCtlSet val).newtChanWaits old c).rd NEWT.NEWT_STATUS = s.rd NEWT.NEWT_STATUS :=
    (s.rd_newtCtlSet val _).trans (State.rd_wr_ne _ _ hne)
  rw [State.newtRetuning, State.rbit, hrd, State.newtRetuning, State.rbit]

/-- A channel that waits nowhere stands as if none were asked for. -/
theorem State.newtChanWaits_same {u : State} (old : Nat) (h : u.newt.chanPend = none) : u.newtChanWaits old old = u := by
  have hn : ({ u.newt with chanPend := none } : Newt) = u.newt := by rw [← h]
  rw [State.newtChanWaits, if_pos rfl, State.modNewt, hn]

variable {by_ : Req} (ha : s.accepts by_ 7 = true)
include ha

theorem exec_newtCtlWrite : exec (.newtCtlWrite by_ val) s = .next
    (if 11 ≤ fld val 4 0 && fld val 4 0 ≤ 26 then (s.newtCtlSet val).newtChanWaits (s.rf NEWT.NEWT_CTL 4 0) (fld val 4 0)
      else s.newtCtlSet val).newtRetune.newtListen := by
  rw [exec_newtCtlWrite_eq, execNewtCtlWrite, State.onWrite_accepts _ ha]
  rfl

/-- NEWT_CTL that keeps the channel and does not raise EN. -/
theorem exec_newtCtlWrite_plain (hc : fld val 4 0 = s.rf NEWT.NEWT_CTL 4 0) (hp : s.newt.chanPend = none)
    (hen : bit val 31 = true → s.rbit NEWT.NEWT_CTL 31 = true) :
    exec (.newtCtlWrite by_ val) s = .next (s.wr NEWT.NEWT_CTL (val &&& 0xFC03FFDF)).newtListen := by
  have hset : s.newtCtlSet val = s.wr NEWT.NEWT_CTL (val &&& 0xFC03FFDF) := by
    rw [State.newtCtlSet, newtCtlWord_sameChannel hc]
    exact if_neg (by simpa using hen)
  have hnone : (s.newtCtlSet val).newt.chanPend = none := by rw [State.newt_newtCtlSet, hp]
  rw [exec_newtCtlWrite ha, hc, State.newtChanWaits_same _ hnone, ite_self, State.newtRetune_none hnone, hset]

/-- NEWT_CTL that names another listed channel while the radio is idle. -/
theorem exec_newtCtlWrite_channel (hi : s.newtIdle = true) (hr : s.newtRetuning = false) (hlo : 11 ≤ fld val 4 0)
    (hhi : fld val 4 0 ≤ 26) (hne : fld val 4 0 ≠ s.rf NEWT.NEWT_CTL 4 0) : exec (.newtCtlWrite by_ val) s =
      .next (((s.newtCtlSet val).newtChanWaits (s.rf NEWT.NEWT_CTL 4 0) (fld val 4 0)).newtRelocks (fld val 4 0)).newtListen := by
  rw [exec_newtCtlWrite ha, if_pos (by simp [hlo, hhi]),
    State.newtRetune_waits (if_neg hne) (by rw [State.newtIdle_newtChanWaits, hi]) (by rw [State.newtRetuning_newtChanWaits, hr])]

theorem exec_rxrRdWrite : exec (.rxrRdWrite by_ val) s = .next (s.wr NEWT.RXR_RD (val &&& 0x3F)) := by
  rw [exec_rxrRdWrite_eq, execRxrRdWrite, State.onWrite_accepts _ ha]
theorem exec_newtRunWrite (hm : reqMgmt by_ = true) : exec (.newtRunWrite by_ val) s = .next
    ((s.wr NEWT.NEWT_RUN (s.rd NEWT.NEWT_RUN ||| (val &&& 1))).startThreads 7 0 val 1) := by
  rw [exec_newtRunWrite_eq, execNewtRunWrite, State.runWrite_mgmt ha hm]
  rfl

end Ctl

/-! What a relock that begins shows. -/

theorem State.rf_newtRelocks (s : State) {c : Nat} (h : c < 32) : (s.newtRelocks c).rf NEWT.NEWT_CTL 4 0 = c := by
  have hne : NEWT.NEWT_CTL ≠ NEWT.NEWT_STATUS := by decide
  rw [State.rf, State.newtRelocks, State.rd_wf_ne _ _ _ _ hne, State.rd_wf_self, fld_putFld_self _ _ (by decide) (by decide)]
  exact Nat.mod_eq_of_lt h
theorem State.newtRetuning_newtRelocks (s : State) (c : Nat) : (s.newtRelocks c).newtRetuning = true := by
  rw [State.newtRetuning, State.rbit, State.newtRelocks, State.rd_wf_self]
  exact bit_putBit_self _ true (by decide)

/-! The end of a retune (R244). -/

section Retune
variable {s : State} (hr : s.newtRetuning = true)
include hr

omit hr in
theorem State.modNewtTx_none (f : NewtTx → NewtTx) (h : s.newt.tx = none) : s.modNewtTx f = s := by
  have hn : ({ s.newt with tx := s.newt.tx.map f } : Newt) = s.newt := by rw [h, Option.map_none, ← h]
  rw [State.modNewtTx, State.modNewt, hn]

/-- The synthesiser is locked. -/
def State.newtLocked (s : State) : State := (s.wf NEWT.NEWT_STATUS 31 31 0).modNewt fun x => { x with retries := 0 }

/-- A lock with no channel and no command waiting. -/
theorem exec_newtRetuneDone_locked (hf : s.life 7 ≠ .fault) (hc : s.newt.chanPend = none) (ht : s.newt.tx = none) :
    exec (.newtRetuneDone true) s = .next s.newtLocked := by
  have htx : s.newtLocked.newt.tx = none := ht
  have hgo : s.newtLocked.newtGo = s.newtLocked := by rw [State.newtGo, htx]
  have hdone : s.newtRetuned true = s.newtLocked := by
    unfold State.newtRetuned
    rw [hr, if_neg (by decide), if_pos rfl]
    refine (congrArg (·.newtRetune.newtGo) (State.modNewtTx_none (s := s.newtLocked) _ htx)).trans ?_
    rw [State.newtRetune_none (s := s.newtLocked) hc, hgo]
  rw [exec_newtRetuneDone_eq, execNewtRetuneDone, hdone]
  refine congrArg _ (if_neg ?_)
  have hlife : s.newtLocked.life 7 = s.life 7 := rfl
  rw [hlife]
  simp [hf]

/-- A first failure is tried again. -/
theorem exec_newtRetuneDone_again (hf : s.life 7 ≠ .fault) (h : s.newt.retries = 0) :
    exec (.newtRetuneDone false) s = .next (s.modNewt fun x => { x with retries := 1 }) := by
  have hdone : s.newtRetuned false = s.modNewt fun x => { x with retries := 1 } := by
    unfold State.newtRetuned
    rw [hr, if_neg (by decide), if_neg (by decide), if_pos h]
  rw [exec_newtRetuneDone_eq, execNewtRetuneDone, hdone]
  refine congrArg _ (if_neg ?_)
  have hlife : (s.modNewt fun x => { x with retries := 1 }).life 7 = s.life 7 := rfl
  rw [hlife]
  simp [hf]

/-- A second failure is fatal. -/
theorem exec_newtRetuneDone_fatal (h : s.newt.retries ≠ 0) : exec (.newtRetuneDone false) s =
    .next (s.faultHook ((s.modNewt fun x => { x with retries := 0 }).recordErr 7 0x80 noUnit 0 0 true) 7) := by
  have hdone : s.newtRetuned false = (s.modNewt fun x => { x with retries := 0 }).recordErr 7 0x80 noUnit 0 0 true := by
    unfold State.newtRetuned
    rw [hr, if_neg (by decide), if_neg (by decide), if_neg h]
  rw [exec_newtRetuneDone_eq, execNewtRetuneDone, hdone]

end Retune

/-! Gain, preamble and antenna (R246, R247). -/

section Acquire
variable {s : State}

theorem exec_newtAgcStep (hon : s.newtOn = true) (peak : Int) :
    let g := s.rf NEWT.NEWT_STATUS 13 8
    exec (.newtAgcStep peak) s = .next (if -8 ≤ peak ∧ 8 ≤ g then s.wf NEWT.NEWT_STATUS 13 8 (g - 8)
      else if peak ≤ -24 ∧ g ≤ 40 then s.wf NEWT.NEWT_STATUS 13 8 (g + 8) else s) := by
  intro g
  rw [exec_newtAgcStep_eq, execNewtAgcStep]
  refine congrArg _ ((if_neg (by rw [hon]; decide)).trans (if_congr ?_ rfl (if_congr ?_ rfl rfl))) <;>
    rw [Bool.and_eq_true, decide_eq_true_eq, decide_eq_true_eq]

theorem exec_newtPreambleAcquire (hon : s.newtOn = true) (hrx : s.newt.rx = none) (hack : s.newt.ackEnd ≤ s.clock) :
    exec .newtPreambleAcquire s = .next ((s.modNewt fun x => { x with rx := some (s.clock, false) }).wf NEWT.NEWT_STATUS 30 30 1) := by
  rw [exec_newtPreambleAcquire_eq, execNewtPreambleAcquire]
  exact congrArg _ (if_neg (by simp [hon, hrx, hack]))

variable {t : Nat} (hrx : s.newt.rx = some (t, false)) (mine other : Nat)
include hrx

theorem exec_newtAntSelect_sfd : exec (.newtAntSelect mine other true) s = .next (s.modNewt fun x => { x with rx := some (t, true) }) := by
  rw [exec_newtAntSelect_eq, execNewtAntSelect, hrx]
  rfl
theorem exec_newtAntSelect (ht : t + 16000 ≤ s.clock) :
    let s1 := s.modNewt fun x => { x with rx := some (t, true) }
    exec (.newtAntSelect mine other false) s = .next (if 2 ≤ s.rf NEWT.NEWT_CTL 17 16 ∧ other ≤ mine
      then s1.newtAnt (1 - s.rf NEWT.NEWT_STATUS 29 29) else s1) := by
  intro s1
  rw [exec_newtAntSelect_eq, execNewtAntSelect, hrx]
  refine congrArg _ ((if_neg (by decide)).trans ((if_neg (Nat.not_lt.mpr ht)).trans (if_congr ?_ rfl rfl)))
  rw [Bool.and_eq_true, decide_eq_true_eq, decide_eq_true_eq]

end Acquire

/-! Frames outside promiscuous mode (R248, R252). -/

section Frame
variable (s : State) (psdu : List Byte) (rssi lqi : Byte) (h : NewtMhr)

/-- What follows a frame that is not to be answered. -/
def State.newtFinish (u : State) : State := u.newtListen.newtGo.newtRetune
/-- The reception is over. -/
def State.newtRxOver (s : State) : State := (s.modNewt fun x => { x with rx := none }).wf NEWT.NEWT_STATUS 30 30 0
/-- A good frame's antenna is noted, and an Ack that a command awaits ends it. -/
def State.newtRxGood (s : State) (psdu : List Byte) (h : NewtMhr) : State :=
  let s1 := s.newtRxOver.modNewt fun x => { x with lastAnt := s.rf NEWT.NEWT_STATUS 29 29 }
  match s.newtMatch h (s.clock - (psdu.length + 1) * 16000) with
  | some t => s1.newtPost t.tag 0 t.attempts ((psdu.headD 0).toNat / 16 % 2 = 1)
  | none => s1
/-- The frame is to be delivered. -/
def State.newtDelivers (s : State) (h : NewtMhr) : Bool :=
  s.newtAccept h && !(s.rbit NEWT.NEWT_CTL 28 && h.type = 1 && (s.newtSource h).isNone)
/-- A frame that is neither delivered nor an Ack is counted. -/
def State.newtRxCounted (s : State) (psdu : List Byte) (h : NewtMhr) : State :=
  if s.newtDelivers h || (h.type = 2 && h.ver < 3) then s.newtRxGood psdu h else (s.newtRxGood psdu h).sat NEWT.NEWT_CNT0 7 0 1
/-- What is kept of a frame for its delivery. -/
def State.newtGotten (s : State) (psdu : List Byte) (rssi lqi : Byte) (h : NewtMhr) : NewtGot :=
  { psdu := psdu, ant := s.rf NEWT.NEWT_STATUS 29 29, rssi := rssi.toNat, lqi := lqi.toNat, chan := s.rf NEWT.NEWT_CTL 4 0,
    index := s.newtSource h, time := s.ns - (psdu.length + 1) * 32000 }
/-- The frame is to be answered. -/
def State.newtAnswers (s : State) (h : NewtMhr) : Bool := s.newtAccept h && h.ar && s.newtMine h
/-- Octets of the Ack to a frame. -/
def newtAckOctets (h : NewtMhr) : Nat :=
  if h.ver < 2 then 5 else 6 + b2n h.seq.isSome + addrLen h.srcMode + (if h.sec then 5 + h.keyLen + micLen h.level else 0)
/-- The frame-pending bit of the Ack to a frame. -/
def State.newtAckPending (s : State) (psdu : List Byte) (h : NewtMhr) : Bool :=
  s.newtAnswers h && (s.rbit NEWT.NEWT_CTL 27 || (h.type = 3 && frameField (psdu.take (psdu.length - 2)) h.body 1 = 4)) &&
    (match s.newtSource h with
      | some i => s.newtPend i
      | none => s.rbit NEWT.NEWT_CTL 26)
/-- The Ack that is set down. -/
def State.newtAckDue (s : State) (psdu : List Byte) (rssi lqi : Byte) (h : NewtMhr) : NewtAck :=
  { at_ := s.clock + 95000, octets := newtAckOctets h, secured := h.ver = 2 && h.sec, fp := s.newtAckPending psdu h,
    deliver := s.newtDelivers h, got := s.newtGotten psdu rssi lqi h }

variable {s psdu h} {t : Nat} {b : Bool} (hrx : s.newt.rx = some (t, b)) (hpro : s.rbit NEWT.NEWT_CTL 30 = false)
  (hlo : 5 ≤ psdu.length) (hhi : psdu.length ≤ 127)
include hrx hpro hlo hhi

theorem exec_newtFrameReceive_badFcs (hcrc : crc16 (psdu.take (psdu.length - 2)) ≠ frameField psdu (psdu.length - 2) 2) :
    exec (.newtFrameReceive psdu rssi lqi) s = .next (s.newtRxOver.sat NEWT.NEWT_CNT0 15 8 1).newtFinish := by
  have hlen : ¬ (decide (psdu.length < 5) || decide (127 < psdu.length)) = true := by simp [hlo, hhi]
  have hfcs : (5 ≤ psdu.length && psdu.length ≤ 127 && crc16 (psdu.take (psdu.length - 2)) = frameField psdu (psdu.length - 2) 2) =
      false := by simp [hcrc]
  rw [exec_newtFrameReceive_eq, execNewtFrameReceive, hrx]
  simp only [hpro, hfcs, if_neg hlen]
  rfl

/-- A good frame: the Ack to it is set down, or it is delivered where it is to be. -/
theorem exec_newtFrameReceive_good (hcrc : crc16 (psdu.take (psdu.length - 2)) = frameField psdu (psdu.length - 2) 2)
    (hp : newtParse (psdu.take (psdu.length - 2)) = some h) : exec (.newtFrameReceive psdu rssi lqi) s = .next
      (if s.newtAnswers h then
        (s.newtRxCounted psdu h).modNewt fun y => { y with ack := some (s.newtAckDue psdu rssi lqi h) }
      else State.newtFinish (if s.newtDelivers h then (s.newtRxCounted psdu h).newtHand (s.newtGotten psdu rssi lqi h) 0
        else s.newtRxCounted psdu h)) := by
  have hlen : ¬ (decide (psdu.length < 5) || decide (127 < psdu.length)) = true := by simp [hlo, hhi]
  have hfcs : (5 ≤ psdu.length && psdu.length ≤ 127 && crc16 (psdu.take (psdu.length - 2)) = frameField psdu (psdu.length - 2) 2) =
      true := by simp [hcrc, hlo, hhi]
  have hsrc : (!(s.newtSource h).isSome) = (s.newtSource h).isNone := by cases s.newtSource h <;> rfl
  rw [exec_newtFrameReceive_eq, execNewtFrameReceive, hrx]
  simp only [hpro, hfcs, if_neg hlen, hp, hsrc, Bool.not_false, Bool.and_true, Bool.false_or]
  rfl

end Frame

/-! An Ack goes out (R252). -/

section Ack
variable {s : State} {a : NewtAck} (ha : s.newt.ack = some a) (hat : a.at_ ≤ s.clock)
include ha hat

/-- The Ack is due: what is sent and counted by its grant and its counter, then the frame's delivery. -/
theorem exec_newtAckSend : exec .newtAckSend s = .next (
    let granted := s.newtGrant (s.rf NEWT.COEX_CTL 9 8)
    let sent := granted && !(a.secured && s.rd NEWT.NEWT_FC = 0xFFFFFFFF)
    let s0 := s.modNewt fun x => { x with
      ack := none, ackEnd := if sent then s.clock + 1000 + (6 + a.octets) * 16000 else x.ackEnd }
    let s1 := if granted then s0 else s0.sat NEWT.NEWT_CNT1 7 0 1
    let s2 := if sent && a.secured then s1.wr NEWT.NEWT_FC (s.rd NEWT.NEWT_FC + 1) else s1
    (if a.deliver then s2.newtHand a.got (if sent then 2 + 4 * b2n a.fp else 0) else s2).newtFinish) := by
  rw [exec_newtAckSend_eq, execNewtAckSend, ha]
  exact congrArg _ (if_neg (Nat.not_lt.mpr hat))

/-- The delivery that follows an Ack. -/
def State.newtAckHand (u : State) (a : NewtAck) (flags : Nat) : State := if a.deliver then u.newtHand a.got flags else u

theorem exec_newtAckSend_sent (hg : s.newtGrant (s.rf NEWT.COEX_CTL 9 8) = true)
    (hs : ¬ (a.secured = true ∧ s.rd NEWT.NEWT_FC = 0xFFFFFFFF)) :
    let s0 := s.modNewt fun x => { x with ack := none, ackEnd := s.clock + 1000 + (6 + a.octets) * 16000 }
    let s1 := if a.secured then s0.wr NEWT.NEWT_FC (s.rd NEWT.NEWT_FC + 1) else s0
    exec .newtAckSend s = .next (s1.newtAckHand a (2 + 4 * b2n a.fp)).newtFinish := by
  have hsent : (!(a.secured && decide (s.rd NEWT.NEWT_FC = 0xFFFFFFFF))) = true := by
    rw [Bool.not_eq_true', Bool.eq_false_iff]
    simpa using hs
  rw [exec_newtAckSend ha hat, hg, hsent]
  rfl
theorem exec_newtAckSend_spent (hg : s.newtGrant (s.rf NEWT.COEX_CTL 9 8) = true)
    (hs : a.secured = true ∧ s.rd NEWT.NEWT_FC = 0xFFFFFFFF) :
    exec .newtAckSend s = .next ((s.modNewt fun x => { x with ack := none }).newtAckHand a 0).newtFinish := by
  have hspent : (!(a.secured && decide (s.rd NEWT.NEWT_FC = 0xFFFFFFFF))) = false := by
    rw [hs.1, decide_eq_true hs.2]
    rfl
  rw [exec_newtAckSend ha hat, hg, hspent]
  rfl
theorem exec_newtAckSend_refused (hg : s.newtGrant (s.rf NEWT.COEX_CTL 9 8) = false) : exec .newtAckSend s =
    .next (((s.modNewt fun x => { x with ack := none }).sat NEWT.NEWT_CNT1 7 0 1).newtAckHand a 0).newtFinish := by
  rw [exec_newtAckSend ha hat, hg]
  rfl

end Ack

/-- Settles O50: NEWT_CTL by the channel it names, a retune by its outcome, a frame by its FCS and what answers it, and an Ack by its grant
and its counter. -/
theorem newtReceivesAndAnswers : Obligations.NewtReceivesAndAnswers := by
  intro by_ val peak mine other psdu rssi lqi s st ctl g finish
  refine ⟨exec_newtCtlWrite_plain, fun ha hi hr hlo hhi hne => ?_, fun hr hf => ⟨exec_newtRetuneDone_locked hr hf,
      exec_newtRetuneDone_again hr hf, exec_newtRetuneDone_fatal hr⟩, fun hon => exec_newtAgcStep hon peak, exec_newtPreambleAcquire,
    fun t hrx => ⟨exec_newtAntSelect_sfd hrx mine other, exec_newtAntSelect hrx mine other⟩, fun t b hrx hpro hlo hhi => ?_,
    fun a ha hat => ⟨exec_newtAckSend_sent ha hat, exec_newtAckSend_spent ha hat, exec_newtAckSend_refused ha hat⟩,
    fun ha => ⟨exec_rxrRdWrite ha, exec_newtRunWrite ha⟩⟩
  · have hne' : NEWT.NEWT_CTL ≠ NEWT.NEWT_STATUS := by decide
    refine ⟨_, exec_newtCtlWrite_channel ha hi hr hlo hhi hne, ?_, ?_, fun hv hen => ?_⟩
    · rw [State.rf, State.rd_newtListen _ hne']
      exact State.rf_newtRelocks _ (by omega)
    · rw [State.newtRetuning_newtListen, State.newtRetuning_newtRelocks]
    · rw [State.newt_newtListen]
      refine (congrArg Newt.g (s.newt_newtCtlSet val)).trans (if_pos ?_)
      rw [hv, hen]
      rfl
  · intro body s0
    refine ⟨exec_newtFrameReceive_badFcs rssi lqi hrx hpro hlo hhi, fun h hcrc hp => ?_⟩
    have hgood := exec_newtFrameReceive_good rssi lqi hrx hpro hlo hhi hcrc hp
    exact ⟨fun hn => hgood.trans (congrArg _ (if_neg (by rw [State.newtAnswers, hn]; decide))),
      fun hy => ⟨s.newtAckDue psdu rssi lqi h, hgood.trans (congrArg _ (if_pos hy)), rfl, rfl, rfl⟩⟩

end Sys2Proof.Machine
end

section
/-! What an abort and the end of a PPDU leave alone (R121, R130, R131, R172, R180, R283). -/

namespace Sys2Proof.Machine

open Reg

/-- A radio's hidden state is no register, no memory, no tile header and no message. -/
theorem hidden_radio (r : Nat) : Hidden (·.radio r) := by constructor <;> intros <;> rfl

variable (s : State)

/-- A record of the ring takes its sequence number and changes nothing else of the radio. -/
theorem State.radio_rxsWrite (r : Nat) (body : List Byte) : (s.rxsWrite r body).1.radio r =
    { s.radio r with recSeq := ((s.radio r).recSeq + 1) % 65536 } := by
  unfold State.rxsWrite
  extract_lets n w rd base seq s1
  have h1 : s1.radio r = { s.radio r with recSeq := ((s.radio r).recSeq + 1) % 65536 } := State.radio_modRadio_self ..
  split
  · exact h1
  · rw [State.radio_evt, State.radio_wf, (hidden_radio r).storeWrite, h1]

/-- The part of a radio that its gain loops, its chains and its tables do not concern: the reception and the latches. -/
def Radio.rxSide (x : Radio) : Rx × Tbl (List Nat) := (x.rx, x.latchAt)

/-- Readers of that part: what changes the radio beside it, it does not see. -/
theorem State.rxSide_modRadio {r : Nat} {f : Radio → Radio} (hf : ∀ x, (f x).rxSide = x.rxSide) :
    ((s.modRadio r f).radio r).rxSide = (s.radio r).rxSide := by
  rw [State.radio_modRadio_self, hf]

theorem State.rxSide_rxsWrite (r : Nat) (body : List Byte) : ((s.rxsWrite r body).1.radio r).rxSide = (s.radio r).rxSide := by
  rw [State.radio_rxsWrite]
  rfl
theorem State.rxSide_abortRecord (r reason : Nat) (x : Rx) :
    ((s.abortRecord r reason x).1.radio r).rxSide = (s.radio r).rxSide := by
  unfold State.abortRecord
  split
  · exact s.rxSide_rxsWrite ..
  · rfl
theorem State.rxSide_agcArm (r : Nat) : ((s.agcArm r).radio r).rxSide = (s.radio r).rxSide := by
  unfold State.agcArm
  refine (State.foldl_frame (fun u => (u.radio r).rxSide) ?_ ..).trans (s.rxSide_modRadio ?_)
  · intro u n
    rfl
  · intro x
    rfl

theorem State.radio_setChains (r mask st q : Nat) : (s.setChains r mask st).radio q = s.radio q := by
  have hstreams (u : State) : (u.syncStreams r).radio q = u.radio q := State.foldl_frame (·.radio q) (fun v e => by split <;> rfl) ..
  have hset (u : State) (n : Nat) : (if mask.testBit n then u.wf (RADIO.CHAIN_STATUS r n) 31 30 st else u).radio q = u.radio q := by
    split <;> rfl
  rw [State.setChains, State.syncChains, hstreams, State.radio_wr, State.radio_wr]
  exact State.foldl_frame (·.radio q) hset ..

theorem State.rxSide_tpFall (r p : Nat) (tx : Bool) : ((s.tpFall r p tx).radio r).rxSide = (s.radio r).rxSide := by
  have hempty (u : State) (k : Nat) : (u.tpEmpty r k).radio r = u.radio r := rfl
  unfold State.tpFall
  extract_lets st sq s1 v v1 s2 x s3
  have h1 : s1.radio r = s.radio r := by
    unfold s1
    split <;> rw [hempty, hempty]
  have h3 : (s3.radio r).rxSide = (s2.radio r).rxSide := s2.rxSide_modRadio fun _ => rfl
  exact (State.rxSide_rxsWrite ..).trans (h3.trans (congrArg Radio.rxSide h1))

theorem State.rxSide_chainsAtEnd (r : Nat) : ((s.chainsAtEnd r).radio r).rxSide = (s.radio r).rxSide := by
  have hfall (u : State) (m p : Nat) : ((if m.testBit p then (u.tpFall r p true).tpFall r p false else u).radio r).rxSide =
      (u.radio r).rxSide := by
    split
    · rw [State.rxSide_tpFall, State.rxSide_tpFall]
    · rfl
  unfold State.chainsAtEnd
  split
  · rfl
  extract_lets x u s1
  have hu : (u.radio r).rxSide = (s.radio r).rxSide := by
    unfold u
    split
    · rfl
    · exact (State.foldl_frame (fun v => (v.radio r).rxSide) (fun v p => hfall v _ p) ..).trans (s.rxSide_modRadio fun _ => rfl)
  have h1 : (s1.radio r).rxSide = (u.radio r).rxSide := by
    unfold s1
    split
    · rfl
    · rw [State.radio_evt, State.radio_setChains]
      exact u.rxSide_modRadio fun _ => rfl
  split
  · exact h1.trans hu
  · rw [State.radio_evt, State.radio_pathPost, State.radio_setChains]
    refine (s1.rxSide_modRadio fun _ => ?_).trans (h1.trans hu)
    rfl

/-! An abort (R172, R180). -/

/-- A reception is about to end: its abort is counted, RX_ABORT is latched, and its record is written. -/
def State.abortNoted (s : State) (r reason : Nat) : State × Option Nat :=
  ((s.countAbort r reason (s.radio r).rx.onset).seqEvent r evABORT).abortRecord r reason (s.radio r).rx

/-- The receiver is idle, and the reception cut is kept with where its record stands. -/
def State.abortEnds (s : State) (r reason : Nat) : State :=
  let x := (s.radio r).rx
  (s.abortNoted r reason).1.modRadio r fun y => { y with
    rx := {}, cutRx := some { tick := s.tick, reason := reason, rx := x, place := (s.abortNoted r reason).2 }
    mac := { y.mac with eifs := y.mac.eifs || (x.phase != .stage1 && x.phase != .stage2 && x.tp.isNone) } }

variable {s}

theorem State.rxAbort_inProgress {r : Nat} (reason : Nat) (hp : (s.radio r).rx.phase ≠ .idle) (hed : (s.radio r).rx.edAt ≤ s.tick) :
    s.rxAbort r reason = ((s.abortEnds r reason).agcArm r).chainsAtEnd r := by
  rw [State.rxAbort]
  exact if_neg (by simp [hp, hed])

/-- Where no reception is in progress and none was aborted on this tick, an abort changes nothing. -/
theorem State.rxAbort_idle {r : Nat} (reason : Nat) (hp : (s.radio r).rx.phase = .idle)
    (hc : ∀ c, (s.radio r).cutRx = some c → c.tick ≠ s.tick) : s.rxAbort r reason = s := by
  have hidle : (decide ((s.radio r).rx.phase = .idle) || decide (s.tick < (s.radio r).rx.edAt)) = true := by simp [hp]
  rw [State.rxAbort]
  refine (if_pos hidle).trans ?_
  cases hcut : (s.radio r).cutRx with
  | none => rfl
  | some c => exact if_neg (by simp [hc c hcut])

theorem State.radio_countAbort (s : State) (r reason : Nat) (onset : Bool) : (s.countAbort r reason onset).radio r = s.radio r := by
  unfold State.countAbort
  extract_lets f s1
  split <;> rfl
theorem State.tick_countAbort (s : State) (r reason : Nat) (onset : Bool) : (s.countAbort r reason onset).tick = s.tick := by
  unfold State.countAbort
  extract_lets f s1
  split <;> rfl

/-- An abort of a reception in progress leaves the receiver idle and RX_ABORT latched on the tick. -/
theorem State.rxAbort_shown {r : Nat} (reason : Nat) (hp : (s.radio r).rx.phase ≠ .idle) (hed : (s.radio r).rx.edAt ≤ s.tick) :
    ((s.rxAbort r reason).radio r).rx.phase = .idle ∧
      s.tick ∈ tget (fun _ => []) ((s.rxAbort r reason).radio r).latchAt evABORT := by
  have hside : ((s.rxAbort r reason).radio r).rxSide = ((s.abortEnds r reason).radio r).rxSide := by
    rw [State.rxAbort_inProgress reason hp hed, State.rxSide_chainsAtEnd, State.rxSide_agcArm]
  have hends : ((s.abortEnds r reason).radio r).rxSide = ({}, ((s.abortNoted r reason).1.radio r).latchAt) := by
    rw [State.abortEnds, State.radio_modRadio_self]
    rfl
  have hnoted : ((s.abortNoted r reason).1.radio r).latchAt =
      tput (fun _ => []) (s.radio r).latchAt evABORT (tget (fun _ => []) (s.radio r).latchAt evABORT ++ [s.tick]) := by
    refine (congrArg Prod.snd (State.rxSide_abortRecord ..)).trans ?_
    rw [Radio.rxSide, State.seqEvent, State.seqEventAt, State.radio_modRadio_self, State.radio_countAbort, State.tick_countAbort]
  have hrx := congrArg Prod.fst (hside.trans hends)
  have hlatch := congrArg Prod.snd (hside.trans hends)
  rw [hnoted] at hlatch
  refine ⟨congrArg Rx.phase hrx, ?_⟩
  rw [show ((s.rxAbort r reason).radio r).latchAt = _ from hlatch, tget_tput_self]
  exact List.mem_append_right _ (List.mem_singleton_self _)

end Sys2Proof.Machine
end

section
/-! Receptions open and qualify in stages (R114, R165 to R168, R170). -/

namespace Sys2Proof.Machine

open Reg

theorem exec_edDetect_eq (r : Fin 3) (prim whole : List Byte) (s : State) : exec (.edDetect r prim whole) s = execEdDetect r prim whole s := rfl
theorem exec_qualStage1Ok_eq (r : Fin 3) (corr : BitVec 9) (sub : BitVec 4) (level : Int) (s : State) :
    exec (.qualStage1Ok r corr sub level) s = execQualStage1Ok r corr sub level s := rfl
theorem exec_acFailTimeout_eq (r : Fin 3) (s : State) : exec (.acFailTimeout r) s = execAcFailTimeout r s := rfl
theorem exec_xcFailTimeout_eq (r : Fin 3) (s : State) : exec (.xcFailTimeout r) s = execXcFailTimeout r s := rfl
theorem exec_qualOk_eq (r : Fin 3) (peak : BitVec 9) (cfo : BitVec 16) (levels : List Byte) (ref : Int) (frac : BitVec 16) (s : State) :
    exec (.qualOk r peak cfo levels ref frac) s = execQualOk r peak cfo levels ref frac s := rfl
theorem exec_dsssLock_eq (r : Fin 3) (ago : BitVec 16) (s : State) : exec (.dsssLock r ago) s = execDsssLock r ago s := rfl
theorem exec_dsssSfdTimeout_eq (r : Fin 3) (short : Bool) (s : State) : exec (.dsssSfdTimeout r short) s = execDsssSfdTimeout r short s := rfl
theorem exec_lsigCheck_eq (r : Fin 3) (lsig : BitVec 24) (rssi : BitVec 16) (chainRssi : List Byte) (s : State) :
    exec (.lsigCheck r lsig rssi chainRssi) s = execLsigCheck r lsig rssi chainRssi s := rfl
theorem exec_sigFieldCheck_eq (r : Fin 3) (found : SigCheck) (stf : Option StfLevels) (s : State) :
    exec (.sigFieldCheck r found stf) s = execSigFieldCheck r found stf s := rfl

section Detect
variable {r : Fin 3} {s : State} {prim whole : List Byte}

/-- Power at the threshold opens a reception, or is counted where the radio is blanked. -/
theorem exec_edDetect (hact : (s.act r.val).testBit 17 = true) (hidle : (s.radio r.val).rx.phase = .idle)
    (h : ∃ k, k < 8 ∧ (s.participating r.val).testBit k = true ∧ min (-40) (sval 8 (s.rf (RADIO.RX_DET_CTL r.val) 31 24)) ≤
      sval 8 ((if s.tbOpen r.val then whole else prim).getD k 0x80).toNat) :
    exec (.edDetect r prim whole) s = .next (if s.blanked r.val then s.sat (RADIO.RF_BLANK_CNT r.val) 31 0 1
      else s.edBegin r.val s.tick) := by
  obtain ⟨k, hk, hpart, hthr⟩ := h
  have hany : ((List.range 8).any fun n => (s.participating r.val).testBit n &&
      decide (min (-40) (sval 8 (s.rf (RADIO.RX_DET_CTL r.val) 31 24)) ≤
        sval 8 ((if s.tbOpen r.val then whole else prim).getD n 0x80).toNat)) = true := by
    rw [List.any_eq_true]
    exact ⟨k, List.mem_range.mpr hk, by rw [hpart, decide_eq_true hthr]; rfl⟩
  rw [exec_edDetect_eq, execEdDetect]
  refine congrArg _ (if_neg ?_)
  rw [hany, hact, hidle]
  decide

end Detect

section Stages
variable {r : Fin 3} {s : State} {x : Rx} (hx : (s.radio r.val).rx = x)
include hx

theorem exec_qualStage1Ok {corr : BitVec 9} {sub : BitVec 4} (level : Int) (hp : x.phase = .stage1) (hw : s.tick ≤ x.edAt + qualTicks)
    (hg : (s.radio r.val).gainAt + 512 ≤ s.tick) (hc : max 1 (s.rf (RADIO.RX_DET_CTL r.val) 23 16) ≤ corr.toNat)
    (hs : sub.toNat = s.primaryIdx r.val ∨ (s.tbOpen r.val = true ∧ sub.toNat ∈ s.tbSubs r.val)) :
    exec (.qualStage1Ok r corr sub level) s = .next (s.modRadio r.val fun y => { y with
      agc := max 1 y.agc, rx := { x with phase := .stage2, s1At := s.tick, ref := some level } }) := by
  have hsub : (decide (sub.toNat = s.primaryIdx r.val) || (s.tbOpen r.val && (s.tbSubs r.val).contains sub.toNat)) = true := by
    simpa using hs
  subst hx
  rw [exec_qualStage1Ok_eq, execQualStage1Ok]
  refine congrArg _ (if_neg ?_)
  rw [hsub, hp, decide_eq_false (Nat.not_lt.mpr hw), decide_eq_false (Nat.not_lt.mpr hg), decide_eq_false (Nat.not_lt.mpr hc)]
  decide

theorem exec_acFailTimeout (hp : x.phase = .stage1) (hw : x.edAt + qualTicks ≤ s.tick) :
    exec (.acFailTimeout r) s = .next (s.rxAbort r.val 2) := by
  subst hx
  rw [exec_acFailTimeout_eq, execAcFailTimeout]
  exact congrArg _ (if_pos (by simp [hp, hw]))
theorem exec_xcFailTimeout (hp : x.phase = .stage2) (hw : x.s1At + qualTicks ≤ s.tick) :
    exec (.xcFailTimeout r) s = .next (s.rxAbort r.val 3) := by
  subst hx
  rw [exec_xcFailTimeout_eq, execXcFailTimeout]
  exact congrArg _ (if_pos (by simp [hp, hw]))

theorem exec_qualOk {peak : BitVec 9} {cfo : BitVec 16} (levels : List Byte) (ref : Int) (frac : BitVec 16) (hp : x.phase = .stage2)
    (hw : s.tick ≤ x.s1At + qualTicks) (hpk : max 1 (s.rf (RADIO.RX_DET_CTL r.val) 15 8) ≤ peak.toNat) (hhi : cfo.toInt ≤ 3000)
    (hlo : -3000 ≤ cfo.toInt) :
    let stamp := s.ns - 8200 - s.femDelay r.val x.chains 15 0
    let s1 := (s.freezeLevels r.val x.chains levels).modRadio r.val fun y => { y with agc := 2, rx := { x with
      phase := .lsig, stamp := stamp, startAt := s.tick - 2624, ref := some ref, qualChains := x.chains } }
    let s2 := (s1.seqEvent r.val evQUAL).macQual r.val
    exec (.qualOk r peak cfo levels ref frac) s =
      .next (((s2.nstr r.val).foldl (fun u q => u.macBusy q) s2).ftmOnRx r.val stamp frac.toNat) := by
  subst hx
  rw [exec_qualOk_eq, execQualOk]
  refine congrArg _ (if_neg ?_)
  rw [hp, decide_eq_false (Nat.not_lt.mpr hw), decide_eq_false (Nat.not_lt.mpr hpk), decide_eq_false (Int.not_lt.mpr hhi),
    decide_eq_false (Int.not_lt.mpr hlo)]
  decide

theorem exec_dsssLock (ago : BitVec 16) (hp : x.phase = .stage1 ∨ x.phase = .stage2) (hb : s.band r.val = 0)
    (hen : s.rbit (RADIO.RX_FORMAT_EN r.val) 0 = true) :
    exec (.dsssLock r ago) s = .next (s.modRadio r.val fun y => { y with rx := { x with
      phase := .dsss, stamp := s.ns - ago.toNat - s.femDelay r.val x.chains 15 0,
      startAt := s.tick - ago.toNat * 8 / 25, qualChains := x.chains } }) := by
  subst hx
  rw [exec_dsssLock_eq, execDsssLock]
  refine congrArg _ (if_neg ?_)
  rw [hb, hen]
  rcases hp with hp | hp <;> rw [hp] <;> decide

theorem exec_dsssSfdTimeout {short : Bool} (hp : x.phase = .dsss) (hw : x.edAt + (if short then 23040 else 46080) ≤ s.tick) :
    exec (.dsssSfdTimeout r short) s = .next (s.rxAbort r.val 3) := by
  subst hx
  rw [exec_dsssSfdTimeout_eq, execDsssSfdTimeout]
  exact congrArg _ (if_pos (by rw [Bool.and_eq_true, decide_eq_true_eq, decide_eq_true_eq]; exact ⟨hp, hw⟩))

section Lsig
variable {lsig : BitVec 24} (rssi : BitVec 16) (chainRssi : List Byte) (hp : x.phase = .lsig)
include hp

theorem exec_lsigCheck_fails (hl : lsigUs lsig.toNat = none) : exec (.lsigCheck r lsig rssi chainRssi) s =
    .next ((s.modRadio r.val fun y => { y with rx := { x with rssi := some (rssi.toNat, chainRssi) } }).rxAbort r.val 4) := by
  subst hx
  rw [exec_lsigCheck_eq, execLsigCheck]
  simp only [hl]
  exact congrArg _ (if_neg (by simp [hp]))
theorem exec_lsigCheck_passes {us : Nat} (hl : lsigUs lsig.toNat = some us) : exec (.lsigCheck r lsig rssi chainRssi) s =
    .next (s.modRadio r.val fun y => { y with rx := { x with
      rssi := some (rssi.toNat, chainRssi), phase := .sig, durNs := us * 1000, endAt := x.startAt + us * 320 } }) := by
  subst hx
  rw [exec_lsigCheck_eq, execLsigCheck]
  simp only [hl]
  exact congrArg _ (if_neg (by simp [hp]))

end Lsig

/-- A SIG field is looked at where one is expected: in the SIG phase, or as a DSSS header not yet read. -/
theorem exec_sigFieldCheck (found : SigCheck) (stf : Option StfLevels) (hp : x.phase = .sig ∨ (x.phase = .dsss ∧ x.sig = none)) :
    exec (.sigFieldCheck r found stf) s = .next (match found with
      | .more none => s
      | .more (some i) => if x.phase != .dsss && (!s.rxFormatOn r.val i.format.toNat || i.excluded) then s.rxAbort r.val 6 else s
      | .fails => s.rxAbort r.val (if x.phase = .dsss then 4 else 5)
      | .last g => s.sigPassed r.val g stf
      | .towpath h => if x.phase = .dsss then s else s.tpHeader r.val h) := by
  subst hx
  rw [exec_sigFieldCheck_eq, execSigFieldCheck]
  refine congrArg _ ((if_neg ?_).trans ?_)
  · rcases hp with hp | ⟨hp, hsig⟩
    · simp [hp]
    · simp [hp, hsig]
  · rcases found with (_ | i) | _ | g | h <;> rfl

end Stages

/-- Settles O32: each stage by the phase that it needs, and an abort by whether a reception is in progress. -/
theorem receptionQualifiesInStages : Obligations.ReceptionQualifiesInStages := by
  refine ⟨fun r prim whole short ago lsig rssi chainRssi s => ?_, fun n reason s _ =>
    ⟨State.rxAbort_idle reason, State.rxAbort_shown reason⟩⟩
  intro n x
  have hx : (s.radio n).rx = x := rfl
  refine ⟨fun hact hidle hpow => ⟨fun hb => ?_, fun hb => ?_⟩, fun corr sub level => exec_qualStage1Ok hx level, exec_acFailTimeout hx,
    exec_xcFailTimeout hx, fun peak cfo levels ref frac => exec_qualOk hx levels ref frac, exec_dsssLock hx ago, exec_dsssSfdTimeout hx,
    fun hp => ⟨exec_lsigCheck_fails hx rssi chainRssi hp, fun us => exec_lsigCheck_passes hx rssi chainRssi hp⟩,
    fun hp stf g => ⟨exec_sigFieldCheck hx _ stf hp, exec_sigFieldCheck hx _ stf hp, exec_sigFieldCheck hx _ stf hp⟩,
    fun hp stf i h => ⟨fun hno => ?_, fun hon hex => ?_, ?_⟩⟩
  · rw [exec_edDetect hact hidle hpow, if_pos hb]
  · rw [exec_edDetect hact hidle hpow, if_neg (by rw [hb]; decide)]
  · rw [exec_sigFieldCheck hx _ stf (.inl hp)]
    refine congrArg _ (if_pos ?_)
    rw [hp]
    rcases hno with hno | hno <;> rw [hno]
    · rfl
    · cases s.rxFormatOn n i.format.toNat <;> rfl
  · rw [exec_sigFieldCheck hx _ stf (.inl hp)]
    refine congrArg _ (if_neg ?_)
    rw [hp, hex, show s.rxFormatOn r.val i.format.toNat = true from hon]
    decide
  · rw [exec_sigFieldCheck hx _ stf (.inl hp)]
    exact congrArg _ (if_neg (by rw [hp]; decide))

end Sys2Proof.Machine
end

section
/-! The ends of receptions, their decisions and the decoder (R114, R145, R162, R170, R176, R177, R179, R181). -/

namespace Sys2Proof.Machine

open Reg

theorem exec_rxRestart_eq (r : Fin 3) (level : Int) (periodic : Bool) (s : State) :
    exec (.rxRestart r level periodic) s = execRxRestart r level periodic s := rfl
theorem exec_rxPpduEnd_eq (r : Fin 3) (tp : Option TpPayload) (s : State) : exec (.rxPpduEnd r tp) s = execRxPpduEnd r tp s := rfl
theorem exec_rxEnd_eq (r : Fin 3) (s : State) : exec (.rxEnd r) s = execRxEnd r s := rfl
theorem exec_rxDecided_eq (r : Fin 3) (recs : List RxMeas) (s : State) : exec (.rxDecided r recs) s = execRxDecided r recs s := rfl
theorem exec_codewordDecoded_eq (r : Fin 3) (arrived : List (BitVec 8)) (lane : Fin 13) (need : Option (BitVec 8)) (s : State) :
    exec (.codewordDecoded r arrived lane need) s = execCodewordDecoded r arrived lane need s := rfl
theorem exec_decodeDeadline_eq (r : Fin 3) (s : State) : exec (.decodeDeadline r) s = execDecodeDeadline r s := rfl
theorem exec_laneAudit_eq (r : Fin 3) (passed : Bool) (s : State) : exec (.laneAudit r passed) s = execLaneAudit r passed s := rfl
theorem exec_rxsRdWrite_eq (by_ : Req) (r : Fin 3) (val : Word) (s : State) : exec (.rxsRdWrite by_ r val) s = execRxsRdWrite by_ r val s := rfl

variable {r : Fin 3} {s : State}

section Reception
variable {x : Rx} (hx : (s.radio r.val).rx = x)
include hx

/-- A reception in progress is the one that a restart ends. -/
theorem State.restartable_inProgress (hp : x.phase ≠ .idle) (hed : x.edAt ≤ s.tick) : s.restartable r.val = some x := by
  subst hx
  exact (if_neg hp).trans (if_neg (Nat.not_lt.mpr hed))

/-- A stronger signal: ED on the next tick, or a count where the detector is blanked. -/
theorem exec_rxRestart {level ref : Int} (periodic : Bool) (hp : x.phase ≠ .idle) (hed : x.edAt ≤ s.tick) (href : x.ref = some ref)
    (hen : s.rbit (RADIO.RX_RESTART_CTL r.val) 31 = true)
    (hl : ref + (clampN 4 20 (s.rf (RADIO.RX_RESTART_CTL r.val) 4 0) : Nat) ≤ level) :
    let s1 := s.rxAbort r.val 8
    exec (.rxRestart r level periodic) s = .next (if s1.blanked r.val then s1.sat (RADIO.RF_BLANK_CNT r.val) 31 0 1
      else s1.edBegin r.val (s.tick + 1)) := by
  rw [exec_rxRestart_eq, execRxRestart]
  simp only [State.restartable_inProgress hx hp hed, href]
  exact congrArg _ ((if_neg (Int.not_lt.mpr hl)).trans (if_neg (by rw [hen]; decide)))

/-- A PPDU that is no Towpath frame and names no TXOP leaves its results to be decided. -/
theorem exec_rxPpduEnd_plain (hp : x.phase = .data ∨ x.phase = .hold) (hend : x.endAt ≤ s.tick) (htp : x.tp = none)
    (hsig : ∀ g, x.sig = some g → g.txop = none) : exec (.rxPpduEnd r none) s = .next
      ((((s.modRadio r.val fun y => { y with anchor := x.endAt, rx := {}, done := some y.rx }).sat (RADIO.RX_PPDU_CNT r.val)
        31 0 1).agcArm r.val).chainsAtEnd r.val) := by
  have hgate : ¬ ((x.phase != .data && x.phase != .hold) || decide (s.tick < x.endAt)) = true := by
    rw [decide_eq_false (Nat.not_lt.mpr hend)]
    rcases hp with hp | hp <;> rw [hp] <;> decide
  subst hx
  rw [exec_rxPpduEnd_eq, execRxPpduEnd]
  refine congrArg _ ((if_neg hgate).trans ?_)
  simp only [htp]
  cases hg : (s.radio r.val).rx.sig with
  | none => rfl
  | some g => simp only [hsig g hg]

end Reception

section Done
variable {d : Rx} (hd : (s.radio r.val).done = some d)
include hd

theorem exec_rxEnd (he : d.ended = false) (ht : d.endAt + 160 ≤ s.tick) : exec (.rxEnd r) s = .next
    ((s.modRadio r.val fun y => { y with done := some { d with ended := true } }).seqEventAt r.val evRXEND (d.endAt + 160)) := by
  rw [exec_rxEnd_eq, execRxEnd, hd]
  exact congrArg _ (if_pos (by simp [he, ht]))

theorem exec_decodeDeadline (hc : d.closed = false) (ht : d.endAt + 1280 ≤ s.tick) : exec (.decodeDeadline r) s = .next
    ((s.modRadio r.val fun y => { y with done := some { d with
      closed := true, cut := !d.buf.isEmpty, bad := d.bad ++ d.buf.map (·.1), buf := [], lanes := [] } }).sat
        (RADIO.RX_DEC_CNT r.val) 15 8 d.buf.length) := by
  rw [exec_decodeDeadline_eq, execDecodeDeadline]
  simp only [hd]
  exact congrArg _ (if_neg (by simp [hc, ht]))

/-- A PPDU that is no TB PPDU has one record, of no user. -/
def State.decidedRecord (s : State) (n : Nat) (d : Rx) : State :=
  (s.rxsWrite n (recordBody d { s.freeMeas with user := 255 } d.endKind)).1.took

/-- The decision of such a PPDU: nothing is left to be decided. -/
def State.decidedPlain (s : State) (n : Nat) (d : Rx) : State :=
  ((s.decidedRecord n d).seqEvent n evDECIDED).modRadio n fun y => { y with
    done := none, mac := { y.mac with eifs := y.mac.eifs || (d.fcsFail && d.tp.isNone) } }

omit hd in
theorem State.await_decidedPlain (s : State) (n : Nat) (d : Rx) : ((s.decidedPlain n d).mac n).await = (s.mac n).await := by
  have hrec : (s.decidedRecord n d).radio n = (s.rxsWrite n (recordBody d { s.freeMeas with user := 255 } d.endKind)).1.radio n := rfl
  rw [State.decidedPlain, State.mac, State.radio_modRadio_self, State.seqEvent, State.seqEventAt, State.radio_modRadio_self, hrec,
    State.radio_rxsWrite, State.mac]

theorem exec_rxDecided_plain (he : d.ended = true) (hresp : d.resp = none) (haw : (s.mac r.val).await = none)
    (htb : d.isTb = false) : exec (.rxDecided r []) s = .next (s.decidedPlain r.val d) := by
  have hawait := (s.await_decidedPlain r.val d).trans haw
  unfold State.decidedPlain State.decidedRecord at hawait ⊢
  rw [exec_rxDecided_eq, execRxDecided]
  simp only [hd]
  refine congrArg _ ((if_neg (by rw [he]; decide)).trans ?_)
  cases hsig : d.sig <;>
    simp only [hresp, htb, Option.isSome_none, Bool.false_eq_true, if_false, List.foldl_cons, List.foldl_nil, List.head?_nil,
      Option.getD_none, hawait]

end Done

/-! The decoder (R176, R177, R179). -/

theorem exec_codewordDecoded {y : Rx} (hy : s.cwRx r.val = some y) (arrived : List (BitVec 8)) (lane : Fin 13)
    (need : Option (BitVec 8)) :
    let y1 := y.arrive (s.rf (RADIO.RX_LANES r.val) 12 0) arrived
    let y2 := s.laneEnds r.val y1 lane.val need
    exec (.codewordDecoded r arrived lane need) s =
      .next (((s.setCwRx r.val y2).sat (RADIO.RX_DEC_CNT r.val) 7 0 (y1.bad.length - y.bad.length)).sat
        (RADIO.RX_DEC_CNT r.val) 31 16 (y2.bad.length - y1.bad.length)) := by
  intro y1 y2
  rw [exec_codewordDecoded_eq, execCodewordDecoded]
  simp only [hy]
  rfl

section Audit
variable {k : Nat} (hk : laneFrom (s.rf (RADIO.RX_LANES r.val) 12 0) (s.radio r.val).laneTurn = some k)
  (hms : s.rf (RADIO.RX_DEC_CTL r.val) 23 16 ≠ 0) (hlive : s.live (rTile r.val) = true)
  (hfree : ∀ y, s.cwRx r.val = some y → ∀ e ∈ y.lanes, e.1 ≠ k)
  (hdue : tget (fun _ => 0) (s.radio r.val).laneAt k + s.rf (RADIO.RX_DEC_CTL r.val) 23 16 * 500000 ≤ s.clock)
include hk hms hlive hfree hdue

/-- A lane holds a codeword. -/
def State.laneHolds (s : State) (n k : Nat) : Bool :=
  match s.cwRx n with
  | some y => y.lanes.any fun e => e.1 = k
  | none => false

/-- The audit of the lane in turn, by how many audits in a row have failed. -/
theorem exec_laneAudit (passed : Bool) :
    let n := r.val
    let act := s.rf (RADIO.RX_LANES n) 12 0
    let failed := s.rf (RADIO.RX_LANES n) 28 16
    let fails := if passed then 0 else tget (fun _ => 0) (s.radio n).laneFails k + 1
    let s1 := s.modRadio n fun y => { y with
      laneTurn := (k + 1) % 13, laneAt := tput (fun _ => 0) y.laneAt k s.clock,
      laneFails := tput (fun _ => 0) y.laneFails k (if 2 ≤ fails then 0 else fails) }
    exec (.laneAudit r passed) s = .next (if fails < 2 then s1
      else if act + failed = 2 ^ 13 - 1 then s1.setLanes n (act - 2 ^ k) (failed + 2 ^ k)
      else (s1.setLanes n (act - 2 ^ k) (failed + 2 ^ k)).axAsk 29 (rTile n) k) := by
  have hholds : s.laneHolds r.val k = false := by
    unfold State.laneHolds
    cases hy : s.cwRx r.val with
    | none => rfl
    | some y => simpa using hfree y hy
  intro n act failed fails s1
  rw [exec_laneAudit_eq, execLaneAudit]
  refine congrArg _ ((if_neg (by simp [hms, hlive])).trans ?_)
  simp only [hk]
  have hgate : ¬ (s.laneHolds r.val k || decide (s.clock < tget (fun _ => 0) (s.radio r.val).laneAt k +
      s.rf (RADIO.RX_DEC_CTL r.val) 23 16 * 500000)) = true := by
    rw [hholds, decide_eq_false (Nat.not_lt.mpr hdue)]
    decide
  exact if_neg hgate

end Audit

theorem exec_rxsRdWrite {by_ : Req} (val : Word) (ha : s.accepts by_ (rTile r.val) = true) :
    exec (.rxsRdWrite by_ r val) s = .next (s.wr (RADIO.RXS_RD r.val) (val &&& 0x7FFF)) := by
  rw [exec_rxsRdWrite_eq, execRxsRdWrite, State.onWrite_accepts _ ha]

/-- Settles O33: a restart by whether the detector is blanked, an end by what the PPDU was, and an audit by its failures in a row. -/
theorem receptionEndsAndIsDecided : Obligations.ReceptionEndsAndIsDecided := by
  intro by_ r level ref periodic val s n x
  have hx : (s.radio n).rx = x := rfl
  refine ⟨fun hp hed href hen hl => ⟨fun hb => ?_, fun hb => ?_⟩, exec_rxPpduEnd_plain hx, fun d => exec_rxEnd,
    fun d => exec_rxDecided_plain, fun y arrived lane need hy => exec_codewordDecoded hy arrived lane need, fun d => exec_decodeDeadline,
    fun k passed hk hms hlive hfree hdue => ?_, exec_rxsRdWrite val⟩
  · exact (exec_rxRestart hx periodic hp hed href hen hl).trans (congrArg _ (if_pos hb))
  · exact (exec_rxRestart hx periodic hp hed href hen hl).trans (congrArg _ (if_neg (by rw [hb]; decide)))
  · intro fails s1 act failed
    have haudit := exec_laneAudit hk hms hlive hfree hdue passed
    exact ⟨fun hf => haudit.trans (congrArg _ (if_pos hf)),
      fun hf hall => haudit.trans (congrArg _ ((if_neg (Nat.not_lt.mpr hf)).trans (if_pos hall))),
      fun hf hall => haudit.trans (congrArg _ ((if_neg (Nat.not_lt.mpr hf)).trans (if_neg hall)))⟩

end Sys2Proof.Machine
end

section
/-! The bodies of Uzoath's copies, atomics, waits and work items (R61, R97 to R106, R108, R148). -/

namespace Sys2Proof.Machine

variable {s u : State} {c : Uz} {ea a : Nat}

/-! FETCH (R97, R98). -/

section Fetch
variable (hop : c.i.op = 0x35) (hea : (c.opnd s).1 = .ea ea) (hf : c.fetchFault s ea = none)
include hop hea hf

/-- FETCH of nothing writes its completion word. -/
theorem Uz.body_fetch_none (hlen : fld (s.uz c).e 8 0 = 0) : c.body s =
    .ok ((s.wm (c.th.data.1 + 4 * fld (s.uz c).e 31 16) 4 (2 ^ 31)).modUz c fun x => ((c.opnd s).2 x).advance c.next, 0) := by
  simp only [Uz.body, hop, Uz.fetch, hea, hf, hlen, if_true, -Nat.reducePow]

/-- The copy that FETCH begins from a source. -/
def Uz.copyOf (c : Uz) (s : State) (ea : Nat) : CopySlot :=
  let x := s.uz c
  let isLocal := decide (ea < 2 ^ 31)
  let ord := !isLocal && bit (x.w (ea / 2 ^ 29 % 4)) 2
  { coreSrc := ea, devSrc := if isLocal then c.localAddr ea else window x ea, ordSrc := ord, isLocal := isLocal,
    dst := x.a.toNat, len := fld x.e 8 0, compl := 4 * fld x.e 31 16, waits := if ord then x.posted.length else 0 }

/-- FETCH takes a slot and goes on. -/
theorem Uz.body_fetch (hlen : fld (s.uz c).e 8 0 ≠ 0) (hroom : (s.uz c).copies.length < 4) : c.body s =
    .ok (s.modUz c fun y => { (((c.opnd s).2 y).advance c.next) with copies := y.copies ++ [c.copyOf s ea] }, 0) := by
  simp only [Uz.body, hop, Uz.fetch, hea, hf, if_neg hlen, if_neg (Nat.not_le.mpr hroom), Uz.copyOf, -Nat.reducePow]

end Fetch

theorem Uz.copyOf_local (h : ea < 2 ^ 31) :
    c.copyOf s ea = ⟨ea, c.localAddr ea, false, true, (s.uz c).a.toNat, fld (s.uz c).e 8 0, 4 * fld (s.uz c).e 31 16, 0⟩ := by
  simp only [Uz.copyOf, decide_eq_true h, Bool.not_true, Bool.false_and, if_true, Bool.false_eq_true, if_false]
theorem Uz.copyOf_device (h : 2 ^ 31 ≤ ea) :
    let x := s.uz c
    let ord := bit (x.w (ea / 2 ^ 29 % 4)) 2
    c.copyOf s ea = ⟨ea, window x ea, ord, false, x.a.toNat, fld x.e 8 0, 4 * fld x.e 31 16, if ord then x.posted.length else 0⟩ := by
  simp only [Uz.copyOf, decide_eq_false (Nat.not_lt.mpr h), Bool.not_false, Bool.true_and, Bool.false_eq_true, if_false]

/-! FADD and CAS (R99). -/

theorem Uz.atomic_here (f : Nat → Option Nat) (h : Machine.place c.th (s.uz c) ea 4 true = .ok (.here a)) :
    c.atomic s ea 4 f = .ok ((f (s.rm a 4)).elim s fun v => s.wm a 4 v, s.rm a 4) := by
  simp only [Uz.atomic, Uz.place_eq h, bind, Except.bind]
  cases f (s.rm a 4) <;> rfl

section Atomic
variable (hea : (c.opnd s).1 = .ea ea) (h : Machine.place c.th (s.uz c) ea 4 true = .ok (.here a))
include hea h

theorem Uz.body_fadd (hop : c.i.op = 0x36) : c.body s = .ok ((s.wm a 4 ((s.rm a 4 + (s.uz c).a.toNat) % 2 ^ 32)).modUz c fun x =>
    ({ ((c.opnd s).2 x) with a := wd (s.rm a 4) }).advance c.next, 0) := by
  simp only [Uz.body, hop, Uz.atomicOp, hea, Uz.atomic_here _ h, bind, Except.bind, if_true, Option.elim_some, -Nat.reducePow]

theorem Uz.body_cas (hop : c.i.op = 0x37) : c.body s =
    .ok ((if s.rm a 4 = (s.uz c).e.toNat then s.wm a 4 (s.uz c).a.toNat else s).modUz c fun x =>
      ({ ((c.opnd s).2 x) with a := wd (s.rm a 4) }).advance c.next, 0) := by
  have hne : (0x37 : Nat) ≠ 0x36 := by decide
  simp only [Uz.body, hop, Uz.atomicOp, hea, Uz.atomic_here _ h, bind, Except.bind, if_neg hne, -Nat.reducePow]
  split <;> rfl

end Atomic

/-! FENCE (R101). -/

theorem Uz.body_fence_done (hop : c.i.op = 0x38) (hp : (s.uz c).posted = []) (hc : (s.uz c).copies = []) :
    c.body s = .ok (s.modUz c fun x => x.advance c.next, 0) := by
  simp only [Uz.body, hop, Uz.fence, hp, hc, List.isEmpty_nil, Bool.and_true, if_true, State.uzDone]
theorem Uz.body_fence_waits (hop : c.i.op = 0x38) (h : (s.uz c).posted ≠ [] ∨ (s.uz c).copies ≠ []) :
    c.body s = .ok (s.modUz c fun x => { x with run := .fence }, 0) := by
  have hout : ¬ ((s.uz c).posted.isEmpty && (s.uz c).copies.isEmpty) = true := by
    rw [Bool.and_eq_true, List.isEmpty_iff, List.isEmpty_iff]
    exact not_and_or.mpr h
  simp only [Uz.body, hop, Uz.fence, if_neg hout]

/-! Work items (R102 to R105). -/

/-- GETW parks for SCHED in its turn. -/
def Uz.getwParked (c : Uz) (s : State) (ea : Nat) : State :=
  { (s.modUz c fun x => { (((c.opnd s).2 x).advance c.next) with run := .getw ea s.order }) with order := s.order + 1 }
/-- DONE hands its disposition over. -/
def Uz.doneGiven (c : Uz) (u : State) (v h : Nat) : State :=
  let t := u.modUz c fun x => { (x.advance c.next) with item := none }
  { t with sched := { t.sched with
      dones := t.sched.dones ++ [{ handle := h, disp := wd v, key := c.th.key, waits := (u.uz c).posted.length }] } }
/-- CANCEL parks for SCHED. -/
def Uz.cancelParked (c : Uz) (u : State) (v : Nat) : State :=
  let t := u.modUz c fun x => { (x.advance c.next) with run := .cancel }
  { t with sched := { t.sched with cancels := t.sched.cancels ++ [(c.th.key, v)] } }
/-- ENQ parks for SCHED with a record; `m` is the operand's register update. -/
def Uz.enqParked (c : Uz) (u : State) (m : Thread → Thread) (words : List Nat) : State :=
  let t := u.modUz c fun x => { ((m x).advance c.next) with run := .enq (c.i.opd % 8) }
  { t with sched := { t.sched with enqs := t.sched.enqs ++ [(c.th.key, words)] } }

theorem Uz.body_getw (hop : c.i.op = 0x39) (hea : (c.opnd s).1 = .ea ea) (hal : ea % 4 = 0) (hfit : ea + 32 ≤ c.th.data.2) :
    c.body s = .ok (c.getwParked s ea, 0) := by
  have halign : ¬ (ea % 4 != 0) = true := by simp [hal]
  have hrange : c.localRange ea 32 = true := by
    rw [Uz.localRange, decide_eq_true hfit, Bool.and_true, decide_eq_true_eq]
    omega
  simp only [Uz.body, hop, Uz.getw, hea, if_neg halign, hrange, Bool.not_true, Bool.false_eq_true, if_false, Uz.getwParked]

section Value
variable {v : Nat} (hv : c.value s 32 (c.opnd s).1 = .ok (u, v))
include hv

theorem Uz.body_done {h : Nat} (hop : c.i.op = 0x3A) (hi : (u.uz c).item = some h) : c.body s = .ok (c.doneGiven u v h, 0) := by
  simp only [Uz.body, hop, Uz.done, hv, bind, Except.bind, hi, Option.getD_some, Uz.doneGiven]
theorem Uz.body_cancel (hop : c.i.op = 0x3C) : c.body s = .ok (c.cancelParked u v, 0) := by
  simp only [Uz.body, hop, Uz.cancel, hv, bind, Except.bind, Uz.cancelParked]

/-- When a WAITEV's timeout falls. -/
def Uz.waitDue (c : Uz) (u : State) (v : Nat) : Option Nat :=
  if v = 0xFFFFFFFF then none else some (u.clock + (v * 500 + uzMhz c.th.tile.val - 1) / uzMhz c.th.tile.val)
/-- WAITEV waits in its turn. -/
def Uz.waitevParked (c : Uz) (u : State) (v : Nat) : State :=
  { (u.modUz c fun x => { (x.advance c.next) with run := .waitev u.order (c.waitDue u v) }) with order := u.order + 1 }

theorem Uz.body_waitev_none (hop : c.i.op = 0x3D) (h0 : v = 0) (hev : tget (fun _ => []) u.evtIn c.th.tile.val = []) :
    c.body s = .ok (u.modUz c fun x => { (x.advance c.next) with a := 0, e := 0 }, 0) := by
  simp only [Uz.body, hop, Uz.waitev, hv, bind, Except.bind, h0, hev, decide_true, List.isEmpty_nil, Bool.and_true, if_true]
theorem Uz.body_waitev (hop : c.i.op = 0x3D) (h : v ≠ 0 ∨ tget (fun _ => []) u.evtIn c.th.tile.val ≠ []) :
    c.body s = .ok ((c.waitevParked u v).evtDeliver c.th.tile.val, 0) := by
  have hwait : ¬ (decide (v = 0) && (tget (fun _ => []) u.evtIn c.th.tile.val).isEmpty) = true := by
    rw [Bool.and_eq_true, decide_eq_true_eq, List.isEmpty_iff]
    exact not_and_or.mpr h
  simp only [Uz.body, hop, Uz.waitev, hv, bind, Except.bind, if_neg hwait, Uz.waitevParked, Uz.waitDue]

end Value

theorem Uz.body_enq {words : List Nat} (hop : c.i.op = 0x3B) (hea : (c.opnd s).1 = .ea ea) (hl : c.loads ea 8 s = .ok (u, words)) :
    c.body s = .ok (c.enqParked u (c.opnd s).2 words, 0) := by
  simp only [Uz.body, hop, Uz.enq, hea, hl, bind, Except.bind, Uz.enqParked]

/-! SEQW (R108, R148). -/

theorem Uz.body_seqw {words : List Nat} (hop : c.i.op = 0x3E) (hea : (c.opnd s).1 = .ea ea) (hl : c.loads ea 4 s = .ok (u, words)) :
    c.body s = .ok ((u.bankWrite (c.th.tile.val - 2) (fld (u.uz c).a 10 10) (16 * fld (u.uz c).a 9 0) (words.flatMap (le 4))).modUz c
      fun x => ((c.opnd s).2 x).advance c.next, 0) := by
  simp only [Uz.body, hop, Uz.seqw, hea, hl, bind, Except.bind]

end Sys2Proof.Machine
end

section
/-! What Uzoath's threads have outstanding ends later (R57 to R60, R66, R68, R97, R98, R106). -/

namespace Sys2Proof.Machine

theorem exec_threadResponseArrive_eq (th : ThreadRef) (err : Bool) (s : State) :
    exec (.threadResponseArrive th err) s = execThreadResponseArrive th err s := rfl
theorem exec_postedStoreComplete_eq (th : ThreadRef) (n : Fin 8) (s : State) :
    exec (.postedStoreComplete th n) s = execPostedStoreComplete th n s := rfl
theorem exec_fetchCopyComplete_eq (th : ThreadRef) (n : Fin 4) (err : Bool) (s : State) :
    exec (.fetchCopyComplete th n err) s = execFetchCopyComplete th n err s := rfl
theorem exec_waitevTimeout_eq (th : ThreadRef) (s : State) : exec (.waitevTimeout th) s = execWaitevTimeout th s := rfl

variable {th : ThreadRef} {s : State} {err : Bool} {x : Thread} (hx : s.thread th.key = x)
include hx

/-! The response of a parked access, and a frame held back. -/

section Response
variable {word ext : Nat} (hrun : x.run = .resp word ext)
include hrun

/-- An instruction whose response arrives, and the state in which it runs. -/
def arrivedInsn (th : ThreadRef) (x : Thread) (word ext : Nat) (err : Bool) : Uz :=
  { th := th, i := Insn.ofWord word, ext := ext, pc := x.pc, arrived := true, dataErr := err }
/-- The thread of the response runs. -/
def State.unparked (s : State) (th : ThreadRef) (x : Thread) : State := s.setThread th.key { x with run := .running }

theorem exec_threadResponseArrive_done {u : State} {cause : Nat}
    (hb : (arrivedInsn th x word ext err).body (s.unparked th x) = .ok (u, cause)) : exec (.threadResponseArrive th err) s =
      .next (if cause = 0 then u else u.trapAfter th cause x.pc) := by
  subst hx
  unfold arrivedInsn State.unparked at hb
  rw [exec_threadResponseArrive_eq, execThreadResponseArrive]
  simp only [hrun, hb, State.conclude]
  cases cause <;> rfl
theorem exec_threadResponseArrive_trap {u : State} {cause addr : Nat}
    (hb : (arrivedInsn th x word ext err).body (s.unparked th x) = .error (.trap u cause addr)) :
    exec (.threadResponseArrive th err) s = .next (u.trapBefore th cause addr false) := by
  subst hx
  unfold arrivedInsn State.unparked at hb
  rw [exec_threadResponseArrive_eq, execThreadResponseArrive]
  simp only [hrun, hb, State.conclude]

end Response

theorem exec_threadResponseArrive_frame {cause addr saved info : Nat} (hrun : x.run = .frame cause addr saved info)
    (hbusy : x.devBusy = false) : exec (.threadResponseArrive th err) s =
      .next ((s.setThread th.key { x with run := .running }).trapEnter th cause addr saved info) := by
  subst hx
  rw [exec_threadResponseArrive_eq, execThreadResponseArrive]
  simp only [hrun, hbusy, Bool.false_eq_true, if_false]

/-! A posted store. -/

theorem exec_postedStoreComplete {k : Fin 8} {p : PostedStore} (hp : x.posted[k.val]? = some p)
    (hfirst : ∀ q ∈ x.posted.take k.val, q.dev / 4 ≠ p.dev / 4) :
    let r := s.busWrite (.tile th.tile) p.dev (le p.size p.val)
    let y := r.1.thread th.key
    exec (.postedStoreComplete th k) s = .next (((r.1.setThread th.key { y with
      posted := dropNth k.val y.posted
      postHold := y.postHold && k.val != 0
      copies := y.copies.map fun (q : CopySlot) => if k.val < q.waits then { q with waits := q.waits - 1 } else q
      traps := if r.2 = .decode then y.traps ++ [{ cause := 7, addr := p.core, posted := true }] else y.traps }).postedDone
      th.key k.val).fenceCheck th) := by
  have hnone : ¬ ((x.posted.take k.val).any fun q => q.dev / 4 = p.dev / 4) = true := by
    rw [List.any_eq_true]
    rintro ⟨q, hq, heq⟩
    exact hfirst q hq (of_decide_eq_true heq)
  subst hx
  rw [exec_postedStoreComplete_eq, execPostedStoreComplete]
  simp only [hp, if_neg hnone]

/-! A copy. -/

section Copy
variable {j : Fin 4} {q : CopySlot} (hq : x.copies[j.val]? = some q)
include hq

/-- The copy moves its bytes and writes its completion word. -/
def State.copyDone (s : State) (th : ThreadRef) (j : Nat) (q : CopySlot) (bytes : List Byte) : State :=
  ((s.setThread th.key { s.thread th.key with copies := dropNth j (s.thread th.key).copies }).wbytes (th.data.1 + q.dst) bytes).wm
    (th.data.1 + q.compl) 4 (2 ^ 31 + q.len)
/-- The copy leaves an imprecise trap and the error. -/
def State.copyFailed (s : State) (th : ThreadRef) (j : Nat) (q : CopySlot) (cause : Nat) : State :=
  (s.setThread th.key { s.thread th.key with
    copies := dropNth j (s.thread th.key).copies
    traps := (s.thread th.key).traps ++ [{ cause := cause, addr := q.coreSrc, posted := false }] }).wm
      (th.data.1 + q.compl) 4 (2 ^ 31 + 2 ^ 30)

theorem exec_fetchCopyComplete_local (hl : q.isLocal = true) (ho : q.ordSrc = false) : exec (.fetchCopyComplete th j err) s =
    .next ((s.copyDone th j.val q (s.rbytes q.devSrc q.len)).fenceCheck th) := by
  subst hx
  rw [exec_fetchCopyComplete_eq, execFetchCopyComplete]
  simp only [hq, ho, hl, Bool.false_and, Bool.not_true, Bool.false_eq_true, if_false, if_true, decide_true, Bool.not_false,
    Bool.and_true, State.copyDone, -Nat.reducePow]

variable (hl : q.isLocal = false) (ho : q.ordSrc = true → q.waits = 0 ∧ ∀ p ∈ x.copies.take j.val, p.isLocal = true)
include hl ho

omit hx hl hq in
/-- The order of its window does not hold the copy. -/
theorem copy_free : ¬ (q.ordSrc && (q.waits != 0 || (x.copies.take j.val).any fun p => !p.isLocal)) = true := by
  rw [Bool.and_eq_true, Bool.or_eq_true, List.any_eq_true]
  rintro ⟨hord, hheld⟩
  obtain ⟨hw, hall⟩ := ho hord
  rcases hheld with hheld | ⟨p, hp, hdev⟩
  · simp [hw] at hheld
  · simp [hall p hp] at hdev

theorem exec_fetchCopyComplete_device (hok : (s.busRead (.tile th.tile) q.devSrc q.len).2.1 = .ok) :
    let r := s.busRead (.tile th.tile) q.devSrc q.len
    exec (.fetchCopyComplete th j false) s = .next ((r.1.copyDone th j.val q r.2.2).fenceCheck th) := by
  have hfree := copy_free ho
  subst hx
  rw [exec_fetchCopyComplete_eq, execFetchCopyComplete]
  simp only [hq, if_neg hfree, hl, hok, Bool.not_false, Bool.and_false, Bool.false_and, Bool.false_eq_true, if_false, if_true, decide_true,
    Bool.and_true, State.copyDone, -Nat.reducePow]

theorem exec_fetchCopyComplete_fails (hbad : (s.busRead (.tile th.tile) q.devSrc q.len).2.1 ≠ .ok) :
    let r := s.busRead (.tile th.tile) q.devSrc q.len
    exec (.fetchCopyComplete th j err) s =
      .next ((r.1.copyFailed th j.val q (if r.2.1 = .decode then 7 else 8)).fenceCheck th) := by
  have hfree := copy_free ho
  subst hx
  rw [exec_fetchCopyComplete_eq, execFetchCopyComplete]
  simp only [hq, if_neg hfree, hl, hbad, Bool.not_false, Bool.and_false, Bool.false_and, Bool.false_eq_true, if_false, decide_false,
    Bool.true_and, State.copyFailed, -Nat.reducePow]

end Copy

/-! A WAITEV's timeout. -/

theorem exec_waitevTimeout {since due : Nat} (hrun : x.run = .waitev since (some due)) (hdue : due ≤ s.clock) :
    exec (.waitevTimeout th) s = .next (s.setThread th.key { x with a := 0, e := 0, run := .running }) := by
  subst hx
  rw [exec_waitevTimeout_eq, execWaitevTimeout]
  simp only [hrun]
  exact congrArg _ (if_neg (Nat.not_lt.mpr hdue))

omit hx in
/-- Settles O60: each operation by its body, and what is outstanding by what held it. -/
theorem uzoathSystemOperations : Obligations.UzoathSystemOperations := by
  refine ⟨fun th s c hn hg => ?_, fun th k j err s => ?_⟩
  · intro x n m len tile upd
    have completes {i : Instr} {op : Nat} {u : State} (hi : exec i s = .next (s.issue th fun n => n.op = op)) (hop : n = op)
        (hb : c.body s = .ok (u, 0)) : exec i s = .next u := exec_completes hi hn (by simpa using hop) hg hb
    refine ⟨fun ea hop hea hf => ⟨fun h0 => completes rfl hop (Uz.body_fetch_none hop hea hf h0), fun h0 hroom hlow => ?_,
        fun h0 hroom hhigh => ?_⟩,
      fun ea a hea hp => ⟨fun hop => completes rfl hop (Uz.body_fadd hea hp hop), fun hop => completes rfl hop (Uz.body_cas hea hp hop)⟩,
      fun hop => ⟨fun hp hc => completes rfl hop (Uz.body_fence_done hop hp hc), fun h => completes rfl hop (Uz.body_fence_waits hop h)⟩,
      fun ea hop hea hal hfit _ => completes rfl hop (Uz.body_getw hop hea hal hfit), fun u v hv => ⟨fun hop h hi => ?_, fun hop => ?_,
        fun hop => ⟨fun h0 hev => completes rfl hop (Uz.body_waitev_none hv hop h0 hev),
          fun h => completes rfl hop (Uz.body_waitev hv hop h)⟩⟩,
      fun ea u words hop hea hl => ?_, fun ea u words hop hea hl => completes rfl hop (Uz.body_seqw hop hea hl)⟩
    · have hb := Uz.body_fetch hop hea hf h0 hroom
      rw [Uz.copyOf_local hlow] at hb
      exact completes rfl hop hb
    · intro ord
      have hb := Uz.body_fetch hop hea hf h0 hroom
      rw [Uz.copyOf_device hhigh] at hb
      exact completes rfl hop hb
    · refine ⟨_, completes rfl hop (Uz.body_done hv hop hi), ?_, rfl, fun _ => rfl, fun _ => rfl⟩
      exact congrArg Thread.item (State.thread_setThread_self u ..)
    · refine ⟨_, completes rfl hop (Uz.body_cancel hv hop), ?_, rfl, fun _ => rfl, fun _ => rfl⟩
      exact congrArg Thread.run (State.thread_setThread_self u ..)
    · refine ⟨_, completes rfl hop (Uz.body_enq hop hea hl), ?_, rfl, fun _ => rfl, fun _ => rfl⟩
      exact congrArg Thread.run (State.thread_setThread_self u ..)
  · intro x
    have hx : s.thread th.key = x := rfl
    refine ⟨fun word ext hrun => ?_, fun cause addr saved info => exec_threadResponseArrive_frame hx,
      fun p => exec_postedStoreComplete hx, fun q => exec_fetchCopyComplete_local hx, fun q hq hl ho => ?_,
      fun since due => exec_waitevTimeout hx⟩
    · intro c s1
      exact ⟨fun u hb => (exec_threadResponseArrive_done hx hrun hb).trans (congrArg _ (if_pos rfl)),
        fun u cause h0 hb => (exec_threadResponseArrive_done hx hrun hb).trans (congrArg _ (if_neg h0)),
        fun u cause addr hb => exec_threadResponseArrive_trap hx hrun hb⟩
    · intro r y
      refine ⟨fun hok herr => ?_, exec_fetchCopyComplete_fails hx hq hl ho⟩
      rw [herr]
      exact exec_fetchCopyComplete_device hx hq hl ho hok

end Sys2Proof.Machine
end
